-- ==== Sys2Proof/Word.lean ====
section
/-! DEFINITION. The words of the T20: bytes, register words, ticks, and the plainest helpers on them. -/

namespace Sys2Proof

/-- A byte of scratchpad, pool or host memory. -/
abbrev Byte := BitVec 8

/-- A 32-bit register word, and the bit pattern of a W32 or I32 element. -/
abbrev W32 := BitVec 32

/-- A 64-bit word: scalar registers, operand words, instruction words. -/
abbrev W64 := BitVec 64

/-- Bits `[hi:lo]` of a natural number, as the manual writes a field (R2). -/
def field (n hi lo : Nat) : Nat := (n >>> lo) % 2 ^ (hi + 1 - lo)

/-- Bit `i` of a natural number. -/
def bitAt (n i : Nat) : Bool := n.testBit i

/-- 1 for true, 0 for false. -/
def b2n (b : Bool) : Nat := if b then 1 else 0

/-- Sums a list of naturals. -/
def sumNat (l : List Nat) : Nat := l.foldl (· + ·) 0

/-- `a / b` rounded up (`⌈a ÷ b⌉` of the manual). -/
def ceilDiv (a b : Nat) : Nat := (a + b - 1) / b

end Sys2Proof
end

