-- ==== Sys2Proof/Syntax.lean ====
section
/-! DEFINITION. The commands of the T20 as a block, and the records their operands are made of. -/

namespace Sys2Proof

/-- Operands of a Boloc instruction in format R (Table 13-3), guard included (R392). -/
structure ROps where
  gneg : Bool := false
  gp : BitVec 3 := 0
  sd : BitVec 6 := 0
  sa : BitVec 6 := 0
  sb : BitVec 6 := 0
  sc : BitVec 6 := 0
  ax : BitVec 4 := 0
  ay : BitVec 4 := 0
  az : BitVec 4 := 0
  x : BitVec 10 := 0
  deriving DecidableEq, Repr

/-- Operands of a Boloc instruction in format I (Table 13-3), guard included (R392). -/
structure IOps where
  gneg : Bool := false
  gp : BitVec 3 := 0
  sd : BitVec 6 := 0
  sa : BitVec 6 := 0
  imm : BitVec 34 := 0
  deriving DecidableEq, Repr

/-- Operands of a Boloc instruction in format U (Table 13-3), guard included (R392). -/
structure UOps where
  gneg : Bool := false
  gp : BitVec 3 := 0
  sd : BitVec 6 := 0
  imm : BitVec 40 := 0
  deriving DecidableEq, Repr

/-- The 64-byte message and tile header (Table 11-5). `flags` holds word 5 bits [8:0]. -/
structure Hdr where
  kind : BitVec 8 := 0
  fmt : BitVec 4 := 0
  blk : BitVec 4 := 0
  mittens : BitVec 8 := 0
  scaleLoc : BitVec 16 := 0
  dim0 : BitVec 24 := 0
  dim1 : BitVec 32 := 0
  layer : BitVec 20 := 0
  mb : BitVec 4 := 0
  flags : BitVec 9 := 0
  epoch : W32 := 0
  deadline : W32 := 0
  src : BitVec 17 := 0
  srcUnit : BitVec 15 := 0
  tag : BitVec 15 := 0
  resp : Bool := false
  chan : BitVec 16 := 0
  len : W32 := 0
  arg : BitVec 128 := 0
  dst : BitVec 17 := 0
  dstUnit : BitVec 15 := 0
  deriving DecidableEq, Repr

/-- A contribution or verdict cell of the guyline (Table 11-4); `good` says that its CRC-32C held. -/
structure GuyCell where
  seq : BitVec 3 := 0
  copy : Bool := false
  flags : BitVec 4 := 0
  epoch : W32 := 0
  tseal : W32 := 0
  good : Bool := true
  deriving DecidableEq, Repr

/-- A timing cell of the guyline (Table 11-4): its TIME, a pitch count and a fraction in 1/1,024 tick; `good` says that its
CRC-32C held. -/
structure TimeCell where
  seq : BitVec 3 := 0
  copy : Bool := false
  tick : Nat := 0
  frac : Nat := 0
  good : Bool := true
  deriving DecidableEq, Repr

/-- What the header of one received data flit says beyond its message's lane and route (Table 11-2): its place in the
message, its payload bytes, its credit return, and whether its FCRC held. -/
structure Flit where
  som : Bool := true
  eom : Bool := true
  len : Nat := 0
  crvl : Nat := 0
  crpool : Nat := 3
  crcnt : Nat := 0
  good : Bool := true
  deriving DecidableEq, Repr

/-- What the FEC corrected in the codewords since the last command of the port: codewords, and symbols on each lane (R343,
Table 11-12). -/
structure Fec where
  words : Nat := 0
  symbols : List Nat := []
  deriving DecidableEq, Repr

/-- The identity of a port's module, as exchanged in IDENT and carried by link flits (R336, Table 11-7). -/
structure PortId where
  serial : Nat := 0
  addr : BitVec 17 := 0
  valid : Bool := false
  port : Nat := 0
  deriving DecidableEq, Repr

/-- What a DISC_IDENT answer carries of the peer (R348), and the peer's ports that are UP, which discovery has to know
(DESIGN CHOICE, log entry 41). -/
structure Ident where
  serial : Nat := 0
  stepping : BitVec 16 := 0
  level : BitVec 16 := 0
  addr : BitVec 17 := 0
  valid : Bool := false
  port : Nat := 0
  lanes : Nat := 0
  cableSerial : Nat := 0
  cableLength : BitVec 16 := 0
  cableAsym : BitVec 16 := 0
  upPorts : BitVec 24 := 0
  deriving DecidableEq, Repr

/-- What the lantern measures in one control period (R420): powers in watts, per die where a list; `lim` is what the thermal
model allows each die, and `energy` is in mJ. -/
structure Meas where
  pnc : Nat := 0
  pmin : Nat := 0
  lim : List Nat := []
  die : List Nat := []
  now : Nat := 0
  mean : Nat := 0
  mv : Nat := 0
  ma : Nat := 0
  energy : Nat := 0
  deriving DecidableEq, Repr

/-- An image of boot flash or of a load (Table 16-1), with the outcome of each cryptographic check of R471. -/
structure Image where
  magic : W32 := 0
  type : Nat := 0
  key : Nat := 0
  hdrver : Nat := 0
  version : W32 := 0
  svn : Nat := 0
  hwMin : Nat := 0
  hwMax : Nat := 0
  plMin : Nat := 0
  plMax : Nat := 0
  tested : List W32 := []
  payloadLen : Nat := 0
  keyDigest : Nat := 0
  sigOk : Bool := false
  hashOk : Bool := false
  payloadDigest : Nat := 0
  manifestDigest : Nat := 0
  deriving DecidableEq, Repr

/-- The commands of the block: one constructor per row of opcode_table.json, each a whole and indivisible step
(95_what_each_step_holds.md). DESIGN CHOICE, log entry 1 says how the operands were chosen. -/
inductive Instr where
  /-- FAR_WRITE_TIMEOUT (R304): A far-tier write gets no completion within FAR_TIMEOUT ticks and fails with reason 2, which reports FAR_WRITE_FAIL and ends an eviction as a cancel. -/
  | farWriteTimeout (id : Nat)
  /-- COPY (R460): A COPY descriptor starts a move between host and pool. -/
  | copy (q : Nat) (slot : Nat)
  /-- COPY_COMPLETE (R460): A COPY descriptor finishes DONE or FAILED. -/
  | copyComplete (q : Nat) (slot : Nat) (st : Nat) (data : List Byte)
  /-- PROGRAM_START (R458): At START_TICK the loaded cores are started. -/
  | programStart (q : Nat) (slot : Nat)
  /-- WAIT_COMPLETE (R461): A WAIT descriptor completes when its tick arrives. -/
  | waitComplete (q : Nat) (slot : Nat)
  /-- PIT_CMD_LOAD (R38): PIT_CMD.LOAD on a master loads PIT_SET into the pitch counter. -/
  | pitCmdLoad
  /-- TIMING_EXCHANGE (R40): Every 1,024 ticks a follower starts a timing-cell exchange with its parent. -/
  | timingExchange
  /-- SYNC (R338): A SYNC timing cell carrying t1 is received. -/
  | sync (port : Nat) (g : TimeCell)
  /-- DELAY_REQ (R338): A DELAY_REQ timing cell carrying t3 is received by the parent, which answers with DELAY_RESP. -/
  | delayReq (port : Nat) (g : TimeCell)
  /-- DELAY_RESP (R40): A DELAY_RESP cell is received; the child computes the offset, slews or steps, and moves between alignment states. -/
  | delayResp (port : Nat) (g : TimeCell)
  /-- EXCHANGE_MISSING (R41): Three consecutive exchanges are missing, and a LOCKED follower enters HOLDOVER. -/
  | exchangeMissing
  /-- HOLDOVER_LIMIT (R41): PIT_HOLD_LIMIT × 1,024 ticks elapse in HOLDOVER, and the follower enters FREE. -/
  | holdoverLimit
  /-- LAUNCH_FIRE (R47): A launch-queue entry reaches its target tick and fires its action into its unit's queue. -/
  | launchFire (c : Nat)
  /-- WAIT_TICK_RESUME (R49): A core stalled on WAIT.TICK resumes once the count reaches its tick. -/
  | waitTickResume (c : Nat)
  /-- T_SEAL_REACHED (R267): The count reaches the latched T_seal; flags are ORed, the contribution is sent, the state becomes SEALED and the expected slices are fixed. -/
  | tSealReached
  /-- GUYLINE_CONTRIBUTION (R268): A contribution cell is received; once all children have arrived, the interior module ORs and forwards, or the root issues the verdict. -/
  | guylineContribution (port : Nat) (g : GuyCell)
  /-- GUYLINE_VERDICT (R269): A verdict cell is received and is held, forwarded, ignored as stray, or recorded as late. -/
  | guylineVerdict (port : Nat) (g : GuyCell)
  /-- VERDICT_APPLY (R272): At T_seal + GUY_BOUND the module applies the held verdict, or strikes locally if none is held. -/
  | verdictApply
  /-- FLY_MERGE (R273): After a stake, a groundsheet copies the invalid segments into a staked fly version and frees the old page. -/
  | flyMerge (page : Nat)
  /-- STEP_ENABLE (R258): Writing MOD_STEP_CTRL.EN = 1 in IDLE enters OPEN for MOD_EPOCH. -/
  | stepEnable
  /-- STEP_DISABLE (R260): Writing MOD_STEP_CTRL.EN = 0 in OPEN or SEALED discards the step and enters IDLE. -/
  | stepDisable
  /-- MOD_EPOCH_WRITE (R260): A write to MOD_EPOCH is applied in IDLE or DIVERGED; otherwise it is ignored and recorded as a clamp. -/
  | modEpochWrite (v : W32)
  /-- STEP_CMD_SEAL (R266): MOD_STEP_CMD.SEAL seals at MOD_STEP_SEALT. -/
  | stepCmdSeal
  /-- STEP_CMD_ABORT (R271): MOD_STEP_CMD.ABORT raises USER_ABORT for the current epoch. -/
  | stepCmdAbort
  /-- CLEAR_DIVERGE (R286): MOD_STEP_CMD.CLEAR_DIVERGE leaves DIVERGED for OPEN at MOD_EPOCH. -/
  | clearDiverge
  /-- MOD_GSCALE_WRITE (R275): A write to MOD_GSCALE is taken to the nearest power of two in range. -/
  | modGscaleWrite (v : W32)
  /-- MOD_GSCALE_CTRL_WRITE (R275): A write to MOD_GSCALE_CTRL clamps MIN_EXP and may move GSCALE into the new range. -/
  | modGscaleCtrlWrite (v : W32)
  /-- GATHER_REQ (R251): A gather request reaches its owning groundsheet and is queued, held or answered as stale. -/
  | gatherReq (h : Hdr)
  /-- GATHER_SERVE (R250): The gather converter begins serving the earliest-deadline request and builds and sends the tile. -/
  | gatherServe (n : Nat)
  /-- GATHER_RESP (R314): A gather response reaches the requesting cell, completing its transfer, or is discarded after narrowing. -/
  | gatherResp (h : Hdr) (payload : List Byte)
  /-- CONTRIB (R229): A reduced-contribution piece reaches its owning groundsheet and is looked up, checked, staged or dropped. -/
  | contrib (h : Hdr) (payload : List Byte)
  /-- SLICE_UPDATE (R232): The update engine takes a ready slice and applies its group's rule, writing fly versions. -/
  | sliceUpdate (n : Nat)
  /-- DW_PIECE_TAKE (R373): A collective unit takes a dW piece from a local cell and sums it into its region's local value. -/
  | dwPieceTake (c : Nat) (h : Nat)
  /-- DW_PIECE (R376): A DW_PIECE partial arrives over the fabric at a collective unit and joins the region's tree sum. -/
  | dwPiece (h : Hdr) (payload : List Byte)
  /-- COLL (R382): A COLL message is received and matched to its collective, or held. -/
  | coll (h : Hdr) (payload : List Byte)
  /-- EXCH (R382): An EXCH message is received and matched to its collective. -/
  | exch (h : Hdr) (payload : List Byte)
  /-- COLLECTIVE_COMPLETE (R383): A collective finishes writing its destination. -/
  | collectiveComplete (c : Nat) (h : Nat)
  /-- ACK (R361): A channel ACK is received and ACKED advances. -/
  | ack (h : Hdr)
  /-- ACK_DELAY (R361): 32 ticks after a delivery the receiver sends its ACK. -/
  | ackDelay (ctx : Nat)
  /-- CHANNEL_RTO (R362): RTO expires without progress, so the sender retransmits or enters ERROR. -/
  | channelRto (ctx : Nat)
  /-- CHAN_OPEN (R360): FAB_CHAN_CMD OPEN reads and clamps the context and opens it. -/
  | chanOpen (ctx : Nat)
  /-- CHAN_CLOSE (R360): FAB_CHAN_CMD CLOSE closes a context and discards unacknowledged messages. -/
  | chanClose (ctx : Nat)
  /-- CHAN_RESET (R360): FAB_CHAN_CMD RESET closes and reopens a context. -/
  | chanReset (ctx : Nat)
  /-- TXN_TIMEOUT (R357): A transaction times out and is retried, or fails after its last retry. -/
  | txnTimeout (tag : Nat)
  /-- ROUTE_ENTRY_WRITE (R351): A write to the route-table window updates every die's copy. -/
  | routeEntryWrite (a : Nat) (v : W32)
  /-- PORT_ENABLE (R342): Writing FAB_PORT_CTRL.EN = 1 starts training. -/
  | portEnable (p : Nat)
  /-- PORT_DISABLE (R342): Writing FAB_PORT_CTRL.EN = 0 enters DISABLED. -/
  | portDisable (p : Nat)
  /-- UNFENCE (R342): FAB_PORT_CTRL.UNFENCE records the new serial and brings a fenced port UP. -/
  | unfence (p : Nat)
  /-- TRAIN_COMPLETE (R344): PMD training completes and the port enters ALIGN, or holds with no usable lanes. -/
  | trainComplete (p : Nat) (four : Bool) (low : Bool) (high : Bool)
  /-- ALIGN_COMPLETE (R342): Codeword lock and deskew complete, and the port enters IDENT. -/
  | alignComplete (p : Nat)
  /-- ALIGN_TIMEOUT (R342): Alignment is not locked within 1 ms, and the port returns to TRAIN. -/
  | alignTimeout (p : Nat)
  /-- IDENT_COMPLETE (R342): Identity has been exchanged and the cable memory read, and the port enters UP or FENCED. -/
  | identComplete (p : Nat) (serial : Nat) (addr : BitVec 17) (valid : Bool) (peerPort : Nat) (cable : List Byte)
  /-- LANE_FAULT (R343): A lane loses signal or lock or exceeds its error limit, and the port retrains. -/
  | laneFault (p : Nat) (lane : Nat)
  /-- DISC_START (R348): FAB_DISC_CMD.START begins breadth-first discovery from the root. -/
  | discStart
  /-- DISC_ABORT (R364): FAB_DISC_CMD.ABORT stops discovery. -/
  | discAbort
  /-- DISC_PROBE (R349): A DISC_PROBE is forwarded along its route, or answered with DISC_IDENT at its destination. -/
  | discProbe (port : Nat) (hops : Nat) (h : Hdr)
  /-- DISC_IDENT (R348): A DISC_IDENT reaches the root, which records it and assigns an address or continues. -/
  | discIdent (port : Nat) (hops : Nat) (h : Hdr) (peer : Ident)
  /-- DISC_ASSIGN (R350): A DISC_ASSIGN sets FAB_ADDR in IDLE, or is refused. -/
  | discAssign (port : Nat) (hops : Nat) (h : Hdr) (payload : List Byte)
  /-- PL_GET (R307): PL.GET starts a transfer from the pool or far tier into the scratchpad. -/
  | plGet (c : Nat) (o : ROps)
  /-- PL_PUT (R307): PL.PUT starts a transfer from the scratchpad to the pool or far tier. -/
  | plPut (c : Nat) (o : ROps)
  /-- XFER_COMPLETE (R307): A pool or far transfer completes or fails. -/
  | xferComplete (c : Nat) (h : Nat) (st : Nat)
  /-- PL_GATHER (R309): PL.GATHER sends a gather request to the owner. -/
  | plGather (c : Nat) (o : ROps)
  /-- PL_WAIT (R314): PL.WAIT waits on a transfer under the late policy. -/
  | plWait (c : Nat) (o : ROps)
  /-- DEADLINE_EDGE (R313): The deadline tick of a waited transfer passes and the late policy is evaluated. -/
  | deadlineEdge (c : Nat)
  /-- PL_STREAM (R312): PL.STREAM starts a stream prefetcher and issues its first items. -/
  | plStream (c : Nat) (o : ROps)
  /-- PL_SWAIT (R312): PL.SWAIT waits for the oldest unreleased stream item. -/
  | plSwait (c : Nat) (o : ROps)
  /-- PL_SRELEASE (R312): PL.SRELEASE releases an item and issues the next one. -/
  | plSrelease (c : Nat) (o : ROps)
  /-- PL_SCANCEL (R312): PL.SCANCEL stops a stream issuing. -/
  | plScancel (c : Nat) (o : ROps)
  /-- PL_ALTREADY (R314): PL.ALTREADY sets or clears ALTREADY. -/
  | plAltready (c : Nat) (o : ROps)
  /-- PL_ALLOC (R294): PL.ALLOC allocates the lowest free logical page. -/
  | plAlloc (c : Nat) (o : ROps)
  /-- ALLOC_WAIT_END (R294): An allocation waiting for eviction obtains a frame or fails. -/
  | allocWaitEnd
  /-- PL_FREE (R295): PL.FREE releases a page once its transfers complete. -/
  | plFree (c : Nat) (o : ROps)
  /-- PL_PEG (R298): PL.PEG pegs a page, bringing it up first if FAR. -/
  | plPeg (c : Nat) (o : ROps)
  /-- PL_UNPEG (R298): PL.UNPEG clears PEG. -/
  | plUnpeg (c : Nat) (o : ROps)
  /-- POOL_CMD_ALLOC (R294): POOL_CMD ALLOC allocates a page for the host. -/
  | poolCmdAlloc
  /-- POOL_CMD_FREE (R295): POOL_CMD FREE frees a page. -/
  | poolCmdFree
  /-- POOL_CMD_PEG (R298): POOL_CMD PEG pegs a page. -/
  | poolCmdPeg
  /-- POOL_CMD_UNPEG (R298): POOL_CMD UNPEG unpegs a page. -/
  | poolCmdUnpeg
  /-- CLEAR_LOST (R323): POOL_CMD CLEAR_LOST clears a page's LOST mark. -/
  | clearLost
  /-- RETIRE (R321): POOL_CMD RETIRE retires a frame, copying its page first if it is occupied. -/
  | retire
  /-- RETIRE_COPY_COMPLETE (R321): The copy of a retiring frame completes, and the frame is retired. -/
  | retireCopyComplete (n : Nat) (frame : Nat)
  /-- READ_DIR (R325): POOL_CMD READ_DIR returns a directory entry. -/
  | readDir
  /-- READ_FRAME (R325): POOL_CMD READ_FRAME returns a frame's status. -/
  | readFrame
  /-- EVICTION_START (R299): A stack below low water starts evicting the best candidate page. -/
  | evictionStart (n : Nat)
  /-- EVICTION_COMPLETE (R300): An eviction copy completes or fails. -/
  | evictionComplete (page : Nat) (st : Nat)
  /-- BRINGUP_COMPLETE (R301): A bring-up completes or fails, and waiting accesses proceed. -/
  | bringupComplete (page : Nat)
  /-- FAR_READ_COMPLETION (R304): A UIO read completion arrives, with or without error or poison. -/
  | farReadCompletion (id : Nat) (st : Nat) (data : List Byte)
  /-- FAR_READ_TIMEOUT (R304): A far read gets no completion within FAR_TIMEOUT. -/
  | farReadTimeout (id : Nat)
  /-- SCRUB_PASS (R320): The patrol scrub reads the next frame. -/
  | scrubPass (n : Nat)
  /-- TM_RCHK (R205): TM.RCHK decides whether a tile is repeated wider and spends budget. -/
  | tmRchk (c : Nat) (o : ROps)
  /-- TM_WIDEN (R207): TM.WIDEN copies a tile and requests its liner or a wider tile. -/
  | tmWiden (c : Nat) (o : ROps)
  /-- WIDEN_COMPLETE (R209): A widen's response arrives and its result code is written. -/
  | widenComplete (c : Nat) (w : Nat)
  /-- TM_COPY (R397): TM.COPY copies bytes between scratchpad locations. -/
  | tmCopy (c : Nat) (o : ROps)
  /-- TM_FENCE (R390): TM.FENCE stalls until earlier copies and widens have written. -/
  | tmFence (c : Nat) (o : ROps)
  /-- MX_START (R141): MX.START makes an accumulator tile live, cleared or loaded. -/
  | mxStart (c : Nat) (o : ROps)
  /-- MX_MUL (R143): MX.MUL adds the products over a contraction range to a tile. -/
  | mxMul (c : Nat) (o : ROps)
  /-- MX_END (R146): MX.END ends a tile and starts its drain to VEC, SPAD, RED or DROP. -/
  | mxEnd (c : Nat) (o : ROps)
  /-- MX_DRAIN_COMPLETE (R146): A tile's drain ends and its banks become free. -/
  | mxDrainComplete (c : Nat) (h : Nat)
  /-- MX_TSW (R150): MX.TSW returns a tile status word. -/
  | mxTsw (c : Nat) (o : ROps)
  /-- MX_FENCE (R151): MX.FENCE stalls until operands are read, or until drains end. -/
  | mxFence (c : Nat) (o : ROps)
  /-- VS_FENCE (R184): VS.FENCE stalls until earlier vector instructions complete. -/
  | vsFence (c : Nat) (o : ROps)
  /-- VS_STAT (R185): VS.STAT returns and optionally clears CELL_VS_STATUS. -/
  | vsStat (c : Nat) (o : ROps)
  /-- VS_AND (R171): Vector bitwise AND. -/
  | vsAnd (c : Nat) (o : ROps)
  /-- VS_OR (R171): Vector bitwise OR. -/
  | vsOr (c : Nat) (o : ROps)
  /-- VS_XOR (R171): Vector bitwise XOR. -/
  | vsXor (c : Nat) (o : ROps)
  /-- VS_NOT (R171): Vector bitwise NOT. -/
  | vsNot (c : Nat) (o : ROps)
  /-- VS_SHL (R171): Vector logical left shift. -/
  | vsShl (c : Nat) (o : ROps)
  /-- VS_SHR (R171): Vector logical right shift. -/
  | vsShr (c : Nat) (o : ROps)
  /-- VS_SRA (R171): Vector arithmetic right shift. -/
  | vsSra (c : Nat) (o : ROps)
  /-- IADD (R171): Vector saturating integer add. -/
  | iadd (c : Nat) (o : ROps)
  /-- ISUB (R171): Vector saturating integer subtract. -/
  | isub (c : Nat) (o : ROps)
  /-- IMUL (R171): Vector saturating integer multiply. -/
  | imul (c : Nat) (o : ROps)
  /-- IMIN (R171): Vector integer minimum. -/
  | imin (c : Nat) (o : ROps)
  /-- IMAX (R171): Vector integer maximum. -/
  | imax (c : Nat) (o : ROps)
  /-- IABS (R171): Vector saturating integer absolute value. -/
  | iabs (c : Nat) (o : ROps)
  /-- IOTA (R171): Vector writes b + i. -/
  | iota (c : Nat) (o : ROps)
  /-- ABS (R171): Vector clears the sign. -/
  | abs (c : Nat) (o : ROps)
  /-- NEG (R171): Vector inverts the sign. -/
  | neg (c : Nat) (o : ROps)
  /-- MOV (R171): Vector copy. -/
  | mov (c : Nat) (o : ROps)
  /-- EXPO (R171): Vector binary exponent as I32. -/
  | expo (c : Nat) (o : ROps)
  /-- VS_ADD (R118): Vector floating-point add. -/
  | vsAdd (c : Nat) (o : ROps)
  /-- VS_SUB (R118): Vector floating-point subtract. -/
  | vsSub (c : Nat) (o : ROps)
  /-- VS_MUL (R118): Vector floating-point multiply. -/
  | vsMul (c : Nat) (o : ROps)
  /-- FMA (R118): Vector fused multiply-add. -/
  | fma (c : Nat) (o : ROps)
  /-- VS_MAX (R120): Vector maximum. -/
  | vsMax (c : Nat) (o : ROps)
  /-- VS_MIN (R120): Vector minimum. -/
  | vsMin (c : Nat) (o : ROps)
  /-- VS_CMPEQ (R121): Vector compare equal into a mask. -/
  | vsCmpeq (c : Nat) (o : ROps)
  /-- VS_CMPNE (R121): Vector compare not equal. -/
  | vsCmpne (c : Nat) (o : ROps)
  /-- VS_CMPLT (R121): Vector compare less. -/
  | vsCmplt (c : Nat) (o : ROps)
  /-- VS_CMPLE (R121): Vector compare less or equal. -/
  | vsCmple (c : Nat) (o : ROps)
  /-- VS_CMPGT (R121): Vector compare greater. -/
  | vsCmpgt (c : Nat) (o : ROps)
  /-- VS_CMPGE (R121): Vector compare greater or equal. -/
  | vsCmpge (c : Nat) (o : ROps)
  /-- VS_SEL (R171): Vector select by mask. -/
  | vsSel (c : Nat) (o : ROps)
  /-- CVT (R173): Vector format conversion. -/
  | cvt (c : Nat) (o : ROps)
  /-- SCALE (R174): Vector S8 block scale extraction. -/
  | scale (c : Nat) (o : ROps)
  /-- EXPF (R172): Vector exponential. -/
  | expf (c : Nat) (o : ROps)
  /-- LOGF (R172): Vector logarithm. -/
  | logf (c : Nat) (o : ROps)
  /-- RCP (R172): Vector reciprocal. -/
  | rcp (c : Nat) (o : ROps)
  /-- SQRT (R172): Vector square root. -/
  | sqrt (c : Nat) (o : ROps)
  /-- RSQRT (R172): Vector reciprocal square root. -/
  | rsqrt (c : Nat) (o : ROps)
  /-- SIGMOID (R172): Vector sigmoid. -/
  | sigmoid (c : Nat) (o : ROps)
  /-- TANH (R172): Vector tanh. -/
  | tanh (c : Nat) (o : ROps)
  /-- SOFTPLUS (R172): Vector softplus. -/
  | softplus (c : Nat) (o : ROps)
  /-- GELU (R172): Vector GELU. -/
  | gelu (c : Nat) (o : ROps)
  /-- SILU (R172): Vector SiLU. -/
  | silu (c : Nat) (o : ROps)
  /-- D_RELU (R179): ReLU derivative times dY. -/
  | dRelu (c : Nat) (o : ROps)
  /-- D_LRELU (R179): Leaky ReLU derivative times dY. -/
  | dLrelu (c : Nat) (o : ROps)
  /-- D_SIGMOID (R179): Sigmoid derivative times dY. -/
  | dSigmoid (c : Nat) (o : ROps)
  /-- D_TANH (R179): Tanh derivative times dY. -/
  | dTanh (c : Nat) (o : ROps)
  /-- D_SOFTPLUS (R179): Softplus derivative times dY. -/
  | dSoftplus (c : Nat) (o : ROps)
  /-- D_ELU (R179): ELU derivative times dY. -/
  | dElu (c : Nat) (o : ROps)
  /-- D_EXP (R179): Exponential derivative times dY. -/
  | dExp (c : Nat) (o : ROps)
  /-- D_GELU (R179): GELU derivative from the saved input. -/
  | dGelu (c : Nat) (o : ROps)
  /-- D_SILU (R179): SiLU derivative from the saved input. -/
  | dSilu (c : Nat) (o : ROps)
  /-- RSUM (R123): Sum reduction. -/
  | rsum (c : Nat) (o : ROps)
  /-- RPROD (R123): Product reduction. -/
  | rprod (c : Nat) (o : ROps)
  /-- RMAX (R123): Maximum reduction. -/
  | rmax (c : Nat) (o : ROps)
  /-- RMIN (R123): Minimum reduction. -/
  | rmin (c : Nat) (o : ROps)
  /-- RARGMAX (R126): Argmax reduction. -/
  | rargmax (c : Nat) (o : ROps)
  /-- RARGMIN (R126): Argmin reduction. -/
  | rargmin (c : Nat) (o : ROps)
  /-- RCNT (R123): Count reduction. -/
  | rcnt (c : Nat) (o : ROps)
  /-- RMEAN (R123): Mean reduction. -/
  | rmean (c : Nat) (o : ROps)
  /-- COMPRESS (R178): Packs active elements or their indices. -/
  | compress (c : Nat) (o : ROps)
  /-- EXPAND (R178): Scatters elements to active positions. -/
  | expand (c : Nat) (o : ROps)
  /-- CL_RS (R381): Reduce-scatter collective. -/
  | clRs (c : Nat) (o : ROps)
  /-- CL_AG (R381): All-gather collective. -/
  | clAg (c : Nat) (o : ROps)
  /-- CL_AR (R381): All-reduce collective. -/
  | clAr (c : Nat) (o : ROps)
  /-- CL_BCAST (R381): Broadcast collective. -/
  | clBcast (c : Nat) (o : ROps)
  /-- CL_EXCH (R381): Exchange collective. -/
  | clExch (c : Nat) (o : ROps)
  /-- CL_WAIT (R383): CL.WAIT waits for a collective and frees its handle. -/
  | clWait (c : Nat) (o : ROps)
  /-- CL_CANCEL (R383): CL.CANCEL ends a collective locally. -/
  | clCancel (c : Nat) (o : ROps)
  /-- ADD (R395): Scalar add. -/
  | add (c : Nat) (o : ROps)
  /-- SUB (R395): Scalar subtract. -/
  | sub (c : Nat) (o : ROps)
  /-- MUL (R395): Scalar multiply, low 64 bits. -/
  | mul (c : Nat) (o : ROps)
  /-- MULHU (R395): Scalar unsigned multiply, high 64 bits. -/
  | mulhu (c : Nat) (o : ROps)
  /-- MULHS (R395): Scalar signed multiply, high 64 bits. -/
  | mulhs (c : Nat) (o : ROps)
  /-- AND (R395): Scalar AND. -/
  | and (c : Nat) (o : ROps)
  /-- OR (R395): Scalar OR. -/
  | or (c : Nat) (o : ROps)
  /-- XOR (R395): Scalar XOR. -/
  | xor (c : Nat) (o : ROps)
  /-- SHL (R395): Scalar left shift. -/
  | shl (c : Nat) (o : ROps)
  /-- SHR (R395): Scalar logical right shift. -/
  | shr (c : Nat) (o : ROps)
  /-- SRA (R395): Scalar arithmetic right shift. -/
  | sra (c : Nat) (o : ROps)
  /-- MIN (R395): Scalar signed minimum. -/
  | min (c : Nat) (o : ROps)
  /-- MAX (R395): Scalar signed maximum. -/
  | max (c : Nat) (o : ROps)
  /-- MINU (R395): Scalar unsigned minimum. -/
  | minu (c : Nat) (o : ROps)
  /-- MAXU (R395): Scalar unsigned maximum. -/
  | maxu (c : Nat) (o : ROps)
  /-- SEL (R395): Scalar select by predicate. -/
  | sel (c : Nat) (o : ROps)
  /-- ADDI (R395): Scalar add immediate. -/
  | addi (c : Nat) (o : IOps)
  /-- ANDI (R395): Scalar AND immediate. -/
  | andi (c : Nat) (o : IOps)
  /-- ORI (R395): Scalar OR immediate. -/
  | ori (c : Nat) (o : IOps)
  /-- XORI (R395): Scalar XOR immediate. -/
  | xori (c : Nat) (o : IOps)
  /-- SHLI (R395): Scalar left shift by immediate. -/
  | shli (c : Nat) (o : IOps)
  /-- SHRI (R395): Scalar logical right shift by immediate. -/
  | shri (c : Nat) (o : IOps)
  /-- SRAI (R395): Scalar arithmetic right shift by immediate. -/
  | srai (c : Nat) (o : IOps)
  /-- MOVI (R395): Loads a sign-extended immediate. -/
  | movi (c : Nat) (o : UOps)
  /-- MOVHI (R395): Loads the high 24 bits. -/
  | movhi (c : Nat) (o : UOps)
  /-- CMPEQ (R395): Predicate from equal. -/
  | cmpeq (c : Nat) (o : ROps)
  /-- CMPNE (R395): Predicate from not equal. -/
  | cmpne (c : Nat) (o : ROps)
  /-- CMPLT (R395): Predicate from signed less. -/
  | cmplt (c : Nat) (o : ROps)
  /-- CMPLTU (R395): Predicate from unsigned less. -/
  | cmpltu (c : Nat) (o : ROps)
  /-- CMPGE (R395): Predicate from signed greater or equal. -/
  | cmpge (c : Nat) (o : ROps)
  /-- CMPGEU (R395): Predicate from unsigned greater or equal. -/
  | cmpgeu (c : Nat) (o : ROps)
  /-- CMPEQI (R395): Predicate from equal to immediate. -/
  | cmpeqi (c : Nat) (o : IOps)
  /-- CMPLTI (R395): Predicate from less than immediate. -/
  | cmplti (c : Nat) (o : IOps)
  /-- PAND (R395): Predicate AND. -/
  | pand (c : Nat) (o : ROps)
  /-- POR (R395): Predicate OR. -/
  | por (c : Nat) (o : ROps)
  /-- PXOR (R395): Predicate XOR. -/
  | pxor (c : Nat) (o : ROps)
  /-- AMOV (R395): Sets an address register from a scalar. -/
  | amov (c : Nat) (o : ROps)
  /-- AADDI (R395): Adds an immediate to an address register. -/
  | aaddi (c : Nat) (o : IOps)
  /-- ARD (R395): Reads an address register into a scalar. -/
  | ard (c : Nat) (o : ROps)
  /-- LD64 (R389): Loads 64 bits from scratchpad. -/
  | ld64 (c : Nat) (o : IOps)
  /-- LD32 (R389): Loads 32 bits, zero-extended. -/
  | ld32 (c : Nat) (o : IOps)
  /-- LD16 (R389): Loads 16 bits, zero-extended. -/
  | ld16 (c : Nat) (o : IOps)
  /-- LD8 (R389): Loads 8 bits, zero-extended. -/
  | ld8 (c : Nat) (o : IOps)
  /-- LDS32 (R389): Loads 32 bits, sign-extended. -/
  | lds32 (c : Nat) (o : IOps)
  /-- LDS16 (R389): Loads 16 bits, sign-extended. -/
  | lds16 (c : Nat) (o : IOps)
  /-- LDS8 (R389): Loads 8 bits, sign-extended. -/
  | lds8 (c : Nat) (o : IOps)
  /-- ST64 (R390): Stores 64 bits through the store buffer. -/
  | st64 (c : Nat) (o : IOps)
  /-- ST32 (R390): Stores 32 bits. -/
  | st32 (c : Nat) (o : IOps)
  /-- ST16 (R390): Stores 16 bits. -/
  | st16 (c : Nat) (o : IOps)
  /-- ST8 (R390): Stores 8 bits. -/
  | st8 (c : Nat) (o : IOps)
  /-- FADD (R395): Scalar W32 add. -/
  | fadd (c : Nat) (o : ROps)
  /-- FMUL (R395): Scalar W32 multiply. -/
  | fmul (c : Nat) (o : ROps)
  /-- FFMA (R395): Scalar W32 fused multiply-add. -/
  | ffma (c : Nat) (o : ROps)
  /-- FCVT (R396): Scalar format conversion. -/
  | fcvt (c : Nat) (o : ROps)
  /-- BR (R395): Relative branch. -/
  | br (c : Nat) (o : IOps)
  /-- CALL (R395): Relative call with link. -/
  | call (c : Nat) (o : IOps)
  /-- JMP (R395): Jump to a register target. -/
  | jmp (c : Nat) (o : ROps)
  /-- CALLR (R395): Call to a register target. -/
  | callr (c : Nat) (o : ROps)
  /-- DBNZ (R395): Decrement and branch if not zero. -/
  | dbnz (c : Nat) (o : IOps)
  /-- LAUNCH_AT (R399): LAUNCH.AT checks its action and queues it for a target tick. -/
  | launchAt (c : Nat) (o : ROps) (action : W64)
  /-- WAIT_TICK (R49): WAIT.TICK stalls the core until a tick. -/
  | waitTick (c : Nat) (o : ROps)
  /-- SEAL (R266): SEAL latches or checks T_seal. -/
  | seal (c : Nat) (o : ROps)
  /-- TICK (R395): Reads the pitch count. -/
  | tick (c : Nat) (o : ROps)
  /-- SYNC_ABORT (R395): Raises USER_ABORT as MOD_STEP_CMD.ABORT does. -/
  | syncAbort (c : Nat) (o : ROps)
  /-- PHASE (R422): Marks the die's current phase. -/
  | phase (c : Nat) (o : ROps)
  /-- HINT (R424): Queues a phase hint for a tick. -/
  | hint (c : Nat) (o : ROps)
  /-- NOP (R395): No operation. -/
  | nop (c : Nat) (o : ROps)
  /-- SYS_RD (R401): Reads a control register. -/
  | sysRd (c : Nat) (o : ROps)
  /-- SYS_WR (R401): Writes a control register. -/
  | sysWr (c : Nat) (o : ROps)
  /-- SYS_ERET (R404): Returns from an exception handler. -/
  | sysEret (c : Nat) (o : ROps)
  /-- SYS_HALT (R395): Stops the core with STATE DONE. -/
  | sysHalt (c : Nat) (o : ROps)
  /-- SYS_TRAP (R395): Raises TRAP with a code. -/
  | sysTrap (c : Nat) (o : ROps)
  /-- RUN (R406): CELL_CORE_CTRL.RUN starts the core at CELL_CORE_PC. -/
  | run (c : Nat)
  /-- HALT (R406): CELL_CORE_CTRL.HALT stops the core at an instruction boundary. -/
  | halt (c : Nat)
  /-- CLRLQ (R406): CELL_CORE_CTRL.CLRLQ empties a stopped core's launch queue. -/
  | clrlq (c : Nat)
  /-- PSU_WARN_ASSERT (R417): PSU_WARN is taken, and the shed sequence starts. -/
  | psuWarnAssert (ns : Nat)
  /-- VIN_LOW (R410): The input stays below 29.0 V for 5 µs, and the module sheds as on PSU_WARN. -/
  | vinLow
  /-- SHED_COMPLETE (R417): The lantern has set clocks and rails for PWR_BIVOUAC, and the module enters BIVOUAC. -/
  | shedComplete
  /-- PSU_WARN_CLEAR (R513): PSU_WARN rises above 2.0 V, or the input recovers, and the hold time starts. -/
  | psuWarnClear (input : Bool)
  /-- WARN_HOLD_EXPIRY (R418): The hold time elapses with every cause clear, and the module enters NORMAL. -/
  | warnHoldExpiry
  /-- VIN_CUTOFF (R410): The input falls below 27.0 V or rises above 42.0 V, and the regulators switch off. -/
  | vinCutoff
  /-- POWER_RETURN (R411): Input power returns, which is a cold reset of CAUSE 4. -/
  | powerReturn
  /-- CONTROL_PERIOD (R420): Every 256 ticks the lantern shares the cap, sets clocks and rails, kindles and handles hints. -/
  | controlPeriod (m : Meas)
  /-- EXCURSION_TIMEOUT (R416): An excursion reaches 10 ms, and clocks are lowered. -/
  | excursionTimeout
  /-- AIRFLOW_ESTIMATE (R432): Every 100 ms the airflow and the air cap are estimated. -/
  | airflowEstimate (mean : Nat) (tin : Int) (tout : Int)
  /-- JUNCTION_SAMPLE (R434): Every 1,024 ticks the hottest junction is sampled and its slope tested. -/
  | junctionSample (temps : List Int) (forecast : Int)
  /-- ANALOG_TRIP (R435): A junction comparator trips at 105 °C, stopping arithmetic and cores. -/
  | analogTrip (u : Nat)
  /-- TRIP_CLEAR (R436): THM_CMD.TRIP_CLEAR resumes work at 0.8 GHz in BIVOUAC when the junctions are cool. -/
  | tripClear
  /-- REREAD (R431): THM_CMD.REREAD reads the heatsink identity memory. -/
  | reread (mem : List Byte)
  /-- CAPABILITY (R414): The PMBus CAPABILITY read returns 0xA0. -/
  | capability
  /-- STATUS_BYTE (R414): The PMBus STATUS_BYTE read. -/
  | statusByte
  /-- READ_VIN (R414): The PMBus input voltage read. -/
  | readVin
  /-- READ_IIN (R414): The PMBus input current read. -/
  | readIin
  /-- READ_PIN (R414): The PMBus input power read. -/
  | readPin
  /-- PMBUS_REVISION (R414): The PMBus revision read. -/
  | pmbusRevision
  /-- BUDGET_WRITE (R414): The shelf writes or withdraws its budget. -/
  | budgetWrite (v : BitVec 16) (pec : Option Byte)
  /-- BUDGET_READ (R414): Returns the last budget written. -/
  | budgetRead
  /-- CAP_EFF (R414): The PMBus effective cap read. -/
  | capEff
  /-- PMBUS_UNSUPPORTED (R414): An unlisted PMBus command sets CML. -/
  | pmbusUnsupported (code : Nat)
  /-- HOT_RESET (R443): A CXL hot reset starts a warm reset. -/
  | hotReset
  /-- LINK_LOSS (R443): Loss of the CXL link for 1 ms or longer starts a warm reset. -/
  | linkLoss (us : Nat)
  /-- HOST_LINK_TRAINED (R442): The CXL link trains, possibly degraded or without CXL protocols. -/
  | hostLinkTrained (width : Nat) (rate : Nat) (cxl : Bool)
  /-- SNOOP (R447): A host snoop is answered RspIHitI. -/
  | snoop (addr : Nat)
  /-- HDM_READ (R449): A host CXL.mem read through the HDM window. -/
  | hdmRead (hpa : Nat) (len : Nat)
  /-- HDM_WRITE (R449): A host CXL.mem write through the HDM window. -/
  | hdmWrite (hpa : Nat) (data : List Byte)
  /-- UIO_REQUEST (R451): A UIO request addressed to the T20 is answered as unsupported. -/
  | uioRequest (addr : Nat)
  /-- IDE_INTEGRITY_FAILURE (R452): An IDE stream fails its integrity check and stops. -/
  | ideIntegrityFailure (stream : Nat) (cm : Bool)
  /-- DOE_DISCOVERY (R453): A DOE discovery request. -/
  | doeDiscovery (index : Nat)
  /-- CXL_TABLE_ACCESS (R453): A CDAT table access over DOE. -/
  | cxlTableAccess (index : Nat)
  /-- GET_VERSION (R483): SPDM GET_VERSION. -/
  | getVersion
  /-- GET_CAPABILITIES (R483): SPDM GET_CAPABILITIES. -/
  | getCapabilities
  /-- NEGOTIATE_ALGORITHMS (R483): SPDM NEGOTIATE_ALGORITHMS. -/
  | negotiateAlgorithms (asym : Bool) (hash : Bool)
  /-- GET_DIGESTS (R483): SPDM GET_DIGESTS. -/
  | getDigests
  /-- GET_CERTIFICATE (R483): SPDM GET_CERTIFICATE. -/
  | getCertificate (slot : Nat) (off : Nat) (len : Nat)
  /-- CHALLENGE (R483): SPDM CHALLENGE. -/
  | challenge (slot : Nat) (nonce : Nat)
  /-- GET_MEASUREMENTS (R484): SPDM GET_MEASUREMENTS returns the measurement blocks. -/
  | getMeasurements (index : Nat) (signed : Bool) (session : Bool)
  /-- KEY_EXCHANGE (R483): SPDM KEY_EXCHANGE. -/
  | keyExchange (slot : Nat)
  /-- FINISH (R483): SPDM FINISH. -/
  | finish (session : Nat) (ok : Bool)
  /-- HEARTBEAT (R483): SPDM HEARTBEAT. -/
  | heartbeat (session : Nat)
  /-- KEY_UPDATE (R483): SPDM KEY_UPDATE. -/
  | keyUpdate (session : Nat)
  /-- END_SESSION (R483): SPDM END_SESSION. -/
  | endSession (session : Nat)
  /-- QUERY (R485): IDE_KM QUERY. -/
  | query (session : Nat)
  /-- KEY_PROG (R485): IDE_KM KEY_PROG. -/
  | keyProg (session : Nat) (stream : Nat) (cm : Bool)
  /-- K_SET_GO (R485): IDE_KM K_SET_GO. -/
  | kSetGo (session : Nat) (stream : Nat) (cm : Bool)
  /-- K_SET_STOP (R485): IDE_KM K_SET_STOP. -/
  | kSetStop (session : Nat) (stream : Nat) (cm : Bool)
  /-- QUEUE_ENABLE (R455): HQ_QCTRL.EN = 1 enters RUNNING. -/
  | queueEnable (q : Nat)
  /-- QUEUE_DISABLE (R455): HQ_QCTRL.EN = 0 stops fetching; the queue disables when drained. -/
  | queueDisable (q : Nat)
  /-- DOORBELL (R454): A write to HQ_QTAIL makes descriptors available. -/
  | doorbell (q : Nat) (tail : Nat)
  /-- DESCRIPTOR_FETCH (R454): A chosen queue's descriptor is read over CXL.cache and started. -/
  | descriptorFetch (st : Nat) (words : List W32)
  /-- DESC_NOP (R457): A NOP descriptor completes at once. -/
  | descNop (q : Nat) (slot : Nat)
  /-- PROGRAM (R458): A PROGRAM descriptor loads instruction memory. -/
  | program (q : Nat) (slot : Nat) (image : List W64)
  /-- STEP (R459): A STEP descriptor enables, checks the epoch and seals. -/
  | step (q : Nat) (slot : Nat)
  /-- WAIT (R461): A WAIT descriptor starts waiting for its tick. -/
  | wait (q : Nat) (slot : Nat)
  /-- EVENT_RING_ENABLE (R465): EVT_CTRL.EN = 1 writes held records and any overflow record. -/
  | eventRingEnable
  /-- EVENT_IRQ_DELAY (R466): EVT_IRQ_DELAY expires and vector 64 is sent. -/
  | eventIrqDelay
  /-- CLAMP_RING_ENABLE (R490): BOOT_CRING_CTRL.EN = 1 writes held clamp records. -/
  | clampRingEnable
  /-- CLAMP_IRQ_DELAY (R490): 100 ticks pass after an unsignalled clamp record, and vector 65 is sent. -/
  | clampIrqDelay
  /-- LOAD_FW (R479): BOOT_CMD LOAD_FW starts loading a firmware image. -/
  | loadFw
  /-- LOAD_UC (R479): BOOT_CMD LOAD_UC starts loading a microcode image. -/
  | loadUc
  /-- LOAD_COMPLETE (R479): An image load finishes checking and writing. -/
  | loadComplete (img : Option Image) (flashOk : Bool)
  /-- ACTIVATE_FW (R480): BOOT_CMD ACTIVATE_FW points the selector at the loaded slot. -/
  | activateFw
  /-- ACTIVATE_UC (R480): BOOT_CMD ACTIVATE_UC points the selector at the loaded slot. -/
  | activateUc
  /-- PAIR (R477): BOOT_CMD PAIR evaluates the pair again in HELD. -/
  | pair
  /-- COLD_RESET (R480): BOOT_CMD COLD_RESET performs a cold reset. -/
  | coldReset
  /-- COMMIT_SVN (R481): BOOT_CMD COMMIT_SVN raises FUSE_SVN. -/
  | commitSvn (ok : Bool)
  /-- PERSIST_POLICY (R481): BOOT_CMD PERSIST_POLICY writes BOOT_FWPOLICY to flash. -/
  | persistPolicy (ok : Bool)
  /-- COLD_BOOT (R472): After a cold reset the ROM verifies the images and evaluates the pair. -/
  | coldBoot (straps : BitVec 3) (heatsink : List Byte) (harness : List Byte)
  /-- FIRMWARE_START (R473): Microcode is loaded and HBM trained, and the firmware starts running. -/
  | firmwareStart
  /-- WARM_RESET (R499): MOD_RESET_CTRL.WARM starts a warm reset. -/
  | warmReset
  /-- WARM_RESET_COMPLETE (R499): The firmware has restarted and BUSY clears. -/
  | warmResetComplete
  /-- RST_N_ASSERT (R508): RST_N is held low for 100 µs or longer, which is a cold reset of CAUSE 6. -/
  | rstNAssert (ns : Nat)
  /-- RST_N_RELEASE (R508): RST_N is released and the boot begins. -/
  | rstNRelease
  /-- REFCLK_LOSS (R507): The reference clock stops or drifts, and the module stops. -/
  | refclkLoss
  /-- FREEZE (R496): MOD_CTR_CTRL.FREEZE freezes or unfreezes counter reads. -/
  | freeze (on : Bool)
  /-- CLEAR_ALL (R496): MOD_CTR_CTRL.CLEAR_ALL clears every RW counter. -/
  | clearAll
  /-- CODEWORD_UNCORRECTABLE (R331): A received codeword that the FEC cannot correct is discarded together with every unit that has a byte in it, and the receiver resumes at the FIRST boundary of the next good codeword. -/
  | codewordUncorrectable (p : Nat)
  /-- PAGE_RECLAIM (R273): The reclaim of frames freed at a verdict completes, and the frames can be allocated again, which can release updates waiting for a FLY page. -/
  | pageReclaim (n : Nat)
  /-- HQ_FETCH_TIMEOUT (R455): A CXL.cache read of a queue descriptor gets no answer within 100 µs, so the queue enters STOPPED and reports HQ_FAULT. -/
  | hqFetchTimeout (q : Nat)
  /-- REGISTER_WRITE (R6): A host write to a BAR0 register field that has no row of its own takes effect as its access code gives. -/
  | registerWrite (off : Nat) (bytes : Nat) (v : W64)
  /-- LO_READ_LATCH (R58): A read of a _LO register latches the matching _HI half. -/
  | loReadLatch (off : Nat) (bytes : Nat)
  /-- HEAD_FLIT_ROUTE (R352): A head flit reaches a module and its message is delivered, routed or dropped. -/
  | headFlitRoute (port : Nat) (vl : Nat) (ar : Bool) (esc : Bool) (hops : Nat) (flits : List Flit) (fec : Fec) (h : Hdr) (payload : List Byte)
  /-- LINK_FLIT_RECEIVE (R336): A link flit is received, carrying credit counts and the port identity. -/
  | linkFlitReceive (port : Nat) (vl : Nat) (pool : Nat) (count : Nat) (fec : Fec)
  /-- CREDIT_REPORT (R336): Every 1,024 ticks a receiver sends its cumulative counts, and lost credits are restored. -/
  | creditReport (port : Nat) (counts : List Nat)
  deriving DecidableEq, Repr

end Sys2Proof
end

