-- ==== Sys2Proof/Decode.lean ====
section
/-! DEFINITION. The commands that a word spells: the table gives no row any bits, so no word spells one. -/

namespace Sys2Proof

/-- The command that a word spells by the bits of opcode_table.json. No row of it has bits: commands arrive as register
accesses, messages and events, and a block has no instruction decoder. -/
def decodeTableWord (_nbits _w : Nat) : Option Instr := none

end Sys2Proof
end

