-- ==== Sys2Proof/Config.lean ====
section
/-! DEFINITION. What the spec leaves open: the free values. None has a body, so nothing can be proved of the value. -/

namespace Sys2Proof.Config

/-- A byte the spec leaves undefined (R153, R170, R383); the argument is a fresh counter value. DESIGN CHOICE, log entry 4. -/
opaque freeByte : Nat → Byte

/-- A W32 pattern the spec leaves undefined or that bounded evaluation does not decide (R172). DESIGN CHOICE, log entry 4. -/
opaque freeW32 : Nat → W32

/-- A number the spec leaves to the module: the choice among the free frames of a stack (R294). DESIGN CHOICE, log entry 5. -/
opaque freeNat : Nat → Nat

/-- A yes or no the spec leaves open: whether a low pulse of RST_N between 1 µs and 100 µs resets (R508), or one of PSU_WARN
below 50 ns is taken (R513). DESIGN CHOICE, log entry 6. -/
opaque freeBool : Nat → Bool

/-- The rail step of a die's fused voltage-frequency curve at an ACLK step (R421). DESIGN CHOICE, log entry 7. -/
opaque railStep : Nat → Nat → Nat

/-- The power in watts of a die at 3.6 GHz in dense H16, which R425 names and does not give. DESIGN CHOICE, log entry 7. -/
opaque densePower : Nat → Nat

/-- Bytes that CXL, SPDM or the device certificate define and the spec does not (R453, R483): the index-th byte of an object. DESIGN CHOICE, log entry 8. -/
opaque standardByte : Nat → Nat → Byte

/-- The parity symbols of an RS(544,514) codeword, which IEEE 802.3dj defines and the spec does not (R328, R330): the index-th
symbol for some payload symbols. DESIGN CHOICE, log entry 8. -/
opaque rsParity : List Nat → Nat → Nat

/-- The length of such an object. DESIGN CHOICE, log entry 8. -/
opaque standardLen : Nat → Nat

end Sys2Proof.Config
end

