-- ==== Sys2Proof/Machine/Num.lean ====
section
/-! DEFINITION. Number formats (03) and the arithmetic on special values (04): exact values, decoding, rounding,
scales, weight levels, add, multiply, maximum and comparison. -/

namespace Sys2Proof.Machine

/-- A non-negative rational `num ÷ den`. -/
structure Frac where
  num : Nat
  den : Nat
  deriving DecidableEq, Repr

/-- An exact value with the special values of H16 and W32 (Table 3-8): a NaN, an overflow marker, or a finite value
with its sign (zero keeps its sign). -/
inductive Val where
  | nan
  | ovf (neg : Bool)
  | fin (neg : Bool) (m : Frac)
  deriving DecidableEq, Repr

/-- Status flags of a conversion, tile or stream, with the number of saturated elements (R115, R188). -/
structure NFlags where
  nan : Bool := false
  ovf : Bool := false
  sat : Bool := false
  scaleinv : Bool := false
  empty : Bool := false
  allnan : Bool := false
  nandrop : Bool := false
  satcnt : Nat := 0
  deriving DecidableEq, Repr

/-- A floating-point layout: exponent bits, fraction bits, bias (Tables 3-2, 3-5, 3-7). -/
structure FFmt where
  eb : Nat
  fb : Nat
  bias : Int
  deriving DecidableEq, Repr

/-- H16 (Table 3-7). -/
def fmtH16 : FFmt := ⟨7, 8, 63⟩
/-- W32 (Table 3-7). -/
def fmtW32 : FFmt := ⟨9, 22, 255⟩
/-- The magnitude grid of A8 (Table 3-5). -/
def fmtA8 : FFmt := ⟨4, 3, 9⟩
/-- The grid of S8 (Table 3-2). -/
def fmtS8 : FFmt := ⟨5, 3, 16⟩

/-! ### Rationals -/

/-- A whole number as a rational. -/
def natFrac (n : Nat) : Frac := ⟨n, 1⟩

/-- `m × 2^k`. -/
def mulPow2 (m : Frac) (k : Int) : Frac :=
  if 0 ≤ k then ⟨m.num * 2 ^ k.toNat, m.den⟩ else ⟨m.num, m.den * 2 ^ (-k).toNat⟩

/-- Product of rationals. -/
def mulFrac (a b : Frac) : Frac := ⟨a.num * b.num, a.den * b.den⟩

/-- Quotient of rationals (the divisor is not zero). -/
def divFrac (a b : Frac) : Frac := ⟨a.num * b.den, a.den * b.num⟩

/-- Sum of rationals. -/
def addFrac (a b : Frac) : Frac := ⟨a.num * b.den + b.num * a.den, a.den * b.den⟩

/-- `a ≤ b`. -/
def leFrac (a b : Frac) : Bool := a.num * b.den ≤ b.num * a.den

/-- `a < b`. -/
def ltFrac (a b : Frac) : Bool := a.num * b.den < b.num * a.den

/-- The larger of two rationals. -/
def maxFrac (a b : Frac) : Frac := if leFrac a b then b else a

/-- `floor(log2 m)` of a positive rational. -/
def floorLog2 (m : Frac) : Int :=
  let l : Int := (Nat.log2 m.num : Int) - (Nat.log2 m.den : Int)
  let x := mulPow2 ⟨1, 1⟩ l
  if leFrac x m then l else l - 1

/-- `floor m`. -/
def floorFrac (m : Frac) : Nat := m.num / m.den

/-- A signed numerator over a denominator, as sums are formed. -/
def signedNum (neg : Bool) (n : Nat) : Int := if neg then -(n : Int) else (n : Int)

/-! ### Values -/

/-- +0. -/
def valZero : Val := .fin false ⟨0, 1⟩
/-- +1. -/
def valOne : Val := .fin false ⟨1, 1⟩

/-- A value inverted in sign (a NaN stays a NaN). -/
def negVal : Val → Val
  | .nan => .nan
  | .ovf n => .ovf (!n)
  | .fin n m => .fin (!n) m

/-- Is the value zero? -/
def isZeroVal : Val → Bool
  | .fin _ m => m.num == 0
  | _ => false

/-- Is the value a NaN? -/
def isNanVal : Val → Bool
  | .nan => true
  | _ => false

/-- Is the value an overflow marker? -/
def isOvfVal : Val → Bool
  | .ovf _ => true
  | _ => false

/-- Is the value finite? -/
def isFinVal : Val → Bool
  | .fin _ _ => true
  | _ => false

/-- The magnitude of a finite value (0 for the others). -/
def magVal : Val → Frac
  | .fin _ m => m
  | _ => ⟨0, 1⟩

/-- The value of a magnitude code (exponent and fraction fields together) on a grid. -/
def gridVal (f : FFmt) (code : Nat) : Frac :=
  let e := code / 2 ^ f.fb
  let fr := code % 2 ^ f.fb
  if e = 0 then mulPow2 (natFrac fr) (1 - f.bias - (f.fb : Int))
  else mulPow2 (natFrac (2 ^ f.fb + fr)) ((e : Int) - f.bias - (f.fb : Int))

/-- Decodes a pattern of H16 or W32 (Table 3-8). -/
def decodeFloat (f : FFmt) (bits : Nat) : Val :=
  let code := bits % 2 ^ (f.eb + f.fb)
  let neg := bits.testBit (f.eb + f.fb)
  let e := code / 2 ^ f.fb
  if e = 2 ^ f.eb - 1 then (if code % 2 ^ f.fb = 0 then .ovf neg else .nan)
  else .fin neg (gridVal f code)

/-- The value of a W32 pattern. -/
def decW32 (w : W32) : Val := decodeFloat fmtW32 w.toNat

/-- The value of an H16 pattern. -/
def decH16 (h : Nat) : Val := decodeFloat fmtH16 h

/-- The value of an S8 code below 0xFF (Table 3-3). -/
def decS8 (c : Nat) : Frac := gridVal fmtS8 c

/-- How a magnitude between two representable ones is rounded (R90, R91); `up` is the rounding of the scale rules. -/
inductive Rnd where
  | rne
  | sr (r : Nat)
  | up
  deriving DecidableEq, Repr

/-- Rounds a magnitude to a code of the grid; a carry runs into the exponent, and the code may pass the largest one
(R90, R91). -/
def roundCode (f : FFmt) (r : Rnd) (m : Frac) : Nat :=
  if m.num = 0 then 0 else
  let e := max (floorLog2 m + f.bias) 1
  let x := mulPow2 m ((f.fb : Int) + f.bias - e)
  let q := x.num / x.den
  let rem := x.num % x.den
  let inc := match r with
    | .rne => decide (x.den < 2 * rem) || (decide (x.den = 2 * rem) && q % 2 == 1)
    | .sr w => decide (w < 2 ^ 32 * rem / x.den)
    | .up => decide (0 < rem)
  (e - 1).toNat * 2 ^ f.fb + q + b2n inc

/-- The canonical NaN pattern of H16 or W32 (R75). -/
def nanBits (f : FFmt) : Nat := (2 ^ f.eb - 1) * 2 ^ f.fb + 2 ^ (f.fb - 1)

/-- The OVF pattern of H16 or W32 (Table 3-8). -/
def ovfBits (f : FFmt) (neg : Bool) : Nat := b2n neg * 2 ^ (f.eb + f.fb) + (2 ^ f.eb - 1) * 2 ^ f.fb

/-- Rounds an exact value into H16 or W32 (R79, R80): the pattern, and whether a finite value overflowed. -/
def roundFloat (f : FFmt) (r : Rnd) : Val → Nat × Bool
  | .nan => (nanBits f, false)
  | .ovf n => (ovfBits f n, false)
  | .fin n m =>
    let c := roundCode f r m
    if (2 ^ f.eb - 1) * 2 ^ f.fb ≤ c then (ovfBits f n, true)
    else (b2n n * 2 ^ (f.eb + f.fb) + c, false)

/-- Rounds an exact value under RNE into W32 (R80, R90). -/
def rneW32 (v : Val) : W32 := BitVec.ofNat 32 (roundFloat fmtW32 .rne v).1

/-! ### Decoding of scaled elements -/

/-- An A8 element under its block scale (R66, R67, R73). -/
def decA8 (code scale : Nat) : Val :=
  if code = 0x80 ∨ scale = 0xFF then .nan
  else if scale = 0 ∨ code % 128 = 0 then valZero
  else .fin (code.testBit 7) (mulFrac (gridVal fmtA8 (code % 128)) (decS8 scale))

/-- The value of a whole-number code times a unit under a block scale (R66, R67). -/
def decScaledInt (i : Int) (unit : Int) (scale : Nat) : Val :=
  if scale = 0xFF then .nan
  else if scale = 0 ∨ i = 0 then valZero
  else .fin (decide (i < 0)) (mulPow2 (mulFrac (natFrac i.natAbs) (decS8 scale)) unit)

/-- Trit `j` of a TN byte (R68, R69): an invalid byte decodes as zeros. -/
def tritOf (b : Nat) (j : Nat) : Int :=
  if 243 ≤ b then 0 else ((b / 3 ^ j % 3 : Nat) : Int) - 1

/-- The value of a 2-bit Q2 or liner code (R70). -/
def q2Of (c : Nat) : Int := 2 * ((c % 4 : Nat) : Int) - 3

/-- The Q4 level of a Q2 code and a liner code (R70). -/
def q4Of (q l : Nat) : Int := 4 * q2Of q + q2Of l

/-- The signed integer of an A8 code in units of 2⁻¹¹ (Table 4-2). -/
def a8Int (code : Nat) : Int :=
  let e := code % 128 / 8
  let f := code % 8
  let n : Nat := if e = 0 then f else (8 + f) * 2 ^ (e - 1)
  signedNum (code.testBit 7) n

/-! ### Scales and weight levels -/

/-- The largest magnitude that a scaled format holds as `num ÷ den` of the scale (Table 3-11): A8 120, Q2 and Q4
15/16, TN 1. -/
def absmaxRatio (fmt : Nat) : Frac :=
  if fmt = 3 then ⟨120, 1⟩ else if fmt = 0 then ⟨1, 1⟩ else ⟨15, 16⟩

/-- The smallest S8 scale that ABSMAX accepts for largest magnitude `m` (R83, R85). -/
def scaleAbsmax (fmt : Nat) (m : Frac) : Nat :=
  if m.num = 0 then 0 else min 0xFE (roundCode fmtS8 .up (divFrac m (absmaxRatio fmt)))

/-- The scale of ABSMEAN for mean magnitude `a` of a TN block (R83, R85). -/
def scaleAbsmean (a : Frac) : Nat :=
  if a.num = 0 then 0 else max 1 (min 0xFE (roundCode fmtS8 .rne a))

/-- A computed scale from the magnitudes measured (R83, R85); rule codes 3 to 15 act as 1 (R84). -/
def computedScale (rule fmt : Nat) (ms : List Frac) : Nat :=
  if rule = 2 ∧ fmt = 0 then
    (if ms.length = 0 then 0 else scaleAbsmean (divFrac (ms.foldl addFrac ⟨0, 1⟩) (natFrac ms.length)))
  else scaleAbsmax fmt (ms.foldl maxFrac ⟨0, 1⟩)

/-- The Q4 level of a finite weight under a scale (R86, R87), and whether it clipped (R88). -/
def q4Level (v : Val) (scale : Nat) : Int × Bool :=
  if scale = 0 ∨ scale = 0xFF then (1, false) else
  match v with
  | .fin neg m =>
    let x := divFrac (mulPow2 m 4) (decS8 scale)
    if x.num = 0 then (1, false) else
    -- the odd magnitude nearest to |x|; an even |x| other than 0 goes to the smaller odd magnitude
    let h := floorFrac x
    let odd := if h % 2 = 1 then h else if x.num % x.den = 0 then h - 1 else h + 1
    let c := min odd 15
    (signedNum neg c, decide (15 < odd))
  | _ => (1, false)

/-- The trit of a finite weight under a scale (R89). -/
def tnLevel (v : Val) (scale : Nat) : Int :=
  if scale = 0 ∨ scale = 0xFF then 0 else
  match v with
  | .fin neg m => if ltFrac (mulPow2 (decS8 scale) (-1)) m then signedNum neg 1 else 0
  | _ => 0

/-- The Q2 code of a Q4 level (Table 3-4). -/
def q2CodeOf (l : Int) : Nat := if l < -8 then 0 else if l < 0 then 1 else if l < 8 then 2 else 3

/-- The liner code of a Q4 level (Table 3-4). -/
def linerOf (l : Int) : Nat := ((l - 4 * q2Of (q2CodeOf l) + 3) / 2).toNat

/-- Converts a value into A8 under a scale (R79, R81): the code and the flags, `sat` meaning one saturation. -/
def toA8 (r : Rnd) (v : Val) (scale : Nat) : Nat × NFlags :=
  if scale = 0xFF then (0x80, { nan := true }) else
  match v with
  | .nan => (0x80, { nan := true })
  | .ovf _ => (0x80, { ovf := true })
  | .fin neg m =>
    if scale = 0 then (0, {}) else
    let q := divFrac m (decS8 scale)
    if ltFrac ⟨120, 1⟩ q then (128 * b2n neg + 0x7F, { sat := true, satcnt := 1 })
    else
      let c := min 0x7F (roundCode fmtA8 r q)
      if c = 0 then (0, {}) else (128 * b2n neg + c, {})

/-! ### The stochastic-rounding generator -/

/-- `mix` of R92. -/
def srMix (z : Nat) : Nat :=
  let z1 := (0xBF58476D1CE4E5B9 * (z ^^^ (z >>> 30))) % 2 ^ 64
  let z2 := (0x94D049BB133111EB * (z1 ^^^ (z1 >>> 27))) % 2 ^ 64
  z2 ^^^ (z2 >>> 31)

/-- `sr_word` of R92. -/
def srWord (seed epoch tensor index : Nat) : Nat :=
  let h := srMix ((seed ^^^ (2 ^ 32 * epoch) ^^^ tensor) % 2 ^ 64)
  srMix ((h ^^^ index) % 2 ^ 64) / 2 ^ 32

/-! ### Arithmetic -/

/-- Flags of two units ORed, their saturations added. -/
def orFlags (a b : NFlags) : NFlags :=
  { nan := a.nan || b.nan, ovf := a.ovf || b.ovf, sat := a.sat || b.sat, scaleinv := a.scaleinv || b.scaleinv,
    empty := a.empty || b.empty, allnan := a.allnan || b.allnan, nandrop := a.nandrop || b.nandrop,
    satcnt := a.satcnt + b.satcnt }

/-- The exact sum of two finite values; an exact zero is −0 only when both addends are −0 (R119). -/
def addFin (n1 : Bool) (m1 : Frac) (n2 : Bool) (m2 : Frac) : Val :=
  let s : Int := signedNum n1 (m1.num * m2.den) + signedNum n2 (m2.num * m1.den)
  if s = 0 then .fin (n1 && n2 && m1.num == 0 && m2.num == 0) ⟨0, 1⟩
  else .fin (decide (s < 0)) ⟨s.natAbs, m1.den * m2.den⟩

/-- Add (Table 4-6), exact, with its flags. -/
def addVal : Val → Val → Val × NFlags
  | .nan, _ => (.nan, { nan := true })
  | _, .nan => (.nan, { nan := true })
  | .ovf a, .ovf b => if a = b then (.ovf a, { ovf := true }) else (.nan, { nan := true, ovf := true })
  | .ovf a, .fin _ _ => (.ovf a, { ovf := true })
  | .fin _ _, .ovf b => (.ovf b, { ovf := true })
  | .fin n1 m1, .fin n2 m2 => (addFin n1 m1 n2 m2, {})

/-- The product of Table 4-4: exact, specials settled. -/
def mulVal : Val → Val → Val
  | .nan, _ => .nan
  | _, .nan => .nan
  | .ovf a, .ovf b => .ovf (a != b)
  | .ovf a, .fin b m => if m.num = 0 then .nan else .ovf (a != b)
  | .fin a m, .ovf b => if m.num = 0 then .nan else .ovf (a != b)
  | .fin a m, .fin b n => .fin (a != b) (mulFrac m n)

/-- Multiply (Table 4-6), exact, with its flags: OVF is set beside NAN when an operand is OVF. -/
def mulValF (a b : Val) : Val × NFlags :=
  let p := mulVal a b
  (p, { nan := isNanVal p, ovf := isOvfVal a || isOvfVal b })

/-- Fused multiply-add (R118): the product settled by Table 4-4, then the add rows of Table 4-6. -/
def fmaVal (a b c : Val) : Val × NFlags := addVal (mulVal a b) c

/-- The signed cross product that orders two finite values. -/
def cmpFin (n1 : Bool) (m1 : Frac) (n2 : Bool) (m2 : Frac) : Int :=
  signedNum n1 (m1.num * m2.den) - signedNum n2 (m2.num * m1.den)

/-- `a < b` in the order of R121 (zeros equal, OVF beyond every finite value); false for a NaN. -/
def ltVal : Val → Val → Bool
  | .nan, _ => false
  | _, .nan => false
  | .ovf a, .ovf b => a && !b
  | .ovf a, .fin _ _ => a
  | .fin _ _, .ovf b => !b
  | .fin n1 m1, .fin n2 m2 => decide (cmpFin n1 m1 n2 m2 < 0)

/-- Equality of R121; false for a NaN. -/
def eqVal : Val → Val → Bool
  | .nan, _ => false
  | _, .nan => false
  | .ovf a, .ovf b => a == b
  | .ovf _, .fin _ _ => false
  | .fin _ _, .ovf _ => false
  | .fin n1 m1, .fin n2 m2 => decide (cmpFin n1 m1 n2 m2 = 0)

/-- The sign of a value that is not a NaN. -/
def negOf : Val → Bool
  | .nan => false
  | .ovf n => n
  | .fin n _ => n

/-- `a < b` in the order of R120, where −0 lies below +0; false for a NaN. -/
def ltOrd (a b : Val) : Bool := ltVal a b || (eqVal a b && negOf a && !negOf b)

/-- Which operand of two, neither a NaN, a maximum or minimum returns (R120): true for the second. -/
def pickSecond (isMax : Bool) (a b : Val) : Bool := if isMax then ltOrd a b else ltOrd b a

/-- A value of W32 that an integer rounds to (R82). -/
def intVal (i : Int) : Val := .fin (decide (i < 0)) ⟨i.natAbs, 1⟩

/-- Rounds a finite magnitude to a whole number under RNE. -/
def rneNat (m : Frac) : Nat :=
  let q := m.num / m.den
  let r := m.num % m.den
  if m.den < 2 * r ∨ (m.den = 2 * r ∧ q % 2 = 1) then q + 1 else q

/-- A 32-bit two's-complement pattern of an integer. -/
def i32Bits (i : Int) : Nat := (i % 2 ^ 32).toNat

/-- Converts a value into I32 (Table 3-10, R82). -/
def toI32 : Val → Nat × NFlags
  | .nan => (0, { nan := true })
  | .ovf n => (if n then 0x80000000 else 0x7FFFFFFF, { ovf := true })
  | .fin n m =>
    let i := signedNum n (rneNat m)
    if (2 ^ 31 : Int) - 1 < i then (0x7FFFFFFF, { sat := true, satcnt := 1 })
    else if i < -(2 ^ 31 : Int) then (0x80000000, { sat := true, satcnt := 1 })
    else (i32Bits i, {})

/-- The integer of a 32-bit two's-complement pattern. -/
def i32Of (w : Nat) : Int := if 2 ^ 31 ≤ w % 2 ^ 32 then ((w % 2 ^ 32 : Nat) : Int) - 2 ^ 32 else ((w % 2 ^ 32 : Nat) : Int)

/-- Bits per element of a format (Table 3-1); TN counts as 0 here because five trits share a byte. -/
def fmtBits (fmt : Nat) : Nat :=
  if fmt = 1 ∨ fmt = 2 then 2 else if fmt = 3 ∨ fmt = 6 then 8 else if fmt = 4 ∨ fmt = 8 then 16
  else if fmt = 5 ∨ fmt = 7 then 32 else 0

/-- Bytes per element of A8, H16, W32, S8, I32 and U16 (R62); 0 for the packed formats. -/
def fmtBytes (fmt : Nat) : Nat := if fmt = 1 ∨ fmt = 2 then 0 else fmtBits fmt / 8

end Sys2Proof.Machine
end

