-- ==== Sys2Proof/Machine/Dot.lean ====
section
/-! DEFINITION. Dot products and reductions (04): the window sum, groups and promotion intervals, the tile status word. -/

namespace Sys2Proof.Machine

/-- The largest `floor(log2 |t|)` of the non-zero terms (R99); `none` when every term is a zero. -/
def windowTop : List Val → Option Int
  | [] => none
  | t :: ts =>
    let r := windowTop ts
    let m := magVal t
    if m.num = 0 then r else
    match r with
    | none => some (floorLog2 m)
    | some e => some (max e (floorLog2 m))

/-- The sum of the terms truncated to units of `2^(E − 56)`, in those units (R99). -/
def windowTerms (e : Int) : List Val → Int
  | [] => 0
  | t :: ts => signedNum (negOf t) (floorFrac (mulPow2 (magVal t) (56 - e))) + windowTerms e ts

/-- The window sum of finite terms as an exact value, zeros signed by R100. -/
def windowSum (ts : List Val) : Val :=
  match windowTop ts with
  | none => .fin (ts.all negOf) ⟨0, 1⟩
  | some e =>
    let s := windowTerms e ts
    if s = 0 then valZero else .fin (decide (s < 0)) (mulPow2 (natFrac s.natAbs) (e - 56))

/-- A W32 result with whether it is a NaN and whether it is an overflow marker. -/
structure Settled where
  w : W32
  nan : Bool
  ovf : Bool
  deriving DecidableEq, Repr

/-- Decides a group or promotion interval from its terms (R113, then R99 to R101). -/
def settleTerms (ts : List Val) : Settled :=
  if ts.any isNanVal then ⟨0x7FE00000#32, true, false⟩
  else
    let pos := ts.any (fun t => isOvfVal t && !negOf t)
    let neg := ts.any (fun t => isOvfVal t && negOf t)
    if pos && neg then ⟨0x7FE00000#32, true, false⟩
    else if pos then ⟨0x7FC00000#32, false, true⟩
    else if neg then ⟨0xFFC00000#32, false, true⟩
    else
      let r := roundFloat fmtW32 .rne (windowSum ts)
      ⟨BitVec.ofNat 32 r.1, false, r.2⟩

/-- The tile status word (Table 4-5) as its fields. -/
structure Tsw where
  nan : Bool := false
  ovf : Bool := false
  sat : Bool := false
  scaleinv : Bool := false
  expjump : Bool := false
  satcnt : Nat := 0
  first : Option Nat := none
  deriving DecidableEq, Repr

/-- The 64-bit pattern of a tile status word (Table 4-5). -/
def tswWord (t : Tsw) : W64 :=
  BitVec.ofNat 64 (b2n t.nan + 2 * b2n t.ovf + 4 * b2n t.sat + 8 * b2n t.scaleinv + 16 * b2n t.expjump
    + 32 * b2n t.first.isSome + 65536 * min t.satcnt 0xFFFF + 2 ^ 32 * (t.first.getD 0xFFFFFFFF))

/-- The lower of two contraction indices that may be absent. -/
def minFirst : Option Nat → Option Nat → Option Nat
  | none, b => b
  | a, none => a
  | some a, some b => some (min a b)

/-- Status words joined (R114: the flags are sticky and FIRSTNF is the lowest). -/
def joinTsw (a b : Tsw) : Tsw :=
  { nan := a.nan || b.nan, ovf := a.ovf || b.ovf, sat := a.sat || b.sat, scaleinv := a.scaleinv || b.scaleinv,
    expjump := a.expjump || b.expjump, satcnt := a.satcnt + b.satcnt, first := minFirst a.first b.first }

/-- One accumulator element under way: its value and what it adds to the tile's status word. -/
structure Elt where
  acc : W32
  st : Tsw
  deriving DecidableEq, Repr

/-- A product term with the index it reports when it is not finite (R114). -/
structure PTerm where
  v : Val
  k : Nat
  inv : Bool := false
  deriving DecidableEq, Repr

/-- What the terms of a group add to the status word before the group is settled (R114). -/
def termStatus : List PTerm → Tsw
  | [] => {}
  | t :: ts =>
    joinTsw { nan := isNanVal t.v, ovf := isOvfVal t.v, scaleinv := t.inv,
              first := if isFinVal t.v then none else some t.k } (termStatus ts)

/-- The exponent-jump detector (R201): window 0 is off; both values must be finite and not zero. -/
def expJump (win : Nat) (a s : Val) : Bool :=
  0 < win && isFinVal a && isFinVal s && !isZeroVal a && !isZeroVal s
    && decide ((win : Int) < floorLog2 (magVal s) - floorLog2 (magVal a))

/-- Adds one group or promotion interval to an accumulator element (R98, R109, R113, R114, R201). -/
def addGroup (win : Nat) (e : Elt) (ts : List PTerm) : Elt :=
  if ts.length = 0 then e else
  let r := settleTerms (decW32 e.acc :: ts.map (·.v))
  ⟨r.w, joinTsw (joinTsw e.st (termStatus ts))
    { nan := r.nan, ovf := r.ovf, expjump := expJump win (decW32 e.acc) (decW32 r.w) }⟩

/-- The first `n` runs of `size` consecutive entries of a list. -/
def chunks {α : Type} (size : Nat) : Nat → List α → List (List α)
  | 0, _ => []
  | n + 1, l => l.take size :: chunks size n (l.drop size)

/-- A list cut into runs of `size` (the last may be short). -/
def chunkList {α : Type} (size : Nat) (l : List α) : List (List α) := chunks size (ceilDiv l.length (max size 1)) l

/-- The wide path over a contraction range that starts at a multiple of 16: groups of 16 products (R98). -/
def wideDot (win : Nat) (e : Elt) (ts : List PTerm) : Elt := (chunkList 16 ts).foldl (addGroup win) e

/-- One element pair of a narrow block: the A8 code, the facing integer (none: an A8 NaN), and the mitten's H16
pattern where the pair carries one (R107, R108). -/
structure NPair where
  a : Nat
  w : Option Int
  mit : Option Nat := none
  deriving DecidableEq, Repr

/-- One block of a narrow product: its two scales, the index of its first element, its pairs (R108, R109). -/
structure NBlock where
  sx : Nat
  sw : Nat
  k : Nat
  pairs : List NPair
  deriving DecidableEq, Repr

/-- The run J of a block: the integer products, mittens and A8 NaNs excluded (R108). -/
def narrowRun : List NPair → Int
  | [] => 0
  | p :: ps =>
    (match p.mit, p.w with
      | none, some w => if p.a = 0x80 then 0 else a8Int p.a * w
      | _, _ => 0) + narrowRun ps

/-- The separate product terms of a block: mittens, and the NaN products of A8 NaNs (R109, R112). -/
def narrowExtra (sx : Nat) : Nat → List NPair → List PTerm
  | _, [] => []
  | k, p :: ps =>
    (match p.mit with
      | some m => [⟨mulVal (decA8 p.a sx) (decH16 m), k, false⟩]
      | none => if p.a = 0x80 ∨ p.w = none then [⟨.nan, k, false⟩] else []) ++ narrowExtra sx (k + 1) ps

/-- The terms of one block (R109, R111); `unit` is the exponent of the product unit (Table 4-3). -/
def blockTerms (unit : Int) (b : NBlock) : List PTerm :=
  if b.sx = 0xFF ∨ b.sw = 0xFF then [⟨.nan, b.k, true⟩]
  else
    let j := narrowRun b.pairs
    let run : Val := if b.sx = 0 ∨ b.sw = 0 ∨ j = 0 then valZero
      else .fin (decide (j < 0)) (mulPow2 (mulFrac (natFrac j.natAbs) (mulFrac (decS8 b.sx) (decS8 b.sw))) unit)
    ⟨run, b.k, false⟩ :: narrowExtra b.sx b.k b.pairs

/-- The narrow path over promotion intervals of `p` blocks (R109). -/
def narrowDot (win p : Nat) (unit : Int) (e : Elt) (bs : List NBlock) : Elt :=
  (chunkList p bs).foldl (fun e i => addGroup win e (i.flatMap (blockTerms unit))) e

/-- The exponent of the product unit of a narrow pair (Table 4-3). -/
def narrowUnit (fmt : Nat) : Int := if fmt = 0 then -11 else if fmt = 1 then -13 else if fmt = 2 then -15 else -22

/-- A sum reduction of values: groups of 16 with the running sum, from +0 (R123), with the flags of R127. -/
def sumReduce (vs : List Val) : W32 × NFlags :=
  let e := wideDot 0 ⟨0, {}⟩ (vs.map (fun v => ⟨v, 0, false⟩))
  (e.acc, { nan := e.st.nan, ovf := e.st.ovf })

end Sys2Proof.Machine
end

