-- ==== Sys2Proof/Machine/RegNames.lean ====
section
/-! DEFINITION. The manual's register names as BAR0 offsets (Table 15-2 and the register tables). -/

namespace Sys2Proof.Machine.Reg

/-- PIT_COUNT_LO (Table 2-7). -/
abbrev pitCountLo : Nat := 0x10000
/-- PIT_COUNT_HI (Table 2-7). -/
abbrev pitCountHi : Nat := 0x10004
/-- PIT_STATUS (Table 2-7). -/
abbrev pitStatus : Nat := 0x10008
/-- PIT_OFFSET (Table 2-7). -/
abbrev pitOffset : Nat := 0x1000c
/-- PIT_RATE (Table 2-7). -/
abbrev pitRate : Nat := 0x10010
/-- PIT_HOLD_LIMIT (Table 2-7). -/
abbrev pitHoldLimit : Nat := 0x10014
/-- PIT_SET_LO (Table 2-7). -/
abbrev pitSetLo : Nat := 0x10018
/-- PIT_SET_HI (Table 2-7). -/
abbrev pitSetHi : Nat := 0x1001c
/-- PIT_CMD (Table 2-7). -/
abbrev pitCmd : Nat := 0x10020
/-- PIT_LAUNCH_LATE (Table 2-7). -/
abbrev pitLaunchLate : Nat := 0x10024
/-- GUY_CTRL (Table 2-7). -/
abbrev guyCtrl : Nat := 0x10100
/-- GUY_UPPORT (Table 2-7). -/
abbrev guyUpport : Nat := 0x10104
/-- GUY_DOWNMASK (Table 2-7). -/
abbrev guyDownmask : Nat := 0x10108
/-- GUY_BOUND (Table 2-7). -/
abbrev guyBound : Nat := 0x1010c
/-- GUY_STATUS (Table 2-7). -/
abbrev guyStatus : Nat := 0x10110
/-- GUY_DELAY_MAX (Table 2-7). -/
abbrev guyDelayMax : Nat := 0x10114
/-- MOD_SR_SEED_LO (Table 3-14). -/
abbrev modSrSeedLo : Nat := 0x200
/-- MOD_SR_SEED_HI (Table 3-14). -/
abbrev modSrSeedHi : Nat := 0x204
/-- CELL_TN_BADCODE (Table 3-14). -/
abbrev cellTnBadcode (c : Nat) : Nat := 0x2000800 + 0x10000 * c
/-- CELL_SCALE_INVALID (Table 3-14). -/
abbrev cellScaleInvalid (c : Nat) : Nat := 0x2000804 + 0x10000 * c
/-- CELL_A8_SAT (Table 3-14). -/
abbrev cellA8Sat (c : Nat) : Nat := 0x2000808 + 0x10000 * c
/-- CELL_FMT_LAST (Table 3-14). -/
abbrev cellFmtLast (c : Nat) : Nat := 0x200080c + 0x10000 * c
/-- CELL_DOT_CTRL (Table 4-8). -/
abbrev cellDotCtrl (c : Nat) : Nat := 0x2000810 + 0x10000 * c
/-- CELL_NUM_STATUS (Table 4-8). -/
abbrev cellNumStatus (c : Nat) : Nat := 0x2000814 + 0x10000 * c
/-- CELL_TSW_LAST_LO (Table 4-8). -/
abbrev cellTswLastLo (c : Nat) : Nat := 0x2000818 + 0x10000 * c
/-- CELL_TSW_LAST_HI (Table 4-8). -/
abbrev cellTswLastHi (c : Nat) : Nat := 0x200081c + 0x10000 * c
/-- CELL_NF_TILES (Table 4-8). -/
abbrev cellNfTiles (c : Nat) : Nat := 0x2000820 + 0x10000 * c
/-- CELL_MX_CTRL (Table 5-11). -/
abbrev cellMxCtrl (c : Nat) : Nat := 0x2000900 + 0x10000 * c
/-- CELL_MX_STATUS (Table 5-11). -/
abbrev cellMxStatus (c : Nat) : Nat := 0x2000904 + 0x10000 * c
/-- CELL_MX_ACTIVE (Table 5-11). -/
abbrev cellMxActive (c : Nat) : Nat := 0x2000908 + 0x10000 * c
/-- CELL_MX_STALL (Table 5-11). -/
abbrev cellMxStall (c : Nat) : Nat := 0x200090c + 0x10000 * c
/-- CELL_MX_PIECES (Table 5-11). -/
abbrev cellMxPieces (c : Nat) : Nat := 0x2000910 + 0x10000 * c
/-- CELL_MX_DWSKIP (Table 5-11). -/
abbrev cellMxDwskip (c : Nat) : Nat := 0x2000914 + 0x10000 * c
/-- CELL_MX_HDRFAULT (Table 5-11). -/
abbrev cellMxHdrfault (c : Nat) : Nat := 0x2000918 + 0x10000 * c
/-- CELL_MX_EXC (Table 5-11). -/
abbrev cellMxExc (c : Nat) : Nat := 0x200091c + 0x10000 * c
/-- CELL_VS_STATUS (Table 6-9). -/
abbrev cellVsStatus (c : Nat) : Nat := 0x2000a00 + 0x10000 * c
/-- CELL_VS_QSTATUS (Table 6-9). -/
abbrev cellVsQstatus (c : Nat) : Nat := 0x2000a04 + 0x10000 * c
/-- CELL_VS_ACTIVE (Table 6-9). -/
abbrev cellVsActive (c : Nat) : Nat := 0x2000a08 + 0x10000 * c
/-- CELL_VS_FNUNIT (Table 6-9). -/
abbrev cellVsFnunit (c : Nat) : Nat := 0x2000a0c + 0x10000 * c
/-- CELL_VS_LOSS (Table 6-9). -/
abbrev cellVsLoss (c : Nat) : Nat := 0x2000a10 + 0x10000 * c
/-- CELL_VS_LOSS_EPOCH (Table 6-9). -/
abbrev cellVsLossEpoch (c : Nat) : Nat := 0x2000a14 + 0x10000 * c
/-- CELL_VS_EXC (Table 6-9). -/
abbrev cellVsExc (c : Nat) : Nat := 0x2000a18 + 0x10000 * c
/-- MOD_FBBUDGET (Table 7-7). -/
abbrev modFbbudget : Nat := 0x300
/-- MOD_FB_REMAIN (Table 7-7). -/
abbrev modFbRemain : Nat := 0x304
/-- MOD_FB_STATUS (Table 7-7). -/
abbrev modFbStatus : Nat := 0x308
/-- MOD_FB_LOCK_EPOCH (Table 7-7). -/
abbrev modFbLockEpoch : Nat := 0x30c
/-- MOD_FB_LOCK_TICK_LO (Table 7-7). -/
abbrev modFbLockTickLo : Nat := 0x310
/-- MOD_FB_LOCK_TICK_HI (Table 7-7). -/
abbrev modFbLockTickHi : Nat := 0x314
/-- MOD_RPT_W (Table 7-7). -/
abbrev modRptW : Nat := 0x318
/-- MOD_RPT_A (Table 7-7). -/
abbrev modRptA : Nat := 0x31c
/-- MOD_RPT_DENIED (Table 7-7). -/
abbrev modRptDenied : Nat := 0x320
/-- MOD_RPT_TOP (Table 7-7). -/
abbrev modRptTop : Nat := 0x324
/-- MOD_WIDE_LOCKS (Table 7-7). -/
abbrev modWideLocks : Nat := 0x328
/-- MOD_LAYER_BASE_LO (Table 7-7). -/
abbrev modLayerBaseLo : Nat := 0x330
/-- MOD_LAYER_BASE_HI (Table 7-7). -/
abbrev modLayerBaseHi : Nat := 0x334
/-- MOD_LAYER_COUNT (Table 7-7). -/
abbrev modLayerCount : Nat := 0x338
/-- MOD_LCNT_BASE_LO (Table 7-7). -/
abbrev modLcntBaseLo : Nat := 0x33c
/-- MOD_LCNT_BASE_HI (Table 7-7). -/
abbrev modLcntBaseHi : Nat := 0x340
/-- GS_ESC_Q4 (Table 7-8). -/
abbrev gsEscQ4 (n : Nat) : Nat := 0x1000700 + 0x100000 * n
/-- GS_ESC_H16 (Table 7-8). -/
abbrev gsEscH16 (n : Nat) : Nat := 0x1000704 + 0x100000 * n
/-- GS_ESC_CAPPED (Table 7-8). -/
abbrev gsEscCapped (n : Nat) : Nat := 0x1000708 + 0x100000 * n
/-- GS_ZERO_UNMIT (Table 7-8). -/
abbrev gsZeroUnmit (n : Nat) : Nat := 0x100070c + 0x100000 * n
/-- GS_LINERS (Table 7-8). -/
abbrev gsLiners (n : Nat) : Nat := 0x1000710 + 0x100000 * n
/-- MOD_UGRP_BASE_LO (Table 8-6). -/
abbrev modUgrpBaseLo : Nat := 0x400
/-- MOD_UGRP_BASE_HI (Table 8-6). -/
abbrev modUgrpBaseHi : Nat := 0x404
/-- MOD_UGRP_COUNT (Table 8-6). -/
abbrev modUgrpCount : Nat := 0x408
/-- GS_CTRL (Table 8-7). -/
abbrev gsCtrl (n : Nat) : Nat := 0x1000000 + 0x100000 * n
/-- GS_STATUS (Table 8-7). -/
abbrev gsStatus (n : Nat) : Nat := 0x1000004 + 0x100000 * n
/-- GS_STRICT_FROZEN (Table 8-7). -/
abbrev gsStrictFrozen (n : Nat) : Nat := 0x1000008 + 0x100000 * n
/-- GS_SHARD_BASE (Table 8-7). -/
abbrev gsShardBase (n : Nat) : Nat := 0x100000c + 0x100000 * n
/-- GS_SHARD_COUNT (Table 8-7). -/
abbrev gsShardCount (n : Nat) : Nat := 0x1000010 + 0x100000 * n
/-- GS_SLICES_OPEN (Table 8-7). -/
abbrev gsSlicesOpen (n : Nat) : Nat := 0x1000014 + 0x100000 * n
/-- GS_UPD_SLICES (Table 8-7). -/
abbrev gsUpdSlices (n : Nat) : Nat := 0x1000100 + 0x100000 * n
/-- GS_FROZEN_HITS (Table 8-7). -/
abbrev gsFrozenHits (n : Nat) : Nat := 0x1000104 + 0x100000 * n
/-- GS_DUP_SLICES (Table 8-7). -/
abbrev gsDupSlices (n : Nat) : Nat := 0x1000108 + 0x100000 * n
/-- GS_UNKNOWN (Table 8-7). -/
abbrev gsUnknown (n : Nat) : Nat := 0x100010c + 0x100000 * n
/-- GS_UPD_NF (Table 8-7). -/
abbrev gsUpdNf (n : Nat) : Nat := 0x1000110 + 0x100000 * n
/-- GS_ROOT_RECOMP (Table 8-7). -/
abbrev gsRootRecomp (n : Nat) : Nat := 0x1000114 + 0x100000 * n
/-- GS_ROOT_FAIL (Table 8-7). -/
abbrev gsRootFail (n : Nat) : Nat := 0x1000118 + 0x100000 * n
/-- GS_SKIPPED (Table 8-7). -/
abbrev gsSkipped (n : Nat) : Nat := 0x100011c + 0x100000 * n
/-- GS_UPD_ACTIVE (Table 8-7). -/
abbrev gsUpdActive (n : Nat) : Nat := 0x1000120 + 0x100000 * n
/-- GS_GATHER_STATUS (Table 8-7). -/
abbrev gsGatherStatus (n : Nat) : Nat := 0x1000200 + 0x100000 * n
/-- GS_GATHER_TILES (Table 8-7). -/
abbrev gsGatherTiles (n : Nat) : Nat := 0x1000204 + 0x100000 * n
/-- GS_GATHER_CLIPS (Table 8-7). -/
abbrev gsGatherClips (n : Nat) : Nat := 0x1000208 + 0x100000 * n
/-- GS_SCALE_INVALID (Table 8-7). -/
abbrev gsScaleInvalid (n : Nat) : Nat := 0x100020c + 0x100000 * n
/-- GS_GATHER_HELD (Table 8-7). -/
abbrev gsGatherHeld (n : Nat) : Nat := 0x1000210 + 0x100000 * n
/-- GS_GATHER_STALE (Table 8-7). -/
abbrev gsGatherStale (n : Nat) : Nat := 0x1000214 + 0x100000 * n
/-- GS_BU_STATUS (Table 8-7). -/
abbrev gsBuStatus (n : Nat) : Nat := 0x1000300 + 0x100000 * n
/-- GS_BU_TSW_LAST_LO (Table 8-7). -/
abbrev gsBuTswLastLo (n : Nat) : Nat := 0x1000304 + 0x100000 * n
/-- GS_BU_TSW_LAST_HI (Table 8-7). -/
abbrev gsBuTswLastHi (n : Nat) : Nat := 0x1000308 + 0x100000 * n
/-- GS_BU_ACTIVE (Table 8-7). -/
abbrev gsBuActive (n : Nat) : Nat := 0x100030c + 0x100000 * n
/-- MOD_STEP_CTRL (Table 9-8). -/
abbrev modStepCtrl : Nat := 0x500
/-- MOD_EPOCH (Table 9-8). -/
abbrev modEpoch : Nat := 0x504
/-- MOD_STEP_STATUS (Table 9-8). -/
abbrev modStepStatus : Nat := 0x508
/-- MOD_STEP_TSEAL_LO (Table 9-8). -/
abbrev modStepTsealLo : Nat := 0x50c
/-- MOD_STEP_TSEAL_HI (Table 9-8). -/
abbrev modStepTsealHi : Nat := 0x510
/-- MOD_STEP_SEALT_LO (Table 9-8). -/
abbrev modStepSealtLo : Nat := 0x514
/-- MOD_STEP_SEALT_HI (Table 9-8). -/
abbrev modStepSealtHi : Nat := 0x518
/-- MOD_STEP_CMD (Table 9-8). -/
abbrev modStepCmd : Nat := 0x51c
/-- MOD_GSCALE (Table 9-8). -/
abbrev modGscale : Nat := 0x520
/-- MOD_GSCALE_CTRL (Table 9-8). -/
abbrev modGscaleCtrl : Nat := 0x524
/-- MOD_GSCALE_RUN (Table 9-8). -/
abbrev modGscaleRun : Nat := 0x528
/-- MOD_STAKES (Table 9-8). -/
abbrev modStakes : Nat := 0x52c
/-- MOD_STRIKES (Table 9-8). -/
abbrev modStrikes : Nat := 0x530
/-- MOD_LOCAL_STRIKES (Table 9-8). -/
abbrev modLocalStrikes : Nat := 0x534
/-- MOD_STALE_IN (Table 9-8). -/
abbrev modStaleIn : Nat := 0x538
/-- MOD_FLAGS_DROPPED (Table 9-8). -/
abbrev modFlagsDropped : Nat := 0x53c
/-- MOD_VERDICT_STRAY (Table 9-8). -/
abbrev modVerdictStray : Nat := 0x540
/-- MOD_STEP_UNSEALED (Table 9-8). -/
abbrev modStepUnsealed : Nat := 0x544
/-- MOD_FLY_PAGES (Table 9-8). -/
abbrev modFlyPages : Nat := 0x548
/-- POOL_CTRL (Table 10-9). -/
abbrev poolCtrl : Nat := 0x200000
/-- POOL_STATUS (Table 10-9). -/
abbrev poolStatus : Nat := 0x200004
/-- POOL_LOWATER (Table 10-9). -/
abbrev poolLowater : Nat := 0x200008
/-- POOL_HIWATER (Table 10-9). -/
abbrev poolHiwater : Nat := 0x20000c
/-- POOL_CMD (Table 10-9). -/
abbrev poolCmd : Nat := 0x200010
/-- POOL_CMD_PAGE (Table 10-9). -/
abbrev poolCmdPage : Nat := 0x200014
/-- POOL_CMD_ARG (Table 10-9). -/
abbrev poolCmdArg : Nat := 0x200018
/-- POOL_CMD_STATUS (Table 10-9). -/
abbrev poolCmdStatus : Nat := 0x20001c
/-- POOL_DIR_LO (Table 10-9). -/
abbrev poolDirLo : Nat := 0x200020
/-- POOL_DIR_HI (Table 10-9). -/
abbrev poolDirHi : Nat := 0x200024
/-- POOL_QUOTA_c (Table 10-9). -/
abbrev poolQuota (i : Nat) : Nat := 0x200040 + i * 4
/-- POOL_USE_c (Table 10-9). -/
abbrev poolUse (i : Nat) : Nat := 0x200060 + i * 4
/-- POOL_FREE_n (Table 10-9). -/
abbrev poolFree (i : Nat) : Nat := 0x200080 + i * 4
/-- POOL_RETIRED_n (Table 10-9). -/
abbrev poolRetired (i : Nat) : Nat := 0x2000c0 + i * 4
/-- POOL_CE_THRESH (Table 10-9). -/
abbrev poolCeThresh : Nat := 0x200100
/-- POOL_SCRUB_PERIOD (Table 10-9). -/
abbrev poolScrubPeriod : Nat := 0x200104
/-- POOL_CE (Table 10-9). -/
abbrev poolCe : Nat := 0x200110
/-- POOL_UE (Table 10-9). -/
abbrev poolUe : Nat := 0x200114
/-- POOL_EVICTIONS (Table 10-9). -/
abbrev poolEvictions : Nat := 0x200118
/-- POOL_BRINGUPS (Table 10-9). -/
abbrev poolBringups : Nat := 0x20011c
/-- POOL_EVICT_CANCEL (Table 10-9). -/
abbrev poolEvictCancel : Nat := 0x200120
/-- POOL_LOST (Table 10-9). -/
abbrev poolLost : Nat := 0x200124
/-- FAR_CTRL (Table 10-9). -/
abbrev farCtrl : Nat := 0x200200
/-- FAR_TIMEOUT (Table 10-9). -/
abbrev farTimeout : Nat := 0x200204
/-- FAR_EVICT_BASE (Table 10-9). -/
abbrev farEvictBase : Nat := 0x200208
/-- FAR_EVICT_SIZE (Table 10-9). -/
abbrev farEvictSize : Nat := 0x20020c
/-- FAR_EVICT_MAP (Table 10-9). -/
abbrev farEvictMap : Nat := 0x200210
/-- FAR_READS (Table 10-9). -/
abbrev farReads : Nat := 0x200220
/-- FAR_WRITES (Table 10-9). -/
abbrev farWrites : Nat := 0x200224
/-- FAR_FAILS (Table 10-9). -/
abbrev farFails : Nat := 0x200228
/-- FAR_REGION_FBASE_r (Table 10-9). -/
abbrev farRegionFbase (i : Nat) : Nat := 0x200240 + i * 16
/-- FAR_REGION_SIZE_r (Table 10-9). -/
abbrev farRegionSize (i : Nat) : Nat := 0x200244 + i * 16
/-- FAR_REGION_HPA_LO_r (Table 10-9). -/
abbrev farRegionHpaLo (i : Nat) : Nat := 0x200248 + i * 16
/-- FAR_REGION_HPA_HI_r (Table 10-9). -/
abbrev farRegionHpaHi (i : Nat) : Nat := 0x20024c + i * 16
/-- CELL_LATE_CTRL (Table 10-10). -/
abbrev cellLateCtrl (c : Nat) : Nat := 0x2000b00 + 0x10000 * c
/-- CELL_XFER_STATUS (Table 10-10). -/
abbrev cellXferStatus (c : Nat) : Nat := 0x2000b04 + 0x10000 * c
/-- CELL_LATE_SWITCH (Table 10-10). -/
abbrev cellLateSwitch (c : Nat) : Nat := 0x2000b08 + 0x10000 * c
/-- CELL_LATE_NARROW (Table 10-10). -/
abbrev cellLateNarrow (c : Nat) : Nat := 0x2000b0c + 0x10000 * c
/-- CELL_LATE_DISCARD (Table 10-10). -/
abbrev cellLateDiscard (c : Nat) : Nat := 0x2000b10 + 0x10000 * c
/-- CELL_DEADLINE_MISS (Table 10-10). -/
abbrev cellDeadlineMiss (c : Nat) : Nat := 0x2000b14 + 0x10000 * c
/-- CELL_XFER_FAIL (Table 10-10). -/
abbrev cellXferFail (c : Nat) : Nat := 0x2000b18 + 0x10000 * c
/-- CELL_SPAD_CE (Table 10-10). -/
abbrev cellSpadCe (c : Nat) : Nat := 0x2000b1c + 0x10000 * c
/-- CELL_SPAD_UE (Table 10-10). -/
abbrev cellSpadUe (c : Nat) : Nat := 0x2000b20 + 0x10000 * c
/-- FAB_CTRL (Table 11-12). -/
abbrev fabCtrl : Nat := 0x100000
/-- FAB_ADDR (Table 11-12). -/
abbrev fabAddr : Nat := 0x100004
/-- FAB_SERIAL_LO (Table 11-12). -/
abbrev fabSerialLo : Nat := 0x100008
/-- FAB_SERIAL_HI (Table 11-12). -/
abbrev fabSerialHi : Nat := 0x10000c
/-- FAB_LANE_LIMIT (Table 11-12). -/
abbrev fabLaneLimit : Nat := 0x100010
/-- FAB_DISC_CMD (Table 11-12). -/
abbrev fabDiscCmd : Nat := 0x100020
/-- FAB_DISC_NEXT (Table 11-12). -/
abbrev fabDiscNext : Nat := 0x100024
/-- FAB_DISC_BUF_LO (Table 11-12). -/
abbrev fabDiscBufLo : Nat := 0x100028
/-- FAB_DISC_BUF_HI (Table 11-12). -/
abbrev fabDiscBufHi : Nat := 0x10002c
/-- FAB_DISC_MAXREC (Table 11-12). -/
abbrev fabDiscMaxrec : Nat := 0x100030
/-- FAB_DISC_STATUS (Table 11-12). -/
abbrev fabDiscStatus : Nat := 0x100034
/-- FAB_DISC_FOUND (Table 11-12). -/
abbrev fabDiscFound : Nat := 0x100038
/-- FAB_TXN_TIMEOUT (Table 11-12). -/
abbrev fabTxnTimeout : Nat := 0x100040
/-- FAB_TXN_RETRIES (Table 11-12). -/
abbrev fabTxnRetries : Nat := 0x100044
/-- FAB_TXN_INFLIGHT (Table 11-12). -/
abbrev fabTxnInflight : Nat := 0x100048
/-- FAB_CHAN_BASE (Table 11-12). -/
abbrev fabChanBase : Nat := 0x100050
/-- FAB_CHAN_CMD (Table 11-12). -/
abbrev fabChanCmd : Nat := 0x100054
/-- FAB_CHAN_STATUS (Table 11-12). -/
abbrev fabChanStatus : Nat := 0x100058
/-- FAB_TAG_STALL (Table 11-12). -/
abbrev fabTagStall : Nat := 0x100080
/-- FAB_LATE_RESP (Table 11-12). -/
abbrev fabLateResp : Nat := 0x100084
/-- FAB_TXN_FAIL (Table 11-12). -/
abbrev fabTxnFail : Nat := 0x100088
/-- FAB_UNROUTABLE (Table 11-12). -/
abbrev fabUnroutable : Nat := 0x10008c
/-- FAB_TTL_DROP (Table 11-12). -/
abbrev fabTtlDrop : Nat := 0x100090
/-- FAB_FAILOVER (Table 11-12). -/
abbrev fabFailover : Nat := 0x100094
/-- FAB_INCOMPLETE (Table 11-12). -/
abbrev fabIncomplete : Nat := 0x100098
/-- FAB_BAD_KIND (Table 11-12). -/
abbrev fabBadKind : Nat := 0x10009c
/-- FAB_CHAN_RETX (Table 11-12). -/
abbrev fabChanRetx : Nat := 0x1000a0
/-- FAB_CHAN_REJECT (Table 11-12). -/
abbrev fabChanReject : Nat := 0x1000a4
/-- FAB_PORT_CTRL_p (Table 11-12). -/
abbrev fabPortCtrl (i : Nat) : Nat := 0x101000 + 64 * i
/-- FAB_PORT_STATUS_p (Table 11-12). -/
abbrev fabPortStatus (i : Nat) : Nat := 0x101004 + 64 * i
/-- FAB_PORT_PEER_p (Table 11-12). -/
abbrev fabPortPeer (i : Nat) : Nat := 0x101008 + 64 * i
/-- FAB_PORT_PEER_SN_LO_p (Table 11-12). -/
abbrev fabPortPeerSnLo (i : Nat) : Nat := 0x10100c + 64 * i
/-- FAB_PORT_PEER_SN_HI_p (Table 11-12). -/
abbrev fabPortPeerSnHi (i : Nat) : Nat := 0x101010 + 64 * i
/-- FAB_PORT_CABLE_p (Table 11-12). -/
abbrev fabPortCable (i : Nat) : Nat := 0x101014 + 64 * i
/-- FAB_PORT_FEC_CORR_p (Table 11-12). -/
abbrev fabPortFecCorr (i : Nat) : Nat := 0x101018 + 64 * i
/-- FAB_PORT_FEC_UNCORR_p (Table 11-12). -/
abbrev fabPortFecUncorr (i : Nat) : Nat := 0x10101c + 64 * i
/-- FAB_PORT_FLITS_LOST_p (Table 11-12). -/
abbrev fabPortFlitsLost (i : Nat) : Nat := 0x101020 + 64 * i
/-- FAB_PORT_TX_FLITS_p (Table 11-12). -/
abbrev fabPortTxFlits (i : Nat) : Nat := 0x101024 + 64 * i
/-- FAB_PORT_RX_FLITS_p (Table 11-12). -/
abbrev fabPortRxFlits (i : Nat) : Nat := 0x101028 + 64 * i
/-- FAB_PORT_RETRAINS_p (Table 11-12). -/
abbrev fabPortRetrains (i : Nat) : Nat := 0x10102c + 64 * i
/-- FAB_RT_a (Table 11-12). -/
abbrev fabRt (i : Nat) : Nat := 0x180000 + i * 4
/-- MOD_GROUP_BASE_LO (Table 12-7). -/
abbrev modGroupBaseLo : Nat := 0x600
/-- MOD_GROUP_BASE_HI (Table 12-7). -/
abbrev modGroupBaseHi : Nat := 0x604
/-- MOD_GROUP_COUNT (Table 12-7). -/
abbrev modGroupCount : Nat := 0x608
/-- MOD_PLACE_BASE_LO (Table 12-7). -/
abbrev modPlaceBaseLo : Nat := 0x610
/-- MOD_PLACE_BASE_HI (Table 12-7). -/
abbrev modPlaceBaseHi : Nat := 0x614
/-- FAB_CU_STATUS_d (Table 12-7). -/
abbrev fabCuStatus (i : Nat) : Nat := 0x100200 + i * 32
/-- FAB_CU_ADDS_d (Table 12-7). -/
abbrev fabCuAdds (i : Nat) : Nat := 0x100204 + i * 32
/-- FAB_CU_REFUSED_d (Table 12-7). -/
abbrev fabCuRefused (i : Nat) : Nat := 0x100208 + i * 32
/-- FAB_CU_ABORT_d (Table 12-7). -/
abbrev fabCuAbort (i : Nat) : Nat := 0x10020c + i * 32
/-- FAB_CU_DISCARD_d (Table 12-7). -/
abbrev fabCuDiscard (i : Nat) : Nat := 0x100210 + i * 32
/-- CELL_RED_MB (Table 12-7). -/
abbrev cellRedMb (c : Nat) : Nat := 0x2000c00 + 0x10000 * c
/-- CELL_CL_STATUS (Table 12-7). -/
abbrev cellClStatus (c : Nat) : Nat := 0x2000c04 + 0x10000 * c
/-- CELL_CORE_CTRL (Table 13-13). -/
abbrev cellCoreCtrl (c : Nat) : Nat := 0x2000100 + 0x10000 * c
/-- CELL_CORE_PC (Table 13-13). -/
abbrev cellCorePc (c : Nat) : Nat := 0x2000104 + 0x10000 * c
/-- CELL_CORE_STATUS (Table 13-13). -/
abbrev cellCoreStatus (c : Nat) : Nat := 0x2000108 + 0x10000 * c
/-- CELL_CORE_EXC (Table 13-13). -/
abbrev cellCoreExc (c : Nat) : Nat := 0x200010c + 0x10000 * c
/-- CELL_CORE_EXCCNT (Table 13-13). -/
abbrev cellCoreExccnt (c : Nat) : Nat := 0x2000110 + 0x10000 * c
/-- CELL_LAUNCH_FAULT (Table 13-13). -/
abbrev cellLaunchFault (c : Nat) : Nat := 0x2000114 + 0x10000 * c
/-- CELL_CORE_INSNS (Table 13-13). -/
abbrev cellCoreInsns (c : Nat) : Nat := 0x2000118 + 0x10000 * c
/-- CELL_CORE_STALL (Table 13-13). -/
abbrev cellCoreStall (c : Nat) : Nat := 0x200011c + 0x10000 * c
/-- CELL_IMEM_CE (Table 13-13). -/
abbrev cellImemCe (c : Nat) : Nat := 0x2000120 + 0x10000 * c
/-- CELL_LAUNCH_LATE (Table 13-13). -/
abbrev cellLaunchLate (c : Nat) : Nat := 0x2000124 + 0x10000 * c
/-- CELL_IMEM_w (Table 13-13). -/
abbrev cellImem (c w : Nat) : Nat := 0x2008000 + 0x10000 * c + w * 4
/-- PWR_CTRL (Table 14-8). -/
abbrev pwrCtrl : Nat := 0x20000
/-- PWR_CAP (Table 14-8). -/
abbrev pwrCap : Nat := 0x20004
/-- PWR_CAP_EFF (Table 14-8). -/
abbrev pwrCapEff : Nat := 0x20008
/-- PWR_BUDGET (Table 14-8). -/
abbrev pwrBudget : Nat := 0x2000c
/-- PWR_RAMP (Table 14-8). -/
abbrev pwrRamp : Nat := 0x20010
/-- PWR_DPDT (Table 14-8). -/
abbrev pwrDpdt : Nat := 0x20014
/-- PWR_BIVOUAC (Table 14-8). -/
abbrev pwrBivouac : Nat := 0x20018
/-- PWR_PEAK (Table 14-8). -/
abbrev pwrPeak : Nat := 0x2001c
/-- PWR_WARN_CTRL (Table 14-8). -/
abbrev pwrWarnCtrl : Nat := 0x20020
/-- PWR_STATUS (Table 14-8). -/
abbrev pwrStatus : Nat := 0x20024
/-- PWR_POWER (Table 14-8). -/
abbrev pwrPower : Nat := 0x20028
/-- PWR_VIN (Table 14-8). -/
abbrev pwrVin : Nat := 0x2002c
/-- PWR_IIN (Table 14-8). -/
abbrev pwrIin : Nat := 0x20030
/-- PWR_ENERGY_LO (Table 14-8). -/
abbrev pwrEnergyLo : Nat := 0x20038
/-- PWR_ENERGY_HI (Table 14-8). -/
abbrev pwrEnergyHi : Nat := 0x2003c
/-- PWR_KINDLE_LO (Table 14-8). -/
abbrev pwrKindleLo : Nat := 0x20040
/-- PWR_KINDLE_HI (Table 14-8). -/
abbrev pwrKindleHi : Nat := 0x20044
/-- PWR_EXC_TIME (Table 14-8). -/
abbrev pwrExcTime : Nat := 0x20048
/-- PWR_SHEDS (Table 14-8). -/
abbrev pwrSheds : Nat := 0x2004c
/-- PWR_BIVOUACS (Table 14-8). -/
abbrev pwrBivouacs : Nat := 0x20050
/-- PWR_HINT_DROP (Table 14-8). -/
abbrev pwrHintDrop : Nat := 0x20054
/-- PWR_ROT_CTRL (Table 14-8). -/
abbrev pwrRotCtrl : Nat := 0x20060
/-- PWR_ROT_EPOCH0 (Table 14-8). -/
abbrev pwrRotEpoch0 : Nat := 0x20064
/-- PWR_ROT_OFFSET (Table 14-8). -/
abbrev pwrRotOffset : Nat := 0x20068
/-- PWR_DIE_d (Table 14-8). -/
abbrev pwrDie (i : Nat) : Nat := 0x20100 + i * 4
/-- PWR_SHARE_d (Table 14-8). -/
abbrev pwrShare (i : Nat) : Nat := 0x20120 + i * 4
/-- PWR_PHASE_d (Table 14-8). -/
abbrev pwrPhase (i : Nat) : Nat := 0x20140 + i * 4
/-- PWR_PH_DUR_n (Table 14-8). -/
abbrev pwrPhDur (i : Nat) : Nat := 0x21000 + i * 16
/-- PWR_PH_ENERGY_n (Table 14-8). -/
abbrev pwrPhEnergy (i : Nat) : Nat := 0x21004 + i * 16
/-- PWR_PH_PEAK_n (Table 14-8). -/
abbrev pwrPhPeak (i : Nat) : Nat := 0x21008 + i * 16
/-- PWR_PH_FSTEP_n (Table 14-8). -/
abbrev pwrPhFstep (i : Nat) : Nat := 0x2100c + i * 16
/-- PWR_PHL_n (Table 14-8). -/
abbrev pwrPhl (i : Nat) : Nat := 0x22000 + i * 4
/-- THM_CTRL (Table 14-9). -/
abbrev thmCtrl : Nat := 0x20800
/-- THM_TJ_TARGET (Table 14-9). -/
abbrev thmTjTarget : Nat := 0x20804
/-- THM_SLOPE (Table 14-9). -/
abbrev thmSlope : Nat := 0x20808
/-- THM_SLOPE_WIN (Table 14-9). -/
abbrev thmSlopeWin : Nat := 0x2080c
/-- THM_AIR (Table 14-9). -/
abbrev thmAir : Nat := 0x20810
/-- THM_RTH (Table 14-9). -/
abbrev thmRth : Nat := 0x20814
/-- THM_INLET (Table 14-9). -/
abbrev thmInlet : Nat := 0x20818
/-- THM_OUTLET (Table 14-9). -/
abbrev thmOutlet : Nat := 0x2081c
/-- THM_TJ_MAX (Table 14-9). -/
abbrev thmTjMax : Nat := 0x20820
/-- THM_TRIP (Table 14-9). -/
abbrev thmTrip : Nat := 0x20824
/-- THM_CMD (Table 14-9). -/
abbrev thmCmd : Nat := 0x20828
/-- THM_HS_SERIAL_LO (Table 14-9). -/
abbrev thmHsSerialLo : Nat := 0x2082c
/-- THM_HS_SERIAL_HI (Table 14-9). -/
abbrev thmHsSerialHi : Nat := 0x20830
/-- THM_TJ_d (Table 14-9). -/
abbrev thmTj (i : Nat) : Nat := 0x20840 + i * 4
/-- HQ_LINK_STATUS (Table 15-7). -/
abbrev hqLinkStatus : Nat := 0x30000
/-- HQ_UIO_INFLIGHT (Table 15-7). -/
abbrev hqUioInflight : Nat := 0x30004
/-- HQ_HOST_ERR (Table 15-7). -/
abbrev hqHostErr : Nat := 0x30008
/-- EVT_BASE_LO (Table 15-7). -/
abbrev evtBaseLo : Nat := 0x30100
/-- EVT_BASE_HI (Table 15-7). -/
abbrev evtBaseHi : Nat := 0x30104
/-- EVT_CTRL (Table 15-7). -/
abbrev evtCtrl : Nat := 0x30108
/-- EVT_TAIL (Table 15-7). -/
abbrev evtTail : Nat := 0x3010c
/-- EVT_HEAD (Table 15-7). -/
abbrev evtHead : Nat := 0x30110
/-- EVT_LOST (Table 15-7). -/
abbrev evtLost : Nat := 0x30114
/-- EVT_IRQ_DELAY (Table 15-7). -/
abbrev evtIrqDelay : Nat := 0x30118
/-- HQ_QBASE_LO_q (Table 15-7). -/
abbrev hqQbaseLo (i : Nat) : Nat := 0x31000 + 64 * i
/-- HQ_QBASE_HI_q (Table 15-7). -/
abbrev hqQbaseHi (i : Nat) : Nat := 0x31004 + 64 * i
/-- HQ_QCBASE_LO_q (Table 15-7). -/
abbrev hqQcbaseLo (i : Nat) : Nat := 0x31008 + 64 * i
/-- HQ_QCBASE_HI_q (Table 15-7). -/
abbrev hqQcbaseHi (i : Nat) : Nat := 0x3100c + 64 * i
/-- HQ_QCTRL_q (Table 15-7). -/
abbrev hqQctrl (i : Nat) : Nat := 0x31010 + 64 * i
/-- HQ_QTAIL_q (Table 15-7). -/
abbrev hqQtail (i : Nat) : Nat := 0x31014 + 64 * i
/-- HQ_QHEAD_q (Table 15-7). -/
abbrev hqQhead (i : Nat) : Nat := 0x31018 + 64 * i
/-- HQ_QSTATUS_q (Table 15-7). -/
abbrev hqQstatus (i : Nat) : Nat := 0x3101c + 64 * i
/-- MSI-X table (Table 15-7). -/
abbrev msixTable (i : Nat) : Nat := 0x38000 + i * 4
/-- MSI-X pending bits (Table 15-7). -/
abbrev msixPending (i : Nat) : Nat := 0x39000 + i * 4
/-- POOL_HDM_CTRL (Table 15-8). -/
abbrev poolHdmCtrl : Nat := 0x200300
/-- POOL_HDM_PAGE0 (Table 15-8). -/
abbrev poolHdmPage0 : Nat := 0x200304
/-- POOL_HDM_RAW (Table 15-8). -/
abbrev poolHdmRaw : Nat := 0x200308
/-- POOL_HDM_FAULTS (Table 15-8). -/
abbrev poolHdmFaults : Nat := 0x20030c
/-- POOL_HDM_RD (Table 15-8). -/
abbrev poolHdmRd : Nat := 0x200310
/-- POOL_HDM_WR (Table 15-8). -/
abbrev poolHdmWr : Nat := 0x200314
/-- BOOT_STATUS (Table 16-5). -/
abbrev bootStatus : Nat := 0x40000
/-- BOOT_FWPOLICY (Table 16-5). -/
abbrev bootFwpolicy : Nat := 0x40004
/-- BOOT_FW_VERSION (Table 16-5). -/
abbrev bootFwVersion : Nat := 0x40008
/-- BOOT_UC_VERSION (Table 16-5). -/
abbrev bootUcVersion : Nat := 0x4000c
/-- BOOT_HW (Table 16-5). -/
abbrev bootHw : Nat := 0x40010
/-- BOOT_SVN (Table 16-5). -/
abbrev bootSvn : Nat := 0x40014
/-- BOOT_LOAD_ADDR_LO (Table 16-5). -/
abbrev bootLoadAddrLo : Nat := 0x40020
/-- BOOT_LOAD_ADDR_HI (Table 16-5). -/
abbrev bootLoadAddrHi : Nat := 0x40024
/-- BOOT_LOAD_LEN (Table 16-5). -/
abbrev bootLoadLen : Nat := 0x40028
/-- BOOT_CMD (Table 16-5). -/
abbrev bootCmd : Nat := 0x4002c
/-- BOOT_CMD_STATUS (Table 16-5). -/
abbrev bootCmdStatus : Nat := 0x40030
/-- BOOT_CRING_BASE_LO (Table 16-5). -/
abbrev bootCringBaseLo : Nat := 0x40100
/-- BOOT_CRING_BASE_HI (Table 16-5). -/
abbrev bootCringBaseHi : Nat := 0x40104
/-- BOOT_CRING_CTRL (Table 16-5). -/
abbrev bootCringCtrl : Nat := 0x40108
/-- BOOT_CRING_TAIL (Table 16-5). -/
abbrev bootCringTail : Nat := 0x4010c
/-- BOOT_CRING_HEAD (Table 16-5). -/
abbrev bootCringHead : Nat := 0x40110
/-- BOOT_CRING_LOST (Table 16-5). -/
abbrev bootCringLost : Nat := 0x40114
/-- BOOT_CLAMPS (Table 16-5). -/
abbrev bootClamps : Nat := 0x40118
/-- BOOT_REJECTS (Table 16-5). -/
abbrev bootRejects : Nat := 0x4011c
/-- BOOT_TORN (Table 16-5). -/
abbrev bootTorn : Nat := 0x40120
/-- SEC_STATUS (Table 16-5). -/
abbrev secStatus : Nat := 0x40200
/-- MOD_RESET_CTRL (Table 17-7). -/
abbrev modResetCtrl : Nat := 0x40
/-- MOD_RESET_STATUS (Table 17-7). -/
abbrev modResetStatus : Nat := 0x44
/-- MOD_WARM_RESETS (Table 17-7). -/
abbrev modWarmResets : Nat := 0x48
/-- MOD_CTR_CTRL (Table 17-7). -/
abbrev modCtrCtrl : Nat := 0x700
/-- MOD_PIN_STATUS (Table 18-8). -/
abbrev modPinStatus : Nat := 0x80
/-- MOD_HARNESS_RATING (Table 18-8). -/
abbrev modHarnessRating : Nat := 0x84
/-- MOD_HARNESS_STATUS (Table 18-8). -/
abbrev modHarnessStatus : Nat := 0x88
/-- MOD_HARNESS_SERIAL_LO (Table 18-8). -/
abbrev modHarnessSerialLo : Nat := 0x8c
/-- MOD_HARNESS_SERIAL_HI (Table 18-8). -/
abbrev modHarnessSerialHi : Nat := 0x90

/-- Global control of the HDM decoder capability (R445, R448). -/
abbrev hdmGlobal : Nat := 0x81204
/-- Base of HDM decoder 0, bits [31:28]. -/
abbrev hdmBaseLo : Nat := 0x81210
/-- Bits [63:32]. -/
abbrev hdmBaseHi : Nat := 0x81214
/-- Size of HDM decoder 0, bits [31:28]. -/
abbrev hdmSizeLo : Nat := 0x81218
/-- Bits [63:32]. -/
abbrev hdmSizeHi : Nat := 0x8121c
/-- Control of HDM decoder 0. -/
abbrev hdmDecoder : Nat := 0x81220
/-- Status of the CXL IDE capability. -/
abbrev compIdeStatus : Nat := 0x81308

end Sys2Proof.Machine.Reg
end

