-- ==== Sys2Proof/Machine/RegTable.lean ====
section
/-! DEFINITION. The register tables of the manual as data: name, place, access, reset and range of every field. -/

namespace Sys2Proof.Machine

/-- Access codes of Table 0-1 (R6). -/
inductive Acc where
  | rw | ro | w1c | wo | rws
  deriving DecidableEq, Repr

/-- One field of a register: place (R2), access code, reset value, stated range, whether a command row of its own
writes it (REGISTER_WRITE then leaves it), and whether it is a COUNT field (R496). -/
structure FieldRow where
  lo : Nat
  width : Nat
  acc : Acc
  reset : Nat
  min : Nat
  max : Nat
  own : Bool
  count : Bool
  deriving DecidableEq, Repr

/-- A register or a regular run of `n` registers `stride` bytes apart, at `base` of its block. -/
structure RegRow where
  base : Nat
  stride : Nat
  n : Nat
  fields : List FieldRow
  deriving DecidableEq, Repr

/-- Part 1 of the registers of the module at their BAR0 offsets. -/
def modRows0 : List RegRow := [
  -- PIT_COUNT_LO (Table 2-7)
  ⟨0x10000, 0, 1, [⟨0, 32, .ro, 0, 0, 4294967295, false, false⟩]⟩,
  -- PIT_COUNT_HI (Table 2-7)
  ⟨0x10004, 0, 1, [⟨0, 32, .ro, 0, 0, 4294967295, false, false⟩]⟩,
  -- PIT_STATUS (Table 2-7)
  ⟨0x10008, 0, 1, [⟨0, 2, .ro, 2, 0, 3, false, false⟩, ⟨2, 1, .ro, 1, 0, 1, false, false⟩, ⟨8, 8, .ro, 0, 0, 255, false, false⟩]⟩,
  -- PIT_OFFSET (Table 2-7)
  ⟨0x1000c, 0, 1, [⟨0, 32, .ro, 0, 0, 4294967295, false, false⟩]⟩,
  -- PIT_RATE (Table 2-7)
  ⟨0x10010, 0, 1, [⟨0, 32, .ro, 0, 0, 4294967295, false, false⟩]⟩,
  -- PIT_HOLD_LIMIT (Table 2-7)
  ⟨0x10014, 0, 1, [⟨0, 16, .rw, 100, 1, 65535, false, false⟩]⟩,
  -- PIT_SET_LO (Table 2-7)
  ⟨0x10018, 0, 1, [⟨0, 32, .rw, 0, 0, 4294967295, false, false⟩]⟩,
  -- PIT_SET_HI (Table 2-7)
  ⟨0x1001c, 0, 1, [⟨0, 32, .rw, 0, 0, 4294967295, false, false⟩]⟩,
  -- PIT_CMD (Table 2-7)
  ⟨0x10020, 0, 1, [⟨0, 1, .wo, 0, 0, 1, true, false⟩]⟩,
  -- PIT_LAUNCH_LATE (Table 2-7)
  ⟨0x10024, 0, 1, [⟨0, 32, .ro, 0, 0, 4294967295, false, true⟩]⟩,
  -- GUY_CTRL (Table 2-7)
  ⟨0x10100, 0, 1, [⟨0, 1, .rw, 0, 0, 1, false, false⟩]⟩,
  -- GUY_UPPORT (Table 2-7)
  ⟨0x10104, 0, 1, [⟨0, 5, .rw, 31, 0, 31, false, false⟩]⟩,
  -- GUY_DOWNMASK (Table 2-7)
  ⟨0x10108, 0, 1, [⟨0, 24, .rw, 0, 0, 16777215, false, false⟩]⟩,
  -- GUY_BOUND (Table 2-7)
  ⟨0x1010c, 0, 1, [⟨0, 16, .rw, 128, 3, 65535, false, false⟩]⟩,
  -- GUY_STATUS (Table 2-7)
  ⟨0x10110, 0, 1, [⟨0, 24, .ro, 0, 0, 16777215, false, false⟩]⟩,
  -- GUY_DELAY_MAX (Table 2-7)
  ⟨0x10114, 0, 1, [⟨0, 16, .ro, 0, 0, 65535, false, false⟩]⟩,
  -- MOD_SR_SEED_LO (Table 3-14)
  ⟨0x200, 0, 1, [⟨0, 32, .rw, 0, 0, 4294967295, false, false⟩]⟩,
  -- MOD_SR_SEED_HI (Table 3-14)
  ⟨0x204, 0, 1, [⟨0, 32, .rw, 0, 0, 4294967295, false, false⟩]⟩,
  -- MOD_FBBUDGET (Table 7-7)
  ⟨0x300, 0, 1, [⟨0, 32, .rw, 4096, 0, 4294967295, false, false⟩]⟩,
  -- MOD_FB_REMAIN (Table 7-7)
  ⟨0x304, 0, 1, [⟨0, 32, .ro, 4096, 0, 4294967295, false, false⟩]⟩,
  -- MOD_FB_STATUS (Table 7-7)
  ⟨0x308, 0, 1, [⟨0, 1, .ro, 0, 0, 1, false, false⟩]⟩,
  -- MOD_FB_LOCK_EPOCH (Table 7-7)
  ⟨0x30c, 0, 1, [⟨0, 32, .ro, 0, 0, 4294967295, false, false⟩]⟩,
  -- MOD_FB_LOCK_TICK_LO (Table 7-7)
  ⟨0x310, 0, 1, [⟨0, 32, .ro, 0, 0, 4294967295, false, false⟩]⟩,
  -- MOD_FB_LOCK_TICK_HI (Table 7-7)
  ⟨0x314, 0, 1, [⟨0, 32, .ro, 0, 0, 4294967295, false, false⟩]⟩]

/-- Part 2 of the registers of the module at their BAR0 offsets. -/
def modRows1 : List RegRow := [
  -- MOD_RPT_W (Table 7-7)
  ⟨0x318, 0, 1, [⟨0, 32, .rw, 0, 0, 4294967295, false, true⟩]⟩,
  -- MOD_RPT_A (Table 7-7)
  ⟨0x31c, 0, 1, [⟨0, 32, .rw, 0, 0, 4294967295, false, true⟩]⟩,
  -- MOD_RPT_DENIED (Table 7-7)
  ⟨0x320, 0, 1, [⟨0, 32, .rw, 0, 0, 4294967295, false, true⟩]⟩,
  -- MOD_RPT_TOP (Table 7-7)
  ⟨0x324, 0, 1, [⟨0, 32, .rw, 0, 0, 4294967295, false, true⟩]⟩,
  -- MOD_WIDE_LOCKS (Table 7-7)
  ⟨0x328, 0, 1, [⟨0, 32, .rw, 0, 0, 4294967295, false, true⟩]⟩,
  -- MOD_LAYER_BASE_LO (Table 7-7)
  ⟨0x330, 0, 1, [⟨21, 11, .rws, 0, 0, 2047, false, false⟩]⟩,
  -- MOD_LAYER_BASE_HI (Table 7-7)
  ⟨0x334, 0, 1, [⟨0, 32, .rws, 0, 0, 4294967295, false, false⟩]⟩,
  -- MOD_LAYER_COUNT (Table 7-7)
  ⟨0x338, 0, 1, [⟨0, 21, .rws, 0, 0, 1048576, false, false⟩]⟩,
  -- MOD_LCNT_BASE_LO (Table 7-7)
  ⟨0x33c, 0, 1, [⟨21, 11, .rws, 0, 0, 2047, false, false⟩]⟩,
  -- MOD_LCNT_BASE_HI (Table 7-7)
  ⟨0x340, 0, 1, [⟨0, 32, .rws, 0, 0, 4294967295, false, false⟩]⟩,
  -- MOD_UGRP_BASE_LO (Table 8-6)
  ⟨0x400, 0, 1, [⟨21, 11, .rws, 0, 0, 2047, false, false⟩]⟩,
  -- MOD_UGRP_BASE_HI (Table 8-6)
  ⟨0x404, 0, 1, [⟨0, 32, .rws, 0, 0, 4294967295, false, false⟩]⟩,
  -- MOD_UGRP_COUNT (Table 8-6)
  ⟨0x408, 0, 1, [⟨0, 13, .rws, 0, 0, 4096, false, false⟩]⟩,
  -- MOD_STEP_CTRL (Table 9-8)
  ⟨0x500, 0, 1, [⟨0, 1, .rw, 0, 0, 1, true, false⟩, ⟨1, 1, .rw, 0, 0, 1, false, false⟩]⟩,
  -- MOD_EPOCH (Table 9-8)
  ⟨0x504, 0, 1, [⟨0, 32, .rw, 0, 0, 4294967295, true, false⟩]⟩,
  -- MOD_STEP_STATUS (Table 9-8)
  ⟨0x508, 0, 1, [⟨0, 2, .ro, 0, 0, 3, false, false⟩, ⟨4, 4, .ro, 0, 0, 15, false, false⟩, ⟨8, 4, .ro, 0, 0, 15, false, false⟩, ⟨12, 4, .ro, 0, 0, 15, false, false⟩, ⟨16, 1, .ro, 0, 0, 1, false, false⟩, ⟨17, 1, .ro, 0, 0, 1, false, false⟩, ⟨18, 1, .ro, 0, 0, 1, false, false⟩, ⟨20, 4, .ro, 0, 0, 15, false, false⟩]⟩,
  -- MOD_STEP_TSEAL_LO (Table 9-8)
  ⟨0x50c, 0, 1, [⟨0, 32, .ro, 0, 0, 4294967295, false, false⟩]⟩,
  -- MOD_STEP_TSEAL_HI (Table 9-8)
  ⟨0x510, 0, 1, [⟨0, 32, .ro, 0, 0, 4294967295, false, false⟩]⟩,
  -- MOD_STEP_SEALT_LO (Table 9-8)
  ⟨0x514, 0, 1, [⟨0, 32, .rw, 0, 0, 4294967295, false, false⟩]⟩,
  -- MOD_STEP_SEALT_HI (Table 9-8)
  ⟨0x518, 0, 1, [⟨0, 32, .rw, 0, 0, 4294967295, false, false⟩]⟩,
  -- MOD_STEP_CMD (Table 9-8)
  ⟨0x51c, 0, 1, [⟨0, 1, .wo, 0, 0, 1, true, false⟩, ⟨1, 1, .wo, 0, 0, 1, true, false⟩, ⟨2, 1, .wo, 0, 0, 1, true, false⟩]⟩,
  -- MOD_GSCALE (Table 9-8)
  ⟨0x520, 0, 1, [⟨0, 32, .rw, 1069547520, 0, 4294967295, true, false⟩]⟩,
  -- MOD_GSCALE_CTRL (Table 9-8)
  ⟨0x524, 0, 1, [⟨0, 16, .rw, 1000, 1, 65535, true, false⟩, ⟨16, 6, .rw, 0, 0, 62, true, false⟩, ⟨24, 6, .rw, 24, 0, 62, true, false⟩]⟩,
  -- MOD_GSCALE_RUN (Table 9-8)
  ⟨0x528, 0, 1, [⟨0, 16, .ro, 0, 0, 65535, false, false⟩]⟩]

/-- Part 3 of the registers of the module at their BAR0 offsets. -/
def modRows2 : List RegRow := [
  -- MOD_STAKES (Table 9-8)
  ⟨0x52c, 0, 1, [⟨0, 32, .rw, 0, 0, 4294967295, false, true⟩]⟩,
  -- MOD_STRIKES (Table 9-8)
  ⟨0x530, 0, 1, [⟨0, 32, .rw, 0, 0, 4294967295, false, true⟩]⟩,
  -- MOD_LOCAL_STRIKES (Table 9-8)
  ⟨0x534, 0, 1, [⟨0, 32, .rw, 0, 0, 4294967295, false, true⟩]⟩,
  -- MOD_STALE_IN (Table 9-8)
  ⟨0x538, 0, 1, [⟨0, 32, .rw, 0, 0, 4294967295, false, true⟩]⟩,
  -- MOD_FLAGS_DROPPED (Table 9-8)
  ⟨0x53c, 0, 1, [⟨0, 32, .rw, 0, 0, 4294967295, false, true⟩]⟩,
  -- MOD_VERDICT_STRAY (Table 9-8)
  ⟨0x540, 0, 1, [⟨0, 32, .rw, 0, 0, 4294967295, false, true⟩]⟩,
  -- MOD_STEP_UNSEALED (Table 9-8)
  ⟨0x544, 0, 1, [⟨0, 10, .ro, 0, 0, 1023, false, false⟩]⟩,
  -- MOD_FLY_PAGES (Table 9-8)
  ⟨0x548, 0, 1, [⟨0, 19, .ro, 0, 0, 524287, false, false⟩]⟩,
  -- POOL_CTRL (Table 10-9)
  ⟨0x200000, 0, 1, [⟨0, 1, .rw, 0, 0, 1, false, false⟩, ⟨1, 1, .rw, 0, 0, 1, false, false⟩, ⟨2, 1, .rw, 0, 0, 1, false, false⟩]⟩,
  -- POOL_STATUS (Table 10-9)
  ⟨0x200004, 0, 1, [⟨0, 19, .ro, 294912, 0, 524287, false, false⟩, ⟨20, 6, .ro, 0, 0, 63, false, false⟩]⟩,
  -- POOL_LOWATER (Table 10-9)
  ⟨0x200008, 0, 1, [⟨0, 16, .rw, 64, 0, 4096, false, false⟩]⟩,
  -- POOL_HIWATER (Table 10-9)
  ⟨0x20000c, 0, 1, [⟨0, 16, .rw, 256, 0, 8192, false, false⟩]⟩,
  -- POOL_CMD (Table 10-9)
  ⟨0x200010, 0, 1, [⟨0, 4, .wo, 0, 0, 15, true, false⟩]⟩,
  -- POOL_CMD_PAGE (Table 10-9)
  ⟨0x200014, 0, 1, [⟨0, 19, .rw, 0, 0, 524287, false, false⟩]⟩,
  -- POOL_CMD_ARG (Table 10-9)
  ⟨0x200018, 0, 1, [⟨0, 15, .rw, 0, 0, 24575, false, false⟩, ⟨16, 4, .rw, 15, 0, 15, false, false⟩, ⟨20, 3, .rw, 7, 0, 7, false, false⟩]⟩,
  -- POOL_CMD_STATUS (Table 10-9)
  ⟨0x20001c, 0, 1, [⟨0, 1, .ro, 0, 0, 1, false, false⟩, ⟨1, 3, .ro, 0, 0, 7, false, false⟩, ⟨12, 19, .ro, 0, 0, 524287, false, false⟩]⟩,
  -- POOL_DIR_LO (Table 10-9)
  ⟨0x200020, 0, 1, [⟨0, 32, .ro, 0, 0, 4294967295, false, false⟩]⟩,
  -- POOL_DIR_HI (Table 10-9)
  ⟨0x200024, 0, 1, [⟨0, 32, .ro, 0, 0, 4294967295, false, false⟩]⟩,
  -- POOL_QUOTA_c (Table 10-9)
  ⟨0x200040, 4, 8, [⟨0, 19, .rw, 0, 0, 524287, false, false⟩]⟩,
  -- POOL_USE_c (Table 10-9)
  ⟨0x200060, 4, 8, [⟨0, 19, .ro, 0, 0, 524287, false, false⟩]⟩,
  -- POOL_FREE_n (Table 10-9)
  ⟨0x200080, 4, 12, [⟨0, 15, .ro, 24576, 0, 32767, false, false⟩]⟩,
  -- POOL_RETIRED_n (Table 10-9)
  ⟨0x2000c0, 4, 12, [⟨0, 9, .ro, 0, 0, 511, false, false⟩]⟩,
  -- POOL_CE_THRESH (Table 10-9)
  ⟨0x200100, 0, 1, [⟨0, 16, .rw, 16, 1, 32767, false, false⟩]⟩,
  -- POOL_SCRUB_PERIOD (Table 10-9)
  ⟨0x200104, 0, 1, [⟨0, 16, .rw, 64, 1, 65535, false, false⟩]⟩]

/-- Part 4 of the registers of the module at their BAR0 offsets. -/
def modRows3 : List RegRow := [
  -- POOL_CE (Table 10-9)
  ⟨0x200110, 0, 1, [⟨0, 32, .rw, 0, 0, 4294967295, false, true⟩]⟩,
  -- POOL_UE (Table 10-9)
  ⟨0x200114, 0, 1, [⟨0, 32, .rw, 0, 0, 4294967295, false, true⟩]⟩,
  -- POOL_EVICTIONS (Table 10-9)
  ⟨0x200118, 0, 1, [⟨0, 32, .rw, 0, 0, 4294967295, false, true⟩]⟩,
  -- POOL_BRINGUPS (Table 10-9)
  ⟨0x20011c, 0, 1, [⟨0, 32, .rw, 0, 0, 4294967295, false, true⟩]⟩,
  -- POOL_EVICT_CANCEL (Table 10-9)
  ⟨0x200120, 0, 1, [⟨0, 32, .rw, 0, 0, 4294967295, false, true⟩]⟩,
  -- POOL_LOST (Table 10-9)
  ⟨0x200124, 0, 1, [⟨0, 19, .ro, 0, 0, 524287, false, false⟩]⟩,
  -- FAR_CTRL (Table 10-9)
  ⟨0x200200, 0, 1, [⟨0, 1, .rw, 0, 0, 1, false, false⟩]⟩,
  -- FAR_TIMEOUT (Table 10-9)
  ⟨0x200204, 0, 1, [⟨0, 24, .rw, 100000, 1000, 16777215, false, false⟩]⟩,
  -- FAR_EVICT_BASE (Table 10-9)
  ⟨0x200208, 0, 1, [⟨0, 23, .rws, 0, 0, 8388607, false, false⟩]⟩,
  -- FAR_EVICT_SIZE (Table 10-9)
  ⟨0x20020c, 0, 1, [⟨0, 24, .rws, 0, 0, 8388608, false, false⟩]⟩,
  -- FAR_EVICT_MAP (Table 10-9)
  ⟨0x200210, 0, 1, [⟨0, 19, .rws, 0, 0, 524287, false, false⟩]⟩,
  -- FAR_READS (Table 10-9)
  ⟨0x200220, 0, 1, [⟨0, 32, .rw, 0, 0, 4294967295, false, true⟩]⟩,
  -- FAR_WRITES (Table 10-9)
  ⟨0x200224, 0, 1, [⟨0, 32, .rw, 0, 0, 4294967295, false, true⟩]⟩,
  -- FAR_FAILS (Table 10-9)
  ⟨0x200228, 0, 1, [⟨0, 32, .rw, 0, 0, 4294967295, false, true⟩]⟩,
  -- FAR_REGION_FBASE_r (Table 10-9)
  ⟨0x200240, 16, 8, [⟨0, 23, .rws, 0, 0, 8388607, false, false⟩]⟩,
  -- FAR_REGION_SIZE_r (Table 10-9)
  ⟨0x200244, 16, 8, [⟨0, 24, .rws, 0, 0, 16777215, false, false⟩]⟩,
  -- FAR_REGION_HPA_LO_r (Table 10-9)
  ⟨0x200248, 16, 8, [⟨21, 11, .rws, 0, 0, 2047, false, false⟩]⟩,
  -- FAR_REGION_HPA_HI_r (Table 10-9)
  ⟨0x20024c, 16, 8, [⟨0, 32, .rws, 0, 0, 4294967295, false, false⟩]⟩,
  -- FAB_CTRL (Table 11-12)
  ⟨0x100000, 0, 1, [⟨0, 1, .rw, 0, 0, 1, false, false⟩, ⟨1, 1, .rw, 1, 0, 1, false, false⟩, ⟨8, 6, .rw, 32, 1, 63, false, false⟩]⟩,
  -- FAB_ADDR (Table 11-12)
  ⟨0x100004, 0, 1, [⟨0, 17, .rws, 0, 0, 131071, false, false⟩, ⟨31, 1, .rws, 0, 0, 1, false, false⟩]⟩,
  -- FAB_SERIAL_LO (Table 11-12)
  ⟨0x100008, 0, 1, [⟨0, 32, .ro, 0, 0, 4294967295, false, false⟩]⟩,
  -- FAB_SERIAL_HI (Table 11-12)
  ⟨0x10000c, 0, 1, [⟨0, 32, .ro, 0, 0, 4294967295, false, false⟩]⟩,
  -- FAB_LANE_LIMIT (Table 11-12)
  ⟨0x100010, 0, 1, [⟨0, 24, .rw, 4096, 1, 16777215, false, false⟩]⟩,
  -- FAB_DISC_CMD (Table 11-12)
  ⟨0x100020, 0, 1, [⟨0, 1, .wo, 0, 0, 1, true, false⟩, ⟨1, 1, .wo, 0, 0, 1, true, false⟩]⟩]

/-- Part 5 of the registers of the module at their BAR0 offsets. -/
def modRows4 : List RegRow := [
  -- FAB_DISC_NEXT (Table 11-12)
  ⟨0x100024, 0, 1, [⟨0, 17, .rw, 1, 0, 131071, false, false⟩]⟩,
  -- FAB_DISC_BUF_LO (Table 11-12)
  ⟨0x100028, 0, 1, [⟨6, 26, .rw, 0, 0, 67108863, false, false⟩]⟩,
  -- FAB_DISC_BUF_HI (Table 11-12)
  ⟨0x10002c, 0, 1, [⟨0, 32, .rw, 0, 0, 4294967295, false, false⟩]⟩,
  -- FAB_DISC_MAXREC (Table 11-12)
  ⟨0x100030, 0, 1, [⟨0, 20, .rw, 0, 0, 1048575, false, false⟩]⟩,
  -- FAB_DISC_STATUS (Table 11-12)
  ⟨0x100034, 0, 1, [⟨0, 2, .ro, 0, 0, 3, false, false⟩, ⟨4, 20, .ro, 0, 0, 1048575, false, false⟩]⟩,
  -- FAB_DISC_FOUND (Table 11-12)
  ⟨0x100038, 0, 1, [⟨0, 18, .ro, 0, 0, 262143, false, false⟩]⟩,
  -- FAB_TXN_TIMEOUT (Table 11-12)
  ⟨0x100040, 0, 1, [⟨0, 24, .rw, 10000, 100, 16777215, false, false⟩]⟩,
  -- FAB_TXN_RETRIES (Table 11-12)
  ⟨0x100044, 0, 1, [⟨0, 4, .rw, 3, 0, 15, false, false⟩]⟩,
  -- FAB_TXN_INFLIGHT (Table 11-12)
  ⟨0x100048, 0, 1, [⟨0, 16, .ro, 0, 0, 65535, false, false⟩]⟩,
  -- FAB_CHAN_BASE (Table 11-12)
  ⟨0x100050, 0, 1, [⟨0, 19, .rws, 0, 0, 524287, false, false⟩]⟩,
  -- FAB_CHAN_CMD (Table 11-12)
  ⟨0x100054, 0, 1, [⟨0, 2, .wo, 0, 0, 3, true, false⟩, ⟨16, 16, .wo, 0, 0, 65535, true, false⟩]⟩,
  -- FAB_CHAN_STATUS (Table 11-12)
  ⟨0x100058, 0, 1, [⟨0, 1, .ro, 0, 0, 1, false, false⟩, ⟨1, 2, .ro, 0, 0, 3, false, false⟩]⟩,
  -- FAB_TAG_STALL (Table 11-12)
  ⟨0x100080, 0, 1, [⟨0, 32, .rw, 0, 0, 4294967295, false, true⟩]⟩,
  -- FAB_LATE_RESP (Table 11-12)
  ⟨0x100084, 0, 1, [⟨0, 32, .rw, 0, 0, 4294967295, false, true⟩]⟩,
  -- FAB_TXN_FAIL (Table 11-12)
  ⟨0x100088, 0, 1, [⟨0, 32, .rw, 0, 0, 4294967295, false, true⟩]⟩,
  -- FAB_UNROUTABLE (Table 11-12)
  ⟨0x10008c, 0, 1, [⟨0, 32, .rw, 0, 0, 4294967295, false, true⟩]⟩,
  -- FAB_TTL_DROP (Table 11-12)
  ⟨0x100090, 0, 1, [⟨0, 32, .rw, 0, 0, 4294967295, false, true⟩]⟩,
  -- FAB_FAILOVER (Table 11-12)
  ⟨0x100094, 0, 1, [⟨0, 32, .rw, 0, 0, 4294967295, false, true⟩]⟩,
  -- FAB_INCOMPLETE (Table 11-12)
  ⟨0x100098, 0, 1, [⟨0, 32, .rw, 0, 0, 4294967295, false, true⟩]⟩,
  -- FAB_BAD_KIND (Table 11-12)
  ⟨0x10009c, 0, 1, [⟨0, 32, .rw, 0, 0, 4294967295, false, true⟩]⟩,
  -- FAB_CHAN_RETX (Table 11-12)
  ⟨0x1000a0, 0, 1, [⟨0, 32, .rw, 0, 0, 4294967295, false, true⟩]⟩,
  -- FAB_CHAN_REJECT (Table 11-12)
  ⟨0x1000a4, 0, 1, [⟨0, 32, .rw, 0, 0, 4294967295, false, true⟩]⟩,
  -- FAB_PORT_CTRL_p (Table 11-12)
  ⟨0x101000, 64, 24, [⟨0, 1, .rw, 1, 0, 1, true, false⟩, ⟨1, 1, .rw, 0, 0, 1, false, false⟩, ⟨2, 1, .wo, 0, 0, 1, true, false⟩]⟩,
  -- FAB_PORT_STATUS_p (Table 11-12)
  ⟨0x101004, 64, 24, [⟨0, 3, .ro, 0, 0, 7, false, false⟩, ⟨3, 4, .ro, 0, 0, 15, false, false⟩, ⟨7, 4, .ro, 0, 0, 15, false, false⟩]⟩]

/-- Part 6 of the registers of the module at their BAR0 offsets. -/
def modRows5 : List RegRow := [
  -- FAB_PORT_PEER_p (Table 11-12)
  ⟨0x101008, 64, 24, [⟨0, 17, .ro, 0, 0, 131071, false, false⟩, ⟨17, 1, .ro, 0, 0, 1, false, false⟩, ⟨18, 5, .ro, 0, 0, 31, false, false⟩]⟩,
  -- FAB_PORT_PEER_SN_LO_p (Table 11-12)
  ⟨0x10100c, 64, 24, [⟨0, 32, .ro, 0, 0, 4294967295, false, false⟩]⟩,
  -- FAB_PORT_PEER_SN_HI_p (Table 11-12)
  ⟨0x101010, 64, 24, [⟨0, 32, .ro, 0, 0, 4294967295, false, false⟩]⟩,
  -- FAB_PORT_CABLE_p (Table 11-12)
  ⟨0x101014, 64, 24, [⟨0, 16, .ro, 32768, 0, 65535, false, false⟩, ⟨16, 16, .ro, 0, 0, 65535, false, false⟩]⟩,
  -- FAB_PORT_FEC_CORR_p (Table 11-12)
  ⟨0x101018, 64, 24, [⟨0, 32, .rw, 0, 0, 4294967295, false, true⟩]⟩,
  -- FAB_PORT_FEC_UNCORR_p (Table 11-12)
  ⟨0x10101c, 64, 24, [⟨0, 32, .rw, 0, 0, 4294967295, false, true⟩]⟩,
  -- FAB_PORT_FLITS_LOST_p (Table 11-12)
  ⟨0x101020, 64, 24, [⟨0, 32, .rw, 0, 0, 4294967295, false, true⟩]⟩,
  -- FAB_PORT_TX_FLITS_p (Table 11-12)
  ⟨0x101024, 64, 24, [⟨0, 32, .rw, 0, 0, 4294967295, false, true⟩]⟩,
  -- FAB_PORT_RX_FLITS_p (Table 11-12)
  ⟨0x101028, 64, 24, [⟨0, 32, .rw, 0, 0, 4294967295, false, true⟩]⟩,
  -- FAB_PORT_RETRAINS_p (Table 11-12)
  ⟨0x10102c, 64, 24, [⟨0, 32, .rw, 0, 0, 4294967295, false, true⟩]⟩,
  -- FAB_RT_a (Table 11-12)
  ⟨0x180000, 4, 131072, [⟨0, 32, .rws, 0, 0, 4294967295, true, false⟩]⟩,
  -- MOD_GROUP_BASE_LO (Table 12-7)
  ⟨0x600, 0, 1, [⟨6, 26, .rws, 0, 0, 67108863, false, false⟩]⟩,
  -- MOD_GROUP_BASE_HI (Table 12-7)
  ⟨0x604, 0, 1, [⟨0, 32, .rws, 0, 0, 4294967295, false, false⟩]⟩,
  -- MOD_GROUP_COUNT (Table 12-7)
  ⟨0x608, 0, 1, [⟨0, 16, .rws, 0, 0, 65535, false, false⟩]⟩,
  -- MOD_PLACE_BASE_LO (Table 12-7)
  ⟨0x610, 0, 1, [⟨6, 26, .rws, 0, 0, 67108863, false, false⟩]⟩,
  -- MOD_PLACE_BASE_HI (Table 12-7)
  ⟨0x614, 0, 1, [⟨0, 32, .rws, 0, 0, 4294967295, false, false⟩]⟩,
  -- FAB_CU_STATUS_d (Table 12-7)
  ⟨0x100200, 32, 8, [⟨0, 1, .ro, 0, 0, 1, false, false⟩, ⟨4, 12, .ro, 0, 0, 4095, false, false⟩]⟩,
  -- FAB_CU_ADDS_d (Table 12-7)
  ⟨0x100204, 32, 8, [⟨0, 32, .rw, 0, 0, 4294967295, false, true⟩]⟩,
  -- FAB_CU_REFUSED_d (Table 12-7)
  ⟨0x100208, 32, 8, [⟨0, 32, .rw, 0, 0, 4294967295, false, true⟩]⟩,
  -- FAB_CU_ABORT_d (Table 12-7)
  ⟨0x10020c, 32, 8, [⟨0, 32, .rw, 0, 0, 4294967295, false, true⟩]⟩,
  -- FAB_CU_DISCARD_d (Table 12-7)
  ⟨0x100210, 32, 8, [⟨0, 32, .rw, 0, 0, 4294967295, false, true⟩]⟩,
  -- PWR_CTRL (Table 14-8)
  ⟨0x20000, 0, 1, [⟨0, 1, .rw, 1, 0, 1, false, false⟩, ⟨1, 1, .rw, 1, 0, 1, false, false⟩, ⟨2, 1, .rw, 1, 0, 1, false, false⟩, ⟨3, 1, .rw, 1, 0, 1, false, false⟩, ⟨4, 1, .rw, 1, 0, 1, false, false⟩]⟩,
  -- PWR_CAP (Table 14-8)
  ⟨0x20004, 0, 1, [⟨0, 12, .rw, 2000, 600, 2000, false, false⟩]⟩,
  -- PWR_CAP_EFF (Table 14-8)
  ⟨0x20008, 0, 1, [⟨0, 12, .ro, 600, 0, 4095, false, false⟩, ⟨12, 3, .ro, 4, 0, 7, false, false⟩]⟩]

/-- Part 7 of the registers of the module at their BAR0 offsets. -/
def modRows6 : List RegRow := [
  -- PWR_BUDGET (Table 14-8)
  ⟨0x2000c, 0, 1, [⟨0, 12, .ro, 0, 0, 4095, false, false⟩, ⟨31, 1, .ro, 0, 0, 1, false, false⟩]⟩,
  -- PWR_RAMP (Table 14-8)
  ⟨0x20010, 0, 1, [⟨0, 10, .rw, 100, 10, 1000, false, false⟩]⟩,
  -- PWR_DPDT (Table 14-8)
  ⟨0x20014, 0, 1, [⟨0, 7, .rw, 20, 1, 100, false, false⟩]⟩,
  -- PWR_BIVOUAC (Table 14-8)
  ⟨0x20018, 0, 1, [⟨0, 12, .rw, 600, 600, 2000, false, false⟩]⟩,
  -- PWR_PEAK (Table 14-8)
  ⟨0x2001c, 0, 1, [⟨0, 12, .rw, 2400, 600, 2400, false, false⟩]⟩,
  -- PWR_WARN_CTRL (Table 14-8)
  ⟨0x20020, 0, 1, [⟨0, 2, .rw, 1, 0, 2, false, false⟩, ⟨8, 16, .rw, 98, 1, 65535, false, false⟩]⟩,
  -- PWR_STATUS (Table 14-8)
  ⟨0x20024, 0, 1, [⟨0, 3, .ro, 0, 0, 7, false, false⟩, ⟨3, 1, .ro, 0, 0, 1, false, false⟩, ⟨4, 1, .ro, 0, 0, 1, false, false⟩, ⟨5, 1, .ro, 0, 0, 1, false, false⟩, ⟨6, 1, .ro, 0, 0, 1, false, false⟩, ⟨7, 1, .ro, 0, 0, 1, false, false⟩, ⟨8, 1, .ro, 0, 0, 1, false, false⟩, ⟨9, 1, .ro, 0, 0, 1, false, false⟩]⟩,
  -- PWR_POWER (Table 14-8)
  ⟨0x20028, 0, 1, [⟨0, 12, .ro, 0, 0, 4095, false, false⟩, ⟨16, 12, .ro, 0, 0, 4095, false, false⟩]⟩,
  -- PWR_VIN (Table 14-8)
  ⟨0x2002c, 0, 1, [⟨0, 16, .ro, 0, 0, 65535, false, false⟩]⟩,
  -- PWR_IIN (Table 14-8)
  ⟨0x20030, 0, 1, [⟨0, 16, .ro, 0, 0, 65535, false, false⟩]⟩,
  -- PWR_ENERGY_LO (Table 14-8)
  ⟨0x20038, 0, 1, [⟨0, 32, .ro, 0, 0, 4294967295, false, false⟩]⟩,
  -- PWR_ENERGY_HI (Table 14-8)
  ⟨0x2003c, 0, 1, [⟨0, 32, .ro, 0, 0, 4294967295, false, false⟩]⟩,
  -- PWR_KINDLE_LO (Table 14-8)
  ⟨0x20040, 0, 1, [⟨0, 32, .ro, 0, 0, 4294967295, false, false⟩]⟩,
  -- PWR_KINDLE_HI (Table 14-8)
  ⟨0x20044, 0, 1, [⟨0, 32, .ro, 0, 0, 4294967295, false, false⟩]⟩,
  -- PWR_EXC_TIME (Table 14-8)
  ⟨0x20048, 0, 1, [⟨0, 32, .rw, 0, 0, 4294967295, false, true⟩]⟩,
  -- PWR_SHEDS (Table 14-8)
  ⟨0x2004c, 0, 1, [⟨0, 32, .rw, 0, 0, 4294967295, false, true⟩]⟩,
  -- PWR_BIVOUACS (Table 14-8)
  ⟨0x20050, 0, 1, [⟨0, 32, .rw, 0, 0, 4294967295, false, true⟩]⟩,
  -- PWR_HINT_DROP (Table 14-8)
  ⟨0x20054, 0, 1, [⟨0, 32, .rw, 0, 0, 4294967295, false, true⟩]⟩,
  -- PWR_ROT_CTRL (Table 14-8)
  ⟨0x20060, 0, 1, [⟨0, 1, .rw, 0, 0, 1, false, false⟩, ⟨8, 10, .rw, 0, 0, 511, false, false⟩]⟩,
  -- PWR_ROT_EPOCH0 (Table 14-8)
  ⟨0x20064, 0, 1, [⟨0, 32, .rw, 0, 0, 4294967295, false, false⟩]⟩,
  -- PWR_ROT_OFFSET (Table 14-8)
  ⟨0x20068, 0, 1, [⟨0, 9, .ro, 0, 0, 511, false, false⟩]⟩,
  -- PWR_DIE_d (Table 14-8)
  ⟨0x20100, 4, 8, [⟨0, 7, .ro, 0, 0, 127, false, false⟩, ⟨8, 7, .ro, 0, 0, 127, false, false⟩, ⟨16, 12, .ro, 0, 0, 4095, false, false⟩]⟩,
  -- PWR_SHARE_d (Table 14-8)
  ⟨0x20120, 4, 8, [⟨0, 12, .ro, 0, 0, 4095, false, false⟩]⟩,
  -- PWR_PHASE_d (Table 14-8)
  ⟨0x20140, 4, 8, [⟨0, 8, .ro, 0, 0, 255, false, false⟩, ⟨8, 5, .ro, 0, 0, 31, false, false⟩]⟩]

/-- Part 8 of the registers of the module at their BAR0 offsets. -/
def modRows7 : List RegRow := [
  -- PWR_PH_DUR_n (Table 14-8)
  ⟨0x21000, 16, 256, [⟨0, 32, .rws, 0, 0, 4294967295, false, false⟩]⟩,
  -- PWR_PH_ENERGY_n (Table 14-8)
  ⟨0x21004, 16, 256, [⟨0, 32, .rws, 0, 0, 4294967295, false, false⟩]⟩,
  -- PWR_PH_PEAK_n (Table 14-8)
  ⟨0x21008, 16, 256, [⟨0, 12, .rws, 0, 0, 4095, false, false⟩, ⟨16, 16, .rws, 0, 0, 65535, false, false⟩]⟩,
  -- PWR_PH_FSTEP_n (Table 14-8)
  ⟨0x2100c, 16, 256, [⟨0, 7, .rws, 0, 0, 127, false, false⟩]⟩,
  -- PWR_PHL_n (Table 14-8)
  ⟨0x22000, 16, 256, [⟨0, 32, .rws, 0, 0, 4294967295, false, false⟩]⟩,
  ⟨0x22004, 16, 256, [⟨0, 32, .rws, 0, 0, 4294967295, false, false⟩]⟩,
  ⟨0x22008, 16, 256, [⟨0, 12, .rws, 0, 0, 4095, false, false⟩, ⟨16, 16, .rws, 0, 0, 65535, false, false⟩]⟩,
  ⟨0x2200c, 16, 256, [⟨0, 7, .rws, 0, 0, 127, false, false⟩]⟩,
  -- THM_CTRL (Table 14-9)
  ⟨0x20800, 0, 1, [⟨0, 1, .rw, 1, 0, 1, false, false⟩]⟩,
  -- THM_TJ_TARGET (Table 14-9)
  ⟨0x20804, 0, 1, [⟨0, 8, .rw, 95, 70, 100, false, false⟩]⟩,
  -- THM_SLOPE (Table 14-9)
  ⟨0x20808, 0, 1, [⟨0, 16, .rw, 256, 1, 65535, false, false⟩]⟩,
  -- THM_SLOPE_WIN (Table 14-9)
  ⟨0x2080c, 0, 1, [⟨0, 16, .rw, 4096, 256, 65535, false, false⟩]⟩,
  -- THM_AIR (Table 14-9)
  ⟨0x20810, 0, 1, [⟨0, 16, .ro, 0, 0, 65535, false, false⟩, ⟨16, 16, .ro, 0, 0, 65535, false, false⟩]⟩,
  -- THM_RTH (Table 14-9)
  ⟨0x20814, 0, 1, [⟨0, 16, .ro, 0, 0, 65535, false, false⟩]⟩,
  -- THM_INLET (Table 14-9)
  ⟨0x20818, 0, 1, [⟨0, 16, .ro, 0, 0, 65535, false, false⟩]⟩,
  -- THM_OUTLET (Table 14-9)
  ⟨0x2081c, 0, 1, [⟨0, 16, .ro, 0, 0, 65535, false, false⟩]⟩,
  -- THM_TJ_MAX (Table 14-9)
  ⟨0x20820, 0, 1, [⟨0, 16, .ro, 0, 0, 65535, false, false⟩, ⟨16, 5, .ro, 0, 0, 31, false, false⟩]⟩,
  -- THM_TRIP (Table 14-9)
  ⟨0x20824, 0, 1, [⟨0, 1, .ro, 0, 0, 1, false, false⟩, ⟨8, 20, .ro, 0, 0, 1048575, false, false⟩]⟩,
  -- THM_CMD (Table 14-9)
  ⟨0x20828, 0, 1, [⟨0, 1, .wo, 0, 0, 1, true, false⟩, ⟨1, 1, .wo, 0, 0, 1, true, false⟩]⟩,
  -- THM_HS_SERIAL_LO (Table 14-9)
  ⟨0x2082c, 0, 1, [⟨0, 32, .ro, 0, 0, 4294967295, false, false⟩]⟩,
  -- THM_HS_SERIAL_HI (Table 14-9)
  ⟨0x20830, 0, 1, [⟨0, 32, .ro, 0, 0, 4294967295, false, false⟩]⟩,
  -- THM_TJ_d (Table 14-9)
  ⟨0x20840, 4, 8, [⟨0, 16, .ro, 0, 0, 65535, false, false⟩]⟩,
  -- HQ_LINK_STATUS (Table 15-7)
  ⟨0x30000, 0, 1, [⟨0, 5, .ro, 0, 0, 31, false, false⟩, ⟨5, 3, .ro, 0, 0, 7, false, false⟩, ⟨8, 1, .ro, 0, 0, 1, false, false⟩, ⟨9, 1, .ro, 0, 0, 1, false, false⟩, ⟨10, 1, .ro, 0, 0, 1, false, false⟩]⟩,
  -- HQ_UIO_INFLIGHT (Table 15-7)
  ⟨0x30004, 0, 1, [⟨0, 11, .ro, 0, 0, 2047, false, false⟩]⟩,
  -- HQ_HOST_ERR (Table 15-7)
  ⟨0x30008, 0, 1, [⟨0, 32, .rw, 0, 0, 4294967295, false, true⟩]⟩,
  -- EVT_BASE_LO (Table 15-7)
  ⟨0x30100, 0, 1, [⟨12, 20, .rw, 0, 0, 1048575, false, false⟩]⟩,
  -- EVT_BASE_HI (Table 15-7)
  ⟨0x30104, 0, 1, [⟨0, 32, .rw, 0, 0, 4294967295, false, false⟩]⟩]

/-- Part 9 of the registers of the module at their BAR0 offsets. -/
def modRows8 : List RegRow := [
  -- EVT_CTRL (Table 15-7)
  ⟨0x30108, 0, 1, [⟨0, 1, .rw, 0, 0, 1, true, false⟩, ⟨4, 5, .rw, 6, 6, 16, false, false⟩, ⟨9, 1, .rw, 0, 0, 1, false, false⟩, ⟨16, 8, .rw, 1, 1, 255, false, false⟩]⟩,
  -- EVT_TAIL (Table 15-7)
  ⟨0x3010c, 0, 1, [⟨0, 16, .ro, 0, 0, 65535, false, false⟩]⟩,
  -- EVT_HEAD (Table 15-7)
  ⟨0x30110, 0, 1, [⟨0, 16, .rw, 0, 0, 65535, false, false⟩]⟩,
  -- EVT_LOST (Table 15-7)
  ⟨0x30114, 0, 1, [⟨0, 32, .rw, 0, 0, 4294967295, false, true⟩]⟩,
  -- EVT_IRQ_DELAY (Table 15-7)
  ⟨0x30118, 0, 1, [⟨0, 16, .rw, 100, 1, 65535, false, false⟩]⟩,
  -- HQ_QBASE_LO_q (Table 15-7)
  ⟨0x31000, 64, 64, [⟨12, 20, .rw, 0, 0, 1048575, false, false⟩]⟩,
  -- HQ_QBASE_HI_q (Table 15-7)
  ⟨0x31004, 64, 64, [⟨0, 32, .rw, 0, 0, 4294967295, false, false⟩]⟩,
  -- HQ_QCBASE_LO_q (Table 15-7)
  ⟨0x31008, 64, 64, [⟨12, 20, .rw, 0, 0, 1048575, false, false⟩]⟩,
  -- HQ_QCBASE_HI_q (Table 15-7)
  ⟨0x3100c, 64, 64, [⟨0, 32, .rw, 0, 0, 4294967295, false, false⟩]⟩,
  -- HQ_QCTRL_q (Table 15-7)
  ⟨0x31010, 64, 64, [⟨0, 1, .rw, 0, 0, 1, true, false⟩, ⟨4, 4, .rw, 4, 4, 12, false, false⟩, ⟨8, 1, .rw, 0, 0, 1, false, false⟩]⟩,
  -- HQ_QTAIL_q (Table 15-7)
  ⟨0x31014, 64, 64, [⟨0, 16, .rw, 0, 0, 65535, true, false⟩]⟩,
  -- HQ_QHEAD_q (Table 15-7)
  ⟨0x31018, 64, 64, [⟨0, 16, .ro, 0, 0, 65535, false, false⟩, ⟨16, 16, .ro, 0, 0, 65535, false, false⟩]⟩,
  -- HQ_QSTATUS_q (Table 15-7)
  ⟨0x3101c, 64, 64, [⟨0, 2, .ro, 0, 0, 3, false, false⟩, ⟨8, 4, .ro, 0, 0, 15, false, false⟩, ⟨16, 5, .ro, 0, 0, 31, false, false⟩]⟩,
  -- MSI-X table (Table 15-7)
  ⟨0x38000, 4, 264, [⟨0, 32, .rw, 0, 0, 4294967295, false, false⟩]⟩,
  -- MSI-X pending bits (Table 15-7)
  ⟨0x39000, 4, 3, [⟨0, 32, .ro, 0, 0, 4294967295, false, false⟩]⟩,
  -- POOL_HDM_CTRL (Table 15-8)
  ⟨0x200300, 0, 1, [⟨0, 1, .rws, 0, 0, 1, false, false⟩, ⟨1, 1, .rws, 0, 0, 1, false, false⟩]⟩,
  -- POOL_HDM_PAGE0 (Table 15-8)
  ⟨0x200304, 0, 1, [⟨0, 19, .rws, 0, 0, 524287, false, false⟩]⟩,
  -- POOL_HDM_RAW (Table 15-8)
  ⟨0x200308, 0, 1, [⟨0, 4, .rw, 0, 0, 11, false, false⟩, ⟨16, 15, .rw, 0, 0, 24575, false, false⟩]⟩,
  -- POOL_HDM_FAULTS (Table 15-8)
  ⟨0x20030c, 0, 1, [⟨0, 32, .rw, 0, 0, 4294967295, false, true⟩]⟩,
  -- POOL_HDM_RD (Table 15-8)
  ⟨0x200310, 0, 1, [⟨0, 32, .rw, 0, 0, 4294967295, false, true⟩]⟩,
  -- POOL_HDM_WR (Table 15-8)
  ⟨0x200314, 0, 1, [⟨0, 32, .rw, 0, 0, 4294967295, false, true⟩]⟩,
  -- BOOT_STATUS (Table 16-5)
  ⟨0x40000, 0, 1, [⟨0, 3, .ro, 0, 0, 7, false, false⟩, ⟨3, 1, .ro, 0, 0, 1, false, false⟩, ⟨4, 1, .ro, 0, 0, 1, false, false⟩, ⟨5, 1, .ro, 0, 0, 1, false, false⟩, ⟨8, 4, .ro, 0, 0, 15, false, false⟩, ⟨16, 8, .ro, 0, 0, 255, false, false⟩, ⟨24, 1, .ro, 0, 0, 1, false, false⟩]⟩,
  -- BOOT_FWPOLICY (Table 16-5)
  ⟨0x40004, 0, 1, [⟨0, 1, .rw, 0, 0, 1, false, false⟩]⟩,
  -- BOOT_FW_VERSION (Table 16-5)
  ⟨0x40008, 0, 1, [⟨0, 32, .ro, 0, 0, 4294967295, false, false⟩]⟩]

/-- Part 10 of the registers of the module at their BAR0 offsets. -/
def modRows9 : List RegRow := [
  -- BOOT_UC_VERSION (Table 16-5)
  ⟨0x4000c, 0, 1, [⟨0, 32, .ro, 0, 0, 4294967295, false, false⟩]⟩,
  -- BOOT_HW (Table 16-5)
  ⟨0x40010, 0, 1, [⟨0, 8, .ro, 0, 0, 255, false, false⟩, ⟨8, 16, .ro, 0, 0, 65535, false, false⟩]⟩,
  -- BOOT_SVN (Table 16-5)
  ⟨0x40014, 0, 1, [⟨0, 6, .ro, 0, 0, 63, false, false⟩, ⟨8, 6, .ro, 0, 0, 63, false, false⟩, ⟨16, 6, .ro, 0, 0, 63, false, false⟩]⟩,
  -- BOOT_LOAD_ADDR_LO (Table 16-5)
  ⟨0x40020, 0, 1, [⟨12, 20, .rw, 0, 0, 1048575, false, false⟩]⟩,
  -- BOOT_LOAD_ADDR_HI (Table 16-5)
  ⟨0x40024, 0, 1, [⟨0, 32, .rw, 0, 0, 4294967295, false, false⟩]⟩,
  -- BOOT_LOAD_LEN (Table 16-5)
  ⟨0x40028, 0, 1, [⟨0, 25, .rw, 4096, 4096, 16781312, false, false⟩]⟩,
  -- BOOT_CMD (Table 16-5)
  ⟨0x4002c, 0, 1, [⟨0, 4, .wo, 0, 0, 15, true, false⟩]⟩,
  -- BOOT_CMD_STATUS (Table 16-5)
  ⟨0x40030, 0, 1, [⟨0, 1, .ro, 0, 0, 1, false, false⟩, ⟨1, 4, .ro, 0, 0, 15, false, false⟩, ⟨8, 1, .ro, 0, 0, 1, false, false⟩, ⟨9, 1, .ro, 0, 0, 1, false, false⟩, ⟨16, 8, .ro, 0, 0, 255, false, false⟩]⟩,
  -- BOOT_CRING_BASE_LO (Table 16-5)
  ⟨0x40100, 0, 1, [⟨12, 20, .rw, 0, 0, 1048575, false, false⟩]⟩,
  -- BOOT_CRING_BASE_HI (Table 16-5)
  ⟨0x40104, 0, 1, [⟨0, 32, .rw, 0, 0, 4294967295, false, false⟩]⟩,
  -- BOOT_CRING_CTRL (Table 16-5)
  ⟨0x40108, 0, 1, [⟨0, 1, .rw, 0, 0, 1, true, false⟩, ⟨4, 5, .rw, 6, 6, 16, false, false⟩, ⟨9, 1, .rw, 0, 0, 1, false, false⟩, ⟨16, 8, .rw, 1, 1, 255, false, false⟩]⟩,
  -- BOOT_CRING_TAIL (Table 16-5)
  ⟨0x4010c, 0, 1, [⟨0, 16, .ro, 0, 0, 65535, false, false⟩]⟩,
  -- BOOT_CRING_HEAD (Table 16-5)
  ⟨0x40110, 0, 1, [⟨0, 16, .rw, 0, 0, 65535, false, false⟩]⟩,
  -- BOOT_CRING_LOST (Table 16-5)
  ⟨0x40114, 0, 1, [⟨0, 32, .rw, 0, 0, 4294967295, false, true⟩]⟩,
  -- BOOT_CLAMPS (Table 16-5)
  ⟨0x40118, 0, 1, [⟨0, 32, .rw, 0, 0, 4294967295, false, true⟩]⟩,
  -- BOOT_REJECTS (Table 16-5)
  ⟨0x4011c, 0, 1, [⟨0, 32, .rw, 0, 0, 4294967295, false, true⟩]⟩,
  -- BOOT_TORN (Table 16-5)
  ⟨0x40120, 0, 1, [⟨0, 32, .rw, 0, 0, 4294967295, false, true⟩]⟩,
  -- SEC_STATUS (Table 16-5)
  ⟨0x40200, 0, 1, [⟨0, 2, .ro, 0, 0, 3, false, false⟩, ⟨4, 4, .ro, 0, 0, 15, false, false⟩, ⟨8, 1, .ro, 0, 0, 1, false, false⟩]⟩,
  -- MOD_RESET_CTRL (Table 17-7)
  ⟨0x40, 0, 1, [⟨0, 1, .wo, 0, 0, 1, true, false⟩]⟩,
  -- MOD_RESET_STATUS (Table 17-7)
  ⟨0x44, 0, 1, [⟨0, 3, .ro, 0, 0, 7, false, false⟩, ⟨8, 1, .ro, 0, 0, 1, false, false⟩, ⟨31, 1, .ro, 0, 0, 1, false, false⟩]⟩,
  -- MOD_WARM_RESETS (Table 17-7)
  ⟨0x48, 0, 1, [⟨0, 32, .rws, 0, 0, 4294967295, false, true⟩]⟩,
  -- MOD_CTR_CTRL (Table 17-7)
  ⟨0x700, 0, 1, [⟨0, 1, .rw, 0, 0, 1, true, false⟩, ⟨1, 1, .wo, 0, 0, 1, true, false⟩]⟩,
  -- MOD_PIN_STATUS (Table 18-8)
  ⟨0x80, 0, 1, [⟨0, 1, .ro, 0, 0, 1, false, false⟩, ⟨4, 3, .ro, 0, 0, 7, false, false⟩]⟩,
  -- MOD_HARNESS_RATING (Table 18-8)
  ⟨0x84, 0, 1, [⟨0, 16, .ro, 0, 0, 65535, false, false⟩, ⟨16, 16, .ro, 0, 0, 65535, false, false⟩]⟩]

/-- Part 11 of the registers of the module at their BAR0 offsets. -/
def modRows10 : List RegRow := [
  -- MOD_HARNESS_STATUS (Table 18-8)
  ⟨0x88, 0, 1, [⟨0, 1, .ro, 0, 0, 1, false, false⟩, ⟨1, 1, .ro, 0, 0, 1, false, false⟩]⟩,
  -- MOD_HARNESS_SERIAL_LO (Table 18-8)
  ⟨0x8c, 0, 1, [⟨0, 32, .ro, 0, 0, 4294967295, false, false⟩]⟩,
  -- MOD_HARNESS_SERIAL_HI (Table 18-8)
  ⟨0x90, 0, 1, [⟨0, 32, .ro, 0, 0, 4294967295, false, false⟩]⟩]

/-- The CXL component registers (R445): capability header and pointers, RAS, HDM decoder and IDE (PRESUMED, log entry 63). -/
def compRows : List RegRow := [
  ⟨0x81000, 0, 1, [⟨0, 32, .ro, 0x03110001, 0, 4294967295, false, false⟩]⟩,
  ⟨0x81004, 0, 1, [⟨0, 32, .ro, 0x10030002, 0, 4294967295, false, false⟩]⟩,
  ⟨0x81008, 0, 1, [⟨0, 32, .ro, 0x20030005, 0, 4294967295, false, false⟩]⟩,
  ⟨0x8100c, 0, 1, [⟨0, 32, .ro, 0x30020007, 0, 4294967295, false, false⟩]⟩,
  -- RAS: uncorrectable status, mask and severity, correctable status and mask, control, header log
  ⟨0x81100, 0, 1, [⟨0, 12, .w1c, 0, 0, 4095, false, false⟩, ⟨14, 3, .w1c, 0, 0, 7, false, false⟩]⟩,
  ⟨0x81104, 4, 2, [⟨0, 12, .rws, 4095, 0, 4095, false, false⟩, ⟨14, 3, .rws, 7, 0, 7, false, false⟩]⟩,
  ⟨0x8110c, 0, 1, [⟨0, 7, .w1c, 0, 0, 127, false, false⟩]⟩,
  ⟨0x81110, 0, 1, [⟨0, 7, .rws, 127, 0, 127, false, false⟩]⟩,
  ⟨0x81114, 0, 1, [⟨0, 6, .ro, 0, 0, 63, false, false⟩]⟩,
  ⟨0x81118, 4, 16, [⟨0, 32, .ro, 0, 0, 4294967295, false, false⟩]⟩,
  -- HDM decoder: capability (one decoder), global control, base, size, control and skip of decoder 0
  ⟨0x81200, 0, 1, [⟨0, 32, .ro, 0, 0, 4294967295, false, false⟩]⟩,
  ⟨0x81204, 0, 1, [⟨1, 1, .rw, 0, 0, 1, false, false⟩]⟩,
  ⟨0x81210, 8, 2, [⟨28, 4, .rw, 0, 0, 15, false, false⟩]⟩,
  ⟨0x81214, 8, 2, [⟨0, 32, .rw, 0, 0, 4294967295, false, false⟩]⟩,
  ⟨0x81220, 0, 1, [⟨0, 4, .rw, 0, 0, 15, false, false⟩, ⟨4, 4, .rw, 0, 0, 15, false, false⟩, ⟨8, 1, .rw, 0, 0, 1, false, false⟩,
    ⟨9, 1, .rw, 0, 0, 1, false, false⟩, ⟨10, 1, .ro, 0, 0, 1, false, false⟩, ⟨11, 1, .ro, 0, 0, 1, false, false⟩]⟩,
  ⟨0x81224, 0, 1, [⟨28, 4, .rw, 0, 0, 15, false, false⟩]⟩,
  ⟨0x81228, 0, 1, [⟨0, 32, .rw, 0, 0, 4294967295, false, false⟩]⟩,
  -- IDE: capability, control, status
  ⟨0x81300, 0, 1, [⟨0, 32, .ro, 0x20003, 0, 4294967295, false, false⟩]⟩,
  ⟨0x81304, 0, 1, [⟨0, 2, .rw, 0, 0, 3, false, false⟩]⟩,
  ⟨0x81308, 0, 1, [⟨0, 8, .ro, 0, 0, 255, false, false⟩]⟩]

/-- The registers of the module at their BAR0 offsets. -/
def modRows : List RegRow :=
  compRows ++ modRows0 ++ modRows1 ++ modRows2 ++ modRows3 ++ modRows4 ++ modRows5 ++ modRows6 ++ modRows7 ++ modRows8 ++ modRows9 ++ modRows10

/-- Part 1 of the registers of a groundsheet, from the start of its block (Table 15-2). -/
def gsRows0 : List RegRow := [
  -- GS_ESC_Q4 (Table 7-8)
  ⟨0x700, 0, 1, [⟨0, 32, .rw, 0, 0, 4294967295, false, true⟩]⟩,
  -- GS_ESC_H16 (Table 7-8)
  ⟨0x704, 0, 1, [⟨0, 32, .rw, 0, 0, 4294967295, false, true⟩]⟩,
  -- GS_ESC_CAPPED (Table 7-8)
  ⟨0x708, 0, 1, [⟨0, 32, .rw, 0, 0, 4294967295, false, true⟩]⟩,
  -- GS_ZERO_UNMIT (Table 7-8)
  ⟨0x70c, 0, 1, [⟨0, 32, .rw, 0, 0, 4294967295, false, true⟩]⟩,
  -- GS_LINERS (Table 7-8)
  ⟨0x710, 0, 1, [⟨0, 32, .rw, 0, 0, 4294967295, false, true⟩]⟩,
  -- GS_CTRL (Table 8-7)
  ⟨0x0, 0, 1, [⟨0, 1, .rw, 0, 0, 1, false, false⟩, ⟨2, 2, .rws, 1, 0, 2, false, false⟩]⟩,
  -- GS_STATUS (Table 8-7)
  ⟨0x4, 0, 1, [⟨0, 1, .ro, 0, 0, 1, false, false⟩, ⟨1, 1, .ro, 0, 0, 1, false, false⟩, ⟨2, 1, .ro, 0, 0, 1, false, false⟩, ⟨16, 16, .ro, 0, 0, 65535, false, false⟩]⟩,
  -- GS_STRICT_FROZEN (Table 8-7)
  ⟨0x8, 0, 1, [⟨0, 1, .rw, 0, 0, 1, false, false⟩]⟩,
  -- GS_SHARD_BASE (Table 8-7)
  ⟨0xc, 0, 1, [⟨0, 19, .rws, 0, 0, 524287, false, false⟩]⟩,
  -- GS_SHARD_COUNT (Table 8-7)
  ⟨0x10, 0, 1, [⟨0, 15, .rws, 0, 0, 16384, false, false⟩]⟩,
  -- GS_SLICES_OPEN (Table 8-7)
  ⟨0x14, 0, 1, [⟨0, 32, .ro, 0, 0, 4294967295, false, true⟩]⟩,
  -- GS_UPD_SLICES (Table 8-7)
  ⟨0x100, 0, 1, [⟨0, 32, .rw, 0, 0, 4294967295, false, true⟩]⟩,
  -- GS_FROZEN_HITS (Table 8-7)
  ⟨0x104, 0, 1, [⟨0, 32, .rw, 0, 0, 4294967295, false, true⟩]⟩,
  -- GS_DUP_SLICES (Table 8-7)
  ⟨0x108, 0, 1, [⟨0, 32, .rw, 0, 0, 4294967295, false, true⟩]⟩,
  -- GS_UNKNOWN (Table 8-7)
  ⟨0x10c, 0, 1, [⟨0, 32, .rw, 0, 0, 4294967295, false, true⟩]⟩,
  -- GS_UPD_NF (Table 8-7)
  ⟨0x110, 0, 1, [⟨0, 32, .rw, 0, 0, 4294967295, false, true⟩]⟩,
  -- GS_ROOT_RECOMP (Table 8-7)
  ⟨0x114, 0, 1, [⟨0, 32, .rw, 0, 0, 4294967295, false, true⟩]⟩,
  -- GS_ROOT_FAIL (Table 8-7)
  ⟨0x118, 0, 1, [⟨0, 32, .rw, 0, 0, 4294967295, false, true⟩]⟩,
  -- GS_SKIPPED (Table 8-7)
  ⟨0x11c, 0, 1, [⟨0, 32, .rw, 0, 0, 4294967295, false, true⟩]⟩,
  -- GS_UPD_ACTIVE (Table 8-7)
  ⟨0x120, 0, 1, [⟨0, 32, .rw, 0, 0, 4294967295, false, true⟩]⟩,
  -- GS_GATHER_STATUS (Table 8-7)
  ⟨0x200, 0, 1, [⟨0, 1, .w1c, 0, 0, 1, false, false⟩, ⟨1, 1, .w1c, 0, 0, 1, false, false⟩, ⟨2, 1, .w1c, 0, 0, 1, false, false⟩]⟩,
  -- GS_GATHER_TILES (Table 8-7)
  ⟨0x204, 0, 1, [⟨0, 32, .rw, 0, 0, 4294967295, false, true⟩]⟩,
  -- GS_GATHER_CLIPS (Table 8-7)
  ⟨0x208, 0, 1, [⟨0, 32, .rw, 0, 0, 4294967295, false, true⟩]⟩,
  -- GS_SCALE_INVALID (Table 8-7)
  ⟨0x20c, 0, 1, [⟨0, 32, .rw, 0, 0, 4294967295, false, true⟩]⟩]

/-- Part 2 of the registers of a groundsheet, from the start of its block (Table 15-2). -/
def gsRows1 : List RegRow := [
  -- GS_GATHER_HELD (Table 8-7)
  ⟨0x210, 0, 1, [⟨0, 32, .rw, 0, 0, 4294967295, false, true⟩]⟩,
  -- GS_GATHER_STALE (Table 8-7)
  ⟨0x214, 0, 1, [⟨0, 32, .rw, 0, 0, 4294967295, false, true⟩]⟩,
  -- GS_BU_STATUS (Table 8-7)
  ⟨0x300, 0, 1, [⟨0, 1, .w1c, 0, 0, 1, false, false⟩, ⟨1, 1, .w1c, 0, 0, 1, false, false⟩]⟩,
  -- GS_BU_TSW_LAST_LO (Table 8-7)
  ⟨0x304, 0, 1, [⟨0, 32, .ro, 0, 0, 4294967295, false, false⟩]⟩,
  -- GS_BU_TSW_LAST_HI (Table 8-7)
  ⟨0x308, 0, 1, [⟨0, 32, .ro, 4294967295, 0, 4294967295, false, false⟩]⟩,
  -- GS_BU_ACTIVE (Table 8-7)
  ⟨0x30c, 0, 1, [⟨0, 32, .rw, 0, 0, 4294967295, false, true⟩]⟩]

/-- The registers of a groundsheet, from the start of its block (Table 15-2). -/
def gsRows : List RegRow :=
  gsRows0 ++ gsRows1

/-- Part 1 of the registers of a cell, from the start of its block (R16). -/
def cellRows0 : List RegRow := [
  -- CELL_TN_BADCODE (Table 3-14)
  ⟨0x800, 0, 1, [⟨0, 32, .rw, 0, 0, 4294967295, false, true⟩]⟩,
  -- CELL_SCALE_INVALID (Table 3-14)
  ⟨0x804, 0, 1, [⟨0, 32, .rw, 0, 0, 4294967295, false, true⟩]⟩,
  -- CELL_A8_SAT (Table 3-14)
  ⟨0x808, 0, 1, [⟨0, 32, .rw, 0, 0, 4294967295, false, true⟩]⟩,
  -- CELL_FMT_LAST (Table 3-14)
  ⟨0x80c, 0, 1, [⟨0, 4, .ro, 0, 0, 15, false, false⟩, ⟨16, 16, .ro, 0, 0, 65535, false, true⟩]⟩,
  -- CELL_DOT_CTRL (Table 4-8)
  ⟨0x810, 0, 1, [⟨0, 2, .rw, 0, 0, 2, false, false⟩]⟩,
  -- CELL_NUM_STATUS (Table 4-8)
  ⟨0x814, 0, 1, [⟨0, 1, .w1c, 0, 0, 1, false, false⟩, ⟨1, 1, .w1c, 0, 0, 1, false, false⟩, ⟨2, 1, .w1c, 0, 0, 1, false, false⟩, ⟨3, 1, .w1c, 0, 0, 1, false, false⟩, ⟨4, 1, .w1c, 0, 0, 1, false, false⟩, ⟨5, 1, .w1c, 0, 0, 1, false, false⟩, ⟨6, 1, .w1c, 0, 0, 1, false, false⟩]⟩,
  -- CELL_TSW_LAST_LO (Table 4-8)
  ⟨0x818, 0, 1, [⟨0, 32, .ro, 0, 0, 4294967295, false, false⟩]⟩,
  -- CELL_TSW_LAST_HI (Table 4-8)
  ⟨0x81c, 0, 1, [⟨0, 32, .ro, 4294967295, 0, 4294967295, false, false⟩]⟩,
  -- CELL_NF_TILES (Table 4-8)
  ⟨0x820, 0, 1, [⟨0, 32, .rw, 0, 0, 4294967295, false, true⟩]⟩,
  -- CELL_MX_CTRL (Table 5-11)
  ⟨0x900, 0, 1, [⟨0, 2, .rw, 1, 0, 2, false, false⟩]⟩,
  -- CELL_MX_STATUS (Table 5-11)
  ⟨0x904, 0, 1, [⟨0, 1, .ro, 0, 0, 1, false, false⟩, ⟨1, 4, .ro, 0, 0, 15, false, false⟩, ⟨5, 4, .ro, 0, 0, 15, false, false⟩, ⟨16, 4, .ro, 0, 0, 15, false, false⟩]⟩,
  -- CELL_MX_ACTIVE (Table 5-11)
  ⟨0x908, 0, 1, [⟨0, 32, .rw, 0, 0, 4294967295, false, true⟩]⟩,
  -- CELL_MX_STALL (Table 5-11)
  ⟨0x90c, 0, 1, [⟨0, 32, .rw, 0, 0, 4294967295, false, true⟩]⟩,
  -- CELL_MX_PIECES (Table 5-11)
  ⟨0x910, 0, 1, [⟨0, 32, .rw, 0, 0, 4294967295, false, true⟩]⟩,
  -- CELL_MX_DWSKIP (Table 5-11)
  ⟨0x914, 0, 1, [⟨0, 32, .rw, 0, 0, 4294967295, false, true⟩]⟩,
  -- CELL_MX_HDRFAULT (Table 5-11)
  ⟨0x918, 0, 1, [⟨0, 32, .rw, 0, 0, 4294967295, false, true⟩]⟩,
  -- CELL_MX_EXC (Table 5-11)
  ⟨0x91c, 0, 1, [⟨0, 8, .ro, 0, 0, 255, false, false⟩, ⟨16, 16, .ro, 0, 0, 65535, false, true⟩]⟩,
  -- CELL_VS_STATUS (Table 6-9)
  ⟨0xa00, 0, 1, [⟨0, 1, .w1c, 0, 0, 1, false, false⟩, ⟨1, 1, .w1c, 0, 0, 1, false, false⟩, ⟨2, 1, .w1c, 0, 0, 1, false, false⟩, ⟨3, 1, .w1c, 0, 0, 1, false, false⟩, ⟨4, 1, .w1c, 0, 0, 1, false, false⟩, ⟨5, 1, .w1c, 0, 0, 1, false, false⟩, ⟨6, 1, .w1c, 0, 0, 1, false, false⟩, ⟨16, 16, .rw, 0, 0, 65535, false, false⟩]⟩,
  -- CELL_VS_QSTATUS (Table 6-9)
  ⟨0xa04, 0, 1, [⟨0, 1, .ro, 0, 0, 1, false, false⟩, ⟨1, 4, .ro, 0, 0, 15, false, false⟩, ⟨16, 4, .ro, 0, 0, 15, false, false⟩]⟩,
  -- CELL_VS_ACTIVE (Table 6-9)
  ⟨0xa08, 0, 1, [⟨0, 32, .rw, 0, 0, 4294967295, false, true⟩]⟩,
  -- CELL_VS_FNUNIT (Table 6-9)
  ⟨0xa0c, 0, 1, [⟨0, 32, .rw, 0, 0, 4294967295, false, true⟩]⟩,
  -- CELL_VS_LOSS (Table 6-9)
  ⟨0xa10, 0, 1, [⟨0, 32, .ro, 0, 0, 4294967295, false, false⟩]⟩,
  -- CELL_VS_LOSS_EPOCH (Table 6-9)
  ⟨0xa14, 0, 1, [⟨0, 32, .ro, 0, 0, 4294967295, false, false⟩]⟩,
  -- CELL_VS_EXC (Table 6-9)
  ⟨0xa18, 0, 1, [⟨0, 8, .ro, 0, 0, 255, false, false⟩, ⟨16, 16, .ro, 0, 0, 65535, false, true⟩]⟩]

/-- Part 2 of the registers of a cell, from the start of its block (R16). -/
def cellRows1 : List RegRow := [
  -- CELL_LATE_CTRL (Table 10-10)
  ⟨0xb00, 0, 1, [⟨0, 1, .rw, 0, 0, 1, false, false⟩, ⟨1, 1, .ro, 0, 0, 1, false, false⟩, ⟨16, 16, .rw, 256, 1, 65535, false, false⟩]⟩,
  -- CELL_XFER_STATUS (Table 10-10)
  ⟨0xb04, 0, 1, [⟨0, 7, .ro, 0, 0, 127, false, false⟩, ⟨8, 4, .ro, 0, 0, 15, false, false⟩]⟩,
  -- CELL_LATE_SWITCH (Table 10-10)
  ⟨0xb08, 0, 1, [⟨0, 32, .rw, 0, 0, 4294967295, false, true⟩]⟩,
  -- CELL_LATE_NARROW (Table 10-10)
  ⟨0xb0c, 0, 1, [⟨0, 32, .rw, 0, 0, 4294967295, false, true⟩]⟩,
  -- CELL_LATE_DISCARD (Table 10-10)
  ⟨0xb10, 0, 1, [⟨0, 32, .rw, 0, 0, 4294967295, false, true⟩]⟩,
  -- CELL_DEADLINE_MISS (Table 10-10)
  ⟨0xb14, 0, 1, [⟨0, 32, .rw, 0, 0, 4294967295, false, true⟩]⟩,
  -- CELL_XFER_FAIL (Table 10-10)
  ⟨0xb18, 0, 1, [⟨0, 32, .rw, 0, 0, 4294967295, false, true⟩]⟩,
  -- CELL_SPAD_CE (Table 10-10)
  ⟨0xb1c, 0, 1, [⟨0, 32, .rw, 0, 0, 4294967295, false, true⟩]⟩,
  -- CELL_SPAD_UE (Table 10-10)
  ⟨0xb20, 0, 1, [⟨0, 32, .rw, 0, 0, 4294967295, false, true⟩]⟩,
  -- CELL_RED_MB (Table 12-7)
  ⟨0xc00, 0, 1, [⟨0, 4, .rw, 0, 0, 15, false, false⟩]⟩,
  -- CELL_CL_STATUS (Table 12-7)
  ⟨0xc04, 0, 1, [⟨0, 5, .ro, 0, 0, 31, false, false⟩]⟩,
  -- CELL_CORE_CTRL (Table 13-13)
  ⟨0x100, 0, 1, [⟨0, 1, .wo, 0, 0, 1, true, false⟩, ⟨1, 1, .wo, 0, 0, 1, true, false⟩, ⟨2, 1, .wo, 0, 0, 1, true, false⟩]⟩,
  -- CELL_CORE_PC (Table 13-13)
  ⟨0x104, 0, 1, [⟨0, 12, .rw, 0, 0, 4095, false, false⟩]⟩,
  -- CELL_CORE_STATUS (Table 13-13)
  ⟨0x108, 0, 1, [⟨0, 2, .ro, 0, 0, 3, false, false⟩, ⟨2, 1, .ro, 0, 0, 1, false, false⟩, ⟨3, 1, .ro, 0, 0, 1, false, false⟩, ⟨4, 5, .ro, 0, 0, 31, false, false⟩]⟩,
  -- CELL_CORE_EXC (Table 13-13)
  ⟨0x10c, 0, 1, [⟨0, 8, .ro, 0, 0, 255, false, false⟩, ⟨16, 12, .ro, 0, 0, 4095, false, false⟩]⟩,
  -- CELL_CORE_EXCCNT (Table 13-13)
  ⟨0x110, 0, 1, [⟨0, 32, .rw, 0, 0, 4294967295, false, true⟩]⟩,
  -- CELL_LAUNCH_FAULT (Table 13-13)
  ⟨0x114, 0, 1, [⟨0, 8, .ro, 0, 0, 255, false, false⟩, ⟨16, 16, .ro, 0, 0, 65535, false, true⟩]⟩,
  -- CELL_CORE_INSNS (Table 13-13)
  ⟨0x118, 0, 1, [⟨0, 32, .rw, 0, 0, 4294967295, false, true⟩]⟩,
  -- CELL_CORE_STALL (Table 13-13)
  ⟨0x11c, 0, 1, [⟨0, 32, .rw, 0, 0, 4294967295, false, true⟩]⟩,
  -- CELL_IMEM_CE (Table 13-13)
  ⟨0x120, 0, 1, [⟨0, 32, .rw, 0, 0, 4294967295, false, true⟩]⟩,
  -- CELL_LAUNCH_LATE (Table 13-13)
  ⟨0x124, 0, 1, [⟨0, 32, .rw, 0, 0, 4294967295, false, true⟩]⟩,
  -- CELL_IMEM_w (Table 13-13)
  ⟨0x8000, 4, 8192, [⟨0, 32, .rw, 0, 0, 4294967295, false, false⟩]⟩]

/-- The registers of a cell, from the start of its block (R16). -/
def cellRows : List RegRow :=
  cellRows0 ++ cellRows1

/-- The row of a table that holds the dword at `off`. -/
def findRow (rows : List RegRow) (off : Nat) : Option RegRow :=
  rows.find? fun r => r.base ≤ off && off < r.base + r.stride * (r.n - 1) + 4
    && (off - r.base) % (Nat.max r.stride 4) == 0

/-- The fields at a BAR0 offset, by the map of Table 15-2; none where no register lies (R10). -/
def fieldsAt (off : Nat) : List FieldRow :=
  let row :=
    if 0x2000000 ≤ off ∧ off < 0x4000000 then findRow cellRows (off % 0x10000)
    else if 0x1000000 ≤ off ∧ off < 0x1C00000 then findRow gsRows (off % 0x100000)
    else if off < 0x1000000 then findRow modRows off
    else none
  match row with
  | some r => r.fields
  | none => []

/-- The word a register holds after reset, from the Reset column of its fields. -/
def resetWord (off : Nat) : W32 :=
  BitVec.ofNat 32 (sumNat ((fieldsAt off).map fun f => f.reset * 2 ^ f.lo))

end Sys2Proof.Machine
end

