-- ==== Sys2Proof/Machine/Sparse.lean ====
section
/-! DEFINITION. Sparse tables: association lists with rising keys that list no entry equal to the default of its key. -/

namespace Sys2Proof.Machine

/-- What a sparse table holds at a key: the listed value, else the default. -/
def tabGet {V : Type} (d : Nat → V) : List (Nat × V) → Nat → V
  | [], k => d k
  | (k', v) :: m, k => if k = k' then v else tabGet d m k

/-- Lists a value at a key, whatever it is, keeping the keys rising. -/
def tabPut {V : Type} (k : Nat) (v : V) : List (Nat × V) → List (Nat × V)
  | [] => [(k, v)]
  | (k', v') :: m => if k < k' then (k, v) :: (k', v') :: m else if k = k' then (k, v) :: m else (k', v') :: tabPut k v m

/-- Unlists a key. -/
def tabDel {V : Type} (k : Nat) (m : List (Nat × V)) : List (Nat × V) := m.filter (fun p => p.1 != k)

/-- Writes a sparse table: writing the default unlists the key, so that equal tables are equal lists. -/
def tabSet {V : Type} [DecidableEq V] (d : Nat → V) (m : List (Nat × V)) (k : Nat) (v : V) : List (Nat × V) :=
  if v = d k then tabDel k m else tabPut k v m

/-- Keys strictly rising above a bound. -/
def tabSorted {V : Type} : Option Nat → List (Nat × V) → Bool
  | _, [] => true
  | none, (k, _) :: m => tabSorted (some k) m
  | some b, (k, _) :: m => decide (b < k) && tabSorted (some k) m

/-- The canonical form: keys strictly rising, no listed default. -/
def tabWf {V : Type} [DecidableEq V] (d : Nat → V) (m : List (Nat × V)) : Bool :=
  tabSorted none m && m.all (fun p => decide (p.2 ≠ d p.1))

/-- The default of a byte memory: an unlisted byte reads as 0 (DESIGN CHOICE, log entry 2). -/
def zeroByte (_ : Nat) : Byte := 0

/-- The canonical form of a memory. -/
def Memory.wf (m : List (Nat × Byte)) : Bool := tabWf zeroByte m

/-- Reads one byte of a memory. -/
def memByte (m : List (Nat × Byte)) (a : Nat) : Byte := tabGet zeroByte m a

/-- Reads `n` bytes of a memory. -/
def memBytes (m : List (Nat × Byte)) (a n : Nat) : List Byte := (List.range n).map (fun i => memByte m (a + i))

/-- Writes bytes from an address on. -/
def memWrite (m : List (Nat × Byte)) (a : Nat) : List Byte → List (Nat × Byte)
  | [] => m
  | b :: bs => memWrite (tabSet zeroByte m a b) (a + 1) bs

/-- Clears the bytes `[lo, hi)` of a memory to 0. -/
def memClear (m : List (Nat × Byte)) (lo hi : Nat) : List (Nat × Byte) :=
  m.filter (fun p => p.1 < lo || hi ≤ p.1)

/-- A little-endian number from bytes (R3). -/
def leNat : List Byte → Nat
  | [] => 0
  | b :: bs => b.toNat + 256 * leNat bs

/-- `n` little-endian bytes of a number (R3). -/
def leBytes : Nat → Nat → List Byte
  | 0, _ => []
  | n + 1, v => BitVec.ofNat 8 v :: leBytes n (v / 256)

/-- A number of `n` bytes read from a memory (R3). -/
def memNat (m : List (Nat × Byte)) (a n : Nat) : Nat := leNat (memBytes m a n)

/-- The value listed at a key, if any. -/
def alistGet {V : Type} : List (Nat × V) → Nat → Option V
  | [], _ => none
  | (k', v) :: m, k => if k = k' then some v else alistGet m k

end Sys2Proof.Machine
end

