-- ==== Sys2Proof/Machine/State.lean ====
section
/-! DEFINITION. The state of the T20: every register, memory, queue and mode the manual names, as plain data, and its
value after reset. A field's default is its value after reset (cold reset, before the ROM has run). -/

namespace Sys2Proof.Machine

/-- Why a command stops the model. -/
inductive Fault where
  /-- Raised by every command that names a unit the package does not have (a cell above 511, a groundsheet above 11, a
  port above 23, a die above 7, a queue above 63): no such command can arrive (R13, R16, R20, R21, R454). Safe. -/
  | noSuchUnit
  deriving DecidableEq, Repr

/-- Why the model has no answer to a command. -/
inductive Refusal where
  /-- Raised by an arm of the dispatch whose command has no meaning yet. Safe. -/
  | notModelled (mnemonic : String)
  deriving DecidableEq, Repr

/-- What has left the block, in order. -/
inductive Output where
  /-- A write to host memory over CXL.io: ring and completion records (R447). -/
  | hostWrite (addr : Nat) (qwords : List W64)
  /-- An MSI-X message of a vector (R466). -/
  | msix (vector : Nat)
  /-- The value a host register read returns: a dword, or the bytes asked for of one (R58, R446). -/
  | regRead (off : Nat) (v : W32)
  /-- The bytes a PMBus read, a window read, or a DOE or SPDM request returns. -/
  | reply (bytes : List Byte)
  /-- A message handed to a unit of this module (R352). -/
  | deliver (h : Hdr) (payload : List Byte)
  /-- A message sent on a port, virtual lane and credit pool, with the AR, ESC and HOPS of its flits; `intact` is false for
  one that arrived damaged (R332, R334, R352). -/
  | send (port : Nat) (vl : Nat) (pool : Nat) (ar : Bool) (esc : Bool) (hops : Nat) (intact : Bool) (h : Hdr)
      (payload : List Byte)
  /-- A copy of a guyline cell sent on a port: a contribution or a verdict (R268, R269, R337). -/
  | guyline (port : Nat) (verdict : Bool) (g : GuyCell)
  /-- A copy of a timing cell sent on a port: kind 0 SYNC, 1 DELAY_REQ, 2 DELAY_RESP (R337, R338). -/
  | timing (port : Nat) (kind : Nat) (g : TimeCell)
  /-- A link flit with a credit return: lane, pool, cumulative flits freed modulo 256; it carries the module's identity
  (R336). -/
  | creditReturn (port : Nat) (vl : Nat) (pool : Nat) (count : Nat) (who : PortId)
  /-- A link flit with the cumulative counts of flits received, modulo 256, per lane and pool, and the module's identity
  (R336). -/
  | credits (port : Nat) (counts : List Nat) (who : PortId)
  /-- A UIO read of the far tier (R302, R451). -/
  | farRead (id : Nat) (hpa : Nat) (len : Nat)
  /-- A UIO write of the far tier (R302, R451). -/
  | farWrite (id : Nat) (hpa : Nat) (bytes : List Byte)
  /-- The 8,192 UIO writes of 256 bytes of a whole page (R300, R451): the bytes that are not 0. -/
  | farWritePage (id : Nat) (hpa : Nat) (cells : List (Nat × Byte))
  /-- A CXL.cache RdCurr of the descriptor at an address (R447). -/
  | rdCurr (addr : Nat)
  /-- A read of host memory over CXL.io (R458, R460, R479). -/
  | hostRead (addr : Nat) (len : Nat)
  /-- A data write to host memory by a COPY descriptor (R460). -/
  | hostData (addr : Nat) (bytes : List Byte)
  /-- A response of the link on behalf of a request: 0 RspIHitI, 1 unsupported request (R447, R451). -/
  | linkResp (kind : Nat)
  deriving DecidableEq, Repr

/-- A record of the event or clamp ring before it is written, as four qwords (Tables 15-6 and 16-7). -/
structure RingRec where
  q0 : W64 := 0
  q1 : W64 := 0
  q2 : W64 := 0
  q3 : W64 := 0
  deriving DecidableEq, Repr

/-- The part of a ring that is not registers (R464, R465, R490). -/
structure Ring where
  /-- Records held while the ring is disabled, oldest first. -/
  held : List RingRec := []
  /-- Records dropped since the last overflow record. -/
  lost : Nat := 0
  /-- Sequence number of the next record written. -/
  seq : W32 := 0
  /-- Whether the next slot lies on an even pass, where PHASE is 0 (R462). -/
  evenPass : Bool := false
  /-- Records written since the last MSI-X message. -/
  unsignalled : Nat := 0
  /-- Tick of the first record not yet signalled. -/
  firstTick : Option Nat := none
  deriving DecidableEq, Repr

/-- A read of a descriptor that wrote clamp records: KIND, ID, SEQ_HEAD, SEQ_TAIL (R489). -/
structure ClampKey where
  kind : Nat
  ident : Nat
  head : Nat
  tail : Nat
  deriving DecidableEq, Repr

/-! ### The cell -/

/-- STATE of CELL_CORE_STATUS (Table 13-13). -/
inductive CoreRun where
  | halted | running | done | faulted
  deriving DecidableEq, Repr

/-- An entry of the store buffer (R390). -/
structure StoreEntry where
  addr : Nat
  bytes : List Byte
  deriving DecidableEq, Repr

/-- An entry of the matrix queue with its operands, and for a start the epoch, as issued (R152, Table 13-2). An address list holds the named address register
and the one after it, where there is one (R135). -/
inductive MxOp where
  | start (h : Nat) (w : W64) (src : W32) (epoch : W32)
  | mul (h : Nat) (ws : W64) (wt : W64) (kc : W64) (sa : List W32) (ta : List W32)
  | fin (h : Nat) (w : W64) (dst : W32)
  deriving DecidableEq, Repr

/-- An entry of the vector queue with its operands as issued (R164 to R169): control word, the two words after it,
stream words of destination, a, b and c, their addresses with the registers after, the mask address, the scalar
destination. -/
structure VsOp where
  ctl : W64 := 0
  tensor : W64 := 0
  index : W64 := 0
  wd : W64 := 0
  wa : W64 := 0
  wb : W64 := 0
  wc : W64 := 0
  ad : List W32 := []
  aa : List W32 := []
  ab : List W32 := []
  ac : List W32 := []
  mask : W32 := 0
  sd : Nat := 0
  deriving DecidableEq, Repr

/-- An action of LAUNCH.AT with its operands as read when it executed (R45, R399). -/
inductive Work where
  | mx (op : MxOp)
  | vs (op : VsOp)
  | copy (len : Nat) (src : W32) (dst : W32)
  | pool (put : Bool) (h : Nat) (addr : W64) (word : W64) (spad : W32)
  | gather (h : Nat) (req : W64) (owner : W64) (dl : W64) (dst : W32)
  | coll (h : Nat)
  | clCancel (h : W64)
  | stream (k : Nat) (desc : W32)
  | srelease (k : Nat)
  | scancel (k : Nat)
  | altready (b : Bool)
  | seal (t : W64)
  | phase (n : Nat)
  | hint (n : Nat) (t : W64)
  deriving DecidableEq, Repr

/-- An entry of the launch queue (R46, R47); `late` marks a target that was not ahead of the count. -/
structure LaunchEntry where
  target : Nat
  late : Bool
  work : Work
  deriving DecidableEq, Repr

/-- Where an accumulator tile stands (R140): live, or draining to a destination of Table 5-6; `taken` once the collective
unit has its dW piece. -/
inductive TilePhase where
  | live
  | vec
  | spad (dst : Nat)
  | red
  | taken
  deriving DecidableEq, Repr

/-- An accumulator tile (R139 to R149). In the state that queued instructions will leave, `p` 0 marks a tile not started. -/
structure Tile where
  h : Nat
  m : Nat
  n : Nat
  pass : Nat := 0
  layer : Nat := 0
  p : Nat := 1
  /-- Bits [15:8] of the product threshold sampled at MX.START (R201). -/
  expwin : Nat := 0
  epoch : W32 := 0
  tsw : Tsw := {}
  next : Option Nat := none
  closed : Bool := false
  null : Bool := false
  phase : TilePhase := .live
  endw : W64 := 0
  /-- CELL_RED_MB when its MX.END executed (R373). -/
  mb : Nat := 0
  /-- The elements in row order. -/
  elems : List W32 := []
  deriving DecidableEq, Repr

/-- What a transfer handle is for (R306, R309). -/
inductive XferKind where
  | get | put | gather
  deriving DecidableEq, Repr

/-- A transfer under one of the 64 handles of a cell, or a stream item (R306 to R315). -/
structure Xfer where
  kind : XferKind := .get
  /-- A launched transfer whose action has not fired is reserved (R399). -/
  fired : Bool := true
  /-- The transfer word, or the gather request word. -/
  word : W64 := 0
  /-- The pool or far address, or the owner word. -/
  addr : W64 := 0
  spad : Nat := 0
  cap : Nat := 0
  dlEn : Bool := false
  deadline : Int := 0
  epoch : W32 := 0
  /-- Fabric tags of the request in flight, first request first (R315, R356). -/
  tag : Option Nat := none
  tag2 : Option Nat := none
  /-- Place in the cell's order of issue (R310). -/
  seq : Nat := 0
  /-- It has been counted as waiting for a tag to narrow its request with (R356). -/
  tagStall : Bool := false
  switchTried : Bool := false
  narrowTried : Bool := false
  missed : Bool := false
  /-- SWITCHED, NARROWED and MISSED at their bits of the result word. -/
  flags : Nat := 0
  complete : Bool := false
  failed : Bool := false
  stale : Bool := false
  reason : Nat := 0
  fmt : Nat := 0
  deriving DecidableEq, Repr

/-- A stream prefetcher that has not ended (R311, R312). Its items are transfers under handles `64 + 8 × stream + slot`. -/
structure Stream where
  kind : Nat
  slots : Nat
  count : Nat
  list : Nat
  slotBase : Nat
  slotSize : Nat
  /-- Items issued, items whose PL.SWAIT completed, items released. -/
  issued : Nat := 0
  waited : Nat := 0
  released : Nat := 0
  cancelled : Bool := false
  /-- The prefetcher has been counted as stalled for a tag (R356). -/
  tagStall : Bool := false
  deriving DecidableEq, Repr

/-- A TM.WIDEN in progress (R207 to R209). -/
structure Widen where
  src : Nat
  dst : Nat
  target : Nat
  word : W64
  epoch : W32
  hdr : Hdr := {}
  dlEn : Bool := false
  deadline : Int := 0
  tag : Option Nat := none
  sd : Nat := 0
  /-- The response once it has arrived: header and payload, or a failure. -/
  resp : Option (Hdr × List Byte) := none
  failed : Bool := false
  deriving DecidableEq, Repr

/-- State of a collective under one of the 16 handles of a cell (R380 to R383). -/
inductive CollPhase where
  | reserved | running | done | failed (reason : Nat)
  deriving DecidableEq, Repr

/-- What a collective has received of one tree from one member: the chunk, the member index of the sender, and the
payloads by offset (R382). -/
structure CollIn where
  chunk : Nat
  who : Nat
  cells : List (Nat × List Byte) := []
  deriving DecidableEq, Repr

/-- A collective (R380 to R384). -/
structure Coll where
  op : Nat := 0
  word : W64 := 0
  route : W64 := 0
  src : Nat := 0
  dst : Nat := 0
  phase : CollPhase := .reserved
  /-- The member index of this module and the members' addresses, as read when the collective was checked. -/
  rank : Nat := 0
  members : List Nat := []
  got : List CollIn := []
  /-- The tree sum that this member is the root of, once formed. -/
  result : Option (List Byte) := none
  /-- The chunks whose part this member has formed. -/
  sent : List Nat := []
  /-- A message with another OP has come under its ID, so that it does not complete (R382). -/
  bad : Bool := false
  deriving DecidableEq, Repr

/-- A cell: control core, matrix engine, vector engine, transfers, streams, widens and collectives (R17). What is
readable as a register and computed from nothing else lies in the register table of the module instead. -/
structure Cell where
  run : CoreRun := .halted
  /-- The program counter while RUNNING; otherwise the word that RUN starts at (CELL_CORE_PC). -/
  pc : BitVec 12 := 0
  /-- Scalar registers s1 to s63; an unlisted one holds 0 (Table 13-1). -/
  sreg : List (Nat × W64) := []
  /-- Address registers a0 to a15; an unlisted one holds 0. -/
  areg : List (Nat × W32) := []
  /-- Predicates p7 to p0; p0 reads as 1. -/
  preg : BitVec 8 := 1
  /-- Instruction memory; an unlisted word is zero. -/
  imem : List (Nat × W64) := []
  /-- Words of instruction memory with an uncorrectable error, and with a correctable one (R405). -/
  imemErr : List Nat := []
  imemCe : List Nat := []
  /-- The instruction whose issue is stalled (R407). -/
  stall : Option Instr := none
  /-- Scalar registers whose result an earlier instruction still owes (R403, R407). -/
  owed : List Nat := []
  stores : List StoreEntry := []
  evec : BitVec 12 := 0
  evecEn : Bool := false
  epc : BitVec 12 := 0
  ecause : W32 := 0
  active : Bool := false
  es0 : W64 := 0
  es1 : W64 := 0
  lfaultTick : W32 := 0
  /-- This cell has sealed since the module last entered OPEN (R400). -/
  sealedMark : Bool := false
  /-- Instructions issued since CELL_CORE_INSNS last advanced, 0 to 1,023. -/
  insns : Nat := 0
  lq : List LaunchEntry := []
  /-- The matrix queue; fired actions beyond its eight entries stand in the holding slot (R152, R399). -/
  mxq : List MxOp := []
  /-- Scratchpad spans that matrix instructions issued since the last fence read: handle, address, bytes; and the handles
  of those whose bytes have been written since (R153). -/
  mxReads : List (Nat × Nat × Nat) := []
  mxRaced : List Nat := []
  /-- Scratchpad bytes that vector instructions have written from tiles whose operands are not known to be read: handle,
  address, bytes (R153). -/
  mxDerived : List (Nat × Nat × Nat) := []
  /-- Accumulator tiles, live and draining (R139, R140). -/
  tiles : List Tile := []
  /-- Status word of the last tile ended on each handle (R150). -/
  lastTsw : List (Nat × W64) := []
  /-- The handle whose word CELL_TSW_LAST holds. -/
  tswLastH : Option Nat := none
  /-- Cycles not yet counted in CELL_MX_ACTIVE, CELL_VS_ACTIVE and CELL_VS_FNUNIT, 0 to 1,023 each. -/
  mxCycles : Nat := 0
  vsCycles : Nat := 0
  fnCycles : Nat := 0
  /-- The vector queue, with the holding slot behind its eight entries (R183, R399). -/
  vsq : List VsOp := []
  xfers : List (Nat × Xfer) := []
  /-- Transfers issued so far (R310). -/
  xferSeq : Nat := 0
  streams : List (Nat × Stream) := []
  widens : List (Nat × Widen) := []
  colls : List (Nat × Coll) := []
  altReady : Bool := false
  deriving DecidableEq, Repr

/-! ### Pitch, guyline and step -/

/-- PIT_STATUS.STATE (Table 2-2). -/
inductive PitchMode where
  | free | acquiring | locked | holdover
  deriving DecidableEq, Repr

/-- Alignment of a follower (R40, R41); stamps in 1/1,024 tick. -/
structure Pit where
  mode : PitchMode := .locked
  t1 : Option Nat := none
  t2 : Nat := 0
  t3 : Option Nat := none
  /-- Consecutive exchanges within 250 ps. -/
  good : Nat := 0
  /-- Exchanges begun since the last one that was completed. -/
  missing : Nat := 0
  /-- Tick at which HOLDOVER was entered. -/
  holdFrom : Nat := 0
  deriving DecidableEq, Repr

/-- MOD_STEP_STATUS.STATE (Table 9-1). -/
inductive StepMode where
  | idle | opened | sealed | diverged
  deriving DecidableEq, Repr

/-- The step machine (R258 to R282). MOD_EPOCH, MOD_GSCALE and the counters are registers. -/
structure StepSt where
  mode : StepMode := .idle
  flags : BitVec 4 := 0
  pend : BitVec 4 := 0
  /-- Flags raised in the application tick before its verdict is applied, for the current epoch and for the next one: they
  belong to the step that begins in that tick (R259). -/
  early : BitVec 4 := 0
  earlyNext : BitVec 4 := 0
  lastOr : BitVec 4 := 0
  lastVerdict : Bool := false
  lastLocal : Bool := false
  lateSeen : Bool := false
  lateOr : BitVec 4 := 0
  /-- T_seal of the current epoch, once latched (R266). -/
  tseal : Option Nat := none
  /-- MOD_STEP_TSEAL: the last T_seal latched. -/
  tsealReg : Nat := 0
  /-- T_seal + GUY_BOUND, fixed at T_seal. -/
  applyAt : Option Nat := none
  /-- The contribution sent at T_seal. -/
  own : Option GuyCell := none
  /-- Contribution cells held per child port, oldest first (R268). -/
  children : List (Nat × GuyCell) := []
  /-- The epoch of the last local strike (R282). -/
  struck : W32 := 0
  /-- Whether the OR of this round has been sent upwards. -/
  forwarded : Bool := false
  /-- The verdict held for the application tick (R269). -/
  verdict : Option (BitVec 4) := none
  /-- Verdicts applied since reset, local strikes included (Table 13-9). -/
  vcount : Nat := 0
  /-- GSCALE in force at the start of the step (R275). -/
  gscale : W32 := 0x3FC00000
  /-- Next SEQ of a guyline cell per port (R338), and the last SEQ received. -/
  seqOut : List (Nat × BitVec 3) := []
  seqIn : List (Nat × BitVec 3) := []
  deriving DecidableEq, Repr

/-! ### The pool and the far tier -/

/-- A VALID entry of the pool directory (Table 10-3). -/
structure DirEntry where
  far : Bool := false
  moving : Bool := false
  peg : Bool := false
  lost : Bool := false
  cls : Nat := 0
  home : Nat := 0
  loc : Nat := 0
  fly : Bool := false
  lastuse : Nat := 0
  deriving DecidableEq, Repr

/-- What a frame that is not free holds. -/
inductive FrameUse where
  /-- The committed version of a page. -/
  | page (p : Nat)
  /-- The fly version of a page (R262). -/
  | fly (p : Nat)
  /-- The replaced version of a staked page, kept until its merge (R273). -/
  | old (p : Nat)
  /-- A frame freed at a verdict and not reclaimed yet (R273). -/
  | reclaim
  /-- The target of a bring-up (R301). -/
  | bringup (p : Nat)
  /-- The target of a retirement copy (R321). -/
  | copy
  | retired
  deriving DecidableEq, Repr

/-- A fly version (R262): its frame and its valid segments, one bit each. -/
structure FlyPage where
  frame : Nat
  valid : Nat := 0
  deriving DecidableEq, Repr

/-- A staked fly version with invalid segments (R273): the old frame and the segments already valid. -/
structure Merge where
  frame : Nat
  valid : Nat
  deriving DecidableEq, Repr

/-- An eviction in progress (R300). -/
structure Evict where
  page : Nat
  slot : Nat
  id : Nat
  deriving DecidableEq, Repr

/-- A bring-up in progress (R301): the frame once one was free. -/
structure Bringup where
  page : Nat
  frame : Option Nat
  /-- The cell whose access started it, or 0xFFFF. -/
  cell : Nat
  deriving DecidableEq, Repr

/-- What a far request serves. -/
inductive FarOwner where
  | xfer (c : Nat) (h : Nat)
  | evict (page : Nat)
  | bringup (page : Nat)
  deriving DecidableEq, Repr

/-- A far-tier request in progress (R302 to R304, R451): a UIO read of at most 256 bytes, or a write. -/
structure FarReq where
  id : Nat
  write : Bool
  owner : FarOwner
  start : Nat
  region : Nat
  len : Nat
  /-- Reason of R304 and the data, once the completion has arrived. -/
  done : Option (Nat × List Byte) := none
  /-- The host physical address. -/
  hpa : Nat := 0
  /-- It has left: a read waits while 1,024 are outstanding (R451). -/
  sent : Bool := true
  deriving DecidableEq, Repr

/-- Who waits for a page that is being brought up, beside transfers, descriptors and window accesses (R301): a command of a
unit, the core of a cell, its matrix engine, a stream prefetcher, or a fired gather that reads a layer descriptor. -/
inductive FarWaiter where
  | cmd (i : Instr)
  | core (c : Nat)
  | engine (c : Nat)
  | stream (c : Nat) (k : Nat)
  | gather (c : Nat) (h : Nat)
  deriving DecidableEq, Repr

/-- Who asked for an allocation (R294): a cell with the register it writes, or the host. -/
inductive PoolClient where
  | cell (c : Nat) (sd : Nat)
  | host
  deriving DecidableEq, Repr

/-- A directory command that waits (R294, R295, R298, R321). -/
inductive PoolWait where
  | alloc (who : PoolClient) (cls : Nat) (stack : Nat)
  /-- A free, with the transfers that were accepted for the page before it. -/
  | free (who : PoolClient) (page : Nat) (after : List (Nat × Nat))
  | peg (who : PoolClient) (page : Nat)
  | retire (stack : Nat) (frame : Nat)
  deriving DecidableEq, Repr

/-- A retirement copy in progress (R321). -/
structure Retiring where
  stack : Nat
  frame : Nat
  target : Nat
  deriving DecidableEq, Repr

/-- A window access that waits for a bring-up (Table 15-3); `data` is none for a read. -/
structure HdmWait where
  page : Nat
  addr : Nat
  len : Nat
  data : Option (List Byte)
  deriving DecidableEq, Repr

/-- The pool and the far tier (R291 to R327). Frames are numbered `stack × 24,576 + frame`. -/
structure Pool where
  dir : List (Nat × DirEntry) := []
  /-- Frames that are not free. -/
  frames : List (Nat × FrameUse) := []
  /-- Corrected errors counted per frame, and the frames that reported MEM_CE_THRESH (R318). -/
  ce : List (Nat × Nat) := []
  ceTold : List Nat := []
  flies : List (Nat × FlyPage) := []
  merges : List (Nat × Merge) := []
  evicts : List Evict := []
  /-- Stacks that evict until their free frames reach POOL_HIWATER (R299). -/
  evictOn : List Nat := []
  bringups : List Bringup := []
  farReqs : List FarReq := []
  nextFar : Nat := 0
  waits : List PoolWait := []
  retiring : List Retiring := []
  hdmWaits : List HdmWait := []
  /-- The pages that accesses wait for, and those whose bring-up has failed for them (R301). -/
  waiters : List (Nat × FarWaiter) := []
  failed : List (Nat × FarWaiter) := []
  /-- The next frame the patrol scrub reads, per stack (R320). -/
  scrub : List (Nat × Nat) := []
  deriving DecidableEq, Repr

/-! ### Groundsheets -/

/-- A gather request held by a groundsheet (R251, R252). -/
structure GatherReq where
  h : Hdr
  /-- Deadline tick as reconstructed at arrival (R5). -/
  deadline : Int
  /-- Whether it has been counted as held for the next epoch (R26). -/
  held : Bool := false
  deriving DecidableEq, Repr

/-- A piece of a reduced contribution (R229, R377). -/
structure Piece where
  row0 : Nat
  col0 : Nat
  m : Nat
  n : Nat
  elems : List W32
  deriving DecidableEq, Repr

/-- A slice under way in the current epoch (R229 to R231): its shard record and slice number, the accepted pieces per
micro-batch index, the complete indices, and how many contributions have been added. -/
structure SliceSt where
  shard : Nat
  slice : Nat
  pieces : List (Nat × List Piece) := []
  complete : List Nat := []
  added : Nat := 0
  deriving DecidableEq, Repr

/-- A slice that waits for the update engine (R232). -/
structure ReadySlice where
  shard : Nat
  slice : Nat
  layer : Nat
  epoch : W32
  g : List W32
  deriving DecidableEq, Repr

/-- An update group descriptor as read and clamped (Table 8-3). -/
structure UDesc where
  rule : Nat := 0
  frozen : Bool := false
  biasCorr : Bool := false
  kblk : Bool := false
  acc : Nat := 1
  newton : Nat := 20
  rootN : Nat := 1
  startEpoch : Nat := 0
  eta : W32 := 0
  beta1 : W32 := 0
  beta2 : W32 := 0
  lambda : W32 := 0
  eps : W32 := 0
  graft : W32 := 0
  deriving DecidableEq, Repr

/-- A groundsheet (R20, R221 to R257). -/
structure Gs where
  reqs : List GatherReq := []
  /-- Contributions held: for the next epoch (Table 9-6), or because GS_CTRL.EN is 0. -/
  held : List (Hdr × List Byte) := []
  slices : List SliceSt := []
  ready : List ReadySlice := []
  /-- Slices whose fly versions have been written in the current epoch. -/
  written : List (Nat × Nat) := []
  /-- The expected slices as fixed at T_seal (R235). -/
  expected : Option (List (Nat × Nat)) := none
  /-- Descriptor and GSCALE as first read in the epoch, per group (R227). -/
  consts : List (Nat × (UDesc × W32)) := []
  /-- FLY_ALLOC_STALL has been reported in the current epoch (R265). -/
  flyStalled : Bool := false
  /-- Block-unit cycles not yet counted in GS_BU_ACTIVE. -/
  buCycles : Nat := 0
  deriving DecidableEq, Repr

/-! ### Fabric and collective units -/

/-- A message with its lane, adaptive bit and, for a transit message, escape class and hops (R332, R352). -/
structure Msg where
  h : Hdr := {}
  payload : List Byte := []
  vl : Nat := 0
  ar : Bool := false
  esc : Bool := false
  hops : Nat := 0
  intact : Bool := true
  /-- Flits that a message from a port came in. -/
  got : Option Nat := none
  /-- Port and credit pool that it arrived on, while its flits are held there (R336). -/
  back : Option (Nat × Nat) := none
  deriving DecidableEq, Repr

/-- FAB_PORT_STATUS.STATE (Table 11-7). -/
inductive PortMode where
  | disabled | train | align | ident | up | fenced
  deriving DecidableEq, Repr

/-- A message that waits on a port for credits of its lane and pool (R336, R352): pool 0 ADAPT, 1 ESC0, 2 ESC1. -/
structure Queued where
  msg : Msg
  pool : Nat
  /-- Flits not sent yet. -/
  left : Nat
  deriving DecidableEq, Repr

/-- A guyline cell that is ready to be sent (R337): a verdict or a contribution, or a timing cell, whose stamp is taken as
it leaves but for the receipt that a DELAY_RESP carries. -/
inductive GuyOut where
  | cell (verdict : Bool) (g : GuyCell)
  | time (kind : Nat) (t4 : Nat)
  deriving DecidableEq, Repr

/-- A fabric port (R342 to R346). -/
structure Port where
  mode : PortMode := .disabled
  /-- Lanes in use, one bit each. -/
  lanes : Nat := 0
  failed : Nat := 0
  /-- TRAIN holds with no usable lanes (Table 11-7). -/
  stuck : Bool := false
  recorded : Option Nat := none
  /-- Serial of the peer as exchanged in the last IDENT. -/
  peerSerial : Nat := 0
  peerAddr : BitVec 17 := 0
  peerValid : Bool := false
  peerPort : Nat := 0
  cableSerial : Nat := 0
  queue : List Queued := []
  /-- Per lane and pool, at index `3 × vl + pool`: flits sent and not yet returned, all flits sent, the last cumulative
  return count, all flits received, and all of those freed (R336). -/
  used : List (Nat × Nat) := []
  sent : List (Nat × Nat) := []
  returned : List (Nat × Nat) := []
  received : List (Nat × Nat) := []
  freed : List (Nat × Nat) := []
  /-- Flits sent and received that FAB_PORT_TX_FLITS and RX_FLITS have not counted yet, 0 to 1,023. -/
  txRest : Nat := 0
  rxRest : Nat := 0
  /-- Guyline cells come on this port, which is UP, and the exchange intervals begun since the last one came (R58, R59;
  DESIGN CHOICE, log entry 41). -/
  guyHeard : Bool := false
  guyMiss : Nat := 0
  /-- Guyline cells that wait for their share of the stream, in the order in which they go (R337). -/
  guyQ : List GuyOut := []
  /-- Ticks at which the cells of the last window of 800 beats were sent, both copies of each (R337). -/
  guyAt : List Nat := []
  /-- Symbols corrected on each lane in an interval of 1,024 ticks, and that interval (R343). -/
  symbols : List Nat := []
  symbolsIn : Nat := 0
  deriving DecidableEq, Repr

/-- What a transaction serves. -/
inductive TxnOwner where
  | xfer (c : Nat) (h : Nat)
  | widen (c : Nat) (w : Nat)
  | disc
  deriving DecidableEq, Repr

/-- A transaction in flight (R356, R357). -/
structure Txn where
  tag : Nat
  msg : Msg
  owner : TxnOwner
  sentAt : Nat
  retries : Nat := 0
  deriving DecidableEq, Repr

/-- The part of an open channel context that the pool record does not hold (R361). -/
structure Chan where
  /-- Unacknowledged messages, oldest first. -/
  unacked : List Msg := []
  /-- Accepted sequence numbers ahead of RX_SEQ, with the message where ORDERED holds it back. -/
  ahead : List (Nat × Option Msg) := []
  /-- Tick of the oldest delivery not yet acknowledged. -/
  ackFrom : Option Nat := none
  /-- RX_SEQ as last acknowledged. -/
  told : Nat := 0
  /-- Tick of the last progress of ACKED, and retransmissions since. -/
  progress : Nat := 0
  retx : Nat := 0
  deriving DecidableEq, Repr

/-- A module the root's discovery has found and not probed out (R348). -/
structure DiscNode where
  addr : Nat
  serial : Nat
  depth : Nat
  route : List Nat
  /-- Ports of the module that are UP and not probed yet, ascending. -/
  ports : List Nat
  deriving DecidableEq, Repr

/-- FAB_DISC_STATUS.STATE (Table 11-12). -/
inductive DiscMode where
  | idle | running | done | failed
  deriving DecidableEq, Repr

/-- Discovery at the root (R348 to R350). -/
structure Disc where
  mode : DiscMode := .idle
  queue : List DiscNode := []
  seen : List Nat := []
  records : Nat := 0
  found : Nat := 0
  beyond : Nat := 0
  /-- The peer found on the port in hand that is being assigned an address, and that address. -/
  peer : Option Ident := none
  addr : Nat := 0
  /-- A request waits for a tag, and has been counted for it (R356). -/
  stalled : Bool := false
  deriving DecidableEq, Repr

/-- The fabric part of the module (R328 to R364). -/
structure Fab where
  ports : List (Nat × Port) := []
  txns : List Txn := []
  /-- Freed tags with the tick of freeing (R356). -/
  freed : List (Nat × Nat) := []
  chans : List (Nat × Chan) := []
  disc : Disc := {}
  /-- Arrival port of a source-routed request per source and tag (R349), oldest first. -/
  routes : List ((Nat × Nat) × Nat) := []
  /-- Messages delivered to a unit that has not taken them, with the stamp of their arrival (R51). -/
  arrived : List (Hdr × Nat) := []
  /-- Serial of the module, fixed at manufacture (DESIGN CHOICE, log entry 10). -/
  serial : Nat := 0
  deriving DecidableEq, Repr

/-- A piece or partial held by a collective unit: the cell or the child rank it came from, its elements, and bits [4:0]
of its status word (R373, R375). -/
structure CuTerm where
  who : Nat
  elems : List W32
  flags : Nat
  deriving DecidableEq, Repr

/-- A region of a dW sum (R373 to R376), with the tree as fixed at its first piece. -/
structure Region where
  layer : Nat
  epoch : W32
  mb : Nat
  row0 : Nat
  col0 : Nat
  m : Nat
  n : Nat
  chan : Option Nat
  lc : Nat
  members : List Nat
  root : Nat
  radix : Nat
  gs : Nat
  pieces : List CuTerm := []
  parts : List CuTerm := []
  /-- The region has been sent or delivered; its terms are gone. -/
  sent : Bool := false
  deriving DecidableEq, Repr

/-- A message that a collective unit has formed, with its channel context, and the cell and handle of its collective (R361,
R375, R382). -/
structure OutMsg where
  ctx : Nat
  h : Hdr
  payload : List Byte
  owner : Option (Nat × Nat) := none
  deriving DecidableEq, Repr

/-- A collective unit of a compute die (R373 to R383). -/
structure Cu where
  regions : List Region := []
  /-- Messages formed and not sent, oldest first: the unit waits while the window of the first one's context is full (R361,
  R378). -/
  outbox : List OutMsg := []
  /-- dW pieces and partials of the next epoch (Table 9-6); a piece of a local cell has KIND 0, its CHAN in CHAN. -/
  held : List (Hdr × List Byte) := []
  /-- Collective messages that arrived before their collective was issued (R382). -/
  early : List (Hdr × List Byte) := []
  /-- Adds not yet counted in FAB_CU_ADDS. -/
  adds : Nat := 0
  deriving DecidableEq, Repr

/-! ### Power, air and heat -/

/-- The sample of a die's current phase so far (R423): `energy` sums the power of each control period in watts. -/
structure PhaseAcc where
  start : Nat := 0
  energy : Nat := 0
  peak : Nat := 0
  steps : Nat := 0
  periods : Nat := 0
  /-- Wide-lock has been in force while the phase ran (R423). -/
  locked : Bool := false
  /-- The sample is not to be learnt: SHED, BIVOUAC or TRIP has ended the phase (R419, R423). -/
  void : Bool := false
  deriving DecidableEq, Repr

/-- The synthesised clock and the rail of a die (R421): the ACLK step, the rail in 0.1 mV above 0.45 V, the step it is to
reach, and the hint that the lantern has begun to act on (R424). -/
structure DieClock where
  step : Nat := 0
  rail : Nat := 0
  goal : Option Nat := none
  ahead : Option (Nat × Nat) := none
  deriving DecidableEq, Repr

/-- The power and thermal part of the module (R410 to R440). -/
structure Pwr where
  /-- The regulators are off (R410, R411). -/
  off : Bool := false
  /-- The reference clock is lost (R507). -/
  clockLost : Bool := false
  /-- RST_N is held low (R508). -/
  rstLow : Bool := false
  /-- The comparators that have tripped: dies in bits 7 to 0, groundsheets above (R435); not 0 while TRIP is latched. -/
  trip : Nat := 0
  /-- Table 14-3 is running. -/
  shed : Bool := false
  /-- The cause of the running shed sequence, true for the input, and the power at its assertion (Table 14-10). -/
  shedInput : Bool := false
  shedPower : Nat := 0
  /-- ACLK is divided by the SHED_DIV divisor, and groundsheets issue in half of their cycles (Table 14-3). -/
  divider : Bool := false
  halfRate : Bool := false
  warnPin : Bool := false
  inputLow : Bool := false
  /-- A warning holds the module in SHED or BIVOUAC until its hold time has ended (R418). -/
  warned : Bool := false
  /-- Tick at which the last warning cause cleared. -/
  clearedAt : Option Nat := none
  airStop : Bool := false
  airLow : Bool := false
  /-- Tick since which neither condition of R433 has held. -/
  airOkFrom : Option Nat := none
  /-- Q fell below QMIN in the last estimate (R433). -/
  airBad : Bool := false
  /-- Consecutive estimates with Q at or above QMIN, up to ten (R434), and whether the slope condition holds. -/
  goodAir : Nat := 0
  hotSlope : Bool := false
  /-- The hottest junction of the last samples, the newest first, up to THM_SLOPE_WIN of them (R434). -/
  temps : List Int := []
  /-- The trip has been cleared and BIVOUAC not left since (R436). -/
  tripCleared : Bool := false
  bivouacFrom : Option Nat := none
  /-- Cap and LIMIT of the last CAP_CHANGED report (R440). -/
  told : Nat × Nat := (600, 4)
  /-- PWR_CAP and the shelf's valid budget as they were when SHED or BIVOUAC was entered (R419). -/
  heldCaps : Option (Nat × Option Nat) := none
  /-- The lantern's target in 10 µW, which moves towards the effective cap (R415). -/
  target : Nat := 60000000
  /-- Tick at which the excursion in progress began, and the tick before which no new one may begin (R416). -/
  excFrom : Option Nat := none
  excNotBefore : Nat := 0
  /-- Ticks above the cap not yet counted in PWR_EXC_TIME. -/
  excRest : Nat := 0
  /-- The clocks and rails of the dies (R421). -/
  clocks : List (Nat × DieClock) := []
  /-- What the last control period measured (R420). -/
  meas : Meas := {}
  /-- Update engines and block units are limited so that each die keeps its least power (R420). -/
  issueLimit : Bool := false
  /-- The level of input power that the lantern holds, and the part of it that kindling draws, in 10 µW; and the kindled energy
  not yet counted, in units of 0.1 pJ (R427, R428). -/
  level : Nat := 0
  kindle : Nat := 0
  kindleRest : Nat := 0
  /-- The last phase mark of each die: its tick, and its cell's place in the order of R53 at that tick (R422). -/
  marks : List (Nat × (Nat × Nat)) := []
  /-- Hint queues per die: phase and tick (R424). -/
  hints : List (Nat × List (Nat × Nat)) := []
  accs : List (Nat × PhaseAcc) := []
  /-- The heatsink curve: airflow and resistance of each point (Table 14-6), and whether a valid memory has been read. -/
  curve : List (Nat × Nat) := []
  hsValid : Bool := false
  airCap : Option Nat := none
  /-- The word last written to BUDGET, and CML (R414). -/
  budget : BitVec 16 := 0
  cml : Bool := false
  /-- PWR_ROT_CTRL and PWR_ROT_EPOCH0 in force (R429). -/
  rotCtrl : W32 := 0
  rotEpoch0 : W32 := 0
  deriving DecidableEq, Repr

/-! ### Host attachment -/

/-- STATE of HQ_QSTATUS_q (R455). -/
inductive QueueMode where
  | disabled | running | stopped
  deriving DecidableEq, Repr

/-- A started descriptor (R454, R456): its words as read and clamped. -/
structure Started where
  slot : Nat
  words : List W32
  /-- It has begun its work. -/
  begun : Bool := false
  /-- The pages of a COPY are at hand, and its host access has left. -/
  sent : Bool := false
  deriving DecidableEq, Repr

/-- A command queue (R454, R455, R462). -/
structure Queue where
  mode : QueueMode := .disabled
  /-- EN has been written 0 and started descriptors remain. -/
  draining : Bool := false
  head : Nat := 0
  /-- Completions since the queue left DISABLED. -/
  completed : Nat := 0
  fault : Nat := 0
  started : List Started := []
  /-- The descriptor at HEAD has been read and has FENCE set (R454). -/
  fenced : Bool := false
  deriving DecidableEq, Repr

/-- An IDE stream (R452): keys programmed, in use, or insecure after a failure. -/
structure Ide where
  keys : Bool := false
  active : Bool := false
  insecure : Bool := false
  deriving DecidableEq, Repr

/-- The host side of the module (R441 to R469). -/
structure HostSt where
  width : Nat := 0
  rate : Nat := 0
  cxl : Bool := false
  /-- What cannot leave over CXL.io while its link stream is insecure, in order (R452). -/
  held : List Output := []
  /-- IDE streams: CXL.io link stream 0 and selective streams 1 to 8 under their number, CXL.cachemem under 256. -/
  ide : List (Nat × Ide) := []
  queues : List (Nat × Queue) := []
  evt : Ring := {}
  clamp : Ring := {}
  /-- The last 256 reads that wrote clamp records, newest first (R489). -/
  seen : List ClampKey := []
  deriving DecidableEq, Repr

/-! ### Boot -/

/-- STAGE of BOOT_STATUS (R472, R476, R478). -/
inductive Stage where
  | rom | running | held | recovery
  deriving DecidableEq, Repr

/-- A load in progress (R479): the type of the image; it is in flight until LOAD_COMPLETE. -/
structure Load where
  microcode : Bool
  deriving DecidableEq, Repr

/-- Fuses, flash, images and SPDM state (R470 to R492). Index 0 is firmware, index 1 microcode. -/
structure Boot where
  stage : Stage := .rom
  /-- The pair runs and the firmware has not started yet (Table 16-2); the stage is still ROM, or HELD after PAIR. -/
  starting : Bool := false
  keyDigests : List Nat := [0, 0, 0, 0]
  revoked : BitVec 4 := 0
  fuseSvn : Nat := 0
  hwl : Nat := 0
  stepping : BitVec 16 := 0
  romDigest : Nat := 0
  /-- Flash slots A and B of firmware, then of microcode. -/
  slots : List (Option Image) := [none, none, none, none]
  /-- The slot that each selector names. -/
  selFw : Nat := 0
  selUc : Nat := 0
  /-- The slot written by the last successful load since cold reset. -/
  loadedFw : Option Nat := none
  loadedUc : Option Nat := none
  policy : Bool := false
  fw : Option Image := none
  uc : Option Image := none
  fwSlot : Nat := 0
  ucSlot : Nat := 0
  fallback : Bool := false
  reason : Nat := 0
  level : Nat := 0
  levelled : Bool := false
  load : Option Load := none
  /-- COLD_RESET waits for the flash write in progress (R480). -/
  resetAfterLoad : Bool := false
  result : Nat := 0
  pairTested : Bool := false
  pairOk : Bool := false
  pairLevel : Nat := 0
  /-- Measurement index 7 as it stood at the last evaluation of the pair (R484). -/
  measured : List W32 := [0, 0, 0, 0]
  /-- The free bytes drawn at the last cold boot for the measurements that the spec does not fix (DESIGN CHOICE, log entry 8). -/
  fuseBase : Nat := 0
  /-- SPDM sessions: number and whether FINISH has established it. -/
  sessions : List (Nat × Bool) := []
  nextSession : Nat := 1
  straps : BitVec 3 := 0
  deriving DecidableEq, Repr

/-- The reset part of the module (R495 to R503). -/
structure Rst where
  cause : Nat := 4
  stepLost : Bool := false
  /-- A warm reset is in progress. -/
  busy : Bool := false
  deriving DecidableEq, Repr

/-! ### The module -/

/-- The state of a T20. -/
structure State where
  /-- The pitch count (R36): 64 bits that no run wraps. -/
  pitch : Nat := 0
  /-- Registers at their BAR0 offsets that differ from their reset value; see `resetWord`. -/
  regs : List (Nat × W32) := []
  /-- The registers as FREEZE found them, while MOD_CTR_CTRL.FREEZE is 1 (R496). -/
  frozen : Option (List (Nat × W32)) := none
  /-- High halves latched by reads of `_LO` registers (R58). -/
  latched : List (Nat × W32) := []
  pit : Pit := {}
  step : StepSt := {}
  cells : List (Nat × Cell) := []
  /-- Scratchpad by its 32-bit address (R288); an unlisted byte is 0 (DESIGN CHOICE, log entry 2). -/
  spad : List (Nat × Byte) := []
  /-- Words of 8 bytes of scratchpad with an uncorrectable error, and with a correctable one (R290). -/
  spadErr : List Nat := []
  spadCe : List Nat := []
  /-- HBM by `frame × 2 MiB + offset`, frames numbered `stack × 24,576 + frame`; an unlisted byte is 0 (DESIGN CHOICE, log entry 2). -/
  hbm : List (Nat × Byte) := []
  /-- Words of 32 bytes of HBM with an uncorrectable error, and with a correctable one (R318). -/
  hbmErr : List Nat := []
  hbmCe : List Nat := []
  gss : List (Nat × Gs) := []
  cus : List (Nat × Cu) := []
  pool : Pool := {}
  fab : Fab := {}
  pwr : Pwr := {}
  host : HostSt := {}
  boot : Boot := {}
  rst : Rst := {}
  /-- Interval of 1,024 ticks in which an event was last reported, per code and source (R521). -/
  rate : List (Nat × Nat) := []
  /-- What has left the block. -/
  out : List Output := []
  /-- Commands whose access waits for a bring-up (R301); a tick gives them to the queue again (DESIGN CHOICE, log entry 13). -/
  parked : List Instr := []
  /-- The model's own counter of free values drawn (DESIGN CHOICE, log entry 3). -/
  free : Nat := 0
  /-- Commands that wait, first in first out. -/
  pending : List Instr := []
  deriving DecidableEq, Repr

/-- The machine right after a cold reset, before its ROM has run (Table 16-2, time 0): every register at its Reset
column, memories and queues empty, no image in flash, fuses as DESIGN CHOICE, log entry 10 says. -/
def State.reset : State := {}

end Sys2Proof.Machine
end

