-- ==== Sys2Proof/Machine/Ops.lean ====
section
/-! DEFINITION. The named operations over registers, units, memories, free values, event and clamp rings. -/

namespace Sys2Proof.Machine

/-- What a meaning answers. -/
abbrev Out : Type := Host.Outcome State Fault Refusal

/-- A command that names a unit the package has acts; any other is a fault (R13, R16, R20, R21, R454). -/
def onUnit (ok : Bool) (s : State) : Out := if ok then .next s else .fault .noSuchUnit

/-- A command whose condition holds acts; any other is turned away and changes nothing. -/
def whenOk (ok : Bool) (s t : State) : State := if ok then t else s

/-- Does the module hold any state that works: regulators on, clock present, reset pin released (R411, R507, R508)? -/
def State.alive (s : State) : Bool := !s.pwr.off && !s.pwr.clockLost && !s.pwr.rstLow

/-- Does the module run: alive, stage RUNNING with its firmware started, no warm reset in progress (R472, R476, R499)? -/
def State.up (s : State) : Bool := s.alive && s.boot.stage == .running && !s.rst.busy

/-- Is TRIP latched (R435)? -/
def State.tripped (s : State) : Bool := s.pwr.trip != 0

/-- Do engines, cores and queued work run: the module is up and no trip is latched (R435)? -/
def State.works (s : State) : Bool := s.up && !s.tripped

/-! ### Registers -/

/-- The stored word of the register at a BAR0 offset. -/
def State.reg (s : State) (off : Nat) : W32 := tabGet resetWord s.regs off

/-- Stores a register word. -/
def State.setReg (s : State) (off : Nat) (v : W32) : State := { s with regs := tabSet resetWord s.regs off v }

/-- Bits `[lo + w - 1 : lo]` of a stored register. -/
def State.fld (s : State) (off lo w : Nat) : Nat := (s.reg off).toNat / 2 ^ lo % 2 ^ w

/-- A word with the field at `lo`, `w` bits wide, replaced. -/
def putField (old lo w v : Nat) : Nat := old - (old / 2 ^ lo % 2 ^ w) * 2 ^ lo + (v % 2 ^ w) * 2 ^ lo

/-- Stores a field of a register. -/
def State.setFld (s : State) (off lo w v : Nat) : State :=
  s.setReg off (BitVec.ofNat 32 (putField (s.reg off).toNat lo w v))

/-- Adds to a field that saturates at all ones. -/
def State.bumpFld (s : State) (off lo w n : Nat) : State := s.setFld off lo w (min (s.fld off lo w + n) (2 ^ w - 1))

/-- Adds to a 32-bit counter register, saturating. -/
def State.bumpBy (s : State) (off n : Nat) : State :=
  s.setReg off (BitVec.ofNat 32 (min ((s.reg off).toNat + n) 0xFFFFFFFF))

/-- Adds one to a 32-bit counter register, saturating. -/
def State.bump (s : State) (off : Nat) : State := s.bumpBy off 1

/-- The 64-bit number of a `_LO` and `_HI` register pair. -/
def State.reg64 (s : State) (lo hi : Nat) : Nat := (s.reg lo).toNat + 2 ^ 32 * (s.reg hi).toNat

/-- Stores a 64-bit number in a `_LO` and `_HI` register pair. -/
def State.setReg64 (s : State) (lo hi v : Nat) : State :=
  (s.setReg lo (BitVec.ofNat 32 v)).setReg hi (BitVec.ofNat 32 (v / 2 ^ 32))

/-- MOD_EPOCH (R258). -/
def State.epoch (s : State) : W32 := s.reg Reg.modEpoch

/-! ### Units -/

/-- A cell. -/
def State.cell (s : State) (c : Nat) : Cell := tabGet (fun _ => {}) s.cells c

/-- Stores a cell. -/
def State.setCell (s : State) (c : Nat) (v : Cell) : State := { s with cells := tabSet (fun _ => {}) s.cells c v }

/-- Changes every cell by a function that leaves a cell at its reset value alone. -/
def State.mapCells (s : State) (f : Cell → Cell) : State :=
  { s with cells := (s.cells.map (fun p => (p.1, f p.2))).filter (fun p => p.2 != {}) }

/-- A groundsheet. -/
def State.gs (s : State) (n : Nat) : Gs := tabGet (fun _ => {}) s.gss n

/-- Stores a groundsheet. -/
def State.setGs (s : State) (n : Nat) (v : Gs) : State := { s with gss := tabSet (fun _ => {}) s.gss n v }

/-- The collective unit of a die. -/
def State.cu (s : State) (d : Nat) : Cu := tabGet (fun _ => {}) s.cus d

/-- Stores the collective unit of a die. -/
def State.setCu (s : State) (d : Nat) (v : Cu) : State := { s with cus := tabSet (fun _ => {}) s.cus d v }

/-- A fabric port. -/
def State.port (s : State) (p : Nat) : Port := tabGet (fun _ => {}) s.fab.ports p

/-- Stores a fabric port. -/
def State.setPort (s : State) (p : Nat) (v : Port) : State :=
  { s with fab := { s.fab with ports := tabSet (fun _ => {}) s.fab.ports p v } }

/-- A command queue. -/
def State.queue (s : State) (q : Nat) : Queue := tabGet (fun _ => {}) s.host.queues q

/-- Stores a command queue. -/
def State.setQueue (s : State) (q : Nat) (v : Queue) : State :=
  { s with host := { s.host with queues := tabSet (fun _ => {}) s.host.queues q v } }

/-- The compute die of a cell (R16). -/
def dieOf (c : Nat) : Nat := c / 64

/-! ### Output and free values -/

/-- Appends to what has left the block (DESIGN CHOICE, log entry 46). -/
def State.emit (s : State) (o : Output) : State := { s with out := s.out ++ [o] }

/-- A fresh free number (DESIGN CHOICE, log entry 5). -/
def State.drawNat (s : State) : Nat × State := (Config.freeNat s.free, { s with free := s.free + 1 })

/-- `n` fresh free bytes (DESIGN CHOICE, log entry 4). -/
def State.drawBytes (s : State) (n : Nat) : List Byte × State :=
  ((List.range n).map (fun i => Config.freeByte (s.free + i)), { s with free := s.free + n })

/-! ### Deadlines -/

/-- The time that 32 carried bits stand for at count `c` (R5): the value with those low bits in `(c − 2³¹, c + 2³¹]`. -/
def fullTime (c : Nat) (low : W32) : Int :=
  let d : Nat := (low.toNat + 2 ^ 32 - c % 2 ^ 32) % 2 ^ 32
  if d ≤ 2 ^ 31 then (c : Int) + d else (c : Int) + d - 2 ^ 32

/-- The next epoch, modulo `2³²` (R258). -/
def nextEpoch (e : W32) : W32 := e + 1

/-! ### The arbiter of R53 -/

/-- The first of `n` indices that asks, at or after `from` in ascending order. -/
def firstAsking (asks : Nat → Bool) : Nat → Nat → Option Nat
  | 0, _ => none
  | k + 1, i => if asks i then some i else firstAsking asks k (i + 1)

/-- The winner of a decision at count `t` among `n` requesters (R53). -/
def arbiter (n t : Nat) (asks : Nat → Bool) : Option Nat :=
  match firstAsking asks (n - t % n) (t % n) with
  | some i => some i
  | none => firstAsking asks (t % n) 0

/-- Does index `i` come at or after the pointer `t mod n`? Those that do go first (R53). -/
def ahead (n t i : Nat) : Bool := t % n ≤ i

/-- A list of requesters in ascending order, as repeated decisions of R53 at one count serve it. -/
def served (n t : Nat) (index : Nat → Nat) (l : List Nat) : List Nat :=
  l.filter (fun x => ahead n t (index x)) ++ l.filter (fun x => !ahead n t (index x))

/-- The compute dies in an order in which requests through the lower-numbered die of a groundsheet's pair go before or
after those through the other one, as the pointer of its request port says (R13, R15, Table 2-4). -/
def dieOrder (t : Nat) : List Nat := if t % 2 = 0 then [0, 4, 1, 5, 2, 6, 3, 7] else [3, 7, 2, 6, 1, 5, 0, 4]

/-- The cells of a die that hold any state, in the order of R53 with the cell's index on its die (Table 2-4: launch
collisions, remote scratchpad writes). -/
def State.dieCells (s : State) (d : Nat) : List Nat :=
  served 64 s.pitch (· % 64) ((s.cells.map (·.1)).filter (fun c => dieOf c == d))

/-- The cells that hold any state, in the order in which the requests of one tick are served. -/
def State.cellOrder (s : State) : List Nat := (dieOrder s.pitch).flatMap s.dieCells

/-- The same for requests to the pool directory: dies by R53 with n = 20, each die's cells with n = 64 (R294). -/
def State.poolOrder (s : State) : List Nat := (served 20 s.pitch id (List.range 8)).flatMap s.dieCells

/-- The same for repeat checks: by linear cell number with n = 512 (R206). -/
def State.rchkOrder (s : State) : List Nat := served 512 s.pitch id (s.cells.map (·.1))

/-! ### The host link -/

/-- Is an IDE stream in the insecure state (R452)? -/
def State.insecure (s : State) (k : Nat) : Bool := (tabGet (fun _ => {}) s.host.ide k).insecure

/-- Sends something to the host over CXL.io; while the link stream is insecure it waits (R452). -/
def State.toHost (s : State) (o : Output) : State :=
  if s.insecure 0 then { s with host := { s.host with held := s.host.held ++ [o] } } else s.emit o

/-- What has waited leaves once the link stream has new keys (R452). -/
def State.releaseHost (s : State) : State :=
  if s.insecure 0 then s else { s with out := s.out ++ s.host.held, host := { s.host with held := [] } }

/-! ### MSI-X -/

/-- Sends the message of a vector, or sets its pending bit while its entry is masked (R466). -/
def State.msix (s : State) (v : Nat) : State :=
  if (s.reg (Reg.msixTable (4 * v + 3))).getLsbD 0 then
    s.setFld (Reg.msixPending (v / 32)) (v % 32) 1 1
  else s.toHost (.msix v)

/-! ### Rings -/

/-- The registers of a ring: base, control, tail, head and lost count, its MSI-X vector, how many records it holds while
disabled, and whether it is the event ring (R464, R490). -/
structure RingRegs where
  baseLo : Nat
  baseHi : Nat
  ctrl : Nat
  tail : Nat
  head : Nat
  lost : Nat
  vector : Nat
  hold : Nat
  evt : Bool
  deriving DecidableEq, Repr

/-- The event ring (R464, R465). -/
def evtRing : RingRegs :=
  ⟨Reg.evtBaseLo, Reg.evtBaseHi, Reg.evtCtrl, Reg.evtTail, Reg.evtHead, Reg.evtLost, 64, 256, true⟩

/-- The clamp ring (R490). -/
def clampRing : RingRegs :=
  ⟨Reg.bootCringBaseLo, Reg.bootCringBaseHi, Reg.bootCringCtrl, Reg.bootCringTail, Reg.bootCringHead,
   Reg.bootCringLost, 65, 64, false⟩

/-- The state of a ring beside its registers. -/
def State.ring (s : State) (r : RingRegs) : Ring := if r.evt then s.host.evt else s.host.clamp

/-- Stores it. -/
def State.setRing (s : State) (r : RingRegs) (v : Ring) : State :=
  if r.evt then { s with host := { s.host with evt := v } } else { s with host := { s.host with clamp := v } }

/-- Slots of a ring: `2^LOG2N`. -/
def State.ringSize (s : State) (r : RingRegs) : Nat := 2 ^ s.fld r.ctrl 4 5

/-- Is the ring enabled? -/
def State.ringOn (s : State) (r : RingRegs) : Bool := s.fld r.ctrl 0 1 == 1

/-- Is the ring full: the next tail meets the head (R464)? -/
def State.ringFull (s : State) (r : RingRegs) : Bool :=
  (s.fld r.tail 0 16 + 1) % s.ringSize r == s.fld r.head 0 16 % s.ringSize r

/-- Writes one record at the tail, numbered and with its phase, and signals it (R464, R466, R490). -/
def State.ringWrite (s : State) (r : RingRegs) (rec : RingRec) : State :=
  let g := s.ring r
  let n := s.ringSize r
  let t := s.fld r.tail 0 16 % n
  let base := s.reg64 r.baseLo r.baseHi
  let q2 := if r.evt then s.epoch.setWidth 64 ||| (g.seq.setWidth 64 <<< 32) else rec.q2
  let q3 := if g.evenPass then rec.q3 else rec.q3 ||| 0x8000000000000000#64
  let s1 := s.toHost (.hostWrite (base + 32 * t) [rec.q0, rec.q1, q2, q3])
  let s2 := s1.setFld r.tail 0 16 ((t + 1) % n)
  let g1 : Ring :=
    { g with seq := g.seq + 1, evenPass := if t + 1 = n then !g.evenPass else g.evenPass,
             unsignalled := g.unsignalled + 1,
             firstTick := match g.firstTick with | some x => some x | none => some s.pitch }
  if s.fld r.ctrl 9 1 = 1 ∧ s.fld r.ctrl 16 8 ≤ g1.unsignalled then
    (s2.setRing r { g1 with unsignalled := 0, firstTick := none }).msix r.vector
  else s2.setRing r g1

/-- Counts one record dropped (R465, R490). -/
def State.ringLose (s : State) (r : RingRegs) : State :=
  let g := s.ring r
  (s.bump r.lost).setRing r { g with lost := g.lost + 1 }

/-- The record that reports records lost: EVT_OVERFLOW, or KIND 0xFF (R465, R490). -/
def overflowRec (r : RingRegs) (pitch lost : Nat) : RingRec :=
  let n := min lost 0xFFFFFFFF
  if r.evt then { q0 := BitVec.ofNat 64 pitch, q1 := BitVec.ofNat 64 (2 ^ 32 * n + 0x7FFF0803) }
  else { q0 := BitVec.ofNat 64 pitch, q1 := 0xFF#64, q2 := BitVec.ofNat 64 n, q3 := 0x00007FFF00000000#64 }

/-- Writes held records while slots are free, oldest first (R465, R490). -/
def State.ringHeld (r : RingRegs) : Nat → State → State
  | 0, s => s
  | f + 1, s =>
    let g := s.ring r
    match g.held with
    | [] => s
    | x :: xs => if s.ringFull r then s else State.ringHeld r f ((s.setRing r { g with held := xs }).ringWrite r x)

/-- Writes what waits, as far as the ring is enabled and has free slots: held records, then the overflow record; the
count of records that it reported lost, 0 where it wrote none (R465, R490). -/
def State.ringDrain (s : State) (r : RingRegs) : Nat × State :=
  if s.ringOn r then
    let s1 := State.ringHeld r (s.ring r).held.length s
    let g := s1.ring r
    if g.held.length = 0 ∧ 0 < g.lost ∧ ¬ s1.ringFull r then
      (g.lost, (s1.setRing r { g with lost := 0 }).ringWrite r (overflowRec r s.pitch g.lost))
    else (0, s1)
  else (0, s)

/-- Puts one record into a ring: held while it is disabled, written when nothing waits and a slot is free, else dropped
(R465, R490). The first component is as `ringDrain` gives. -/
def State.ringPut (s : State) (r : RingRegs) (rec : RingRec) : Nat × State :=
  if s.ringOn r then
    let (n, s1) := s.ringDrain r
    let g := s1.ring r
    if 0 < g.held.length ∨ 0 < g.lost ∨ s1.ringFull r then (n, s1.ringLose r) else (n, s1.ringWrite r rec)
  else
    let g := s.ring r
    if g.held.length < r.hold then (0, s.setRing r { g with held := g.held ++ [rec] }) else (0, s.ringLose r)

/-! ### Event records -/

/-- UNIT of a cell, of a groundsheet, of a die-level unit, of a port, of the management core (Table 15-6; DEDUCED, log entry 11). -/
def unitCell (c : Nat) : Nat := c
/-- UNIT of a groundsheet. -/
def unitGs (n : Nat) : Nat := 0x4000 + n
/-- UNIT of the die-level units of a compute die. -/
def unitDie (d : Nat) : Nat := 0x5000 + d
/-- UNIT of a fabric port. -/
def unitPort (p : Nat) : Nat := 0x6000 + p
/-- UNIT of the management core. -/
def unitMgmt : Nat := 0x7FFF

/-- Reports an event stamped with a given tick (Table 15-6). -/
def State.reportAt (s : State) (tick code unit data : Nat) : State :=
  (s.ringPut evtRing
    { q0 := BitVec.ofNat 64 tick, q1 := BitVec.ofNat 64 (code + 2 ^ 16 * (unit % 2 ^ 15) + 2 ^ 32 * (data % 2 ^ 32)) }).2

/-- Reports an event stamped with the present count (R51). -/
def State.report (s : State) (code unit data : Nat) : State := s.reportAt s.pitch code unit data

/-- Reports an event unless its source has reported it in the present interval of 1,024 ticks (R521). -/
def State.reportLim (s : State) (code source unit data : Nat) : State :=
  let key := 2 ^ 32 * code + source
  let k := s.pitch / 1024
  if alistGet s.rate key = some k then s
  else ({ s with rate := tabPut key k s.rate }).report code unit data

/-! ### Clamp records -/

/-- One clamp or reject of a read: word, lowest bit, value read, value applied, and whether it is a reject (R487). -/
structure ClampItem where
  word : Nat
  bit : Nat
  written : Nat
  applied : Nat
  reject : Bool := false
  deriving DecidableEq, Repr

/-- The record of Table 16-7. -/
def clampRec (pitch kind ident seq source : Nat) (torn : Bool) (i : ClampItem) : RingRec :=
  { q0 := BitVec.ofNat 64 pitch,
    q1 := BitVec.ofNat 64 (kind + 2 ^ 8 * b2n torn + 2 ^ 9 * b2n i.reject
      + 2 ^ 16 * (i.word % 16 + i.bit % 32 * 16) + 2 ^ 32 * (ident % 2 ^ 32)),
    q2 := BitVec.ofNat 64 (i.written % 2 ^ 32 + 2 ^ 32 * ((if i.reject then i.written else i.applied) % 2 ^ 32)),
    q3 := BitVec.ofNat 64 (seq % 2 ^ 32 + 2 ^ 32 * (source % 2 ^ 16)) }

/-- Puts a record into the clamp ring; a record of lost records is reported as CLAMP_OVERFLOW (R490). -/
def State.clampPut (s : State) (rec : RingRec) : State :=
  let (n, s1) := s.ringPut clampRing rec
  if 0 < n then s1.report 0x0711 unitMgmt (min n 0xFFFFFFFF) else s1

/-- Writes what waits for the clamp ring (R490). -/
def State.clampDrain (s : State) : State :=
  let (n, s1) := s.ringDrain clampRing
  if 0 < n then s1.report 0x0711 unitMgmt (min n 0xFFFFFFFF) else s1

/-- Counts a clamp or a reject (R489). -/
def State.countItem (s : State) (i : ClampItem) : State := s.bump (if i.reject then Reg.bootRejects else Reg.bootClamps)

/-- Records what a read of a descriptor found: the counts, DESC_TORN, and the records unless one of the last 256 reads
that wrote any was the same (R487, R489, R492). -/
def State.clampRead (s : State) (kind ident head tail source : Nat) (items : List ClampItem) : State :=
  let torn := head != tail
  if torn = false ∧ items.length = 0 then s else
  let s1 := if torn then (s.bump Reg.bootTorn).reportLim 0x0710 0 source (kind % 256 + 256 * (ident % 2 ^ 24)) else s
  let s2 := items.foldl State.countItem s1
  let key : ClampKey := ⟨kind, ident, head, tail⟩
  if s2.host.seen.contains key then s2 else
  let s3 := { s2 with host := { s2.host with seen := (key :: s2.host.seen).take 256 } }
  let s4 := if torn then s3.clampPut (clampRec s.pitch kind ident head source true ⟨0, 0, head, tail, false⟩) else s3
  items.foldl (fun t i => t.clampPut (clampRec s.pitch kind ident head source false i)) s4

/-- Records the clamp of a register field (R9, R488): KIND 0x08 and the BAR0 offset. -/
def State.clampReg (s : State) (off bit written applied : Nat) : State :=
  let i : ClampItem := ⟨0, bit, written, applied, false⟩
  (s.countItem i).clampPut (clampRec s.pitch 0x08 off 0 unitMgmt false i)

/-- Records the clamp of a RULE code of a vector control word (R84, R488): KIND 0x09, word 1, bit 18. -/
def State.clampRule (s : State) (c written applied : Nat) : State :=
  let i : ClampItem := ⟨1, 18, written, applied, false⟩
  (s.countItem i).clampPut (clampRec s.pitch 0x09 c 0 (unitCell c) false i)

end Sys2Proof.Machine
end

