-- ==== Sys2Proof/Machine/Operands.lean ====
section
/-! DEFINITION. Operand forms: the registers of a control core (Table 13-1), the fields of an instruction word (R392 to
R394), scratchpad operands (R288 to R290), header words (Table 11-5). -/

namespace Sys2Proof.Machine

/-! ### Registers of a control core -/

/-- A scalar register; s0 reads as 0 (Table 13-1). -/
def Cell.s (k : Cell) (n : Nat) : W64 := if n = 0 then 0 else tabGet (fun _ => 0) k.sreg n

/-- Writes a scalar register; a write to s0 is ignored (Table 13-1). -/
def Cell.setS (k : Cell) (n : Nat) (v : W64) : Cell :=
  if n = 0 then k else { k with sreg := tabSet (fun _ => 0) k.sreg n v }

/-- An address register. -/
def Cell.a (k : Cell) (n : Nat) : W32 := tabGet (fun _ => 0) k.areg n

/-- Writes an address register. -/
def Cell.setA (k : Cell) (n : Nat) (v : W32) : Cell := { k with areg := tabSet (fun _ => 0) k.areg n v }

/-- A predicate; p0 reads as 1 (Table 13-1). -/
def Cell.p (k : Cell) (n : Nat) : Bool := if n = 0 then true else k.preg.getLsbD n

/-- Writes a predicate; a write to p0 is ignored (Table 13-1). -/
def Cell.setP (k : Cell) (n : Nat) (v : Bool) : Cell :=
  if n = 0 then k
  else { k with preg := if v then k.preg ||| BitVec.ofNat 8 (2 ^ n) else k.preg &&& ~~~(BitVec.ofNat 8 (2 ^ n)) }

/-- The named address register and the one after it; beyond a15 there is none (R135). -/
def Cell.aPair (k : Cell) (n : Nat) : List W32 := if n < 15 then [k.a n, k.a (n + 1)] else [k.a n]

/-- Sign-extends the immediate of format I (Table 13-3). -/
def immI (v : BitVec 34) : W64 := v.signExtend 64

/-- Sign-extends the immediate of format U (Table 13-5, MOVI). -/
def immU (v : BitVec 40) : W64 := v.signExtend 64

/-! ### Fields of an instruction word -/

/-- The fields of format R that an instruction uses, and a mask of the bits of X that it uses (R394). -/
structure RUse where
  sd : Bool := false
  sa : Bool := false
  sb : Bool := false
  sc : Bool := false
  ax : Bool := false
  ay : Bool := false
  az : Bool := false
  x : Nat := 0
  deriving DecidableEq, Repr

/-- Every field that the instruction does not use is 0 (R394). -/
def rFits (u : RUse) (o : ROps) : Bool :=
  (u.sd || o.sd == 0) && (u.sa || o.sa == 0) && (u.sb || o.sb == 0) && (u.sc || o.sc == 0)
    && (u.ax || o.ax == 0) && (u.ay || o.ay == 0) && (u.az || o.az == 0)
    && o.x.toNat &&& (1023 - u.x) == 0

/-- The uses of the format R instructions of class 0x01, by minor opcode (Table 13-5). -/
def scalarUse (opc : Nat) : Option RUse :=
  if opc ≤ 0x0E then some { sd := true, sa := true, sb := true }
  else if opc = 0x0F then some { sd := true, sa := true, sb := true, x := 7 }
  else if 0x20 ≤ opc ∧ opc ≤ 0x25 then some { sd := true, sa := true, sb := true }
  else if 0x28 ≤ opc ∧ opc ≤ 0x2A then some { sd := true, sa := true, sb := true }
  else if opc = 0x30 then some { ax := true, sa := true }
  else if opc = 0x32 then some { ax := true, sd := true }
  else if opc = 0x48 ∨ opc = 0x49 then some { sd := true, sa := true, sb := true }
  else if opc = 0x4A then some { sd := true, sa := true, sb := true, sc := true }
  else if opc = 0x4B then some { sd := true, sa := true, x := 0xFF }
  else none

/-- The uses of the other format R instructions (Tables 13-6 to 13-8). -/
def engineUse (cls opc : Nat) : Option RUse :=
  match cls, opc with
  | 0x02, 0x02 => some { sa := true }
  | 0x02, 0x03 => some { sd := true, sa := true }
  | 0x03, 0x00 => some { sd := true, sa := true, sb := true }
  | 0x03, 0x01 => some { sd := true, sa := true, sb := true, ax := true, ay := true }
  | 0x03, 0x02 => some { sa := true, ax := true, ay := true }
  | 0x03, 0x03 => some {}
  | 0x04, 0x00 => some { sa := true, ax := true, x := 3 }
  | 0x04, 0x01 => some { sa := true, sb := true, sc := true, ax := true, ay := true, x := 3 }
  | 0x04, 0x02 => some { sa := true, ax := true, x := 3 }
  | 0x04, 0x03 => some { sd := true, x := 3 }
  | 0x04, 0x04 => some { x := 1 }
  | 0x05, 0x00 => some { sd := true, sa := true, sb := true, ax := true, ay := true, az := true, x := 0xFF }
  | 0x05, 0x01 => some {}
  | 0x05, 0x02 => some { sd := true, x := 1 }
  | 0x06, 0x00 => some { sd := true, sa := true, ax := true, ay := true }
  | 0x06, 0x01 => some { sd := true, sa := true, ax := true, ay := true }
  | 0x06, 0x02 => some { sd := true, sa := true, ax := true, ay := true }
  | 0x06, 0x03 => some { sd := true, sa := true, ax := true, ay := true }
  | 0x06, 0x04 => some { sd := true, sa := true, ax := true, ay := true }
  | 0x06, 0x08 => some { sd := true, sa := true }
  | 0x06, 0x09 => some { sa := true }
  | 0x07, 0x00 => some { sd := true, sa := true, sb := true, ax := true }
  | 0x07, 0x01 => some { sd := true, sa := true, sb := true, ax := true }
  | 0x07, 0x02 => some { sd := true, sa := true, sb := true, sc := true, ax := true }
  | 0x07, 0x03 => some { sd := true, sa := true }
  | 0x07, 0x04 => some { ax := true, x := 3 }
  | 0x07, 0x05 => some { sd := true, x := 3 }
  | 0x07, 0x06 => some { x := 3 }
  | 0x07, 0x07 => some { x := 3 }
  | 0x07, 0x08 => some { x := 1 }
  | 0x07, 0x10 => some { sd := true, sa := true }
  | 0x07, 0x11 => some { sd := true, sa := true }
  | 0x07, 0x12 => some { sd := true, sa := true }
  | 0x07, 0x13 => some { sd := true, sa := true }
  | 0x08, 0x00 => some { sa := true }
  | 0x08, 0x01 => some { sa := true }
  | 0x08, 0x02 => some { sa := true }
  | 0x08, 0x03 => some { sd := true }
  | 0x08, 0x04 => some {}
  | 0x09, 0x00 => some { x := 0xFF }
  | 0x09, 0x01 => some { sa := true, x := 0xFF }
  | 0x0A, 0x00 => some {}
  | 0x0A, 0x01 => some { sd := true, x := 0xFF }
  | 0x0A, 0x02 => some { sa := true, x := 0xFF }
  | 0x0A, 0x03 => some {}
  | 0x0A, 0x04 => some {}
  | 0x0A, 0x05 => some { x := 0xFF }
  | _, _ => none

/-- The uses of a format R instruction; none where no such instruction is listed. -/
def rUse (cls opc : Nat) : Option RUse := if cls = 0x01 then scalarUse opc else engineUse cls opc

/-- A register-naming field whose bits above those that name the register are not 0 (R394). -/
def rNames (cls opc : Nat) (o : ROps) : Bool :=
  if cls = 0x01 then
    (if 0x20 ≤ opc ∧ opc ≤ 0x25 then o.sd.toNat < 8
     else if 0x28 ≤ opc ∧ opc ≤ 0x2A then o.sd.toNat < 8 && o.sa.toNat < 8 && o.sb.toNat < 8 else true)
  else true

/-- FCVT names a listed pair of formats, else its effect is ILLEGAL_OP (R396): W32 to I32, I32 to W32, H16 to W32, W32 to H16. -/
def fcvtPair (x : Nat) : Bool :=
  let f := x % 16
  let t := x / 16 % 16
  (f == 5 && t == 7) || (f == 7 && t == 5) || (f == 4 && t == 5) || (f == 5 && t == 4)

/-- Runs of scalar registers that pass s63 (R394): a vector instruction reads s[SB] to s[SB + 3] and, where its control
word asks, s[SA + 1] and s[SA + 2]; a collective reads s[SA + 1]. The control word's runs are checked where it is read. -/
def rRuns (cls opc : Nat) (o : ROps) : Bool :=
  if cls = 0x05 ∧ opc = 0x00 then o.sb.toNat + 3 ≤ 63
  else if cls = 0x06 ∧ opc ≤ 0x04 then o.sa.toNat + 1 ≤ 63
  else true

/-- A format R instruction word is legal (R394). -/
def rLegal (cls opc : Nat) (o : ROps) : Bool :=
  match rUse cls opc with
  | none => false
  | some u => rFits u o && rNames cls opc o && rRuns cls opc o

/-- A format I instruction word is legal (R394): a field that names an address register has two bits above, one that
names a predicate three; BR has no scalar operand. -/
def iLegal (cls opc : Nat) (o : IOps) : Bool :=
  if cls = 0x01 then
    (if 0x10 ≤ opc ∧ opc ≤ 0x16 then true
     else if opc = 0x26 ∨ opc = 0x27 then o.sd.toNat < 8
     else if opc = 0x31 then o.sd.toNat < 16 && o.sa.toNat < 16
     else if 0x38 ≤ opc ∧ opc ≤ 0x3E then o.sa.toNat < 16
     else if 0x40 ≤ opc ∧ opc ≤ 0x43 then o.sa.toNat < 16
     else false)
  else if cls = 0x02 then
    (if opc = 0x00 then o.sd == 0 && o.sa == 0
     else if opc = 0x01 then o.sa == 0
     else if opc = 0x04 then o.sa == 0
     else false)
  else false

/-- A format U instruction word is legal (R394; MOVHI needs IMM[39:24] = 0). -/
def uLegal (opc : Nat) (o : UOps) : Bool :=
  if opc = 0x18 then true else if opc = 0x19 then o.imm.toNat < 2 ^ 24 else false

/-! ### Instruction words -/

/-- The class of an instruction word (R392). -/
def wordClass (w : W64) : Nat := field w.toNat 63 58
/-- Its minor opcode. -/
def wordOpc (w : W64) : Nat := field w.toNat 53 46

/-- The operands of a word in format R (Table 13-3). -/
def wordR (w : W64) : ROps :=
  { gneg := w.getLsbD 57, gp := BitVec.ofNat 3 (field w.toNat 56 54), sd := BitVec.ofNat 6 (field w.toNat 45 40),
    sa := BitVec.ofNat 6 (field w.toNat 39 34), sb := BitVec.ofNat 6 (field w.toNat 33 28),
    sc := BitVec.ofNat 6 (field w.toNat 27 22), ax := BitVec.ofNat 4 (field w.toNat 21 18),
    ay := BitVec.ofNat 4 (field w.toNat 17 14), az := BitVec.ofNat 4 (field w.toNat 13 10),
    x := BitVec.ofNat 10 (field w.toNat 9 0) }

/-- The operands of a word in format I. -/
def wordI (w : W64) : IOps :=
  { gneg := w.getLsbD 57, gp := BitVec.ofNat 3 (field w.toNat 56 54), sd := BitVec.ofNat 6 (field w.toNat 45 40),
    sa := BitVec.ofNat 6 (field w.toNat 39 34), imm := BitVec.ofNat 34 (field w.toNat 33 0) }

/-- The operands of a word in format U. -/
def wordU (w : W64) : UOps :=
  { gneg := w.getLsbD 57, gp := BitVec.ofNat 3 (field w.toNat 56 54), sd := BitVec.ofNat 6 (field w.toNat 45 40),
    imm := BitVec.ofNat 40 (field w.toNat 39 0) }

/-- An instruction word is legal (R394): its class and opcode are listed, and its fields fit. -/
def wordLegal (w : W64) : Bool :=
  let c := wordClass w
  let p := wordOpc w
  if c = 0x01 ∧ (p = 0x18 ∨ p = 0x19) then uLegal p (wordU w)
  else match rUse c p with
    | some _ => rLegal c p (wordR w)
    | none => iLegal c p (wordI w)

/-! ### Scratchpad operands -/

/-- The addressable bytes of a slice (R287, R288): 6 MiB. -/
def sliceBytes : Nat := 6291456

/-- Is the whole of `[a, a + n)` in the addressable scratchpad of one slice (R288)? -/
def spadIn (a n : Nat) : Bool := a < 2 ^ 32 && a % 2 ^ 23 + n ≤ sliceBytes

/-- The cell whose slice holds a scratchpad address (R288). -/
def spadCell (a : Nat) : Nat := a / 2 ^ 23

end Sys2Proof.Machine
end

