-- ==== Sys2Proof/Machine/Flags.lean ====
section
/-! DEFINITION. Flags: the step flags of Table 9-3, the sticky number status of a cell, the error correction of
scratchpad, and the report of a reserved format. -/

namespace Sys2Proof.Machine

/-- NONFINITE (Table 9-3). -/
def flagNonfinite : BitVec 4 := 1
/-- ECC_UNCORR. -/
def flagEcc : BitVec 4 := 2
/-- DEADLINE_FATAL. -/
def flagDeadline : BitVec 4 := 4
/-- USER_ABORT. -/
def flagAbort : BitVec 4 := 8

/-- Is the module in OPEN or SEALED? -/
def State.stepping (s : State) : Bool := s.step.mode == .opened || s.step.mode == .sealed

/-- Has the count reached the latched T_seal? -/
def State.pastSeal (s : State) : Bool :=
  match s.step.tseal with
  | some t => t ≤ s.pitch
  | none => false

/-- Is the count at an application tick whose verdict has not been applied yet? -/
def State.atVerdict (s : State) : Bool :=
  s.step.mode == .sealed && (match s.step.applyAt with | some t => decide (t ≤ s.pitch) | none => false)

/-- Raises a flag for an epoch, placed by R271; one raised in the application tick belongs to the step that begins in it
(R259). -/
def State.raiseFlag (s : State) (f : BitVec 4) (e : W32) : State :=
  if s.stepping then
    if s.atVerdict ∧ e = s.epoch then { s with step := { s.step with early := s.step.early ||| f } }
    else if s.atVerdict ∧ e = nextEpoch s.epoch then { s with step := { s.step with earlyNext := s.step.earlyNext ||| f } }
    else if e = s.epoch then
      if s.step.mode = .opened ∧ ¬ s.pastSeal then { s with step := { s.step with flags := s.step.flags ||| f } }
      else { s with step := { s.step with pend := s.step.pend ||| f } }
    else if e = nextEpoch s.epoch then { s with step := { s.step with pend := s.step.pend ||| f } }
    else s.bump Reg.modFlagsDropped
  else s.bump Reg.modFlagsDropped

/-- Sets bits of a cell's sticky W1C status registers, CELL_NUM_STATUS (Table 4-8). -/
def State.numStatus (s : State) (c : Nat) (bits : Nat) : State :=
  s.setReg (Reg.cellNumStatus c) (s.reg (Reg.cellNumStatus c) ||| BitVec.ofNat 32 bits)

/-- The seven status bits of a unit of work (Tables 4-8 and 6-9). -/
def flagBits (f : NFlags) : Nat :=
  b2n f.nan + 2 * b2n f.ovf + 4 * b2n f.sat + 8 * b2n f.scaleinv + 16 * b2n f.empty + 32 * b2n f.allnan
    + 64 * b2n f.nandrop

/-- Joins the status of a vector instruction into CELL_VS_STATUS and CELL_NUM_STATUS (R185, R188). -/
def State.vsFlags (s : State) (c : Nat) (f : NFlags) : State :=
  let s1 := s.setReg (Reg.cellVsStatus c) (s.reg (Reg.cellVsStatus c) ||| BitVec.ofNat 32 (flagBits f))
  (s1.bumpFld (Reg.cellVsStatus c) 16 16 f.satcnt).numStatus c (flagBits f)

/-- Reports a reserved format code that reached a cell, counts it, and raises USER_ABORT for the step it belongs to
(R61, R96). -/
def State.cellReserved (s : State) (c code layer : Nat) (step : Option W32) : State :=
  let s1 := (s.setFld (Reg.cellFmtLast c) 0 4 code).bumpFld (Reg.cellFmtLast c) 16 16 1
  let s2 := s1.reportLim 0x0501 c (unitCell c) (c + 2 ^ 16 * code + 2 ^ 20 * (layer % 2 ^ 12))
  match step with
  | some e => s2.raiseFlag flagAbort e
  | none => s2

/-- Reports a reserved format code that reached a groundsheet or the collective unit of a die, under the code of that unit,
0x8000 + n or 0xA000 + d (R61, R96; DESIGN CHOICE, log entry 60 for 0xA000 + d, which Table 3-15 does not give). -/
def State.fmtReport (s : State) (unit code fmt layer : Nat) : State :=
  s.reportLim 0x0501 code unit (code + 2 ^ 16 * fmt + 2 ^ 20 * (layer % 2 ^ 12))

/-- A reserved format code has reached a groundsheet with an item of an epoch (R61, R96). -/
def State.gsReserved (s : State) (n code layer : Nat) (e : W32) : State :=
  (s.fmtReport (unitGs n) (0x8000 + n) code layer).raiseFlag flagAbort e

/-- A reserved format code has reached the collective unit of a die with an item of an epoch (R61, R96). -/
def State.cuReserved (s : State) (d code layer : Nat) (e : W32) : State :=
  (s.fmtReport (unitDie d) (0xA000 + d) code layer).raiseFlag flagAbort e

/-! ### Scratchpad -/

/-- Does a word of `w` bytes at index `i` overlap `[a, a + n)`? -/
def wordHits (w a n i : Nat) : Bool := 0 < n && i * w < a + n && a < i * w + w

/-- An uncorrectable word of scratchpad is read (R290; DESIGN CHOICE, log entry 54). -/
def State.spadUe (s : State) (i : Nat) : State :=
  let c := spadCell (i * 8)
  let s1 := (s.bump (Reg.cellSpadUe c)).report 0x0305 (unitCell c) (c + 2 ^ 16 * b2n s.stepping)
  if s.stepping then s1.raiseFlag flagEcc s.epoch else s1

/-- A correctable word of scratchpad is read: counted and written back (R290). -/
def State.spadCorrect (s : State) (i : Nat) : State :=
  { s.bump (Reg.cellSpadCe (spadCell (i * 8))) with spadCe := s.spadCe.filter (· != i) }

/-- The effects of reading `[a, a + n)` of scratchpad (R290). -/
def State.spadTouch (s : State) (a n : Nat) : State :=
  if s.spadErr.isEmpty && s.spadCe.isEmpty then s
  else
    let s1 := (s.spadCe.filter (wordHits 8 a n)).foldl State.spadCorrect s
    (s.spadErr.filter (wordHits 8 a n)).foldl State.spadUe s1

/-- Bytes of scratchpad, as stored. -/
def State.spadBytes (s : State) (a n : Nat) : List Byte := memBytes s.spad a n

/-- A little-endian number in scratchpad. -/
def State.spadNat (s : State) (a n : Nat) : Nat := memNat s.spad a n

/-- A status word that is not defined (R153; DESIGN CHOICE, log entry 29). -/
def openTsw (free : Nat) : Tsw :=
  { nan := Config.freeBool free, ovf := Config.freeBool (free + 1), scaleinv := Config.freeBool (free + 2),
    expjump := Config.freeBool (free + 3),
    first := if Config.freeBool (free + 4) then some (Config.freeNat (free + 4) % 2 ^ 32) else none }

/-- A tile whose elements are not defined (R153; DESIGN CHOICE, log entry 29). -/
def Tile.opened (free : Nat) (t : Tile) : Tile :=
  { t with elems := (List.range t.elems.length).map (fun i => Config.freeW32 (free + i)), tsw := openTsw free }

/-- The handles of a cell whose operands, not known to be read, share a byte with one of some spans (R153). -/
def Cell.hitBy (k : Cell) (l : List (Nat × Nat)) : List Nat :=
  ((k.mxReads.filter (fun r => l.any (fun w => r.2.1 < w.1 + w.2 && w.1 < r.2.1 + r.2.2))).map (·.1)).dedup

/-- A cell after other units have written such spans: the tiles on the handles hit, and the status words of tiles ended on
them, are not defined (R153). -/
def Cell.raced (free : Nat) (hs : List Nat) (k : Cell) : Cell :=
  if hs.isEmpty then k
  else { k with mxRaced := (k.mxRaced ++ hs).dedup,
                tiles := k.tiles.map (fun t => if hs.contains t.h then t.opened (free + 2 ^ 14 * t.h) else t),
                lastTsw := k.lastTsw.map (fun p =>
                  if hs.contains p.1 then (p.1, tswWord (openTsw (free + 2 ^ 14 * p.1 + 8))) else p) }

/-- The vector results that rest on handles hit by some spans (R153). -/
def State.derivedBy (s : State) (l : List (Nat × Nat)) : List (Nat × Nat) :=
  s.cells.flatMap (fun p =>
    let hs := p.2.hitBy l
    (p.2.mxDerived.filter (fun d => hs.contains d.1 && 0 < d.2.2)).map (·.2))

/-- The vector results that rest on such spans, those made of what the first ones have made among them. -/
def State.derivedFrom (s : State) (l : List (Nat × Nat)) : Nat → List (Nat × Nat)
  | 0 => s.derivedBy l
  | f + 1 =>
    let d := s.derivedFrom l f
    (d ++ s.derivedBy d).dedup

/-- The registers of a cell that rest on ended tiles of handles hit: CELL_TSW_LAST and CELL_NF_TILES (R153). -/
def State.raceRegs (hit : Nat → List Nat) (s : State) (c : Nat) : State :=
  let k := s.cell c
  let hs := hit c
  if k.lastTsw.any (fun p => hs.contains p.1) then
    let s1 := s.setReg (Reg.cellNfTiles c) (Config.freeW32 (s.free + 2 ^ 35 + 4 * c))
    match k.tswLastH with
    | some h =>
      if hs.contains h then
        s1.setReg64 (Reg.cellTswLastLo c) (Reg.cellTswLastHi c) (tswWord (openTsw (s.free + 2 ^ 16 * c + 2 ^ 14 * h + 8))).toNat
      else s1
    | none => s1
  else s

/-- The effect of a write of `[a, a + n)` of scratchpad on matrix instructions that have not been fenced (R153; DESIGN
CHOICE, log entry 29): what rests on the operands is not defined, the bytes that vector instructions made of it among it. -/
def State.raceWrite (s : State) (a n : Nat) : State :=
  if s.cells.all (fun p => p.2.mxReads.isEmpty) then s
  else
    let d := s.derivedFrom [(a, n)] (s.cells.map (fun p => p.2.mxDerived.length)).sum
    let hit := fun c : Nat => (s.cell c).hitBy ((a, n) :: d)
    let s1 := (s.cells.map (·.1)).foldl (State.raceRegs hit) s
    { s1 with
      cells := s.cells.map (fun p => (p.1, p.2.raced (s.free + 2 ^ 16 * p.1) (p.2.hitBy ((a, n) :: d)))),
      spad := d.foldl (fun m x => memWrite m x.1 ((List.range x.2).map (fun i => Config.freeByte (s.free + 2 ^ 36 + x.1 + i))))
        s.spad,
      free := s.free + 2 ^ 37 }

/-- Writes bytes of scratchpad; a word written whole loses its error. -/
def State.spadWrite (s0 : State) (a : Nat) (bs : List Byte) : State :=
  let s := s0.raceWrite a bs.length
  let keep := fun i : Nat => !(a ≤ i * 8 && i * 8 + 8 ≤ a + bs.length)
  { s with spad := memWrite s.spad a bs, spadErr := s.spadErr.filter keep, spadCe := s.spadCe.filter keep }

/-! ### Headers -/

/-- The sixteen words of a header as a number per word (Table 11-5). -/
def hdrWords (h : Hdr) : List Nat :=
  [ h.kind.toNat + 2 ^ 8 * h.fmt.toNat + 2 ^ 12 * h.blk.toNat + 2 ^ 16 * h.mittens.toNat,
    h.scaleLoc.toNat, h.dim0.toNat, h.dim1.toNat, h.layer.toNat + 2 ^ 20 * h.mb.toNat, h.flags.toNat,
    h.epoch.toNat, h.deadline.toNat, h.src.toNat + 2 ^ 17 * h.srcUnit.toNat,
    h.tag.toNat + 2 ^ 15 * b2n h.resp + 2 ^ 16 * h.chan.toNat, h.len.toNat,
    field h.arg.toNat 31 0, field h.arg.toNat 63 32, field h.arg.toNat 95 64, field h.arg.toNat 127 96,
    h.dst.toNat + 2 ^ 17 * h.dstUnit.toNat ]

/-- The 64 bytes of a header (R339, R3). -/
def hdrBytes (h : Hdr) : List Byte := (hdrWords h).flatMap (leBytes 4)

/-- Word `i` of a list of header words. -/
def nthWord (ws : List Nat) (i : Nat) : Nat := ws.getD i 0

/-- The header that sixteen words hold (Table 11-5). -/
def hdrOf (ws : List Nat) : Hdr :=
  let w := nthWord ws
  { kind := BitVec.ofNat 8 (w 0), fmt := BitVec.ofNat 4 (field (w 0) 11 8), blk := BitVec.ofNat 4 (field (w 0) 15 12),
    mittens := BitVec.ofNat 8 (field (w 0) 23 16), scaleLoc := BitVec.ofNat 16 (w 1), dim0 := BitVec.ofNat 24 (w 2),
    dim1 := BitVec.ofNat 32 (w 3), layer := BitVec.ofNat 20 (w 4), mb := BitVec.ofNat 4 (field (w 4) 23 20),
    flags := BitVec.ofNat 9 (w 5), epoch := BitVec.ofNat 32 (w 6), deadline := BitVec.ofNat 32 (w 7),
    src := BitVec.ofNat 17 (w 8), srcUnit := BitVec.ofNat 15 (field (w 8) 31 17), tag := BitVec.ofNat 15 (w 9),
    resp := (w 9).testBit 15, chan := BitVec.ofNat 16 (field (w 9) 31 16), len := BitVec.ofNat 32 (w 10),
    arg := BitVec.ofNat 128 (w 11 + 2 ^ 32 * w 12 + 2 ^ 64 * w 13 + 2 ^ 96 * w 14),
    dst := BitVec.ofNat 17 (w 15), dstUnit := BitVec.ofNat 15 (field (w 15) 31 17) }

/-- The header at a scratchpad address. -/
def State.spadHdr (s : State) (a : Nat) : Hdr := hdrOf ((List.range 16).map (fun i => s.spadNat (a + 4 * i) 4))

/-- Bit `i` of a header's flag word (word 5 of Table 11-5). -/
def hdrFlag (h : Hdr) (i : Nat) : Bool := h.flags.getLsbD i

/-- A header with bit `i` of its flag word set or cleared. -/
def setHdrFlag (h : Hdr) (i : Nat) (b : Bool) : Hdr :=
  { h with flags := if b then h.flags ||| BitVec.ofNat 9 (2 ^ i) else h.flags &&& ~~~(BitVec.ofNat 9 (2 ^ i)) }

end Sys2Proof.Machine
end

