-- ==== Sys2Proof/Machine/Issue.lean ====
section
/-! DEFINITION. Issue of Boloc instructions on a control core: guard, legality, stalls, exceptions (R390 to R407), and
the effect of a halt. -/

namespace Sys2Proof.Machine

/-- ILLEGAL_OP (Table 13-10). -/
def excIllegalOp : Nat := 0x01
/-- ILLEGAL_ACTION. -/
def excIllegalAction : Nat := 0x02
/-- SC_ADDR. -/
def excScAddr : Nat := 0x03
/-- SC_ALIGN. -/
def excScAlign : Nat := 0x04
/-- BR_TARGET. -/
def excBrTarget : Nat := 0x05
/-- TRAP. -/
def excTrap : Nat := 0x06
/-- IMEM_UNCORR. -/
def excImemUncorr : Nat := 0x07

/-- What the effect of an instruction comes to: it is done and the core goes on to the next word; it is done and the
core goes to a word index; it is done and has set PC and state itself; it raises a cause, with a TRAP code, or a cause
found by reading a descriptor, whose read counts; it stalls, or stalls having changed the state. -/
inductive Eff where
  | done (s : State)
  | jump (target : Int) (s : State)
  | placed (s : State)
  | exc (cause : Nat) (trap : Nat)
  | excRead (s : State) (cause : Nat)
  | stall
  | wait (s : State)
  deriving DecidableEq, Repr

/-- The registers of the module that an exception updates: CELL_CORE_EXCCNT, CELL_CORE_EXC, and CELL_MX_EXC or
CELL_VS_EXC for a matrix or vector cause (R402). -/
def State.excRegs (s : State) (c cause : Nat) (pc : BitVec 12) : State :=
  let s1 := s.bump (Reg.cellCoreExccnt c)
  let s2 := s1.setReg (Reg.cellCoreExc c) (BitVec.ofNat 32 (cause + 2 ^ 16 * pc.toNat))
  if 0x10 ≤ cause ∧ cause ≤ 0x14 then (s2.setFld (Reg.cellMxExc c) 0 8 cause).bumpFld (Reg.cellMxExc c) 16 16 1
  else if 0x20 ≤ cause ∧ cause ≤ 0x24 then (s2.setFld (Reg.cellVsExc c) 0 8 cause).bumpFld (Reg.cellVsExc c) 16 16 1
  else s2

/-- The ECAUSE word (Table 13-9). -/
def ecauseWord (cause cls opc trap : Nat) : W32 :=
  BitVec.ofNat 32 (cause % 2 ^ 8 + 2 ^ 8 * (cls % 2 ^ 6) + 2 ^ 14 * (opc % 2 ^ 8) + 2 ^ 24 * (trap % 2 ^ 8))

/-- Takes an exception on a core (R402): ECAUSE and EPC are written; with EVEC.EN set and ACTIVE clear the core sets
ACTIVE and continues at EVEC, else it stops with STATE FAULTED and reports CELL_HALT. -/
def State.takeExc (s : State) (c cls opc cause trap : Nat) : State :=
  let k := s.cell c
  let k1 := { k with ecause := ecauseWord cause cls opc trap, epc := k.pc, stall := none }
  let s1 := s.excRegs c cause k.pc
  if k.evecEn && !k.active then s1.setCell c { k1 with active := true, pc := k.evec }
  else (s1.setCell c { k1 with run := .faulted }).report 0x0740 (unitCell c)
    (c + 2 ^ 16 * (cause % 2 ^ 8) + 2 ^ 24 * b2n k.active)

/-- Returns from a handler (R404): ACTIVE is cleared and the core continues at EPC. -/
def Cell.eret (k : Cell) : Cell := { k with active := false, pc := k.epc }

/-- Counts one instruction issued, in CELL_CORE_INSNS in units of 1,024 (Table 13-13). -/
def State.countInsn (s : State) (c : Nat) : State :=
  let k := s.cell c
  if k.insns = 1023 then (s.setCell c { k with insns := 0 }).bump (Reg.cellCoreInsns c)
  else s.setCell c { k with insns := k.insns + 1 }

/-- Writes the store buffer of a cell out, oldest first (R390). -/
def State.drainStores (s : State) (c : Nat) : State :=
  let k := s.cell c
  if k.stores.isEmpty then s
  else
    let t := k.stores.foldl (fun t e => t.spadWrite e.addr e.bytes) s
    t.setCell c { t.cell c with stores := [] }

/-- Moves PC on and ends a stall. -/
def State.setPc (s : State) (c : Nat) (pc : Nat) : State :=
  s.setCell c { s.cell c with pc := BitVec.ofNat 12 pc, stall := none }

/-- A core that may issue this instruction: the module works, the core is RUNNING, and no other instruction is stalled
in front (R406, R407, R435). -/
def State.canIssue (s : State) (c : Nat) (i : Instr) : Bool :=
  s.works && (s.cell c).run == .running
    && (match (s.cell c).stall with | none => true | some j => decide (j = i))

/-- Ends the issue of an instruction of `len` words with its effect (R395, R402; DEDUCED, log entry 45 for the order of
causes). -/
def State.finish (s : State) (c : Nat) (i : Instr) (cls opc len : Nat) : Eff → State
  | .done t => if (s.cell c).pc.toNat + len ≤ 4095 then (t.setPc c ((s.cell c).pc.toNat + len)).countInsn c
      else s.takeExc c cls opc excBrTarget 0
  | .jump tgt t => if 0 ≤ tgt ∧ tgt ≤ 4095 then (t.setPc c tgt.toNat).countInsn c
      else s.takeExc c cls opc excBrTarget 0
  | .placed t => t.countInsn c
  | .exc cause trap => s.takeExc c cls opc cause trap
  | .excRead t cause => t.takeExc c cls opc cause 0
  | .stall => s.setCell c { s.cell c with stall := some i }
  | .wait t => t.setCell c { t.cell c with stall := some i }

/-- Classes and instructions that wait for the store buffer to be empty (R390): 0x03 to 0x07, and LAUNCH.AT. -/
def waitsStores (cls opc : Nat) : Bool := (3 ≤ cls && cls ≤ 7) || (cls == 8 && opc == 0)

/-- A correctable error of a word of instruction memory is corrected and counted when the word is fetched (R405). -/
def State.correctWord (s : State) (c i : Nat) : State :=
  let k := s.cell c
  if k.imemCe.contains i then
    (s.setCell c { k with imemCe := k.imemCe.filter (· != i) }).bump (Reg.cellImemCe c)
  else s

/-- The word at PC is fetched. -/
def State.fetchCe (s : State) (c : Nat) : State := s.correctWord c (s.cell c).pc.toNat

/-- The word after it is fetched too: the action of a LAUNCH.AT, which issues with it (R398, R405). -/
def State.fetchNext (s : State) (c : Nat) : State := s.correctWord c ((s.cell c).pc.toNat + 1)

/-- Issues one instruction of `len` words on a core that may issue it: an uncorrectable word, then legality (R394), then
the guard (R393), then registers still owed (R407), then the store buffer (R390), then the effect. -/
def State.issue (s0 : State) (c : Nat) (i : Instr) (gneg : Bool) (gp : BitVec 3) (cls opc len : Nat) (legal : Bool)
    (uses : List Nat) (eff : State → Eff) : State :=
  let s := s0.fetchCe c
  let k := s.cell c
  if k.imemErr.contains k.pc.toNat then s.takeExc c cls opc excImemUncorr 0
  else if legal = false then s.takeExc c cls opc excIllegalOp 0
  else if (k.p gp.toNat ^^ gneg) = false then s.finish c i cls opc len (.done s)
  else if uses.any (fun r => k.owed.contains r) then s.finish c i cls opc len .stall
  else
    let t := if waitsStores cls opc then s.drainStores c else s
    t.finish c i cls opc len (eff t)

/-- The meaning of a Boloc instruction: issued when its core may issue it, else turned away; a cell above 511 is a fault
(R16). The command carries the instruction (DESIGN CHOICE, log entry 46). -/
def coreStep (c : Nat) (i : Instr) (gneg : Bool) (gp : BitVec 3) (cls opc len : Nat) (legal : Bool) (uses : List Nat)
    (eff : State → Eff) (s : State) : Out :=
  onUnit (c < 512) (whenOk (s.canIssue c i) s (s.issue c i gneg gp cls opc len legal uses eff))

/-- A format R instruction of one word (Table 13-3). -/
def coreR (c : Nat) (i : Instr) (o : ROps) (cls opc : Nat) (uses : List Nat) (eff : State → Eff) (s : State) : Out :=
  coreStep c i o.gneg o.gp cls opc 1 (rLegal cls opc o) uses eff s

/-- A format I instruction. -/
def coreI (c : Nat) (i : Instr) (o : IOps) (cls opc : Nat) (uses : List Nat) (eff : State → Eff) (s : State) : Out :=
  coreStep c i o.gneg o.gp cls opc 1 (iLegal cls opc o) uses eff s

/-- A format U instruction. -/
def coreU (c : Nat) (i : Instr) (o : UOps) (opc : Nat) (uses : List Nat) (eff : State → Eff) (s : State) : Out :=
  coreStep c i o.gneg o.gp 0x01 opc 1 (uLegal opc o) uses eff s

/-- The effect of writing a scalar register. -/
def effS (c : Nat) (sd : Nat) (v : W64) (s : State) : Eff := .done (s.setCell c ((s.cell c).setS sd v))

/-- The effect of writing a predicate. -/
def effP (c : Nat) (pd : Nat) (v : Bool) (s : State) : Eff := .done (s.setCell c ((s.cell c).setP pd v))

/-- The effect of writing an address register. -/
def effA (c : Nat) (ad : Nat) (v : W32) (s : State) : Eff := .done (s.setCell c ((s.cell c).setA ad v))

/-- Stops the core of a cell as CELL_CORE_CTRL.HALT does (R406): STATE HALTED, a stalled instruction abandoned; PC stands
at the next instruction, or at the stalled one. -/
def Cell.halt (k : Cell) : Cell := if k.run = .running then { k with run := .halted, stall := none } else k

/-- Stops every core as HALT does (R435). -/
def State.haltAll (s : State) : State := s.mapCells Cell.halt

end Sys2Proof.Machine
end

