-- ==== Sys2Proof/Machine/Hbm.lean ====
section
/-! DEFINITION. The pool as frames of HBM: directory, frames, versions of a page, use of classes, error correction,
far-tier addressing, evictions and bring-ups (R291 to R323). -/

namespace Sys2Proof.Machine

/-- Logical pages of the pool (R291). -/
def poolPages : Nat := 294912
/-- Frames of a stack. -/
def stackFrames : Nat := 24576
/-- Bytes of a page or frame: 2 MiB. -/
def pageBytes : Nat := 2097152
/-- Bytes of a segment of a fly version (R262). -/
def segBytes : Nat := 65536

/-- A frame of a stack as one number. -/
def frameNo (stack frame : Nat) : Nat := stackFrames * stack + frame
/-- The stack of a frame. -/
def frameStack (f : Nat) : Nat := f / stackFrames
/-- The frame within its stack. -/
def frameIdx (f : Nat) : Nat := f % stackFrames

/-! ### Directory -/

/-- The VALID entry of a page, if it has one (R292). -/
def State.dir (s : State) (p : Nat) : Option DirEntry := if p < poolPages then alistGet s.pool.dir p else none

/-- Stores the entry of a page. -/
def State.setDir (s : State) (p : Nat) (e : DirEntry) : State :=
  { s with pool := { s.pool with dir := tabPut p e s.pool.dir } }

/-- Clears the entry of a page. -/
def State.delDir (s : State) (p : Nat) : State := { s with pool := { s.pool with dir := tabDel p s.pool.dir } }

/-- Does the pool serve data accesses (R522)? -/
def State.poolOn (s : State) : Bool := s.fld Reg.poolCtrl 0 1 == 1

/-- Is a page readable by a unit: the pool serves accesses and the page is VALID (R522, R523)? -/
def State.pageOk (s : State) (p : Nat) : Bool := s.poolOn && (s.dir p).isSome

/-- Is a page VALID and held in the far tier? -/
def State.pageFar (s : State) (p : Nat) : Bool := match s.dir p with | some e => e.far | none => false

/-- Can a unit read a page now: it is served, and resident? -/
def State.pageHere (s : State) (p : Nat) : Bool := s.pageOk p && !s.pageFar p

/-- Sets LASTUSE of a page to the present count (R297). -/
def State.usePage (s : State) (p : Nat) : State :=
  match s.dir p with
  | some e => s.setDir p { e with lastuse := s.pitch / 2 ^ 14 % 2 ^ 28 }
  | none => s

/-! ### Frames -/

/-- What a frame holds; a frame not listed is free. -/
def State.frameUse (s : State) (f : Nat) : Option FrameUse := alistGet s.pool.frames f

/-- Gives a frame a use. -/
def State.setFrame (s : State) (f : Nat) (u : FrameUse) : State :=
  { s with pool := { s.pool with frames := tabPut f u s.pool.frames } }

/-- Frames of a stack that are not free. -/
def State.usedFrames (s : State) (n : Nat) : Nat := (s.pool.frames.filter (fun p => frameStack p.1 == n)).length

/-- Free frames of a stack (POOL_FREE_n). -/
def State.freeFrames (s : State) (n : Nat) : Nat := stackFrames - s.usedFrames n

/-- A stack whose free frames have reached POOL_HIWATER evicts no further until they fall below POOL_LOWATER again (R299). -/
def State.noteFree (s : State) (n : Nat) : State :=
  let ends := s.fld Reg.poolHiwater 0 16 ≤ s.freeFrames n
  { s with pool := { s.pool with evictOn := if ends then s.pool.evictOn.filter (· != n) else s.pool.evictOn } }

/-- Frees a frame. -/
def State.freeFrame (s : State) (f : Nat) : State :=
  ({ s with pool := { s.pool with frames := tabDel f s.pool.frames } }).noteFree (frameStack f)

/-- FAR_EVICT_SIZE. -/
def State.evictSize (s : State) : Nat := s.fld Reg.farEvictSize 0 24

/-- FAR_EVICT_MAP. -/
def State.evictMap (s : State) : Nat := s.fld Reg.farEvictMap 0 19

/-- Is an eviction region set, and its map page of class SYS and pegged (R305)? -/
def State.evictReady (s : State) : Bool :=
  0 < s.evictSize && (match s.dir s.evictMap with | some e => e.cls == 0 && e.peg && !e.far | none => false)

/-- A stack whose free frames have fallen below POOL_LOWATER begins to evict, where eviction is on and a region set (R299). -/
def State.noteTaken (s : State) (n : Nat) : State :=
  let starts := s.freeFrames n < s.fld Reg.poolLowater 0 16 ∧ s.fld Reg.poolCtrl 1 1 = 1 ∧ s.evictReady
    ∧ s.pool.evictOn.contains n = false
  { s with pool := { s.pool with evictOn := if starts then n :: s.pool.evictOn else s.pool.evictOn } }

/-- Retired frames of a stack (POOL_RETIRED_n). -/
def State.retiredFrames (s : State) (n : Nat) : Nat :=
  (s.pool.frames.filter (fun p => frameStack p.1 == n && p.2 == .retired)).length

/-- The class that a frame counts for (R296): its page's, FLY for a fly version; none for a frame that holds no page. -/
def State.frameClass (s : State) : FrameUse → Option Nat
  | .page p => (s.dir p).map (·.cls)
  | .fly _ => some 3
  | .old p => (s.dir p).map (·.cls)
  | .bringup p => (s.dir p).map (·.cls)
  | .reclaim => none
  | .copy => none
  | .retired => none

/-- Frames that a class occupies (POOL_USE_c). -/
def State.classUse (s : State) (c : Nat) : Nat :=
  (s.pool.frames.filter (fun p => s.frameClass p.2 == some c)).length

/-- Reports POOL_QUOTA_OVER when the use of a class has crossed its quota since an earlier state (R296). -/
def State.quotaCheck (s : State) (old : State) (c : Nat) : State :=
  let q := s.fld (Reg.poolQuota c) 0 19
  if 0 < q ∧ old.classUse c ≤ q ∧ q < s.classUse c then
    s.reportLim 0x0302 c unitMgmt (c + 2 ^ 12 * s.classUse c)
  else s

/-- The first free frame of a stack at or after `k`, wrapping, among `f` candidates. -/
def State.seekFrame (s : State) (n : Nat) : Nat → Nat → Option Nat
  | 0, _ => none
  | f + 1, k =>
    if (s.frameUse (frameNo n (k % stackFrames))).isNone then some (k % stackFrames) else s.seekFrame n f (k + 1)

/-- Takes a free frame of a stack; which one is the module's choice (R294; DESIGN CHOICE, log entry 5). -/
def State.takeFrame (s : State) (n : Nat) (u : FrameUse) : Option (Nat × State) :=
  if s.freeFrames n = 0 then none else
  let (k, s1) := s.drawNat
  match s1.seekFrame n (s1.usedFrames n + 1) (k % stackFrames) with
  | some x => some (frameNo n x, (s1.setFrame (frameNo n x) u).noteTaken n)
  | none => none

/-- Zeroes a frame (R294). -/
def State.zeroFrame (s : State) (f : Nat) : State :=
  let lo := pageBytes * f
  let keep := fun i : Nat => !(lo ≤ i * 32 && i * 32 < lo + pageBytes)
  { s with hbm := memClear s.hbm lo (lo + pageBytes), hbmErr := s.hbmErr.filter keep, hbmCe := s.hbmCe.filter keep }

/-- The stack with the most free frames, the lowest-numbered among equals (R294). -/
def State.bestStack (s : State) : Nat :=
  (List.range 12).foldl (fun b n => if s.freeFrames b < s.freeFrames n then n else b) 0

/-- The lowest free logical page at or after `p`, among `f` candidates (R294). -/
def State.seekPage (s : State) : Nat → Nat → Option Nat
  | 0, _ => none
  | f + 1, p => if p < poolPages then (if (s.dir p).isNone then some p else s.seekPage f (p + 1)) else none

/-- The lowest free logical page. -/
def State.lowestPage (s : State) : Option Nat := s.seekPage (s.pool.dir.length + 1) 0

/-! ### Versions of a page -/

/-- The frame that holds a byte of the committed version of a resident page; a staked version whose merge is not over
still has its invalid segments in the frame it replaced (R273). -/
def State.committedFrame (s : State) (p : Nat) (e : DirEntry) (off : Nat) : Nat :=
  match alistGet s.pool.merges p with
  | some m => if m.valid.testBit (off / segBytes) then frameNo e.home e.loc else m.frame
  | none => frameNo e.home e.loc

/-- The frame that holds a byte as an update reads it: the fly version where its segment is valid, else the committed
version (R263). -/
def State.flyFrame (s : State) (p : Nat) (e : DirEntry) (off : Nat) : Nat :=
  match alistGet s.pool.flies p with
  | some v => if v.valid.testBit (off / segBytes) then v.frame else s.committedFrame p e off
  | none => s.committedFrame p e off

/-- One byte of a page's version: `fly` reads as updates do, else committed. -/
def State.pageByte (s : State) (fly : Bool) (p : Nat) (e : DirEntry) (off : Nat) : Byte :=
  memByte s.hbm (pageBytes * (if fly then s.flyFrame p e off else s.committedFrame p e off) + off)

/-- Bytes of a page's version. -/
def State.pageData (s : State) (fly : Bool) (p : Nat) (e : DirEntry) (off n : Nat) : List Byte :=
  (List.range n).map (fun i => s.pageByte fly p e (off + i))

/-- Raw bytes of the committed pool from a pool address on, whatever pages they span; a page that is not resident reads
as 0. -/
def State.poolRaw (s : State) (a n : Nat) : List Byte :=
  (List.range n).map (fun i =>
    match s.dir ((a + i) / pageBytes) with
    | some e => if e.far then 0 else s.pageByte false ((a + i) / pageBytes) e ((a + i) % pageBytes)
    | none => 0)

/-- A little-endian number of the committed pool. -/
def State.poolNat (s : State) (a n : Nat) : Nat := leNat (s.poolRaw a n)

/-- The sixteen words of a descriptor in the pool. -/
def State.poolWords (s : State) (a : Nat) : List Nat := (List.range 16).map (fun i => s.poolNat (a + 4 * i) 4)

/-- Writes bytes into a frame. A word of 32 bytes covered whole loses its error (R318). -/
def State.frameWrite (s : State) (f off : Nat) (bs : List Byte) : State :=
  let a := pageBytes * f + off
  let keep := fun i : Nat => !(a ≤ i * 32 && i * 32 + 32 ≤ a + bs.length)
  { s with hbm := memWrite s.hbm a bs, hbmErr := s.hbmErr.filter keep, hbmCe := s.hbmCe.filter keep }

/-- Copies a frame whole, errors included (R321). -/
def State.copyFrame (s : State) (src dst : Nat) : State :=
  let lo := pageBytes * src
  let d := pageBytes * dst
  let s1 := s.zeroFrame dst
  let bytes := s.hbm.filter (fun p => lo ≤ p.1 && p.1 < lo + pageBytes)
  let here := fun i : Nat => lo ≤ i * 32 && i * 32 < lo + pageBytes
  { s1 with hbm := bytes.foldl (fun m p => tabSet zeroByte m (p.1 - lo + d) p.2) s1.hbm,
            hbmErr := s1.hbmErr ++ (s.hbmErr.filter here).map (fun i => i - lo / 32 + d / 32) }

/-- The pages that `[a, a + n)` of the pool touches. -/
def pagesOf (a n : Nat) : List Nat :=
  if n = 0 then [] else (List.range ((a + n - 1) / pageBytes - a / pageBytes + 1)).map (fun i => a / pageBytes + i)

/-- Is a 64-bit pool address valid (R291)? -/
def poolAddrOk (a : Nat) : Bool := a < pageBytes * poolPages

end Sys2Proof.Machine
end

