-- ==== Sys2Proof/Machine/Desc.lean ====
section
/-! DEFINITION. Bookended descriptors (R486 to R489): layer descriptors, update groups, shard records, groups and
placements, each as read, checked field by field and clamped; and the error correction of pool reads (R318, R319). -/

namespace Sys2Proof.Machine

/-! ### Checks of fields -/

/-- A field of `width` bits at bit `lo` of word `w`. -/
def wfield (ws : List Nat) (w lo width : Nat) : Nat := nthWord ws w / 2 ^ lo % 2 ^ width

/-- The clamp of a field whose applied value differs from the one read (R487). -/
def ckField (ws : List Nat) (w lo width applied : Nat) : List ClampItem :=
  let v := wfield ws w lo width
  if v = applied then [] else [⟨w, lo, v, applied, false⟩]

/-- The reject of a field (R487). -/
def rjField (ws : List Nat) (w lo width : Nat) (ok : Bool) : List ClampItem :=
  if ok then [] else [⟨w, lo, wfield ws w lo width, wfield ws w lo width, true⟩]

/-- Reserved words `from` to `to`, each one field (R487). -/
def ckWords (ws : List Nat) (first last : Nat) : List ClampItem :=
  ((List.range (last + 1 - first)).map (fun i => ckField ws (first + i) 0 32 0)).flatten

/-- A value held to a range, nearest in range. -/
def holdTo (lo hi v : Nat) : Nat := if v < lo then lo else if hi < v then hi else v

/-- Is a W32 pattern finite? -/
def finW32 (v : Nat) : Bool := v / 2 ^ 22 % 2 ^ 9 != 511

/-- Finite and at or above +0; −0 equals +0 (R121). -/
def nonNegW32 (v : Nat) : Bool := finW32 v && (!v.testBit 31 || v % 2 ^ 31 == 0)

/-- Finite and above 0. -/
def posW32 (v : Nat) : Bool := finW32 v && !v.testBit 31 && v != 0

/-- A decay factor held to `+0` to `0x3FBF_FFFF` in the order of R120 (R487). -/
def betaW32 (v : Nat) : Nat :=
  if v.testBit 31 then 0 else if v ≤ 0x3FBFFFFF then v
  else if v / 2 ^ 22 % 2 ^ 9 = 511 ∧ v % 2 ^ 22 ≠ 0 then 0 else 0x3FBFFFFF

/-! ### Layer descriptors (Table 7-3) -/

/-- A layer descriptor as used (R198, R199). -/
structure LDesc where
  absent : Bool := true
  wfmt : Nat := 4
  afmt : Nat := 4
  escMax : Nat := 4
  wlockW : Nat := 4
  wlockA : Nat := 4
  dwSkip : Bool := false
  rptW : Bool := false
  rptA : Bool := false
  wlockEn : Bool := false
  lateNarrow : Bool := false
  zeroMitten : Bool := false
  scaleRule : Nat := 1
  satThr : Nat := 16
  expwin : Nat := 0
  othrTn : Nat := 0x40200000
  othrQ2 : Nat := 0x40600000
  othrQ4 : Nat := 0x40E00000
  deriving DecidableEq, Repr

/-- The descriptor that sixteen words give layer `l`; an absent one has the values of R199. -/
def layerOf (l : Nat) (ws : List Nat) : LDesc :=
  if wfield ws 1 0 20 ≠ l then {} else
  let f := wfield ws
  let wf := if f 1 20 4 = 0 ∨ f 1 20 4 = 1 ∨ f 1 20 4 = 2 ∨ f 1 20 4 = 4 then f 1 20 4 else 4
  let wide := fun v : Nat => if (v = 2 ∨ v = 4) ∧ wf ≤ v then v else 4
  let act := fun v : Nat => if v = 3 ∨ v = 4 then v else 4
  let o := fun v : Nat => if nonNegW32 v then v else 0
  { absent := false, wfmt := wf, afmt := act (f 1 24 4), escMax := wide (f 1 28 4), wlockW := wide (f 2 0 4),
    wlockA := act (f 2 4 4), dwSkip := f 2 8 1 == 1, rptW := f 2 9 1 == 1, rptA := f 2 10 1 == 1,
    wlockEn := f 2 11 1 == 1, lateNarrow := f 2 12 1 == 1, zeroMitten := f 2 13 1 == 1,
    scaleRule := if f 2 14 4 = 2 then 2 else 1, satThr := f 3 0 16, expwin := min (f 3 16 8) 62,
    othrTn := o (nthWord ws 4), othrQ2 := o (nthWord ws 5), othrQ4 := o (nthWord ws 6) }

/-- What the check of a layer descriptor records, in the order of R487. -/
def layerItems (l : Nat) (ws : List Nat) : List ClampItem :=
  let f := wfield ws
  let wf := if f 1 20 4 = 0 ∨ f 1 20 4 = 1 ∨ f 1 20 4 = 2 ∨ f 1 20 4 = 4 then f 1 20 4 else 4
  let wide := fun v : Nat => if (v = 2 ∨ v = 4) ∧ wf ≤ v then v else 4
  let act := fun v : Nat => if v = 3 ∨ v = 4 then v else 4
  let o := fun v : Nat => if nonNegW32 v then v else 0
  rjField ws 1 0 20 (f 1 0 20 == l) ++ ckField ws 1 20 4 wf ++ ckField ws 1 24 4 (act (f 1 24 4))
    ++ ckField ws 1 28 4 (wide (f 1 28 4)) ++ ckField ws 2 0 4 (wide (f 2 0 4)) ++ ckField ws 2 4 4 (act (f 2 4 4))
    ++ ckField ws 2 14 4 (if f 2 14 4 = 2 then 2 else 1) ++ ckField ws 2 18 14 0 ++ ckField ws 3 16 8 (min (f 3 16 8) 62)
    ++ ckField ws 3 24 8 0 ++ ckField ws 4 0 32 (o (nthWord ws 4)) ++ ckField ws 5 0 32 (o (nthWord ws 5))
    ++ ckField ws 6 0 32 (o (nthWord ws 6)) ++ ckWords ws 7 14

/-! ### Update groups (Table 8-3) -/

/-- The group that sixteen words give. -/
def groupOf (ws : List Nat) : UDesc :=
  let f := wfield ws
  let b := BitVec.ofNat 32
  let o := fun v : Nat => if nonNegW32 v then v else 0
  let p := fun v : Nat => if posW32 v then v else 1
  { rule := f 1 0 2, frozen := f 1 2 1 == 1, biasCorr := f 1 3 1 == 1, kblk := f 1 4 1 == 1,
    acc := if f 1 8 4 = 0 then 16 else f 1 8 4, newton := if f 1 16 5 = 0 then 20 else f 1 16 5,
    rootN := if f 2 0 16 = 0 then 1 else f 2 0 16, startEpoch := nthWord ws 3, eta := b (o (nthWord ws 4)),
    beta1 := b (betaW32 (nthWord ws 5)), beta2 := b (betaW32 (nthWord ws 6)), lambda := b (o (nthWord ws 7)),
    eps := b (p (nthWord ws 8)), graft := b (p (nthWord ws 9)) }

/-- What its check records. -/
def groupItems (ws : List Nat) : List ClampItem :=
  let f := wfield ws
  let o := fun v : Nat => if nonNegW32 v then v else 0
  let p := fun v : Nat => if posW32 v then v else 1
  ckField ws 1 5 3 0 ++ ckField ws 1 12 4 0 ++ ckField ws 1 16 5 (if f 1 16 5 = 0 then 20 else f 1 16 5)
    ++ ckField ws 1 21 11 0 ++ ckField ws 2 0 16 (if f 2 0 16 = 0 then 1 else f 2 0 16) ++ ckField ws 2 16 16 0
    ++ ckField ws 4 0 32 (o (nthWord ws 4)) ++ ckField ws 5 0 32 (betaW32 (nthWord ws 5))
    ++ ckField ws 6 0 32 (betaW32 (nthWord ws 6)) ++ ckField ws 7 0 32 (o (nthWord ws 7))
    ++ ckField ws 8 0 32 (p (nthWord ws 8)) ++ ckField ws 9 0 32 (p (nthWord ws 9)) ++ ckWords ws 10 14

/-! ### Shard records (Table 8-2) -/

/-- A shard record as used (R222). -/
structure Shard where
  index : Nat := 0
  layer : Nat := 0
  group : Nat := 0
  unit : Nat := 0
  rows : Nat := 0
  cols : Nat := 0
  master : Nat := 0
  mom : Nat := 0
  var : Nat := 0
  acc : Nat := 0
  kst : Nat := 0
  desc : UDesc := {}
  deriving DecidableEq, Repr

/-- Slice height of a groundsheet: 64, 128 or 256 rows (R149, Table 8-7). -/
def State.sliceRows (s : State) (n : Nat) : Nat := 64 * 2 ^ min (s.fld (Reg.gsCtrl n) 2 2) 2

/-- Height U of a shard unit: the larger of 128 and the slice height. -/
def State.unitRows (s : State) (n : Nat) : Nat := max 128 (s.sliceRows n)

/-- Does a group's rule use the second moment? -/
def usesVar (d : UDesc) : Bool := d.rule == 1 || d.rule == 2

/-- The height and width of block `j` of a record's Kronecker state (R243): blocks are numbered slice by slice. -/
structure KBlock where
  row0 : Nat
  col0 : Nat
  br : Nat
  bc : Nat
  deriving DecidableEq, Repr

/-- The blocks of one slice of a record in row-major block order (R243): rows `[r0, r1)` of the unit, in blocks of at most
`h` rows and `b` columns. -/
def sliceBlocks (h b cols r0 r1 : Nat) : List KBlock :=
  let rows := ceilDiv (r1 - r0) h
  (List.range rows).flatMap fun i =>
    (List.range (ceilDiv cols b)).map fun j =>
      ⟨r0 + i * h, j * b, min h (r1 - (r0 + i * h)), min b (cols - j * b)⟩

/-- The blocks of a record, index `j` counting from 0 within the record (R243). -/
def recordBlocks (b sr rows cols : Nat) : List KBlock :=
  (List.range (ceilDiv rows sr)).flatMap fun i => sliceBlocks (min b sr) b cols (i * sr) (min rows ((i + 1) * sr))

/-- A length rounded up to 64 bytes. -/
def up64 (n : Nat) : Nat := 64 * ceilDiv n 64

/-- Bytes of the four matrices of a block, each starting at a 64-byte boundary (R224). -/
def blockBytes (k : KBlock) : Nat := 2 * up64 (4 * k.br * k.br) + 2 * up64 (4 * k.bc * k.bc)

/-- The block size B of a group (Table 8-3). -/
def kSize (d : UDesc) : Nat := if d.kblk then 256 else 128

/-- Bytes of the state areas of a record: master, momentum, second moment, accumulator, Kronecker (R224). -/
def areaBytes (sr : Nat) (x : Shard) : List Nat :=
  let n := x.rows * x.cols
  [4 * n, 2 * n, up64 n + ceilDiv n 32, 4 * n, sumNat ((recordBlocks (kSize x.desc) sr x.rows x.cols).map blockBytes)]

/-- Pages of an area of `n` bytes from page `p` on. -/
def areaPages (p n : Nat) : List Nat := (List.range (ceilDiv n pageBytes)).map (p + ·)

/-- The fly-versioned pages of a record: master, momentum, second moment and Kronecker, those its rule uses (R221). -/
def shardPages (sr : Nat) (x : Shard) : List Nat :=
  let a := areaBytes sr x
  areaPages x.master (a.getD 0 0) ++ areaPages x.mom (a.getD 1 0)
    ++ (if usesVar x.desc then areaPages x.var (a.getD 2 0) else [])
    ++ (if x.desc.rule = 2 then areaPages x.kst (a.getD 4 0) else [])

/-- The pool address of record `i` of a groundsheet's shard table (R222). -/
def State.shardAddr (s : State) (n i : Nat) : Nat := pageBytes * s.fld (Reg.gsShardBase n) 0 19 + 64 * i

/-- Records of a shard table. -/
def State.shardCount (s : State) (n : Nat) : Nat := s.fld (Reg.gsShardCount n) 0 15

/-- The pool address of an update group descriptor (R226). -/
def State.groupAddr (s : State) (g : Nat) : Nat := s.reg64 Reg.modUgrpBaseLo Reg.modUgrpBaseHi + 64 * g

/-- A record as its sixteen words give it (R222), with its group; page fields of areas its rule does not use do not
count. -/
def shardOf (u i : Nat) (d : UDesc) (ws : List Nat) : Shard :=
  let f := wfield ws
  { index := i, layer := f 1 0 20, group := f 1 20 12, unit := f 2 0 16,
    rows := if 1 ≤ f 2 16 9 ∧ f 2 16 9 ≤ u then f 2 16 9 else u, cols := f 3 0 18, master := f 4 0 19, mom := f 5 0 19,
    var := f 6 0 19, acc := f 7 0 19, kst := f 8 0 19, desc := d }

/-- What its check records (R487), with the group and the outcome of the group's read. -/
def shardItems (u layers groups : Nat) (d : Option UDesc) (ws : List Nat) : List ClampItem :=
  let f := wfield ws
  let used := fun w : Nat => match d with
    | none => false
    | some g => w == 4 || w == 5 || (w == 6 && usesVar g) || (w == 7 && 1 < g.acc) || (w == 8 && g.rule == 2)
  let pg := fun w : Nat => rjField ws w 0 19 (!used w || f w 0 19 < poolPages) ++ ckField ws w 19 13 0
  rjField ws 1 0 20 (f 1 0 20 < layers) ++ rjField ws 1 20 12 (f 1 20 12 < groups && d.isSome)
    ++ ckField ws 2 16 9 (if 1 ≤ f 2 16 9 ∧ f 2 16 9 ≤ u then f 2 16 9 else u) ++ ckField ws 2 25 7 0
    ++ rjField ws 3 0 18 (1 ≤ f 3 0 18) ++ ckField ws 3 18 14 0 ++ pg 4 ++ pg 5 ++ pg 6 ++ pg 7 ++ pg 8
    ++ ckWords ws 9 14

/-- Is a record valid: no reject (R222)? -/
def itemsOk (l : List ClampItem) : Bool := l.all (fun i => !i.reject)

/-- Layers and groups in force: MOD_LAYER_COUNT and MOD_UGRP_COUNT. -/
def State.layerCount (s : State) : Nat := s.fld Reg.modLayerCount 0 21
/-- MOD_UGRP_COUNT. -/
def State.groupCount (s : State) : Nat := s.fld Reg.modUgrpCount 0 13

/-- A group as a groundsheet would use it now, without the effects of a read: as latched for the epoch (R227), else as the
memory stands; none where it is absent (R523). -/
def State.peekGroup (s : State) (n g : Nat) : Option UDesc :=
  match alistGet (s.gs n).consts g with
  | some c => some c.1
  | none =>
    if g < s.groupCount ∧ s.pageHere (s.groupAddr g / pageBytes) then some (groupOf (s.poolWords (s.groupAddr g))) else none

/-- A valid record as the memory stands, without the effects of a read. -/
def State.peekShard (s : State) (n i : Nat) : Option Shard :=
  if s.pageHere (s.shardAddr n i / pageBytes) then
    let ws := s.poolWords (s.shardAddr n i)
    let d := s.peekGroup n (wfield ws 1 20 12)
    if itemsOk (shardItems (s.unitRows n) s.layerCount s.groupCount d ws) then
      some (shardOf (s.unitRows n) i (d.getD {}) ws)
    else none
  else none

/-- Is a page a committed page under a shard record of its home groundsheet (R284)? -/
def State.underShard (s : State) (n p : Nat) : Bool :=
  (List.range (s.shardCount n)).any fun i =>
    match s.peekShard n i with
    | some x => (shardPages (s.sliceRows n) x).contains p
    | none => false

/-! ### Reads with their error correction (R318, R319, R284) -/

/-- A corrected word of HBM (R318). -/
def State.hbmCorrect (s : State) (i : Nat) : State :=
  let f := i * 32 / pageBytes
  let n := (alistGet s.pool.ce f).getD 0 + 1
  let s1 := s.bump Reg.poolCe
  let s2 := { s1 with hbmCe := s1.hbmCe.filter (· != i), pool := { s1.pool with ce := tabPut f n s1.pool.ce } }
  if s.fld Reg.poolCeThresh 0 16 ≤ n ∧ s.pool.ceTold.contains f = false then
    ({ s2 with pool := { s2.pool with ceTold := f :: s2.pool.ceTold } }).reportLim 0x0303 (frameStack f) (unitGs (frameStack f))
      (frameStack f + frameIdx f * 2 ^ 4)
  else s2

/-- Marks a committed page lost and reports SHARD_LOST (R284). -/
def State.loseShard (s : State) (n p : Nat) : State :=
  match s.dir p with
  | some e => (s.setDir p { e with lost := true }).report 0x0606 (unitGs n) (n + p * 2 ^ 4)
  | none => s

/-- An uncorrectable word of HBM is read (R319); `committed` names the page under a shard record that the bytes come
from, `scrub` raises no flag (R320). -/
def State.hbmUe (scrub : Bool) (committed : Option Nat) (s : State) (i : Nat) : State :=
  let f := i * 32 / pageBytes
  let n := frameStack f
  let flag := !scrub && s.stepping
  let s1 := (s.bump Reg.poolUe).report 0x0304 (unitGs n) (n + frameIdx f * 2 ^ 4 + 2 ^ 19 * b2n flag)
  let s2 := if flag then s1.raiseFlag flagEcc s.epoch else s1
  match committed with
  | some p =>
    if s.underShard n p then
      (if flag then s2 else if scrub then s2 else s2.raiseFlag flagEcc s.epoch).loseShard n p
    else s2
  | none => s2

/-- The effects of reading `[off, off + n)` of a page's version on the error marks (R318, R319, R284). -/
def State.pageTouch (s : State) (fly : Bool) (p : Nat) (e : DirEntry) (off n : Nat) : State :=
  if s.hbmErr.isEmpty && s.hbmCe.isEmpty then s
  else
    let frames := fun i : Nat =>
      let o := i * 32 % pageBytes
      let f := i * 32 / pageBytes
      o < off + n && off < o + 32 && (if fly then s.flyFrame p e o else s.committedFrame p e o) == f
    let own := fun i : Nat =>
      if s.committedFrame p e (i * 32 % pageBytes) = i * 32 / pageBytes then some p else none
    let s1 := (s.hbmCe.filter frames).foldl State.hbmCorrect s
    (s.hbmErr.filter frames).foldl (fun t i => t.hbmUe false (own i) i) s1

/-- Reads of a page marked LOST raise ECC_UNCORR (R319). -/
def State.lostTouch (s : State) (e : DirEntry) : State :=
  if e.lost ∧ s.stepping then s.raiseFlag flagEcc s.epoch else s

/-- The effects of reading `[a, a + n)` of the committed pool on errors and LASTUSE (R297, R318, R319). -/
def State.poolTouch (s : State) (a n : Nat) : State :=
  (pagesOf a n).foldl (fun t p =>
    match t.dir p with
    | some e =>
      let lo := max a (pageBytes * p)
      let hi := min (a + n) (pageBytes * (p + 1))
      ((t.pageTouch false p e (lo - pageBytes * p) (hi - lo)).lostTouch e).usePage p
    | none => t) s

/-- UNIT of the unit that a code of XFER_FAULT names (Tables 10-11 and 15-6). -/
def faultUnit (code : Nat) : Nat :=
  if code = 0xFFFF then unitMgmt
  else if 0xA000 ≤ code then unitDie (code - 0xA000)
  else if 0x8000 ≤ code then unitGs (code - 0x8000)
  else unitCell code

/-- Reports XFER_FAULT for an access to a page that cannot be served (R295, R522, R523). -/
def State.xferFault (s : State) (code p : Nat) : State :=
  s.reportLim 0x030A code (faultUnit code) (code + 2 ^ 16 * (p % 2 ^ 16))

/-- Reports a page that is not served; one in the far tier, whose bring-up has failed, has been reported as such (R304). -/
def State.notServed (s : State) (code p : Nat) : State := if s.pageOk p then s else s.xferFault code p

/-- A read of `n` bytes of one page by a unit other than a cell or the window (R523): the bytes of the committed version
(or of the fly version, for an update), or none where the page cannot be served. -/
def State.unitRead (s : State) (code : Nat) (fly : Bool) (a n : Nat) : Option (List Byte) × State :=
  let p := a / pageBytes
  match s.dir p with
  | some e =>
    if s.poolOn && !e.far then
      (some (s.pageData fly p e (a % pageBytes) n),
        ((s.pageTouch fly p e (a % pageBytes) n).lostTouch e).usePage p)
    else (none, if s.poolOn then s else s.xferFault code p)
  | none => (none, s.xferFault code p)

/-- A read by a unit other than a cell or the window, over any pages (R523): none where a page cannot be served. -/
def State.unitPool (s : State) (code a n : Nat) : Option (List Byte) × State :=
  match (pagesOf a n).find? (fun p => !s.pageHere p) with
  | some p => (none, s.notServed code p)
  | none => (some (s.poolRaw a n), s.poolTouch a n)

/-- The sixteen words of a descriptor in the pool, as a unit reads them. -/
def State.unitWords (s : State) (code a : Nat) : Option (List Nat) × State :=
  let r := s.unitRead code false a 64
  (r.1.map (fun b => (List.range 16).map (fun i => leNat ((b.drop (4 * i)).take 4))), r.2)

/-- The pool address of a layer descriptor (R198). -/
def State.layerAddr (s : State) (l : Nat) : Nat := s.reg64 Reg.modLayerBaseLo Reg.modLayerBaseHi + 64 * l

/-- Reports LAYER_UNKNOWN (R199; DEDUCED, log entry 22): kind 0 beyond MOD_LAYER_COUNT, 1 another LAYER or a page not served. -/
def State.layerUnknown (s : State) (source kind l : Nat) : State :=
  s.reportLim 0x0506 source source (l % 2 ^ 20 + 2 ^ 20 * kind)

/-- Reads a layer descriptor (R198, R199, R487); `source` is the UNIT of the reader. -/
def State.readLayer (s : State) (code source l : Nat) : LDesc × State :=
  if s.layerCount ≤ l then ({}, s.layerUnknown source 0 l) else
  match s.unitWords code (s.layerAddr l) with
  | (none, s1) => ({}, s1.layerUnknown source 1 l)
  | (some ws, s1) =>
    let s2 := s1.clampRead 0x01 l (nthWord ws 0) (nthWord ws 15) source (layerItems l ws)
    (layerOf l ws, if (layerOf l ws).absent then s2.layerUnknown source 1 l else s2)

/-- A layer descriptor as the memory stands, without the effects of a read. -/
def State.peekLayer (s : State) (l : Nat) : LDesc :=
  if s.layerCount ≤ l ∨ s.pageHere (s.layerAddr l / pageBytes) = false then {}
  else layerOf l (s.poolWords (s.layerAddr l))

/-- Reads an update group descriptor (R226); none where the group is absent. -/
def State.readGroup (s : State) (code source g : Nat) : Option UDesc × State :=
  if s.groupCount ≤ g then (none, s) else
  match s.unitWords code (s.groupAddr g) with
  | (none, s1) => (none, s1)
  | (some ws, s1) =>
    (some (groupOf ws), s1.clampRead 0x02 g (nthWord ws 0) (nthWord ws 15) source (groupItems ws))

/-- A group as a groundsheet uses it now (R226, R227): as latched for the epoch, else as it is read. -/
def State.groupNow (s : State) (n g : Nat) : Option UDesc × State :=
  match alistGet (s.gs n).consts g with
  | some c => (some c.1, s)
  | none => s.readGroup (0x8000 + n) (unitGs n) g

/-- The descriptor and GSCALE of a group for the epoch: those at the first event of a step that needs them (R227; DEDUCED, log
entry 60). The first such event of this one has the descriptor `d`. -/
def State.groupConsts (s : State) (n g : Nat) (d : UDesc) : (UDesc × W32) × State :=
  match alistGet (s.gs n).consts g with
  | some c => (c, s)
  | none =>
    let c := (d, s.step.gscale)
    (c, if s.stepping then s.setGs n { s.gs n with consts := tabPut g c (s.gs n).consts } else s)

/-- The key bits of a record, LAYER × 2¹⁶ + UNIT (R223). -/
def State.shardKey (s : State) (n i : Nat) : Nat :=
  let a := s.shardAddr n i
  2 ^ 16 * (s.poolNat (a + 4) 4 % 2 ^ 20) + s.poolNat (a + 8) 4 % 2 ^ 16

/-- The binary search of R223 over records `[lo, hi)`. -/
def State.seekShard (s : State) (n key : Nat) : Nat → Nat → Nat → Option Nat
  | 0, _, _ => none
  | f + 1, lo, hi =>
    if hi ≤ lo then none else
    let m := (lo + hi) / 2
    let k := s.shardKey n m
    if k = key then some m else if k < key then s.seekShard n key f (m + 1) hi else s.seekShard n key f lo m

/-- The records whose key bits that search reads. -/
def State.shardProbes (s : State) (n key : Nat) : Nat → Nat → Nat → List Nat
  | 0, _, _ => []
  | f + 1, lo, hi =>
    if hi ≤ lo then [] else
    let m := (lo + hi) / 2
    let k := s.shardKey n m
    m :: (if k = key then [] else if k < key then s.shardProbes n key f (m + 1) hi else s.shardProbes n key f lo m)

/-- The effects of its reads: words 1 and 2 of each record (R223, R297, R318). -/
def State.probeTouch (s : State) (n key : Nat) : State :=
  (s.shardProbes n key 16 0 (s.shardCount n)).foldl (fun t i => t.poolTouch (s.shardAddr n i + 4) 8) s

/-- Reads record `i` of a shard table as a descriptor, with the group it names (R222, R226, R487); none where it is not
valid. -/
def State.readShard (s : State) (n i : Nat) : Option Shard × State :=
  let code := 0x8000 + n
  match s.unitWords code (s.shardAddr n i) with
  | (none, s1) => (none, s1)
  | (some ws, s1) =>
    let g := s1.groupNow n (wfield ws 1 20 12)
    let items := shardItems (s.unitRows n) s.layerCount s.groupCount g.1 ws
    let s2 := g.2.clampRead 0x03 (2 ^ 16 * n + i) (nthWord ws 0) (nthWord ws 15) (unitGs n) items
    (if itemsOk items then some (shardOf (s.unitRows n) i (g.1.getD {}) ws) else none, s2)

/-- A failed lookup is counted and reported (R223). -/
def State.shardUnknown (s : State) (n : Nat) (gather : Bool) (layer : Nat) : State :=
  (s.bump (Reg.gsUnknown n)).reportLim 0x0380 n (unitGs n) (n + b2n gather * 2 ^ 4 + 2 ^ 12 * (layer % 2 ^ 20))

/-- Looks up the record of a layer and unit in a groundsheet's shard table (R223); a failed lookup, or an invalid record,
is counted and reported as SHARD_UNKNOWN. The shard table lies in one page, which must be served (R523). -/
def State.lookupShard (s : State) (n : Nat) (gather : Bool) (layer unit : Nat) : Option Shard × State :=
  let page := s.fld (Reg.gsShardBase n) 0 19
  let key := 2 ^ 16 * layer + unit
  if 0 < s.shardCount n ∧ s.pageHere page = false then (none, (s.notServed (0x8000 + n) page).shardUnknown n gather layer)
  else match s.seekShard n key 16 0 (s.shardCount n) with
  | none => (none, (s.probeTouch n key).shardUnknown n gather layer)
  | some i =>
    match (s.probeTouch n key).readShard n i with
    | (none, s1) => (none, s1.shardUnknown n gather layer)
    | (some x, s1) => (some x, s1)

/-- The pages that reading record `i` as a descriptor needs: the shard table, and the group it names unless that is latched
for the epoch (R222, R226, R227). -/
def State.recordPages (s : State) (n i : Nat) : List Nat :=
  let p := s.shardAddr n i / pageBytes
  let g := s.poolNat (s.shardAddr n i + 4) 4 / 2 ^ 20
  p :: (if s.pageHere p && (alistGet (s.gs n).consts g).isNone && decide (g < s.groupCount) then [s.groupAddr g / pageBytes]
    else [])

/-- The record that a lookup would find (R223). -/
def State.soughtShard (s : State) (n layer unit : Nat) : Option Nat :=
  s.seekShard n (2 ^ 16 * layer + unit) 16 0 (s.shardCount n)

/-- The pages that a lookup reads, as far as they can be told beforehand (R223). -/
def State.lookupPages (s : State) (n layer unit : Nat) : List Nat :=
  if s.shardCount n = 0 then []
  else s.fld (Reg.gsShardBase n) 0 19
    :: (match s.soughtShard n layer unit with | some i => s.recordPages n i | none => [])

/-! ### Groups and placements -/

/-- Entry `g` of the group directory (R366). -/
def State.groupEntry (s : State) (g : Nat) : Nat :=
  s.poolNat (s.reg64 Reg.modGroupBaseLo Reg.modGroupBaseHi + 8 * g) 8

/-- MOD_GROUP_COUNT. -/
def State.dirCount (s : State) : Nat := s.fld Reg.modGroupCount 0 16

/-- The member words of a group (R366). -/
def State.memberWords (s : State) (g : Nat) : List Nat :=
  let base := s.reg64 Reg.modGroupBaseLo Reg.modGroupBaseHi
  let area := up64 (base + 8 * s.dirCount)
  let e := s.groupEntry g
  (List.range (min (e / 2 ^ 24 % 2 ^ 15) 16385)).map (fun i => s.poolNat (area + 4 * (e % 2 ^ 24 + i)) 4)

/-- The pages that a group's entry and members lie in. -/
def State.groupPages (s : State) (g : Nat) : List Nat :=
  let base := s.reg64 Reg.modGroupBaseLo Reg.modGroupBaseHi
  let area := up64 (base + 8 * s.dirCount)
  let e := s.groupEntry g
  ((base + 8 * g) / pageBytes) :: pagesOf (area + 4 * (e % 2 ^ 24)) (4 * min (e / 2 ^ 24 % 2 ^ 15) 16385)

/-- The module's own device address, when FAB_ADDR.VALID is 1. -/
def State.ownAddr (s : State) : Nat := s.fld Reg.fabAddr 0 17

/-- Strictly ascending. -/
def ascending : List Nat → Bool
  | [] => true
  | [_] => true
  | a :: b :: l => a < b && ascending (b :: l)

/-- The members of a valid group (R367); none where the group is not valid. -/
def State.validGroup (s : State) (g : Nat) : Option (List Nat) :=
  if g < s.dirCount ∧ (s.groupPages g).all s.pageHere then
    let ms := s.memberWords g
    if 1 ≤ ms.length ∧ ms.length ≤ 16384 ∧ ms.all (· < 2 ^ 17) ∧ ascending ms ∧ ms.contains s.ownAddr then some ms
    else none
  else none

/-- The effects of reading a group: its entry, then its members (R297, R318, R366); a page that is not served is reported
(R523). -/
def State.groupTouch (s : State) (code g : Nat) : State :=
  if s.dirCount ≤ g then s
  else match (s.groupPages g).find? (fun p => !s.pageHere p) with
  | some p => s.notServed code p
  | none =>
    let base := s.reg64 Reg.modGroupBaseLo Reg.modGroupBaseHi
    let e := s.groupEntry g
    (s.poolTouch (base + 8 * g) 8).poolTouch (up64 (base + 8 * s.dirCount) + 4 * (e % 2 ^ 24))
      (4 * min (e / 2 ^ 24 % 2 ^ 15) 16385)

/-- A placement record as used (R368). -/
structure Place where
  members : List Nat := []
  radix : Nat := 2
  gsOff : Nat := 0
  ownOff : Nat := 0
  lc : Nat := 1
  deriving DecidableEq, Repr

/-- The pool address of a placement record (R368). -/
def State.placeAddr (s : State) (l : Nat) : Nat := s.reg64 Reg.modPlaceBaseLo Reg.modPlaceBaseHi + 64 * l

/-- The placement that sixteen words give a layer; none where it is absent. -/
def State.placeOf (s : State) (l : Nat) (ws : List Nat) : Option Place :=
  match s.validGroup (wfield ws 2 0 16) with
  | some ms =>
    if wfield ws 1 0 20 = l then
      some { members := ms, radix := min (wfield ws 2 16 3) 6 + 2, gsOff := min (wfield ws 2 20 8) 11,
             ownOff := wfield ws 3 0 17 % ms.length, lc := holdTo 1 512 (wfield ws 4 0 10) }
    else none
  | none => none

/-- What its check records; OWN_OFF is checked where the group's size is known. -/
def State.placeItems (s : State) (l : Nat) (ws : List Nat) : List ClampItem :=
  let f := wfield ws
  let g := s.validGroup (f 2 0 16)
  rjField ws 1 0 20 (f 1 0 20 == l) ++ ckField ws 1 20 12 0 ++ rjField ws 2 0 16 g.isSome
    ++ ckField ws 2 16 3 (min (f 2 16 3) 6) ++ ckField ws 2 19 1 0 ++ ckField ws 2 20 8 (min (f 2 20 8) 11)
    ++ ckField ws 2 28 4 0
    ++ (match g with | some ms => ckField ws 3 0 17 (f 3 0 17 % ms.length) | none => [])
    ++ ckField ws 3 17 15 0 ++ ckField ws 4 0 10 (holdTo 1 512 (f 4 0 10)) ++ ckField ws 4 10 22 0 ++ ckWords ws 5 14

/-- Reads a placement record as the collective unit of die `d` (R368, R370). -/
def State.readPlace (s : State) (d l : Nat) : Option Place × State :=
  if s.layerCount ≤ l then (none, s) else
  match s.unitWords (0xA000 + d) (s.placeAddr l) with
  | (none, s1) => (none, s1)
  | (some ws, s1) =>
    (s.placeOf l ws, (s1.groupTouch (0xA000 + d) (wfield ws 2 0 16)).clampRead 0x04 l (nthWord ws 0) (nthWord ws 15) (unitDie d) (s.placeItems l ws))

end Sys2Proof.Machine
end

