-- ==== Sys2Proof/Machine/PoolOps.lean ====
section
/-! DEFINITION. Operations of the pool and the far tier: evictions, bring-ups, far requests, writes in place,
allocation (R293 to R305). -/

namespace Sys2Proof.Machine

/-! ### Touching the bytes of pages -/

/-- Touches the words of 32 bytes that a write of a version of a page covers only in part, each once (R318). -/
def State.partTouch (s : State) (fly : Bool) (p : Nat) (e : DirEntry) (off n : Nat) : State :=
  if n = 0 then s
  else
    let s1 := if off % 32 = 0 then s else s.pageTouch fly p e off 1
    let last := (off + n - 1) / 32
    if (off + n) % 32 = 0 ∨ (off % 32 ≠ 0 ∧ off / 32 = last) then s1 else s1.pageTouch fly p e (off + n - 1) 1

/-- The same of the committed version. -/
def State.partialTouch (s : State) (p : Nat) (e : DirEntry) (off n : Nat) : State := s.partTouch false p e off n

/-! ### Eviction slots (R305) -/

/-- Is a slot taken: bit i of byte j governs slot 8j + i (R305; DESIGN CHOICE, log entry 14 for the sense of the bit)? -/
def State.slotUsed (s : State) (i : Nat) : Bool :=
  match s.dir s.evictMap with
  | some e => (s.pageByte false s.evictMap e (i / 8)).getLsbD (i % 8)
  | none => true

/-- Marks a slot taken or free: a write to the map page. -/
def State.setSlot (s : State) (i : Nat) (b : Bool) : State :=
  let p := s.evictMap
  match s.dir p with
  | some e =>
    let s1 := s.partialTouch p e (i / 8) 1
    let f := s1.committedFrame p e (i / 8)
    let old := (memByte s1.hbm (pageBytes * f + i / 8)).toNat
    (s1.frameWrite f (i / 8) [BitVec.ofNat 8 (putField old (i % 8) 1 (b2n b))]).usePage p
  | none => s

/-- The lowest free slot at or after `i`, among `f` candidates. -/
def State.seekSlot (s : State) : Nat → Nat → Option Nat
  | 0, _ => none
  | f + 1, i => if s.slotUsed i then s.seekSlot f (i + 1) else some i

/-- The lowest free eviction slot (R300). -/
def State.lowestSlot (s : State) : Option Nat := s.seekSlot (min s.evictSize 8388608) 0

/-- The effects of looking for a free slot up to slot `i`: the map page is read (R297, R318). -/
def State.slotTouch (s : State) (i : Nat) : State := s.poolTouch (pageBytes * s.evictMap) (i / 8 + 1)

/-! ### Transfers in progress -/

/-- Is an accepted transfer of a cell in progress on a page (R295, R299)? -/
def xferOn (p : Nat) (x : Xfer) : Bool :=
  x.fired && !x.complete && !x.failed && x.kind != .gather && !x.word.getLsbD 2
    && (pagesOf x.addr.toNat (64 * x.cap)).contains p

/-- Is an accepted COPY descriptor in progress on a page? -/
def copyOn (p : Nat) (d : Started) : Bool :=
  let ws := d.words.map BitVec.toNat
  d.begun && wfield ws 1 0 8 == 3
    && (pagesOf (nthWord ws 5 + 2 ^ 32 * wfield ws 6 0 8) (64 * wfield ws 7 0 24)).contains p

/-- The accepted transfers in progress on a page: a transfer of a cell by its place in the order of issue, a COPY by its
queue, counted from 512, and slot. -/
def State.busyWith (s : State) (p : Nat) : List (Nat × Nat) :=
  s.cells.flatMap (fun c => (c.2.xfers.filter (fun x => xferOn p x.2)).map (fun x => (c.1, x.2.seq)))
    ++ s.host.queues.flatMap (fun q => (q.2.started.filter (copyOn p)).map (fun d => (512 + q.1, d.slot)))

/-- Is any accepted transfer in progress on a page? -/
def State.pageBusy (s : State) (p : Nat) : Bool := !(s.busyWith p).isEmpty

/-! ### Eviction (R299, R300) -/

/-- Is a page evictable (R299)? -/
def State.evictable (s : State) (p : Nat) (e : DirEntry) : Bool :=
  s.evictReady && !e.far && !e.peg && !e.lost && !e.fly && !e.moving && e.cls != 3 && !s.pageBusy p

/-- The age of a page (R297). -/
def State.pageAge (s : State) (e : DirEntry) : Nat := (s.pitch / 2 ^ 14 % 2 ^ 28 + 2 ^ 28 - e.lastuse) % 2 ^ 28

/-- Does a class exceed a non-zero quota? -/
def State.overQuota (s : State) (c : Nat) : Bool :=
  0 < s.fld (Reg.poolQuota c) 0 19 && s.fld (Reg.poolQuota c) 0 19 < s.classUse c

/-- The better candidate of two by the order of R299; the directory is in ascending page order. -/
def State.betterVictim (s : State) (a b : Nat × DirEntry) : Bool :=
  let qa := s.overQuota a.2.cls
  let qb := s.overQuota b.2.cls
  if qa != qb then qa else s.pageAge b.2 ≤ s.pageAge a.2

/-- The next page that a stack evicts (R299). -/
def State.victim (s : State) (n : Nat) : Option (Nat × DirEntry) :=
  (s.pool.dir.filter (fun q => q.2.home == n && s.evictable q.1 q.2)).foldl
    (fun b q => match b with
      | none => some q
      | some a => if s.betterVictim a q then some a else some q) none

/-- Evictions in progress on a stack. -/
def State.evictingOn (s : State) (n : Nat) : Nat :=
  (s.pool.evicts.filter (fun e => match s.dir e.page with | some d => d.home == n | none => false)).length

/-- Ends an eviction without effect: MOVING cleared and the slot released (R300). -/
def State.dropEviction (s : State) (p : Nat) : State :=
  match s.pool.evicts.find? (fun e => e.page == p) with
  | none => s
  | some v =>
    let s1 := { s with pool := { s.pool with evicts := s.pool.evicts.filter (fun e => e.page != p),
                                             farReqs := s.pool.farReqs.filter (fun r => r.id != v.id) } }
    let s2 := s1.setSlot v.slot false
    match s2.dir p with
    | some e => s2.setDir p { e with moving := false }
    | none => s2

/-- A write to a page cancels its eviction (R300). -/
def State.cancelEviction (s : State) (p : Nat) : State :=
  if s.pool.evicts.any (fun e => e.page == p) then (s.dropEviction p).bump Reg.poolEvictCancel else s

/-! ### Far requests (R302 to R304, R451) -/

/-- Do CXL.io unordered requests leave: FAR_CTRL.EN is 1 and CXL is up (R325, R442)? -/
def State.farOn (s : State) : Bool := s.fld Reg.farCtrl 0 1 == 1 && s.host.cxl

/-- The region that covers a far address, the lowest-numbered one (R302). -/
def State.farRegion (s : State) (a : Nat) : Option Nat :=
  (List.range 8).find? fun r =>
    let b := s.fld (Reg.farRegionFbase r) 0 23
    b ≤ a / pageBytes && a / pageBytes < b + s.fld (Reg.farRegionSize r) 0 24

/-- The host physical address of a far address in a region (R302). -/
def State.farHpa (s : State) (r a : Nat) : Nat :=
  s.reg64 (Reg.farRegionHpaLo r) (Reg.farRegionHpaHi r) + (a - pageBytes * s.fld (Reg.farRegionFbase r) 0 23)

/-- The region of an access of `n` bytes: far-tier access is on and every part of the access is covered (R302). -/
def State.farCovers (s : State) (a n : Nat) : Option Nat :=
  if s.farOn ∧ (pagesOf a n).all (fun p => (s.farRegion (pageBytes * p)).isSome) then s.farRegion a else none

/-- The cell number that FAR_READ_FAIL and FAR_WRITE_FAIL carry. -/
def farCell : FarOwner → Nat
  | .xfer c _ => c
  | _ => 0xFFFF

/-- UNIT of the reporter of a far failure: the cell of a transfer, the home groundsheet of a page (DEDUCED, log entry 11). -/
def State.farUnit (s : State) : FarOwner → Nat
  | .xfer c _ => unitCell c
  | .evict p => match s.dir p with | some e => unitGs e.home | none => unitMgmt
  | .bringup p => match s.dir p with | some e => unitGs e.home | none => unitMgmt

/-- The effects of a failed far read (R304). -/
def State.farReadFailed (s : State) (o : FarOwner) (region reason cell : Nat) : State :=
  let b := match o with | .bringup _ => 1 | _ => 0
  let s1 := (s.bump Reg.farFails).report 0x0307 (s.farUnit o) (reason + region * 2 ^ 4 + 2 ^ 7 * b + 2 ^ 16 * cell)
  if s.stepping then s1.raiseFlag flagDeadline s.epoch else s1

/-- The effects of a failed far write (R304). -/
def State.farWriteFailed (s : State) (o : FarOwner) (region reason : Nat) : State :=
  let b := match o with | .evict _ => 1 | _ => 0
  (s.bump Reg.farFails).report 0x0308 (s.farUnit o) (reason + region * 2 ^ 4 + 2 ^ 7 * b + 2 ^ 16 * farCell o)

/-- Registers a far request. -/
def State.addFar (s : State) (write : Bool) (o : FarOwner) (region len : Nat) (done : Option (Nat × List Byte)) :
    State :=
  { s with pool := { s.pool with
      farReqs := s.pool.farReqs ++ [{ id := s.pool.nextFar, write := write, owner := o, start := s.pitch, region := region,
                                      len := len, done := done }],
      nextFar := s.pool.nextFar + 1 } }

/-- The parts in which an access of `n` bytes at a far address leaves: within 256 bytes that begin at a multiple of 256, so
of at most 256 bytes, and each under one region (R302, R451; DESIGN CHOICE, log entry 48). -/
def uioParts (a n : Nat) : List (Nat × Nat) :=
  (List.range ((a + n + 255) / 256 - a / 256)).map (fun i =>
    let lo := max a (256 * (a / 256 + i))
    (lo, min (a + n) (256 * (a / 256 + i + 1)) - lo))

/-- Registers the UIO reads of an access. -/
def State.addReads (s : State) (o : FarOwner) (a n : Nat) : State :=
  let ps := uioParts a n
  let one := fun x : (Nat × Nat) × Nat =>
    let r := (s.farRegion x.1.1).getD 0
    { id := s.pool.nextFar + x.2, write := false, owner := o, start := s.pitch, region := r, len := x.1.2,
      hpa := s.farHpa r x.1.1, sent := false : FarReq }
  { s with pool := { s.pool with farReqs := s.pool.farReqs ++ (ps.zipIdx).map one, nextFar := s.pool.nextFar + ps.length } }

/-- Sends the first `room` reads of a list that wait, at a count. -/
def sendReads (t : Nat) : Nat → List FarReq → List FarReq × List Output
  | _, [] => ([], [])
  | room, r :: rs =>
    if room = 0 ∨ r.sent ∨ r.done.isSome then
      let x := sendReads t room rs
      (r :: x.1, x.2)
    else
      let x := sendReads t (room - 1) rs
      ({ r with sent := true, start := t } :: x.1, .farRead r.id r.hpa r.len :: x.2)

/-- UIO reads that have left and have not been answered. -/
def State.farOut (s : State) : Nat := s.pool.farReqs.countP (fun r => !r.write && r.sent && r.done.isNone)

/-- Sends reads that wait, in order, while fewer than 1,024 are outstanding (R451). -/
def State.pumpFar (s : State) : State :=
  let x := sendReads s.pitch (1024 - s.farOut) s.pool.farReqs
  { s with pool := { s.pool with farReqs := x.1 }, out := s.out ++ x.2 }

/-- Starts a far read of `len` bytes; an address that no region covers fails at once with reason 5 (R302, R304). -/
def State.farRead (s : State) (o : FarOwner) (a len cell : Nat) : State :=
  if (s.farCovers a len).isSome then (s.addReads o a len).pumpFar
  else (s.addFar false o 0 len (some (5, []))).farReadFailed o 0 5 cell

/-- The reads of an access. -/
def State.readsOf (s : State) (o : FarOwner) : List FarReq := s.pool.farReqs.filter (fun r => !r.write && r.owner == o)

/-- Exactly `n` bytes. -/
def fitBytes (n : Nat) (bs : List Byte) : List Byte := bs.take n ++ List.replicate (n - bs.length) 0

/-- What a far read has come to once every part of it has ended: reason 0 and its data, or the reason of its failure. -/
def State.farResult (s : State) (o : FarOwner) : Option (Nat × List Byte) :=
  let rs := s.readsOf o
  if rs.isEmpty ∨ rs.any (fun r => r.done.isNone) then none
  else match rs.find? (fun r => (r.done.getD (0, [])).1 != 0) with
    | some r => some ((r.done.getD (0, [])).1, [])
    | none => some (0, rs.flatMap (fun r => fitBytes r.len (r.done.getD (0, [])).2))

/-- Removes the far requests of an access. -/
def State.dropOwner (s : State) (o : FarOwner) : State :=
  { s with pool := { s.pool with farReqs := s.pool.farReqs.filter (fun r => r.owner != o) } }

/-- A part of a far read has failed: so has the access, whose other parts are waited for no longer (R304). -/
def State.failReads (s : State) (o : FarOwner) (reason : Nat) : State :=
  { s with pool := { s.pool with farReqs := s.pool.farReqs.map (fun r =>
      if !r.write && r.owner == o && r.done.isNone then { r with done := some (reason, []) } else r) } }

/-! ### Bring-ups (R301) -/

/-- The far address of an eviction slot (R305). -/
def State.slotAddr (s : State) (slot : Nat) : Nat := pageBytes * (s.fld Reg.farEvictBase 0 23 + slot)

/-- Does a request wait for a frame of a stack: an allocation, a retirement, or a bring-up (R294, R301, R321)? -/
def State.frameWaits (s : State) (n : Nat) : Bool :=
  s.pool.waits.any (fun w => match w with
      | .alloc _ _ m => m == n
      | .retire m _ => m == n
      | .free _ _ _ => false
      | .peg _ _ => false)
    || s.pool.bringups.any (fun b => b.frame.isNone && (match s.dir b.page with | some e => e.home == n | none => false))

/-- Gives a bring-up its frame and starts its read, when a frame is free (R301). -/
def State.bringupRead (s : State) (b : Bringup) : State :=
  match s.dir b.page with
  | none => s
  | some e =>
    match s.takeFrame e.home (.bringup b.page) with
    | none => s
    | some (f, s1) =>
      let s2 := (s1.farRead (.bringup b.page) (s1.slotAddr e.loc) pageBytes b.cell).quotaCheck s e.cls
      { s2 with pool := { s2.pool with
          bringups := s2.pool.bringups.map (fun x =>
            if x.page = b.page then { x with frame := some f } else x) } }

/-- Starts the bring-up of a page held in the far tier, unless one is in progress (R301); none starts while POOL_CTRL.EN
is 0 (R522). -/
def State.startBringup (s : State) (p cell : Nat) : State :=
  match s.dir p with
  | none => s
  | some e =>
    if !s.poolOn || !e.far || s.pool.bringups.any (fun b => b.page == p) then s
    else
      let b : Bringup := ⟨p, none, cell⟩
      let s1 := s.setDir p { e with moving := true }
      let s2 := { s1 with pool := { s1.pool with bringups := s1.pool.bringups ++ [b] } }
      -- a frame that others wait for is given out by the allocator (R53, R294)
      if s.frameWaits e.home then s2 else s2.bringupRead b

/-- Starts the bring-ups of every page of a list that is held in the far tier. -/
def State.bringAll (s : State) (ps : List Nat) (cell : Nat) : State := ps.foldl (fun t p => t.startBringup p cell) s

/-- Keeps a command until the pages it needs are resident (R301; DESIGN CHOICE, log entry 13). -/
def State.park (s : State) (i : Instr) : State := { s with parked := s.parked ++ [i] }

/-- The page that a frame in use holds a version of. -/
def usePageOf : FrameUse → Option Nat
  | .page p => some p
  | .fly p => some p
  | .old p => some p
  | .bringup p => some p
  | .reclaim => none
  | .copy => none
  | .retired => none

/-- Does the retirement copy of a frame of a page run (R321)? -/
def State.copying (s : State) (p : Nat) : Bool :=
  s.pool.retiring.any (fun r => (s.frameUse (frameNo r.stack r.frame)).bind usePageOf == some p)

/-- The pages of a list that an access must wait for: served, but held in the far tier (R301) or being copied (R321). -/
def State.farAmong (s : State) (ps : List Nat) : List Nat :=
  if s.poolOn then ps.filter (fun p => s.pageFar p || s.copying p) else []

/-- The pages of a list that a waiter still has to wait for: those in the far tier whose bring-up has not failed for it. -/
def State.farNeed (s : State) (w : FarWaiter) (ps : List Nat) : List Nat :=
  (s.farAmong ps).filter (fun p => !s.pool.failed.contains (p, w))

/-- A waiter waits for some pages: their bring-ups are started (R301). -/
def State.waitFar (s : State) (w : FarWaiter) (ps : List Nat) (cell : Nat) : State :=
  let t := s.bringAll ps cell
  { t with pool := { t.pool with waiters := t.pool.waiters.filter (fun x => x.2 != w) ++ ps.map (fun p => (p, w)) } }

/-- A waiter goes on: what it has waited for is forgotten. -/
def State.goOn (s : State) (w : FarWaiter) : State :=
  if s.pool.waiters.any (fun x => x.2 == w) ∨ s.pool.failed.any (fun x => x.2 == w) then
    { s with pool := { s.pool with waiters := s.pool.waiters.filter (fun x => x.2 != w),
                                   failed := s.pool.failed.filter (fun x => x.2 != w) } }
  else s

/-- A waiter that needs pages tries to act: it waits for those in the far tier (R301). Where a bring-up has failed its access
fails: the unit has what R523 gives it for a page that is not served (DEDUCED, log entry 13). -/
def State.orWait (s : State) (w : FarWaiter) (ps : List Nat) (cell : Nat) (act : State → State) : State :=
  let need := s.farNeed w ps
  if need.isEmpty then act (s.goOn w) else s.waitFar w need cell

/-- A command of a unit that needs pages: it waits for those in the far tier, else acts (R301). Where a bring-up has failed
its access fails: the unit has what R523 gives it for a page that is not served (DEDUCED, log entry 13). -/
def State.withPages (s : State) (i : Instr) (ps : List Nat) (act : State → State) : State :=
  let need := s.farNeed (.cmd i) ps
  if need.isEmpty then act (s.goOn (.cmd i)) else (s.waitFar (.cmd i) need 0xFFFF).park i

/-! ### Writes in place (R261, R300, R318) -/

/-- Writes bytes of one page in place, segment by segment (the fuel bounds the segments). -/
def State.writeSegs (p : Nat) (e : DirEntry) : Nat → Nat → List Byte → State → State
  | 0, _, _, s => s
  | f + 1, off, bs, s =>
    if bs.isEmpty then s
    else
      let n := segBytes - off % segBytes
      State.writeSegs p e f (off + n) (bs.drop n) (s.frameWrite (s.committedFrame p e off) off (bs.take n))

/-- Writes bytes of one resident page in place: the committed version (R261, R264). -/
def State.pageWrite (s : State) (p off : Nat) (bs : List Byte) : State :=
  let s0 := s.cancelEviction p
  match s0.dir p with
  | none => s0
  | some e => ((State.writeSegs p e 33 off bs (s0.partialTouch p e off bs.length))).usePage p

/-- Writes bytes from a pool address on, page by page. -/
def State.poolWriteAt : Nat → Nat → List Byte → State → State
  | 0, _, _, s => s
  | f + 1, a, bs, s =>
    if bs.isEmpty then s
    else
      let n := pageBytes - a % pageBytes
      State.poolWriteAt f (a + n) (bs.drop n) (s.pageWrite (a / pageBytes) (a % pageBytes) (bs.take n))

/-- Writes bytes from a pool address on; every page must be resident. -/
def State.poolWrite (s : State) (a : Nat) (bs : List Byte) : State :=
  State.poolWriteAt (bs.length / pageBytes + 2) a bs s

/-! ### Allocation (R294 to R296, R298) -/

/-- Maps a page to a frame that has been taken for it, zeroed (R294). -/
def State.mapPage (s : State) (p cls n f : Nat) : State :=
  ((s.zeroFrame f).setDir p { cls := cls, home := n, loc := frameIdx f, lastuse := s.pitch / 2 ^ 14 % 2 ^ 28 })

/-- What an allocation comes to: a page, or the stack has no free frame. -/
def State.allocNow (s : State) (p cls n : Nat) : Option State :=
  match s.takeFrame n (.page p) with
  | none => none
  | some (f, s1) => some ((s1.mapPage p cls n f).quotaCheck s cls)

/-- Releases the frames of a page: its own, and the one it keeps for an unfinished merge (R273, R295). -/
def State.releaseFrames (s : State) (p : Nat) (e : DirEntry) : State :=
  let s1 := match alistGet s.pool.merges p with
    | some m => { s.freeFrame m.frame with pool := { (s.freeFrame m.frame).pool with merges := tabDel p s.pool.merges } }
    | none => s
  s1.freeFrame (frameNo e.home e.loc)

/-- Releases the frame or eviction slot of a page and clears its entry (R295). -/
def State.releasePage (s : State) (p : Nat) : State :=
  let s0 := s.dropEviction p
  match s0.dir p with
  | none => s0
  | some e => (if e.far then s0.setSlot e.loc false else s0.releaseFrames p e).delDir p

/-- The result word of a pool command for a cell: page in [18:0], result code in [22:20] (R395). -/
def poolWord (page result : Nat) : W64 := BitVec.ofNat 64 (page % 2 ^ 19 + 2 ^ 20 * result)

/-- Answers a pool command on a page: the register of a cell, which is owed no longer, or BUSY and RESULT of POOL_CMD_STATUS
(R325, R395, R403). -/
def State.poolAnswer (s : State) (who : PoolClient) (page result : Nat) : State :=
  match who with
  | .cell c sd =>
    let k := s.cell c
    s.setCell c { k.setS sd (poolWord page result) with owed := k.owed.erase sd }
  | .host => s.setFld Reg.poolCmdStatus 0 4 (2 * result)

/-- Answers an allocation with its page, which POOL_CMD_STATUS keeps for the host (Table 10-9). -/
def State.allocDone (s : State) (who : PoolClient) (page : Nat) : State :=
  match who with
  | .cell _ _ => s.poolAnswer who page 0
  | .host => (s.setFld Reg.poolCmdStatus 12 19 page).poolAnswer who page 0

/-- Answers an allocation that fails; the page in a cell's result word is then a free value (DESIGN CHOICE, log entry 5). -/
def State.allocFails (s : State) (who : PoolClient) (result : Nat) : State :=
  match who with
  | .cell _ _ => s.drawNat.2.poolAnswer who (s.drawNat.1 % 2 ^ 19) result
  | .host => s.poolAnswer who 0 result

/-- The cell number of POOL_FULL, and its UNIT. -/
def clientCell : PoolClient → Nat
  | .cell c _ => c
  | .host => 0xFFFF

/-- UNIT of the client of a pool command. -/
def clientUnit : PoolClient → Nat
  | .cell c _ => unitCell c
  | .host => unitMgmt

/-- Reports POOL_FULL and answers full (R294). -/
def State.poolFull (s : State) (who : PoolClient) (n cls : Nat) : State :=
  (s.report 0x0301 (clientUnit who) (n + cls * 2 ^ 4 + 2 ^ 16 * clientCell who)).allocFails who 1

/-- Makes a directory command wait; a cell is owed its register, the host reads BUSY. -/
def State.poolWait (s : State) (w : PoolWait) (who : PoolClient) : State :=
  let s1 := { s with pool := { s.pool with waits := s.pool.waits ++ [w] } }
  match who with
  | .cell c sd => if sd = 0 then s1 else s1.setCell c { s1.cell c with owed := sd :: (s1.cell c).owed }
  | .host => s1.setFld Reg.poolCmdStatus 0 1 1

/-- Could an eviction free a frame of a stack: one is in progress, or a page is evictable and eviction is on (R294,
R299)? -/
def State.canEvict (s : State) (n : Nat) : Bool :=
  s.poolOn && s.fld Reg.poolCtrl 1 1 == 1 && (0 < s.evictingOn n || (s.victim n).isSome)

/-- Allocates a page of a class on a stack, 15 for any (R294, R296). Where others wait for a frame of the stack it waits
with them, and the allocator decides among them (R53). -/
def State.allocPage (s : State) (who : PoolClient) (cls stack : Nat) : State :=
  if cls = 3 ∨ (11 < stack ∧ stack ≠ 15) then s.allocFails who 2 else
  let n := if stack = 15 then s.bestStack else stack
  match s.lowestPage with
  | none => s.poolFull who n cls
  | some p =>
    if s.frameWaits n then s.poolWait (.alloc who cls n) who
    else match s.allocNow p cls n with
      | some s1 => s1.allocDone who p
      | none => if s.canEvict n then s.poolWait (.alloc who cls n) who else s.poolFull who n cls

/-- Frees a page (R295): refused while a fly version exists, waiting for the transfers already accepted for the page. -/
def State.freePage (s : State) (who : PoolClient) (p : Nat) : State :=
  match s.dir p with
  | none => s.poolAnswer who p 2
  | some e =>
    if e.fly then s.poolAnswer who p 3
    else if s.pageBusy p ∨ s.pool.bringups.any (fun b => b.page == p) then s.poolWait (.free who p (s.busyWith p)) who
    else (s.releasePage p).poolAnswer who p 0

/-- Pegs a page, bringing it up first if it is FAR (R298). -/
def State.pegPage (s : State) (who : PoolClient) (p : Nat) : State :=
  match s.dir p with
  | none => s.poolAnswer who p 2
  | some e =>
    if e.far then (s.startBringup p (clientCell who)).poolWait (.peg who p) who
    else
      let s1 := s.dropEviction p
      (match s1.dir p with
        | some e1 => s1.setDir p { e1 with peg := true }
        | none => s1).poolAnswer who p 0

/-- Unpegs a page (R298). -/
def State.unpegPage (s : State) (who : PoolClient) (p : Nat) : State :=
  match s.dir p with
  | none => s.poolAnswer who p 2
  | some e => (s.setDir p { e with peg := false }).poolAnswer who p 0

end Sys2Proof.Machine
end

