-- ==== Sys2Proof/Machine/Complete.lean ====
section
/-! DEFINITION. Completion of descriptors (R455, R462, R466) and the words of MOD_STEP_STATUS. -/

namespace Sys2Proof.Machine

/-- Slots of a queue's rings: `2^LOG2N`. -/
def State.queueSize (s : State) (q : Nat) : Nat := 2 ^ s.fld (Reg.hqQctrl q) 4 4

/-- A drained queue enters DISABLED with HEAD, TAIL and the completion index 0 (R455). -/
def State.queueSettle (s : State) (q : Nat) : State :=
  let k := s.queue q
  if k.draining ∧ k.started.isEmpty then (s.setQueue q {}).setFld (Reg.hqQtail q) 0 16 0 else s

/-- Completes a started descriptor: its record is written and its vector signalled (R462, R466). -/
def State.complete (s : State) (q : Nat) (d : Started) (status result : Nat) : State :=
  let k := s.queue q
  let n := s.queueSize q
  let ws := d.words.map BitVec.toNat
  let base := s.reg64 (Reg.hqQcbaseLo q) (Reg.hqQcbaseHi q)
  let phase := if k.completed / n % 2 = 0 then 2 ^ 63 else 0
  let s1 := s.toHost (.hostWrite (base + 32 * (k.completed % n))
    [BitVec.ofNat 64 s.pitch,
     BitVec.ofNat 64 (nthWord ws 2 + 2 ^ 32 * d.slot + 2 ^ 48 * status + 2 ^ 56 * wfield ws 1 0 8),
     BitVec.ofNat 64 result, BitVec.ofNat 64 phase])
  let s2 := s1.setQueue q { k with completed := k.completed + 1, started := k.started.erase d }
  let s3 := if wfield ws 1 9 1 = 1 ∧ s.fld (Reg.hqQctrl q) 8 1 = 1 then s2.msix q else s2
  s3.queueSettle q

/-- STATE of MOD_STEP_STATUS (Table 9-1). -/
def stepCode : StepMode → Nat
  | .idle => 0
  | .opened => 1
  | .sealed => 2
  | .diverged => 3

/-- The word of MOD_STEP_STATUS (Table 9-8). -/
def State.stepStatus (s : State) : Nat :=
  let k := s.step
  stepCode k.mode + k.flags.toNat * 2 ^ 4 + 2 ^ 8 * k.pend.toNat + 2 ^ 12 * k.lastOr.toNat
    + 2 ^ 16 * b2n k.lastVerdict + 2 ^ 17 * b2n k.lastLocal + 2 ^ 18 * b2n k.lateSeen + 2 ^ 20 * k.lateOr.toNat

/-- Completes one STEP descriptor that waits for the verdict of an epoch (R459). -/
def State.completeStep (e : W32) (s : State) (x : Nat × Started) : State :=
  let ws := x.2.words.map BitVec.toNat
  if x.2.begun ∧ wfield ws 1 0 8 = 2 ∧ nthWord ws 3 = e.toNat then s.complete x.1 x.2 0 s.stepStatus else s

/-- Completes the STEP descriptors of an epoch, queue by queue. -/
def State.completeSteps (s : State) (e : W32) : State :=
  (s.host.queues.flatMap (fun q => q.2.started.map (fun d => (q.1, d)))).foldl (State.completeStep e) s

end Sys2Proof.Machine
end

