-- ==== Sys2Proof/Machine/Route.lean ====
section
/-! DEFINITION. The fabric as its units use it: delivery, routing and credits (R332 to R355), transactions (R356, R357),
channel contexts (R359 to R362). -/

namespace Sys2Proof.Machine

/-! ### Ports and credits (R335, R336) -/

/-- Active lanes of a port. -/
def Port.laneCount (q : Port) : Nat :=
  b2n (q.lanes.testBit 0) + b2n (q.lanes.testBit 1) + b2n (q.lanes.testBit 2) + b2n (q.lanes.testBit 3)

/-- Is a port UP? -/
def State.portUp (s : State) (p : Nat) : Bool := (s.port p).mode == .up

/-- Are messages on virtual lanes 0 to 5 sent and accepted: FAB_CTRL.EN and FAB_ADDR.VALID are 1 (R347, Table 11-12)? -/
def State.fabOn (s : State) : Bool := s.fld Reg.fabCtrl 0 1 == 1 && s.fld Reg.fabAddr 31 1 == 1

/-- Data flits of a message (R333). -/
def flitsOf (h : Hdr) : Nat := max 1 (ceilDiv h.len.toNat 240)

/-- Data flits that a message has: those it came in, or those it takes. -/
def Msg.flits (m : Msg) : Nat := m.got.getD (flitsOf m.h)

/-- The most bytes that a message has, its header included (R333): an object of R339 to R376 that is sent is no longer. -/
def msgMax : Nat := 65600

/-- Are the flits of a message whole: each with its FCRC, SOM on the first and EOM on the last alone, and as many bytes as
the header's LEN says, which is at most the bound of R333 (R333, R334)? -/
def flitsWhole (h : Hdr) (fs : List Flit) : Bool :=
  let n := fs.length
  0 < n && fs.all (·.good) && fs.map (·.som) == true :: List.replicate (n - 1) false
    && fs.map (·.eom) == List.replicate (n - 1) false ++ [true]
    && sumNat (fs.map (·.len)) == h.len.toNat && decide (h.len.toNat ≤ msgMax)

/-- Flits of a credit pool: ADAPT, ESC0, ESC1 (R336). -/
def poolSize (pool : Nat) : Nat := if pool = 0 then 32 else 16

/-- Index of a lane and pool in the counts of a port. -/
def laneIdx (vl pool : Nat) : Nat := 3 * vl + pool

/-- A count of a port. -/
def countAt (m : List (Nat × Nat)) (i : Nat) : Nat := tabGet (fun _ => 0) m i

/-- Stores a count. -/
def setCount (m : List (Nat × Nat)) (i v : Nat) : List (Nat × Nat) := tabSet (fun _ => 0) m i v

/-- Credits of a lane and pool that a port holds. -/
def Port.credit (q : Port) (vl pool : Nat) : Nat := poolSize pool - countAt q.used (laneIdx vl pool)

/-- Flits queued for a lane at a port. -/
def Port.queued (q : Port) (vl : Nat) : Nat := sumNat ((q.queue.filter (fun x => x.msg.vl == vl)).map (·.left))

/-- The message that a lane sends next: the one under way, else the first whose pool has credit (R333). -/
def Port.ready (q : Port) (vl : Nat) : Option Queued :=
  match q.queue.find? (fun x => x.msg.vl == vl && x.left < x.msg.flits) with
  | some x => if 0 < q.credit vl x.pool then some x else none
  | none => q.queue.find? (fun x => x.msg.vl == vl && 0 < q.credit vl x.pool)

/-- A register in units of 1,024 counts the whole units, if there are any; nothing but registers is concerned. -/
def State.bumpUnits (s : State) (off n : Nat) : State :=
  { s with regs := if n = 0 then s.regs else (s.bumpBy off n).regs }

/-- The identity of the module on a port, as its link flits carry it (R336). -/
def State.portId (s : State) (p : Nat) : PortId :=
  { serial := s.fab.serial, addr := BitVec.ofNat 17 s.ownAddr, valid := s.fld Reg.fabAddr 31 1 == 1, port := p }

/-- Returns the credits of `n` flits of a message that have left the buffer of the port it arrived on (R336). -/
def State.giveBack (s : State) (m : Msg) (n : Nat) : State :=
  match m.back with
  | none => s
  | some (p, pool) =>
    let q := s.port p
    let i := laneIdx m.vl pool
    let c := countAt q.freed i + n
    (s.setPort p { q with freed := setCount q.freed i c }).emit (.creditReturn p m.vl pool (c % 256) (s.portId p))

/-- Sends `n` flits of a queued message (R336): credits spent, counts advanced, the message gone with its last flit. -/
def State.sendFlits (s : State) (p : Nat) (x : Queued) (n : Nat) : State :=
  let q := s.port p
  let i := laneIdx x.msg.vl x.pool
  let tx := q.txRest + n
  let q1 : Port :=
    { q with used := setCount q.used i (countAt q.used i + n), sent := setCount q.sent i (countAt q.sent i + n),
             txRest := tx % 1024,
             queue := if x.left ≤ n then q.queue.erase x else q.queue.replace x { x with left := x.left - n } }
  let s1 := ((s.setPort p q1).bumpUnits (Reg.fabPortTxFlits p) (tx / 1024)).giveBack x.msg n
  if x.left ≤ n then 
    s1.emit (.send p x.msg.vl x.pool x.msg.ar x.msg.esc x.msg.hops x.msg.intact x.msg.h x.msg.payload) else s1

/-- Sends what the credits of a port allow; lanes are chosen by R53 with `n` = 7. A FENCED port serves lane 6 only. -/
def State.pumpPort (p : Nat) : Nat → State → State
  | 0, s => s
  | f + 1, s =>
    let q := s.port p
    if q.mode ≠ .up ∧ q.mode ≠ .fenced then s else
    match arbiter 7 s.pitch (fun vl => (q.ready vl).isSome && (q.mode == .up || vl == 6)) with
    | none => s
    | some vl =>
      match q.ready vl with
      | none => s
      | some x => State.pumpPort p f (s.sendFlits p x (min x.left (q.credit vl x.pool)))

/-- Sends what a port can send. -/
def State.pump (s : State) (p : Nat) : State := State.pumpPort p (2 * (s.port p).queue.length + 1) s

/-- Puts a message into the queue of a port. -/
def State.enqueue (s : State) (p pool : Nat) (m : Msg) : State :=
  let q := s.port p
  (s.setPort p { q with queue := q.queue ++ [(⟨m, pool, m.flits⟩ : Queued)] }).pump p

/-! ### Delivery and routing (R334, R341, R352, R355) -/

/-- A KIND that a message may carry (Table 11-6); 0x00 is stored only. -/
def kindOk (k : Nat) : Bool := (1 ≤ k && k ≤ 6) || k == 8 || (0x0A ≤ k && k ≤ 0x0C)

/-- Does a unit code name a unit of a module (Table 11-5)? -/
def unitOk (u : Nat) : Bool := u < 512 || (0x4000 ≤ u && u < 0x400C) || u == 0x7FFF

/-- The stamp of a message handed to a unit: the count at its arrival at the port, or, of one from a unit of this module,
at its delivery (R51, R341). -/
def State.stampOf (s : State) (h : Hdr) : Nat := ((s.fab.arrived.find? (fun x => x.1 == h)).map (·.2)).getD s.pitch

/-- A unit takes a message that has been handed to it. -/
def State.unstamp (s : State) (h : Hdr) : State :=
  { s with fab := { s.fab with arrived := s.fab.arrived.eraseP (fun x => x.1 == h) } }

/-- Keeps the stamp of a message that is handed to a unit. -/
def State.keepStamp (s : State) (h : Hdr) : State :=
  { s with fab := { s.fab with arrived := s.fab.arrived ++ [(h, s.pitch)] } }

/-- Delivers a message that is for this module, or drops it (R334, R341). -/
def State.deliver (s0 : State) (m : Msg) : State :=
  let s := s0.giveBack m m.flits
  if m.intact = false then s.bump Reg.fabIncomplete
  else if kindOk m.h.kind.toNat = false ∨ unitOk m.h.dstUnit.toNat = false then s.bump Reg.fabBadKind
  else (s.keepStamp m.h).emit (.deliver m.h m.payload)

/-- Drops a message for want of a route (R352). -/
def State.noRoute (s : State) (m : Msg) : State :=
  ((s.giveBack m m.flits).bump Reg.fabUnroutable).reportLim 0x0406 (m.h.dst.toNat * 8 + m.vl) unitMgmt (m.h.dst.toNat + 2 ^ 17 * m.vl)

/-- Drops a message whose hops are spent (R355). -/
def State.ttlDrop (s : State) (m : Msg) : State :=
  ((s.giveBack m m.flits).bump Reg.fabTtlDrop).reportLim 0x0407 (m.h.dst.toNat * 8 + m.vl) unitMgmt
    (m.h.dst.toNat + 2 ^ 17 * m.vl)

/-- The cost of a port for a lane (R352). -/
def State.portCost (s : State) (vl p : Nat) : Nat :=
  let q := s.port p
  if q.laneCount = 2 then 2 * q.queued vl else q.queued vl

/-- The lower-cost port of two; among equals the one seen first. -/
def State.cheaper (s : State) (vl : Nat) (b : Option Nat) (p : Nat) : Option Nat :=
  match b with
  | none => some p
  | some x => if s.portCost vl p < s.portCost vl x then some p else some x

/-- Sends a message on the port its entry and the candidates give (R352). -/
def State.routeBy (s : State) (arr : Option Nat) (m : Msg) (e : Nat) : State :=
  let prim := e % 32
  let alt := fun p : Nat => e.testBit (p + 5)
  let cand := fun p : Nat =>
    (p == prim && s.portUp p)
      || (m.ar && e.testBit 30 && alt p && s.portUp p && arr != some p && 0 < (s.port p).credit m.vl 0)
  let order := (List.range 24).map (fun i => (s.pitch + i) % 24)
  match (order.filter cand).foldl (s.cheaper m.vl) none with
  | some p =>
    if p = prim then s.enqueue p (1 + b2n m.esc) { m with esc := m.esc || e.testBit 29 } else s.enqueue p 0 m
  | none =>
    match (List.range 24).find? (fun p => alt p && s.portUp p && arr != some p) with
    | some f => (s.enqueue f (1 + b2n m.esc) m).bump Reg.fabFailover
    | none => s.noRoute m

/-- Routes a message that reaches the module on a port, or from a unit of its own (R352). -/
def State.route (s : State) (arr : Option Nat) (m : Msg) : State :=
  let dst := m.h.dst.toNat
  if dst = s.ownAddr then s.deliver m
  else if arr.isSome ∧ m.hops = 0 then s.ttlDrop m
  else
    let e := (s.reg (Reg.fabRt dst)).toNat
    let m1 := if arr.isSome then { m with hops := m.hops - 1 } else m
    -- an entry whose PRIMARY is 24 to 31 is invalid (Table 11-10)
    if e.testBit 31 = false ∨ 24 ≤ e % 32 then s.noRoute m1 else s.routeBy arr m1 e

/-- Sends a message of a unit of this module: to a unit of this module directly (R341), to another only while the fabric
is on (R347; DEDUCED, log entry 16). -/
def State.issueMsg (s : State) (h : Hdr) (payload : List Byte) (vl : Nat) (ar : Bool) : State :=
  let m : Msg := { h := h, payload := payload, vl := vl, ar := ar, hops := s.fld Reg.fabCtrl 8 6 }
  if h.dst.toNat = s.ownAddr ∨ s.fabOn then s.route none m else s

/-- Sends a transaction request; it takes AR from FAB_CTRL.AR_TXN (R352). -/
def State.issueReq (s : State) (h : Hdr) (vl : Nat) : State := s.issueMsg h [] vl (s.fld Reg.fabCtrl 1 1 == 1)

/-- Sends a gather response; the manual gives no AR for it, so it is a free value (DESIGN CHOICE, log entry 17). -/
def State.issueResp (s : State) (h : Hdr) (payload : List Byte) : State :=
  if h.dst.toNat = s.ownAddr then s.issueMsg h payload 1 false
  else ({ s with free := s.free + 1 }).issueMsg h payload 1 (Config.freeBool s.free)

/-! ### Transactions (R356, R357) -/

/-- FAB_TXN_TIMEOUT. -/
def State.txnTimeout (s : State) : Nat := s.fld Reg.fabTxnTimeout 0 24

/-- Is a tag free and not freed within the last 2 × FAB_TXN_TIMEOUT ticks (R356)? -/
def State.tagFree (s : State) (t : Nat) : Bool :=
  !s.fab.txns.any (fun x => x.tag == t)
    && (match alistGet s.fab.freed t with | some at_ => at_ + 2 * s.txnTimeout < s.pitch | none => true)

/-- The lowest qualifying tag at or after `t`, among `f` candidates. -/
def State.seekTag (s : State) : Nat → Nat → Option Nat
  | 0, _ => none
  | f + 1, t => if 32768 ≤ t then none else if s.tagFree t then some t else s.seekTag f (t + 1)

/-- The tag a request would take. -/
def State.nextTag (s : State) : Option Nat := s.seekTag (s.fab.txns.length + s.fab.freed.length + 1) 0

/-- Starts a transaction with a tag: the request leaves on a lane. -/
def State.startTxn (s : State) (tag : Nat) (owner : TxnOwner) (h : Hdr) (vl : Nat) : State :=
  let h1 := { h with tag := BitVec.ofNat 15 tag, resp := false }
  let x : Txn := ⟨tag, { h := h1, vl := vl }, owner, s.pitch, 0⟩
  ({ s with fab := { s.fab with txns := s.fab.txns ++ [x] } }).issueReq h1 vl

/-- Ends a transaction and frees its tag. -/
def State.endTxn (s : State) (tag : Nat) : State :=
  { s with fab := { s.fab with txns := s.fab.txns.filter (fun x => x.tag != tag),
                               freed := tabPut tag s.pitch s.fab.freed } }

/-- The transaction that a response completes: its tag is outstanding, and its SRC and ARG match the request (R357). -/
def State.txnOf (s : State) (h : Hdr) : Option Txn :=
  s.fab.txns.find? (fun x => x.tag == h.tag.toNat && x.msg.h.dst == h.src && x.msg.h.arg == h.arg)

/-! ### Channel contexts (R359 to R362) -/

/-- The pool address of a context. -/
def State.chanAddr (s : State) (c : Nat) : Nat := pageBytes * s.fld Reg.fabChanBase 0 19 + 64 * c

/-- Is the page of a context served? -/
def State.chanOk (s : State) (c : Nat) : Bool :=
  s.pageHere (s.chanAddr c / pageBytes)

/-- The sixteen words of a context as they stand. -/
def State.chanWords (s : State) (c : Nat) : List Nat := s.poolWords (s.chanAddr c)

/-- A context as used (R359, R487). -/
structure Ctx where
  peer : Nat
  peerUnit : Nat
  peerChan : Nat
  vl : Nat
  ar : Bool
  ordered : Bool
  window : Nat
  rto : Nat
  retries : Nat
  tx : Nat
  acked : Nat
  rx : Nat
  cstate : Nat
  deriving DecidableEq, Repr

/-- The context that sixteen words give, clamped (Table 11-11). -/
def ctxOf (ws : List Nat) : Ctx :=
  let f := wfield ws
  { peer := f 1 0 17, peerUnit := f 1 17 15, peerChan := f 2 0 16, vl := min (f 2 16 3) 6, ar := f 2 19 1 == 1,
    ordered := f 2 20 1 == 1, window := max 1 (f 2 24 8), rto := max 16 (f 3 0 24), retries := f 3 24 4,
    tx := nthWord ws 10, acked := nthWord ws 11, rx := nthWord ws 12, cstate := f 13 0 2 }

/-- What the check of a context records (R360, R487). -/
def ctxItems (ws : List Nat) : List ClampItem :=
  let f := wfield ws
  rjField ws 1 17 15 (unitOk (f 1 17 15)) ++ ckField ws 2 16 3 (min (f 2 16 3) 6) ++ ckField ws 2 21 3 0
    ++ ckField ws 2 24 8 (max 1 (f 2 24 8)) ++ ckField ws 3 0 24 (max 16 (f 3 0 24)) ++ ckField ws 3 28 4 0
    ++ ckWords ws 4 9 ++ ckWords ws 14 14

/-- A context as it stands; none where its page is not served. -/
def State.ctx (s : State) (c : Nat) : Option Ctx := if s.chanOk c then some (ctxOf (s.chanWords c)) else none

/-- Writes a word of a context, 10 to 13. -/
def State.setCtxWord (s : State) (c w v : Nat) : State := s.poolWrite (s.chanAddr c + 4 * w) (leBytes 4 v)

/-- The part of a context beside its record. -/
def State.chan (s : State) (c : Nat) : Chan := tabGet (fun _ => {}) s.fab.chans c

/-- Stores it. -/
def State.setChan (s : State) (c : Nat) (v : Chan) : State :=
  { s with fab := { s.fab with chans := tabSet (fun _ => {}) s.fab.chans c v } }

/-- Sends one message on an open context: it takes TX_SEQ modulo 2¹⁵, and waits for an acknowledgement (R361). -/
def State.chanPush (s : State) (c : Nat) (x : Ctx) (m : Msg) : State :=
  let h := { m.h with dst := BitVec.ofNat 17 x.peer, chan := BitVec.ofNat 16 x.peerChan,
                      tag := BitVec.ofNat 15 x.tx, resp := false }
  let m1 := { m with h := h, vl := x.vl, ar := x.ar }
  let k := s.chan c
  let k1 := { k with unacked := k.unacked ++ [m1], progress := if k.unacked.isEmpty then s.pitch else k.progress }
  ((s.setChan c k1).setCtxWord c 10 ((x.tx + 1) % 2 ^ 32)).issueMsg h m1.payload x.vl x.ar

/-- Must a unit that has a message for a context wait: the context is OPEN and its window is full (R361)? -/
def State.chanBlocked (s : State) (c : Nat) : Bool :=
  match s.ctx c with
  | some x => x.cstate == 1 && decide (x.window ≤ (x.tx + 2 ^ 32 - x.acked) % 2 ^ 32)
  | none => false

/-- Sends a message on a context whose window is not full; a context that is not OPEN loses it (R361, R362; DEDUCED, log entry
18). -/
def State.chanSend (s : State) (c : Nat) (h : Hdr) (payload : List Byte) : State :=
  match s.ctx c with
  | none => s.notServed 0xFFFF (s.chanAddr c / pageBytes)
  | some x => if x.cstate = 1 then s.chanPush c x { h := h, payload := payload } else s

/-- Sends what a collective unit has formed, oldest first, up to a message whose context's window is full (R361, R378). -/
def State.pumpOut (d : Nat) : Nat → State → State
  | 0, s => s
  | f + 1, s =>
    match (s.cu d).outbox with
    | [] => s
    | m :: ms =>
      if s.chanBlocked m.ctx then s
      else State.pumpOut d f ((s.setCu d { s.cu d with outbox := ms }).chanSend m.ctx m.h m.payload)

/-- A collective unit has formed a message: it leaves behind those that wait. -/
def State.cuSend (s : State) (d : Nat) (m : OutMsg) : State :=
  let k := s.cu d
  State.pumpOut d (k.outbox.length + 1) (s.setCu d { k with outbox := k.outbox ++ [m] })

/-- The collective units go on after a window has moved. -/
def State.pumpUnits (s : State) : State :=
  (List.range 8).foldl (fun t d => State.pumpOut d (t.cu d).outbox.length t) s

/-- Rejects a message for a context that is not OPEN (R362). -/
def State.chanReject (s : State) (c : Nat) : State :=
  (s.bump Reg.fabChanReject).reportLim 0x0409 (2 * c + 1) unitMgmt (c + 2 ^ 16)

/-- Sends the acknowledgement of a context: the highest sequence number below which every message has been received
(R361). -/
def State.chanAck (s : State) (c : Nat) : State :=
  match s.ctx c with
  | none => s
  | some x =>
    let h : Hdr := { kind := 8, src := BitVec.ofNat 17 s.ownAddr, srcUnit := 0x7FFF, chan := BitVec.ofNat 16 x.peerChan,
                     len := 64, arg := BitVec.ofNat 128 x.rx, dst := BitVec.ofNat 17 x.peer,
                     dstUnit := BitVec.ofNat 15 x.peerUnit }
    (s.setChan c { s.chan c with ackFrom := none, told := x.rx }).issueMsg h [] 4 x.ar

/-- Takes accepted numbers ahead of `rx` that have become next: the new RX_SEQ, what stays ahead, what is delivered. -/
def chanAdvance : Nat → Nat → List (Nat × Option Msg) → List Msg → Nat × List (Nat × Option Msg) × List Msg
  | 0, rx, ahead, out => (rx, ahead, out)
  | f + 1, rx, ahead, out =>
    match alistGet ahead (rx % 2 ^ 15) with
    | none => (rx, ahead, out)
    | some m => chanAdvance f ((rx + 1) % 2 ^ 32) (tabDel (rx % 2 ^ 15) ahead)
        (match m with | some x => out ++ [x] | none => out)

/-- Receives a channel message (R361, R362): the messages it delivers now, in order, and the state after. -/
def State.chanReceive (s : State) (h : Hdr) (payload : List Byte) : List Msg × State :=
  let c := h.chan.toNat
  match s.ctx c with
  | none => ([], s.chanReject c)
  | some x =>
    if x.cstate ≠ 1 then ([], s.chanReject c) else
    let k := s.chan c
    let d := (h.tag.toNat + 2 ^ 15 - x.rx % 2 ^ 15) % 2 ^ 15
    if x.window ≤ d ∨ (alistGet k.ahead h.tag.toNat).isSome then ([], s) else
    let m : Msg := { h := h, payload := payload }
    let ahead := tabPut h.tag.toNat (if x.ordered then some m else none) k.ahead
    let r := chanAdvance 32768 x.rx ahead []
    let now := if x.ordered then r.2.2 else [m]
    let k1 := { k with ahead := r.2.1,
                       ackFrom := if now.isEmpty then k.ackFrom
                         else match k.ackFrom with | some t => some t | none => some s.pitch }
    let s1 := (s.setChan c k1).setCtxWord c 12 r.1
    (now, if x.window ≤ 2 * ((r.1 + 2 ^ 32 - k.told) % 2 ^ 32) then s1.chanAck c else s1)

/-- Would a channel message be received as new (R361, R378)? -/
def State.chanNew (s : State) (h : Hdr) : Bool :=
  match s.ctx h.chan.toNat with
  | some x =>
    x.cstate == 1 && (h.tag.toNat + 2 ^ 15 - x.rx % 2 ^ 15) % 2 ^ 15 < x.window
      && (alistGet (s.chan h.chan.toNat).ahead h.tag.toNat).isNone
  | none => false

end Sys2Proof.Machine
end

