-- ==== Sys2Proof/Machine/GsOps.lean ====
section
/-! DEFINITION. Contributions, expected slices and gather answers of a groundsheet (R229 to R235, R251, R279). -/

namespace Sys2Proof.Machine

/-! ### The epoch of arriving work (Table 9-6) -/

/-- Where the epoch of arriving work stands: of the current step, of the next, or stale. -/
inductive EpochClass where
  | current | next | stale
  deriving DecidableEq, Repr

/-- Judges an epoch (Table 9-6): in DIVERGED every epoch is stale (R280). -/
def State.classify (s : State) (e : W32) : EpochClass :=
  if s.step.mode = .diverged then .stale
  else if e = s.epoch then .current
  else if e = nextEpoch s.epoch then .next
  else .stale

/-- Drops a stale piece or contribution (Table 9-6). -/
def State.staleIn (s : State) : State := s.bump Reg.modStaleIn

/-! ### Header operands of messages -/

/-- ROW0 of ARG (Table 11-6). -/
def hdrRow0 (h : Hdr) : Nat := field h.arg.toNat 23 0
/-- COL0 of ARG. -/
def hdrCol0 (h : Hdr) : Nat := field h.arg.toNat 49 32

/-- Is a format code reserved (Table 3-1)? -/
def fmtReserved (f : Nat) : Bool := 9 ≤ f

/-- Word `i` of 32 bits of a payload; bytes the operand does not list are 0 (DESIGN CHOICE, log entry 1). -/
def payWord (bs : List Byte) (i : Nat) : W32 := BitVec.ofNat 32 (leNat ((bs.drop (4 * i)).take 4))

/-- The first `n` words of a payload. -/
def payWords (bs : List Byte) (n : Nat) : List W32 := (List.range n).map (payWord bs)

/-- Is a W32 pattern a NaN or an overflow marker? -/
def nonFinite (w : W32) : Bool := !isFinVal (decW32 w)

/-! ### Expected slices (R235) -/

/-- The global numbers of the slices that a record covers. -/
def State.recordSlices (s : State) (n : Nat) (x : Shard) : List Nat :=
  let sr := s.sliceRows n
  (List.range (ceilDiv x.rows sr)).map (fun k => x.unit * s.unitRows n / sr + k)

/-- The slices a record expects, as (record, slice): none where its group is frozen or its layer has DW_SKIP set. -/
def State.expectOf (s : State) (n : Nat) (x : Shard) (l : LDesc) : List (Nat × Nat) :=
  if x.desc.frozen ∨ l.dwSkip then [] else (s.recordSlices n x).map (fun k => (x.index, k))

/-- The expected slices from the records and descriptors as they stand. -/
def State.expectNow (s : State) (n : Nat) : List (Nat × Nat) :=
  (List.range (s.shardCount n)).flatMap fun i =>
    match s.peekShard n i with
    | some x => s.expectOf n x (s.peekLayer x.layer)
    | none => []

/-- GS_SLICES_OPEN (R235): the expected slices less those written. -/
def State.slicesOpen (s : State) (n : Nat) : Nat :=
  let k := s.gs n
  let e := match k.expected with | some e => e | none => s.expectNow n
  (e.filter (fun x => !k.written.contains x)).length

/-- Reads record `i` and its layer descriptor at T_seal: its slices join the expected set; a skipped record is counted
(R235). -/
def State.sealRecord (n : Nat) (a : List (Nat × Nat) × State) (i : Nat) : List (Nat × Nat) × State :=
  match a.2.readShard n i with
  | (none, s1) => (a.1, s1)
  | (some x, s1) =>
    let r := s1.readLayer (0x8000 + n) (unitGs n) x.layer
    let s2 := if x.desc.frozen = false ∧ r.1.dwSkip then r.2.bump (Reg.gsSkipped n) else r.2
    (a.1 ++ r.2.expectOf n x r.1, s2)

/-- Fixes the expected slices of a groundsheet at T_seal; a slice not written raises DEADLINE_FATAL in the epoch's flags
(R30, R235). -/
def State.sealGs (s : State) (n : Nat) : State :=
  let r := (List.range (s.shardCount n)).foldl (State.sealRecord n) ([], s)
  let s1 := r.2.setGs n { r.2.gs n with expected := some r.1 }
  if 0 < s1.slicesOpen n then { s1 with step := { s1.step with flags := s1.step.flags ||| flagDeadline } } else s1

/-! ### Contributions (R229 to R233, R377) -/

/-- Reports a dropped piece (R231): kind 0 duplicate, 1 out of range, 2 out of bounds. -/
def State.dropPiece (s : State) (n kind : Nat) (h : Hdr) : State :=
  ((s.bump (Reg.gsDupSlices n)).reportLim 0x0381 n (unitGs n)
    (n + kind * 2 ^ 4 + 2 ^ 8 * h.mb.toNat + 2 ^ 12 * h.layer.toNat)).raiseFlag flagAbort h.epoch

/-- Do two pieces share an element? -/
def piecesMeet (a b : Piece) : Bool :=
  a.row0 < b.row0 + b.m && b.row0 < a.row0 + a.m && a.col0 < b.col0 + b.n && b.col0 < a.col0 + a.n

/-- The element at a row and column of a contribution, from the piece that covers it. -/
def pieceAt (ps : List Piece) (r c : Nat) : W32 :=
  match ps.find? (fun p => p.row0 ≤ r && r < p.row0 + p.m && p.col0 ≤ c && c < p.col0 + p.n) with
  | some p => p.elems.getD ((r - p.row0) * p.n + (c - p.col0)) 0
  | none => 0

/-- The rows of a slice within its unit: first row of the layer, and how many. -/
def State.sliceSpan (s : State) (n : Nat) (x : Shard) (slice : Nat) : Nat × Nat :=
  let sr := s.sliceRows n
  (slice * sr, min sr (x.unit * s.unitRows n + x.rows - slice * sr))

/-- The elements of a complete contribution in row-major order. -/
def contribElems (ps : List Piece) (r0 rows cols : Nat) : List W32 :=
  (List.range (rows * cols)).map (fun i => pieceAt ps (r0 + i / cols) (i % cols))

/-- The pool address of a slice's elements in an area of 4-byte elements. -/
def State.sliceAddr (s : State) (n page : Nat) (x : Shard) (r0 : Nat) : Nat :=
  pageBytes * page + 4 * ((r0 - x.unit * s.unitRows n) * x.cols)

/-- One W32 add under RNE (R118, R119). -/
def addW32 (a b : W32) : W32 := rneW32 (addVal (decW32 a) (decW32 b)).1

/-- Adds one contribution into the accumulator of its slice: the first is copied, each later one is added (R230). A page
that is not served leaves it undone and raises USER_ABORT (R523). -/
def State.accumulate (s : State) (n : Nat) (first : Bool) (a : Nat) (g : List W32) (e : W32) : State :=
  let bytes := fun l : List W32 => l.flatMap (fun w => leBytes 4 w.toNat)
  if first then
    match (pagesOf a (4 * g.length)).find? (fun p => !s.pageHere p) with
    | some p => (s.notServed (0x8000 + n) p).raiseFlag flagAbort e
    | none => s.poolWrite a (bytes g)
  else
    match s.unitPool (0x8000 + n) a (4 * g.length) with
    | (none, s1) => s1.raiseFlag flagAbort e
    | (some old, s1) => s1.poolWrite a (bytes (List.zipWith addW32 (payWords old g.length) g))

/-- The slice's entry in a groundsheet, a new one where there is none. -/
def Gs.sliceOf (k : Gs) (i slice : Nat) : SliceSt :=
  match k.slices.find? (fun t => t.shard == i && t.slice == slice) with
  | some t => t
  | none => { shard := i, slice := slice }

/-- Stores the slice's entry. -/
def Gs.setSlice (k : Gs) (t : SliceSt) : Gs :=
  { k with slices := k.slices.filter (fun u => !(u.shard == t.shard && u.slice == t.slice)) ++ [t] }

/-- Adds complete contributions in ascending micro-batch index while they are at hand; the slice is ready once that of
index A − 1 has been added (R230). -/
def State.addReady (n : Nat) (x : Shard) (slice r0 rows : Nat) (e : W32) : Nat → State → State
  | 0, s => s
  | f + 1, s =>
    let k := s.gs n
    let t := k.sliceOf x.index slice
    if t.added < x.desc.acc ∧ t.complete.contains t.added then
      let g := contribElems ((alistGet t.pieces t.added).getD []) r0 rows x.cols
      let t1 := { t with added := t.added + 1, pieces := tabDel t.added t.pieces }
      let s1 := s.setGs n (k.setSlice t1)
      let s2 := if x.desc.acc = 1 then s1
        else s1.accumulate n (t.added == 0) (s.sliceAddr n x.acc x r0) g e
      let s3 := if t1.added = x.desc.acc then
          let k2 := s2.gs n
          s2.setGs n { k2 with ready := k2.ready ++ [{ shard := x.index, slice := slice, layer := x.layer, epoch := e,
                                                       g := if x.desc.acc = 1 then g else [] }] }
        else s2
      State.addReady n x slice r0 rows e f s3
    else s

/-- A contribution is complete (R229 to R233): its elements are checked, and it is dropped where its group is frozen, else
added. -/
def State.contribDone (s : State) (n : Nat) (x : Shard) (t : SliceSt) (h : Hdr) (r0 rows : Nat) : State :=
  let ps := (alistGet t.pieces h.mb.toNat).getD []
  let s1 := if ps.any (fun p => p.elems.any nonFinite) then s.raiseFlag flagNonfinite h.epoch else s
  if x.desc.frozen then
    let s2 := (s1.setGs n ((s1.gs n).setSlice { t with pieces := tabDel h.mb.toNat t.pieces })).bump (Reg.gsFrozenHits n)
    if s.fld (Reg.gsStrictFrozen n) 0 1 = 1 then
      s2.reportLim 0x0512 n (unitGs n) (n + x.group * 2 ^ 4 + 2 ^ 16 * (x.layer % 2 ^ 16))
    else s2
  else State.addReady n x t.slice r0 rows h.epoch 17 s1

/-- Takes a piece whose record has been found (R229 to R231, R377). -/
def State.takePiece (s : State) (n : Nat) (x : Shard) (h : Hdr) (payload : List Byte) : State :=
  let mb := h.mb.toNat
  let p : Piece := { row0 := hdrRow0 h, col0 := hdrCol0 h, m := h.dim1.toNat, n := h.dim0.toNat,
                     elems := payWords payload (h.dim1.toNat * h.dim0.toNat) }
  let slice := p.row0 / s.sliceRows n
  let span := s.sliceSpan n x slice
  if x.desc.acc ≤ mb then s.dropPiece n 1 h
  else if span.1 + span.2 < p.row0 + p.m ∨ x.cols < p.col0 + p.n then s.dropPiece n 2 h
  else
    let t := (s.gs n).sliceOf x.index slice
    let ps := (alistGet t.pieces mb).getD []
    if t.complete.contains mb ∨ ps.any (piecesMeet p) then s.dropPiece n 0 h
    else
      let all := ps ++ [p]
      let done := sumNat (all.map (fun q => q.m * q.n)) == span.2 * x.cols
      let t1 := { t with pieces := tabPut mb all t.pieces, complete := if done then mb :: t.complete else t.complete }
      let s1 := s.setGs n ((s.gs n).setSlice t1)
      if done then s1.contribDone n x t1 h span.1 span.2 else s1

/-- Takes a CONTRIB piece of the current epoch: a failed lookup drops the piece and raises USER_ABORT (R229); the first piece
of a group latches its descriptor for the epoch (R227; DEDUCED, log entry 60). -/
def State.takeCurrent (s : State) (n : Nat) (h : Hdr) (payload : List Byte) : State :=
  match s.lookupShard n false h.layer.toNat (hdrRow0 h / s.unitRows n) with
  | (none, s1) => s1.raiseFlag flagAbort h.epoch
  | (some x, s1) =>
    let c := s1.groupConsts n x.group x.desc
    c.2.takePiece n { x with desc := c.1.1 } h payload

/-- Takes a CONTRIB piece: held while the groundsheet is off or for the next epoch, dropped when stale (Tables 8-7 and
9-6). A reserved format is not consumed (R61), and raises no flag where the item is stale (R279). -/
def State.takeContrib (s : State) (n : Nat) (h : Hdr) (payload : List Byte) : State :=
  let k := s.gs n
  let hold := s.setGs n { k with held := k.held ++ [(h, payload)] }
  let bad := fmtReserved h.fmt.toNat
  let abort := s.gsReserved n h.fmt.toNat h.layer.toNat h.epoch
  if s.fld (Reg.gsCtrl n) 0 1 = 0 then hold
  else match s.classify h.epoch with
    | .current => if bad then abort else s.takeCurrent n h payload
    | .next => if bad then abort else hold
    | .stale => (if bad then s.fmtReport (unitGs n) (0x8000 + n) h.fmt.toNat h.layer.toNat else s).staleIn

/-- Takes what a groundsheet has held, in order of arrival. -/
def State.retakeContribs (s : State) (n : Nat) : State :=
  let hs := (s.gs n).held
  hs.foldl (fun t p => t.takeContrib n p.1 p.2) (s.setGs n { s.gs n with held := [] })

/-! ### Gather answers (R250, R251, R279) -/

/-- The header of a gather response: the request word, tag and deadline echoed (Tables 11-5 and 11-6). -/
def State.respHdr (s : State) (n : Nat) (h : Hdr) : Hdr :=
  { kind := 2, layer := BitVec.ofNat 20 h.arg.toNat, mb := h.mb, flags := h.flags &&& 0x80, epoch := s.epoch,
    deadline := h.deadline, src := BitVec.ofNat 17 s.ownAddr, srcUnit := BitVec.ofNat 15 (0x4000 + n), tag := h.tag,
    resp := true, len := 64, arg := h.arg, dst := h.src, dstUnit := h.srcUnit }

/-- Answers a gather as stale: a header only, with STALE set and the server's current epoch (Table 9-6). -/
def State.answerStale (s : State) (n : Nat) (h : Hdr) : State :=
  (s.bump (Reg.gsGatherStale n)).issueResp (setHdrFlag (s.respHdr n h) 4 true) []

/-- A request as it stands for a verdict: one that names the next epoch is held for it, and counted as such (R26). -/
def State.holdReq (s : State) (n : Nat) (r : GatherReq) : GatherReq × State :=
  if !r.held && s.classify r.h.epoch == .next then ({ r with held := true }, s.bump (Reg.gsGatherHeld n)) else (r, s)

/-- After a strike, requests held for the next epoch are answered as stale (R26, Table 9-4). -/
def State.staleHeld (s : State) (n : Nat) : State :=
  let k := s.gs n
  (k.reqs.filter (·.held)).foldl (fun t r => t.answerStale n r.h)
    (s.setGs n { k with reqs := k.reqs.filter (fun r => !r.held) })

/-- After a stake, held requests are held no longer (R26). -/
def State.freeHeld (s : State) (n : Nat) : State :=
  let k := s.gs n
  s.setGs n { k with reqs := k.reqs.map (fun r => { r with held := false }) }

/-- Clears the accumulators of the slices of a groundsheet that have begun one (R230). -/
def State.clearAcc (s : State) (n : Nat) : State :=
  (s.gs n).slices.foldl (fun t sl =>
    if sl.added = 0 then t else
    match t.peekShard n sl.shard with
    | some x =>
      let span := t.sliceSpan n x sl.slice
      let a := t.sliceAddr n x.acc x span.1
      if 1 < x.desc.acc ∧ (pagesOf a (4 * (span.2 * x.cols))).all t.pageHere then
        t.poolWrite a (List.replicate (4 * (span.2 * x.cols)) 0)
      else t
    | none => t) s

/-- What a verdict does to a groundsheet: updates stopped, accumulators cleared, the count of slices begun anew (R230,
R235, R236). -/
def State.verdictGs (s : State) (n : Nat) : State :=
  let s1 := s.clearAcc n
  s1.setGs n { s1.gs n with slices := [], ready := [], written := [], expected := none, consts := [],
                            flyStalled := false }

end Sys2Proof.Machine
end

