-- ==== Sys2Proof/Machine/CuOps.lean ====
section
/-! DEFINITION. Regions of a dW sum in the collective units: local values, partials, the tree (R369 to R379). -/

namespace Sys2Proof.Machine

/-- The die whose collective unit takes the pieces of a row of a layer (R373). -/
def State.cuDie (s : State) (row0 layer : Nat) : Nat := (row0 / s.sliceRows 0 + layer) % 8

/-- Bytes of a term of a region. -/
def Region.termBytes (r : Region) : Nat := 4 * r.m * r.n

/-- The rank of this module in a region's tree (R371). -/
def Region.rank (r : Region) (own : Nat) : Nat :=
  let g := r.members.length
  ((r.members.findIdx (· == own)) + g - r.root) % g

/-- The member index of a rank. -/
def Region.memberOf (r : Region) (rank : Nat) : Nat := (rank + r.root) % r.members.length

/-- The ranks of the children of a rank, ascending (R371). -/
def Region.kids (r : Region) (rank : Nat) : List Nat :=
  (List.range r.radix).filterMap (fun i =>
    let c := r.radix * rank + 1 + i
    if c < r.members.length then some c else none)

/-- Terms that a region holds: its pieces until its local value is complete, then the running sum and the partials ahead
of their turn. -/
def Region.terms (r : Region) (own : Nat) : Nat :=
  if r.sent then 0
  else if r.pieces.length < r.lc then r.pieces.length + r.parts.length
  else 1 + ((r.kids (r.rank own)).dropWhile (fun c => r.parts.any (fun t => t.who == c))).countP
    (fun c => r.parts.any (fun t => t.who == c))

/-- Bytes in use of the buffer of a collective unit: terms of regions, partials that wait to be sent, pieces held for the next
epoch, and collective messages that came before their collective (R378, R382). -/
def State.cuUsed (s : State) (d : Nat) : Nat :=
  let k := s.cu d
  sumNat (k.regions.map (fun r => r.terms s.ownAddr * r.termBytes))
    + sumNat ((k.outbox.filter (fun m => m.owner.isNone)).map (fun m => 4 * m.h.dim1.toNat * m.h.dim0.toNat))
    + sumNat (k.held.map (fun p => 4 * p.1.dim1.toNat * p.1.dim0.toNat))
    + sumNat (k.early.map (fun p => p.1.len.toNat - 64))

/-- Is there room for a term of `b` bytes: of the 4 MiB, the last 1 MiB is for terms of regions already held (R378)? -/
def State.cuRoom (s : State) (d b : Nat) (isHeld : Bool) : Bool :=
  s.cuUsed d + b ≤ (if isHeld then 4194304 else 3145728)

/-- Does a region have a key (R373)? -/
def Region.hasKey (r : Region) (layer : Nat) (e : W32) (mb row0 col0 : Nat) : Bool :=
  r.layer == layer && r.epoch == e && r.mb == mb && r.row0 == row0 && r.col0 == col0

/-- The region of a key. -/
def Cu.find (k : Cu) (layer : Nat) (e : W32) (mb row0 col0 : Nat) : Option Region :=
  k.regions.find? (fun r => r.hasKey layer e mb row0 col0)

/-- Stores a region under its key. -/
def Cu.put (k : Cu) (r : Region) : Cu :=
  { k with regions := k.regions.filter (fun x => !(x.hasKey r.layer r.epoch r.mb r.row0 r.col0)) ++ [r] }

/-- Drops a piece or partial with the effects of R374. -/
def State.pieceBad (s : State) (d layer : Nat) (e : W32) : State :=
  ((s.bump (Reg.fabCuAbort d)).reportLim 0x040D d (unitDie d) (d + 2 ^ 12 * (layer % 2 ^ 20))).raiseFlag flagAbort e

/-- Drops a piece of a layer without placement (R370). -/
def State.noPlace (s : State) (d layer : Nat) (e : W32) : State :=
  (s.reportLim 0x040C d (unitDie d) (layer % 2 ^ 20 + 2 ^ 20 * d)).raiseFlag flagAbort e

/-- A new region under a placement (R369, R375). -/
def State.newRegion (s : State) (p : Place) (layer : Nat) (e : W32) (mb row0 col0 m n : Nat) : Region :=
  let g := p.members.length
  let u := row0 / s.unitRows 0
  { layer := layer, epoch := e, mb := mb, row0 := row0, col0 := col0, m := m, n := n, chan := none, lc := p.lc,
    members := p.members, root := (u + p.ownOff) % g, radix := p.radix, gs := (u / g + p.gsOff) % 12 }

/-- The region of a key: the one held, or a new one from the placement record as it is read now (R375). -/
def State.regionFor (s : State) (d layer : Nat) (e : W32) (mb row0 col0 m n : Nat) : Option Region × State :=
  match (s.cu d).find layer e mb row0 col0 with
  | some r => (some r, s)
  | none =>
    match s.readPlace d layer with
    | (some p, s1) => (some (s1.newRegion p layer e mb row0 col0 m n), s1)
    | (none, s1) => (none, s1)

/-- Adds a term to a running sum, element by element (R371). -/
def addTerm (a : CuTerm) (b : CuTerm) : CuTerm :=
  let es := List.zipWith addW32 a.elems b.elems
  { who := a.who, elems := es,
    flags := a.flags ||| b.flags ||| b2n (es.any (fun w => isNanVal (decW32 w)))
      ||| (2 * b2n (es.any (fun w => isOvfVal (decW32 w)))) }

/-- Sums terms in list order; the first is taken as it stands. -/
def sumTerms : List CuTerm → Option CuTerm
  | [] => none
  | t :: ts => some (ts.foldl addTerm t)

/-- Inserts a term by ascending `who`. -/
def insertTerm (t : CuTerm) : List CuTerm → List CuTerm
  | [] => [t]
  | u :: us => if t.who < u.who then t :: u :: us else u :: insertTerm t us

/-- part(j) once every term is at hand: the local value, then the children's partials in ascending rank (R371, R373). -/
def Region.part (r : Region) (own : Nat) : Option CuTerm :=
  let kids := r.kids (r.rank own)
  if r.pieces.length = r.lc ∧ kids.all (fun c => r.parts.any (fun t => t.who == c)) then
    match sumTerms r.pieces with
    | none => none
    | some l => some ((kids.filterMap (fun c => r.parts.find? (fun t => t.who == c))).foldl addTerm l)
  else none

/-- W32 adds that forming part(j) took. -/
def Region.addCount (r : Region) : Nat := (r.pieces.length - 1 + r.parts.length) * (r.m * r.n)

/-- The payload of a piece or contribution: elements in row order, then the status word (R375). -/
def termPayload (t : CuTerm) : List Byte :=
  t.elems.flatMap (fun w => leBytes 4 w.toNat) ++ leBytes 8 (t.flags % 32 + 0xFFFFFFFF * 2 ^ 32)

/-- The header of a partial or contribution of a region (R375, R339). -/
def State.regionHdr (s : State) (r : Region) (contrib : Bool) (cell : Nat) : Hdr :=
  { kind := if contrib then 4 else 3, fmt := 5, dim0 := BitVec.ofNat 24 r.n, dim1 := BitVec.ofNat 32 r.m,
    layer := BitVec.ofNat 20 r.layer, mb := BitVec.ofNat 4 r.mb, flags := 0x40, epoch := r.epoch,
    src := BitVec.ofNat 17 s.ownAddr, srcUnit := BitVec.ofNat 15 cell,
    len := BitVec.ofNat 32 (64 + r.termBytes + 8), arg := BitVec.ofNat 128 (r.row0 + 2 ^ 32 * r.col0),
    dst := BitVec.ofNat 17 s.ownAddr, dstUnit := BitVec.ofNat 15 (0x4000 + r.gs) }

/-- Counts W32 adds in FAB_CU_ADDS, in units of 1,024. -/
def State.countAdds (s : State) (d n : Nat) : State :=
  let k := s.cu d
  (s.setCu d { k with adds := (k.adds + n) % 1024 }).bumpUnits (Reg.fabCuAdds d) ((k.adds + n) / 1024)

/-- Stores a region, and where its part is complete sends it to the parent, for which the unit waits while that channel's window
is full (R378), or delivers it to the owning groundsheet at the root (R375). -/
def State.regionPut (s : State) (d : Nat) (r : Region) : State :=
  match r.part s.ownAddr with
  | none => s.setCu d ((s.cu d).put r)
  | some t =>
    let j := r.rank s.ownAddr
    let s1 := (s.setCu d ((s.cu d).put { r with pieces := [], parts := [], sent := true })).countAdds d r.addCount
    let cell := (r.pieces.map (·.who)).foldl min 511
    if j = 0 then s1.issueMsg (s.regionHdr r true cell) (termPayload t) 2 false
    else
      let p := r.memberOf ((j - 1) / r.radix)
      s1.cuSend d { ctx := r.chan.getD 0 + p, h := s.regionHdr r false cell, payload := termPayload t }

/-- Does the shape of a term match its region? -/
def Region.fits (r : Region) (m n : Nat) : Bool := r.m == m && r.n == n

/-- Takes a piece of a local cell into its region (R373, R374). -/
def State.takeLocal (s : State) (d : Nat) (r : Region) (chan m n : Nat) (t : CuTerm) : State :=
  if r.sent ∨ r.fits m n = false ∨ (r.chan.isSome ∧ r.chan ≠ some chan)
      ∨ r.pieces.any (fun u => u.who == t.who) ∨ r.lc ≤ r.pieces.length
      ∨ 65536 < chan + r.members.length then s.pieceBad d r.layer r.epoch
  else s.regionPut d { r with pieces := insertTerm t r.pieces, chan := some chan }

/-- Takes a partial of a child into its region (R376). -/
def State.takeChild (s : State) (d : Nat) (r : Region) (src m n : Nat) (elems : List W32) (flags : Nat) : State :=
  let g := r.members.length
  let from_ := r.members.findIdx (· == src)
  let rank := (from_ + g - r.root) % g
  if r.sent ∨ r.members.contains src = false ∨ (r.kids (r.rank s.ownAddr)).contains rank = false
      ∨ r.parts.any (fun u => u.who == rank) ∨ r.fits m n = false then s.pieceBad d r.layer r.epoch
  else s.regionPut d { r with parts := r.parts ++ [{ who := rank, elems := elems, flags := flags }] }

/-- The rotation offset of an epoch (R429). -/
def State.rotOffset (s : State) (e : W32) : Nat :=
  if s.pwr.rotCtrl.getLsbD 0 then s.pwr.rotCtrl.toNat / 2 ^ 8 % 2 ^ 10 * (e - s.pwr.rotEpoch0).toNat % 512 else 0

/-- The logical number of a physical cell in an epoch (R429). -/
def State.logicalCell (s : State) (e : W32) (c : Nat) : Nat := (c + s.rotOffset e) % 512

/-- Puts PWR_ROT_CTRL and PWR_ROT_EPOCH0 in force (R429). -/
def State.applyRot (s : State) : State :=
  { s with pwr := { s.pwr with rotCtrl := s.reg Reg.pwrRotCtrl, rotEpoch0 := s.reg Reg.pwrRotEpoch0 } }

/-- Takes a piece of a local cell (KIND 0) or a child's partial into its region. -/
def State.takeTerm (s : State) (d : Nat) (r : Region) (h : Hdr) (payload : List Byte) : State :=
  let m := h.dim1.toNat
  let n := h.dim0.toNat
  let es := payWords payload (m * n)
  let fl := (payWord payload (m * n)).toNat % 32
  -- pieces are ordered by logical cell number (R430)
  if h.kind = 0 then
    s.takeLocal d r h.chan.toNat m n { who := s.logicalCell r.epoch h.srcUnit.toNat, elems := es, flags := fl }
  else s.takeChild d r h.src.toNat m n es fl

/-- Takes a piece of a local cell, or a received partial whose channel has accepted it (R373, R376, Table 9-6); a reserved
format is not consumed (R61), and raises no flag where the item is stale (R279). -/
def State.takePartial (s : State) (d : Nat) (h : Hdr) (payload : List Byte) : State :=
  let bad := fmtReserved h.fmt.toNat
  let abort := s.cuReserved d h.fmt.toNat h.layer.toNat h.epoch
  match s.classify h.epoch with
  | .stale => (if bad then s.fmtReport (unitDie d) (0xA000 + d) h.fmt.toNat h.layer.toNat else s).staleIn
  | .next => if bad then abort else s.setCu d { s.cu d with held := (s.cu d).held ++ [(h, payload)] }
  | .current =>
    if bad then abort
    else match s.regionFor d h.layer.toNat h.epoch h.mb.toNat (hdrRow0 h) (hdrCol0 h) h.dim1.toNat h.dim0.toNat with
      | (none, s1) => s1.noPlace d h.layer.toNat h.epoch
      | (some r, s1) => s1.takeTerm d r h payload

/-- Is a partial the next term of a region that a unit holds (R378)? A local piece counts as one while its region lacks
pieces (DEDUCED, log entry 37). -/
def State.cuNext (s : State) (d : Nat) (h : Hdr) : Bool :=
  match (s.cu d).find h.layer.toNat h.epoch h.mb.toNat (hdrRow0 h) (hdrCol0 h) with
  | none => false
  | some r =>
    if h.kind = 0 then decide (r.pieces.length < r.lc)
    else
      let j := r.rank s.ownAddr
      let g := r.members.length
      let c := (r.members.findIdx (· == h.src.toNat) + g - r.root) % g
      r.pieces.length == r.lc && (r.kids j).find? (fun k => !r.parts.any (fun t => t.who == k)) == some c

/-- Has a unit no room for a piece or partial that it would keep (R378)? -/
def State.cuFull (s : State) (d : Nat) (h : Hdr) : Bool :=
  s.classify h.epoch != .stale && !fmtReserved h.fmt.toNat
    && !s.cuRoom d (4 * h.dim1.toNat * h.dim0.toNat) (s.cuNext d h)

/-- Takes the pieces and partials that a unit has held for the next epoch. -/
def State.retakePartials (s : State) (d : Nat) : State :=
  let hs := (s.cu d).held
  hs.foldl (fun t p => t.takePartial d p.1 p.2) (s.setCu d { s.cu d with held := [] })

/-- What a verdict of an epoch does to a collective unit: its pieces and partials, those that wait to be sent among them, are
discarded and counted (R379). -/
def State.verdictCu (e : W32) (s : State) (d : Nat) : State :=
  let k := s.cu d
  let of := fun m : OutMsg => m.owner.isNone && m.h.epoch == e
  let gone := k.regions.filter (fun r => r.epoch == e)
  let n := sumNat (gone.map (fun r => r.pieces.length + r.parts.length)) + k.outbox.countP of
  let s1 := s.setCu d { k with regions := k.regions.filter (fun r => !(r.epoch == e)),
                               outbox := k.outbox.filter (fun m => !of m) }
  (State.pumpOut d k.outbox.length s1).bumpUnits (Reg.fabCuDiscard d) n

end Sys2Proof.Machine
end

