-- ==== Sys2Proof/Machine/Pool.lean ====
section
/-! DEFINITION. The pool and far-tier commands: allocation, pegs, retirement, eviction, bring-up, far completions, scrub,
merges, the HDM window (Tables 10-9, 13-7 and 15-3). -/

namespace Sys2Proof.Machine

/-! ### Commands of the host (R325) -/

/-- POOL_CMD is served while no command is in progress (Table 10-9). -/
def State.poolCmdOk (s : State) : Bool := s.up && s.fld Reg.poolCmdStatus 0 1 == 0

/-- POOL_CMD_PAGE. -/
def State.cmdPage (s : State) : Nat := s.fld Reg.poolCmdPage 0 19
/-- POOL_CMD_ARG.FRAME. -/
def State.cmdFrame (s : State) : Nat := s.fld Reg.poolCmdArg 0 15
/-- POOL_CMD_ARG.STACK. -/
def State.cmdStack (s : State) : Nat := s.fld Reg.poolCmdArg 16 4
/-- POOL_CMD_ARG.CLASS. -/
def State.cmdClass (s : State) : Nat := s.fld Reg.poolCmdArg 20 3

/-- POOL_CMD ALLOC (R294). -/
def execPoolCmdAlloc (s : State) : Out :=
  .next (whenOk s.poolCmdOk s (s.allocPage .host s.cmdClass s.cmdStack))

/-- POOL_CMD FREE (R295). -/
def execPoolCmdFree (s : State) : Out := .next (whenOk s.poolCmdOk s (s.freePage .host s.cmdPage))

/-- POOL_CMD PEG (R298). -/
def execPoolCmdPeg (s : State) : Out := .next (whenOk s.poolCmdOk s (s.pegPage .host s.cmdPage))

/-- POOL_CMD UNPEG (R298). -/
def execPoolCmdUnpeg (s : State) : Out := .next (whenOk s.poolCmdOk s (s.unpegPage .host s.cmdPage))

/-- Clears the LOST mark of a page (R323): result 5 where it is not marked. -/
def State.clearLostMark (s : State) (p : Nat) : State :=
  match s.dir p with
  | none => s.poolAnswer .host 0 2
  | some e => if e.lost then (s.setDir p { e with lost := false }).poolAnswer .host 0 0 else s.poolAnswer .host 0 5

/-- POOL_CMD CLEAR_LOST (R323). -/
def execClearLost (s : State) : Out := .next (whenOk s.poolCmdOk s (s.clearLostMark s.cmdPage))

/-- Marks a frame retired and reports it (R321). -/
def State.frameRetired (s : State) (n f : Nat) : State :=
  (s.setFrame (frameNo n f) .retired).report 0x0306 (unitGs n) (n + f * 2 ^ 4)

/-- Starts the retirement copy of an occupied frame, or waits for a frame (R321). -/
def State.startRetire (s : State) (n f : Nat) : State :=
  match s.takeFrame n .copy with
  | some (g, s1) =>
    ({ s1 with pool := { s1.pool with retiring := s1.pool.retiring ++ [(⟨n, f, g⟩ : Retiring)] } }).setFld Reg.poolCmdStatus 0 1 1
  | none => if s.canEvict n then s.poolWait (.retire n f) .host else s.poolAnswer .host 0 1

/-- Asks for the retirement copy of an occupied frame; where others wait for a frame of the stack it waits with them. -/
def State.askRetire (s : State) (n f : Nat) : State :=
  if s.frameWaits n then s.poolWait (.retire n f) .host else s.startRetire n f

/-- Retires a frame (R321). -/
def State.retireFrame (s : State) (n f : Nat) : State :=
  if 11 < n ∨ stackFrames ≤ f then s.poolAnswer .host 0 2
  else if 256 ≤ s.retiredFrames n then s.poolAnswer .host 0 4
  else match s.frameUse (frameNo n f) with
    | none => (s.frameRetired n f).poolAnswer .host 0 0
    | some .reclaim => (s.frameRetired n f).poolAnswer .host 0 0
    | some .retired => s.poolAnswer .host 0 2
    | some .copy => s.poolAnswer .host 0 3
    | some (.bringup _) => s.poolAnswer .host 0 3
    | some (.page _) => s.askRetire n f
    | some (.fly _) => s.askRetire n f
    | some (.old _) => s.askRetire n f

/-- POOL_CMD RETIRE (R321). -/
def execRetire (s : State) : Out := .next (whenOk s.poolCmdOk s (s.retireFrame s.cmdStack s.cmdFrame))

/-- Points what a frame held at the frame it was copied to (R321). -/
def State.remap (s : State) (u : FrameUse) (g : Nat) : State :=
  match u with
  | .page p => match s.dir p with | some e => s.setDir p { e with loc := frameIdx g } | none => s
  | .fly p => match alistGet s.pool.flies p with
    | some v => { s with pool := { s.pool with flies := tabPut p { v with frame := g } s.pool.flies } }
    | none => s
  | .old p => match alistGet s.pool.merges p with
    | some m => { s with pool := { s.pool with merges := tabPut p { m with frame := g } s.pool.merges } }
    | none => s
  | _ => s

/-- Counts and reports an HDM fault (R449, R469). -/
def State.hdmFault (s : State) (page : Nat) (write : Bool) (reason : Nat) : State :=
  (s.bump Reg.poolHdmFaults).reportLim 0x0804 0 unitMgmt
    (min page 0x7FFFF + 2 ^ 19 * b2n write + 2 ^ 20 * reason)

/-- Serves a window access to a resident page (Table 15-3). -/
def State.hdmServe (s : State) (w : HdmWait) : State :=
  match w.data with
  | none => (s.poolTouch w.addr w.len).emit (.reply (s.poolRaw w.addr w.len))
  | some bs => s.poolWrite w.addr bs

/-- Answers a window access with a fault: a read returns zeros, a write is dropped (Table 15-3). -/
def State.hdmRefuse (s : State) (w : HdmWait) (reason : Nat) : State :=
  match w.data with
  | none => (s.hdmFault w.page false reason).emit (.reply (List.replicate w.len 0))
  | some _ => s.hdmFault w.page true reason

/-- The window accesses that wait for a page. -/
def State.takeHdm (s : State) (p : Nat) : List HdmWait × State :=
  (s.pool.hdmWaits.filter (fun w => w.page == p),
    { s with pool := { s.pool with hdmWaits := s.pool.hdmWaits.filter (fun w => w.page != p) } })

/-- The page whose committed bytes a word of a frame holds. -/
def State.committedAt (s : State) (i : Nat) : Option Nat :=
  let f := i * 32 / pageBytes
  let page := match s.frameUse f with | some (.page p) => some p | some (.old p) => some p | _ => none
  match page with
  | some p => match s.dir p with
    | some e => if s.committedFrame p e (i * 32 % pageBytes) = f then some p else none
    | none => none
  | none => none

/-- The effects of reading a frame whole on its errors: by the patrol scrub (R320), or by a copy (R318, R319, R321). -/
def State.readFrame (s : State) (scrub : Bool) (f : Nat) : State :=
  let here := fun i : Nat => i * 32 / pageBytes == f
  let s1 := (s.hbmCe.filter here).foldl State.hbmCorrect s
  (s.hbmErr.filter here).foldl (fun t i => t.hbmUe scrub (s.committedAt i) i) s1

/-- The copy of a retiring frame has ended: its entry is remapped and the frame retired (R321). -/
def State.endRetire (s : State) (r : Retiring) : State :=
  let f := frameNo r.stack r.frame
  let s1 := { s with pool := { s.pool with retiring := s.pool.retiring.filter (· != r) } }.readFrame false f
  let s2 := match s.frameUse f with
    | some u => ((s1.copyFrame f r.target).setFrame r.target u).remap u r.target
    | none => s1.freeFrame r.target
  let s3 := (s2.frameRetired r.stack r.frame).poolAnswer .host 0 0
  -- accesses that waited for the copy go on
  match (s.frameUse f).bind usePageOf with
  | some p => (s3.takeHdm p).1.foldl State.hdmServe (s3.takeHdm p).2
  | none => s3

/-- RETIRE_COPY_COMPLETE (R321). -/
def execRetireCopyComplete (n frame : Nat) (s : State) : Out :=
  onUnit (n < 12) (match s.pool.retiring.find? (fun r => r.stack == n && r.frame == frame) with
    | some r => whenOk s.up s (s.endRetire r)
    | none => s)

/-- The 64 bits of a directory entry (Table 10-3). -/
def dirWord (e : DirEntry) : Nat :=
  1 + 2 * b2n e.far + 4 * b2n e.moving + 8 * b2n e.peg + 16 * b2n e.lost + 2 ^ 5 * (e.cls % 8) + 2 ^ 8 * (e.home % 16)
    + 2 ^ 12 * (e.loc % 2 ^ 23) + 2 ^ 35 * b2n e.fly + 2 ^ 36 * (e.lastuse % 2 ^ 28)

/-- READ_DIR: the entry of a page in POOL_DIR (R325). -/
def State.showDir (s : State) (p : Nat) : State :=
  if poolPages ≤ p then s.poolAnswer .host 0 2
  else (s.setReg64 Reg.poolDirLo Reg.poolDirHi
    (match s.dir p with | some e => dirWord e | none => 0)).poolAnswer .host 0 0

/-- POOL_CMD READ_DIR (R325). -/
def execReadDir (s : State) : Out := .next (whenOk s.poolCmdOk s (s.showDir s.cmdPage))

/-- READ_FRAME: corrected count, retired and in use; the logical page, or 0x7_FFFF (R325). -/
def State.showFrame (s : State) (n f : Nat) : State :=
  if 11 < n ∨ stackFrames ≤ f then s.poolAnswer .host 0 2
  else
    let u := s.frameUse (frameNo n f)
    let page := match u with | some (.page p) => p | some (.old p) => p | some (.bringup p) => p | _ => 0x7FFFF
    let used := match u with
      | some (.page _) => true | some (.fly _) => true | some (.old _) => true | some (.bringup _) => true
      | some .copy => true | _ => false
    ((s.setReg Reg.poolDirLo (BitVec.ofNat 32 (min ((alistGet s.pool.ce (frameNo n f)).getD 0) 0x7FFF
        + 2 ^ 15 * b2n (u == some .retired) + 2 ^ 16 * b2n used))).setReg Reg.poolDirHi
      (BitVec.ofNat 32 page)).poolAnswer .host 0 0

/-- POOL_CMD READ_FRAME (R325). -/
def execReadFrame (s : State) : Out := .next (whenOk s.poolCmdOk s (s.showFrame s.cmdStack s.cmdFrame))

/-! ### Instructions of cells (R294, R295, R298) -/

/-- PL.ALLOC: the owner class in [2:0] and the stack in [7:4] of SA. -/
def execPlAlloc (c : Nat) (o : ROps) (s : State) : Out :=
  coreR c (.plAlloc c o) o 0x07 0x10 [o.sd.toNat, o.sa.toNat]
    (fun t =>
      let w := ((t.cell c).s o.sa.toNat).toNat
      .done (t.allocPage (.cell c o.sd.toNat) (field w 2 0) (field w 7 4))) s

/-- The page operand of PL.FREE, PL.PEG and PL.UNPEG: SA[18:0]. -/
def pageOperand (k : Cell) (o : ROps) : Nat := (k.s o.sa.toNat).toNat % 2 ^ 19

/-- PL.FREE (R295). -/
def execPlFree (c : Nat) (o : ROps) (s : State) : Out :=
  coreR c (.plFree c o) o 0x07 0x11 [o.sd.toNat, o.sa.toNat]
    (fun t => .done (t.freePage (.cell c o.sd.toNat) (pageOperand (t.cell c) o))) s

/-- PL.PEG (R298). -/
def execPlPeg (c : Nat) (o : ROps) (s : State) : Out :=
  coreR c (.plPeg c o) o 0x07 0x12 [o.sd.toNat, o.sa.toNat]
    (fun t => .done (t.pegPage (.cell c o.sd.toNat) (pageOperand (t.cell c) o))) s

/-- PL.UNPEG (R298). -/
def execPlUnpeg (c : Nat) (o : ROps) (s : State) : Out :=
  coreR c (.plUnpeg c o) o 0x07 0x13 [o.sd.toNat, o.sa.toNat]
    (fun t => .done (t.unpegPage (.cell c o.sd.toNat) (pageOperand (t.cell c) o))) s

/-! ### Waits (R294, R295, R298, R321) -/

/-- Tries to end one wait: the state after it, or none while it must go on. A free waits for the transfers that were
accepted before it (R295). -/
def State.tryWait (s : State) (w : PoolWait) : Option State :=
  match w with
  | .alloc who cls n =>
    match s.lowestPage with
    | none => some (s.poolFull who n cls)
    | some p =>
      match s.allocNow p cls n with
      | some s1 => some (s1.allocDone who p)
      | none => if s.canEvict n then none else some (s.poolFull who n cls)
  | .free who p after =>
    if (s.busyWith p).any after.contains ∨ s.pool.bringups.any (fun b => b.page == p) then none
    else match s.dir p with
      | none => some (s.poolAnswer who p 2)
      | some e => if e.fly then some (s.poolAnswer who p 3) else some ((s.releasePage p).poolAnswer who p 0)
  | .peg who p =>
    match s.dir p with
    | none => some (s.poolAnswer who p 2)
    | some e =>
      if e.far then (if s.pool.bringups.any (fun b => b.page == p) then none else some (s.poolAnswer who p 2))
      else some ((s.setDir p { e with peg := true }).poolAnswer who p 0)
  | .retire n f =>
    if 0 < s.freeFrames n then some (s.startRetire n f)
    else if s.canEvict n then none else some (s.poolAnswer .host 0 1)

/-- A request that waits at the allocator: a directory command, or a bring-up for its frame. -/
inductive FrameAsk where
  | cmd (w : PoolWait)
  | up (b : Bringup)
  deriving DecidableEq, Repr

/-- The requester of a wait at the allocator: the cell of its client, or the host, which counts as CD0 (R294). -/
def waitClient : PoolWait → PoolClient
  | .alloc who _ _ => who
  | .free who _ _ => who
  | .peg who _ => who
  | .retire _ _ => .host

/-- The waits of one of the allocator's twenty requesters, the dies and then the groundsheets: a die's cells in the order of
R53, and behind them, on CD0, the host (R294; DESIGN CHOICE, log entry 5 for its place). -/
def State.asksOf (s : State) (r : Nat) : List FrameAsk :=
  let of := fun who : PoolClient => (s.pool.waits.filter (fun w => waitClient w == who)).map FrameAsk.cmd
  let cell := fun c : Nat => (s.pool.waits.filter (fun w => match waitClient w with
    | .cell d _ => d == c
    | .host => false)).map FrameAsk.cmd
  if r < 8 then (served 64 s.pitch id (List.range 64)).flatMap (fun i => cell (64 * r + i)) ++ (if r = 0 then of .host else [])
  else (s.pool.bringups.filter (fun b => b.frame.isNone
    && (match s.dir b.page with | some e => e.home + 8 == r | none => false))).map FrameAsk.up

/-- The requests that wait at the allocator, in the order in which it serves them (R53 with n = 20, R294). -/
def State.asks (s : State) : List FrameAsk := (served 20 s.pitch id (List.range 20)).flatMap s.asksOf

/-- A bring-up finds no frame and nothing to evict: POOL_FULL is reported and it fails as an allocation does (R294, R301). The
manual gives what waited no reason for it, so that is a free value (DESIGN CHOICE, log entry 5). -/
def State.bringupNone (s : State) (b : Bringup) (e : DirEntry) : State :=
  s.report 0x0301 (unitGs e.home) (e.home + e.cls * 2 ^ 4 + 2 ^ 16 * b.cell)

/-! ### Eviction and bring-up (R299 to R301) -/

/-- The bytes of a frame that are not 0, from offset 0 (the image that an eviction writes). -/
def State.frameCells (s : State) (f : Nat) : List (Nat × Byte) :=
  (s.hbm.filter (fun p => pageBytes * f ≤ p.1 && p.1 < pageBytes * (f + 1))).map (fun p => (p.1 - pageBytes * f, p.2))

/-- Does a stack evict: below low water, on its way to high water, or asked for a frame (R294, R299)? -/
def State.evictWanted (s : State) (n : Nat) : Bool :=
  s.freeFrames n < s.fld Reg.poolLowater 0 16
    || (s.pool.evictOn.contains n && s.freeFrames n < s.fld Reg.poolHiwater 0 16)
    || (s.freeFrames n == 0 && s.frameWaits n)

/-- Starts one eviction of a stack (R300): MOVING is set, the lowest free slot taken, the page read and written to the far
tier; where no region covers the slot the write fails with reason 5 and the eviction ends as a cancel (R302, R304). -/
def State.evictOne (s : State) (n : Nat) : State :=
  match s.victim n, s.lowestSlot with
  | some (p, e), some slot =>
    let s1 := ((s.slotTouch slot).setDir p { e with moving := true }).setSlot slot true
    let id := s1.pool.nextFar
    let s2 := { s1 with pool := { s1.pool with evicts := s1.pool.evicts ++ [(⟨p, slot, id⟩ : Evict)],
                                               evictOn := if s1.pool.evictOn.contains n then s1.pool.evictOn
                                                 else n :: s1.pool.evictOn } }
    let a := s2.slotAddr slot
    match s2.farCovers a pageBytes with
    | some r => (((s2.pageTouch false p e 0 pageBytes).addFar true (.evict p) r pageBytes none).emit
        (.farWritePage id (s2.farHpa r a) (s2.frameCells (frameNo e.home e.loc))))
    | none => (((s2.addFar true (.evict p) 0 pageBytes none).dropEviction p).bump Reg.poolEvictCancel).farWriteFailed (.evict p) 0 5
  | _, _ => { s with pool := { s.pool with evictOn := s.pool.evictOn.filter (· != n) } }

/-- EVICTION_START (R299): one candidate of a stack that is to evict, at most four at once. -/
def execEvictionStart (n : Nat) (s : State) : Out :=
  onUnit (n < 12) (whenOk (s.up && s.poolOn && s.fld Reg.poolCtrl 1 1 == 1 && s.evictReady && s.evictWanted n
    && s.evictingOn n < 4) s (s.evictOne n))

/-- An eviction copy has ended well: the page lies in its slot and the frame is free (R300). -/
def State.evicted (s : State) (v : Evict) (e : DirEntry) : State :=
  let s1 := (s.releaseFrames v.page e).setDir v.page { e with far := true, moving := false, loc := v.slot }
  let s2 := { s1 with pool := { s1.pool with evicts := s1.pool.evicts.filter (· != v),
                                             farReqs := s1.pool.farReqs.filter (fun r => r.id != v.id) } }
  (s2.bump Reg.poolEvictions).bumpBy Reg.farWrites (pageBytes / 64)

/-- EVICTION_COMPLETE (R300): status 0 completes it; another is the reason of its failure, which ends it as a cancel. None runs
while POOL_CTRL.EN is 0 (R522). -/
def execEvictionComplete (page st : Nat) (s : State) : Out :=
  .next (match s.pool.evicts.find? (fun v => v.page == page), s.dir page with
    | some v, some e =>
      whenOk (s.up && s.poolOn) s (if st = 0 then s.evicted v e
        else ((s.dropEviction page).bump Reg.poolEvictCancel).farWriteFailed (.evict page)
          ((s.pool.farReqs.find? (fun r => r.id == v.id)).elim 0 (·.region)) (st % 16))
    | _, _ => s)

/-- Removes a far request. -/
def State.dropFar (s : State) (id : Nat) : State :=
  { s with pool := { s.pool with farReqs := s.pool.farReqs.filter (fun r => r.id != id) } }

/-- Ends a transfer of a cell with a failure (R314, R326). -/
def State.failXfer (s : State) (c h reason : Nat) : State :=
  let k := s.cell c
  match alistGet k.xfers h with
  | some x =>
    (s.setCell c { k with xfers := tabPut h { x with complete := true, failed := true, reason := reason } k.xfers }).bump
      (Reg.cellXferFail c)
  | none => s

/-- The transfers of cells in progress on a page. -/
def State.xfersOn (s : State) (p : Nat) : List (Nat × Nat) :=
  s.cells.flatMap (fun c => (c.2.xfers.filter (fun x => xferOn p x.2)).map (fun x => (c.1, x.1)))

/-- A bring-up has ended well: the page is resident and what waited proceeds (R301). -/
def State.broughtUp (s : State) (b : Bringup) (e : DirEntry) (f : Nat) (data : List Byte) : State :=
  let s1 := (((s.zeroFrame f).frameWrite f 0 (data.take pageBytes)).setSlot e.loc false).setFrame f (.page b.page)
  let s2 := (s1.setDir b.page { e with far := false, moving := false, loc := frameIdx f }).dropOwner (.bringup b.page)
  let s3 := { s2 with pool := { s2.pool with bringups := s2.pool.bringups.filter (· != b),
                                             waiters := s2.pool.waiters.filter (fun w => w.1 != b.page),
                                             failed := s2.pool.failed.filter (fun w => w.1 != b.page) } }
  let (ws, s4) := (s3.bump Reg.poolBringups).takeHdm b.page
  ws.foldl State.hdmServe s4

/-- Is the access of a COPY descriptor kept until its pages are resident (R301, R460)? -/
def copyParked (q : Nat) (d : Started) : Instr → Bool
  | .copy p i => p == q && i == d.slot
  | .copyComplete p i _ _ => p == q && i == d.slot
  | _ => false

/-- Fails the COPY descriptors that wait for a page (R301, R460). -/
def State.failCopies (s : State) (p reason : Nat) : State :=
  let l := s.host.queues.flatMap (fun k => (k.2.started.filter (copyOn p)).map (fun d => (k.1, d)))
  l.foldl (fun t x => if t.parked.any (copyParked x.1 x.2) then t.complete x.1 x.2 1 reason else t) s

/-- What waited for a page fails with a reason: transfers of cells, COPY descriptors, window accesses; a unit's command, a core
or an engine finds the page not served when it is tried again (R301, R304). -/
def State.failWaiters (s : State) (p reason : Nat) : State :=
  let s1 := (s.xfersOn p).foldl (fun t x => t.failXfer x.1 x.2 reason) s
  let (ws, s2) := (s1.failCopies p reason).takeHdm p
  let s3 := { s2 with pool := { s2.pool with
      failed := s2.pool.failed ++ s2.pool.waiters.filter (fun w => w.1 == p),
      waiters := s2.pool.waiters.filter (fun w => w.1 != p) } }
  ws.foldl (fun t w => t.hdmRefuse w 4) s3

/-- Takes a bring-up off the list: its page stays in the far tier. -/
def State.endBringup (s : State) (b : Bringup) (e : DirEntry) : State :=
  let s1 := (s.setDir b.page { e with moving := false }).dropOwner (.bringup b.page)
  { s1 with pool := { s1.pool with bringups := s1.pool.bringups.filter (· != b) } }

/-- A bring-up has failed: the page stays in the far tier, the frame is free, and what waited fails (R301). -/
def State.bringupFailed (s : State) (b : Bringup) (e : DirEntry) (f reason : Nat) : State :=
  ((s.freeFrame f).endBringup b e).failWaiters b.page reason

/-- BRINGUP_COMPLETE (R301): the read of the slot has ended, well or not; none runs while POOL_CTRL.EN is 0 (R522). -/
def execBringupComplete (page : Nat) (s : State) : Out :=
  .next (match s.pool.bringups.find? (fun b => b.page == page), s.dir page with
    | some b, some e =>
      match b.frame, s.farResult (.bringup page) with
      | some f, some (reason, data) =>
        whenOk (s.up && s.poolOn) s (if reason = 0 then s.broughtUp b e f data else s.bringupFailed b e f reason)
      | _, _ => s
    | _, _ => s)

/-! ### The allocator (R53, R294) -/

/-- Tries to end one request that waits at the allocator: a bring-up takes a frame, or fails where nothing can be evicted;
while POOL_CTRL.EN is 0 none runs (R522). -/
def State.tryAsk (s : State) : FrameAsk → Option State
  | .cmd w => ({ s with pool := { s.pool with waits := s.pool.waits.erase w } }).tryWait w
  | .up b =>
    match s.dir b.page with
    | none => none
    | some e =>
      if s.poolOn = false then none
      else if 0 < s.freeFrames e.home then some (s.bringupRead b)
      else if s.canEvict e.home then none
      else
        let r := (s.bringupNone b e).drawNat
        some ((r.2.endBringup b e).failWaiters b.page (r.1 % 16))

/-- The first request of a list that can end, ends. -/
def State.endAsk (s : State) : List FrameAsk → State
  | [] => s
  | a :: l => (s.tryAsk a).getD (s.endAsk l)

/-- ALLOC_WAIT_END (R294): the first request at the allocator that can end, ends. -/
def execAllocWaitEnd (s : State) : Out := .next (whenOk s.up s (s.endAsk s.asks))

/-! ### Far completions (R304, R451) -/

/-- Records how a far request has ended. -/
def State.setFarDone (s : State) (id : Nat) (d : Nat × List Byte) : State :=
  { s with pool := { s.pool with
      farReqs := s.pool.farReqs.map (fun r => if r.id = id then { r with done := some d } else r) } }

/-- The cell number that a failed request reports: for a bring-up, the cell whose access started it. -/
def State.farReporter (s : State) (o : FarOwner) : Nat :=
  match o with
  | .bringup p => (s.pool.bringups.find? (fun b => b.page == p)).elim 0xFFFF (·.cell)
  | .xfer c _ => c
  | .evict _ => 0xFFFF

/-- Is a request a UIO read that has left and has not been answered? -/
def FarReq.readOut (r : FarReq) : Bool := !r.write && r.sent && r.done.isNone

/-- FAR_READ_COMPLETION (R304, R451): the completion of a UIO read, with status 0 and the data; 3 a completion error; 4
poisoned data. The first failure ends the far read that the UIO read is part of. -/
def execFarReadCompletion (id st : Nat) (data : List Byte) (s : State) : Out :=
  .next (match s.pool.farReqs.find? (fun r => r.id == id && r.readOut) with
    | some r =>
      whenOk s.up s (if st = 0 then ((s.setFarDone id (0, data)).bumpBy Reg.farReads (ceilDiv r.len 64)).pumpFar
        else
          let reason := if st = 4 then 4 else 3
          (s.failReads r.owner reason).farReadFailed r.owner r.region reason (s.farReporter r.owner))
    | none => s)

/-- Has a far request waited FAR_TIMEOUT ticks (R304)? -/
def State.farExpired (s : State) (r : FarReq) : Bool := r.start + s.fld Reg.farTimeout 0 24 ≤ s.pitch

/-- FAR_READ_TIMEOUT (R304): reason 2. -/
def execFarReadTimeout (id : Nat) (s : State) : Out :=
  .next (match s.pool.farReqs.find? (fun r => r.id == id && r.readOut) with
    | some r => whenOk (s.up && s.farExpired r) s
        ((s.failReads r.owner 2).farReadFailed r.owner r.region 2 (s.farReporter r.owner))
    | none => s)

/-- Ends what a timed-out far write served: an eviction as a cancel, a put with reason 2 (R300, R304). -/
def State.farWriteDead (s : State) (r : FarReq) : State :=
  match r.owner with
  | .evict p => ((s.dropEviction p).bump Reg.poolEvictCancel).farWriteFailed r.owner r.region 2
  | .xfer c h => ((s.dropFar r.id).failXfer c h 2).farWriteFailed r.owner r.region 2
  | .bringup _ => s.dropFar r.id

/-- FAR_WRITE_TIMEOUT (R304): of a write that has left. -/
def execFarWriteTimeout (id : Nat) (s : State) : Out :=
  .next (match s.pool.farReqs.find? (fun r => r.id == id && r.write && r.done.isNone) with
    | some r => whenOk (s.up && s.farExpired r) s (s.farWriteDead r)
    | none => s)

/-! ### Scrub, merges, reclaim (R273, R320) -/

/-- SCRUB_PASS (R320): the next frame of a stack. -/
def execScrubPass (n : Nat) (s : State) : Out :=
  onUnit (n < 12) (whenOk (s.up && s.poolOn && s.fld Reg.poolCtrl 2 1 == 1) s
    (let f := (alistGet s.pool.scrub n).getD 0 % stackFrames
     let s1 := s.readFrame true (frameNo n f)
     { s1 with pool := { s1.pool with scrub := tabPut n ((f + 1) % stackFrames) s1.pool.scrub } }))

/-- Copies a segment of one frame to another, errors included. -/
def State.copySeg (src dst : Nat) (s : State) (k : Nat) : State :=
  let lo := pageBytes * src + segBytes * k
  let d := pageBytes * dst + segBytes * k
  let here := fun i : Nat => lo ≤ i * 32 && i * 32 < lo + segBytes
  let keep := fun i : Nat => !(d ≤ i * 32 && i * 32 < d + segBytes)
  let bytes := s.hbm.filter (fun p => lo ≤ p.1 && p.1 < lo + segBytes)
  { s with hbm := bytes.foldl (fun m p => tabSet zeroByte m (p.1 - lo + d) p.2) (memClear s.hbm d (d + segBytes)),
           hbmErr := s.hbmErr.filter keep ++ (s.hbmErr.filter here).map (fun i => i - lo / 32 + d / 32),
           hbmCe := s.hbmCe.filter keep }

/-- Completes a staked fly version from the page it replaced, which is then free (R273). -/
def State.mergePage (s : State) (p : Nat) (m : Merge) (e : DirEntry) : State :=
  let ks := (List.range 32).filter (fun k => !m.valid.testBit k)
  let s1 := ks.foldl (fun t k => t.pageTouch false p e (segBytes * k) segBytes) s
  let s2 := ks.foldl (State.copySeg m.frame (frameNo e.home e.loc)) s1
  { s2.freeFrame m.frame with pool := { (s2.freeFrame m.frame).pool with merges := tabDel p s2.pool.merges } }

/-- FLY_MERGE (R273). -/
def execFlyMerge (page : Nat) (s : State) : Out :=
  .next (match alistGet s.pool.merges page, s.dir page with
    | some m, some e => whenOk s.works s (s.mergePage page m e)
    | _, _ => s)

/-- PAGE_RECLAIM (R273): the frames of a stack freed at a verdict can be allocated again. -/
def execPageReclaim (n : Nat) (s : State) : Out :=
  let kept := s.pool.frames.filter (fun f : Nat × FrameUse => !(frameStack f.1 == n && f.2 == .reclaim))
  onUnit (n < 12) (whenOk s.up s ({ s with pool := { s.pool with frames := kept } }.noteFree n))

/-! ### The HDM window (R448 to R450) -/

/-- A byte of HBM as it is stored, at place `i` of a reply. A word with a correctable error differs from what it corrects to in
one symbol, of its 32 bytes or of its check symbols: which one and its value are free (R318, R450; DESIGN CHOICE, log entry 3). -/
def State.rawByte (s : State) (a0 i : Nat) : Byte :=
  let a := a0 + i
  if s.hbmCe.contains (a / 32) ∧ Config.freeNat (s.free + a / 32 - a0 / 32) % 36 = a % 32 then Config.freeByte (s.free + i)
  else memByte s.hbm a

/-- A window access with RAW set: a frame of a stack, uncorrected; writes are dropped (R450). -/
def State.hdmRaw (s : State) (w : HdmWait) (off : Nat) : State :=
  let f := s.fld Reg.poolHdmRaw 16 15 + off / pageBytes
  if stackFrames ≤ f then s.hdmRefuse { w with page := 0x7FFFF } 3
  else match w.data with
    | some _ => s.hdmFault 0x7FFFF true 3
    | none =>
      let a := pageBytes * frameNo (s.fld Reg.poolHdmRaw 0 4) f + off % pageBytes
      ({ s with free := s.free + w.len + 1 }).emit (.reply ((List.range w.len).map (s.rawByte a)))

/-- A window access (Table 15-3). -/
def State.hdmAccess (s : State) (off len : Nat) (data : Option (List Byte)) : State :=
  let a := pageBytes * s.fld Reg.poolHdmPage0 0 19 + off
  let w : HdmWait := ⟨a / pageBytes, a, len, data⟩
  if s.fld Reg.poolHdmCtrl 0 1 = 0 then s.hdmRefuse w 5
  else if s.fld Reg.poolHdmCtrl 1 1 = 1 then s.hdmRaw w off
  else if s.poolOn = false then s.hdmRefuse w 5
  else match s.dir w.page with
    | none => s.hdmRefuse w (if poolPages ≤ w.page then 2 else 1)
    | some e =>
      if e.far || s.copying w.page then
        let s1 := s.startBringup w.page 0xFFFF
        { s1 with pool := { s1.pool with hdmWaits := s1.pool.hdmWaits ++ [w] } }
      else s.hdmServe w

/-- The base of HDM decoder 0 (R448; PRESUMED, log entry 63). -/
def State.hdmBase (s : State) : Nat := 2 ^ 28 * s.fld Reg.hdmBaseLo 28 4 + 2 ^ 32 * s.fld Reg.hdmBaseHi 0 32

/-- Its size: a multiple of 256 MiB. -/
def State.hdmSize (s : State) : Nat := 2 ^ 28 * s.fld Reg.hdmSizeLo 28 4 + 2 ^ 32 * s.fld Reg.hdmSizeHi 0 32

/-- Is the decoder enabled and committed? -/
def State.hdmOn (s : State) : Bool := s.fld Reg.hdmGlobal 1 1 == 1 && s.fld Reg.hdmDecoder 10 1 == 1

/-- Do `len` bytes at a host address lie in the range that the decoder gives the window (R448)? -/
def State.inWindow (s : State) (hpa len : Nat) : Bool := s.hdmOn && s.hdmBase ≤ hpa && hpa + len ≤ s.hdmBase + s.hdmSize

/-- Is CXL.mem up, and its IDE stream not insecure (R442, R452)? -/
def State.memOn (s : State) : Bool := s.up && s.host.cxl && !s.insecure 256

/-- HDM_READ (R448, R449): a read of host addresses; outside the decoder's range it returns ones (PRESUMED, log entry 63). -/
def execHdmRead (hpa len : Nat) (s : State) : Out :=
  .next (whenOk s.memOn s
    (if s.inWindow hpa len then (s.bumpBy Reg.poolHdmRd (ceilDiv len 64)).hdmAccess (hpa - s.hdmBase) len none
     else s.emit (.reply (List.replicate len 0xFF))))

/-- HDM_WRITE (R448, R449): outside the decoder's range it is dropped (PRESUMED, log entry 63). -/
def execHdmWrite (hpa : Nat) (data : List Byte) (s : State) : Out :=
  .next (whenOk (s.memOn && s.inWindow hpa data.length) s
    ((s.bumpBy Reg.poolHdmWr (ceilDiv data.length 64)).hdmAccess (hpa - s.hdmBase) data.length (some data)))

end Sys2Proof.Machine
end

