-- ==== Sys2Proof/Machine/StepOps.lean ====
section
/-! DEFINITION. The step machine: the guyline tree, seals, the verdict and what it changes (R258 to R282). -/

namespace Sys2Proof.Machine

/-! ### The guyline tree (R39, R267 to R269, R337) -/

/-- Does the module take part in the guyline tree (GUY_CTRL.EN)? -/
def State.guyOn (s : State) : Bool := s.fld Reg.guyCtrl 0 1 == 1

/-- GUY_UPPORT. -/
def State.upPort (s : State) : Nat := s.fld Reg.guyUpport 0 5

/-- Is the module a time master (R39)? -/
def State.isMaster (s : State) : Bool := !s.guyOn || 24 ≤ s.upPort

/-- The child ports of the tree, ascending. -/
def State.downPorts (s : State) : List Nat :=
  if s.guyOn then (List.range 24).filter (fun p => s.fld Reg.guyDownmask p 1 == 1) else []

/-- Is a port the parent or a child port of the guyline tree? -/
def State.guyPort (s : State) (p : Nat) : Bool := s.guyOn && (p == s.upPort || s.downPorts.contains p)

/-- A stamp of the present count in 1/1,024 tick; the place within the tick is free (DESIGN CHOICE, log entry 40). -/
def State.stampNow (s : State) : Nat × State :=
  let r := s.drawNat
  (1024 * s.pitch + r.1 % 1024, r.2)

/-- The ticks that a window of 800 beats takes: 12.8 on four lanes, 25.6 on two (R330, R337). -/
def Port.guyWindow (q : Port) : Nat := if q.laneCount = 2 then 26 else 13

/-- The sendings of cells that lie in the window which ends now. -/
def Port.guyRecent (q : Port) (now : Nat) : List Nat := q.guyAt.filter (fun x => now < x + q.guyWindow)

/-- May a port send one more cell, which goes twice: at most 16 in any window of 800 beats (R337)? -/
def Port.guyRoom (q : Port) (now : Nat) : Bool := (q.guyRecent now).length + 2 ≤ 16

/-- Among waiting cells verdicts go first, then contributions, then timing cells (R337). -/
def GuyOut.rank : GuyOut → Nat
  | .cell true _ => 0
  | .cell false _ => 1
  | .time _ _ => 2

/-- Puts a ready cell behind the waiting ones that go before it. -/
def queueGuy (g : GuyOut) (l : List GuyOut) : List GuyOut :=
  l.filter (fun x => x.rank ≤ g.rank) ++ g :: l.filter (fun x => g.rank < x.rank)

/-- The next SEQ of a port (R338). -/
def State.takeSeq (s : State) (p : Nat) : BitVec 3 × State :=
  let q := tabGet (fun _ => 0) s.step.seqOut p
  (q, { s with step := { s.step with seqOut := tabSet (fun _ => 0) s.step.seqOut p (q + 1) } })

/-- A cell leaves on a port, in both copies under the port's next SEQ (R337). A SYNC and a DELAY_REQ are stamped as they
leave, and the stamp of a DELAY_REQ is t3 (R40). -/
def State.emitGuy (s : State) (p : Nat) : GuyOut → State
  | .cell verdict g =>
    let r := s.takeSeq p
    let g1 := { g with seq := r.1, copy := false, good := true }
    (r.2.emit (.guyline p verdict g1)).emit (.guyline p verdict { g1 with copy := true })
  | .time kind t4 =>
    let x := if kind = 2 then (t4, s) else s.stampNow
    let s1 := if kind = 1 then { x.2 with pit := { x.2.pit with t3 := some x.1 } } else x.2
    let r := s1.takeSeq p
    let g : TimeCell := { seq := r.1, tick := x.1 / 1024, frac := x.1 % 1024 }
    (r.2.emit (.timing p kind g)).emit (.timing p kind { g with copy := true })

/-- Sends the waiting cells of a port in their order, as far as their share of the stream reaches (R337). -/
def State.pumpGuy (p : Nat) : Nat → State → State
  | 0, s => s
  | f + 1, s =>
    let q := s.port p
    match q.guyQ with
    | [] => s
    | g :: gs =>
      if q.guyRoom s.pitch then
        State.pumpGuy p f
          ((s.setPort p { q with guyQ := gs, guyAt := s.pitch :: s.pitch :: q.guyRecent s.pitch }).emitGuy p g)
      else s

/-- A cell is ready to leave on a port that is UP. -/
def State.queueCell (s : State) (p : Nat) (g : GuyOut) : State :=
  if s.portUp p then
    let q := s.port p
    State.pumpGuy p (q.guyQ.length + 1) (s.setPort p { q with guyQ := queueGuy g q.guyQ })
  else s

/-- Cells that wait on any port go on. -/
def State.guyTick (s : State) : State :=
  (List.range 24).foldl (fun t p => State.pumpGuy p (t.port p).guyQ.length t) s

/-- Sends a contribution or a verdict on a port. -/
def State.sendGuy (s : State) (p : Nat) (verdict : Bool) (g : GuyCell) : State := s.queueCell p (.cell verdict g)

/-- A good cell has come on a port: while it is UP, it exchanges guyline cells (R58). -/
def State.guyHear (s : State) (p : Nat) : State :=
  if s.portUp p then s.setPort p { s.port p with guyHeard := true, guyMiss := 0 } else s

/-- Takes a received cell off the line: the first good copy of each SEQ is kept, and a cell that fails its CRC is dropped
(R337, R338). -/
def State.guyTake (s : State) (p : Nat) (seq : BitVec 3) (copy good : Bool) : Option State :=
  if good = false ∨ (copy = true ∧ alistGet s.step.seqIn p = some seq) then none
  else some ({ s with step := { s.step with seqIn := tabPut p seq s.step.seqIn } }.guyHear p)

/-- Counts an interval of 1,024 ticks in which no cell has come on a port of the tree. With three missed and the next
begun, the port has stopped exchanging cells (R58, R59; DESIGN CHOICE, log entry 41). -/
def State.guyMissed (s : State) (p : Nat) : State :=
  let q := s.port p
  if s.guyPort p && s.portUp p && q.guyHeard then
    if 3 ≤ q.guyMiss then (s.setPort p { q with guyHeard := false, guyMiss := 0 }).report 0x0110 (unitPort p) p
    else s.setPort p { q with guyMiss := q.guyMiss + 1 }
  else s

/-- What is reported of a guyline port that is UP, once it is both: PITCH_ASYM_UNKNOWN where its cable has no asymmetry
entry (R42), and GUY_HOP_SLOW where it runs on two lanes (R57, R337; DESIGN CHOICE, log entry 41 for the hop time). -/
def State.guyNote (s : State) (p : Nat) : State :=
  let s1 := if s.fld (Reg.fabPortCable p) 0 16 = 0x8000 then s.report 0x0105 unitMgmt p else s
  if (s.port p).laneCount = 2 then
    let r := s1.drawNat
    r.2.report 0x0111 (unitPort p) (p + 2 ^ 16 * (r.1 % 2 ^ 16))
  else s1

/-- The GUY_ registers have changed: ports that have come into the tree are reported on, and ports outside it exchange no
guyline cells. -/
def State.guyPortsNew (s old : State) : State :=
  (List.range 24).foldl (fun t p =>
    if s.guyPort p then (if s.portUp p && !old.guyPort p then t.guyNote p else t)
    else t.setPort p { t.port p with guyHeard := false, guyMiss := 0, guyQ := [] }) s

/-- Judges a verdict (R269, R282): held for the application tick, recorded as late, or counted as stray. -/
def State.judgeVerdict (s : State) (g : GuyCell) : State :=
  let k := s.step
  if k.mode = .diverged ∧ g.epoch = k.struck then
    ({ s with step := { k with lateSeen := true, lateOr := g.flags } }).report 0x0603 unitMgmt
      (g.flags.toNat + 2 ^ 8 * (g.epoch.toNat % 2 ^ 24))
  else if s.stepping ∧ g.epoch = s.epoch ∧ k.tseal.map (fun t => BitVec.ofNat 32 t) = some g.tseal then
    { s with step := { k with verdict := some g.flags } }
  else (s.bump Reg.modVerdictStray).reportLim 0x0608 0 unitMgmt g.epoch.toNat

/-- A verdict reaches the module: it is sent on down the tree, and judged (R268, R269). -/
def State.takeVerdict (s : State) (g : GuyCell) : State :=
  (s.downPorts.foldl (fun t p => t.sendGuy p true g) s).judgeVerdict g

/-- The flags that a child's cell adds: its own, and USER_ABORT where its epoch or T_seal differs (R268). -/
def childFlags (own : GuyCell) (c : GuyCell) : BitVec 4 :=
  if c.epoch = own.epoch ∧ c.tseal = own.tseal then c.flags else c.flags ||| flagAbort

/-- Takes the oldest cell held for each of a list of ports off the held cells. -/
def takeOldest (held : List (Nat × GuyCell)) : List Nat → List (Nat × GuyCell)
  | [] => held
  | p :: ps => takeOldest (held.eraseP (fun x => x.1 == p)) ps

/-- Completes the round once the module's own cell and one of every child are at hand: the OR goes upwards, or is the
verdict at the root (R268). -/
def State.guyRound (s : State) : State :=
  match s.step.own with
  | none => s
  | some own =>
    let ps := s.downPorts
    let cell := fun p : Nat => (s.step.children.find? (fun x => x.1 == p)).map (·.2)
    if s.step.forwarded ∨ ps.any (fun p => (cell p).isNone) then s
    else
      let fl := (ps.filterMap cell).foldl (fun f c => f ||| childFlags own c) own.flags
      let g := { own with flags := fl }
      let s1 := { s with step := { s.step with forwarded := true, children := takeOldest s.step.children ps } }
      if s.isMaster then s1.takeVerdict g else s1.sendGuy s.upPort false g

/-! ### Sealing (R266, R267) -/

/-- Reports a seal fault (Table 9-2). -/
def State.sealFault (s : State) (reason unit : Nat) : State :=
  s.reportLim 0x0604 0 unit (reason + 2 ^ 8 * (s.epoch.toNat % 2 ^ 24))

/-- Latches T_seal. -/
def State.latchSeal (s : State) (t : Nat) : State :=
  { s with step := { s.step with tseal := some t, tsealReg := t % 2 ^ 64 } }

/-- Seals at a tick, from a unit (R266, Table 9-2). -/
def State.sealAt (s : State) (unit t : Nat) : State :=
  if s.stepping then
    match s.step.tseal with
    | none =>
      if s.pitch < t then s.latchSeal t
      else ((s.latchSeal (s.pitch + 1)).raiseFlag flagAbort s.epoch).sealFault 1 unit
    | some t0 => if t = t0 then s else (s.raiseFlag flagAbort s.epoch).sealFault 2 unit
  else s.sealFault 3 unit

/-- A cell seals: in OPEN and SEALED the cell is marked as sealed for the epoch (R267, R400). -/
def State.cellSeal (s : State) (c t : Nat) : State :=
  let s1 := if s.stepping then s.setCell c { s.cell c with sealedMark := true } else s
  s1.sealAt (unitCell c) t

/-- The tick edge of T_seal (R267): late slices raise DEADLINE_FATAL, the flags so far are the contribution, and the
module is SEALED; GUY_BOUND is sampled here (DEDUCED, log entry 20). -/
def State.sealEdge (s : State) (t : Nat) : State :=
  let s1 := (List.range 12).foldl State.sealGs s
  let s2 := s1.setFld Reg.modStepUnsealed 0 10 (512 - s1.cells.countP (fun c => c.2.sealedMark))
  let g : GuyCell := { flags := s2.step.flags, epoch := s2.epoch, tseal := BitVec.ofNat 32 t }
  ({ s2 with step := { s2.step with mode := .sealed, own := some g, forwarded := false,
                                    applyAt := some (t + s2.fld Reg.guyBound 0 16) } }).guyRound

/-! ### The verdict (R272 to R276) -/

/-- Stakes one fly version (R272, R273): it is the committed version; the frame it replaces is to be reclaimed, or kept
until the invalid segments are copied. -/
def State.stakePage (s : State) (x : Nat × FlyPage) : State :=
  let p := x.1
  let s0 := match alistGet s.pool.merges p, s.dir p with
    | some m, some e => s.mergePage p m e
    | _, _ => s
  match s0.dir p with
  | none => s0.setFrame x.2.frame .reclaim
  | some e =>
    let old := frameNo e.home e.loc
    let s1 := (s0.setFrame x.2.frame (.page p)).setDir p { e with fly := false, loc := frameIdx x.2.frame }
    if x.2.valid = 2 ^ 32 - 1 then s1.setFrame old .reclaim
    else
      -- both frames count for the page's class until the merge ends (R296)
      let s2 := (s1.setFrame old (.old p)).quotaCheck s0 e.cls
      { s2 with pool := { s2.pool with merges := tabPut p ⟨old, x.2.valid⟩ s2.pool.merges } }

/-- Frees one fly version at a strike (R272). -/
def State.strikePage (s : State) (x : Nat × FlyPage) : State :=
  let s1 := s.setFrame x.2.frame .reclaim
  match s1.dir x.1 with
  | none => s1
  | some e => s1.setDir x.1 { e with fly := false }

/-- What a verdict does to the fly versions. -/
def State.verdictFly (s : State) (stake : Bool) : State :=
  let s1 := s.pool.flies.foldl (fun t x => if stake then t.stakePage x else t.strikePage x) s
  { s1 with pool := { s1.pool with flies := [] } }

/-- Wide-lock is cleared and MOD_FB_REMAIN reloaded (R212). -/
def State.clearWide (s : State) : State :=
  (s.setFld Reg.modFbStatus 0 1 0).setReg Reg.modFbRemain (s.reg Reg.modFbbudget)

/-- The W32 pattern of 2^k (R275). -/
def powW32 (k : Nat) : Nat := 2 ^ 22 * (k + 255)

/-- The exponent of the GSCALE in MOD_GSCALE. -/
def State.gscaleExp (s : State) : Nat := s.fld Reg.modGscale 22 9 - 255

/-- Reports GSCALE_LIMIT. -/
def State.gscaleLimit (s : State) (top : Bool) (e : W32) : State :=
  s.report 0x0605 unitMgmt (b2n top + 2 ^ 8 * (e.toNat % 2 ^ 24))

/-- Doubles or halves GSCALE within its range (R276). -/
def State.gscaleMove (s : State) (up : Bool) (e : W32) : State :=
  let k := s.gscaleExp
  if up then
    (if s.fld Reg.modGscaleCtrl 24 6 ≤ k then s.gscaleLimit true e
     else s.setReg Reg.modGscale (BitVec.ofNat 32 (powW32 (k + 1))))
  else
    (if k ≤ s.fld Reg.modGscaleCtrl 16 6 then s.gscaleLimit false e
     else s.setReg Reg.modGscale (BitVec.ofNat 32 (powW32 (k - 1))))

/-- Automatic gradient scaling at an application tick (R276). -/
def State.autoscale (s : State) (stake : Bool) (e : W32) : State :=
  if s.fld Reg.modStepCtrl 1 1 = 0 then s
  else if stake then
    let run := s.fld Reg.modGscaleRun 0 16 + 1
    if run < s.fld Reg.modGscaleCtrl 0 16 then s.setFld Reg.modGscaleRun 0 16 run
    else (s.setFld Reg.modGscaleRun 0 16 0).gscaleMove true e
  else (s.setFld Reg.modGscaleRun 0 16 0).gscaleMove false e

/-- Enters OPEN for MOD_EPOCH with its first flags (Table 9-1, R259, R275, R400). -/
def State.openStep (s : State) (first : BitVec 4) : State :=
  let s1 := s.mapCells (fun k => { k with sealedMark := false })
  { s1 with step := { s1.step with mode := .opened, flags := first, pend := 0, early := 0, earlyNext := 0,
                                   tseal := none, applyAt := none,
                                   own := none, forwarded := false, verdict := none,
                                   gscale := s1.reg Reg.modGscale } }

/-- What a verdict, or the end of a step by MOD_STEP_CTRL.EN, does to the units (Table 9-4). -/
def State.endUnits (s : State) (stake : Bool) : State :=
  let s1 := (List.range 12).foldl State.verdictGs (s.verdictFly stake)
  ((List.range 8).foldl (State.verdictCu s.epoch) s1).clearWide

/-- The work that units have held is handled as its epoch now stands, under the rotation now in force (Table 9-6, R26,
R429). -/
def State.afterVerdict (s0 : State) (stake : Bool) : State :=
  let s := s0.applyRot
  let s1 := (List.range 12).foldl (if stake then State.freeHeld else State.staleHeld) s
  (List.range 8).foldl State.retakePartials ((List.range 12).foldl State.retakeContribs s1)

/-- The number of flags in a set. -/
def flagCount (f : BitVec 4) : Nat := b2n (f.getLsbD 0) + b2n (f.getLsbD 1) + b2n (f.getLsbD 2) + b2n (f.getLsbD 3)

/-- Applies a stake (R272): the pending flags, and those of the application tick itself, are the next step's first (R259). -/
def State.stake (s : State) (fl : BitVec 4) : State :=
  let e := s.epoch
  let s1 := ((s.endUnits true).autoscale true e).bump Reg.modStakes
  let s2 := { s1 with step := { s1.step with lastOr := fl, lastVerdict := true,
                                             vcount := (s1.step.vcount + 1) % 2 ^ 32 } }
  let first := s1.step.pend ||| s1.step.early ||| s1.step.earlyNext
  (((s2.setReg Reg.modEpoch (nextEpoch e)).openStep first).afterVerdict true).completeSteps e

/-- Strikes the step, by a verdict or locally (R272, R280). The pending set is discarded; flags of the application tick
itself belong to the step run again (R259), and are dropped and counted where the module is DIVERGED (R271). After a local
strike the module's own cell goes on waiting for its children's, so that the round can still complete (R268). -/
def State.strike (s : State) (fl : BitVec 4) (loc : Bool) : State :=
  let e := s.epoch
  let s1 := ((s.endUnits false).autoscale false e).bump Reg.modStrikes
  let s2 := { s1 with step := { s1.step with lastOr := fl, lastVerdict := false, lastLocal := loc,
                                             vcount := (s1.step.vcount + 1) % 2 ^ 32 } }
  let s3 := s2.report 0x0601 unitMgmt (fl.toNat + b2n loc * 2 ^ 4 + 2 ^ 8 * (e.toNat % 2 ^ 24))
  let s4 := if loc then
      (({ s3 with step := { s3.step with mode := .diverged, flags := 0, pend := 0, early := 0, earlyNext := 0,
                                         tseal := none, applyAt := none, verdict := none, struck := e }
        }).bumpBy Reg.modFlagsDropped (flagCount s1.step.early + flagCount s1.step.earlyNext)
        |>.bump Reg.modLocalStrikes).report 0x0602 unitMgmt e.toNat
    else
      let t := s3.openStep s1.step.early
      { t with step := { t.step with pend := s1.step.earlyNext } }
  (s4.afterVerdict false).completeSteps e

/-- Applies the held verdict, or strikes locally where none is held (R272, R280). -/
def State.applyVerdict (s : State) : State :=
  match s.step.verdict with
  | some fl => if fl = 0 then s.stake fl else s.strike fl false
  | none => s.strike ((s.step.own.map (·.flags)).getD s.step.flags) true

/-- Ends a step without a verdict (R260): the module is IDLE. -/
def State.endStep (s : State) : State :=
  let s1 := if s.stepping then s.endUnits false else s
  let s2 := { s1 with step := { s1.step with mode := .idle, flags := 0, pend := 0, early := 0, earlyNext := 0,
                                             tseal := none, applyAt := none, own := none, forwarded := false, verdict := none } }
  if s.stepping then s2.afterVerdict false else s2.applyRot

end Sys2Proof.Machine
end

