-- ==== Sys2Proof/Machine/StepCmds.lean ====
section
/-! DEFINITION. The commands of the step machine and of the guyline tree (R258 to R286). -/

namespace Sys2Proof.Machine

/-- Has the count reached a tick that is set? -/
def State.reached (s : State) (t : Option Nat) : Bool :=
  match t with
  | some x => x ≤ s.pitch
  | none => false

/-- T_SEAL_REACHED (R267). -/
def execTSealReached (s : State) : Out :=
  .next (whenOk (s.up && s.step.mode == .opened && s.reached s.step.tseal) s (s.sealEdge (s.step.tseal.getD 0)))

/-- Guyline cells that a receiver holds (R337). -/
def guyHold : Nat := 64

/-- GUYLINE_CONTRIBUTION (R268): a cell from a port that is not in GUY_DOWNMASK is not of the tree (DEDUCED, log entry 19). -/
def execGuylineContribution (port : Nat) (g : GuyCell) (s : State) : Out :=
  onUnit (port < 24) (whenOk s.up s (match s.guyTake port g.seq g.copy g.good with
    | none => s
    | some t =>
      if t.downPorts.contains port && decide (t.step.children.countP (fun x => x.1 == port) < guyHold) then
        ({ t with step := { t.step with children := t.step.children ++ [(port, g)] } }).guyRound
      else t))

/-- GUYLINE_VERDICT (R269). -/
def execGuylineVerdict (port : Nat) (g : GuyCell) (s : State) : Out :=
  onUnit (port < 24) (whenOk s.up s (match s.guyTake port g.seq g.copy g.good with
    | none => s
    | some t => if t.guyOn && t.upPort == port then t.takeVerdict g else t))

/-- VERDICT_APPLY (R272). -/
def execVerdictApply (s : State) : Out :=
  .next (whenOk (s.up && s.step.mode == .sealed && s.reached s.step.applyAt) s s.applyVerdict)

/-- Writes MOD_STEP_CTRL.EN := 1 (R258, R260): cells of a round that never completed belong to no later round (DEDUCED, log entry
19). -/
def State.stepOn (s : State) : State :=
  let s1 := s.setFld Reg.modStepCtrl 0 1 1
  if s.step.mode = .idle then ({ s1 with step := { s1.step with children := [] } }).openStep 0 else s1

/-- STEP_ENABLE (R258). -/
def execStepEnable (s : State) : Out := .next (whenOk s.up s s.stepOn)

/-- STEP_DISABLE (R260). -/
def execStepDisable (s : State) : Out :=
  .next (whenOk s.up s (s.setFld Reg.modStepCtrl 0 1 0).endStep)

/-- MOD_EPOCH_WRITE (R260). -/
def execModEpochWrite (v : W32) (s : State) : Out :=
  .next (whenOk s.up s
    (if s.stepping then s.clampReg Reg.modEpoch 0 v.toNat s.epoch.toNat
     else s.setReg Reg.modEpoch v))

/-- STEP_CMD_SEAL (R266). -/
def execStepCmdSeal (s : State) : Out :=
  .next (whenOk s.up s (s.sealAt unitMgmt (s.reg64 Reg.modStepSealtLo Reg.modStepSealtHi)))

/-- STEP_CMD_ABORT (R271). -/
def execStepCmdAbort (s : State) : Out := .next (whenOk s.up s (s.raiseFlag flagAbort s.epoch))

/-- CLEAR_DIVERGE (R286). -/
def execClearDiverge (s : State) : Out :=
  .next (whenOk (s.up && s.step.mode == .diverged) s
    (({ s with step := { s.step with children := [] } }).openStep 0))

/-- The exponent that a value written to MOD_GSCALE goes to (R275). -/
def gscaleNear (lo hi v : Nat) : Nat :=
  let e := v / 2 ^ 22 % 2 ^ 9
  let f := v % 2 ^ 22
  if v.testBit 31 ∨ v = 0 then lo
  else if e = 511 then (if f = 0 then hi else lo)
  else if e < 255 then lo
  else holdTo lo hi (if f ≤ 0x1A8279 then e - 255 else e - 254)

/-- MOD_GSCALE_WRITE (R275). -/
def execModGscaleWrite (v : W32) (s : State) : Out :=
  .next (whenOk s.up s
    (let w := powW32 (gscaleNear (s.fld Reg.modGscaleCtrl 16 6) (s.fld Reg.modGscaleCtrl 24 6) v.toNat)
     let s1 := s.setReg Reg.modGscale (BitVec.ofNat 32 w)
     if w = v.toNat then s1 else s1.clampReg Reg.modGscale 0 v.toNat w))

/-- Records the clamp of a field of MOD_GSCALE_CTRL where it differs. -/
def State.ctrlClamp (s : State) (bit written applied : Nat) : State :=
  if written = applied then s else s.clampReg Reg.modGscaleCtrl bit written applied

/-- MOD_GSCALE_CTRL_WRITE (R275, Table 9-8): GROW at least 1, MAX_EXP at most 62, MIN_EXP at most MAX_EXP; GSCALE is moved
into the new range. -/
def execModGscaleCtrlWrite (v : W32) (s : State) : Out :=
  .next (whenOk s.up s
    (let grow := v.toNat % 2 ^ 16
     let lo := v.toNat / 2 ^ 16 % 2 ^ 6
     let hi := v.toNat / 2 ^ 24 % 2 ^ 6
     let grow1 := max 1 grow
     let hi1 := min hi 62
     let lo1 := min lo hi1
     let s1 := s.setReg Reg.modGscaleCtrl (BitVec.ofNat 32 (grow1 + 2 ^ 16 * lo1 + 2 ^ 24 * hi1))
     let s2 := ((s1.ctrlClamp 0 grow grow1).ctrlClamp 16 lo lo1).ctrlClamp 24 hi hi1
     let k := holdTo lo1 hi1 s.gscaleExp
     if k = s.gscaleExp then s2
     else (s2.setReg Reg.modGscale (BitVec.ofNat 32 (powW32 k))).clampReg Reg.modGscale 0
       (s.reg Reg.modGscale).toNat (powW32 k)))

end Sys2Proof.Machine
end

