-- ==== Sys2Proof/Machine/System.lean ====
section
/-! DEFINITION. The timed and sync, power hint and system classes (Tables 13-8 and 13-9), phases and hints (R422 to R424),
and the host's control of a core (R406). -/

namespace Sys2Proof.Machine

/-! ### Phases and hints -/

/-- The power mode (Table 14-1): 3 TRIP, 1 SHED, 2 BIVOUAC, 0 NORMAL. -/
def State.pwrMode (s : State) : Nat :=
  if s.tripped then 3 else if s.pwr.shed then 1
  else if s.pwr.warned || s.pwr.airStop || s.pwr.tripCleared then 2 else 0

/-- The current phase of a die (R422). -/
def State.phaseOf (s : State) (d : Nat) : Nat := s.fld (Reg.pwrPhase d) 0 8

/-- The sample of a die's phase so far. -/
def State.phaseAcc (s : State) (d : Nat) : PhaseAcc := tabGet (fun _ => {}) s.pwr.accs d

/-- Stores it. -/
def State.setPhaseAcc (s : State) (d : Nat) (a : PhaseAcc) : State :=
  { s with pwr := { s.pwr with accs := tabSet (fun _ => {}) s.pwr.accs d a } }

/-- Updates a learnt field: the sample itself as the first, else an eighth of the way to it, truncated (R423). -/
def learn (count old sample : Nat) : Nat := if count = 0 then sample else (7 * old + sample) / 8

/-- Closes one sample of a phase of a die into its record, or its lock record (R423; DESIGN CHOICE, log entry
50). -/
def State.closeSample (s : State) (d n : Nat) (a : PhaseAcc) : State :=
  if a.void then s else
  let base := if a.locked then Reg.pwrPhl (4 * n) else Reg.pwrPhDur n
  let k := s.fld (base + 8) 16 16
  let upd := fun (off w sample : Nat) (t : State) => t.setFld off 0 w (min (learn k (s.fld off 0 w) sample) (2 ^ w - 1))
  let s1 := upd base 32 (s.pitch - a.start) s
  let s2 := upd (base + 4) 32 (64 * a.energy / 25) s1
  let s3 := upd (base + 8) 12 a.peak s2
  let s4 := upd (base + 12) 7 (if a.periods = 0 then (tabGet (fun _ => {}) s.pwr.clocks d).step else a.steps / a.periods) s3
  s4.setFld (base + 8) 16 16 (min (k + 1) 65535)

/-- A phase sample that begins at the present count. -/
def State.newSample (s : State) : PhaseAcc :=
  { start := s.pitch, locked := s.fld Reg.modFbStatus 0 1 == 1, void := s.pwrMode != 0 }

/-- The hint queue of a die. -/
def State.hintsOf (s : State) (d : Nat) : List (Nat × Nat) := tabGet (fun _ => []) s.pwr.hints d

/-- Stores it, with its length in PWR_PHASE_d.HINTS. -/
def State.setHints (s : State) (d : Nat) (l : List (Nat × Nat)) : State :=
  ({ s with pwr := { s.pwr with hints := tabSet (fun _ => []) s.pwr.hints d l } }).setFld (Reg.pwrPhase d) 8 5 l.length

/-- A cell's place among the cells of its die in the order of R53 at the present count (R422). -/
def State.markRank (s : State) (c : Nat) : Nat := (c % 64 + 64 - s.pitch % 64) % 64

/-- Has a mark of this tick been made on the die by a cell that comes later in the order of R53 (R422)? -/
def State.outranked (s : State) (c : Nat) : Bool :=
  match tabGet (fun _ => (0, 0)) s.pwr.marks (dieOf c) with
  | (t, r) => t == s.pitch && s.markRank c < r

/-- Marks a phase on the die of cell `c` (R422): the sample of the phase that ends is closed, and a hint of this phase within
1,024 ticks is removed (R424). A mark that comes before another of the same tick is a phase that has ended at once. -/
def State.markPhase (s : State) (c n : Nat) : State :=
  let d := dieOf c
  let s1 :=
    if s.outranked c then s.closeSample d n s.newSample
    else
      let t := (s.closeSample d (s.phaseOf d) (s.phaseAcc d)).setFld (Reg.pwrPhase d) 0 8 n
      let u := t.setPhaseAcc d t.newSample
      { u with pwr := { u.pwr with marks := tabSet (fun _ => (0, 0)) u.pwr.marks d (s.pitch, s.markRank c) } }
  s1.setHints d ((s1.hintsOf d).filter (fun h => !(h.1 == n && h.2 ≤ s.pitch + 1024 && s.pitch < h.2 + 1024)))

/-- Queues a hint on a die (R424). -/
def State.addHint (s : State) (d n t : Nat) : State :=
  let l := s.hintsOf d
  if t ≤ s.pitch ∨ l.contains (n, t) then s
  else if 16 ≤ l.length then s.bump Reg.pwrHintDrop
  else s.setHints d (l ++ [(n, t)])

/-- Drops the hints of a die whose tick lies 1,024 ticks back, counted (R424). -/
def State.dropHints (s : State) (d : Nat) : State :=
  let l := s.hintsOf d
  let keep := l.filter (fun h => s.pitch < h.2 + 1024)
  if keep.length = l.length then s else (s.setHints d keep).bumpBy Reg.pwrHintDrop (l.length - keep.length)

/-- PHASE (R422). -/
def execPhase (c : Nat) (o : ROps) (s : State) : Out :=
  coreR c (.phase c o) o 0x09 0x00 [] (fun t => .done (t.markPhase c (o.x.toNat % 256))) s

/-- HINT (R424). -/
def execHint (c : Nat) (o : ROps) (s : State) : Out :=
  coreR c (.hint c o) o 0x09 0x01 [o.sa.toNat]
    (fun t => .done (t.addHint (dieOf c) (o.x.toNat % 256) ((t.cell c).s o.sa.toNat).toNat)) s

/-! ### Timed and sync class -/

/-- TICK (R395): SD := the pitch count. -/
def execTick (c : Nat) (o : ROps) (s : State) : Out :=
  coreR c (.tick c o) o 0x08 0x03 [o.sd.toNat] (fun t => effS c o.sd.toNat (BitVec.ofNat 64 t.pitch) t) s

/-- SEAL (R266). -/
def execSeal (c : Nat) (o : ROps) (s : State) : Out :=
  coreR c (.seal c o) o 0x08 0x02 [o.sa.toNat] (fun t => .done (t.cellSeal c ((t.cell c).s o.sa.toNat).toNat)) s

/-- SYNC.ABORT (R271, R395). -/
def execSyncAbort (c : Nat) (o : ROps) (s : State) : Out :=
  coreR c (.syncAbort c o) o 0x08 0x04 [] (fun t => .done (t.raiseFlag flagAbort t.epoch)) s

/-- The tick that WAIT.TICK waits for. -/
def waitTarget (k : Cell) (o : ROps) : Nat := (k.s o.sa.toNat).toNat

/-- WAIT.TICK (R49): a count below the tick stalls the core. -/
def execWaitTick (c : Nat) (o : ROps) (s : State) : Out :=
  coreR c (.waitTick c o) o 0x08 0x01 [o.sa.toNat]
    (fun t => if t.pitch < waitTarget (t.cell c) o then .stall else .done t) s

/-- WAIT_TICK_RESUME (R49): a core stalled on WAIT.TICK goes on once the count has reached its tick. -/
def execWaitTickResume (c : Nat) (s : State) : Out :=
  onUnit (c < 512) (match (s.cell c).stall with
    | some (.waitTick b o) =>
      whenOk (s.works && (s.cell c).run == .running && b == c && waitTarget (s.cell c) o ≤ s.pitch) s
        (s.finish c (.waitTick b o) 0x08 0x01 1 (.done s))
    | _ => s)

/-! ### System class -/

/-- NOP (R395). -/
def execNop (c : Nat) (o : ROps) (s : State) : Out := coreR c (.nop c o) o 0x0A 0x00 [] (fun t => .done t) s

/-- Is wide-lock in force for an epoch: locked, in that epoch, at an earlier tick (R210)? -/
def State.wideOn (s : State) (e : W32) : Bool :=
  s.fld Reg.modFbStatus 0 1 == 1 && s.reg Reg.modFbLockEpoch == e
    && s.reg64 Reg.modFbLockTickLo Reg.modFbLockTickHi < s.pitch

/-- The value of a control register (Table 13-9); an index not in the table reads 0 (R401). -/
def State.controlReg (s : State) (c : Nat) (i : Nat) : Nat :=
  let k := s.cell c
  match i with
  | 0x00 => c % 512 + 2 ^ 9 * (c / 64 % 8) + 2 ^ 12 * (c % 64) + 2 ^ 18 * (c / 16 % 4)
  | 0x01 => (s.reg Reg.fabAddr).toNat
  | 0x02 => s.epoch.toNat
  | 0x03 => s.stepStatus % 2 ^ 24 + 2 ^ 24 * b2n k.sealedMark + 2 ^ 32 * (s.step.vcount % 2 ^ 32)
  | 0x04 => s.step.tsealReg
  | 0x05 => s.fld Reg.guyBound 0 16
  | 0x06 => (s.reg Reg.modGscale).toNat
  | 0x07 => b2n (s.wideOn s.epoch) + 2 ^ 32 * (s.reg Reg.modFbRemain).toNat
  | 0x08 => k.lq.length
  | 0x10 => k.evec.toNat + 2 ^ 31 * b2n k.evecEn
  | 0x11 => k.epc.toNat
  | 0x12 => k.ecause.toNat
  | 0x13 => b2n k.active
  | 0x14 => k.es0.toNat
  | 0x15 => k.es1.toNat
  | 0x18 => s.fld (Reg.cellLaunchFault c) 0 8 + 2 ^ 16 * s.fld (Reg.cellLaunchFault c) 16 16 + 2 ^ 32 * k.lfaultTick.toNat
  | _ => 0

/-- SYS.RD (R401). -/
def execSysRd (c : Nat) (o : ROps) (s : State) : Out :=
  coreR c (.sysRd c o) o 0x0A 0x01 [o.sd.toNat]
    (fun t => effS c o.sd.toNat (BitVec.ofNat 64 (t.controlReg c (o.x.toNat % 256))) t) s

/-- The cell after a write of a control register; none for an index that is RO or not in the table (R401). -/
def Cell.setControl (k : Cell) (i : Nat) (v : W64) : Option Cell :=
  match i with
  | 0x10 => some { k with evec := v.setWidth 12, evecEn := v.getLsbD 31 }
  | 0x11 => some { k with epc := v.setWidth 12 }
  | 0x14 => some { k with es0 := v }
  | 0x15 => some { k with es1 := v }
  | _ => none

/-- SYS.WR (R401). -/
def execSysWr (c : Nat) (o : ROps) (s : State) : Out :=
  coreR c (.sysWr c o) o 0x0A 0x02 [o.sa.toNat]
    (fun t => match (t.cell c).setControl (o.x.toNat % 256) ((t.cell c).s o.sa.toNat) with
      | some k => .done (t.setCell c k)
      | none => .exc excIllegalOp 0) s

/-- SYS.ERET (R404): ILLEGAL_OP with ACTIVE 0 (Table 13-10). -/
def execSysEret (c : Nat) (o : ROps) (s : State) : Out :=
  coreR c (.sysEret c o) o 0x0A 0x03 []
    (fun t => if (t.cell c).active then .placed (t.setCell c (t.cell c).eret) else .exc excIllegalOp 0) s

/-- SYS.HALT (R395): STATE DONE; PC stays at the instruction (DEDUCED, log entry 21). -/
def execSysHalt (c : Nat) (o : ROps) (s : State) : Out :=
  coreR c (.sysHalt c o) o 0x0A 0x04 []
    (fun t => .placed (t.setCell c { t.cell c with run := .done, stall := none })) s

/-- SYS.TRAP (R395). -/
def execSysTrap (c : Nat) (o : ROps) (s : State) : Out :=
  coreR c (.sysTrap c o) o 0x0A 0x05 [] (fun _ => .exc excTrap (o.x.toNat % 256)) s

/-! ### The host's control of a core (R406) -/

/-- Starts a core at CELL_CORE_PC. -/
def State.startCore (s : State) (c : Nat) : State :=
  let k := s.cell c
  if k.run = .running then s else s.setCell c { k with run := .running, active := false, stall := none }

/-- RUN (R406). -/
def execRun (c : Nat) (s : State) : Out := onUnit (c < 512) (whenOk s.up s (s.startCore c))

/-- HALT (R406). -/
def execHalt (c : Nat) (s : State) : Out := onUnit (c < 512) (whenOk s.up s (s.setCell c (s.cell c).halt))

/-- Frees the handle that a queued action has taken (R399, R406). -/
def Cell.freeWork (k : Cell) (w : Work) : Cell :=
  match w with
  | .pool _ h _ _ _ => { k with xfers := tabDel h k.xfers }
  | .gather h _ _ _ _ => { k with xfers := tabDel h k.xfers }
  | .coll h => { k with colls := tabDel h k.colls }
  | _ => k

/-- CLRLQ (R406): ignored while the core is RUNNING. -/
def execClrlq (c : Nat) (s : State) : Out :=
  let k := s.cell c
  onUnit (c < 512) (whenOk (s.up && k.run != .running) s
    (s.setCell c { k.lq.foldl (fun j e => j.freeWork e.work) k with lq := [] }))

end Sys2Proof.Machine
end

