-- ==== Sys2Proof/Machine/Queues.lean ====
section
/-! DEFINITION. Command queues and their descriptors (R454 to R463), and the event and clamp rings (R464 to R466, R490). -/

namespace Sys2Proof.Machine

/-! ### Descriptors (R456, Table 15-4) -/

/-- The address of a 64-byte aligned field of two words: its low six bits are cleared. -/
def ckAlign (ws : List Nat) (w : Nat) : List ClampItem :=
  let v := nthWord ws w
  if v % 64 = 0 then [] else [⟨w, 0, v, 64 * (v / 64), false⟩]

/-- The pool address of a COPY. -/
def copyPool (ws : List Nat) : Nat := nthWord ws 5 + 2 ^ 32 * wfield ws 6 0 8

/-- Is it aligned and in the pool (R291)? -/
def copyPoolOk (ws : List Nat) : Bool := copyPool ws % 64 == 0 && copyPool ws / pageBytes < poolPages

/-- NWORDS and NCELLS as applied. -/
def progWords (ws : List Nat) : Nat := holdTo 1 (4096 - wfield ws 5 0 12) (wfield ws 5 12 13)
/-- NCELLS as applied. -/
def progCells (ws : List Nat) : Nat := holdTo 1 (512 - wfield ws 6 0 9) (wfield ws 6 9 10)

/-- What the check of a host descriptor records (R487); words that its kind does not use are ignored. -/
def hqItems (ws : List Nat) : List ClampItem :=
  let k := wfield ws 1 0 8
  rjField ws 1 0 8 (k ≤ 4) ++ ckField ws 1 10 22 0
    ++ (if k = 1 then
          ckAlign ws 3 ++ ckField ws 5 12 13 (progWords ws) ++ ckField ws 5 25 7 0 ++ ckField ws 6 9 10 (progCells ws)
            ++ ckField ws 6 19 13 0 ++ ckField ws 7 13 19 0
        else if k = 2 then ckField ws 6 1 31 0
        else if k = 3 then
          ckAlign ws 3 ++ rjField ws 5 0 32 (copyPoolOk ws) ++ ckField ws 6 8 24 0
            ++ ckField ws 7 0 24 (max 1 (wfield ws 7 0 24)) ++ ckField ws 7 24 7 0
        else [])

/-- Applies a clamp to the words of a descriptor; a field of an address or of one word lies in its word. -/
def applyItem (ws : List Nat) (i : ClampItem) : List Nat :=
  if i.reject then ws
  else ws.set i.word (nthWord ws i.word - i.written * 2 ^ i.bit + i.applied * 2 ^ i.bit)

/-- The words of a descriptor as applied. -/
def hqApplied (ws : List Nat) : List Nat := (hqItems ws).foldl applyItem ws

/-- The words of a started descriptor. -/
def Started.ws (d : Started) : List Nat := d.words.map BitVec.toNat

/-- Its kind. -/
def Started.kind (d : Started) : Nat := wfield d.ws 1 0 8

/-! ### Fetching (R454, R455) -/

/-- Is a queue fetching: RUNNING, with descriptors up to the tail, fewer than 16 started, and CXL.cache up (R442, R452)?
One whose next descriptor was read and has FENCE set waits for those before it. -/
def State.queueReady (s : State) (q : Nat) : Bool :=
  let k := s.queue q
  k.mode == .running && !k.draining && k.head != s.fld (Reg.hqQtail q) 0 16 && k.started.length < 16 && s.host.cxl
    && !s.insecure 256 && (!k.fenced || k.started.isEmpty)

/-- The CXL.cache read of the descriptor at the head of a queue leaves (R447, R454). -/
def State.readDesc (s : State) (q : Nat) : State :=
  s.emit (.rdCurr (s.reg64 (Reg.hqQbaseLo q) (Reg.hqQbaseHi q) + 64 * (s.queue q).head))

/-- A descriptor read fails: 1 completion error, 2 poison, 3 timeout (R455). -/
def State.fetchFailed (s : State) (q fault : Nat) : State :=
  let k := s.queue q
  ((s.setQueue q { k with mode := .stopped, fault := fault }).bump Reg.hqHostErr).report 0x0802 unitMgmt
    (q + 2 ^ 8 * (fault % 2 ^ 4) + 2 ^ 16 * k.head)

/-- Starts the descriptor at the head of a queue (R454, R456, R487). -/
def State.startDesc (s : State) (q : Nat) (ws : List Nat) : State :=
  let k := s.queue q
  let s1 := s.clampRead 0x07 (2 ^ 16 * q + k.head) (nthWord ws 0) (nthWord ws 15) unitMgmt (hqItems ws)
  let d : Started := { slot := k.head, words := (hqApplied ws).map (BitVec.ofNat 32) }
  let s2 := s1.setQueue q { s1.queue q with head := (k.head + 1) % s.queueSize q, started := k.started ++ [d],
                                            fenced := false }
  if wfield ws 1 0 8 ≤ 4 then s2 else s2.complete q d 2 0

/-- DESCRIPTOR_FETCH (R447, R454): the queue that R53 chooses reads its next descriptor; `st` is 0, or the fault of the
read (DESIGN CHOICE, log entry 43). -/
def execDescriptorFetch (st : Nat) (words : List W32) (s : State) : Out :=
  .next (whenOk s.up s (match arbiter 64 s.pitch s.queueReady with
    | none => s
    | some q =>
      let ws := words.map BitVec.toNat
      let t := s.readDesc q
      let k := t.queue q
      if st ≠ 0 then t.fetchFailed q (min st 3)
      else if wfield ws 1 8 1 = 1 ∧ k.started.isEmpty = false then t.setQueue q { k with fenced := true }
      else t.startDesc q ws))

/-- HQ_FETCH_TIMEOUT (R455): the read has left and gets no answer. -/
def execHqFetchTimeout (q : Nat) (s : State) : Out :=
  onUnit (q < 64) (whenOk (s.up && s.queueReady q) s ((s.readDesc q).fetchFailed q 3))

/-- QUEUE_ENABLE (R455). -/
def execQueueEnable (q : Nat) (s : State) : Out :=
  onUnit (q < 64) (whenOk s.up s
    (let s1 := s.setFld (Reg.hqQctrl q) 0 1 1
     if (s.queue q).mode = .disabled then s1.setQueue q { mode := .running } else s1))

/-- QUEUE_DISABLE (R455). -/
def execQueueDisable (q : Nat) (s : State) : Out :=
  onUnit (q < 64) (whenOk s.up s
    (let s1 := s.setFld (Reg.hqQctrl q) 0 1 0
     if (s.queue q).mode = .disabled then s1 else (s1.setQueue q { s.queue q with draining := true }).queueSettle q))

/-- A write of HQ_QTAIL_q: 0 to N − 1, clamped (R454, R467). -/
def State.ringDoorbell (s : State) (q tail : Nat) : State :=
  let v := min tail (s.queueSize q - 1)
  let s1 := s.setFld (Reg.hqQtail q) 0 16 v
  if v = tail then s1 else s1.clampReg (Reg.hqQtail q) 0 tail v

/-- DOORBELL (R454). -/
def execDoorbell (q tail : Nat) (s : State) : Out :=
  onUnit (q < 64) (whenOk s.up s (s.ringDoorbell q (tail % 2 ^ 16)))

/-! ### The work of descriptors -/

/-- The started descriptor of a slot, once those before it have begun (R454). -/
def State.startedAt (s : State) (q slot kind : Nat) : Option Started :=
  let l := (s.queue q).started
  match l.find? (fun d => d.slot == slot) with
  | some d => if d.kind = kind ∧ (l.takeWhile (fun x => x.slot != slot)).all (·.begun) then some d else none
  | none => none

/-- A started descriptor that has begun. -/
def State.begunAt (s : State) (q slot kind : Nat) : Option Started :=
  (s.startedAt q slot kind).filter (·.begun)

/-- Replaces a started descriptor. -/
def State.putStarted (s : State) (q : Nat) (d e : Started) : State :=
  let k := s.queue q
  s.setQueue q { k with started := k.started.map (fun x => if x = d then e else x) }

/-- A command on a started descriptor that has not begun. -/
def onDesc (q slot kind : Nat) (s : State) (act : Started → State) : Out :=
  onUnit (q < 64) (match s.startedAt q slot kind with
    | some d => whenOk (s.up && !d.begun) s (act d)
    | none => s)

/-- A command on a descriptor that has begun. -/
def onBegun (q slot kind : Nat) (s : State) (act : Started → State) : Out :=
  onUnit (q < 64) (match s.begunAt q slot kind with
    | some d => whenOk s.up s (act d)
    | none => s)

/-- DESC_NOP (R457). -/
def execDescNop (q slot : Nat) (s : State) : Out := onDesc q slot 0 s (fun d => s.complete q d 0 0)

/-- The cells of a PROGRAM. -/
def progCellList (ws : List Nat) : List Nat := (List.range (wfield ws 6 9 10)).map (wfield ws 6 0 9 + ·)

/-- Does a PROGRAM in progress on any queue have a cell of another (R458)? -/
def State.progOverlaps (s : State) (cells : List Nat) : Bool :=
  s.host.queues.any (fun k => k.2.started.any (fun d =>
    d.begun && d.kind == 1 && (progCellList d.ws).any cells.contains))

/-- Writes words of instruction memory of a cell; words written lose their errors (R405, R458). -/
def Cell.loadWords (k : Cell) (w0 n : Nat) (image : List W64) : Cell :=
  let there := fun w : Nat => w0 ≤ w && w < w0 + n
  { k with imem := (List.range n).foldl (fun m i => tabSet (fun _ => 0) m (w0 + i) (image.getD i 0)) k.imem,
           imemErr := k.imemErr.filter (fun w => !there w), imemCe := k.imemCe.filter (fun w => !there w) }

/-- Has the start tick of a PROGRAM been reached? -/
def State.progDue (s : State) (d : Started) : Bool := nthWord d.ws 8 + 2 ^ 32 * nthWord d.ws 9 ≤ s.pitch

/-- Writes RUN to the cells of a PROGRAM and completes it (R458). -/
def State.progRun (s : State) (q : Nat) (d : Started) : State :=
  ((progCellList d.ws).foldl State.startCore s).complete q d 0 0

/-- Loads the image of a PROGRAM into its cells, with the start word where START is set. -/
def State.progLoad (s : State) (d : Started) (image : List W64) : State :=
  let ws := d.ws
  (progCellList ws).foldl (fun t c =>
    let k := (t.cell c).loadWords (wfield ws 5 0 12) (wfield ws 5 12 13) image
    t.setCell c (if wfield ws 7 0 1 = 1 then { k with pc := BitVec.ofNat 12 (wfield ws 7 1 12) } else k)) s

/-- PROGRAM (R458): BUSY where a cell is RUNNING; it waits for a PROGRAM in progress on one of its cells. -/
def execProgram (q slot : Nat) (image : List W64) (s : State) : Out :=
  onDesc q slot 1 s (fun d =>
    let cells := progCellList d.ws
    if s.progOverlaps cells then s
    else if cells.any (fun c => (s.cell c).run == .running) then s.complete q d 3 0
    else
      let read := .hostRead (nthWord d.ws 3 + 2 ^ 32 * nthWord d.ws 4) (8 * wfield d.ws 5 12 13)
      let s1 := (s.toHost read).progLoad d image
      if wfield d.ws 7 0 1 = 0 then s1.complete q d 0 0
      else if s.progDue d then s1.progRun q d
      else s1.putStarted q d { d with begun := true })

/-- PROGRAM_START (R458). -/
def execProgramStart (q slot : Nat) (s : State) : Out :=
  onBegun q slot 1 s (fun d => whenOk (s.progDue d) s (s.progRun q d))

/-- STEP (R459). -/
def execStep (q slot : Nat) (s : State) : Out :=
  onDesc q slot 2 s (fun d =>
    let s1 := if s.step.mode = .idle ∧ wfield d.ws 6 0 1 = 1 then s.stepOn else s
    let t := nthWord d.ws 4 + 2 ^ 32 * nthWord d.ws 5
    if s1.epoch.toNat ≠ nthWord d.ws 3 then s1.complete q d 4 s1.epoch.toNat
    else if s1.stepping = false then s1.complete q d 5 0
    else (if t = 0 then s1 else s1.sealAt unitMgmt t).putStarted q d { d with begun := true })

/-! ### COPY (R460) -/

/-- The pages of a COPY. -/
def copyPages (ws : List Nat) : List Nat := pagesOf (copyPool ws) (64 * wfield ws 7 0 24)

/-- Acts on the pages of a COPY once all are resident; one that cannot be served fails it with reason 1 (R295, R301). -/
def State.overCopy (s : State) (i : Instr) (q : Nat) (d : Started) (act : State → State) : State :=
  match (copyPages d.ws).find? (fun p => !s.pageOk p) with
  | some p => (s.xferFault 0xFFFF p).complete q d 1 1
  | none => s.withPages i (copyPages d.ws) act

/-- COPY: the host read leaves, or the pool is read and the host write leaves (DESIGN CHOICE, log entry 43). -/
def execCopy (q slot : Nat) (s : State) : Out :=
  onUnit (q < 64) (match s.startedAt q slot 3 with
    | none => s
    | some d =>
      whenOk (s.up && !d.sent) s
        (let ws := d.ws
         let n := 64 * wfield ws 7 0 24
         let host := nthWord ws 3 + 2 ^ 32 * nthWord ws 4
         if copyPoolOk ws = false then s.complete q d 1 1
         else
           let e := { d with begun := true }
           (s.putStarted q d e).overCopy (.copy q slot) q e (fun t =>
             let t1 := t.putStarted q e { e with sent := true }
             if wfield ws 7 31 1 = 0 then t1.toHost (.hostRead host n)
             else (t1.poolTouch (copyPool ws) n).toHost (.hostData host (t1.poolRaw (copyPool ws) n)))))

/-- COPY_COMPLETE: `st` is not 0 for a host access that failed; `data` is what a read of host memory returned. -/
def execCopyComplete (q slot st : Nat) (data : List Byte) (s : State) : Out :=
  onBegun q slot 3 s (fun d =>
    let n := 64 * wfield d.ws 7 0 24
    if d.sent = false then s
    else if st ≠ 0 then (s.bump Reg.hqHostErr).complete q d 1 8
    else if wfield d.ws 7 31 1 = 1 then s.complete q d 0 0
    else s.overCopy (.copyComplete q slot st data) q d (fun t =>
      (t.poolWrite (copyPool d.ws) ((data ++ List.replicate (n - data.length) 0).take n)).complete q d 0 0))

/-! ### WAIT (R461) -/

/-- Has the tick of a WAIT been reached? -/
def State.waitDue (s : State) (d : Started) : Bool := nthWord d.ws 3 + 2 ^ 32 * nthWord d.ws 4 ≤ s.pitch

/-- WAIT. -/
def execWait (q slot : Nat) (s : State) : Out :=
  onDesc q slot 4 s (fun d => if s.waitDue d then s.complete q d 0 0 else s.putStarted q d { d with begun := true })

/-- WAIT_COMPLETE. -/
def execWaitComplete (q slot : Nat) (s : State) : Out :=
  onBegun q slot 4 s (fun d => whenOk (s.waitDue d) s (s.complete q d 0 0))

/-! ### Rings (R465, R466, R490) -/

/-- Does the module serve the registers that it serves in every stage after the ROM (R474, R476)? -/
def State.barOn (s : State) : Bool := s.alive && !s.rst.busy && s.boot.stage != .rom

/-- EVENT_RING_ENABLE (R465). -/
def execEventRingEnable (s : State) : Out :=
  .next (whenOk s.barOn s ((s.setFld Reg.evtCtrl 0 1 1).ringDrain evtRing).2)

/-- CLAMP_RING_ENABLE (R490). -/
def execClampRingEnable (s : State) : Out := .next (whenOk s.barOn s (s.setFld Reg.bootCringCtrl 0 1 1).clampDrain)

/-- Have `delay` ticks passed since the first record that has not been signalled, with IRQ_EN set? -/
def State.irqDue (s : State) (r : RingRegs) (delay : Nat) : Bool :=
  s.fld r.ctrl 9 1 == 1 && (s.ring r).firstTick.elim false (fun t => decide (t + delay ≤ s.pitch))

/-- Signals the records of a ring. -/
def State.signalRing (s : State) (r : RingRegs) : State :=
  (s.setRing r { s.ring r with unsignalled := 0, firstTick := none }).msix r.vector

/-- EVENT_IRQ_DELAY (R466). -/
def execEventIrqDelay (s : State) : Out :=
  .next (whenOk (s.barOn && s.irqDue evtRing (s.fld Reg.evtIrqDelay 0 16)) s (s.signalRing evtRing))

/-- CLAMP_IRQ_DELAY (R490). -/
def execClampIrqDelay (s : State) : Out :=
  .next (whenOk (s.barOn && s.irqDue clampRing 100) s (s.signalRing clampRing))

end Sys2Proof.Machine
end

