-- ==== Sys2Proof/Machine/Link.lean ====
section
/-! DEFINITION. The host link, the configuration space, IDE streams and the DOE mailbox with its SPDM responder (R441 to R453, R483 to R485). -/

namespace Sys2Proof.Machine

/-! ### The link (R442, R447, R451) -/

/-- Is a link below x16 or below 64 GT/s? -/
def HostSt.degraded (h : HostSt) : Bool := h.width < 16 || h.rate < 6

/-- Reports HOST_LINK_DEGRADED for a link that is (R442, Table 15-9). -/
def State.linkNote (s : State) : State :=
  if s.host.degraded then
    s.report 0x0801 unitMgmt (s.host.width + 2 ^ 5 * s.host.rate + 2 ^ 8 * b2n s.host.cxl)
  else s

/-- HOST_LINK_TRAINED (R442, Table 15-1): 16 or 8 lanes at 64 GT/s (6) or 32 GT/s (5); no other width or rate is
supported. The link trains in every stage. -/
def execHostLinkTrained (width rate : Nat) (cxl : Bool) (s : State) : Out :=
  .next (whenOk (s.alive && (width == 16 || width == 8) && (rate == 6 || rate == 5)) s
    ({ s with host := { s.host with width := width, rate := rate, cxl := cxl } }).linkNote)

/-- SNOOP (R447): the T20 never holds a host line; an insecure CXL.cachemem stream carries none (R452). -/
def execSnoop (_addr : Nat) (s : State) : Out :=
  .next (whenOk (s.alive && s.host.cxl && !s.insecure 256) s (s.emit (.linkResp 0)))

/-- UIO_REQUEST (R451). -/
def execUioRequest (_addr : Nat) (s : State) : Out := .next (whenOk s.alive s (s.toHost (.linkResp 1)))

/-! ### IDE streams (R452) -/

/-- The key of a stream in the state: CXL.cachemem 256, the CXL.io link stream 0, selective streams 1 to 8. -/
def ideKey (stream : Nat) (cm : Bool) : Option Nat := if cm then some 256 else if stream ≤ 8 then some stream else none

/-- An IDE stream. -/
def State.ide (s : State) (k : Nat) : Ide := tabGet (fun _ => {}) s.host.ide k

/-- Stores an IDE stream. -/
def State.setIde (s : State) (k : Nat) (v : Ide) : State :=
  { s with host := { s.host with ide := tabSet (fun _ => {}) s.host.ide k v } }

/-- IDE_INTEGRITY_FAILURE (R452): the stream enters the insecure state and its traffic stops. -/
def execIdeIntegrityFailure (stream : Nat) (cm : Bool) (s : State) : Out :=
  .next (match ideKey stream cm with
    | none => s
    | some k =>
      whenOk (s.alive && (s.ide k).active) s
        ((s.setIde k { s.ide k with active := false, insecure := true }).report 0x0805 unitMgmt
          ((if cm then 0 else stream) + 2 ^ 8 * b2n cm)))

/-! ### DOE (R453) -/

/-- Bytes of an object that does not change: the certificate chain 0, and the values in the CDAT entries (DESIGN CHOICE, log
entry 8). -/
def fixedObject (i : Nat) : List Byte := (List.range (Config.standardLen (2 * i))).map (Config.standardByte (2 * i))

/-- Fresh bytes that a standard defines: framing, nonces, keys, signatures (DESIGN CHOICE, log entry 8). They are few enough
for an answer to fit the 1,024 dwords of the mailbox (R453). -/
def State.stdBytes (s : State) : List Byte × State :=
  let k := 2 * s.free + 1
  ((List.range (Config.standardLen k % 256)).map (Config.standardByte k), { s with free := s.free + 1 })

/-- Answers a request over DOE with the framing of its standard around what the manual gives. -/
def State.doeReply (s : State) (body : List Byte) : State :=
  let a := s.stdBytes
  let b := a.2.stdBytes
  b.2.emit (.reply (a.1 ++ body ++ b.1))

/-- A request over DOE, which is served in every stage after the ROM (R474, R476). -/
def doeServe (s t : State) : Out := .next (whenOk s.barOn s t)

/-- The protocols of the mailbox in the order of discovery, as vendor and type: DOE discovery, CMA/SPDM, secured CMA/SPDM and
CXL table access (R453; the numbers PRESUMED, log entry 63). -/
def doeProtocols : List (Nat × Nat) := [(0x0001, 0), (0x0001, 1), (0x0001, 2), (0x1E98, 2)]

/-- The entry of DOE discovery at an index: vendor, type and the next index, 0 after the last; 0xFFFF beyond it. -/
def doeEntry (index : Nat) : List Byte :=
  match doeProtocols[index]? with
  | some p => leBytes 2 p.1 ++ leBytes 1 p.2 ++ leBytes 1 ((index + 1) % 4)
  | none => [0xFF, 0xFF, 0, 0]

/-- DOE_DISCOVERY (R453). -/
def execDoeDiscovery (index : Nat) (s : State) : Out := doeServe s (s.doeReply (doeEntry index))

/-- A byte of the latency and bandwidth values, which the manual does not give (DESIGN CHOICE, log entry 8). -/
def cdatBytes (i n : Nat) : List Byte := (List.range n).map (Config.standardByte (2 * i))

/-- The entries of the CDAT (R453): one DSMAS entry for the HDM range of 64 GiB, and DSLBIS entries for read latency (1), write
latency (2), read bandwidth (4) and write bandwidth (5); their layout PRESUMED, log entry 63. -/
def cdatEntry (index : Nat) : List Byte :=
  let lb := fun kind : Nat => [1, 0, 24, 0, 0, 0, BitVec.ofNat 8 kind, 0] ++ cdatBytes (2 * kind + 1) 10 ++ leBytes 6 0
  match index with
  | 0 => [0, 0, 24, 0, 0, 0, 0, 0] ++ leBytes 8 0 ++ leBytes 8 (64 * 2 ^ 30)
  | 1 => lb 1
  | 2 => lb 2
  | 3 => lb 4
  | 4 => lb 5
  | _ => []

/-- CXL_TABLE_ACCESS (R453): an entry of the CDAT. -/
def execCxlTableAccess (index : Nat) (s : State) : Out := doeServe s (s.doeReply (cdatEntry index))

/-! ### SPDM without a session (R483) -/

/-- An answer that holds nothing beyond what SPDM defines: a response, or an error for what is not supported. -/
def spdmReply (s : State) : Out := doeServe s (s.doeReply [])

/-- GET_VERSION. -/
def execGetVersion (s : State) : Out := spdmReply s

/-- GET_CAPABILITIES. -/
def execGetCapabilities (s : State) : Out := spdmReply s

/-- NEGOTIATE_ALGORITHMS: a selection, or an error where no algorithm of Table 16-3 is offered. -/
def execNegotiateAlgorithms (_asym _hash : Bool) (s : State) : Out := spdmReply s

/-- GET_DIGESTS: the digest of the chain of slot 0. -/
def execGetDigests (s : State) : Out := spdmReply s

/-- GET_CERTIFICATE: a part of the chain of slot 0, no longer than the mailbox has room for (R453; DESIGN CHOICE, log entry
8); slots 1 to 7 are empty, and answered with an error. -/
def execGetCertificate (slot off len : Nat) (s : State) : Out :=
  if slot = 0 then doeServe s (s.doeReply (((fixedObject 0).drop off).take (min len 3584))) else spdmReply s

/-- CHALLENGE: signed with the device key for slot 0, an error for the empty slots. -/
def execChallenge (_slot _nonce : Nat) (s : State) : Out := spdmReply s

/-- The free bytes of a measurement that the manual does not fix: 64 from an index on (DESIGN CHOICE, log entry 8). -/
def State.fuseBytes (s : State) (i : Nat) : List Byte :=
  (List.range 64).map (fun k => Config.freeByte (s.boot.fuseBase + 64 * i + k))

/-- The content of a measurement block (Table 16-4). -/
def State.measurement (s : State) (index : Nat) : List Byte :=
  let b := s.boot
  match index with
  | 1 => leBytes 64 b.romDigest
  | 2 => leBytes 64 (b.fw.elim 0 (·.payloadDigest))
  | 3 => leBytes 64 (b.uc.elim 0 (·.payloadDigest))
  | 4 => b.fw.elim (s.fuseBytes 1) (fun i => leBytes 64 i.manifestDigest)
  | 5 => b.uc.elim (s.fuseBytes 2) (fun i => leBytes 64 i.manifestDigest)
  | 6 => s.fuseBytes 0
  | 7 => b.measured.flatMap (fun w => leBytes 4 w.toNat)
  | _ => []

/-- Appends the block of a measurement to an answer: its standard header, and its content. -/
def addBlock (r : List Byte × State) (index : Nat) : List Byte × State :=
  let h := r.2.stdBytes
  (r.1 ++ h.1 ++ h.2.measurement index, h.2)

/-- The blocks that a GET_MEASUREMENTS asks for: none for the count, all for 255. -/
def measBlocks (index : Nat) : List Nat :=
  if index = 255 then [1, 2, 3, 4, 5, 6, 7] else if 1 ≤ index ∧ index ≤ 7 then [index] else []

/-- GET_MEASUREMENTS (R484): in a session only with a signature (Table 16-3). -/
def execGetMeasurements (index : Nat) (signed session : Bool) (s : State) : Out :=
  if session && (!signed || !s.up) then spdmReply s
  else
    let r := (measBlocks index).foldl addBlock ([], s)
    doeServe s (r.2.doeReply r.1)

/-! ### Sessions (R483) -/

/-- Has a session been established? -/
def State.inSession (s : State) (n : Nat) : Bool := s.boot.sessions.contains (n, true)

/-- Replaces the sessions. -/
def State.setSessions (s : State) (l : List (Nat × Bool)) : State := { s with boot := { s.boot with sessions := l } }

/-- KEY_EXCHANGE: begins a session, at most two at once and in RUNNING only. -/
def execKeyExchange (slot : Nat) (s : State) : Out :=
  if s.up ∧ slot = 0 ∧ s.boot.sessions.length < 2 then
    let s1 := s.setSessions (s.boot.sessions ++ [(s.boot.nextSession, false)])
    doeServe s (({ s1 with boot := { s1.boot with nextSession := s.boot.nextSession + 1 } }).doeReply [])
  else spdmReply s

/-- FINISH: establishes the session, or ends it where the host's proof does not hold. -/
def execFinish (session : Nat) (ok : Bool) (s : State) : Out :=
  if s.up ∧ s.boot.sessions.contains (session, false) then
    let l := if ok then s.boot.sessions.map (fun x => if x.1 = session then (session, true) else x)
      else s.boot.sessions.filter (fun x => x.1 != session)
    doeServe s ((s.setSessions l).doeReply [])
  else spdmReply s

/-- HEARTBEAT: answered, or an error without the session. -/
def execHeartbeat (_session : Nat) (s : State) : Out := spdmReply s

/-- KEY_UPDATE: answered, or an error without the session; the keys are the standard's. -/
def execKeyUpdate (_session : Nat) (s : State) : Out := spdmReply s

/-- END_SESSION: keys programmed in it stay in force (R485). -/
def execEndSession (session : Nat) (s : State) : Out :=
  if s.up ∧ s.inSession session then
    doeServe s ((s.setSessions (s.boot.sessions.filter (fun x => x.1 != session))).doeReply [])
  else spdmReply s

/-! ### IDE_KM in a session (R485) -/

/-- An IDE_KM request on a stream, in an established session; any other is answered with an error. -/
def ideKm (session stream : Nat) (cm : Bool) (s : State) (act : Ide → Ide) : Out :=
  match ideKey stream cm with
  | none => spdmReply s
  | some k =>
    if s.up ∧ s.inSession session then doeServe s (((s.setIde k (act (s.ide k))).doeReply []).releaseHost) else spdmReply s

/-- QUERY. -/
def execQuery (_session : Nat) (s : State) : Out := spdmReply s

/-- KEY_PROG: new keys end the insecure state, and what has waited for the stream leaves (R452). -/
def execKeyProg (session stream : Nat) (cm : Bool) (s : State) : Out :=
  ideKm session stream cm s (fun i => { i with keys := true, insecure := false })

/-- K_SET_GO: the stream goes into use with its keys. -/
def execKSetGo (session stream : Nat) (cm : Bool) (s : State) : Out :=
  ideKm session stream cm s (fun i => { i with active := i.keys })

/-- K_SET_STOP. -/
def execKSetStop (session stream : Nat) (cm : Bool) (s : State) : Out :=
  ideKm session stream cm s (fun i => { i with active := false })

end Sys2Proof.Machine
end

