-- ==== Sys2Proof/Machine/Fun.lean ====
section
/-! DEFINITION. The functions of the vector function unit (R172, R179), as enclosures of the exact value: fixed-point
numbers of `fixBits` fraction bits with an error bound, or a value that every rounding treats as the exact one.
DEDUCED, log entry 9 says how the exact value is decided. -/

namespace Sys2Proof.Machine

/-- An enclosure of an exact value: the value lies between `lo` and `hi`, both finite, or both are the value. -/
structure Encl where
  lo : Val
  hi : Val
  deriving DecidableEq, Repr

/-- The enclosure of an exactly known value. -/
def exactEncl (v : Val) : Encl := ⟨v, v⟩

/-- Fraction bits of the fixed-point work. -/
def fixBits : Nat := 2304

/-- 1.0 in fixed point. -/
def fixOne : Nat := 2 ^ fixBits

/-- A bound, in units of the last fixed-point bit, far above the truncations of any evaluation here. -/
def fixErr : Nat := 2 ^ 64

/-- A rational in fixed point, rounded down. -/
def fixOf (m : Frac) : Nat := m.num * fixOne / m.den

/-- The integer square root, by Newton's iteration from above. -/
def isqrtLoop : Nat → Nat → Nat → Nat
  | 0, _, x => x
  | f + 1, n, x =>
    let y := (x + n / x) / 2
    if y < x then isqrtLoop f n y else x

/-- `floor(sqrt n)`. -/
def isqrt (n : Nat) : Nat := if n = 0 then 0 else isqrtLoop (Nat.log2 n + 8) n (2 ^ (Nat.log2 n / 2 + 1))

/-- The sum of `r^n ÷ n!` from term `n` on, all in fixed point. -/
def expSeries : Nat → Nat → Nat → Nat → Nat
  | 0, _, _, _ => 0
  | f + 1, r, n, t => if t = 0 then 0 else t + expSeries f r (n + 1) (t * r / fixOne / (n + 1))

/-- The sum of `t^(2n+1) ÷ (2n+1)` for `t = a ÷ b` below 1, in fixed point: `atanh t`. -/
def atanhSeries : Nat → Nat → Nat → Nat → Nat → Nat
  | 0, _, _, _, _ => 0
  | f + 1, a2, b2, n, p => if p = 0 then 0 else p / (2 * n + 1) + atanhSeries f a2 b2 (n + 1) (p * a2 / b2)

/-- `atanh (a ÷ b)` in fixed point, rounded down but for `fixErr`. -/
def fixAtanh (a b : Nat) : Nat := atanhSeries 3000 (a * a) (b * b) 0 (a * fixOne / b)

/-- `ln 2` in fixed point. -/
def fixLn2 : Nat := 2 * fixAtanh 1 3

/-- The alternating arctangent series of `1 ÷ q`, in fixed point. -/
def atanSeries : Nat → Nat → Nat → Nat → Int
  | 0, _, _, _ => 0
  | f + 1, q2, n, p =>
    if p = 0 then 0 else signedNum (n % 2 == 1) (p / (2 * n + 1)) + atanSeries f q2 (n + 1) (p / q2)

/-- π in fixed point (Machin). -/
def fixPi : Nat := (16 * atanSeries 1200 25 0 (fixOne / 5) - 4 * atanSeries 600 57121 0 (fixOne / 239)).toNat

/-- A fixed-point interval. -/
abbrev FixI := Int × Int

/-- The enclosure of `e^x` for a signed fixed-point `x`. -/
def expFix (x : Int) : FixI :=
  let l : Int := fixLn2
  let k := x / l
  let r := (x - k * l).toNat
  let m := expSeries 1500 r 0 fixOne
  let lo : Int := (m : Int) - fixErr
  let hi : Int := (m : Int) + fixErr
  if 0 ≤ k then (lo * 2 ^ k.toNat, hi * 2 ^ k.toNat) else (lo / 2 ^ (-k).toNat, hi / 2 ^ (-k).toNat + 1)

/-- Sum of fixed-point intervals. -/
def fixAdd (a b : FixI) : FixI := (a.1 + b.1, a.2 + b.2)

/-- Difference of fixed-point intervals. -/
def fixSub (a b : FixI) : FixI := (a.1 - b.2, a.2 - b.1)

/-- Product of fixed-point intervals. -/
def fixMul (a b : FixI) : FixI :=
  let p := a.1 * b.1
  let q := a.1 * b.2
  let r := a.2 * b.1
  let s := a.2 * b.2
  let o : Int := fixOne
  (min (min p q) (min r s) / o, max (max p q) (max r s) / o + 1)

/-- Quotient of fixed-point intervals with a positive divisor. -/
def fixDiv (a b : FixI) : FixI :=
  let o : Int := fixOne
  (min (a.1 * o / b.1) (a.1 * o / b.2), max (a.2 * o / b.1) (a.2 * o / b.2) + 1)

/-- 1.0 as an interval. -/
def fixUnit : FixI := ((fixOne : Int), (fixOne : Int))

/-- A signed finite value in fixed point, with its truncation. -/
def fixVal (neg : Bool) (m : Frac) : FixI :=
  let n : Int := fixOf m
  if neg then (-n - 1, -n) else (n, n + 1)

/-- An exact value from one end of a fixed-point interval. -/
def fixEnd (x : Int) : Val := .fin (decide (x < 0)) ⟨x.natAbs, fixOne⟩

/-- The enclosure of an interval. -/
def fixEncl (i : FixI) : Encl := ⟨fixEnd i.1, fixEnd i.2⟩

/-- The logarithm of a positive rational, as an interval. -/
def logFix (m : Frac) : FixI :=
  let e := floorLog2 m
  let x := mulPow2 m (-e)
  let t : Int := 2 * fixAtanh (x.num - x.den) (x.num + x.den) + e * fixLn2
  (t - 1024 * fixErr, t + 1024 * fixErr)

/-- `e^(−|x|)` of a magnitude, as an interval. -/
def expNegFix (m : Frac) : FixI :=
  let a := expFix (-(fixOf m : Int) - 1)
  let b := expFix (-(fixOf m : Int))
  (a.1, b.2)

/-- σ(x) as an interval. -/
def sigmoidFix (neg : Bool) (m : Frac) : FixI :=
  let e := expNegFix m
  let d := fixAdd fixUnit e
  if neg then fixDiv e d else fixDiv fixUnit d

/-- The normal density at a magnitude, as an interval. -/
def phiFix (m : Frac) : FixI :=
  let e := expNegFix (mulPow2 (mulFrac m m) (-1))
  let s : Int := isqrt (2 * fixPi * fixOne)
  fixDiv e (s - fixErr, s + fixErr)

/-- The series `Σ x^(2n+1) ÷ (1·3···(2n+1))` in fixed point. -/
def erfSeries : Nat → Nat → Nat → Nat → Nat
  | 0, _, _, _ => 0
  | f + 1, x2, n, t => if t = 0 then 0 else t + erfSeries f x2 (n + 1) (t * x2 / fixOne / (2 * n + 3))

/-- Φ(x) as an interval, for magnitudes below 32: there the error of `phiFix` times the series lies far below Φ(x). -/
def cdfFix (neg : Bool) (m : Frac) : FixI :=
  let s := erfSeries 5000 (fixOf (mulFrac m m)) 0 (fixOf m)
  let i : FixI := ((s : Int), (s : Int) + (s / 2 ^ 2000 : Nat) + fixErr)
  let p := fixMul (phiFix m) i
  let h : FixI := ((fixOne / 2 : Nat), (fixOne / 2 : Nat))
  if neg then fixSub h p else fixAdd h p

/-- A magnitude just above (`up`) or just below `m`, nearer to it than any rounding boundary but `m` itself. -/
def nudge (up : Bool) (m : Frac) : Frac :=
  if up then ⟨m.num * (2 ^ 400 + 1), 2 ^ 400 * m.den⟩ else ⟨m.num * (2 ^ 400 - 1), 2 ^ 400 * m.den⟩

/-- A positive magnitude below every rounding boundary of every format. -/
def tiny : Frac := ⟨1, 2 ^ 1000⟩

/-- A magnitude beyond every format. -/
def huge : Frac := ⟨2 ^ 1000, 1⟩

/-- Is a magnitude below `2^−200`? -/
def isTiny (m : Frac) : Bool := ltFrac m ⟨1, 2 ^ 200⟩

/-- Is a magnitude at or above `n`? -/
def atLeast (n : Nat) (m : Frac) : Bool := leFrac (natFrac n) m

/-- An exact enclosure from a sign and magnitude. -/
def encl (neg : Bool) (m : Frac) : Encl := exactEncl (.fin neg m)

/-- EXPF (R172, Table 6-6). -/
def fnExp : Val → Encl
  | .nan => exactEncl .nan
  | .ovf n => if n then exactEncl valZero else exactEncl (.ovf false)
  | .fin neg m =>
    if m.num = 0 then exactEncl valOne
    else if isTiny m then encl false (nudge (!neg) ⟨1, 1⟩)
    else if atLeast 400 m then encl false (if neg then tiny else huge)
    else
      let x := fixVal neg m
      fixEncl ((expFix x.1).1, (expFix x.2).2)

/-- LOGF. -/
def fnLog : Val → Encl
  | .nan => exactEncl .nan
  | .ovf n => if n then exactEncl .nan else exactEncl (.ovf false)
  | .fin neg m =>
    if m.num = 0 then exactEncl (.ovf true)
    else if neg then exactEncl .nan
    else if m.num = m.den then exactEncl valZero
    else fixEncl (logFix m)

/-- RCP: the exact reciprocal. -/
def fnRcp : Val → Encl
  | .nan => exactEncl .nan
  | .ovf n => encl n ⟨0, 1⟩
  | .fin neg m => if m.num = 0 then exactEncl (.ovf neg) else encl neg ⟨m.den, m.num⟩

/-- The square root of a rational: exact where it is rational, else a value in the same rounding cell. -/
def sqrtFrac (m : Frac) : Frac :=
  let n := m.num * 4 ^ 700 / m.den
  let s := isqrt n
  if s * s * m.den = m.num * 4 ^ 700 then ⟨s, 2 ^ 700⟩ else ⟨2 * s + 1, 2 ^ 701⟩

/-- SQRT. -/
def fnSqrt : Val → Encl
  | .nan => exactEncl .nan
  | .ovf n => if n then exactEncl .nan else exactEncl (.ovf false)
  | .fin neg m =>
    if m.num = 0 then encl neg ⟨0, 1⟩ else if neg then exactEncl .nan else encl false (sqrtFrac m)

/-- RSQRT. -/
def fnRsqrt : Val → Encl
  | .nan => exactEncl .nan
  | .ovf n => if n then exactEncl .nan else exactEncl valZero
  | .fin neg m =>
    if m.num = 0 then exactEncl (.ovf neg) else if neg then exactEncl .nan else encl false (sqrtFrac ⟨m.den, m.num⟩)

/-- SIGMOID. -/
def fnSigmoid : Val → Encl
  | .nan => exactEncl .nan
  | .ovf n => if n then exactEncl valZero else exactEncl valOne
  | .fin neg m =>
    if m.num = 0 then encl false ⟨1, 2⟩
    else if isTiny m then encl false (nudge (!neg) ⟨1, 2⟩)
    else if atLeast 400 m then encl false (if neg then tiny else nudge false ⟨1, 1⟩)
    else fixEncl (sigmoidFix neg m)

/-- TANH. -/
def fnTanh : Val → Encl
  | .nan => exactEncl .nan
  | .ovf n => encl n ⟨1, 1⟩
  | .fin neg m =>
    if m.num = 0 then encl neg ⟨0, 1⟩
    else if isTiny m then encl neg (nudge false m)
    else if atLeast 400 m then encl neg (nudge false ⟨1, 1⟩)
    else
      let e := expNegFix (mulPow2 m 1)
      let t := fixDiv (fixSub fixUnit e) (fixAdd fixUnit e)
      fixEncl (if neg then (-t.2, -t.1) else t)

/-- The rational at one end of a positive fixed-point interval. -/
def fixFrac (x : Int) : Frac := ⟨x.toNat, fixOne⟩

/-- SOFTPLUS: `ln(1 + e^x)`. -/
def fnSoftplus : Val → Encl
  | .nan => exactEncl .nan
  | .ovf n => if n then exactEncl valZero else exactEncl (.ovf false)
  | .fin neg m =>
    if atLeast 400 m then encl false (if neg then tiny else nudge true m)
    else
      let e := expNegFix m
      let lo := (logFix (addFrac ⟨1, 1⟩ (fixFrac e.1))).1
      let hi := (logFix (addFrac ⟨1, 1⟩ (fixFrac e.2))).2
      let x : FixI := if neg then (0, 0) else ((fixOf m : Int), (fixOf m : Int) + 1)
      fixEncl (fixAdd x (lo, hi))

/-- GELU: `x × Φ(x)`. From magnitude 32 on, `|x| × Φ(−|x|)` lies below `2^−700`, below every rounding boundary. -/
def fnGelu : Val → Encl
  | .nan => exactEncl .nan
  | .ovf n => if n then encl true ⟨0, 1⟩ else exactEncl (.ovf false)
  | .fin neg m =>
    if m.num = 0 then encl neg ⟨0, 1⟩
    else if isTiny m then encl neg (nudge (!neg) (mulPow2 m (-1)))
    else if atLeast 32 m then (if neg then encl true tiny else encl false (nudge false m))
    else fixEncl (fixMul (fixVal neg m) (cdfFix neg m))

/-- SILU: `x × σ(x)`. -/
def fnSilu : Val → Encl
  | .nan => exactEncl .nan
  | .ovf n => if n then encl true ⟨0, 1⟩ else exactEncl (.ovf false)
  | .fin neg m =>
    if m.num = 0 then encl neg ⟨0, 1⟩
    else if isTiny m then encl neg (nudge (!neg) (mulPow2 m (-1)))
    else if atLeast 400 m then (if neg then encl true tiny else encl false (nudge false m))
    else fixEncl (fixMul (fixVal neg m) (sigmoidFix neg m))

/-- The derivative `1 − e^(−y)` of D.SOFTPLUS at a finite `y` (Table 6-7). -/
def gSoftplus (neg : Bool) (m : Frac) : Encl :=
  if m.num = 0 then exactEncl valZero
  else if isTiny m then encl neg (nudge neg m)
  else if atLeast 400 m then encl neg (if neg then huge else nudge false ⟨1, 1⟩)
  else
    let x := fixVal (!neg) m
    fixEncl (fixSub fixUnit ((expFix x.1).1, (expFix x.2).2))

/-- The derivative `Φ(x) + x × φ(x)` of D.GELU at a finite `x`. -/
def gGelu (neg : Bool) (m : Frac) : Encl :=
  if m.num = 0 then encl false ⟨1, 2⟩
  else if isTiny m then encl false (nudge (!neg) ⟨1, 2⟩)
  else if atLeast 32 m then (if neg then encl true tiny else encl false (nudge true ⟨1, 1⟩))
  else fixEncl (fixAdd (cdfFix neg m) (fixMul (fixVal neg m) (phiFix m)))

/-- The derivative `σ(x) × (1 + x × (1 − σ(x)))` of D.SILU at a finite `x`. -/
def gSilu (neg : Bool) (m : Frac) : Encl :=
  if m.num = 0 then encl false ⟨1, 2⟩
  else if isTiny m then encl false (nudge (!neg) ⟨1, 2⟩)
  else if atLeast 800 m then (if neg then encl true tiny else encl false (nudge true ⟨1, 1⟩))
  else
    let s := sigmoidFix neg m
    fixEncl (fixMul s (fixAdd fixUnit (fixMul (fixVal neg m) (sigmoidFix (!neg) m))))

/-- The enclosure of `b × g` for a finite derivative enclosure, specials by Table 4-4 (R179). -/
def mulEncl (b : Val) (g : Encl) : Encl :=
  let p := mulVal b g.lo
  let q := mulVal b g.hi
  if negOf b then ⟨q, p⟩ else ⟨p, q⟩

end Sys2Proof.Machine
end

