-- ==== Sys2Proof/Machine/MxOps.lean ====
section
/-! DEFINITION. The matrix engine: operand words, tiles as operands, the checks of Table 5-7, execution of the queue and
drains (R130 to R156, R190 to R193). -/

namespace Sys2Proof.Machine

/-! ### Operand words (R134 to R136) -/

/-- An operand word (Table 5-2). -/
structure OpWord where
  fmt : Nat
  hdr : Bool
  order : Bool
  widen : Bool
  ext : Nat
  kt : Nat
  pitch : Nat
  spitch : Nat
  deriving DecidableEq, Repr

/-- The fields of an operand word. -/
def opWord (w : W64) : OpWord :=
  let v := w.toNat
  { fmt := field v 3 0, hdr := v.testBit 4, order := v.testBit 5, widen := v.testBit 6, ext := field v 15 8,
    kt := field v 23 16, pitch := field v 39 24, spitch := field v 55 40 }

/-- Stored rows of an operand, and elements of a stored row (Table 5-3). -/
def OpWord.rows (o : OpWord) : Nat := if o.order then o.kt else o.ext
/-- Elements of a stored row. -/
def OpWord.inner (o : OpWord) : Nat := if o.order then o.ext else o.kt

/-- Bytes from one stored row of an operand without a header to the next (R135). -/
def OpWord.stride (o : OpWord) : Nat := if o.pitch = 0 then o.inner * fmtBytes o.fmt else 64 * o.pitch
/-- Bytes from one row of its scale plane to the next. R136 forbids the program a stored row whose inner extent is not a
multiple of 32; with SPITCH 0 the scales of such a row are taken as those of its blocks, the last one short (DESIGN CHOICE,
log entry 58). -/
def OpWord.sstride (o : OpWord) : Nat := if o.spitch = 0 then ceilDiv o.inner 32 else o.spitch

/-- Bytes that an operand without a header spans. -/
def OpWord.span (o : OpWord) : Nat := (o.rows - 1) * o.stride + o.inner * fmtBytes o.fmt
/-- Bytes that its scale plane spans. -/
def OpWord.sspan (o : OpWord) : Nat := (o.rows - 1) * o.sstride + ceilDiv o.inner 32

/-- The k-control word (Table 5-5). -/
structure KWord where
  k0 : Nat
  koff : Nat
  kc : Nat
  last : Bool
  deriving DecidableEq, Repr

/-- The fields of a k-control word. -/
def kWord (w : W64) : KWord :=
  let v := w.toNat
  { k0 := field v 31 0, koff := field v 39 32, kc := field v 47 40, last := v.testBit 48 }

/-! ### Elements of operands -/

/-- One stored element as an operand delivers it: format, code, the integer it stands for (Table 4-2; none for an A8 NaN),
the scale of its block, the mitten in its place. -/
structure Elem where
  fmt : Nat
  code : Nat := 0
  int : Option Int := none
  scale : Nat := 0x80
  mit : Option Nat := none
  deriving DecidableEq, Repr

/-- The exact H16 value of an element as the read path decodes it (R131, R132): a mitten's value replaces it. -/
def Elem.val (e : Elem) : Val :=
  match e.mit with
  | some m => decH16 m
  | none =>
    if e.fmt = 4 then decH16 e.code
    else if e.fmt = 3 then decA8 e.code e.scale
    else decScaledInt (e.int.getD 0) (if e.fmt = 0 then 0 else if e.fmt = 1 then -2 else -4) e.scale

/-- An A8 element. -/
def elemA8 (code scale : Nat) : Elem :=
  { fmt := 3, code := code, int := if code = 0x80 then none else some (a8Int code), scale := scale }

/-- A byte of scratchpad as a number. -/
def State.spadByte (s : State) (a : Nat) : Nat := (memByte s.spad a).toNat

/-- Element (row, i) of an operand without a header: formats A8 and H16 (R135). -/
def State.plainElem (s : State) (o : OpWord) (a sa row i : Nat) : Elem :=
  if o.fmt = 3 then elemA8 (s.spadByte (a + row * o.stride + i)) (s.spadByte (sa + row * o.sstride + i / 32))
  else { fmt := 4, code := s.spadNat (a + row * o.stride + 2 * i) 2 }

/-! ### Tiles with headers (R137, R190 to R193, R340) -/

/-- Elements of a tile. -/
def hdrCount (h : Hdr) : Nat := h.dim0.toNat * h.dim1.toNat

/-- Bytes of one code plane of a tile, rounded up to 64 (Table 7-1). -/
def planeBytes (f p : Nat) : Nat := up64 (if f = 0 then ceilDiv p 5 else ceilDiv p 4)

/-- Where the code planes of a tile end; for A8 and wider, its elements. -/
def codesEnd (f p : Nat) : Nat :=
  if f = 0 ∨ f = 1 then 64 + planeBytes f p else if f = 2 then 64 + 2 * planeBytes f p else 64 + p * fmtBytes f

/-- Does a format carry block scales (R340)? -/
def fmtBlocked (f : Nat) : Bool := f ≤ 3

/-- A format the matrix engine takes as a tile (R138). -/
def fmtEngine (f : Nat) : Bool := f ≤ 4

/-- Scales of a stored row of a tile. -/
def hdrRowScales (h : Hdr) : Nat := ceilDiv h.dim0.toNat 32

/-- Offset of the mitten table of a tile. -/
def mittenOff (h : Hdr) : Nat := 64 * h.scaleLoc.toNat + up64 (ceilDiv (hdrCount h) 32)

/-- Where the sections end that a tile's header places: the scale plane, or the mitten table, each rounded up to a multiple of
64 (Table 7-1); the scale plane of an A8 tile is as long as it has scales (DEDUCED, log entry 24). -/
def sectionsEnd (h : Hdr) : Nat :=
  if 3 ≤ h.fmt.toNat then 64 * h.scaleLoc.toNat + h.dim1.toNat * hdrRowScales h
  else if h.mittens = 0 then mittenOff h
  else mittenOff h + up64 (4 * h.mittens.toNat)

/-- The bytes of scratchpad from an address to the end of its slice's addressable part (R288). -/
def spadRoom (a : Nat) : Nat := sliceBytes - a % 2 ^ 23

/-- A mitten table: positions and H16 values (R191). -/
def State.mittens (s : State) (a : Nat) (h : Hdr) : List (Nat × Nat) :=
  if h.fmt.toNat ≤ 2 then
    (List.range h.mittens.toNat).map (fun i =>
      (s.spadNat (a + mittenOff h + 4 * i) 2, s.spadNat (a + mittenOff h + 4 * i + 2) 2))
  else []

/-- A header fault that the header alone shows (R138, R193, R340; DEDUCED, log entry 24 for what an A8 or H16 tile spans). -/
def hdrFault (h : Hdr) (room : Nat) : Bool :=
  let f := h.fmt.toNat
  !fmtEngine f || h.blk.toNat != b2n (fmtBlocked f) || 64 < h.mittens.toNat
    || (f ≤ 3 && 64 * h.scaleLoc.toNat < codesEnd f (hdrCount h))
    || (f ≤ 3 && min room h.len.toNat < sectionsEnd h)
    || room < codesEnd f (hdrCount h)

/-- Are mitten positions strictly ascending and within the tile (R193)? -/
def mittensOk (p : Nat) (ms : List (Nat × Nat)) : Bool :=
  ascending (ms.map (·.1)) && ms.all (fun m => m.1 < p)

/-- Does a tile read at an address have a header fault, its shape apart? -/
def State.tileFault (s : State) (a : Nat) (h : Hdr) : Bool :=
  hdrFault h (spadRoom a) || !mittensOk (hdrCount h) (s.mittens a h)

/-- Element `i` of the sequence of a tile, its mitten apart; its block is `j` of its stored row `row` (R62, R190). -/
def State.tileElem (s : State) (a : Nat) (h : Hdr) (row i : Nat) : Elem :=
  let f := h.fmt.toNat
  let x := row * h.dim0.toNat + i
  let sc := s.spadByte (a + 64 * h.scaleLoc.toNat + row * hdrRowScales h + i / 32)
  let two := fun base : Nat => s.spadByte (base + x / 4) / 2 ^ (2 * (x % 4)) % 4
  if f = 0 then { fmt := 0, int := some (tritOf (s.spadByte (a + 64 + x / 5)) (x % 5)), scale := sc }
  else if f = 1 then { fmt := 1, int := some (q2Of (two (a + 64))), scale := sc }
  else if f = 2 then
    { fmt := 2, int := some (q4Of (two (a + 64)) (two (a + 64 + planeBytes f (hdrCount h)))), scale := sc }
  else if f = 3 then elemA8 (s.spadByte (a + 64 + x)) sc
  else { fmt := 4, code := s.spadNat (a + 64 + 2 * x) 2 }

/-- The same with its mitten. -/
def State.tileElemM (s : State) (a : Nat) (h : Hdr) (ms : List (Nat × Nat)) (row i : Nat) : Elem :=
  { s.tileElem a h row i with mit := (ms.find? (fun m => m.1 == row * h.dim0.toNat + i)).map (·.2) }

/-! ### The state that the queue will leave (R154) -/

/-- The tile that a start word makes (Table 5-4). -/
def startTile (h : Nat) (w : W64) (epoch : W32) : Tile :=
  let v := w.toNat
  { h := h, m := field v 6 0, n := field v 15 8, pass := field v 18 17, layer := field v 39 20, p := 0, epoch := epoch }

/-- The banks of a tile (R139); a null tile takes none (R142). -/
def Tile.banks (t : Tile) : List Nat :=
  if t.null then [] else (List.range (ceilDiv (t.m * t.n) 2048)).map (t.h + ·)

/-- The live tile on a handle. -/
def liveOn (ts : List Tile) (h : Nat) : Option Tile := ts.find? (fun t => t.h == h && t.phase == .live)

/-- The tile with MX.MUL's range added to its next index (R143). -/
def Tile.advance (t : Tile) (k : KWord) : Tile := { t with next := some (k.k0 + k.kc), closed := t.closed || k.last }

/-- What one queued instruction leaves of the live tiles; an MX.START leaves its tile alone on its handle, a null tile that
was live there with it gone (R142; DESIGN CHOICE, log entry 58). -/
def State.projStep (s : State) (ts : List Tile) : MxOp → List Tile
  | .start h w _ e =>
    let t := startTile h w e
    ts.filter (fun x => x.h != h) ++ [{ t with null := t.pass == 2 && (s.peekLayer t.layer).dwSkip }]
  | .mul h _ _ kc _ _ => ts.map (fun x => if x.h = h then x.advance (kWord kc) else x)
  | .fin h _ _ => ts.filter (fun x => x.h != h)

/-- The live tiles that the matrix queue of a cell will leave. -/
def State.project (s : State) (c : Nat) : List Tile :=
  (s.cell c).mxq.foldl s.projStep ((s.cell c).tiles.filter (fun t => t.phase == .live))

/-- P of CELL_DOT_CTRL.PROMO: 1, 2 or 4 blocks (R110). -/
def State.promo (s : State) (c : Nat) : Nat := 2 ^ min (s.fld (Reg.cellDotCtrl c) 0 2) 2

/-- Does a product run on the narrow path (R131), by the stationary format given? -/
def isNarrow (so st : OpWord) (sf : Nat) : Bool := so.fmt == 3 && !so.order && !st.order && !st.widen && sf ≤ 3

/-- Does the range of a k-control word fail the tests of R144 on its path? -/
def rangeBad (narrow : Bool) (p : Nat) (k : KWord) : Bool :=
  let u := if narrow then 32 * p else 16
  k.k0 % u != 0 || (!k.last && k.kc % u != 0)

/-! ### Checks (R154, R155, Table 5-7); DEDUCED, log entry 23 for their order -/

/-- MX_FMT. -/
def excMxFmt : Nat := 0x10
/-- MX_SHAPE. -/
def excMxShape : Nat := 0x11
/-- MX_KRANGE. -/
def excMxKrange : Nat := 0x12
/-- MX_BANK. -/
def excMxBank : Nat := 0x13
/-- MX_ADDR. -/
def excMxAddr : Nat := 0x14

/-- The first cause of a list of conditions with their causes. -/
def firstCause : List (Bool × Nat) → Option Nat
  | [] => none
  | (b, c) :: l => if b then some c else firstCause l

/-- A span of scratchpad is addressable; `own` asks that it lie in the cell's own slice. -/
def spanOk (c a n : Nat) (own : Bool) : Bool := spadIn a n && (!own || spadCell a == c)

/-- The same, starting at a multiple of 64. -/
def alignedOk (c a n : Nat) (own : Bool) : Bool := a % 64 == 0 && spanOk c a n own

/-- A word of a list of addresses. -/
def addrAt (l : List W32) (i : Nat) : Nat := (l.getD i 0).toNat

/-- Are the addresses of an operand valid: its elements or header, and its scale plane (R135, Table 5-7)? -/
def operandOk (c : Nat) (o : OpWord) (l : List W32) (own : Bool) : Bool :=
  if o.hdr then alignedOk c (addrAt l 0) 64 own
  else alignedOk c (addrAt l 0) o.span own && (o.fmt != 3 || (2 ≤ l.length && spanOk c (addrAt l 1) o.sspan own))

/-- The checks of MX.START: `early` those of LAUNCH.AT, `late` those at firing; both at issue. A null tile takes no banks
(R142), so MX.START replaces it; a null tile on a handle whose live tile is not null raises MX_BANK (DESIGN CHOICE, log entry
58). -/
def State.checkStart (s : State) (c : Nat) (early late : Bool) (h : Nat) (w : W64) (src : W32) : Option Nat :=
  let t0 := startTile h w 0
  let t := { t0 with null := t0.pass == 2 && (s.peekLayer t0.layer).dwSkip }
  let ts := s.project c
  firstCause
    [ (early && (t.m == 0 || 64 < t.m || t.n == 0 || 128 < t.n || t.pass == 3), excMxShape),
      (late && (if t.null then (match liveOn ts h with | some x => !x.null | none => false)
                else t.banks.any (fun b => 3 < b || ts.any (fun x => x.banks.contains b))), excMxBank),
      (early && w.getLsbD 16 && !alignedOk c src.toNat (4 * t.m * t.n) true, excMxAddr) ]

/-- The stationary format as the header stands, or as the operand word gives it. -/
def State.stationaryFmt (s : State) (o : OpWord) (ta : List W32) : Nat :=
  if o.hdr then (s.spadHdr (addrAt ta 0)).fmt.toNat else o.fmt

/-- The checks of MX.MUL. On a null tile the tests of R144 are not made, those of MX_FMT, MX_SHAPE and MX_ADDR are (R142;
DESIGN CHOICE, log entry 58). -/
def State.checkMul (s : State) (c : Nat) (early late : Bool) (h : Nat) (ws wt kc : W64) (sa ta : List W32) : Option Nat :=
  let so := opWord ws
  let st := opWord wt
  let k := kWord kc
  let t := liveOn (s.project c) h
  let p := match t with | some x => if x.p = 0 then s.promo c else x.p | none => 1
  firstCause
    [ (early && ((so.fmt != 3 && so.fmt != 4) || so.hdr || so.widen || (!st.hdr && st.fmt != 3 && st.fmt != 4)), excMxFmt),
      (early && (so.ext == 0 || 64 < so.ext || st.ext == 0 || 128 < st.ext || so.kt == 0 || 128 < so.kt || st.kt == 0
        || 128 < st.kt || k.kc == 0 || 128 < k.kc || so.kt < k.koff + k.kc || st.kt < k.koff + k.kc), excMxShape),
      (late && t.isNone, excMxBank),
      (early && (match t with | some x => so.ext != x.m || st.ext != x.n | none => false), excMxShape),
      (late && (match t with
        | some x => !x.null && (x.closed || (match x.next with | some n => n != k.k0 | none => false)
            || rangeBad (isNarrow so st (s.stationaryFmt st ta)) p k)
        | none => false), excMxKrange),
      (early && !(operandOk c so sa true && operandOk c st ta false), excMxAddr) ]

/-- The slice height of a cell's matrix engine (R149). -/
def State.cellSliceRows (s : State) (c : Nat) : Nat := 64 * 2 ^ min (s.fld (Reg.cellMxCtrl c) 0 2) 2

/-- The checks of MX.END: R155 leaves MX_BANK and MX_KRANGE to firing, and MX_SHAPE and MX_ADDR are tested at LAUNCH.AT on the
tile that is there then. A null tile need not have seen LAST (R142; DESIGN CHOICE, log entry 58). -/
def State.checkFin (s : State) (c : Nat) (early late : Bool) (h : Nat) (w : W64) (dst : W32) : Option Nat :=
  let v := w.toNat
  let dest := field v 1 0
  let t := liveOn (s.project c) h
  let sr := s.cellSliceRows c
  let row0 := field v 27 4
  firstCause
    [ (late && t.isNone, excMxBank),
      (early && dest == 2 && (match t with | some x => row0 / sr != (row0 + x.m - 1) / sr | none => false), excMxShape),
      (late && dest == 2 && (match t with | some x => !x.closed && !x.null | none => false), excMxKrange),
      (early && dest == 1 && !alignedOk c dst.toNat (match t with | some x => 4 * x.m * x.n + 8 | none => 8) true, excMxAddr) ]

/-- The checks of a matrix instruction. -/
def State.checkMx (s : State) (c : Nat) (early late : Bool) : MxOp → Option Nat
  | .start h w src _ => s.checkStart c early late h w src
  | .mul h ws wt kc sa ta => s.checkMul c early late h ws wt kc sa ta
  | .fin h w dst => s.checkFin c early late h w dst

/-! ### Execution -/

/-- Replaces a tile of a cell by handle and phase: the live one. -/
def State.putLive (s : State) (c : Nat) (t : Tile) : State :=
  let k := s.cell c
  s.setCell c { k with tiles := k.tiles.map (fun x => if x.h = t.h ∧ x.phase = .live then t else x) }

/-- Joins what an instruction sets in a tile's status word into CELL_NUM_STATUS (Table 4-8): a bit that the host has cleared
stays clear until a tile sets it again, though the tile's own word keeps it (R114, R128; DEDUCED, log entry 58). -/
def State.tileStatus (s : State) (c : Nat) (t : Tsw) : State :=
  let b := b2n t.nan + 2 * b2n t.ovf + 4 * b2n t.sat + 8 * b2n t.scaleinv
  if b = 0 then s else s.numStatus c b

/-- The effects of a header fault on the tile that an MX.MUL adds to (R138). -/
def State.headerFault (s : State) (c : Nat) (t : Tile) (k : KWord) (reserved : Option (Nat × Nat)) : State :=
  let own : Tsw := { nan := true, first := some k.k0 }
  let t1 := { t with elems := List.replicate (t.m * t.n) 0x7FE00000#32, tsw := joinTsw t.tsw own }
  let s1 := ((s.putLive c t1).tileStatus c own).bump (Reg.cellMxHdrfault c)
  match reserved with
  | some (code, layer) => s1.cellReserved c code layer (some t.epoch)
  | none => s1

/-- The effects of reading part of a plane of stored rows: `n` bytes from byte `lo` of each of rows `r0` on. -/
def State.touchRows (s : State) (a stride r0 rows lo n : Nat) : State :=
  if s.spadErr.isEmpty && s.spadCe.isEmpty then s
  else (List.range rows).foldl (fun t r => t.spadTouch (a + (r0 + r) * stride + lo) n) s

/-- The effects of reading the used part of an operand without a header. -/
def State.touchPlain (s : State) (o : OpWord) (a sa : Nat) (k : KWord) : State :=
  let es := fmtBytes o.fmt
  let r0 := if o.order then k.koff else 0
  let rows := if o.order then k.kc else o.ext
  let lo := if o.order then 0 else k.koff
  let n := if o.order then o.ext else k.kc
  let s1 := s.touchRows a o.stride r0 rows (lo * es) (n * es)
  if o.fmt = 3 then s1.touchRows sa o.sstride r0 rows (lo / 32) (ceilDiv (lo + n) 32 - lo / 32) else s1

/-- Where a wide product of a block with scale 0xFF is reported: the block's first index where blocks run along the
contraction, else the product's own (R114). The first index of a block that KOFF cuts lies before K0; one that would lie
before the contraction is 0 (DEDUCED, log entry 58). -/
def invIndex (along : Bool) (k : KWord) (pos : Nat) : Nat :=
  if along then k.k0 + pos / 32 * 32 - k.koff else k.k0 + (pos - k.koff)

/-- One wide product term at stored contraction position `pos`. -/
def wideTerm (so st : OpWord) (k : KWord) (pos : Nat) (x w : Elem) : PTerm :=
  let abs := k.k0 + (pos - k.koff)
  let xi := x.fmt != 4 && x.scale == 0xFF
  let wi := w.fmt != 4 && w.scale == 0xFF
  let v := mulVal x.val w.val
  let i := min (if xi then invIndex (!so.order) k pos else abs) (if wi then invIndex (!st.order) k pos else abs)
  ⟨v, if isNanVal v then i else abs, xi || wi⟩

/-- One block of a narrow product: absolute block `j` of the range. -/
def narrowBlock (k : KWord) (x w : Nat → Elem) (j : Nat) : NBlock :=
  let lo := k.koff + 32 * j
  let n := min 32 (k.koff + k.kc - lo)
  { sx := (x lo).scale, sw := (w lo).scale, k := k.k0 + 32 * j,
    pairs := (List.range n).map (fun i => { a := (x (lo + i)).code, w := (w (lo + i)).int, mit := (w (lo + i)).mit }) }

/-- The blocks of scale 0xFF that an operand delivers over the range: (stored row, block) pairs, each once. -/
def invBlocks (o : OpWord) (k : KWord) (el : Nat → Nat → Elem) : Nat :=
  let r0 := if o.order then k.koff else 0
  let rows := if o.order then k.kc else o.ext
  let lo := if o.order then 0 else k.koff
  let n := if o.order then o.ext else k.kc
  sumNat ((List.range rows).map (fun r =>
    (List.range (ceilDiv (lo + n) 32 - lo / 32)).countP (fun b =>
      let e := el (r0 + r) (max lo ((lo / 32 + b) * 32))
      e.fmt != 4 && e.scale == 0xFF)))

/-- Invalid TN bytes that an MX.MUL decodes (R69): bytes that hold an element at one of its positions. -/
def State.badTn (s : State) (a : Nat) (h : Hdr) (o : OpWord) (k : KWord) : Nat :=
  let r0 := if o.order then k.koff else 0
  let rows := if o.order then k.kc else o.ext
  let lo := if o.order then 0 else k.koff
  let n := if o.order then o.ext else k.kc
  let bytes := ((List.range rows).flatMap (fun r =>
    (List.range n).map (fun i => ((r0 + r) * h.dim0.toNat + lo + i) / 5))).dedup
  bytes.countP (fun b => 243 ≤ s.spadByte (a + 64 + b))

/-- Streaming cycles of an MX.MUL (R159, Table 5-9). -/
def mulCycles (narrow : Bool) (sf m n kc : Nat) (own : Bool) : Nat :=
  let kp := if narrow then 64 else 32
  let np := if narrow ∧ sf ≤ 1 then 64 else 32
  let lw :=
    if narrow then (if sf = 0 then (if own then 3 else 7) else if sf ≤ 2 then (if own then 3 else 8) else if own then 6 else 17)
    else if sf ≤ 1 then (if own then 1 else 2) else if sf = 2 then (if own then 2 else 4)
    else if sf = 3 then (if own then 3 else 9) else (if own then 6 else 16)
  ceilDiv kc kp * ceilDiv n np * max m lw

/-- Counts streaming cycles in CELL_MX_ACTIVE. -/
def State.mxActive (s : State) (c n : Nat) : State :=
  let k := s.cell c
  let t := k.mxCycles + n
  (s.setCell c { k with mxCycles := t % 1024 }).bumpBy (Reg.cellMxActive c) (t / 1024)

/-- The products of an MX.MUL on a tile (R98, R109): new elements and what they add to the status word, `inv` blocks of
scale 0xFF being decoded. The narrow path with KOFF not at a block boundary leaves the elements free, and so does an EXT that
no longer matches the tile (DESIGN CHOICE, log entry 25); the flags follow from the elements and the blocks decoded (R114). -/
def State.products (s : State) (t : Tile) (so st : OpWord) (k : KWord) (narrow : Bool) (sf inv : Nat)
    (x w : Nat → Nat → Elem) : List W32 × Tsw × Nat :=
  if (narrow ∧ k.koff % 32 ≠ 0) ∨ so.ext ≠ t.m ∨ st.ext ≠ t.n then
    let es := (List.range (t.m * t.n)).map (fun i => Config.freeW32 (s.free + i))
    let nan := 0 < inv || es.any (fun e => isNanVal (decW32 e))
    (es, { nan := nan, ovf := es.any (fun e => isOvfVal (decW32 e)), scaleinv := 0 < inv,
           first := if nan || Config.freeBool s.free then some (Config.freeNat s.free % 2 ^ 32) else none }, t.m * t.n + 1)
  else
    let one := fun i : Nat =>
      let r := i / t.n
      let c := i % t.n
      let e0 : Elt := ⟨t.elems.getD i 0, {}⟩
      if narrow then
        narrowDot t.expwin t.p (narrowUnit sf) e0
          ((List.range (ceilDiv k.kc 32)).map (narrowBlock k (x r) (w c)))
      else
        wideDot t.expwin e0
          ((List.range k.kc).map (fun j => wideTerm so st k (k.koff + j) (x r (k.koff + j)) (w c (k.koff + j))))
    let rs := (List.range (t.m * t.n)).map one
    (rs.map (·.acc), rs.foldl (fun a r => joinTsw a r.st) {}, 0)

/-- Executes MX.MUL on its live tile (R143, R154). -/
def State.execMulOn (s : State) (c : Nat) (t0 : Tile) (ws wt kc : W64) (sa ta : List W32) : State :=
  let so := opWord ws
  let st := opWord wt
  let k := kWord kc
  let t := t0.advance k
  if t0.null then s.putLive c t else
  let a := addrAt ta 0
  let h := s.spadHdr a
  let s0 := if st.hdr then s.spadTouch a 64 else s
  let shapeBad := st.hdr && (h.dim1.toNat != st.rows || h.dim0.toNat != st.inner)
  if st.hdr ∧ (shapeBad ∨ s.tileFault a h) then
    s0.headerFault c t k (if fmtReserved h.fmt.toNat then some (h.fmt.toNat, h.layer.toNat) else none)
  else
    let sf := if st.hdr then h.fmt.toNat else st.fmt
    let narrow := isNarrow so st sf
    if rangeBad narrow t0.p k then s0.headerFault c t k none
    else
      let ms := if st.hdr then s.mittens a h else []
      let xel := s.plainElem so (addrAt sa 0) (addrAt sa 1)
      let wel := if st.hdr then s.tileElemM a h ms else s.plainElem st a (addrAt ta 1)
      let x := fun r pos : Nat => if so.order then xel pos r else xel r pos
      let w := fun n pos : Nat => if st.order then wel pos n else wel n pos
      let inv := invBlocks so k xel + invBlocks st k wel
      let r := s.products t so st k narrow sf inv x w
      let tsw := joinTsw t.tsw r.2.1
      let bad := if st.hdr ∧ sf = 0 then s.badTn a h st k else 0
      let s1 := s0.touchPlain so (addrAt sa 0) (addrAt sa 1) k
      let s2 := if st.hdr then s1.spadTouch a (max (sectionsEnd h) (codesEnd sf (hdrCount h)))
        else s1.touchPlain st a (addrAt ta 1) k
      let s3 := ({ s2 with free := s2.free + r.2.2 }).putLive c { t with elems := r.1, tsw := tsw }
      let s4 := ((s3.tileStatus c r.2.1).bumpUnits (Reg.cellScaleInvalid c) inv).bumpUnits (Reg.cellTnBadcode c) bad
      s4.mxActive c (mulCycles narrow sf t.m t.n k.kc (spadCell a == c))

/-- Executes MX.START (R141, R142): the layer's descriptor is read for its DW_SKIP or its exponent window. -/
def State.execStartOn (s : State) (c h : Nat) (w : W64) (src : W32) (e : W32) : State :=
  let t := startTile h w e
  let r := if t.pass = 1 then ({}, s) else s.readLayer (unitCell c) (unitCell c) t.layer
  let s1 := r.2
  let null := t.pass == 2 && r.1.dwSkip
  let load := w.getLsbD 16 && !null
  let es := if load then (List.range (t.m * t.n)).map (fun i => BitVec.ofNat 32 (s1.spadNat (src.toNat + 4 * i) 4))
    else List.replicate (t.m * t.n) 0
  let t1 := { t with p := s1.promo c, expwin := if t.pass = 0 then r.1.expwin else 0, null := null,
                     elems := if null then [] else es }
  let s2 := if load then s1.spadTouch src.toNat (4 * t.m * t.n) else s1
  let k := s2.cell c
  let s3 := s2.setCell c { k with tiles := k.tiles.filter (fun x => !(x.h == h && x.phase == .live)) ++ [t1] }
  if null then s3.bump (Reg.cellMxDwskip c) else s3

/-- Executes MX.END (R116, R142, R146). -/
def State.execFinOn (s : State) (c : Nat) (t : Tile) (w : W64) (dst : W32) : State :=
  let k := s.cell c
  let word := if t.null then 0xFFFFFFFF00000000#64 else tswWord t.tsw
  let rest := k.tiles.filter (fun x => !(x.h == t.h && x.phase == .live))
  let last := tabPut t.h word k.lastTsw
  if t.null then s.setCell c { k with tiles := rest, lastTsw := last }
  else
    let dest := field w.toNat 1 0
    let phase : TilePhase := if dest = 0 then .vec else if dest = 1 then .spad dst.toNat else .red
    let t1 := { t with phase := phase, endw := w, mb := s.fld (Reg.cellRedMb c) 0 4 }
    let s1 := s.setCell c { k with tiles := if dest = 3 then rest else rest ++ [t1], lastTsw := last, tswLastH := some t.h }
    let s2 := s1.setReg64 (Reg.cellTswLastLo c) (Reg.cellTswLastHi c) word.toNat
    if t.tsw.nan || t.tsw.ovf then
      (s2.bump (Reg.cellNfTiles c)).reportLim 0x0502 c (unitCell c)
        (c + 2 ^ 16 * b2n t.tsw.nan + 2 ^ 17 * b2n t.tsw.ovf + 2 ^ 18 * b2n t.tsw.first.isSome
          + 2 ^ 20 * (t.layer % 2 ^ 12))
    else s2

/-- The pages that a start needs: that of its layer's descriptor (R142, R201). -/
def State.startPages (s : State) (h : Nat) (w : W64) : List Nat :=
  let t := startTile h w 0
  if t.pass = 1 ∨ s.layerCount ≤ t.layer then [] else [s.layerAddr t.layer / pageBytes]

/-- Would a start wait: for its layer's descriptor (R301), or for a bank of its tile that is still draining (R141)? -/
def State.startBlocked (s : State) (c h : Nat) (w : W64) : Bool :=
  let t0 := startTile h w 0
  let t := { t0 with null := t0.pass == 2 && (s.peekLayer t0.layer).dwSkip }
  !(s.farNeed (.engine c) (s.startPages h w)).isEmpty || (s.cell c).tiles.any (fun x => x.phase != .live && x.banks.any (fun b => t.banks.contains b))

/-- The scratchpad spans that a matrix instruction reads, with its handle (R153). -/
def State.mxSpans (s : State) : MxOp → List (Nat × Nat × Nat)
  | .start h w src _ =>
    let t := startTile h w 0
    if w.getLsbD 16 then [(h, src.toNat, 4 * t.m * t.n)] else []
  | .mul h ws wt _ sa ta =>
    let one := fun (w : W64) (l : List W32) =>
      let o := opWord w
      let a := addrAt l 0
      let d := s.spadHdr a
      if o.hdr then [(h, a, max (sectionsEnd d) (codesEnd d.fmt.toNat (hdrCount d)))]
      else (h, a, o.span) :: (if o.fmt = 3 then [(h, addrAt l 1, o.sspan)] else [])
    one ws sa ++ one wt ta
  | .fin _ _ _ => []

/-- Starts the bring-ups that the start at the head of a cell's queue waits for (R301). -/
def State.mxBring (s : State) (c : Nat) : State :=
  match (s.cell c).mxq with
  | .start h w _ _ :: _ =>
    let need := s.farNeed (.engine c) (s.startPages h w)
    if need.isEmpty then s else s.waitFar (.engine c) need c
  | _ => s

/-- Will an instruction of the matrix queue still read operands: a start with LOAD, or products on a tile that is not null
(R142, R151)? -/
def State.mxWillRead (s : State) : List Tile → List MxOp → Bool
  | _, [] => false
  | ts, op :: l =>
    (match op with
      | .start h w _ e => w.getLsbD 16 && (s.projStep ts (.start h w 0 e)).any (fun t => t.h == h && !t.null)
      | .mul h _ _ _ _ _ => (match liveOn ts h with | some t => !t.null | none => false)
      | .fin _ _ _ => false)
      || s.mxWillRead (s.projStep ts op) l

/-- Puts a matrix instruction into its queue. -/
def State.mxPush (s : State) (c : Nat) (op : MxOp) : State :=
  let k := s.cell c
  s.setCell c { k with mxq := k.mxq ++ [op], mxReads := k.mxReads ++ s.mxSpans op }

/-- The reads of the instructions on some handles are known to be done (R150, R151, R181). -/
def Cell.settle (k : Cell) (p : Nat → Bool) : Cell :=
  { k with mxReads := k.mxReads.filter (fun r => !p r.1), mxRaced := k.mxRaced.filter (fun h => !p h),
           mxDerived := k.mxDerived.filter (fun r => !p r.1) }

/-- Leaves the live tile of a handle not defined where its operands were written before they were known to be read
(R153). -/
def State.raceLive (s : State) (c h : Nat) : State :=
  let k := s.cell c
  if k.mxRaced.contains h then
    { s.setCell c { k with tiles := k.tiles.map (fun t => if t.h = h ∧ t.phase = .live then t.opened s.free else t) }
      with free := s.free + 2 ^ 14 }
  else s

/-- Executes the matrix instruction at the head of a cell's queue; none where there is none or it must wait. -/
def State.mxStep (s : State) (c : Nat) : Option State :=
  match (s.cell c).mxq with
  | [] => none
  | op :: rest =>
    let s1 := s.setCell c { s.cell c with mxq := rest }
    match op with
    | .start h w src e => if s.startBlocked c h w then none else some (((s1.goOn (.engine c)).execStartOn c h w src e).raceLive c h)
    | .mul h ws wt kc sa ta =>
      match liveOn (s.cell c).tiles h with
      | some t => some ((s1.execMulOn c t ws wt kc sa ta).raceLive c h)
      | none => some s1
    | .fin h w dst =>
      match liveOn (s.cell c).tiles h with
      | some t => some (s1.execFinOn c t w dst)
      | none => some s1

/-- The status word that MX.TSW returns for a handle (R150). -/
def Cell.tswOf (k : Cell) (h : Nat) : W64 :=
  match liveOn k.tiles h with
  | some t => if t.null then 0xFFFFFFFF00000000#64 else tswWord t.tsw
  | none => (alistGet k.lastTsw h).getD 0xFFFFFFFF00000000#64

/-- The tile of a handle that drains to the vector engine. -/
def Cell.vecTile (k : Cell) (h : Nat) : Option Tile := k.tiles.find? (fun t => t.h == h && t.phase == .vec)

end Sys2Proof.Machine
end

