-- ==== Sys2Proof/Machine/VsVal.lean ====
section
/-! DEFINITION. The vector engine: control and stream words, operations on elements, reductions, and the checks of
Table 6-8 (R162 to R182). -/

namespace Sys2Proof.Machine

/-! ### Instruction words (R164, R166) -/

/-- A control word (Table 6-2). -/
structure VCtl where
  len : Nat
  op : Nat
  rowlen : Nat
  rnd : Nat
  rule : Nat
  masken : Bool
  maskinv : Bool
  mzero : Bool
  seg : Bool
  loss : Bool
  idx : Bool
  tfmt : Nat
  deriving DecidableEq, Repr

/-- The fields of a control word. -/
def vctl (w : W64) : VCtl :=
  let v := w.toNat
  { len := field v 23 0, op := field v 31 24, rowlen := field v 47 32, rnd := field v 49 48, rule := field v 53 50,
    masken := v.testBit 54, maskinv := v.testBit 55, mzero := v.testBit 56, seg := v.testBit 57, loss := v.testBit 58,
    idx := v.testBit 59, tfmt := field v 63 60 }

/-- A stream word (Table 6-3) with its address registers. -/
structure VStr where
  fmt : Nat
  src : Nat
  handle : Nat
  free : Bool
  spitch : Nat
  pitch : Nat
  regs : List W32
  deriving DecidableEq, Repr

/-- The fields of a stream word. -/
def vstr (w : W64) (l : List W32) : VStr :=
  let v := w.toNat
  { fmt := field v 3 0, src := field v 5 4, handle := field v 7 6, free := v.testBit 8, spitch := field v 31 16,
    pitch := field v 63 32, regs := l }

/-- Address of a stream's elements. -/
def VStr.addr (x : VStr) : Nat := addrAt x.regs 0
/-- Address of its scale plane. -/
def VStr.plane (x : VStr) : Nat := addrAt x.regs 1
/-- Address of the liner plane of a Q4 stream. -/
def VStr.liner (x : VStr) : Nat := addrAt x.regs 2

/-- A stream in scratchpad. -/
def VStr.spad (x : VStr) : Bool := x.src == 0
/-- A stream from an accumulator tile. -/
def VStr.acc (x : VStr) : Bool := x.src == 1

/-- A whole-stream or segmented reduction (Table 6-4). -/
def opRed (op : Nat) : Bool := 0x50 ≤ op && op ≤ 0x57
/-- A comparison. -/
def opCmp (op : Nat) : Bool := 0x26 ≤ op && op ≤ 0x2B
/-- An operation of the function unit. -/
def opFn (op : Nat) : Bool := (0x30 ≤ op && op ≤ 0x39) || op == 0x44 || op == 0x48 || op == 0x49
/-- COMPRESS or EXPAND. -/
def opPack (op : Nat) : Bool := op == 0x60 || op == 0x61
/-- An element-wise operation of the main path, CVT apart. -/
def opMain (op : Nat) : Bool := 1 ≤ op && op ≤ 0x12
/-- An operation code of Table 6-4 (R171). -/
def opKnown (op : Nat) : Bool :=
  opMain op || (0x20 ≤ op && op ≤ 0x2E) || (0x30 ≤ op && op ≤ 0x39) || (0x40 ≤ op && op ≤ 0x46) || op == 0x48
    || op == 0x49 || opRed op || opPack op

/-- Does the operation take source b? -/
def opB (op : Nat) : Bool :=
  !(op == 0x04 || op == 0x0D || (0x0F ≤ op && op ≤ 0x12) || op == 0x2D || op == 0x2E || (0x30 ≤ op && op ≤ 0x39)
    || opRed op || opPack op)
/-- Does it take source a? -/
def opA (op : Nat) : Bool := op != 0x0E
/-- Does it take source c? -/
def opC (op : Nat) : Bool := op == 0x23 || op == 0x41 || op == 0x45

/-- Does the instruction write its scalar destination (R175, R178)? -/
def VCtl.writesSd (k : VCtl) : Bool := (opRed k.op && !k.seg) || opPack k.op

/-- The destination stream. -/
def VsOp.d (o : VsOp) : VStr := vstr o.wd o.ad
/-- Source a. -/
def VsOp.a (o : VsOp) : VStr := vstr o.wa o.aa
/-- Source b. -/
def VsOp.b (o : VsOp) : VStr := vstr o.wb o.ab
/-- Source c. -/
def VsOp.c (o : VsOp) : VStr := vstr o.wc o.ac

/-- The sources that an operation takes. -/
def VsOp.srcs (o : VsOp) : List VStr :=
  let p := (vctl o.ctl).op
  (if opA p then [o.a] else []) ++ (if opB p then [o.b] else []) ++ (if opC p then [o.c] else [])

/-- Handles of the accumulator tiles that an instruction reads. -/
def VsOp.handles (o : VsOp) : List Nat := ((o.srcs.filter VStr.acc).map (·.handle)).dedup

/-- Handles of the tiles that it frees (Table 6-3, FREE). -/
def VsOp.frees (o : VsOp) : List Nat := ((o.srcs.filter (fun x => x.acc && x.free)).map (·.handle)).dedup

/-! ### Formats (Tables 6-1, 6-4, 6-5) -/

/-- A source format of the floating-point path. -/
def fmtFloat (f : Nat) : Bool := f == 3 || f == 4 || f == 5
/-- I32 or U16. -/
def fmtInt (f : Nat) : Bool := f == 7 || f == 8
/-- TN, Q2 or Q4. -/
def fmtWeight (f : Nat) : Bool := f ≤ 2

/-- The pairs of CVT (Table 6-5). -/
def cvtPair (a d : Nat) : Bool :=
  ((a ≤ 3) && (d == 4 || d == 5)) || (a == 4 && d == 5) || (a == 5 && d == 4) || ((a == 4 || a == 5) && d == 3)
    || (a == 5 && d == 7) || (a == 7 && d == 5) || (a == 7 && d == 8) || (a == 8 && d == 7)

/-- The pairs of CVT that run on the main path. -/
def cvtMain (a d : Nat) : Bool :=
  (a == 4 && d == 5) || (a == 5 && d == 4) || (a == 7 && d == 8) || (a == 8 && d == 7)

/-- The format of the result elements of a reduction (R175). -/
def redFmt (op : Nat) : Nat := if op = 0x54 ∨ op = 0x55 ∨ op = 0x56 then 7 else 5

/-- A format that a broadcast value may have (R168). -/
def fmtBcast (f : Nat) : Bool := fmtFloat f || fmtInt f

/-- Are the formats of an instruction not allowed for its operation (R163, R167, R168, R173, R174, R178)? R175 states the
result format of a reduction for SEG = 1 only; the same is asked of a SPAD destination with SEG = 0 (DESIGN CHOICE, log
entry 57). -/
def VsOp.fmtBad (o : VsOp) : Bool :=
  let k := vctl o.ctl
  let op := k.op
  let a := o.a.fmt
  let d := o.d.fmt
  o.srcs.any (fun x => (fmtWeight x.fmt
    && !(op == 0x2D && x.spad && x.pitch == 0 && k.len % 32 == 0 && (k.rowlen == 0 || k.rowlen == k.len)))
    || (x.src == 2 && !fmtBcast x.fmt))
  || (if op = 0x2D then !cvtPair a d
    else if opRed op then ((k.seg || o.d.spad) && d != redFmt op) || (op != 0x56 && !fmtFloat a)
    else if op ≤ 0x07 then fmtBytes a == 0 || fmtBytes d != fmtBytes a || (op ≤ 3 && fmtBytes o.b.fmt != fmtBytes a)
    else if op = 0x0E then o.b.src != 2 || o.b.fmt != 7 || d != 7
    else if op ≤ 0x0D then o.srcs.any (fun x => !fmtInt x.fmt) || !fmtInt d
    else if op ≤ 0x10 then !fmtFloat a || d != a
    else if op = 0x11 then fmtBytes a == 0 || d != a
    else if op = 0x12 then !(a == 4 || a == 5) || d != 7
    else if opPack op then fmtBytes a == 0 || a == 3 || d != (if op = 0x60 ∧ k.idx then 7 else a)
    else o.srcs.any (fun x => !fmtFloat x.fmt)
      || (if op = 0x2E then !(k.tfmt ≤ 3) || d != 6 || k.rule == 0
          else !opCmp op && !(fmtFloat d || d == 7)))

/-- Does the destination hold A8 elements with a scale plane? -/
def VsOp.a8Dest (o : VsOp) : Bool :=
  let op := (vctl o.ctl).op
  o.d.spad && o.d.fmt == 3 && !opCmp op && op != 0x2E && !opRed op

/-! ### Addresses (R167, R174, R175) -/

/-- Bytes from one row of a stream to the next. -/
def VStr.stride (x : VStr) (rl : Nat) : Nat := if x.pitch = 0 then rl * fmtBytes x.fmt else x.pitch
/-- Bytes from one row of its scale plane to the next. -/
def VStr.sstride (x : VStr) (rl : Nat) : Nat := if x.spitch = 0 then rl / 32 else x.spitch
/-- Address of element `i`. -/
def VStr.at_ (x : VStr) (rl i : Nat) : Nat := x.addr + i / rl * x.stride rl + i % rl * fmtBytes x.fmt
/-- Address of the scale of element `i` of an A8 stream. -/
def VStr.scaleAt (x : VStr) (rl i : Nat) : Nat := x.plane + i / rl * x.sstride rl + i % rl / 32

/-- Bytes of a plane of rows: from the first to the end of the last. -/
def rowSpan (rows stride inner : Nat) : Nat := if rows = 0 then 0 else (rows - 1) * stride + inner

/-- Bytes of the packed code plane of a weight stream. -/
def weightBytes (f n : Nat) : Nat := if f = 0 then ceilDiv n 5 else n / 4

/-- The parts of a source in scratchpad: address, bytes, alignment; none where a plane lies beyond a15. -/
def VStr.srcSpans (x : VStr) (n rl : Nat) : Option (List (Nat × Nat × Nat)) :=
  let rows := if rl = 0 then 0 else n / rl
  if fmtWeight x.fmt then
    (if (if x.fmt = 2 then 3 else 2) ≤ x.regs.length then
      some ([(x.addr, weightBytes x.fmt n, 1), (x.plane, n / 32, 1)]
        ++ (if x.fmt = 2 then [(x.liner, weightBytes x.fmt n, 1)] else []))
     else none)
  else if x.fmt = 3 then
    (if 2 ≤ x.regs.length then
      some [(x.addr, rowSpan rows (x.stride rl) rl, 1), (x.plane, rowSpan rows (x.sstride rl) (rl / 32), 1)]
     else none)
  else some [(x.addr, rowSpan rows (x.stride rl) (rl * fmtBytes x.fmt), fmtBytes x.fmt)]

/-- Bytes from the address of a stream to the end of its element `n − 1`, or of its longest row (R167). -/
def VStr.reach (x : VStr) (n rl : Nat) : Nat :=
  let es := fmtBytes x.fmt
  if n = 0 then 0
  else if rl = 0 then n * es
  else max ((n - 1) / rl * x.stride rl + ((n - 1) % rl + 1) * es)
    (if rl < n then ((n - 1) / rl - 1) * x.stride rl + rl * es else 0)

/-- The parts of the destination; results of a segmented reduction are elements of its destination stream (R167, R175). -/
def VsOp.dstSpans (o : VsOp) (rl : Nat) : Option (List (Nat × Nat × Nat)) :=
  let k := vctl o.ctl
  let x := o.d
  let rows := if rl = 0 then 0 else k.len / rl
  if !x.spad then some []
  else if opCmp k.op then some [(x.addr, ceilDiv k.len 8, 1)]
  else if k.op = 0x2E then
    some [(x.addr, rowSpan rows (if x.pitch = 0 then ceilDiv rl 32 else x.pitch) (ceilDiv rl 32), 1)]
  else if opRed k.op then some [(x.addr, x.reach (if k.seg then rows else 1) rl, fmtBytes x.fmt)]
  else x.srcSpans k.len rl

/-- Is a part of a stream outside the addressable scratchpad or not aligned (VS_ADDR)? A part of no bytes is not checked. -/
def spanBad (c : Nat) (own : Bool) (p : Nat × Nat × Nat) : Bool :=
  0 < p.2.1 && (p.1 % max p.2.2 1 != 0 || !spanOk c p.1 p.2.1 own)

/-- Are the rows of a stream out of alignment? -/
def VStr.pitchBad (x : VStr) (n rl : Nat) : Bool :=
  x.spad && rl < n && x.pitch % max (fmtBytes x.fmt) 1 != 0

/-- Does an address of an instruction fail VS_ADDR (Table 6-8)? -/
def VsOp.addrBad (o : VsOp) (c rl : Nat) : Bool :=
  let k := vctl o.ctl
  (o.srcs.any (fun x => x.spad && 0 < k.len
      && (x.pitchBad k.len rl || (match x.srcSpans k.len rl with | some l => l.any (spanBad c false) | none => true))))
  || (k.masken && spanBad c false (o.mask.toNat, ceilDiv k.len 8, 1))
  || ((0 < k.len || (opRed k.op && !k.seg))
      && ((o.d.pitchBad (if opRed k.op then (if k.seg ∧ rl ≠ 0 then k.len / rl else 1) else k.len) rl && !opCmp k.op)
          || (match o.dstSpans rl with | some l => l.any (spanBad c true) | none => true)))

/-! ### Accumulator tiles as the queues will leave them (R181, R186) -/

/-- Tiles of a handle that queued MX.END instructions will drain to the vector engine, from the live tiles on. -/
def State.queuedVec (s : State) (h : Nat) : List Tile → List MxOp → List (Nat × Nat)
  | _, [] => []
  | ts, op :: l =>
    (match op with
      | .fin g w _ =>
        if g = h ∧ field w.toNat 1 0 = 0 then
          (match liveOn ts h with | some t => if t.null then [] else [(t.m, t.n)] | none => [])
        else []
      | _ => []) ++ s.queuedVec h (s.projStep ts op) l

/-- The shape of the tile that the next vector instruction will read on a handle, if any. -/
def State.accShape (s : State) (c h : Nat) : Option (Nat × Nat) :=
  let k := s.cell c
  let now := match k.vecTile h with | some t => [(t.m, t.n)] | none => []
  let all := now ++ s.queuedVec h (k.tiles.filter (fun t => t.phase == .live)) k.mxq
  all[k.vsq.countP (fun o => o.frees.contains h)]?

/-- The row length of an instruction: ROWLEN, or N of its tile, or LEN (R164, R181). -/
def VsOp.rowLen (o : VsOp) (shape : Nat → Option (Nat × Nat)) : Nat :=
  let k := vctl o.ctl
  if k.rowlen ≠ 0 then k.rowlen
  else match o.handles.findSome? shape with | some p => p.2 | none => k.len

/-- VS_OPCODE (Table 13-10). -/
def excVsOpcode : Nat := 0x20
/-- VS_FMT. -/
def excVsFmt : Nat := 0x21
/-- VS_SHAPE. -/
def excVsShape : Nat := 0x22
/-- VS_ACC. -/
def excVsAcc : Nat := 0x23
/-- VS_ADDR. -/
def excVsAddr : Nat := 0x24

/-- The checks of a vector instruction: `early` those of LAUNCH.AT, `late` those at firing; both at issue (R186, Table 6-8;
DEDUCED, log entry 27). With ROWLEN 0 and an ACC source the row length is that of the tile that the queues will leave, or
LEN while there is none. -/
def State.checkVs (s : State) (c : Nat) (early late : Bool) (o : VsOp) : Option Nat :=
  let k := vctl o.ctl
  let shape := s.accShape c
  let rl := o.rowLen shape
  firstCause
    [ (early && (!opKnown k.op || 2 ≤ k.rnd), excVsOpcode),
      (early && (o.d :: o.srcs).any (fun x => x.src == 3), excVsShape),
      (early && (o.d :: o.srcs).any (fun x => 8 < x.fmt), excVsFmt),
      (early && !o.d.spad && !(opRed k.op && !k.seg), excVsShape),
      (early && o.fmtBad, excVsFmt),
      (early && k.loss && k.seg, excVsShape),
      (early && (k.len % rl != 0 || (rl % 32 != 0 && (o.a8Dest || o.srcs.any (fun x => x.fmt == 3)))), excVsShape),
      (early && o.addrBad c rl, excVsAddr),
      (late && o.handles.any (fun h => (shape h).isNone), excVsAcc),
      (late && o.handles.any (fun h => match shape h with
        | some p => k.len != p.1 * p.2 || (k.rowlen != 0 && k.rowlen != p.2)
        | none => false), excVsShape) ]

/-! ### Operations on elements -/

/-- The exact value of an element of any format; I32 and U16 as their integers. -/
def Elem.vval (e : Elem) : Val :=
  if e.fmt = 5 then decW32 (BitVec.ofNat 32 e.code)
  else if e.fmt = 7 then intVal (i32Of e.code)
  else if e.fmt = 8 then .fin false (natFrac e.code)
  else e.val

/-- The canonical NaN for a NaN of H16 or W32, every other pattern unchanged (R122). -/
def passCode (f code : Nat) : Nat :=
  if f = 4 ∧ isNanVal (decH16 code) then 0x7F80
  else if f = 5 ∧ isNanVal (decW32 (BitVec.ofNat 32 code)) then 0x7FE00000
  else code

/-- The integer of an I32 or U16 code. -/
def intOf (f code : Nat) : Int := if f = 7 then i32Of code else (code : Int)

/-- An integer saturated into I32 or U16, and whether it saturated. -/
def satInt (f : Nat) (i : Int) : Nat × Bool :=
  let lo : Int := if f = 7 then -(2 ^ 31) else 0
  let hi : Int := if f = 7 then 2 ^ 31 - 1 else 65535
  let r := if i < lo then lo else if hi < i then hi else i
  (i32Bits r, decide (r ≠ i))

/-- Bitwise operations and shifts on patterns of `w` bits (OP 0x01 to 0x07). -/
def vsBits (op w a b : Nat) : Nat :=
  let m := 2 ^ w
  let n := b % 32
  if op = 0x01 then a &&& b
  else if op = 0x02 then a ||| b
  else if op = 0x03 then a ^^^ b
  else if op = 0x04 then m - 1 - a
  else if op = 0x05 then a * 2 ^ n % m
  else if op = 0x06 then a / 2 ^ n
  else ((if a.testBit (w - 1) then (a : Int) - m else (a : Int)) / 2 ^ n % m).toNat

/-- Integer operations (OP 0x08 to 0x0D), exact. -/
def vsInt (op : Nat) (x y : Int) : Int :=
  if op = 0x08 then x + y
  else if op = 0x09 then x - y
  else if op = 0x0A then x * y
  else if op = 0x0B then min x y
  else if op = 0x0C then max x y
  else if x < 0 then -x else x

/-- ABS, NEG and MOV on a code (OP 0x0F to 0x11). -/
def vsSign (op f a : Nat) : Nat :=
  if op = 0x11 then passCode f a
  else if f = 3 then (if a = 0 ∨ a = 0x80 then a else if op = 0x0F then a % 128 else a ^^^ 0x80)
  else
    let v := if f = 4 then decH16 a else decW32 (BitVec.ofNat 32 a)
    let sign := if f = 4 then 0x8000 else 0x80000000
    if isNanVal v then passCode f a else if op = 0x0F then a % sign else a ^^^ sign

/-- EXPO (OP 0x12). -/
def vsExpo (v : Val) : Nat :=
  match v with
  | .fin _ m => if m.num = 0 then 0x80000000 else i32Bits (floorLog2 m)
  | _ => 0x7FFFFFFF

/-- An element of OP 0x01 to 0x12: index, source codes; the result and whether it saturated. -/
def vsMain (op fa fb fd i a b : Nat) : Nat × Bool :=
  if op ≤ 0x07 then (vsBits op (8 * fmtBytes fa) a b, false)
  else if op = 0x0E then satInt fd (i32Of b + i)
  else if op ≤ 0x0D then satInt fd (vsInt op (intOf fa a) (intOf fb b))
  else if op = 0x12 then (vsExpo (if fa = 4 then decH16 a else decW32 (BitVec.ofNat 32 a)), false)
  else (vsSign op fa a, false)

/-- A comparison (OP 0x26 to 0x2B, R121). -/
def vsCmp (op : Nat) (a b : Val) : Bool :=
  if op = 0x26 then eqVal a b
  else if op = 0x27 then !eqVal a b
  else if op = 0x28 then ltVal a b
  else if op = 0x29 then ltVal a b || eqVal a b
  else if op = 0x2A then ltVal b a
  else ltVal b a || eqVal a b

/-- MAX or MIN of two elements (R120, R177). -/
def pickVal (isMax : Bool) (a b : Val) : Val × NFlags :=
  if isNanVal a && isNanVal b then (.nan, { nan := true })
  else if isNanVal a then (b, { nandrop := true })
  else if isNanVal b then (a, { nandrop := true })
  else (if pickSecond isMax a b then b else a, {})

/-- A function of OP 0x30 to 0x39. -/
def vsFunction (op : Nat) (a : Val) : Encl :=
  if op = 0x30 then fnExp a
  else if op = 0x31 then fnLog a
  else if op = 0x32 then fnRcp a
  else if op = 0x33 then fnSqrt a
  else if op = 0x34 then fnRsqrt a
  else if op = 0x35 then fnSigmoid a
  else if op = 0x36 then fnTanh a
  else if op = 0x37 then fnSoftplus a
  else if op = 0x38 then fnGelu a
  else fnSilu a

/-- The flags of a function result (R172). -/
def fnFlags (a r : Val) : NFlags := { nan := isNanVal r, ovf := isOvfVal a || isOvfVal r }

/-- Is an α of D.LRELU or D.ELU negative, NaN or OVF (R179)? -/
def alphaBad (c : Val) : Bool := !isFinVal c || ltVal c valZero

/-- `1 − v`, exactly. -/
def oneMinus (v : Val) : Val := (addVal valOne (negVal v)).1

/-- The derivative `g(a)` of Table 6-7 at an `a` that is not a NaN; α in `c` (DEDUCED, log entry 52 for zeros). -/
def vsDeriv (op : Nat) (a c : Val) : Encl :=
  if op = 0x40 then exactEncl (if ltVal valZero a then valOne else valZero)
  else if op = 0x41 then exactEncl (if ltVal valZero a then valOne else c)
  else if op = 0x42 then exactEncl (mulVal a (oneMinus a))
  else if op = 0x43 then exactEncl (oneMinus (mulVal a a))
  else if op = 0x45 then exactEncl (if ltVal a valZero then (addVal a c).1 else valOne)
  else if op = 0x46 then exactEncl a
  else match a with
    | .fin n m => if op = 0x44 then gSoftplus n m else if op = 0x48 then gGelu n m else gSilu n m
    | _ => exactEncl .nan

/-- A derivative times dY (R179). -/
def vsDerivative (op : Nat) (a b c : Val) : Encl × NFlags :=
  if (op = 0x41 ∨ op = 0x45) ∧ alphaBad c then (exactEncl .nan, { nan := true })
  else if isNanVal a then (exactEncl .nan, { nan := true })
  else if isOvfVal a ∧ op ≠ 0x40 ∧ op ≠ 0x41 then (exactEncl .nan, { nan := true, ovf := true })
  else
    let g := vsDeriv op a c
    (mulEncl b g, (mulValF b g.lo).2)

/-- An element of the floating-point path, before its conversion into the destination; SEL, SCALE and comparisons apart
(DEDUCED, log entry 52 for the flags of FMA). -/
def vsFloat (op : Nat) (a b c : Val) : Encl × NFlags :=
  let ex := fun r : Val × NFlags => (exactEncl r.1, r.2)
  if op = 0x20 then ex (addVal a b)
  else if op = 0x21 then ex (addVal a (negVal b))
  else if op = 0x22 then ex (mulValF a b)
  else if op = 0x23 then ex (fmaVal a b c)
  else if op = 0x24 then ex (pickVal true a b)
  else if op = 0x25 then ex (pickVal false a b)
  else if op = 0x2D then (exactEncl a, {})
  else if op ≤ 0x39 then
    let r := vsFunction op a
    (r, fnFlags a r.lo)
  else vsDerivative op a b c

/-! ### Conversion of a result (R79 to R82, R118, R163) -/

/-- Converts one exact value into H16, W32, I32 or U16; `still` marks an operand passed on, which sets no flag in H16 or
W32 (R120, R122). -/
def convOne (f : Nat) (r : Rnd) (still : Bool) (v : Val) : Nat × NFlags :=
  if f = 7 then let x := toI32 v; (x.1, { x.2 with satcnt := 0 })
  else if f = 8 then
    match v with
    | .fin n m => let x := satInt 8 (signedNum n (m.num / m.den)); (x.1, { sat := x.2 })
    | _ => (0, {})
  else
    let x := roundFloat (if f = 4 then fmtH16 else fmtW32) r v
    (x.1, if isFinVal v then { ovf := x.2 } else if still then {} else { nan := isNanVal v, ovf := isOvfVal v })

/-- Rounds an enclosed value: both ends agree, or the code is a free value (DEDUCED, log entry 9). -/
def convEncl (f : Nat) (r : Rnd) (still : Bool) (free : Nat) (e : Encl) : Nat × NFlags :=
  let x := convOne f r still e.lo
  let y := convOne f r still e.hi
  if x.1 = y.1 then x else ((Config.freeW32 free).toNat % 2 ^ fmtBits f, x.2)

/-- The same into A8 under a scale. A MAX or MIN whose result is OVF sets OVF here, by Table 3-10 for the conversion, though
ordering it sets none (R79, R120; DEDUCED, log entry 57). -/
def convA8 (r : Rnd) (scale free : Nat) (e : Encl) : Nat × NFlags :=
  let x := toA8 r e.lo scale
  let y := toA8 r e.hi scale
  if x.1 = y.1 then x else ((Config.freeW32 free).toNat % 256, x.2)

/-- The magnitude of an enclosure at its nearer (`false`) or farther end. -/
def enclMag (far : Bool) (e : Encl) : Frac :=
  let a := magVal e.lo
  let b := magVal e.hi
  if leFrac a b == far then b else a

/-- A computed A8 scale from the active results of a block (R85): both ends agree, or a free value (DEDUCED, log entry 9). -/
def a8Scale (rule free : Nat) (es : List Encl) : Nat :=
  let fin := es.filter (fun e => isFinVal e.lo)
  let x := computedScale rule 3 (fin.map (enclMag false))
  let y := computedScale rule 3 (fin.map (enclMag true))
  if x = y then x else (Config.freeW32 free).toNat % 256

/-! ### Reductions (R123 to R127) -/

/-- The result of an empty reduction (Table 4-7). -/
def redEmpty (op : Nat) : Nat :=
  if op = 0x50 then 0 else if op = 0x51 then 0x3FC00000 else if op = 0x52 then 0xFFC00000 else if op = 0x53 then 0x7FC00000
  else if op = 0x54 ∨ op = 0x55 then 0xFFFFFFFF else if op = 0x56 then 0 else 0x7FE00000

/-- The running product (R123). -/
def redProd : W32 → NFlags → List Val → W32 × NFlags
  | w, f, [] => (w, f)
  | w, f, v :: l =>
    let p := mulValF (decW32 w) v
    let r := roundFloat fmtW32 .rne p.1
    redProd (BitVec.ofNat 32 r.1) (orFlags f (orFlags p.2 { ovf := r.2 })) l

/-- The element that a maximum or minimum selects among elements that are not NaN: the first of equals (R126). -/
def redPick (isMax : Bool) : Nat × Val → List (Nat × Val) → Nat × Val
  | best, [] => best
  | best, x :: l =>
    redPick isMax (if (if isMax then ltOrd best.2 x.2 else ltOrd x.2 best.2) then x else best) l

/-- The mean of a sum over `n` elements (R123). -/
def redMean (w : W32) (n : Nat) : W32 :=
  match decW32 w with
  | .fin s m => rneW32 (.fin s ⟨m.num, m.den * n⟩)
  | _ => w

/-- One reduction over active elements with their indices: the code and its flags. -/
def redRow (op : Nat) (l : List (Nat × Val)) : Nat × NFlags :=
  let vs := l.map (·.2)
  if vs.isEmpty then (redEmpty op, { empty := true })
  else if vs.all isNanVal then
    (if op = 0x56 then (vs.length, { allnan := true })
     else if op = 0x54 ∨ op = 0x55 then (0xFFFFFFFF, { allnan := true })
     else (0x7FE00000, { allnan := true, nan := true }))
  else if op = 0x56 then (vs.length, {})
  else if op = 0x51 then let r := redProd 0x3FC00000#32 {} vs; (r.1.toNat, r.2)
  else if op = 0x50 then let r := sumReduce vs; (r.1.toNat, r.2)
  else if op = 0x57 then let r := sumReduce vs; ((redMean r.1 vs.length).toNat, r.2)
  else
    let live := l.filter (fun x => !isNanVal x.2)
    let fl : NFlags := { nandrop := decide (live.length < l.length) }
    match live with
    | [] => (0, fl)
    | x :: xs =>
      let b := redPick (op == 0x52 || op == 0x54) x xs
      (if op ≤ 0x53 then (rneW32 b.2).toNat else b.1, fl)

end Sys2Proof.Machine
end

