-- ==== Sys2Proof/Machine/VsOps.lean ====
section
/-! DEFINITION. The vector engine: execution of the instruction at the head of a cell's queue (R163 to R187). -/

namespace Sys2Proof.Machine

/-! ### Reading streams -/

/-- Element `i` of a source as the engine takes it: format, code, scale (R167, R168, R181; DESIGN CHOICE, log entry 26 for an ACC stream
whose FMT is not W32). -/
def State.vElem (s : State) (c : Nat) (x : VStr) (rl i : Nat) : Elem :=
  let low := fun code : Nat =>
    let v := code % 2 ^ fmtBits x.fmt
    if x.fmt = 3 then elemA8 v 0x80 else ({ fmt := x.fmt, code := v } : Elem)
  if x.src = 2 then low x.pitch
  else if x.src = 1 then
    low (match (s.cell c).vecTile x.handle with | some t => (t.elems.getD i 0).toNat | none => 0)
  else if x.fmt = 0 then
    { fmt := 0, int := some (tritOf (s.spadByte (x.addr + i / 5)) (i % 5)), scale := s.spadByte (x.plane + i / 32) }
  else if fmtWeight x.fmt then
    let two := fun base : Nat => s.spadByte (base + i / 4) / 2 ^ (2 * (i % 4)) % 4
    { fmt := x.fmt, int := some (if x.fmt = 1 then q2Of (two x.addr) else q4Of (two x.addr) (two x.liner)),
      scale := s.spadByte (x.plane + i / 32) }
  else if x.fmt = 3 then elemA8 (s.spadByte (x.at_ rl i)) (s.spadByte (x.scaleAt rl i))
  else { fmt := x.fmt, code := s.spadNat (x.at_ rl i) (fmtBytes x.fmt) }

/-- The active elements of an instruction (R169). -/
def State.vActive (s : State) (o : VsOp) : List Bool :=
  let k := vctl o.ctl
  (List.range k.len).map (fun i =>
    !k.masken || ((s.spadByte (o.mask.toNat + i / 8)).testBit (i % 8) != k.maskinv))

/-- Does a source read element `i`: an active one; b of SEL where not active; EXPAND the first elements (R169, R178)? -/
def vReads (op : Nat) (isB : Bool) (act : List Bool) (i : Nat) : Bool :=
  if op = 0x2C ∧ isB then !act.getD i false
  else if op = 0x61 then i < act.countP id
  else act.getD i false

/-- The scratchpad bytes of element `i` of a source: codes, planes and scale. -/
def VStr.elemSpans (x : VStr) (rl i : Nat) : List (Nat × Nat) :=
  if !x.spad then []
  else if fmtWeight x.fmt then
    let b := if x.fmt = 0 then i / 5 else i / 4
    [(x.addr + b, 1), (x.plane + i / 32, 1)] ++ (if x.fmt = 2 then [(x.liner + b, 1)] else [])
  else if x.fmt = 3 then [(x.at_ rl i, 1), (x.scaleAt rl i, 1)]
  else [(x.at_ rl i, fmtBytes x.fmt)]

/-- The sources of an instruction with a mark on b. -/
def VsOp.marked (o : VsOp) : List (Bool × VStr) :=
  let p := (vctl o.ctl).op
  (if opA p then [(false, o.a)] else []) ++ (if opB p then [(true, o.b)] else []) ++ (if opC p then [(false, o.c)] else [])

/-- The scratchpad bytes that an instruction reads. -/
def VsOp.readSpans (o : VsOp) (rl : Nat) (act : List Bool) : List (Nat × Nat) :=
  let k := vctl o.ctl
  (if k.masken then [(o.mask.toNat, ceilDiv k.len 8)] else [])
    ++ o.marked.flatMap (fun m =>
      ((List.range k.len).filter (vReads k.op m.1 act)).flatMap (m.2.elemSpans rl))
    ++ (if o.a8Dest && !opMain k.op && k.rule == 0 then
          (List.range (k.len / 32)).map (fun b => (o.d.scaleAt rl (32 * b), 1)) else [])

/-- Reads a set of spans of scratchpad: each word with an error once (R290). -/
def State.spadTouchAll (s : State) (l : List (Nat × Nat)) : State :=
  if s.spadErr.isEmpty && s.spadCe.isEmpty then s
  else
    let hit := fun i : Nat => l.any (fun p => wordHits 8 p.1 p.2 i)
    (s.spadErr.filter hit).foldl State.spadUe ((s.spadCe.filter hit).foldl State.spadCorrect s)

/-- Blocks with scale 0xFF that an instruction decodes, each once (R66); the main path, RCNT among it, decodes none. -/
def State.vInvalid (s : State) (c : Nat) (o : VsOp) (rl : Nat) (act : List Bool) : Nat :=
  let k := vctl o.ctl
  if opMain k.op ∨ opPack k.op ∨ k.op = 0x56 then 0 else
  sumNat (o.marked.map (fun m =>
    if m.2.spad && m.2.fmt ≤ 3 then
      (List.range (k.len / 32)).countP (fun b =>
        (s.vElem c m.2 rl (32 * b)).scale == 0xFF
          && (List.range 32).any (fun j => vReads k.op m.1 act (32 * b + j)))
    else 0))

/-- Invalid TN bytes that an instruction decodes (R69). -/
def State.vBadTn (s : State) (o : VsOp) (act : List Bool) : Nat :=
  let k := vctl o.ctl
  if k.op = 0x2D ∧ o.a.fmt = 0 ∧ o.a.spad then
    (List.range (ceilDiv k.len 5)).countP (fun b =>
      243 ≤ s.spadByte (o.a.addr + b) && (List.range 5).any (fun j => act.getD (5 * b + j) false))
  else 0

/-! ### Results -/

/-- A write of an instruction: the range of elements it comes from, address, bytes. -/
structure VWrite where
  lo : Nat
  hi : Nat
  addr : Nat
  bytes : List Byte
  deriving DecidableEq, Repr

/-- What an instruction comes to. -/
structure VRun where
  writes : List VWrite := []
  flags : NFlags := {}
  /-- The scalar result (R175, R178). -/
  sd : Nat := 0
  /-- A RULE code that was used (R84). -/
  ruleUsed : Bool := false
  deriving DecidableEq, Repr

/-- Flags of a list joined. -/
def joinFlags (l : List NFlags) : NFlags := l.foldl orFlags {}

/-- Writes of element codes at the destination; none leaves an element as it is. -/
def elemWrites (x : VStr) (rl : Nat) (codes : List (Option Nat)) : List VWrite :=
  (codes.zipIdx).filterMap (fun p => match p.1 with
    | some v => some ⟨p.2, p.2 + 1, x.at_ rl p.2, leBytes (fmtBytes x.fmt) v⟩
    | none => none)

/-- Writes of block scales at the destination. -/
def scaleWrites (x : VStr) (rl : Nat) (scales : List (Option Nat)) : List VWrite :=
  (scales.zipIdx).filterMap (fun p => match p.1 with
    | some v => some ⟨32 * p.2, 32 * p.2 + 32, x.scaleAt rl (32 * p.2), [BitVec.ofNat 8 v]⟩
    | none => none)

/-- A code written to an inactive element (R164, MZERO). -/
def idleCode (k : VCtl) : Option Nat := if k.mzero then some 0 else none

/-- The rounding of element `i` (R91, R92, R164, R165). -/
def State.vRound (s : State) (o : VsOp) (rl i : Nat) : Rnd :=
  let k := vctl o.ctl
  if k.rnd = 1 ∧ (o.d.fmt = 3 ∨ o.d.fmt = 4) then
    let x := o.index.toNat
    .sr (srWord (s.reg64 Reg.modSrSeedLo Reg.modSrSeedHi) s.epoch.toNat (o.tensor.toNat % 2 ^ 32)
      (x % 2 ^ 48 + i / rl * (x / 2 ^ 48) + i % rl))
  else .rne

/-- A result of the floating-point path before conversion, and whether it is passed on unchanged; none is inactive. -/
abbrev VRes : Type := Option (Encl × Bool)

/-- RULE as applied (R84). -/
def ruleOf (r : Nat) : Nat := if 3 ≤ r then 1 else r

/-- One A8 block: its scale, its codes, its flags (R81, R83 to R85, R174). -/
def State.a8Block (s : State) (o : VsOp) (rl b : Nat) (blk : List VRes) : Option Nat × List (Option Nat) × NFlags :=
  let k := vctl o.ctl
  let live := blk.filterMap (fun r => r.map (·.1))
  if live.isEmpty ∧ k.mzero = false then (none, blk.map (fun _ => none), {})
  else
    let sc := if k.rule = 0 then s.spadByte (o.d.scaleAt rl (32 * b))
      else a8Scale (ruleOf k.rule) (s.free + 33 * b + 32) live
    let rs := (blk.zipIdx).map (fun p => match p.1 with
      | some e => let x := convA8 (s.vRound o rl (32 * b + p.2)) sc (s.free + 33 * b + p.2) e.1; (some x.1, x.2)
      | none => (idleCode k, {}))
    (some sc, rs.map (·.1), joinFlags (rs.map (·.2)))

/-- Converts and writes the results of the floating-point path. -/
def State.vOut (s : State) (o : VsOp) (rl : Nat) (rs : List VRes) (fl : NFlags) : VRun :=
  let k := vctl o.ctl
  if o.d.fmt = 3 then
    let bs := ((chunkList 32 rs).zipIdx).map (fun p => s.a8Block o rl p.2 p.1)
    { writes := scaleWrites o.d rl (bs.map (·.1))
        ++ (elemWrites o.d rl (bs.flatMap (·.2.1))).map (fun w =>
          if k.rule = 0 then w else { w with lo := w.lo / 32 * 32, hi := w.lo / 32 * 32 + 32 }),
      flags := orFlags fl (joinFlags (bs.map (·.2.2))), ruleUsed := true }
  else
    let cs := (rs.zipIdx).map (fun p => match p.1 with
      | some e => let x := convEncl o.d.fmt (s.vRound o rl p.2) e.2 (s.free + p.2) e.1; (some x.1, x.2)
      | none => (idleCode k, {}))
    { writes := elemWrites o.d rl (cs.map (·.1)), flags := orFlags fl (joinFlags (cs.map (·.2))) }

/-- An element-wise operation of the floating-point path or the function unit. -/
def State.vFloatRun (s : State) (c : Nat) (o : VsOp) (rl : Nat) (act : List Bool) : VRun :=
  let op := (vctl o.ctl).op
  let va := fun i => (s.vElem c o.a rl i).vval
  let vb := fun i => (s.vElem c o.b rl i).vval
  let vc := fun i => (s.vElem c o.c rl i).vval
  let rs : List (VRes × NFlags) := (act.zipIdx).map (fun p =>
    if op = 0x2C then
      (if p.1 then (some (exactEncl (va p.2), o.a.fmt == o.d.fmt), {})
       else (some (exactEncl (vb p.2), o.b.fmt == o.d.fmt), {}))
    else if p.1 then
      let r := vsFloat op (va p.2) (if opB op then vb p.2 else valZero) (if opC op then vc p.2 else valZero)
      (some (r.1, op == 0x24 || op == 0x25), r.2)
    else (none, {}))
  s.vOut o rl (rs.map (·.1)) (joinFlags (rs.map (·.2)))

/-- A comparison: one mask bit per element (R169, R171). -/
def State.vCmpRun (s : State) (c : Nat) (o : VsOp) (rl : Nat) (act : List Bool) : VRun :=
  let k := vctl o.ctl
  let bit := fun i : Nat =>
    if act.getD i false then vsCmp k.op (s.vElem c o.a rl i).vval (s.vElem c o.b rl i).vval
    else if i < k.len ∧ k.mzero then false
    else (s.spadByte (o.d.addr + i / 8)).testBit (i % 8)
  let byte := fun j : Nat => sumNat ((List.range 8).map (fun i => b2n (bit (8 * j + i)) * 2 ^ i))
  { writes := (List.range (ceilDiv k.len 8)).map (fun j =>
      ⟨8 * j, min (8 * j + 8) k.len, o.d.addr + j, [BitVec.ofNat 8 (byte j)]⟩) }

/-- SCALE (R174): one S8 per block of the row. It converts nothing, so a NaN or OVF element gives the scale of Table 3-10
and sets no flag (DEDUCED, log entry 57). -/
def State.vScaleRun (s : State) (c : Nat) (o : VsOp) (rl : Nat) (act : List Bool) : VRun :=
  let k := vctl o.ctl
  let nb := ceilDiv rl 32
  let one := fun r j : Nat =>
    let is := (List.range (min 32 (rl - 32 * j))).map (fun i => r * rl + 32 * j + i)
    let vs := (is.filter (fun i => act.getD i false)).map (fun i => (s.vElem c o.a rl i).vval)
    let fin := vs.filter isFinVal
    if k.tfmt ≠ 3 ∧ fin.length < vs.length then 0xFF else computedScale (ruleOf k.rule) k.tfmt (fin.map magVal)
  { writes := (List.range (if rl = 0 then 0 else k.len / rl)).flatMap (fun r => (List.range nb).map (fun j =>
      ⟨r * rl + 32 * j, min (r * rl + 32 * j + 32) ((r + 1) * rl),
       o.d.addr + r * (if o.d.pitch = 0 then nb else o.d.pitch) + j, [BitVec.ofNat 8 (one r j)]⟩)),
    ruleUsed := true }

/-- An element-wise operation of the main path. -/
def State.vMainRun (s : State) (c : Nat) (o : VsOp) (rl : Nat) (act : List Bool) : VRun :=
  let k := vctl o.ctl
  let rs : List (Option Nat × Bool) := (act.zipIdx).map (fun p =>
    if p.1 then
      let r := vsMain k.op o.a.fmt o.b.fmt o.d.fmt p.2 (if opA k.op then (s.vElem c o.a rl p.2).code else 0)
        (if opB k.op then (s.vElem c o.b rl p.2).code else 0)
      (some r.1, r.2)
    else (idleCode k, false))
  let scales : List (Option Nat) :=
    if 0x0F ≤ k.op ∧ k.op ≤ 0x11 ∧ o.a.fmt = 3 then
      (List.range (k.len / 32)).map (fun b =>
        if k.mzero ∨ (List.range 32).any (fun j => act.getD (32 * b + j) false) then
          some (s.vElem c o.a rl (32 * b)).scale else none)
    else []
  { writes := scaleWrites o.d rl scales ++ elemWrites o.d rl (rs.map (·.1)), flags := { sat := rs.any (·.2) } }

/-- The positions of active elements, ascending. -/
def activeIdx (act : List Bool) : List Nat := ((act.zipIdx).filter (·.1)).map (·.2)

/-- The element of `a` that each position takes in EXPAND. -/
def expandFrom : List Bool → Nat → List (Option Nat)
  | [], _ => []
  | b :: bs, n => if b then some n :: expandFrom bs (n + 1) else none :: expandFrom bs n

/-- EXPAND over its own source, element by element: position by position, an element that an earlier position has written is
read as written (R170, R178); `done` holds the positions written so far. -/
def expandOver (code : Nat → Nat) (pass : Nat → Nat) (idle : Option Nat) : List Bool → Nat → List (Option Nat) → List (Option Nat)
  | [], _, done => done
  | b :: bs, n, done =>
    if b then expandOver code pass idle bs (n + 1) (done ++ [some (pass (((done.getD n none)).getD (code n)))])
    else expandOver code pass idle bs n (done ++ [idle])

/-- Is a source updated in place: the destination equal to it in address, format, pitch and ROWLEN (R170)? Mask bits and
block scales are no elements of the source's layout. -/
def VsOp.inPlace (o : VsOp) (rl : Nat) (x : VStr) : Bool :=
  let k := vctl o.ctl
  !opCmp k.op && k.op != 0x2E && x.spad && o.d.spad && x.addr == o.d.addr && x.fmt == o.d.fmt
    && x.stride rl == o.d.stride rl

/-- COMPRESS and EXPAND (R178). -/
def State.vPackRun (s : State) (c : Nat) (o : VsOp) (rl : Nat) (act : List Bool) : VRun :=
  let k := vctl o.ctl
  let code := fun i => passCode o.a.fmt (s.vElem c o.a rl i).code
  let cs : List (Option Nat) :=
    if k.op = 0x60 then (activeIdx act).map (fun i => some (if k.idx then i else code i))
    else if o.inPlace rl o.a then
      expandOver (fun i => (s.vElem c o.a rl i).code) (passCode o.a.fmt) (idleCode k) act 0 []
    else (expandFrom act 0).map (fun r => match r with | some i => some (code i) | none => idleCode k)
  { writes := (elemWrites o.d rl cs).map (fun w => { w with lo := 0, hi := k.len }), sd := act.countP id }

/-- The active elements of `[lo, hi)` with their indices from `lo`: an argmax or argmin of a row counts from the row's start
(R123, R175; DEDUCED, log entry 57). -/
def State.vRow (s : State) (c : Nat) (o : VsOp) (rl : Nat) (act : List Bool) (lo hi : Nat) : List (Nat × Val) :=
  ((List.range (hi - lo)).filter (fun j => act.getD (lo + j) false)).map (fun j => (j, (s.vElem c o.a rl (lo + j)).vval))

/-- A reduction (R175). -/
def State.vRedRun (s : State) (c : Nat) (o : VsOp) (rl : Nat) (act : List Bool) : VRun :=
  let k := vctl o.ctl
  let es := fmtBytes (redFmt k.op)
  if k.seg then
    let rows := if rl = 0 then 0 else k.len / rl
    let rs := (List.range rows).map (fun r => redRow k.op (s.vRow c o rl act (r * rl) ((r + 1) * rl)))
    { writes := (rs.zipIdx).map (fun p => ⟨p.2 * rl, (p.2 + 1) * rl, o.d.at_ rl p.2, leBytes es p.1.1⟩),
      flags := if k.len = 0 then { empty := true } else joinFlags (rs.map (·.2)) }
  else
    let r := redRow k.op (s.vRow c o rl act 0 k.len)
    { writes := if o.d.spad then [⟨0, k.len, o.d.addr, leBytes es r.1⟩] else [], flags := r.2, sd := r.1 }

/-- What an instruction comes to on the state as it stands. -/
def State.vRun (s : State) (c : Nat) (o : VsOp) (rl : Nat) (act : List Bool) : VRun :=
  let op := (vctl o.ctl).op
  if opRed op then s.vRedRun c o rl act
  else if opPack op then s.vPackRun c o rl act
  else if opMain op then s.vMainRun c o rl act
  else if opCmp op then s.vCmpRun c o rl act
  else if op = 0x2E then s.vScaleRun c o rl act
  else s.vFloatRun c o rl act

/-! ### Overlaps (R170) -/

/-- Do two spans share a byte? -/
def spansMeet (a b : Nat × Nat) : Bool := a.1 < b.1 + b.2 && b.1 < a.1 + a.2

/-- The spans of a stream in scratchpad, without their alignment. -/
def plainSpans (l : Option (List (Nat × Nat × Nat))) : List (Nat × Nat) := (l.getD []).map (fun p => (p.1, p.2.1))

/-- The pairs of a part of the destination and a part of a source that share a byte, but for those updated in place: the
elements, and the scale planes where they are one (R170). -/
def VsOp.overlaps (o : VsOp) (rl : Nat) (x : VStr) : List ((Nat × Nat) × (Nat × Nat)) :=
  let own := o.inPlace rl x
  let plane := own && x.plane == o.d.plane && x.sstride rl == o.d.sstride rl
  ((plainSpans (o.dstSpans rl)).zipIdx).flatMap (fun d =>
    ((plainSpans (x.srcSpans (vctl o.ctl).len rl)).zipIdx).filterMap (fun e =>
      if spansMeet d.1 e.1 && !(own && d.2 == 0 && e.2 == 0) && !(plane && d.2 == 1 && e.2 == 1) then some (d.1, e.1)
      else none))

/-- Is the value that a write leaves not defined: it comes from an element of a source that the destination overlaps
otherwise than in place, so that it may be the value of old or of new data (R170)? -/
def VsOp.undef (o : VsOp) (rl : Nat) (w : VWrite) : Bool :=
  (o.srcs.filter (·.spad)).any (fun x =>
    let ps := o.overlaps rl x
    !ps.isEmpty && (List.range (w.hi - w.lo)).any (fun i =>
      (x.elemSpans rl (w.lo + i)).any (fun e => ps.any (fun p => spansMeet e p.1 && spansMeet e p.2))))

/-- The bytes of a write as stored: free ones where they are not defined (DESIGN CHOICE, log entry 4). -/
def VsOp.stored (o : VsOp) (rl free : Nat) (w : VWrite) : List Byte :=
  if o.undef rl w then (List.range w.bytes.length).map (fun i => Config.freeByte (free + w.addr + i)) else w.bytes

/-! ### Completion -/

/-- Adds saturations to the status word of a tile that drains to the vector engine (R116, R174). -/
def State.tileSat (n : Nat) (c : Nat) (s : State) (h : Nat) : State :=
  let k := s.cell c
  match k.vecTile h with
  | none => s
  | some t =>
    let w : Tsw := { t.tsw with sat := true, satcnt := min (t.tsw.satcnt + n) 0xFFFF }
    s.setCell c { k with tiles := k.tiles.map (fun x => if x.h = h ∧ x.phase = .vec then { x with tsw := w } else x),
                         lastTsw := tabPut h (tswWord w) k.lastTsw }

/-- Frees the tiles that an instruction frees (R181). -/
def State.freeTiles (s : State) (c : Nat) (hs : List Nat) : State :=
  let k := s.cell c
  s.setCell c { k with tiles := k.tiles.filter (fun t => !(t.phase == .vec && hs.contains t.h)) }

/-- The effects of a step loss (R176). -/
def State.loss (s : State) (c op code : Nat) : State :=
  let s1 := (s.setReg (Reg.cellVsLoss c) (BitVec.ofNat 32 code)).setReg (Reg.cellVsLossEpoch c) s.epoch
  let v := decW32 (BitVec.ofNat 32 code)
  if redFmt op = 5 ∧ ¬ isFinVal v then
    (s1.raiseFlag flagNonfinite s.epoch).report 0x0503 (unitCell c)
      (c + 2 ^ 16 * b2n (isNanVal v) + 2 ^ 17 * b2n (isOvfVal v) + 2 ^ 20 * (s.epoch.toNat % 2 ^ 12))
  else s1

/-- The effects of a dropped NaN (R177). -/
def State.nanDropped (s : State) (c op : Nat) : State :=
  if s.stepping then
    (s.raiseFlag flagNonfinite s.epoch).reportLim 0x0507 c (unitCell c)
      (c + 2 ^ 16 * (op % 2 ^ 8) + 2 ^ 24 * (s.epoch.toNat % 2 ^ 8))
  else s

/-- Elements per cycle of an instruction (Table 6-1, Table 6-5). -/
def VsOp.rate (o : VsOp) : Nat :=
  let op := (vctl o.ctl).op
  if opFn op then 4
  else if opMain op ∨ opPack op ∨ op = 0x56 ∨ (op = 0x2D ∧ cvtMain o.a.fmt o.d.fmt) then 64 else 16

/-- Bytes of a source that an instruction reads, each once: the elements at some positions, and the scale of each of their
blocks (R187). -/
def VStr.readBytes (x : VStr) (is : List Nat) : Nat :=
  if !x.spad then 0
  else
    let blocks := ((is.map (· / 32)).dedup).length
    if fmtWeight x.fmt then
      ((is.map (· / (if x.fmt = 0 then 5 else 4))).dedup).length * (if x.fmt = 2 then 2 else 1) + blocks
    else is.length * fmtBytes x.fmt + (if x.fmt = 3 then blocks else 0)

/-- Bin of R187: the bytes that an instruction reads from scratchpad, planes and mask among them. -/
def VsOp.bytesIn (o : VsOp) (act : List Bool) : Nat :=
  let k := vctl o.ctl
  (if k.masken then ceilDiv k.len 8 else 0)
    + sumNat (o.marked.map (fun m => m.2.readBytes ((List.range k.len).filter (vReads k.op m.1 act))))
    + (if o.a8Dest && !opMain k.op && k.rule == 0 then k.len / 32 else 0)

/-- The cycles that a burst adds: 16, and the round trip of a source outside the slice. Whether an instruction begins a
burst, and how long a round trip takes in ACLK cycles, is timing and left free (R187; DESIGN CHOICE, log entry 55). -/
def burstCycles (free : Nat) (far : Bool) : Nat :=
  if Config.freeBool free then 16 + (if far then Config.freeNat (free + 1) else 0) else 0

/-- The cycles of R187. -/
def VsOp.cycles (o : VsOp) (c rl free : Nat) (act : List Bool) (ws : List VWrite) : Nat :=
  let k := vctl o.ctl
  let far := (o.readSpans rl act).any (fun p => spadCell p.1 != c)
  let bout := sumNat (ws.map (fun w => w.bytes.length))
  let acc := if o.handles.isEmpty then 0 else ceilDiv k.len 64
  max (max (ceilDiv k.len o.rate) (ceilDiv (o.bytesIn act) (if far then 128 else 512))) (max (ceilDiv bout 256) acc)
    + (if opRed k.op then 8 else 0) + burstCycles free far

/-- Counts cycles of an instruction (Table 6-9). -/
def State.vsActive (s : State) (c n : Nat) (fn : Bool) : State :=
  let k := s.cell c
  let t := k.vsCycles + n
  let f := k.fnCycles + (if fn then n else 0)
  ((s.setCell c { k with vsCycles := t % 1024, fnCycles := f % 1024 }).bumpUnits (Reg.cellVsActive c)
    (t / 1024)).bumpUnits (Reg.cellVsFnunit c) (f / 1024)

/-- Writes the scalar destination (R175, R178): the register is owed no longer. -/
def State.writeSd (s : State) (c sd v : Nat) : State :=
  let k := s.cell c
  s.setCell c ({ k with owed := k.owed.filter (· != sd) }.setS sd (BitVec.ofNat 64 v))

/-- The shape of the tile on a handle that drains to the vector engine. -/
def Cell.vecShape (k : Cell) (h : Nat) : Option (Nat × Nat) :=
  match k.vecTile h with | some t => some (t.m, t.n) | none => none

/-- Keeps the bytes that an instruction writes from tiles whose operands are not known to be read (R153). -/
def State.derive (s : State) (c : Nat) (hs : List Nat) (ws : List (Nat × List Byte)) : State :=
  let k := s.cell c
  let unread := hs.filter (fun h => k.mxReads.any (fun r => r.1 == h))
  let spans : List (Nat × Nat) := (0, 0) :: ws.map (fun w => (w.1, w.2.length))
  let extra := unread.flatMap (fun h => spans.map (fun p => (h, p.1, p.2)))
  if unread.isEmpty then s else s.setCell c { k with mxDerived := k.mxDerived ++ extra }

/-- Executes a vector instruction whose tiles are there: its writes, its status and its other effects. -/
def State.vsExecOn (s : State) (c : Nat) (o : VsOp) : State :=
  let k := vctl o.ctl
  let rl := o.rowLen (s.cell c).vecShape
  let act := s.vActive o
  let r := s.vRun c o rl act
  let inv := s.vInvalid c o rl act
  let fl : NFlags := { r.flags with scaleinv := r.flags.scaleinv || decide (0 < inv) }
  let bytes := r.writes.map (fun w => (w.addr, o.stored rl (s.free + 2 ^ 32) w))
  let s1 := (s.derive c o.handles bytes).spadTouchAll (o.readSpans rl act)
  let s2 := bytes.foldl (fun t w => t.spadWrite w.1 w.2) { s1 with free := s1.free + 2 ^ 33 }
  let s3 := if r.ruleUsed ∧ 3 ≤ k.rule then s2.clampRule c k.rule 1 else s2
  let s4 := (s3.vsFlags c fl).bumpUnits (Reg.cellA8Sat c) fl.satcnt
  let s5 := if 0 < fl.satcnt then o.handles.foldl (State.tileSat fl.satcnt c) s4 else s4
  let s6 := (s5.bumpUnits (Reg.cellScaleInvalid c) inv).bumpUnits (Reg.cellTnBadcode c) (s.vBadTn o act)
  let s7 := if opRed k.op && k.loss && !k.seg then s6.loss c k.op r.sd else s6
  let s8 := if fl.nandrop then s7.nanDropped c k.op else s7
  let s9 := (s8.freeTiles c o.frees).vsActive c (o.cycles c rl (s.free + 2 ^ 33 - 2) act r.writes) (opFn k.op)
  if k.writesSd then s9.writeSd c o.sd r.sd else s9

/-- Does a tile fail R181 when the instruction comes to execute? -/
def VsOp.shapeOff (o : VsOp) (shape : Nat → Option (Nat × Nat)) : Bool :=
  let k := vctl o.ctl
  o.handles.any (fun h => match shape h with
    | some p => k.len != p.1 * p.2 || (k.rowlen != 0 && k.rowlen != p.2)
    | none => false)

/-- Does an instruction fail, when it comes to execute, a test whose outcome the tile's shape decides: R181, or the row and
address tests under the row length of the tile that is there? Then it has no effect but the tiles it frees and its scalar
destination, which takes a free value (DESIGN CHOICE, log entry 28). -/
def VsOp.misfit (o : VsOp) (c : Nat) (shape : Nat → Option (Nat × Nat)) : Bool :=
  let k := vctl o.ctl
  let rl := o.rowLen shape
  o.shapeOff shape || (!o.handles.isEmpty && k.rowlen == 0
    && (k.len % rl != 0 || (rl % 32 != 0 && (o.a8Dest || o.srcs.any (fun x => x.fmt == 3))) || o.addrBad c rl))

/-- Executes the vector instruction at the head of a cell's queue; none where there is none or it waits for a tile
(R183). -/
def State.vsStep (s : State) (c : Nat) : Option State :=
  match (s.cell c).vsq with
  | [] => none
  | o :: rest =>
    let k := s.cell c
    if o.handles.any (fun h => (k.vecTile h).isNone) then none
    else
      let s1 := s.setCell c { k with vsq := rest }
      if o.misfit c k.vecShape then
        let s2 := { s1.freeTiles c o.frees with free := s.free + 1 }
        some (if (vctl o.ctl).writesSd then s2.writeSd c o.sd (Config.freeNat s.free % 2 ^ 32) else s2)
      else some (s1.vsExecOn c o)

end Sys2Proof.Machine
end

