-- ==== Sys2Proof/Machine/Engines.lean ====
section
/-! DEFINITION. The queues of a cell's matrix and vector engines: their progress and what the core issues into them. -/

namespace Sys2Proof.Machine

/-- Executes queued matrix and vector instructions of a cell while one can execute, at most a number of them. -/
def State.engineLoop : Nat → Nat → State → State
  | 0, _, s => s
  | f + 1, c, s =>
    match s.mxStep c with
    | some t => State.engineLoop f c t
    | none => match s.vsStep c with
      | some t => State.engineLoop f c t
      | none => s.mxBring c

/-- Lets the engines of a cell run as far as their inputs allow, while the module works (R152, R183, R435). -/
def State.runEngines (s : State) (c : Nat) : State :=
  if s.works then s.engineLoop ((s.cell c).mxq.length + (s.cell c).vsq.length) c else s

/-- Lets the engines of every cell run. -/
def State.runAllEngines (s : State) : State := (s.cells.map (·.1)).foldl State.runEngines s

/-! ### Operands of engine instructions (Table 13-7) -/

/-- A run of up to `m` address registers from `n` on; there is none beyond a15 (R135). -/
def Cell.aRun (k : Cell) (n m : Nat) : List W32 := (List.range (min m (16 - n))).map (fun i => k.a (n + i))

/-- A matrix instruction with its operands as the registers hold them. -/
def Cell.mxOp (k : Cell) (e : W32) (opc : Nat) (o : ROps) : MxOp :=
  let h := o.x.toNat % 4
  if opc = 0 then .start h (k.s o.sa.toNat) (k.a o.ax.toNat) e
  else if opc = 1 then
    .mul h (k.s o.sa.toNat) (k.s o.sb.toNat) (k.s o.sc.toNat) (k.aPair o.ax.toNat) (k.aPair o.ay.toNat)
  else .fin h (k.s o.sa.toNat) (k.a o.ax.toNat)

/-- A vector instruction with its operands as the registers hold them. -/
def Cell.vsOp (k : Cell) (o : ROps) : VsOp :=
  let w := fun n : Nat => k.s n
  { ctl := w o.sa.toNat, tensor := w (o.sa.toNat + 1), index := w (o.sa.toNat + 2), wd := w o.sb.toNat,
    wa := w (o.sb.toNat + 1), wb := w (o.sb.toNat + 2), wc := w (o.sb.toNat + 3), ad := k.aRun o.ax.toNat 3,
    aa := k.aRun o.ay.toNat 3, ab := k.aRun o.az.toNat 3, ac := k.aRun (o.x.toNat % 16) 3,
    mask := k.a (o.x.toNat / 16 % 16), sd := o.sd.toNat }

/-- The scalar registers that a vector instruction reads or writes (R407). -/
def vsUses (o : ROps) (v : VsOp) : List Nat :=
  let k := vctl v.ctl
  (if k.writesSd then [o.sd.toNat] else []) ++ [o.sa.toNat]
    ++ (if k.rnd = 1 then [o.sa.toNat + 1, o.sa.toNat + 2] else []) ++ [o.sb.toNat]
    ++ (if opA k.op then [o.sb.toNat + 1] else []) ++ (if opB k.op then [o.sb.toNat + 2] else [])
    ++ (if opC k.op then [o.sb.toNat + 3] else [])

/-- Puts a vector instruction into its queue; a scalar destination is owed until it completes (R175). -/
def State.vsPush (s : State) (c : Nat) (v : VsOp) : State :=
  let k := s.cell c
  s.setCell c { k with vsq := k.vsq ++ [v],
                       owed := if (vctl v.ctl).writesSd && v.sd != 0 then k.owed ++ [v.sd] else k.owed }

/-- Entries of an engine queue (R152, R183); a fired action that finds it full waits behind them in the holding slot, and
the core's issue stalls (R399). -/
def queueRoom : Nat := 8

/-- The pages in the far tier that the checks of a matrix instruction need: whether a dW tile is null stands in its layer's
descriptor (R142, R154, R301). -/
def State.checkPages (s : State) : MxOp → List Nat
  | .start h w _ _ => if (startTile h w 0).pass = 2 then s.startPages h w else []
  | _ => []

/-- The effect of issuing a matrix instruction (R152, R154). -/
def mxEffect (c opc : Nat) (o : ROps) (s : State) : Eff :=
  let m := (s.cell c).mxOp s.epoch opc o
  if queueRoom ≤ (s.cell c).mxq.length then .stall
  else
    let need := s.farNeed (.core c) (s.checkPages m)
    if need.isEmpty then
      let t := s.goOn (.core c)
      match t.checkMx c true true m with
      | some e => .excRead t e
      | none => .done ((t.mxPush c m).runEngines c)
    else .wait (s.waitFar (.core c) need c)

/-- A vector instruction's run of registers from its control word on passes s63 (R165, R394). A control word that is still
owed is not at hand: the instruction is judged when it is (R407). -/
def Cell.vsRunBad (k : Cell) (o : ROps) : Bool :=
  !k.owed.contains o.sa.toNat && (vctl (k.s o.sa.toNat)).rnd == 1 && 61 < o.sa.toNat

/-- The effect of issuing a vector instruction (R183, R186). -/
def vsEffect (c : Nat) (o : ROps) (s : State) : Eff :=
  let v := (s.cell c).vsOp o
  if queueRoom ≤ (s.cell c).vsq.length then .stall
  else match s.checkVs c true true v with
    | some e => .exc e 0
    | none => .done ((s.vsPush c v).runEngines c)

end Sys2Proof.Machine
end

