-- ==== Sys2Proof/Machine/Lantern.lean ====
section
/-! DEFINITION. The lantern's forecasts, the sharing of the cap, clocks and rails, hints ahead of their tick and kindling
(R416, R420, R421, R424 to R427). -/

namespace Sys2Proof.Machine

/-! ### Rails and forecasts (R420, R421, R425) -/

/-- The rail that a die's fused curve gives an ACLK step, in 0.1 mV above 0.45 V (R421; DESIGN CHOICE, log entry 7). -/
def railAt (d f : Nat) : Nat := 50 * min 70 (Config.railStep d f)

/-- A power in watts, as a ratio, at an ACLK step and a rail in 0.1 mV above 0.45 V. -/
structure Point where
  num : Nat
  den : Nat
  step : Nat
  rail : Nat

/-- The forecast of a power at another step and rail: scaled by (f × V²) ÷ (f_rec × V_rec²), as a ratio (R420). -/
def Point.at_ (p : Point) (f v : Nat) : Nat × Nat :=
  (p.num * (32 + f) * (4500 + v) ^ 2, p.den * (32 + p.step) * (4500 + p.rail) ^ 2)

/-- The clock of a die. -/
def State.clock (s : State) (d : Nat) : DieClock := tabGet (fun _ => {}) s.pwr.clocks d

/-- Stores it. -/
def State.setClock (s : State) (d : Nat) (k : DieClock) : State :=
  { s with pwr := { s.pwr with clocks := tabSet (fun _ => {}) s.pwr.clocks d k } }

/-- What a die draws in a phase: its record's mean power, while wide-lock holds that of its lock record. Without a sample
it is the power of the last period, or with wide-lock that of dense H16 at 3.6 GHz (R420, R425; DESIGN CHOICE, log entry 62). -/
def State.drawn (s : State) (d n : Nat) : Point :=
  let locked := s.fld Reg.modFbStatus 0 1 = 1
  let base := if locked then Reg.pwrPhl (4 * n) else Reg.pwrPhDur n
  let f := s.fld (base + 12) 0 7
  if 0 < s.fld (base + 8) 16 16 ∧ 0 < s.fld base 0 32 then ⟨100 * s.fld (base + 4) 0 32, s.fld base 0 32, f, railAt d f⟩
  else if locked then ⟨Config.densePower d, 1, 112, railAt d 112⟩
  else ⟨s.fld (Reg.pwrDie d) 16 12, 1, (s.clock d).step, (s.clock d).rail⟩

/-- need of R420: the forecast of a die in a phase at 3.6 GHz, in whole watts, rounded up. -/
def State.need (s : State) (d n : Nat) : Nat :=
  let r := (s.drawn d n).at_ 112 (railAt d 112)
  ceilDiv r.1 r.2

/-- f of R420: the highest ACLK step whose forecast at its rail is within a share; the lowest step where none is. -/
def State.highStep (s : State) (d n share : Nat) : Nat :=
  ((List.range 113).reverse.find? (fun f => let r := (s.drawn d n).at_ f (railAt d f); r.1 ≤ share * r.2)).getD 0

/-! ### Sharing the cap (R420) -/

/-- The level of the water-fill: what is left over the number of dies that it holds (R420). -/
def waterLevel : Nat → List Nat → Nat → Option (Nat × Nat)
  | 0, _, _ => none
  | f + 1, hs, r =>
    if hs.isEmpty then none
    else
      let held := hs.filter (fun h => h * hs.length ≤ r)
      if held.isEmpty then some (r, hs.length)
      else waterLevel f (hs.filter (fun h => !(h * hs.length ≤ r))) (r - sumNat held)

/-- The share of each die: a common level, each die held to its own, in whole watts (R420; DESIGN CHOICE, log entry 42). -/
def waterFill (b : Nat) (hs : List Nat) : List Nat :=
  match waterLevel (hs.length + 1) hs b with
  | none => hs
  | some (r, n) => hs.map (fun h => min h (r / n))

/-- The phase the lantern sets a die for: that of the hint it has begun to act on, else the present one (R424). -/
def State.aimPhase (s : State) (d : Nat) : Nat :=
  match (s.clock d).ahead with
  | some h => if s.fld Reg.pwrCtrl 4 1 = 1 ∧ h ∈ s.hintsOf d then h.1 else s.phaseOf d
  | none => s.phaseOf d

/-- The shares of the dies under a cap of `c` watts (R420). -/
def State.shares (s : State) (c : Nat) : List Nat :=
  let m := s.pwr.meas
  waterFill (max (c - m.pnc) (8 * m.pmin))
    ((List.range 8).map (fun d => min (s.need d (s.aimPhase d)) (m.lim.getD d 0)))

/-- Shares a cap of `c` watts among the dies: each has its share and the step that its clock goes to under it; with too
little left, update engines and block units are limited (R420). -/
def State.shareCap (s : State) (c : Nat) : State :=
  let share := fun d => min ((s.shares c).getD d 0) 0xFFF
  let aim := fun (t : State) (d : Nat) =>
    t.setClock d { s.clock d with goal := some (s.highStep d (s.aimPhase d) (share d)) }
  { s with
    regs := ((List.range 8).foldl (fun t d => t.setFld (Reg.pwrShare d) 0 12 (share d)) s).regs
    pwr := { s.pwr with issueLimit := c < s.pwr.meas.pnc + 8 * s.pwr.meas.pmin
                        clocks := ((List.range 8).foldl aim s).pwr.clocks } }

/-- A clock and its rail stand where the lantern has set them. -/
def DieClock.placed (d : Nat) (k : DieClock) : DieClock :=
  match k.goal with
  | some g => { k with step := g, rail := railAt d g }
  | none => k

/-- Has clocks and rails stand where the lantern has set them. -/
def State.placeClocks (s : State) : State :=
  { s with pwr := { s.pwr with clocks := s.pwr.clocks.map (fun k => (k.1, k.2.placed k.1)) } }

/-! ### Clocks and rails at a tick (R421) -/

/-- A rail moves 0.1 mV in a tick and a clock one step in two; a clock is raised to a step once the rail has reached it, and
the rail falls to no less than the clock's step needs (R421; DESIGN CHOICE, log entry 62). -/
def DieClock.move (d t : Nat) (k : DieClock) : DieClock :=
  match k.goal with
  | none => k
  | some g =>
    let want := max (railAt d k.step) (railAt d g)
    let v := if k.rail < want then k.rail + 1 else if want < k.rail then k.rail - 1 else k.rail
    let f := if t % 2 = 1 then k.step
      else if k.step < g ∧ railAt d (k.step + 1) ≤ v then k.step + 1
      else if g < k.step then k.step - 1 else k.step
    { k with step := f, rail := v }

/-- How far two numbers lie apart. -/
def apart (a b : Nat) : Nat := max a b - min a b

/-- The limit of R427, in 10 µW for each tick. -/
def State.dpdt (s : State) (cap : Nat) : Nat := s.fld Reg.pwrDpdt 0 7 * cap / 100

/-- The step that a die can hold in a phase under its share, and the lead time to it in ticks (R424). -/
def State.lead (s : State) (cap d n : Nat) : Nat × Nat :=
  let k := s.clock d
  let f := s.highStep d n (s.fld (Reg.pwrShare d) 0 12)
  let a := (s.drawn d (s.phaseOf d)).at_ k.step k.rail
  let b := (s.drawn d n).at_ f (railAt d f)
  (f, max (apart (railAt d f) k.rail) (max (2 * apart f k.step)
    (ceilDiv (100000 * apart (a.1 * b.2) (b.1 * a.2)) (a.2 * b.2 * s.dpdt cap))))

/-- The earliest hint of a queue, the first among equals. -/
def earliest : List (Nat × Nat) → Option (Nat × Nat)
  | [] => none
  | h :: l => some (l.foldl (fun b x => if x.2 < b.2 then x else b) h)

/-- Begins to move a die to the point of its earliest hint, its lead time ahead of the hint's tick (R424). -/
def State.moveAhead (cap : Nat) (s : State) (d : Nat) : State :=
  match earliest (s.hintsOf d) with
  | none => s
  | some h =>
    let l := s.lead cap d h.1
    if s.pwrMode = 0 ∧ s.fld Reg.pwrCtrl 4 1 = 1 ∧ (s.clock d).ahead ≠ some h ∧ h.2 ≤ s.pitch + l.2 then
      s.setClock d { s.clock d with goal := some l.1, ahead := some h }
    else s

/-- The lantern at a tick: hints that are over are dropped, those that are due are acted on, and clocks and rails move. -/
def State.lanternTick (s : State) (cap : Nat) : State :=
  let s1 := (List.range 8).foldl (State.moveAhead cap) ((List.range 8).foldl State.dropHints s)
  if s1.tripped then s1
  else { s1 with pwr := { s1.pwr with clocks := s1.pwr.clocks.map (fun k => (k.1, k.2.move k.1 s1.pitch)) } }

/-! ### The change of input power (R426, R427) -/

/-- The release ticks ahead that the lantern knows (R427). -/
def State.releaseTicks (s : State) : List Nat :=
  ((s.step.tseal.map (fun t => t + s.fld Reg.guyBound 0 16)).toList ++ s.pwr.hints.flatMap (fun q => q.2.map (·.2))
    ++ s.cells.flatMap (fun k => k.2.lq.filterMap (fun e => match e.work with | .mx _ => some e.target | _ => none))).filter
    (fun t => s.pitch < t)

/-- The phase forecast for a die at a tick: that of its last hint up to it, else the present one. -/
def State.phaseBy (s : State) (d t : Nat) : Nat :=
  (((s.hintsOf d).filter (fun h => h.2 ≤ t)).foldl
    (fun b h => if (b.map (·.2)).getD 0 ≤ h.2 then some h else b) none).elim (s.phaseOf d) (·.1)

/-- The forecast demand at a tick in watts, each die held to its share (DESIGN CHOICE, log entry 62). -/
def State.demandAt (s : State) (t : Nat) : Nat :=
  s.pwr.meas.pnc + sumNat ((List.range 8).map (fun d => min (s.need d (s.phaseBy d t)) (s.fld (Reg.pwrShare d) 0 12)))

/-- The least power, in 10 µW, from which the demand of every release tick can be reached in time (R427). -/
def State.releaseFloor (s : State) (cap : Nat) : Nat :=
  s.releaseTicks.foldl (fun b t => max b (100000 * s.demandAt t - s.dpdt cap * (t - s.pitch))) 0

/-- The level of input power for the next period: what real work draws, or by kindling more than that, as R427 asks; kindling
never raises it above the cap (R426). -/
def State.nextLevel (s : State) (cap : Nat) : Nat :=
  let work := 100000 * s.pwr.meas.now - s.pwr.kindle
  let step := 256 * s.dpdt cap
  if s.fld Reg.pwrCtrl 1 1 = 1 then
    max work (min (100000 * cap) (min (s.pwr.level + step) (max (s.pwr.level - step) (s.releaseFloor cap))))
  else work

/-- Sets the level and the kindling that makes up the difference (R426, R427). -/
def State.kindleTo (s : State) (cap : Nat) : State :=
  let l := s.nextLevel cap
  { s with pwr := { s.pwr with level := l, kindle := l - (100000 * s.pwr.meas.now - s.pwr.kindle) } }

/-- Adds a control period's kindling to PWR_KINDLE in whole mJ (R428). -/
def State.countKindle (s : State) : State :=
  let r := s.pwr.kindleRest + 256 * s.pwr.kindle
  ({ s with pwr := { s.pwr with kindleRest := r % 10 ^ 10 } }).setReg64 Reg.pwrKindleLo Reg.pwrKindleHi
    ((s.reg64 Reg.pwrKindleLo Reg.pwrKindleHi + r / 10 ^ 10) % 2 ^ 64)

end Sys2Proof.Machine
end

