-- ==== Sys2Proof/Machine/Ports.lean ====
section
/-! DEFINITION. Fabric ports and the flits they receive (R328 to R346, R351, R352). -/

namespace Sys2Proof.Machine

/-! ### Leaving UP and entering it (R342, R345) -/

/-- What stays queued when port `p` goes down: messages under way there are lost, and credits of flits held there are no
longer returned. -/
def keepQueued (p : Nat) (here : Bool) (x : Queued) : Option Queued :=
  if here ∧ x.left < x.msg.flits then none
  else if x.msg.back.map (·.1) = some p then some { x with msg := { x.msg with back := none } } else some x

/-- The flits in flight on a port that leaves UP or FENCED are lost (R345); what waits there goes on waiting (R352). -/
def State.loseFlits (s : State) (p : Nat) : State :=
  let lost := (s.port p).queue.filter (fun x => x.left < x.msg.flits)
  let s1 := lost.foldl (fun t x => t.giveBack x.msg x.left) s
  (List.range 24).foldl (fun t i =>
    t.setPort i { t.port i with queue := (t.port i).queue.filterMap (keepQueued p (i == p)) }) s1

/-- Puts a port into a state that carries no messages: a port that was UP reports FAB_PORT_DOWN, and GUY_LINK_DOWN where it
exchanged guyline cells (R59, R342, R365). -/
def State.portLeave (s : State) (p : Nat) (m : PortMode) : State :=
  let q := s.port p
  let s1 := s.loseFlits p
  let s2 := s1.setPort p { s1.port p with mode := m, stuck := false, guyHeard := false, guyMiss := 0, guyQ := [],
                                               symbols := [] }
  if q.mode = .up then
    let s3 := s2.report 0x0402 (unitPort p) (p + 2 ^ 5 * q.failed)
    if s.guyPort p ∧ q.guyHeard then s3.report 0x0110 (unitPort p) p else s3
  else s2

/-- Enters TRAIN (Table 11-7). -/
def State.enterTrain (s : State) (p : Nat) : State :=
  let s1 := s.portLeave p .train
  (s1.setPort p { s1.port p with lanes := 0 }).bump (Reg.fabPortRetrains p)

/-- Enters UP: FAB_PORT_UP, on two lanes FAB_PORT_DEGRADED, and what is reported of a guyline port (R57, R342, R344). -/
def State.enterUp (s : State) (p : Nat) : State :=
  let q := s.port p
  let s1 := (s.setPort p { q with mode := .up }).report 0x0401 (unitPort p)
    (p + 2 ^ 5 * q.lanes + 2 ^ 9 * q.peerAddr.toNat)
  let s2 := if q.laneCount = 2 then s1.report 0x0403 (unitPort p) (p + 2 ^ 5 * q.lanes) else s1
  (if s.guyPort p then s2.guyNote p else s2).pump p

/-! ### Commands of a port (Table 11-7) -/

/-- PORT_ENABLE: FAB_PORT_CTRL.EN written 1; failed marks of a disabled port are cleared (R343). -/
def execPortEnable (p : Nat) (s : State) : Out :=
  onUnit (p < 24) (whenOk s.up s
    (let s1 := s.setFld (Reg.fabPortCtrl p) 0 1 1
     if (s.port p).mode = .disabled then (s1.setPort p { s1.port p with failed := 0 }).enterTrain p else s1))

/-- PORT_DISABLE: FAB_PORT_CTRL.EN written 0. -/
def execPortDisable (p : Nat) (s : State) : Out :=
  onUnit (p < 24) (whenOk s.up s
    (let s1 := (s.setFld (Reg.fabPortCtrl p) 0 1 0).portLeave p .disabled
     s1.setPort p { s1.port p with lanes := 0 }))

/-- UNFENCE: the new serial is recorded and the port goes to UP. -/
def execUnfence (p : Nat) (s : State) : Out :=
  onUnit (p < 24) (whenOk (s.up && (s.port p).mode == .fenced) s
    ((s.setPort p { s.port p with recorded := some (s.port p).peerSerial }).enterUp p))

/-- Lanes that training uses: all four if both ends offer them, else the lower pair that both offer (R344). -/
def trainLanes (failed : Nat) (lanes2 four low high : Bool) : Nat :=
  let own4 := failed % 16 == 0 && !lanes2
  if own4 && four then 15
  else if failed % 4 = 0 ∧ (four ∨ low) then 3
  else if failed / 4 % 4 = 0 ∧ (four ∨ high) then 12
  else 0

/-- TRAIN_COMPLETE (R344), with what the other end offers: all four lanes, the low pair, the high pair. With no usable
lanes the port holds in TRAIN and reports FAB_PORT_DOWN. -/
def execTrainComplete (p : Nat) (four low high : Bool) (s : State) : Out :=
  onUnit (p < 24) (whenOk (s.up && (s.port p).mode == .train) s
    (let q := s.port p
     let l := trainLanes q.failed (s.fld (Reg.fabPortCtrl p) 1 1 == 1) four low high
     if l ≠ 0 then s.setPort p { q with mode := .align, lanes := l, stuck := false }
     else if q.stuck then s
     else (s.setPort p { q with stuck := true }).report 0x0402 (unitPort p) (p + 2 ^ 5 * q.failed)))

/-- ALIGN_COMPLETE. -/
def execAlignComplete (p : Nat) (s : State) : Out :=
  onUnit (p < 24) (whenOk (s.up && (s.port p).mode == .align) s (s.setPort p { s.port p with mode := .ident }))

/-- ALIGN_TIMEOUT. -/
def execAlignTimeout (p : Nat) (s : State) : Out :=
  onUnit (p < 24) (whenOk (s.up && (s.port p).mode == .align) s (s.enterTrain p))

/-- Is a cable identity memory valid: VERSION and CHECK (Table 11-8)? -/
def cableOk (b : List Byte) : Bool := 64 ≤ b.length && leNat (b.take 2) == 1 && sumNat ((b.take 64).map BitVec.toNat) % 256 == 0

/-- A field of a cable identity memory. -/
def cableField (b : List Byte) (i n : Nat) : Nat := leNat ((b.drop i).take n)

/-- Takes a cable identity memory as read; one that is not valid counts as ASYM unknown (R346). -/
def State.takeCable (s : State) (p : Nat) (b : List Byte) : State :=
  let ok := cableOk b
  let asym := if ok then cableField b 14 2 else 0x8000
  let s1 := s.setReg (Reg.fabPortCable p)
    (BitVec.ofNat 32 (asym + 2 ^ 16 * (if ok then cableField b 10 2 else 0)))
  let s2 := s1.setPort p { s1.port p with cableSerial := if ok then cableField b 2 8 else 0 }
  if ok then s2 else s2.report 0x0405 (unitPort p) p

/-- IDENT_COMPLETE: the peer's identity and the cable memory, empty where it cannot be read. The port goes to UP, or to
FENCED where the peer is not the recorded one (Table 11-7). -/
def execIdentComplete (p serial : Nat) (addr : BitVec 17) (valid : Bool) (peerPort : Nat) (cable : List Byte)
    (s : State) : Out :=
  onUnit (p < 24) (whenOk (s.up && (s.port p).mode == .ident) s
    (let s1 := s.takeCable p cable
     let q : Port := { s1.port p with peerSerial := serial % 2 ^ 64, peerAddr := addr, peerValid := valid,
                                      peerPort := peerPort % 2 ^ 5, used := [], sent := [], returned := [],
                                      received := [], freed := [] }
     if q.recorded = none ∨ q.recorded = some q.peerSerial then
       (s1.setPort p { q with recorded := some q.peerSerial }).enterUp p
     else ((s1.setPort p { q with mode := .fenced }).report 0x0404 (unitPort p) p).pump p))

/-- A lane has a fault (R343): it is marked failed and the port returns to TRAIN. -/
def State.laneDown (s : State) (p lane : Nat) : State :=
  let q := s.port p
  (s.setPort p { q with failed := putField q.failed lane 1 1 }).enterTrain p

/-- LANE_FAULT (R343): a lane in use has lost its signal or its codeword lock. With `lane` 4 no lane is at fault and the peer
is lost: the port returns to TRAIN with its lanes as they are marked (Table 11-7; DESIGN CHOICE, log entry 41). -/
def execLaneFault (p lane : Nat) (s : State) : Out :=
  onUnit (p < 24) (whenOk (s.up && lane ≤ 4 && (if lane < 4 then (s.port p).lanes.testBit lane else (s.port p).lanes != 0)) s
    (if lane < 4 then s.laneDown p lane else s.enterTrain p))

/-- Does a port receive flits? -/
def Port.receives (q : Port) : Bool := q.mode == .up || q.mode == .fenced

/-- The symbol errors of a port's lanes in the present interval of 1,024 ticks, with those of a report added. -/
def State.symbolsNow (s : State) (p : Nat) (f : Fec) : List Nat :=
  let q := s.port p
  let old := if q.symbolsIn = s.pitch / 1024 then q.symbols else []
  (List.range 4).map (fun i => old.getD i 0 + f.symbols.getD i 0)

/-- Takes what the FEC has corrected: codewords are counted, and a lane with more than FAB_LANE_LIMIT symbol errors in an
interval has a fault (R343, Table 11-12). -/
def State.fecTake (s : State) (p : Nat) (f : Fec) : State :=
  let l := s.symbolsNow p f
  let s1 := (s.setPort p { s.port p with symbols := l, symbolsIn := s.pitch / 1024 }).bumpUnits (Reg.fabPortFecCorr p) f.words
  match (List.range 4).find? (fun i => (s.port p).lanes.testBit i && s.fld Reg.fabLaneLimit 0 24 < l.getD i 0) with
  | some i => s1.laneDown p i
  | none => s1

/-- CODEWORD_UNCORRECTABLE (R331): it is counted, and no unit that had a byte in it arrives: a flit lost so is missing from
its message. A unit of a type that is not listed is dropped and counted in the same way. -/
def execCodewordUncorrectable (p : Nat) (s : State) : Out :=
  onUnit (p < 24) (whenOk (s.up && ((s.port p).mode == .ident || (s.port p).receives)) s (s.bump (Reg.fabPortFecUncorr p)))

/-! ### Link flits (R336) -/

/-- Counts flits received on a port in FAB_PORT_RX_FLITS. -/
def State.countRx (s : State) (p n : Nat) : State :=
  let q := s.port p
  (s.setPort p { q with rxRest := (q.rxRest + n) % 1024 }).bumpUnits (Reg.fabPortRxFlits p) ((q.rxRest + n) / 1024)

/-- Takes a credit return: a cumulative count modulo 256. -/
def Port.takeReturn (q : Port) (i count : Nat) : Port :=
  let d := (count % 256 + 256 - countAt q.returned i % 256) % 256
  { q with used := setCount q.used i (countAt q.used i - d), returned := setCount q.returned i (count % 256) }

/-- Takes the credit return of a flit; pool 3 carries none. -/
def Port.takeCredit (q : Port) (vl pool count : Nat) : Port :=
  if 7 ≤ vl ∨ 3 ≤ pool then q else q.takeReturn (laneIdx vl pool) count

/-- LINK_FLIT_RECEIVE: the return is taken, and then what the FEC has corrected. -/
def execLinkFlitReceive (port vl pool count : Nat) (fec : Fec) (s : State) : Out :=
  onUnit (port < 24) (whenOk (s.up && (s.port port).receives) s
    (let s1 := s.countRx port 1
     ((s1.setPort port ((s1.port port).takeCredit vl pool count)).pump port).fecTake port fec))

/-- Flits of one lane and pool that the other end has not received of those sent. -/
def Port.lostAt (q : Port) (counts : List Nat) (i : Nat) : Nat :=
  (countAt q.sent i % 256 + 256 - counts.getD i 0 % 256) % 256

/-- Restores the credits of lost flits of one lane and pool. -/
def restoreAt (counts : List Nat) (q : Port) (i : Nat) : Port :=
  let d := q.lostAt counts i
  { q with used := setCount q.used i (countAt q.used i - d), sent := setCount q.sent i (countAt q.sent i - d) }

/-- Sends the cumulative counts of flits received on a port, as each receiver does every 1,024 ticks (R336). -/
def State.sendCredits (s : State) (p : Nat) : State :=
  let q := s.port p
  if q.receives then s.emit (.credits p ((List.range 21).map (fun i => countAt q.received i % 256)) (s.portId p)) else s

/-- CREDIT_REPORT: the port takes the counts of the other end (at index `3 × vl + pool`), restores the credits of flits lost
on the wire and counts them. -/
def execCreditReport (port : Nat) (counts : List Nat) (s : State) : Out :=
  onUnit (port < 24) (whenOk (s.up && (s.port port).receives) s
    (let q := s.port port
     let lost := sumNat ((List.range 21).map (q.lostAt counts))
     let s2 := s.setPort port ((List.range 21).foldl (restoreAt counts) q)
     ((s2.bumpBy (Reg.fabPortFlitsLost port) lost).countRx port 1).pump port))

/-! ### Data flits (R334, R349, R352) -/

/-- A kind of discovery. -/
def isDisc (h : Hdr) : Bool := h.kind == 0x0A || h.kind == 0x0B || h.kind == 0x0C

/-- The index of the next hop of a route, and port number `i` of it (R349). -/
def routeIdx (h : Hdr) : Nat := h.arg.toNat / 2 ^ 120 % 2 ^ 5
/-- Port field `i` of a route. -/
def routePort (h : Hdr) (i : Nat) : Nat := h.arg.toNat / 2 ^ (5 * i) % 2 ^ 5

/-- Is a source-routed request at the end of its route (R349)? -/
def routeDone (h : Hdr) : Bool := 24 ≤ routeIdx h || routePort h (routeIdx h) == 31

/-- A request with the index of its next hop moved on. -/
def routeStep (h : Hdr) : Hdr :=
  { h with arg := BitVec.ofNat 128 (putField h.arg.toNat 120 5 (routeIdx h + 1)) }

/-- The key under which the port of arrival of a request is recorded: its SRC and TAG (R349). -/
def routeKey (src : BitVec 17) (h : Hdr) : Nat × Nat := (src.toNat, h.tag.toNat)

/-- Records the port on which a request arrived. -/
def State.recordRoute (s : State) (k : Nat × Nat) (p : Nat) : State :=
  { s with fab := { s.fab with routes := s.fab.routes.filter (fun x => x.1 != k) ++ [(k, p)] } }

/-- The port recorded for a request. -/
def State.routeBack (s : State) (k : Nat × Nat) : Option Nat := (s.fab.routes.find? (fun x => x.1 == k)).map (·.2)

/-- Sends a discovery message out of a port that can carry lane 6; on any other it is lost (DESIGN CHOICE, log entry 41). -/
def State.discOut (s : State) (p : Nat) (m : Msg) : State :=
  if p < 24 ∧ (s.port p).receives then s.enqueue p (1 + b2n m.esc) m else s.giveBack m m.flits

/-- Is a discovery message at its destination: a request at the end of its route, an answer at the module that sent the
request? -/
def State.discHere (s : State) (h : Hdr) : Bool :=
  if h.resp then s.fld Reg.fabAddr 31 1 == 1 && h.dst.toNat == s.ownAddr else routeDone h

/-- Passes on a discovery message that is not for this module: a request out of the port its route names, an answer out
of the port recorded for its request (R349, R355). -/
def State.discForward (s : State) (port : Nat) (m : Msg) : State :=
  if m.hops = 0 then s.ttlDrop m
  else
    let n := { m with hops := m.hops - 1 }
    if m.h.resp then
      match s.routeBack (routeKey m.h.dst m.h) with
      | some p => s.discOut p n
      | none => s.giveBack m m.flits
    else
      (s.recordRoute (routeKey m.h.src m.h) port).discOut (routePort m.h (routeIdx m.h)) { n with h := routeStep m.h }

/-- The credit pool that a message arrives in: with AR it may be the adaptive pool, which the head flit does not show
(DESIGN CHOICE, log entry 41). -/
def State.arrivalPool (s : State) (ar esc : Bool) : Nat × State :=
  if ar then (if Config.freeBool s.free then 0 else 1 + b2n esc, { s with free := s.free + 1 }) else (1 + b2n esc, s)

/-- A message has come in on a port: lanes 0 to 5 are accepted only while the fabric is on (R347). -/
def State.arrive (s : State) (port : Nat) (m : Msg) : State :=
  if isDisc m.h then (if s.discHere m.h then s.deliver m else s.discForward port m)
  else if m.vl < 6 ∧ s.fabOn = false then s.giveBack m m.flits
  else s.route (some port) m

/-- HEAD_FLIT_ROUTE (R352): a message arrives on a port, in the flits that have arrived of it; each may return credits
(R336). Flits without SOM at the message's start are dropped, and the message is counted (R334). A FENCED port has lane 6
only. -/
def execHeadFlitRoute (port vl : Nat) (ar esc : Bool) (hops : Nat) (flits : List Flit) (fec : Fec) (h : Hdr)
    (payload : List Byte) (s : State) : Out :=
  onUnit (port < 24) (whenOk (s.up && vl < 7 && ((s.port port).mode == .up || ((s.port port).mode == .fenced && vl == 6))) s
    (let r := s.arrivalPool ar esc
     let n := flits.length
     let s1 := r.2.countRx port n
     let q := flits.foldl (fun k f => k.takeCredit f.crvl f.crpool f.crcnt) (s1.port port)
     let i := laneIdx vl r.1
     let s2 := s1.setPort port { q with received := setCount q.received i (countAt q.received i + n) }
     let m : Msg := { h := h, payload := payload, vl := vl, ar := ar, esc := esc, hops := hops % 64,
                      intact := flitsWhole h flits, got := some n, back := some (port, r.1) }
     let s3 := if (flits.head?.map (·.som)) = some true then s2.arrive port m else (s2.giveBack m n).bump Reg.fabIncomplete
     (s3.pump port).fecTake port fec))

/-- ROUTE_ENTRY_WRITE (R351). -/
def execRouteEntryWrite (a : Nat) (v : W32) (s : State) : Out :=
  .next (whenOk (s.up && a < 2 ^ 17) s (s.setReg (Reg.fabRt a) v))

end Sys2Proof.Machine
end

