-- ==== Sys2Proof/Machine/Power.lean ====
section
/-! DEFINITION. Power, supply following, PMBus, air and heat (R410 to R440, R513, R514). -/

namespace Sys2Proof.Machine

/-! ### The effective cap (R412, R419, R440) -/

/-- Input power of the last control period, in watts. -/
def State.powerNow (s : State) : Nat := s.fld Reg.pwrPower 0 12

/-- PWR_CAP, and the shelf's budget where one is valid. -/
def State.givenCaps (s : State) : Nat × Option Nat :=
  (s.fld Reg.pwrCap 0 12, if s.fld Reg.pwrBudget 31 1 = 1 then some (s.fld Reg.pwrBudget 0 12) else none)

/-- The terms of R412 with their LIMIT codes; in SHED and BIVOUAC PWR_CAP and the budget are those held at entry (R419). -/
def State.capTerms (s : State) : List (Nat × Nat) :=
  let hs := s.pwr.heldCaps.getD s.givenCaps
  let biv := s.fld Reg.pwrBivouac 0 12
  [(hs.1, 0)] ++ (if s.fld Reg.pwrCtrl 0 1 = 1 then (hs.2.map (fun b => (b, 1))).toList else [])
    ++ (if s.fld Reg.pwrCtrl 2 1 = 1 then (s.pwr.airCap.map (fun a => (a, 2))).toList else [])
    ++ (if s.pwrMode = 1 ∨ s.pwrMode = 2 then [(biv, 3)] else [])
    ++ (if s.pwr.hsValid then [] else [(biv, 4)])

/-- The lowest term; the first of the list among equals (DESIGN CHOICE, log entry 42). -/
def lowestTerm (l : List (Nat × Nat)) : Nat × Nat := l.foldl (fun b x => if x.1 < b.1 then x else b) (l.headD (2000, 0))

/-- The effective cap in watts and its source (R412). -/
def State.capEff (s : State) : Nat × Nat :=
  let t := lowestTerm s.capTerms
  (holdTo 600 2000 t.1, if s.tripped then 5 else t.2)

/-- Reports CAP_CHANGED when LIMIT changes or the cap has moved by 50 W or more (R440). -/
def State.capNote (s : State) : State :=
  let c := s.capEff
  let moved := if c.1 ≤ s.pwr.told.1 then s.pwr.told.1 - c.1 else c.1 - s.pwr.told.1
  if c.2 = s.pwr.told.2 ∧ moved < 50 then s
  else ({ s with pwr := { s.pwr with told := c } }).report 0x0208 unitMgmt (c.1 + 2 ^ 12 * c.2)

/-! ### Modes (R413, Table 14-1) -/

/-- Ends an excursion; as long again must pass before the next (R416). -/
def State.endExcursion (s : State) : State :=
  match s.pwr.excFrom with
  | none => s
  | some t => { s with pwr := { s.pwr with excFrom := none, excNotBefore := s.pitch + (s.pitch - t) } }

/-- Discards the samples of the phases that end by leaving NORMAL (R423). -/
def State.voidSamples (s : State) : State :=
  (List.range 8).foldl (fun t d => t.setPhaseAcc d { t.phaseAcc d with void := true }) s

/-- What leaving NORMAL ends (R419, R423, Table 14-3). -/
def State.leaveNormal (s : State) : State :=
  let s1 := s.endExcursion.voidSamples
  { s1 with pwr := { s1.pwr with kindle := 0 } }

/-- Holds the host's and the shelf's terms while the module is in SHED or BIVOUAC (R419). -/
def State.holdCaps (s : State) : State :=
  if s.pwr.heldCaps.isSome then s
  else { s with pwr := { s.pwr with heldCaps := some s.givenCaps } }

/-- Enters BIVOUAC with a cause (Table 14-10). -/
def State.enterBivouac (s : State) (cause : Nat) : State :=
  (({ s with pwr := { s.pwr with bivouacFrom := some s.pitch } }).bump Reg.pwrBivouacs).report 0x0202 unitMgmt
    (cause + 2 ^ 16 * s.powerNow)

/-- Enters NORMAL: target and level start from the present power, and BIVOUAC_EXIT is reported where BIVOUAC ends (R418). -/
def State.enterNormal (s : State) (old : Nat) : State :=
  let p := { s.pwr with heldCaps := none, target := 100000 * s.powerNow, level := 100000 * s.powerNow }
  let s1 := { s with pwr := { p with halfRate := false, bivouacFrom := none } }
  if old = 2 then s1.report 0x0203 unitMgmt ((s.pitch - s.pwr.bivouacFrom.getD s.pitch) / 1024) else s1

/-- What a change of mode from `old` brings about; `cause` is for BIVOUAC_ENTER. -/
def State.settleMode (s : State) (old cause : Nat) : State :=
  let m := s.pwrMode
  let s1 := if old = 0 ∧ m ≠ 0 then s.leaveNormal else s
  let s2 := if m = 1 ∨ m = 2 then s1.holdCaps else s1
  let s3 := if m = 2 ∧ old ≠ 2 then s2.enterBivouac cause else s2
  (if m = 0 ∧ old ≠ 0 then s3.enterNormal old else s3).capNote

/-! ### Supply warning (R410, R417, R418, R513, R514) -/

/-- Starts the shed sequence (Table 14-3). -/
def State.startShed (s : State) (input : Bool) : State :=
  let p := { s.pwr with warned := true, clearedAt := none }
  if s.pwr.shed then { s with pwr := p }
  else
    let s1 := { s with pwr := { p with shed := true, shedInput := input, shedPower := s.powerNow, divider := true,
                                        halfRate := true } }
    (s1.bump Reg.pwrSheds).settleMode s.pwrMode 1

/-- Takes a warning: before the firmware runs only the status bits show it (R514). -/
def State.takeWarn (s : State) (input : Bool) : State := if s.up then s.startShed input else s

/-- The pin is taken as low. -/
def State.warnLow (s : State) : State := ({ s with pwr := { s.pwr with warnPin := true } }).takeWarn false

/-- PSU_WARN_ASSERT (R417, R513), with how long the pin is low: 50 ns or longer is always taken, a shorter low may be ignored
(DESIGN CHOICE, log entry 6). -/
def execPsuWarnAssert (ns : Nat) (s : State) : Out :=
  .next (whenOk (s.alive && !s.pwr.warnPin) s
    (if 50 ≤ ns then s.warnLow
     else
       let t := { s with free := s.free + 1 }
       if Config.freeBool s.free then t.warnLow else t))

/-- VIN_LOW (R410). -/
def execVinLow (s : State) : Out :=
  .next (whenOk (s.alive && !s.pwr.inputLow) s (({ s with pwr := { s.pwr with inputLow := true } }).takeWarn true))

/-- SHED_COMPLETE (R417): clocks and rails stand where the lantern has set them for PWR_BIVOUAC, the divider is removed, and
the groundsheets' limit is lifted if that cap allows it. -/
def execShedComplete (s : State) : Out :=
  .next (whenOk (s.up && s.pwr.shed) s
    (let s0 := (s.shareCap (s.fld Reg.pwrBivouac 0 12)).placeClocks
     let s1 := { s0 with pwr := { s0.pwr with shed := false, divider := false, halfRate := s0.pwr.issueLimit } }
     (s1.report 0x0201 unitMgmt (b2n s.pwr.shedInput + 2 ^ 16 * s.pwr.shedPower)).settleMode s.pwrMode 1))

/-- PSU_WARN_CLEAR (R513, R410): the pin, or the input, has recovered; with both clear the hold time starts. -/
def execPsuWarnClear (input : Bool) (s : State) : Out :=
  let p := s.pwr
  .next (whenOk (s.alive && (if input then p.inputLow else p.warnPin)) s
    (let pin := if input then p.warnPin else false
     let low := if input then false else p.inputLow
     { s with pwr := { p with warnPin := pin, inputLow := low,
                              clearedAt := if p.warned && !pin && !low then some s.pitch else p.clearedAt } }))

/-- Has the hold time of a warning ended (R418)? -/
def State.holdOver (s : State) : Bool :=
  match s.pwr.clearedAt with
  | some t => s.pwr.warned && !s.pwr.shed && t + 1024 * s.fld Reg.pwrWarnCtrl 8 16 ≤ s.pitch
  | none => false

/-- WARN_HOLD_EXPIRY (R418). -/
def execWarnHoldExpiry (s : State) : Out :=
  .next (whenOk (s.up && s.holdOver) s
    (({ s with pwr := { s.pwr with warned := false, clearedAt := none } }).settleMode s.pwrMode 2))

/-! ### The lantern (R415, R416, R420 to R428) -/

/-- Is an excursion allowed now: enabled in NORMAL, within its 10 ms and after its hold-off, with the 100 ms mean below the
cap (R416)? -/
def State.excursionOk (s : State) : Bool :=
  s.pwrMode == 0 && s.fld Reg.pwrCtrl 3 1 == 1 && s.pwr.excNotBefore ≤ s.pitch
    && s.fld Reg.pwrPower 16 12 < s.capEff.1
    && s.pwr.excFrom.elim true (fun t => s.pitch < t + 1000000)

/-- Moves the target towards the cap, by what a control period of 256 ticks allows (R415, R427). -/
def State.moveTarget (s : State) : State :=
  let cap := s.capEff.1
  let goal := 100000 * cap
  let ramp := 256 * s.fld Reg.pwrRamp 0 10
  let rise := min ramp (256 * (s.fld Reg.pwrDpdt 0 7 * cap) / 100)
  let t := s.pwr.target
  { s with pwr := { s.pwr with target := if t < goal then min goal (t + rise) else max goal (t - ramp) } }

/-- The cap that a control period shares: PWR_PEAK while an excursion is allowed, else the target, in both cases no more
than R427 lets the power rise to in the period (R415, R416, R420). -/
def State.capNow (s : State) : Nat :=
  min (if s.excursionOk then 100000 * s.fld Reg.pwrPeak 0 12 else s.pwr.target) (s.pwr.level + 256 * s.dpdt s.capEff.1) / 100000

/-- Takes what was measured of a die: its power and the sample of its phase (R420, R423). -/
def State.measureDie (m : Meas) (s : State) (d : Nat) : State :=
  let p := m.die.getD d 0
  let a := s.phaseAcc d
  (s.setFld (Reg.pwrDie d) 16 12 (min p 0xFFF)).setPhaseAcc d
    { a with energy := a.energy + p, peak := max a.peak p, steps := a.steps + (s.clock d).step, periods := a.periods + 1 }

/-- Adds to a 64-bit energy counter. -/
def State.addEnergy (s : State) (lo hi n : Nat) : State := s.setReg64 lo hi ((s.reg64 lo hi + n) % 2 ^ 64)

/-- Begins or ends an excursion by the power measured, and counts time above the cap (R416). -/
def State.watchCap (s : State) (now : Nat) : State :=
  if s.capEff.1 < now then
    let r := s.pwr.excRest + 256
    let s1 := { s with pwr := { s.pwr with excRest := r % 1024,
                                           excFrom := if s.pwr.excFrom.isNone && s.excursionOk then some s.pitch
                                             else s.pwr.excFrom } }
    if 1024 ≤ r then s1.bump Reg.pwrExcTime else s1
  else s.endExcursion

/-- A BIVOUAC that only a cleared trip has caused ends with the next control period (R436; DESIGN CHOICE, log entry 42). -/
def State.endTripCause (s : State) : State :=
  if s.pwr.tripCleared ∧ s.tripped = false ∧ s.pwr.shed = false ∧ s.pwr.warned = false ∧ s.pwr.airStop = false then
    ({ s with pwr := { s.pwr with tripCleared := false } }).settleMode s.pwrMode 3
  else s

/-- CONTROL_PERIOD (R420): what was measured over 256 ticks is shown; in NORMAL the target and the level move, the cap is
shared anew and kindling set (DESIGN CHOICE, log entry 53: the sender keeps the cadence). -/
def execControlPeriod (m : Meas) (s : State) : Out :=
  .next (whenOk s.up s
    (let s1 := (s.setReg Reg.pwrPower (BitVec.ofNat 32 (min m.now 0xFFF + 2 ^ 16 * min m.mean 0xFFF))).setReg Reg.pwrVin
       (BitVec.ofNat 32 (min m.mv 0xFFFF))
     let s2 := (s1.setReg Reg.pwrIin (BitVec.ofNat 32 (min (m.ma / 10) 0xFFFF))).addEnergy Reg.pwrEnergyLo
       Reg.pwrEnergyHi m.energy
     let s3 := (List.range 8).foldl (State.measureDie m) s2.countKindle
     let s4 := ({ s3 with pwr := { s3.pwr with meas := m } }).watchCap m.now
     let s5 := if s4.pwrMode = 0 then
         let t := s4.moveTarget.kindleTo s4.capEff.1
         t.shareCap t.capNow
       else s4
     s5.endTripCause.capNote))

/-- Has an excursion lasted 10 ms (R416)? -/
def State.excursionOver (s : State) : Bool := s.pwrMode == 0 && s.pwr.excFrom.elim false (fun t => t + 1000000 ≤ s.pitch)

/-- EXCURSION_TIMEOUT (R416): the excursion ends, and clocks are lowered for the effective cap. -/
def execExcursionTimeout (s : State) : Out :=
  .next (whenOk (s.up && s.excursionOver) s ((s.endExcursion.shareCap s.capEff.1).report 0x020A unitMgmt s.powerNow))

/-! ### Air (R431 to R434) -/

/-- Points of a heatsink curve as its memory gives them; none unless there are 2 to 8 with strictly rising airflow. -/
def curveOf (b : List Byte) : List (Nat × Nat) :=
  let n := cableField b 10 1
  let ps := (List.range n).map (fun i => (cableField b (16 + 4 * i) 2, cableField b (18 + 4 * i) 2))
  if 2 ≤ n ∧ n ≤ 8 ∧ ascending (ps.map (·.1)) then ps else []

/-- Takes a heatsink identity memory as read (R431); an empty list is one that cannot be read. -/
def State.takeHeatsink (s : State) (b : List Byte) : State :=
  if cableOk b then
    let s1 := { s with pwr := { s.pwr with hsValid := true, curve := curveOf b } }
    (s1.setFld Reg.thmAir 16 16 (cableField b 12 2)).setReg64 Reg.thmHsSerialLo Reg.thmHsSerialHi (cableField b 2 8)
  else ({ s with pwr := { s.pwr with hsValid := false } }).report 0x0209 unitMgmt (b2n (64 ≤ b.length))

/-- REREAD (R431). -/
def execReread (b : List Byte) (s : State) : Out := .next (whenOk s.up s (s.takeHeatsink b).capNote)

/-- The thermal resistance at an airflow of `qn / qd`, in 0.1 mK/W, as a ratio (R432). -/
def rthAt (qn qd : Nat) : List (Nat × Nat) → Nat × Nat
  | [] => (0, 1)
  | [(_, r)] => (r, 1)
  | (q0, r0) :: (q1, r1) :: l =>
    if qn < q0 * qd then (r0 * q0 * qd, qn)
    else if qn < q1 * qd then
      -- r0 and r1 weighted by the distances to the other point
      (r0 * (q1 * qd - qn) + r1 * (qn - q0 * qd), (q1 - q0) * qd)
    else rthAt qn qd ((q1, r1) :: l)

/-- A ratio rounded to the nearest whole number. -/
def roundDiv (n d : Nat) : Nat := (2 * n + d) / (2 * d)

/-- The air cap: (THM_TJ_TARGET − T_in) ÷ R_th in whole watts, the inlet in 1/256 °C (R432). -/
def airCapAt (tj : Nat) (tin : Int) (r : Nat × Nat) : Nat :=
  10000 * (256 * (tj : Int) - tin).toNat * r.2 / (256 * r.1)

/-- The airflow in 0.1 L/s as a ratio; with an outlet no warmer than the inlet the manual states none (DESIGN CHOICE, log entry 42). -/
def State.airflow (s : State) (mean : Nat) (tin tout : Int) : (Nat × Nat) × State :=
  if tin < tout then ((6400 * mean, 3 * (tout - tin).toNat), s)
  else
    let r := s.drawNat
    ((r.1, 1), r.2)

/-- The resistance at an airflow; free where the curve gives none (DESIGN CHOICE, log entry 42). -/
def State.rth (s : State) (q : Nat × Nat) : (Nat × Nat) × State :=
  let r := rthAt q.1 q.2 s.pwr.curve
  if 0 < r.1 ∧ 0 < r.2 then (r, s)
  else
    let f := s.drawNat
    ((f.1 + 1, 1), f.2)

/-- Takes an estimate of airflow: THM_AIR, and with a valid heatsink THM_RTH and the air cap (R432). -/
def State.takeAir (s : State) (tin : Int) (q : Nat × Nat) : State :=
  let s1 := s.setFld Reg.thmAir 0 16 (min (roundDiv q.1 q.2) 0xFFFF)
  if s.pwr.hsValid then
    let r := s1.rth q
    let cap := airCapAt (s.fld Reg.thmTjTarget 0 8) tin r.1
    let enough := s.fld Reg.thmAir 16 16 * q.2 ≤ q.1
    let s2 := r.2.setReg Reg.thmRth (BitVec.ofNat 32 (min (roundDiv r.1.1 r.1.2) 0xFFFF))
    let good := if enough then min (s2.pwr.goodAir + 1) 10 else 0
    { s2 with pwr := { s2.pwr with airCap := some cap, airBad := !enough, goodAir := good } }
  else s1

/-- Does either condition of R433 hold? -/
def State.airPoor (s : State) : Bool :=
  (lowestTerm s.capTerms).2 == 2 || s.pwr.airBad

/-- Sets and clears AIR_LOW (R433). -/
def State.noteAir (s : State) : State :=
  let p := s.pwr
  if s.airPoor then
    let s1 := { s with pwr := { p with airLow := true, airOkFrom := none } }
    if p.airLow then s1
    else s1.report 0x0204 unitMgmt (s.fld Reg.thmAir 0 16 + 2 ^ 16 * min (p.airCap.getD 0) 0xFFF)
  else
    let t := p.airOkFrom.getD s.pitch
    if p.airLow ∧ t + 100000000 ≤ s.pitch then { s with pwr := { p with airLow := false, airOkFrom := none } }
    else { s with pwr := { p with airOkFrom := some t } }

/-- Clears AIR_STOP once both of its conditions are gone (R434). -/
def State.clearAirStop (s : State) : State :=
  if s.pwr.airStop ∧ 10 ≤ s.pwr.goodAir ∧ s.pwr.hotSlope = false then
    ({ s with pwr := { s.pwr with airStop := false } }).settleMode s.pwrMode 2
  else s

/-- AIRFLOW_ESTIMATE (R432, R433): the 100 ms means of power and of the inlet and outlet temperatures in 1/256 °C; below
300 W the last estimate is held. -/
def execAirflowEstimate (mean : Nat) (tin tout : Int) (s : State) : Out :=
  .next (whenOk s.up s
    (let s1 := (s.setFld Reg.thmInlet 0 16 (tin % 65536).toNat).setFld Reg.thmOutlet 0 16 (tout % 65536).toNat
     let s2 := if 300 ≤ mean then
         let q := s1.airflow mean tin tout
         q.2.takeAir tin q.1
       else s1
     s2.noteAir.clearAirStop.capNote))

/-- The hottest of a list of temperatures with its index, the first among equals. -/
def hottest : Nat → List Int → Option (Int × Nat)
  | _, [] => none
  | i, t :: l =>
    match hottest (i + 1) l with
    | none => some (t, i)
    | some b => if b.1 ≤ t then some (t, i) else some b

/-- `Σ (2i − (n − 1)) × T_i` of samples, the newest first: with `i` rising in time. -/
def slopeSum (n : Nat) : Nat → List Int → Int
  | _, [] => 0
  | j, t :: l => ((n : Int) - 1 - 2 * j) * t + slopeSum n (j + 1) l

/-- The least-squares slope of samples 1,024 ticks apart, in 1/256 °C per s, as a ratio (R434; DESIGN CHOICE, log entry 62). -/
def slopeOf (l : List Int) : Int × Nat :=
  let n := l.length
  (6 * slopeSum n 0 l * 390625, 4 * n * (n * n - 1))

/-- By how much the slope of the samples exceeds the forecast, in 1/256 °C per s, rounded down; none until the window is full. -/
def slopeExcess (win : Nat) (l : List Int) (forecast : Int) : Option Int :=
  if 2 ≤ l.length ∧ win ≤ l.length then
    let r := slopeOf l
    some ((r.1 - forecast * r.2) / r.2)
  else none

/-- JUNCTION_SAMPLE (R434): the junctions of the 8 compute dies and the 12 groundsheets in 1/256 °C, and the slope in
1/256 °C per s that the thermal model forecasts for the hottest. -/
def execJunctionSample (temps : List Int) (forecast : Int) (s : State) : Out :=
  .next (whenOk s.up s
    (let h := (hottest 0 (temps.take 20)).getD (0, 0)
     let s1 := (List.range 8).foldl (fun t d => t.setFld (Reg.thmTj d) 0 16 ((temps.getD d 0) % 65536).toNat) s
     let s2 := s1.setReg Reg.thmTjMax (BitVec.ofNat 32 ((h.1 % 65536).toNat + 2 ^ 16 * h.2))
     let win := s.fld Reg.thmSlopeWin 0 16
     let kept := (h.1 :: s.pwr.temps).take win
     let excess := slopeExcess win kept forecast
     let hot := excess.any (fun e => (s.fld Reg.thmSlope 0 16 : Int) < e)
     let s3 := { s2 with pwr := { s2.pwr with temps := kept, hotSlope := hot } }
     if hot ∧ s.pwr.airStop = false ∧ s.fld Reg.pwrCtrl 2 1 = 1 ∧ s.fld Reg.thmCtrl 0 1 = 1 then
       ((({ s3 with pwr := { s3.pwr with airStop := true } }).shareCap (s.fld Reg.pwrBivouac 0 12)).report 0x0205 unitMgmt
         ((min (excess.getD 0) 0xFFFF).toNat + 2 ^ 16 * h.2)).settleMode s.pwrMode 2
     else s3.clearAirStop))

/-! ### The trip (R435, R436) -/

/-- ANALOG_TRIP (R435): comparator 0 to 7 of a compute die, 8 to 19 of a groundsheet. -/
def execAnalogTrip (u : Nat) (s : State) : Out :=
  onUnit (u < 20) (whenOk s.alive s
    (let dies := putField s.pwr.trip u 1 1
     let s1 := { s with pwr := { s.pwr with trip := dies } }
     if s.tripped then s1
     else (((s1.mapCells Cell.halt).raiseFlag flagDeadline s.epoch).report 0x0206 unitMgmt dies).settleMode s.pwrMode 3))

/-- Is every junction at 90 °C or below? -/
def State.cool (s : State) : Bool := decide (((s.reg Reg.thmTjMax).extractLsb' 0 16).toInt ≤ 90 * 256)

/-- TRIP_CLEAR (R436): the frozen work resumes at 0.8 GHz, in BIVOUAC. -/
def execTripClear (s : State) : Out :=
  .next (whenOk (s.up && s.tripped && s.cool) s
    (let s1 := { s with pwr := { s.pwr with trip := 0, tripCleared := true } }
     let s2 := (List.range 8).foldl (fun t d => t.setClock d { t.clock d with step := 0, goal := some 0 }) s1
     ((s2.report 0x0207 unitMgmt (s.fld Reg.thmTjMax 0 16)).settleMode 3 3).runAllEngines))

/-! ### PMBus (R414, Table 14-2) -/

/-- One byte into a PEC: the CRC-8 of PMBus with polynomial x⁸ + x² + x + 1 (PRESUMED, log entry 62). -/
def pecByte (c b : Byte) : Byte :=
  (List.range 8).foldl (fun r _ => if r.getLsbD 7 then (r <<< 1) ^^^ 0x07 else r <<< 1) (c ^^^ b)

/-- The address byte of the module, for a write or a read (R510). -/
def State.pmbusAddr (s : State) (read : Bool) : Byte := BitVec.ofNat 8 (2 * (0x40 + s.boot.straps.toNat) + b2n read)

/-- The PEC of a read's answer: over both address bytes, the command code and the data. -/
def State.readPec (s : State) (code : Byte) (bs : List Byte) : Byte :=
  ([s.pmbusAddr false, code, s.pmbusAddr true] ++ bs).foldl pecByte 0

/-- The PEC of a write. -/
def State.writePec (s : State) (code : Byte) (bs : List Byte) : Byte := ([s.pmbusAddr false, code] ++ bs).foldl pecByte 0

/-- Answers a read on the management port, with its PEC. -/
def State.pmbusReply (s : State) (code : Byte) (bs : List Byte) : State := s.emit (.reply (bs ++ [s.readPec code bs]))

/-- A read of a PMBus command. -/
def pmbusRead (code : Byte) (bs : List Byte) (s : State) : Out := .next (whenOk s.up s (s.pmbusReply code bs))

/-- CAPABILITY. -/
def execCapability (s : State) : Out := pmbusRead 0x19 [0xA0] s

/-- STATUS_BYTE. -/
def execStatusByte (s : State) : Out := pmbusRead 0x78 [BitVec.ofNat 8 (2 * b2n s.pwr.cml)] s

/-- PMBUS_REVISION. -/
def execPmbusRevision (s : State) : Out := pmbusRead 0x98 [0x33] s

/-- A value `n / d` in LINEAR11 with exponent `e − 16`: mantissa in [10:0], exponent in [15:11]. -/
def linear11 (n d e : Nat) : Nat := min (2 ^ 16 * n / (d * 2 ^ e)) 1023 + 2 ^ 11 * ((e + 16) % 32)

/-- The least exponent, plus 16, at which the mantissa of `n / d` stays below 1,024. -/
def leastExp (n d : Nat) : Nat := ((List.range 32).find? (fun e => 2 ^ 16 * n / (d * 2 ^ e) < 1024)).getD 31

/-- Answers with a LINEAR11 word: the manual leaves the exponent open (DESIGN CHOICE, log entry 42). -/
def pmbusLinear (code : Byte) (n d : Nat) (s : State) : Out :=
  let r := s.drawNat
  let e := leastExp n d
  .next (whenOk s.up s (r.2.pmbusReply code (leBytes 2 (linear11 n d (e + r.1 % (32 - e))))))

/-- READ_VIN. -/
def execReadVin (s : State) : Out := pmbusLinear 0x88 (s.fld Reg.pwrVin 0 16) 1000 s

/-- READ_IIN. -/
def execReadIin (s : State) : Out := pmbusLinear 0x89 (s.fld Reg.pwrIin 0 16) 100 s

/-- READ_PIN: the mean over 100 ms. -/
def execReadPin (s : State) : Out := pmbusLinear 0x97 (s.fld Reg.pwrPower 16 12) 1 s

/-- BUDGET_WRITE: 0 withdraws the budget; another value is held to 600 to 2,000 W and the clamp recorded (R412). A PEC, where
the shelf sends one, that is not the write's sets CML, and nothing is written (PRESUMED, log entry 62). -/
def execBudgetWrite (v : BitVec 16) (pec : Option Byte) (s : State) : Out :=
  .next (whenOk s.up s
    (if pec.any (fun b => b != s.writePec 0xD0 (leBytes 2 v.toNat)) then { s with pwr := { s.pwr with cml := true } } else
     let s1 := { s with pwr := { s.pwr with budget := v } }
     if v = 0 then s1.setReg Reg.pwrBudget 0
     else
       let b := holdTo 600 2000 v.toNat
       let s2 := s1.setReg Reg.pwrBudget (BitVec.ofNat 32 (b + 2 ^ 31))
       if b = v.toNat then s2 else s2.clampReg Reg.pwrBudget 0 v.toNat b))

/-- BUDGET_READ: the last value written. -/
def execBudgetRead (s : State) : Out := pmbusRead 0xD0 (leBytes 2 s.pwr.budget.toNat) s

/-- CAP_EFF. -/
def execCapEff (s : State) : Out := pmbusRead 0xD1 (leBytes 2 s.capEff.1) s

/-- The codes of Table 14-2. -/
def pmbusCodes : List Nat := [0x19, 0x78, 0x88, 0x89, 0x97, 0x98, 0xD0, 0xD1]

/-- PMBUS_UNSUPPORTED: any other command sets CML. -/
def execPmbusUnsupported (code : Nat) (s : State) : Out :=
  .next (whenOk (s.up && !pmbusCodes.contains code) s { s with pwr := { s.pwr with cml := true } })

end Sys2Proof.Machine
end

