-- ==== Sys2Proof/Machine/Boot.lean ====
section
/-! DEFINITION. Boot, pairing, loading of images, and the resets (R470 to R482, R495 to R500, R507 to R512). -/

namespace Sys2Proof.Machine

/-! ### Images and the pair (R470, R471, R475) -/

/-- The RESULT code of the first check of R471 that an image fails, 0 for a valid one; an empty slot fails as a header
does (DESIGN CHOICE, log entry 44). -/
def State.imageFault (s : State) (microcode : Bool) (o : Option Image) : Nat :=
  match o with
  | none => 2
  | some i =>
    if i.magic ≠ 0x54444C48 ∨ i.type ≠ 1 + b2n microcode ∨ i.hdrver ≠ 1
        ∨ 2 ^ 20 * (if microcode then 4 else 16) < i.payloadLen then 2
    else if 3 < i.key ∨ s.boot.revoked.getLsbD i.key ∨ i.keyDigest ≠ s.boot.keyDigests.getD i.key 0 then 4
    else if i.sigOk = false then 3
    else if i.svn < s.boot.fuseSvn then 5
    else if i.hashOk = false then 6
    else 0

/-- Does an image list the version of the other (R475)? -/
def imageLists (a b : Image) : Bool := (a.tested.take 32).contains b.version

/-- The outcome of R475: HELD_REASON, 0 where the module runs, then the level and whether it runs under LEVEL. -/
structure PairEval where
  reason : Nat
  level : Nat
  levelled : Bool
  deriving DecidableEq, Repr

/-- Are two images a tested pair? -/
def pairTested (f u : Image) : Bool := imageLists f u || imageLists u f

/-- Does a hardware interface level lie in the range of an image? -/
def imageOnHw (i : Image) (hwl : Nat) : Bool := i.hwMin ≤ hwl && hwl ≤ i.hwMax

/-- Evaluates the pair (R475). -/
def evalPair (hwl : Nat) (levelPolicy : Bool) (f u : Image) : PairEval :=
  let hi := min f.plMax u.plMax
  if imageOnHw f hwl = false ∨ imageOnHw u hwl = false then ⟨3, 0, false⟩
  else if hi < max f.plMin u.plMin then ⟨2, 0, false⟩
  else if pairTested f u then ⟨0, hi, false⟩
  else if levelPolicy then ⟨0, hi, true⟩
  else ⟨1, 0, false⟩

/-- BOOT_FWPOLICY as it stands. -/
def State.levelPolicy (s : State) : Bool := s.fld Reg.bootFwpolicy 0 1 == 1

/-- Major and minor of a VERSION as FW_UNTESTED_PAIR carries them. -/
def majorMinor (v : W32) : Nat := v.toNat / 2 ^ 24 + 2 ^ 8 * (v.toNat / 2 ^ 16 % 2 ^ 8)

/-- STAGE of BOOT_STATUS. -/
def stageCode : Stage → Nat
  | .rom => 0
  | .running => 1
  | .held => 2
  | .recovery => 3

/-- The word of BOOT_STATUS with a given stage. -/
def Boot.statusWord (b : Boot) (stage : Nat) : Nat :=
  stage + b.fwSlot % 2 * 2 ^ 3 + b.ucSlot % 2 * 2 ^ 4 + 2 ^ 5 * b2n b.fallback + 2 ^ 8 * (b.reason % 2 ^ 4)
    + 2 ^ 16 * (b.level % 2 ^ 8) + 2 ^ 24 * b2n b.levelled

/-- Takes measurement index 7 at an evaluation (R484); a pair that runs is measured as RUNNING. -/
def State.measure (s : State) : State :=
  let b := s.boot
  let stage := if b.starting then 1 else stageCode b.stage
  { s with boot := { b with measured :=
    [BitVec.ofNat 32 (b.statusWord stage), s.reg Reg.bootFwpolicy, b.fw.elim 0 (·.version), b.uc.elim 0 (·.version)] } }

/-- Evaluates the pair and acts on the outcome: the boot goes on, or the module is held (R472, R475). -/
def State.evaluate (s : State) (f u : Image) : State :=
  let e := evalPair s.boot.hwl s.levelPolicy f u
  let b := { s.boot with reason := e.reason, level := e.level, levelled := e.levelled, starting := e.reason == 0 }
  let s1 := { s with boot := if e.reason = 0 then b else { b with stage := .held } }
  let s2 := if e.reason = 0 then
      (if e.levelled then s1.report 0x0705 unitMgmt (e.level + 2 ^ 8) else s1)
    else if e.reason = 1 then s1.report 0x0703 unitMgmt (majorMinor f.version + 2 ^ 16 * majorMinor u.version)
    else s1.report 0x0704 unitMgmt (e.reason + 2 ^ 8 * s.boot.hwl)
  s2.measure

/-! ### Flash slots -/

/-- A flash slot: type 0 firmware or 1 microcode, slot 0 A or 1 B. -/
def Boot.slot (b : Boot) (t n : Nat) : Option Image := b.slots.getD (2 * t + n) none

/-- The slot that the selector of a type names. -/
def Boot.sel (b : Boot) (t : Nat) : Nat := if t = 0 then b.selFw else b.selUc

/-- Writes a flash slot. -/
def Boot.setSlot (b : Boot) (t n : Nat) (i : Option Image) : Boot := { b with slots := b.slots.set (2 * t + n) i }

/-- Abandons the load in progress: its slot is left not valid (R499). -/
def Boot.dropLoad (b : Boot) : Boot :=
  match b.load with
  | none => b
  | some l =>
    let t := b2n l.microcode
    { b.setSlot t (1 - b.sel t) none with load := none, resetAfterLoad := false }

/-- What the ROM takes of one type: the slot and the image, or none; and the fault of the slot that failed first (R472). -/
def State.romTake (s : State) (t : Nat) : Option (Nat × Image) × Nat :=
  let a := s.boot.sel t
  let fa := s.imageFault (t == 1) (s.boot.slot t a)
  if fa = 0 then ((s.boot.slot t a).map (fun i => (a, i)), 0)
  else if s.imageFault (t == 1) (s.boot.slot t (1 - a)) = 0 then ((s.boot.slot t (1 - a)).map (fun i => (1 - a, i)), fa)
  else (none, fa)

/-- Notes an image that the ROM has taken, and reports BOOT_FALLBACK where it is not the selector's (R472). -/
def State.romTook (s : State) (t slot : Nat) (i : Image) (fault : Nat) : State :=
  let b := s.boot
  let b1 := if t = 0 then { b with fw := some i, fwSlot := slot } else { b with uc := some i, ucSlot := slot }
  if fault = 0 then { s with boot := b1 }
  else ({ s with boot := { b1 with fallback := true } }).report 0x0702 unitMgmt (t + fault * 2 ^ 4)

/-- Enters RECOVERY (R478). -/
def State.recover (s : State) (reason : Nat) : State :=
  ({ s with boot := { s.boot with stage := .recovery, reason := reason } }).measure

/-- The boot ROM (R472). -/
def State.rom (s : State) : State :=
  match s.romTake 0 with
  | (none, _) => s.recover 4
  | (some f, ff) =>
    let s1 := s.romTook 0 f.1 f.2 ff
    match s1.romTake 1 with
    | (none, _) => s1.recover 5
    | (some u, fu) => (s1.romTook 1 u.1 u.2 fu).evaluate f.2 u.2

/-! ### Cold reset (Tables 16-2, 17-6) -/

/-- Puts an event record before all that wait (R495: RESET_DONE is the first record). -/
def State.reportFirst (s : State) (code data : Nat) : State :=
  let r : RingRec := { q0 := BitVec.ofNat 64 s.pitch,
                       q1 := BitVec.ofNat 64 (code + 2 ^ 16 * unitMgmt + 2 ^ 32 * data) }
  { s with host := { s.host with evt := { s.host.evt with held := r :: s.host.evt.held } } }

/-- Reports RESET_DONE (Table 17-3). -/
def State.resetDone (s : State) : State := s.reportFirst 0x0720 (s.rst.cause + 2 ^ 8 * b2n s.rst.stepLost)

/-- What fuses, flash and manufacture keep without power. -/
def Boot.kept (b : Boot) : Boot :=
  let d := b.dropLoad
  { keyDigests := d.keyDigests, revoked := d.revoked, fuseSvn := d.fuseSvn, hwl := d.hwl, stepping := d.stepping,
    romDigest := d.romDigest, slots := d.slots, selFw := d.selFw, selUc := d.selUc, policy := d.policy }

/-- A module with none of its state left but fuses, flash and serial; what has left the block and the model's own
bookkeeping stay. -/
def State.cleared (s : State) : State :=
  ({ boot := s.boot.kept, fab := { serial := s.fab.serial }, out := s.out, free := s.free, pending := s.pending } : State).setFld
    Reg.bootFwpolicy 0 1 (b2n s.boot.policy)

/-- A cold reset of a cause of Table 17-4. Under CAUSE 5 the supply and its warning are as they were. -/
def State.coldReset (s : State) (cause : Nat) : State :=
  let p : Pwr := if cause = 5 then { warnPin := s.pwr.warnPin, inputLow := s.pwr.inputLow } else {}
  { s.cleared with pwr := p, rst := { cause := cause, stepLost := cause != 4 && s.stepping } }

/-- COLD_BOOT (R472, R495, R510 to R512): the ROM runs, with the straps as sampled and the heatsink and harness memories
as read, empty where they do not answer (DESIGN CHOICE, log entry 51). -/
def execColdBoot (straps : BitVec 3) (heatsink harness : List Byte) (s : State) : Out :=
  .next (whenOk (s.alive && s.boot.stage == .rom && !s.boot.starting) s
    (let ok := cableOk harness
     let rated := if ok then cableField harness 10 2 else 0
     let peak := if ok then cableField harness 12 2 else 0
     let s1 := { s with boot := { s.boot with straps := straps, fuseBase := s.free }, free := s.free + 192 }
     let s2 := s1.setReg Reg.modHarnessRating (BitVec.ofNat 32 (rated + 2 ^ 16 * peak))
     let s3 := s2.setReg Reg.modHarnessStatus
       (BitVec.ofNat 32 (b2n ok + b2n (ok && decide (670 ≤ rated) && decide (800 ≤ peak)) * 2))
     let s4 := s3.setReg64 Reg.modHarnessSerialLo Reg.modHarnessSerialHi (if ok then cableField harness 2 8 else 0)
     (s4.resetDone.takeHeatsink heatsink).rom))

/-- Ports with EN set begin to train, and a supply warning that is present starts the shed sequence (Table 17-5, R514). -/
def State.startWork (s : State) : State :=
  let s1 := (List.range 24).foldl
    (fun t p => if t.fld (Reg.fabPortCtrl p) 0 1 = 1 ∧ (t.port p).mode = .disabled then t.enterTrain p else t) s
  if s1.pwr.warnPin then s1.startShed false else if s1.pwr.inputLow then s1.startShed true else s1

/-- FIRMWARE_START (R473, Table 16-8). -/
def execFirmwareStart (s : State) : Out :=
  .next (whenOk (s.alive && s.boot.starting && !s.rst.busy) s
    (let b := s.boot
     let s1 := { s with boot := { b with stage := .running, starting := false } }
     (s1.report 0x0701 unitMgmt (b.level % 2 ^ 8 + 2 ^ 8 * b.fwSlot + 2 ^ 9 * b.ucSlot + 2 ^ 10 * b2n b.levelled)).startWork))

/-! ### BOOT_CMD (R476 to R482) -/

/-- A BOOT_CMD: ignored while BUSY, and answered by a RESULT code. -/
def bootCmd (s : State) (act : Boot → Boot × Nat) : Out :=
  let r := act s.boot
  .next (whenOk (s.barOn && s.boot.load.isNone) s { s with boot := { r.1 with result := r.2 } })

/-- Starts a load (R479): the image is read from host memory. -/
def State.startLoad (s : State) (microcode : Bool) : State :=
  ({ s with boot := { s.boot with load := some ⟨microcode⟩ } }).toHost
    (.hostRead (s.reg64 Reg.bootLoadAddrLo Reg.bootLoadAddrHi) (s.fld Reg.bootLoadLen 0 25))

/-- LOAD_FW (R479). -/
def execLoadFw (s : State) : Out := .next (whenOk (s.barOn && s.boot.load.isNone) s (s.startLoad false))

/-- LOAD_UC (R479). -/
def execLoadUc (s : State) : Out := .next (whenOk (s.barOn && s.boot.load.isNone) s (s.startLoad true))

/-- What R475 would give for a new image against the active image of the other type: PAIR_TESTED, PAIR_OK and PAIR_LEVEL
(R479). -/
def State.pairPreview (s : State) (microcode : Bool) (i : Image) : Bool × Bool × Nat :=
  match (if microcode then s.boot.fw else s.boot.uc) with
  | none => (false, false, 0)
  | some o =>
    let f := if microcode then o else i
    let u := if microcode then i else o
    let e := evalPair s.boot.hwl s.levelPolicy f u
    (pairTested f u, decide (max f.plMin u.plMin ≤ min f.plMax u.plMax), if e.reason = 0 then e.level else 0)

/-- Ends a load with a result and reports FW_LOAD_DONE (R479). -/
def State.loadDone (s : State) (microcode : Bool) (result : Nat) (p : Bool × Bool × Nat) : State :=
  let b := { s.boot with load := none, result := result, pairTested := p.1, pairOk := p.2.1, pairLevel := p.2.2 }
  ({ s with boot := b }).report 0x0706 unitMgmt
    (b2n microcode + result * 2 + 2 ^ 8 * b2n p.1 + 2 ^ 16 * (p.2.2 % 2 ^ 8))

/-- Takes the image of a load: `img` is none where host memory could not be read, `flashOk` false where the flash write
failed. -/
def State.takeLoad (s : State) (microcode : Bool) (img : Option Image) (flashOk : Bool) : State :=
  match img with
  | none => s.loadDone microcode 1 (false, false, 0)
  | some i =>
    let f := s.imageFault microcode (some i)
    if f ≠ 0 then s.loadDone microcode f (false, false, 0)
    else
      let t := b2n microcode
      let n := 1 - s.boot.sel t
      let p := s.pairPreview microcode i
      if flashOk then
        let b := s.boot.setSlot t n (some i)
        ({ s with boot := if microcode then { b with loadedUc := some n } else { b with loadedFw := some n } }).loadDone
          microcode 0 p
      else ({ s with boot := s.boot.setSlot t n none }).loadDone microcode 9 p

/-- LOAD_COMPLETE (R479): a COLD_RESET that came during the load follows (R480). -/
def execLoadComplete (img : Option Image) (flashOk : Bool) (s : State) : Out :=
  .next (match s.boot.load with
    | none => s
    | some l =>
      whenOk s.barOn s
        (let s1 := s.takeLoad l.microcode img flashOk
         if s.boot.resetAfterLoad then s1.coldReset 5 else s1))

/-- ACTIVATE_FW (R480). -/
def execActivateFw (s : State) : Out :=
  bootCmd s (fun b => match b.loadedFw with
    | some n => ({ b with selFw := n }, 0)
    | none => (b, 7))

/-- ACTIVATE_UC (R480). -/
def execActivateUc (s : State) : Out :=
  bootCmd s (fun b => match b.loadedUc with
    | some n => ({ b with selUc := n }, 0)
    | none => (b, 7))

/-- PAIR (R477): in HELD the pair is evaluated again; in any other stage it is not allowed. -/
def execPair (s : State) : Out :=
  match s.boot.fw, s.boot.uc with
  | some f, some u =>
    if s.boot.stage = .held ∧ s.boot.starting = false then
      .next (whenOk (s.barOn && s.boot.load.isNone) s (({ s with boot := { s.boot with result := 0 } }).evaluate f u))
    else bootCmd s (fun b => (b, 8))
  | _, _ => bootCmd s (fun b => (b, 8))

/-- COLD_RESET (R480): during a load it takes effect when the load ends (DESIGN CHOICE, log entry 44). -/
def execColdReset (s : State) : Out :=
  .next (whenOk s.barOn s
    (if s.boot.load.isSome then { s with boot := { s.boot with resetAfterLoad := true } }
     else s.coldReset 5))

/-- COMMIT_SVN (R481): in RUNNING only. -/
def execCommitSvn (ok : Bool) (s : State) : Out :=
  bootCmd s (fun b =>
    if b.stage ≠ .running then (b, 8)
    else if ok = false then (b, 9)
    else ({ b with fuseSvn := max b.fuseSvn (min (b.fw.elim 0 (·.svn)) (b.uc.elim 0 (·.svn))) }, 0))

/-- PERSIST_POLICY (R481): not in RECOVERY (R478). -/
def execPersistPolicy (ok : Bool) (s : State) : Out :=
  bootCmd s (fun b =>
    if b.stage = .recovery then (b, 8)
    else if ok = false then (b, 9)
    else ({ b with policy := s.levelPolicy }, 0))

/-! ### Power, clock and the reset pin (R410, R411, R498, R507, R508) -/

/-- VIN_CUTOFF (R410, R411): the regulators switch off and no state is held. -/
def execVinCutoff (s : State) : Out :=
  .next (whenOk (!s.pwr.off) s
    (let t := s.cleared
     { t with pwr := { t.pwr with off := true } }))

/-- POWER_RETURN (R411, R498). -/
def execPowerReturn (s : State) : Out := .next (whenOk s.pwr.off s (s.coldReset 4))

/-- REFCLK_LOSS (R507): every clock stops and the CXL link is lost. -/
def execRefclkLoss (s : State) : Out :=
  .next (whenOk s.alive s
    { s with pwr := { s.pwr with clockLost := true }, host := { s.host with width := 0, rate := 0, cxl := false } })

/-- The cold reset of an assertion of RST_N, which stays low; before the first reset after power returned has ended it is
still that reset (R498). -/
def State.pinReset (s : State) : State :=
  let first := s.rst.cause == 4 && s.boot.stage == .rom && !s.boot.starting
  let t := s.coldReset (if first then 4 else 6)
  { t with pwr := { t.pwr with rstLow := true } }

/-- RST_N_ASSERT (R508), with how long the pin is held low: a pulse between 1 µs and 100 µs may or may not reset
(DESIGN CHOICE, log entry 6). -/
def execRstNAssert (ns : Nat) (s : State) : Out :=
  .next (whenOk (!s.pwr.off && !s.pwr.rstLow) s
    (if 100000 ≤ ns then s.pinReset
     else if ns < 1000 then s
     else
       let t := { s with free := s.free + 1 }
       if Config.freeBool s.free then t.pinReset else t))

/-- RST_N_RELEASE (R508). -/
def execRstNRelease (s : State) : Out := .next (whenOk s.pwr.rstLow s { s with pwr := { s.pwr with rstLow := false } })

/-! ### Warm reset (R498 to R500) -/

/-- Registers that show a measurement, an identity memory or a count that a warm reset keeps (Table 17-6; R6 leaves RO
fields to their meaning; DESIGN CHOICE, log entry 44). -/
def warmKept : List Nat :=
  [Reg.pwrEnergyLo, Reg.pwrEnergyHi, Reg.pwrKindleLo, Reg.pwrKindleHi, Reg.modHarnessRating, Reg.modHarnessStatus,
   Reg.modHarnessSerialLo, Reg.modHarnessSerialHi, Reg.thmHsSerialLo, Reg.thmHsSerialHi, Reg.thmAir, Reg.thmRth,
   Reg.thmInlet, Reg.thmOutlet, Reg.thmTjMax, Reg.pwrPower, Reg.pwrVin, Reg.pwrIin]
    ++ (List.range 8).map Reg.thmTj

/-- A field of a register after a warm reset (R6). -/
def warmField (w : Nat) (f : FieldRow) : Nat :=
  if f.acc = .rws then w / 2 ^ f.lo % 2 ^ f.width * 2 ^ f.lo else f.reset * 2 ^ f.lo

/-- Does an offset lie in the CXL component registers? They go with the link: a warm reset keeps them, a hot reset or the
loss of the link does not (Table 17-6; DESIGN CHOICE, log entry 63). -/
def isCompReg (off : Nat) : Bool := 0x80000 ≤ off && off < 0x90000

/-- A register after a warm reset. -/
def warmWord (off : Nat) (w : W32) : W32 :=
  if warmKept.contains off ∨ isCompReg off then w else BitVec.ofNat 32 (sumNat ((fieldsAt off).map (warmField w.toNat)))

/-- The registers after a warm reset. -/
def warmRegs (r : List (Nat × W32)) : List (Nat × W32) :=
  r.foldr (fun p m => tabSet resetWord m p.1 (warmWord p.1 p.2)) []

/-- A port after a warm reset: it has left UP; the recorded peer and failed marks stay (R343, Table 17-6). -/
def Port.warm (q : Port) : Port := { recorded := q.recorded, failed := q.failed }

/-- The pool after a warm reset: only retired frames are kept (R321, Table 17-6). -/
def Pool.warm (p : Pool) : Pool :=
  { frames := p.frames.filter (fun f => f.2 == .retired), nextFar := p.nextFar }

/-- Power and heat after a warm reset: pins, trip latch, heatsink memory and what is measured since cold reset; no phase is
being sampled, since the record of one would begin before the reset (R423; DESIGN CHOICE, log entry 50). -/
def Pwr.warm (p : Pwr) : Pwr :=
  { trip := p.trip, warnPin := p.warnPin, inputLow := p.inputLow, temps := p.temps, meas := p.meas, curve := p.curve,
    kindleRest := p.kindleRest,
    accs := (List.range 8).map (fun d => (d, { void := true })),
    hsValid := p.hsValid, airCap := p.airCap }

/-- The boot state after a warm reset: a load in progress is abandoned and sessions end (R499, R485). -/
def Boot.warm (b : Boot) : Boot := { b.dropLoad with sessions := [] }

/-- Everything that Table 17-6 resets, at a warm reset in RUNNING. -/
def State.warmAll (s : State) : State :=
  let t : State :=
    { pitch := s.pitch, regs := warmRegs s.regs, hbm := s.hbm, hbmErr := s.hbmErr, hbmCe := s.hbmCe, pool := s.pool.warm,
      fab := { ports := (s.fab.ports.map (fun p => (p.1, p.2.warm))).filter (fun p => p.2 != {}), serial := s.fab.serial },
      pwr := s.pwr.warm, host := { width := s.host.width, rate := s.host.rate, cxl := s.host.cxl }, boot := s.boot.warm,
      out := s.out, free := s.free, pending := s.pending }
  t.setFld Reg.bootFwpolicy 0 1 (b2n s.boot.policy)

/-- Is a register of the queues or of the event or clamp ring (R499)? -/
def isRingReg (off : Nat) : Bool :=
  (0x30000 ≤ off && off < 0x38000) || (0x40100 ≤ off && off < 0x40118)

/-- What a warm reset resets in HELD or RECOVERY: the event, queue and clamp-ring state (R499). -/
def State.warmHeld (s : State) : State :=
  { s with regs := s.regs.filter (fun p => !isRingReg p.1), rate := [],
           host := { s.host with queues := [], evt := {}, clamp := {}, seen := [] }, boot := s.boot.warm }

/-- Starts a warm reset of a cause of Table 17-4: BUSY is set and the cause latched; one that comes while BUSY is
ignored, and so is one before the ROM has ended (R498, R499; DESIGN CHOICE, log entry 44). -/
def State.warmReset (s : State) (cause : Nat) : State :=
  if s.rst.busy ∨ s.boot.stage = .rom then s
  else
    let t := if s.boot.stage = .running then s.warmAll else s.warmHeld
    ({ t with rst := { cause := cause, stepLost := s.stepping, busy := true } }).bump Reg.modWarmResets

/-- WARM_RESET (R498). -/
def execWarmReset (s : State) : Out := .next (whenOk s.barOn s (s.warmReset 1))

/-- The CXL link goes down, to train again. -/
def State.linkDown (s : State) : State :=
  { s with regs := s.regs.filter (fun p => !isCompReg p.1),
           host := { s.host with width := 0, rate := 0, cxl := false, ide := [], held := [] } }

/-- HOT_RESET (R443, R498). -/
def execHotReset (s : State) : Out := .next (whenOk s.alive s (s.linkDown.warmReset 2))

/-- LINK_LOSS (R443, R498), with how long the link was lost: below 1 ms it does nothing. -/
def execLinkLoss (us : Nat) (s : State) : Out :=
  .next (whenOk (s.alive && decide (1000 ≤ us)) s (s.linkDown.warmReset 3))

/-- WARM_RESET_COMPLETE (R495, R499): BUSY clears and RESET_DONE is the first record. -/
def execWarmResetComplete (s : State) : Out :=
  .next (whenOk (s.alive && s.rst.busy) s
    (let s1 := ({ s with rst := { s.rst with busy := false } }).resetDone
     if s1.boot.stage = .running then s1.startWork else s1))

/-! ### Counters (R496) -/

/-- Clears the RW COUNT fields of a register word. -/
def clearedWord (off : Nat) (w : W32) : W32 :=
  (fieldsAt off).foldl (fun v f =>
    if f.acc = .rw ∧ f.count then BitVec.ofNat 32 (putField v.toNat f.lo f.width 0) else v) w

/-- Clears every RW COUNT field of a table of registers. -/
def clearCounts (r : List (Nat × W32)) : List (Nat × W32) :=
  r.foldr (fun p m => tabSet resetWord m p.1 (clearedWord p.1 p.2)) []

/-- FREEZE (R496). -/
def execFreeze (on : Bool) (s : State) : Out :=
  .next (whenOk s.up s
    (let s1 := s.setFld Reg.modCtrCtrl 0 1 (b2n on)
     if on then (if s.frozen.isSome then s1 else { s1 with frozen := some s.regs }) else { s1 with frozen := none }))

/-- CLEAR_ALL (R496): live and frozen values. -/
def execClearAll (s : State) : Out :=
  .next (whenOk s.up s { s with regs := clearCounts s.regs, frozen := s.frozen.map clearCounts })

end Sys2Proof.Machine
end

