-- ==== Sys2Proof/Machine/Scalar.lean ====
section
/-! DEFINITION. The scalar class (Table 13-5): integer and W32 arithmetic, compares, predicates, address registers, loads
and stores. -/

namespace Sys2Proof.Machine

/-- SD := SA op SB (Table 13-5). -/
def scalarRR (c : Nat) (i : Instr) (o : ROps) (opc : Nat) (f : W64 → W64 → W64) (s : State) : Out :=
  coreR c i o 0x01 opc [o.sd.toNat, o.sa.toNat, o.sb.toNat]
    (fun t => effS c o.sd.toNat (f ((t.cell c).s o.sa.toNat) ((t.cell c).s o.sb.toNat)) t) s

/-- SD := SA op IMM. -/
def scalarRI (c : Nat) (i : Instr) (o : IOps) (opc : Nat) (f : W64 → W64 → W64) (s : State) : Out :=
  coreI c i o 0x01 opc [o.sd.toNat, o.sa.toNat]
    (fun t => effS c o.sd.toNat (f ((t.cell c).s o.sa.toNat) (immI o.imm)) t) s

/-- p[SD] := SA compared with SB. -/
def scalarCmp (c : Nat) (i : Instr) (o : ROps) (opc : Nat) (f : W64 → W64 → Bool) (s : State) : Out :=
  coreR c i o 0x01 opc [o.sa.toNat, o.sb.toNat]
    (fun t => effP c o.sd.toNat (f ((t.cell c).s o.sa.toNat) ((t.cell c).s o.sb.toNat)) t) s

/-- p[SD] := SA compared with IMM. -/
def scalarCmpI (c : Nat) (i : Instr) (o : IOps) (opc : Nat) (f : W64 → W64 → Bool) (s : State) : Out :=
  coreI c i o 0x01 opc [o.sa.toNat]
    (fun t => effP c o.sd.toNat (f ((t.cell c).s o.sa.toNat) (immI o.imm)) t) s

/-- p[SD] := p[SA] op p[SB]. -/
def scalarPred (c : Nat) (i : Instr) (o : ROps) (opc : Nat) (f : Bool → Bool → Bool) (s : State) : Out :=
  coreR c i o 0x01 opc []
    (fun t => effP c o.sd.toNat (f ((t.cell c).p o.sa.toNat) ((t.cell c).p o.sb.toNat)) t) s

/-- The high 64 bits of an unsigned product. -/
def mulHiU (a b : W64) : W64 := BitVec.ofNat 64 (a.toNat * b.toNat / 2 ^ 64)

/-- The high 64 bits of a signed product. -/
def mulHiS (a b : W64) : W64 := BitVec.ofInt 64 (a.toInt * b.toInt / 2 ^ 64)

/-- A shift count: the low six bits of the operand (R395). -/
def shiftCount (b : W64) : Nat := b.toNat % 64

/-- Bits [39:0] kept, bits [63:40] replaced (MOVHI). -/
def movHi (old : W64) (imm : BitVec 40) : W64 := BitVec.ofNat 64 (old.toNat % 2 ^ 40 + 2 ^ 40 * (imm.toNat % 2 ^ 24))

/-- The effective address of a load or store (R389). -/
def effAddr (k : Cell) (o : IOps) : Nat := (k.a o.sa.toNat + (immI o.imm).setWidth 32).toNat

/-- The check of an effective address for an access of `n` bytes (R389): SC_ADDR, then SC_ALIGN. -/
def memCheck (a n : Nat) : Option Nat :=
  if sliceBytes ≤ a % 2 ^ 23 then some excScAddr else if a % n ≠ 0 then some excScAlign else none

/-- Does a buffered store overlap `[a, a + n)` (R390)? -/
def storeHits (a n : Nat) (e : StoreEntry) : Bool := e.addr < a + n && a < e.addr + e.bytes.length

/-- Loads `n` bytes, zero-extended or sign-extended (R389, R390). -/
def scalarLoad (c : Nat) (i : Instr) (o : IOps) (opc n : Nat) (sext : Bool) (s : State) : Out :=
  coreI c i o 0x01 opc [o.sd.toNat]
    (fun t =>
      let a := effAddr (t.cell c) o
      match memCheck a n with
      | some e => .exc e 0
      | none =>
        let u := (if (t.cell c).stores.any (storeHits a n) then t.drainStores c else t).spadTouch a n
        let v := u.spadNat a n
        effS c o.sd.toNat (if sext && v.testBit (8 * n - 1) then BitVec.ofInt 64 ((v : Int) - 2 ^ (8 * n))
          else BitVec.ofNat 64 v) u) s

/-- Stores the low `n` bytes of SD through the store buffer (R389, R390). -/
def scalarStore (c : Nat) (i : Instr) (o : IOps) (opc n : Nat) (s : State) : Out :=
  coreI c i o 0x01 opc [o.sd.toNat]
    (fun t =>
      let a := effAddr (t.cell c) o
      match memCheck a n with
      | some e => .exc e 0
      | none =>
        let u := if 8 ≤ (t.cell c).stores.length then t.drainStores c else t
        let k := u.cell c
        .done (u.setCell c { k with stores := k.stores ++ [⟨a, leBytes n (k.s o.sd.toNat).toNat⟩] })) s

/-- The W32 pattern in bits [31:0] of a scalar register (R395). -/
def w32Val (v : W64) : Val := decodeFloat fmtW32 (v.toNat % 2 ^ 32)

/-- A W32 result rounded once under RNE, zero-extended (R395). -/
def w32Result (v : Val) : W64 := (rneW32 v).setWidth 64

/-- The conversion of FCVT (R396); pairs not listed never reach it. -/
def fcvtResult (x : Nat) (v : W64) : W64 :=
  let f := x % 16
  let t := x / 16 % 16
  if f = 5 ∧ t = 7 then (BitVec.ofNat 32 (toI32 (w32Val v)).1).signExtend 64
  else if f = 7 then w32Result (intVal (i32Of (v.toNat % 2 ^ 32)))
  else if f = 4 then w32Result (decH16 (v.toNat % 2 ^ 16))
  else BitVec.ofNat 64 (roundFloat fmtH16 .rne (w32Val v)).1

/-- ADD (Table 13-5). -/
def execAdd (c : Nat) (o : ROps) (s : State) : Out :=
  scalarRR c (.add c o) o 0x00 (fun a b => a + b) s

/-- SUB (Table 13-5). -/
def execSub (c : Nat) (o : ROps) (s : State) : Out :=
  scalarRR c (.sub c o) o 0x01 (fun a b => a - b) s

/-- MUL: the low 64 bits (Table 13-5). -/
def execMul (c : Nat) (o : ROps) (s : State) : Out :=
  scalarRR c (.mul c o) o 0x02 (fun a b => a * b) s

/-- MULHU (Table 13-5). -/
def execMulhu (c : Nat) (o : ROps) (s : State) : Out :=
  scalarRR c (.mulhu c o) o 0x03 (mulHiU) s

/-- MULHS (Table 13-5). -/
def execMulhs (c : Nat) (o : ROps) (s : State) : Out :=
  scalarRR c (.mulhs c o) o 0x04 (mulHiS) s

/-- AND (Table 13-5). -/
def execAnd (c : Nat) (o : ROps) (s : State) : Out :=
  scalarRR c (.and c o) o 0x05 (fun a b => a &&& b) s

/-- OR (Table 13-5). -/
def execOr (c : Nat) (o : ROps) (s : State) : Out :=
  scalarRR c (.or c o) o 0x06 (fun a b => a ||| b) s

/-- XOR (Table 13-5). -/
def execXor (c : Nat) (o : ROps) (s : State) : Out :=
  scalarRR c (.xor c o) o 0x07 (fun a b => a ^^^ b) s

/-- SHL (Table 13-5). -/
def execShl (c : Nat) (o : ROps) (s : State) : Out :=
  scalarRR c (.shl c o) o 0x08 (fun a b => a <<< shiftCount b) s

/-- SHR (Table 13-5). -/
def execShr (c : Nat) (o : ROps) (s : State) : Out :=
  scalarRR c (.shr c o) o 0x09 (fun a b => a >>> shiftCount b) s

/-- SRA (Table 13-5). -/
def execSra (c : Nat) (o : ROps) (s : State) : Out :=
  scalarRR c (.sra c o) o 0x0A (fun a b => a.sshiftRight (shiftCount b)) s

/-- MIN, signed (Table 13-5). -/
def execMin (c : Nat) (o : ROps) (s : State) : Out :=
  scalarRR c (.min c o) o 0x0B (fun a b => if a.slt b then a else b) s

/-- MAX, signed (Table 13-5). -/
def execMax (c : Nat) (o : ROps) (s : State) : Out :=
  scalarRR c (.max c o) o 0x0C (fun a b => if a.slt b then b else a) s

/-- MINU (Table 13-5). -/
def execMinu (c : Nat) (o : ROps) (s : State) : Out :=
  scalarRR c (.minu c o) o 0x0D (fun a b => if a.ult b then a else b) s

/-- MAXU (Table 13-5). -/
def execMaxu (c : Nat) (o : ROps) (s : State) : Out :=
  scalarRR c (.maxu c o) o 0x0E (fun a b => if a.ult b then b else a) s

/-- SEL: SA where p[X[2:0]] is 1, else SB. -/
def execSel (c : Nat) (o : ROps) (s : State) : Out :=
  coreR c (.sel c o) o 0x01 0x0F [o.sd.toNat, o.sa.toNat, o.sb.toNat]
    (fun t => effS c o.sd.toNat
      (if (t.cell c).p (o.x.toNat % 8) then (t.cell c).s o.sa.toNat else (t.cell c).s o.sb.toNat) t) s

/-- ADDI (Table 13-5). -/
def execAddi (c : Nat) (o : IOps) (s : State) : Out :=
  scalarRI c (.addi c o) o 0x10 (fun a b => a + b) s

/-- ANDI (Table 13-5). -/
def execAndi (c : Nat) (o : IOps) (s : State) : Out :=
  scalarRI c (.andi c o) o 0x11 (fun a b => a &&& b) s

/-- ORI (Table 13-5). -/
def execOri (c : Nat) (o : IOps) (s : State) : Out :=
  scalarRI c (.ori c o) o 0x12 (fun a b => a ||| b) s

/-- XORI (Table 13-5). -/
def execXori (c : Nat) (o : IOps) (s : State) : Out :=
  scalarRI c (.xori c o) o 0x13 (fun a b => a ^^^ b) s

/-- SHLI (Table 13-5). -/
def execShli (c : Nat) (o : IOps) (s : State) : Out :=
  scalarRI c (.shli c o) o 0x14 (fun a b => a <<< shiftCount b) s

/-- SHRI (Table 13-5). -/
def execShri (c : Nat) (o : IOps) (s : State) : Out :=
  scalarRI c (.shri c o) o 0x15 (fun a b => a >>> shiftCount b) s

/-- SRAI (Table 13-5). -/
def execSrai (c : Nat) (o : IOps) (s : State) : Out :=
  scalarRI c (.srai c o) o 0x16 (fun a b => a.sshiftRight (shiftCount b)) s

/-- MOVI: the immediate, sign-extended from 40 bits. -/
def execMovi (c : Nat) (o : UOps) (s : State) : Out :=
  coreU c (.movi c o) o 0x18 [o.sd.toNat] (fun t => effS c o.sd.toNat (immU o.imm) t) s

/-- MOVHI: bits [63:40] replaced, bits [39:0] kept. -/
def execMovhi (c : Nat) (o : UOps) (s : State) : Out :=
  coreU c (.movhi c o) o 0x19 [o.sd.toNat]
    (fun t => effS c o.sd.toNat (movHi ((t.cell c).s o.sd.toNat) o.imm) t) s

/-- CMPEQ (Table 13-5). -/
def execCmpeq (c : Nat) (o : ROps) (s : State) : Out :=
  scalarCmp c (.cmpeq c o) o 0x20 (fun a b => a == b) s

/-- CMPNE (Table 13-5). -/
def execCmpne (c : Nat) (o : ROps) (s : State) : Out :=
  scalarCmp c (.cmpne c o) o 0x21 (fun a b => a != b) s

/-- CMPLT (Table 13-5). -/
def execCmplt (c : Nat) (o : ROps) (s : State) : Out :=
  scalarCmp c (.cmplt c o) o 0x22 (fun a b => a.slt b) s

/-- CMPLTU (Table 13-5). -/
def execCmpltu (c : Nat) (o : ROps) (s : State) : Out :=
  scalarCmp c (.cmpltu c o) o 0x23 (fun a b => a.ult b) s

/-- CMPGE (Table 13-5). -/
def execCmpge (c : Nat) (o : ROps) (s : State) : Out :=
  scalarCmp c (.cmpge c o) o 0x24 (fun a b => !a.slt b) s

/-- CMPGEU (Table 13-5). -/
def execCmpgeu (c : Nat) (o : ROps) (s : State) : Out :=
  scalarCmp c (.cmpgeu c o) o 0x25 (fun a b => !a.ult b) s

/-- CMPEQI (Table 13-5). -/
def execCmpeqi (c : Nat) (o : IOps) (s : State) : Out :=
  scalarCmpI c (.cmpeqi c o) o 0x26 (fun a b => a == b) s

/-- CMPLTI (Table 13-5). -/
def execCmplti (c : Nat) (o : IOps) (s : State) : Out :=
  scalarCmpI c (.cmplti c o) o 0x27 (fun a b => a.slt b) s

/-- PAND (Table 13-5). -/
def execPand (c : Nat) (o : ROps) (s : State) : Out :=
  scalarPred c (.pand c o) o 0x28 (fun a b => a && b) s

/-- POR (Table 13-5). -/
def execPor (c : Nat) (o : ROps) (s : State) : Out :=
  scalarPred c (.por c o) o 0x29 (fun a b => a || b) s

/-- PXOR (Table 13-5). -/
def execPxor (c : Nat) (o : ROps) (s : State) : Out :=
  scalarPred c (.pxor c o) o 0x2A (fun a b => a ^^ b) s

/-- AMOV: a[AX] := SA[31:0]. -/
def execAmov (c : Nat) (o : ROps) (s : State) : Out :=
  coreR c (.amov c o) o 0x01 0x30 [o.sa.toNat]
    (fun t => effA c o.ax.toNat (((t.cell c).s o.sa.toNat).setWidth 32) t) s

/-- AADDI: a[SD] := a[SA] + IMM, modulo 2³². -/
def execAaddi (c : Nat) (o : IOps) (s : State) : Out :=
  coreI c (.aaddi c o) o 0x01 0x31 []
    (fun t => effA c o.sd.toNat ((t.cell c).a o.sa.toNat + (immI o.imm).setWidth 32) t) s

/-- ARD: a[AX], zero-extended. -/
def execArd (c : Nat) (o : ROps) (s : State) : Out :=
  coreR c (.ard c o) o 0x01 0x32 [o.sd.toNat]
    (fun t => effS c o.sd.toNat (((t.cell c).a o.ax.toNat).setWidth 64) t) s

/-- LD64 (R389). -/
def execLd64 (c : Nat) (o : IOps) (s : State) : Out :=
  scalarLoad c (.ld64 c o) o 0x38 8 false s

/-- LD32 (R389). -/
def execLd32 (c : Nat) (o : IOps) (s : State) : Out :=
  scalarLoad c (.ld32 c o) o 0x39 4 false s

/-- LD16 (R389). -/
def execLd16 (c : Nat) (o : IOps) (s : State) : Out :=
  scalarLoad c (.ld16 c o) o 0x3A 2 false s

/-- LD8 (R389). -/
def execLd8 (c : Nat) (o : IOps) (s : State) : Out :=
  scalarLoad c (.ld8 c o) o 0x3B 1 false s

/-- LDS32 (R389). -/
def execLds32 (c : Nat) (o : IOps) (s : State) : Out :=
  scalarLoad c (.lds32 c o) o 0x3C 4 true s

/-- LDS16 (R389). -/
def execLds16 (c : Nat) (o : IOps) (s : State) : Out :=
  scalarLoad c (.lds16 c o) o 0x3D 2 true s

/-- LDS8 (R389). -/
def execLds8 (c : Nat) (o : IOps) (s : State) : Out :=
  scalarLoad c (.lds8 c o) o 0x3E 1 true s

/-- ST64 (R390). -/
def execSt64 (c : Nat) (o : IOps) (s : State) : Out :=
  scalarStore c (.st64 c o) o 0x40 8 s

/-- ST32 (R390). -/
def execSt32 (c : Nat) (o : IOps) (s : State) : Out :=
  scalarStore c (.st32 c o) o 0x41 4 s

/-- ST16 (R390). -/
def execSt16 (c : Nat) (o : IOps) (s : State) : Out :=
  scalarStore c (.st16 c o) o 0x42 2 s

/-- ST8 (R390). -/
def execSt8 (c : Nat) (o : IOps) (s : State) : Out :=
  scalarStore c (.st8 c o) o 0x43 1 s

/-- FADD in W32 (R395). -/
def execFadd (c : Nat) (o : ROps) (s : State) : Out :=
  scalarRR c (.fadd c o) o 0x48 (fun a b => w32Result ((addVal (w32Val a) (w32Val b)).1)) s

/-- FMUL in W32 (R395). -/
def execFmul (c : Nat) (o : ROps) (s : State) : Out :=
  scalarRR c (.fmul c o) o 0x49 (fun a b => w32Result (mulVal (w32Val a) (w32Val b))) s

/-- FFMA: SA × SB + SC in W32, rounded once (R395). -/
def execFfma (c : Nat) (o : ROps) (s : State) : Out :=
  coreR c (.ffma c o) o 0x01 0x4A [o.sd.toNat, o.sa.toNat, o.sb.toNat, o.sc.toNat]
    (fun t =>
      let k := t.cell c
      effS c o.sd.toNat
        (w32Result (fmaVal (w32Val (k.s o.sa.toNat)) (w32Val (k.s o.sb.toNat)) (w32Val (k.s o.sc.toNat))).1) t) s

/-- FCVT (R396): the test of the formats is none of R394's, so a false guard leaves it out (R393). -/
def execFcvt (c : Nat) (o : ROps) (s : State) : Out :=
  coreR c (.fcvt c o) o 0x01 0x4B [o.sd.toNat, o.sa.toNat]
    (fun t =>
      if fcvtPair o.x.toNat then effS c o.sd.toNat (fcvtResult o.x.toNat ((t.cell c).s o.sa.toNat)) t
      else .exc excIllegalOp 0) s

end Sys2Proof.Machine
end

