-- ==== Sys2Proof/Machine/Branch.lean ====
section
/-! DEFINITION. The branch class (Table 13-6). -/

namespace Sys2Proof.Machine

/-- The target PC + IMM of a relative branch. -/
def relTarget (k : Cell) (o : IOps) : Int := (k.pc.toNat : Int) + (immI o.imm).toInt

/-- The link PC + 1. -/
def linkWord (k : Cell) : W64 := BitVec.ofNat 64 (k.pc.toNat + 1)

/-- BR: PC := PC + IMM. -/
def execBr (c : Nat) (o : IOps) (s : State) : Out :=
  coreI c (.br c o) o 0x02 0x00 [] (fun t => .jump (relTarget (t.cell c) o) t) s

/-- CALL: SD := PC + 1; PC := PC + IMM. -/
def execCall (c : Nat) (o : IOps) (s : State) : Out :=
  coreI c (.call c o) o 0x02 0x01 [o.sd.toNat]
    (fun t => .jump (relTarget (t.cell c) o) (t.setCell c ((t.cell c).setS o.sd.toNat (linkWord (t.cell c))))) s

/-- JMP: PC := SA. -/
def execJmp (c : Nat) (o : ROps) (s : State) : Out :=
  coreR c (.jmp c o) o 0x02 0x02 [o.sa.toNat] (fun t => .jump ((t.cell c).s o.sa.toNat).toNat t) s

/-- CALLR: SD := PC + 1; PC := SA. -/
def execCallr (c : Nat) (o : ROps) (s : State) : Out :=
  coreR c (.callr c o) o 0x02 0x03 [o.sd.toNat, o.sa.toNat]
    (fun t => .jump ((t.cell c).s o.sa.toNat).toNat
      (t.setCell c ((t.cell c).setS o.sd.toNat (linkWord (t.cell c))))) s

/-- DBNZ: SD := SD − 1; if the value SD − 1 is not 0, PC := PC + IMM (DEDUCED, log entry 12 for s0). -/
def execDbnz (c : Nat) (o : IOps) (s : State) : Out :=
  coreI c (.dbnz c o) o 0x02 0x04 [o.sd.toNat]
    (fun t =>
      let v := (t.cell c).s o.sd.toNat - 1
      let u := t.setCell c ((t.cell c).setS o.sd.toNat v)
      if v = 0 then .done u else .jump (relTarget (t.cell c) o) u) s

end Sys2Proof.Machine
end

