-- ==== Sys2Proof/Machine/Gather.lean ====
section
/-! DEFINITION. The gather converter of a groundsheet: weight tiles from committed master values (R190 to R197, R208,
R249 to R254). -/

namespace Sys2Proof.Machine

/-! ### Building a tile (R194, R195) -/

/-- A magnitude of a finite W32 value in units of 2⁻²⁷⁶, the spacing of its subnormals. -/
def w32Units (v : Val) : Nat := floorFrac (mulPow2 (magVal v) 276)

/-- The outliers of one block whose first element has position `p`: finite, and above the threshold times the mean
magnitude of its finite elements; padding is none (R194). -/
def blockOutliers (thr : Frac) (p : Nat) (b : List (Option Val)) : List Nat :=
  let us := b.filterMap (fun v => v.bind (fun x => if isFinVal x then some (w32Units x) else none))
  -- |v| × n × den > num × sum, which is |v| > threshold × mean
  let lim := thr.num * sumNat us
  (b.zipIdx).filterMap (fun x => x.1.bind (fun v =>
    if isFinVal v && lim < w32Units v * us.length * thr.den then some (p + x.2) else none))

/-- The outliers of a tile for a threshold, in ascending position; +0 has none (R194). -/
def outliers (thr : Val) (g : List (Option Val)) : List Nat :=
  if isZeroVal thr then [] else ((chunkList 32 g).zipIdx).flatMap (fun b => blockOutliers (magVal thr) (32 * b.2) b.1)

/-- OTHR of a layer for a format (Table 7-3). -/
def LDesc.othr (d : LDesc) (f : Nat) : Val :=
  decW32 (BitVec.ofNat 32 (if f = 0 then d.othrTn else if f = 1 then d.othrQ2 else d.othrQ4))

/-- The format that escalation ends at, with the outliers for it (R195). -/
def escalate (d : LDesc) (g : List (Option Val)) : Nat → Nat → Nat × List Nat
  | 0, f => (f, [])
  | n + 1, f =>
    if f = 4 then (4, []) else
    let o := outliers (d.othr f) g
    if o.length ≤ 64 ∨ f = d.escMax then (f, o) else escalate d g n (if f = 2 then 4 else 2)

/-- Inserts a position by descending magnitude, ties to the lower position. -/
def insertBig (m p : Nat) : List (Nat × Nat) → List (Nat × Nat)
  | [] => [(m, p)]
  | x :: xs => if x.1 < m ∨ (x.1 = m ∧ p < x.2) then (m, p) :: x :: xs else x :: insertBig m p xs

/-- The 64 outliers of largest magnitude, in ascending position (R195). -/
def biggest (g : List (Option Val)) (o : List Nat) : List Nat :=
  let mag := fun p : Nat => w32Units ((g.getD p none).getD valZero)
  let top := (o.foldl (fun l p => (insertBig (mag p) p l).take 64) []).map (·.2)
  o.filter top.contains

/-- A tile as built: its format, mittens (position, H16 value), block scales, levels or trits, H16 codes, and what its
conversion counts. -/
structure TileBuild where
  fmt : Nat := 4
  mit : List (Nat × Nat) := []
  scales : List Nat := []
  levels : List Int := []
  codes : List Nat := []
  capped : Bool := false
  fl : NFlags := {}
  inv : Nat := 0
  clips : Nat := 0
  unmit : Nat := 0
  deriving DecidableEq, Repr

/-- Every element rounded into H16 (R195, R250): padding is +0. -/
def buildH16 (g : List (Option Val)) : TileBuild :=
  let one := fun v : Option Val => match v with | some x => (roundFloat fmtH16 .rne x).1 | none => 0
  let fl := fun v : Option Val => match v with
    | some x => ({ nan := isNanVal x, ovf := isOvfVal x || (roundFloat fmtH16 .rne x).2 } : NFlags)
    | none => {}
  { codes := g.map one, fl := g.foldl (fun a v => orFlags a (fl v)) {} }

/-- The scale of a block: 0xFF with a non-finite element, else by the layer's rule from the elements that are not mittens
(R83 to R85). -/
def blockScale (rule f : Nat) (p : Nat) (mit : List Nat) (b : List (Option Val)) : Nat :=
  if b.any (fun v => v.elim false (fun x => !isFinVal x)) then 0xFF
  else computedScale rule f ((b.zipIdx).filterMap (fun x => if mit.contains (p + x.2) then none else x.1.map magVal))

/-- The level or trit of an element and whether it clips: padding and mittens carry +3, or trit 0 (R64, R86 to R89, R191).
Padding of a block whose scale is 0x00 or 0xFF is +3 as well (DESIGN CHOICE, log entry 60: R64 and R72 against R87). -/
def elemLevel (f s : Nat) (held : Bool) (v : Option Val) : Int × Bool :=
  match v with
  | none => (if f = 0 then 0 else 3, false)
  | some x =>
    if held then (if f = 0 then 0 else 3, false) else if f = 0 then (tnLevel x s, false) else q4Level x s

/-- Levels, scales and counts of a narrow tile whose mittens are given (R195). -/
def buildNarrow (rule f : Nat) (mit : List Nat) (g : List (Option Val)) : TileBuild :=
  let bs := (chunkList 32 g).zipIdx
  let ss := bs.map (fun b => blockScale rule f (32 * b.2) mit b.1)
  let ls := bs.flatMap (fun b => (b.1.zipIdx).map (fun x =>
    elemLevel f (ss.getD b.2 0) (mit.contains (32 * b.2 + x.2)) x.1))
  let h := fun p : Nat => roundFloat fmtH16 .rne ((g.getD p none).getD valZero)
  let bad := fun q : Val → Bool => g.any (fun v => v.elim false q)
  { fmt := f, mit := mit.map (fun p => (p, (h p).1)), scales := ss, levels := ls.map (·.1),
    fl := { nan := bad isNanVal, ovf := bad isOvfVal || mit.any (fun p => (h p).2), scaleinv := ss.contains 0xFF },
    inv := ss.count 0xFF, clips := ls.countP (·.2) }

/-- The tile that R195 builds for elements requested at format `f`. -/
def buildTile (d : LDesc) (f : Nat) (g : List (Option Val)) : TileBuild :=
  let e := escalate d g 4 f
  if e.1 = 4 then buildH16 g
  else
    let o := if 64 < e.2.length then biggest g e.2 else e.2
    let zeros := if d.zeroMitten ∧ e.1 ≠ 0 then
        (g.zipIdx).filterMap (fun x => if x.1.elim false isZeroVal then some x.2 else none)
      else []
    let take := zeros.take (64 - o.length)
    let mit := if take.isEmpty then o else (List.range g.length).filter (fun p => o.contains p || take.contains p)
    { buildNarrow d.scaleRule e.1 mit g with capped := decide (64 < e.2.length), unmit := zeros.length - take.length }

/-! ### Laying a tile out (R62, R63, R68, R190, R191) -/

/-- Bytes followed by zeros up to a length. -/
def padBytes (n : Nat) (l : List Byte) : List Byte := l ++ List.replicate (n - l.length) 0

/-- Four 2-bit codes to a byte (R62). -/
def packQ2 (cs : List Nat) : List Byte := (chunkList 4 cs).map (fun c => BitVec.ofNat 8 (c.foldr (fun x a => x + 4 * a) 0))

/-- Five trits to a byte; unused trits of the last are 0 (R68, R69). -/
def packTn (ts : List Int) : List Byte :=
  (chunkList 5 ts).map (fun c => BitVec.ofNat 8
    ((c ++ List.replicate (5 - c.length) 0).foldr (fun t a => (t + 1).toNat + 3 * a) 0))

/-- The payload of a tile of `p` elements, from offset 64 on. -/
def TileBuild.payload (t : TileBuild) (p : Nat) : List Byte :=
  if t.fmt = 4 then t.codes.flatMap (leBytes 2)
  else
    let bc := planeBytes t.fmt p
    let q2 := packQ2 (t.levels.map q2CodeOf)
    let planes :=
      if t.fmt = 0 then padBytes bc (packTn t.levels)
      else if t.fmt = 1 then padBytes bc q2
      else padBytes bc q2 ++ padBytes bc (packQ2 (t.levels.map linerOf))
    planes ++ padBytes (up64 (ceilDiv p 32)) (t.scales.map (BitVec.ofNat 8))
      ++ padBytes (up64 (4 * t.mit.length)) (t.mit.flatMap (fun m => leBytes 4 (m.1 + 2 ^ 16 * m.2)))

/-- A response header with the fields of a tile of `n` stored rows of `kt` elements, as requested at format `f`. -/
def tileHdr (h : Hdr) (t : TileBuild) (f kt n len : Nat) : Hdr :=
  let h1 := { h with fmt := BitVec.ofNat 4 t.fmt, blk := if t.fmt = 4 then 0 else 1,
                     mittens := BitVec.ofNat 8 t.mit.length,
                     scaleLoc := BitVec.ofNat 16 (if t.fmt = 4 then 0 else codesEnd t.fmt (kt * n) / 64),
                     dim0 := BitVec.ofNat 24 kt, dim1 := BitVec.ofNat 32 n, len := BitVec.ofNat 32 (64 + len) }
  setHdrFlag (setHdrFlag h1 1 (t.fmt != f)) 2 t.capped

/-- A liner plane as a tile of format Q4 with LINER_ONLY set: mittens and scales stay with the Q2 tile held (R208). -/
def linerHdr (h : Hdr) (kt n : Nat) : Hdr :=
  let bc := planeBytes 2 (kt * n)
  setHdrFlag { h with fmt := 2, blk := 1, scaleLoc := BitVec.ofNat 16 (codesEnd 2 (kt * n) / 64),
                      dim0 := BitVec.ofNat 24 kt, dim1 := BitVec.ofNat 32 n, len := BitVec.ofNat 32 (64 + bc) } 0 true

/-- The NaN tile of a shape: H16, every element 0x7F80 (R251, R285; DEDUCED, log entry 30 for its padding). -/
def nanTile (h : Hdr) (kt n : Nat) : Hdr × List Byte :=
  let b := padBytes (up64 (2 * kt * n)) ((List.replicate (kt * n) 0x7F80).flatMap (leBytes 2))
  ({ h with fmt := 4, dim0 := BitVec.ofNat 24 kt, dim1 := BitVec.ofNat 32 n, len := BitVec.ofNat 32 (64 + b.length) }, b)

/-! ### Counts (R197, R216, R254) -/

/-- The pool address of a layer's counter record (R216). -/
def State.lcntAddr (s : State) (l : Nat) : Nat := s.reg64 Reg.modLcntBaseLo Reg.modLcntBaseHi + 32 * l

/-- Adds one to count `w` of a layer's counter record, saturating; a page that is not served takes nothing (R216,
R523). -/
def State.countLayer (s : State) (code l w : Nat) : State :=
  let a := s.lcntAddr l + 4 * w
  if s.layerCount ≤ l then s
  else if s.pageHere (a / pageBytes) = false then s.notServed code (a / pageBytes)
  else (s.poolTouch a 4).poolWrite a (leBytes 4 (min (s.poolNat a 4 + 1) 0xFFFFFFFF))

/-- The pages in which a layer's descriptor and counter record lie. -/
def State.layerPages (s : State) (l : Nat) : List Nat :=
  if l < s.layerCount then [s.layerAddr l / pageBytes, s.lcntAddr l / pageBytes] else []

/-- A count that is advanced where a condition holds. -/
def State.bumpIf (s : State) (b : Bool) (off : Nat) : State := if b then s.bump off else s

/-- What a tile served at a format counts (R197, R254; DEDUCED, log entry 31 for a tile that climbs two rungs). -/
def State.countTile (s : State) (n layer f : Nat) (t : TileBuild) : State :=
  let st := Reg.gsGatherStatus n
  let s1 := s.setReg st (s.reg st ||| BitVec.ofNat 32 (b2n t.fl.nan + 2 * b2n t.fl.ovf + 4 * b2n t.fl.scaleinv))
  let s2 := ((s1.bumpBy (Reg.gsScaleInvalid n) t.inv).bumpBy (Reg.gsGatherClips n) t.clips).bumpBy (Reg.gsZeroUnmit n) t.unmit
  let code := 0x8000 + n
  let s3 := if t.fmt = f then s2
    else if t.fmt = 2 then (s2.bump (Reg.gsEscQ4 n)).countLayer code layer 2
    else (s2.bump (Reg.gsEscH16 n)).countLayer code layer 3
  if t.capped then
    ((s3.bump (Reg.gsEscCapped n)).countLayer code layer 4).reportLim 0x0505 n (unitGs n) (n + 2 ^ 12 * (layer % 2 ^ 20))
  else s3

/-! ### Serving (R249 to R253, R285, R523) -/

/-- LAYER, FMT, LINER_ONLY, KT_IDX and NT_IDX of a gather request word (Table 8-5). -/
structure GWord where
  layer : Nat
  fmt : Nat
  liner : Bool
  kt : Nat
  nt : Nat
  deriving DecidableEq, Repr

/-- The fields of a gather request word. -/
def gWord (w : Nat) : GWord :=
  { layer := field w 19 0, fmt := field w 23 20, liner := w.testBit 24, kt := field w 38 25, nt := field w 52 39 }

/-- The clipped shape of a request under a record: rows and columns, 0 where it is empty (R250). -/
def State.clipShape (s : State) (n : Nat) (x : Shard) (g : GWord) : Nat × Nat :=
  (min 128 (x.unit * s.unitRows n + x.rows - 128 * g.kt), min 128 (x.cols - 128 * g.nt))

/-- The pool address and bytes of each row of a request's master values. -/
def State.masterRows (s : State) (n : Nat) (x : Shard) (g : GWord) (sh : Nat × Nat) : List (Nat × Nat) :=
  (List.range sh.1).map (fun r =>
    (pageBytes * x.master + 4 * ((128 * g.kt + r - x.unit * s.unitRows n) * x.cols + 128 * g.nt), 4 * sh.2))

/-- The pages of a list of spans. -/
def spanPages (l : List (Nat × Nat)) : List Nat := (l.flatMap (fun p => pagesOf p.1 p.2)).dedup

/-- The unit that a tile row lies in (R221). -/
def State.unitOfTile (s : State) (n : Nat) (g : GWord) : Nat := 128 * g.kt / s.unitRows n

/-- The pages that serving a request reads, as far as they can be told beforehand. -/
def State.gatherPages (s : State) (n : Nat) (g : GWord) : List Nat :=
  s.lookupPages n g.layer (s.unitOfTile n g) ++ s.layerPages g.layer
    ++ (match (s.soughtShard n g.layer (s.unitOfTile n g)).bind (s.peekShard n) with
      | some x => spanPages (s.masterRows n x g (s.clipShape n x g))
      | none => [])

/-- The elements of a tile in stored order, n-major, rows padded to a multiple of 32 (R64, R190, R250). -/
def gatherElems (rows : List (List W32)) (kr nc : Nat) : List (Option Val) :=
  let kt := ceilDiv kr 32 * 32
  (List.range (kt * nc)).map (fun i => if i % kt < kr then some (decW32 ((rows.getD (i % kt) []).getD (i / kt) 0)) else none)

/-- Answers a request under a valid record and a shape that is not empty. -/
def State.answerTile (s : State) (n : Nat) (h : Hdr) (g : GWord) (x : Shard) (sh : Nat × Nat) :
    (Hdr × List Byte) × State :=
  let hd := s.respHdr n h
  let spans := s.masterRows n x g sh
  let ps := spanPages spans
  match ps.find? (fun p => !s.pageHere p) with
  | some p => (nanTile hd sh.1 sh.2, (s.notServed (0x8000 + n) p).raiseFlag flagAbort h.epoch)
  | none =>
    let s1 := spans.foldl (fun t p => t.poolTouch p.1 p.2) s
    if ps.any (fun p => (s1.dir p).elim false (·.lost)) then (nanTile hd sh.1 sh.2, s1.raiseFlag flagEcc h.epoch)
    else
      let r := s1.readLayer (0x8000 + n) (unitGs n) g.layer
      let els := gatherElems (spans.map (fun p => payWords (s.poolRaw p.1 p.2) sh.2)) sh.1 sh.2
      let kt := ceilDiv sh.1 32 * 32
      let lin := g.liner && g.fmt == 2
      let want := if lin then 1 else g.fmt
      let t := buildTile r.1 (if want ≤ 2 then want else 4) els
      let s2 := r.2.countTile n g.layer want t
      if lin ∧ t.fmt = 1 then
        ((linerHdr hd kt sh.2, padBytes (planeBytes 2 (kt * sh.2)) (packQ2 (t.levels.map linerOf))),
          s2.bump (Reg.gsLiners n))
      else
        let b := t.payload (kt * sh.2)
        ((tileHdr hd t want kt sh.2 b.length, b), s2)

/-- The answer to a request of the current epoch (R250, R251). -/
def State.gatherAnswer (s : State) (n : Nat) (h : Hdr) : (Hdr × List Byte) × State :=
  let g := gWord h.arg.toNat
  let hd := s.respHdr n h
  let bad := fmtReserved g.fmt
  let abort := fun t : State =>
    if bad then t.gsReserved n g.fmt g.layer h.epoch else t.raiseFlag flagAbort h.epoch
  match s.lookupShard n true g.layer (s.unitOfTile n g) with
  | (none, s1) => (nanTile hd 128 128, abort s1)
  | (some x, s1) =>
    let sh := s1.clipShape n x g
    if sh.1 = 0 ∨ sh.2 = 0 then (nanTile hd 128 128, abort (s1.shardUnknown n true g.layer))
    else if bad then (nanTile hd sh.1 sh.2, abort s1)
    else s1.answerTile n h g x sh

/-- Serves a request of the current epoch: its one response is built and sent (R250, R251). -/
def State.serveTile (s : State) (n : Nat) (h : Hdr) : State :=
  let r := s.gatherAnswer n h
  (r.2.bump (Reg.gsGatherTiles n)).issueResp r.1.1 r.1.2

/-- Is a request served before another that arrived earlier: its deadline tick is lower (R252)? One without a deadline
is served after those with one (DESIGN CHOICE, log entry 32). -/
def GatherReq.before (a b : GatherReq) : Bool :=
  if hdrFlag a.h 7 != hdrFlag b.h 7 then hdrFlag a.h 7 else hdrFlag a.h 7 && decide (a.deadline < b.deadline)

/-- The request that the gather converter serves next: those held for the next epoch wait (R26, R252). -/
def State.pickGather (s : State) (n : Nat) : Option GatherReq :=
  ((s.gs n).reqs.filter (fun r => !(r.held && s.classify r.h.epoch == .next))).foldl
    (fun b r => match b with
      | none => some r
      | some x => if r.before x then some r else some x) none

/-- Serves the next request of a groundsheet (R26, R250, R251). -/
def State.serveGather (s : State) (n : Nat) : State :=
  match s.pickGather n with
  | none => s
  | some r =>
    let k := s.gs n
    match s.classify r.h.epoch with
    | .next => (s.holdReq n r).2.setGs n { k with reqs := k.reqs.replace r (s.holdReq n r).1 }
    | .stale => (s.setGs n { k with reqs := k.reqs.erase r }).answerStale n r.h
    | .current =>
      s.withPages (.gatherServe n) (s.gatherPages n (gWord r.h.arg.toNat))
        (fun t => (t.setGs n { k with reqs := k.reqs.erase r }).serveTile n r.h)

/-! ### Commands -/

/-- Does a header name a groundsheet of this module? -/
def gsUnitOk (h : Hdr) : Bool := 0x4000 ≤ h.dstUnit.toNat && h.dstUnit.toNat < 0x400C

/-- GATHER_REQ (R26, R251, R252): a request reaches its groundsheet, which keeps it until it is served; one that names the
next epoch is held for it. Its deadline is taken at the arrival of its header (R5, R51). -/
def execGatherReq (h : Hdr) (s : State) : Out :=
  let n := h.dstUnit.toNat - 0x4000
  .next (whenOk (s.up && gsUnitOk h) s
    (let r := (s.unstamp h).holdReq n ⟨h, fullTime (s.stampOf h) h.deadline, false⟩
     r.2.setGs n { r.2.gs n with reqs := (r.2.gs n).reqs ++ [r.1] }))

/-- GATHER_SERVE (R250, Table 8-7). -/
def execGatherServe (n : Nat) (s : State) : Out :=
  onUnit (n < 12) (whenOk (s.works && s.fld (Reg.gsCtrl n) 0 1 == 1) s (s.serveGather n))

end Sys2Proof.Machine
end

