-- ==== Sys2Proof/Machine/Matrix.lean ====
section
/-! DEFINITION. The matrix class (Table 13-7): MX.START, MX.MUL, MX.END, MX.TSW, MX.FENCE, and the end of a drain. -/

namespace Sys2Proof.Machine

/-- MX.START (R141, R142). -/
def execMxStart (c : Nat) (o : ROps) (s : State) : Out :=
  coreR c (.mxStart c o) o 0x04 0x00 [o.sa.toNat] (mxEffect c 0 o) s

/-- MX.MUL (R143 to R145). -/
def execMxMul (c : Nat) (o : ROps) (s : State) : Out :=
  coreR c (.mxMul c o) o 0x04 0x01 [o.sa.toNat, o.sb.toNat, o.sc.toNat] (mxEffect c 1 o) s

/-- MX.END (R146 to R149). -/
def execMxEnd (c : Nat) (o : ROps) (s : State) : Out :=
  coreR c (.mxEnd c o) o 0x04 0x02 [o.sa.toNat] (mxEffect c 2 o) s

/-- The handle of a queued matrix instruction. -/
def MxOp.handle : MxOp → Nat
  | .start h _ _ _ => h
  | .mul h _ _ _ _ _ => h
  | .fin h _ _ => h

/-- MX.TSW (R150): it waits until every earlier matrix instruction on the handle has executed. -/
def execMxTsw (c : Nat) (o : ROps) (s : State) : Out :=
  coreR c (.mxTsw c o) o 0x04 0x03 [o.sd.toNat]
    (fun t =>
      let k := t.cell c
      let h := o.x.toNat % 4
      if k.mxq.any (fun m => m.handle == h) then .stall
      else .done (t.setCell c ((k.settle (· == h)).setS o.sd.toNat (k.tswOf h)))) s

/-- Is a matrix fence met: no queued instruction has operands to read, and with operand 1 no drain is under way or queued
(R151)? -/
def State.mxDone (s : State) (c : Nat) (drains : Bool) : Bool :=
  let k := s.cell c
  !s.mxWillRead (k.tiles.filter (fun t => t.phase == .live)) k.mxq
    && (!drains || (k.tiles.all (fun t => t.phase == .live)
      && k.mxq.all (fun m => match m with | .fin _ _ _ => false | _ => true)))

/-- MX.FENCE (R151). -/
def execMxFence (c : Nat) (o : ROps) (s : State) : Out :=
  coreR c (.mxFence c o) o 0x04 0x04 []
    (fun t =>
      let k := t.cell c
      if t.mxDone c (o.x.toNat % 2 == 1) then .done (t.setCell c (k.settle (fun _ => true))) else .stall) s

/-- The tile of a handle whose drain to scratchpad or to the collective unit can end. -/
def Cell.drained (k : Cell) (h : Nat) : Option Tile :=
  k.tiles.find? (fun t => t.h == h && (match t.phase with | .spad _ => true | .taken => true | _ => false))

/-- The bytes that a drain to scratchpad writes (R147): the elements in row order, then the status word. -/
def drainBytes (t : Tile) : List Byte := t.elems.flatMap (fun e => leBytes 4 e.toNat) ++ leBytes 8 (tswWord t.tsw).toNat

/-- Ends a drain (R146): a scratchpad destination is written, as far as its slice reaches (DESIGN CHOICE, log entry 33), and
the banks are free. -/
def State.endDrain (s : State) (c h : Nat) (t : Tile) : State :=
  let s1 := match t.phase with
    | .spad a => s.spadWrite a ((drainBytes t).take (spadRoom a))
    | _ => s
  let k := s1.cell c
  (s1.setCell c ({ k with tiles := k.tiles.filter (fun x => !(x.h == h && x.phase == t.phase)) }.settle (· == h))).runEngines c

/-- MX_DRAIN_COMPLETE (R146). A drain to RED ends once the collective unit has taken its piece (R373). -/
def execMxDrainComplete (c h : Nat) (s : State) : Out :=
  onUnit (c < 512) (match (s.cell c).drained h with
    | some t => whenOk s.works s (s.endDrain c h t)
    | none => s)

end Sys2Proof.Machine
end

