-- ==== Sys2Proof/Machine/TileMove.lean ====
section
/-! DEFINITION. The tile move class: the repeat check and wide-lock, widening, copies (R203 to R212, R397). -/

namespace Sys2Proof.Machine

/-! ### Wide-lock (R210, R211) -/

/-- Engages wide-lock for an epoch, for a check of a layer on a cell, unless it is engaged for it (R210). -/
def State.engageLock (s : State) (c layer : Nat) (e : W32) : State :=
  if s.fld Reg.modFbStatus 0 1 = 1 ∧ s.reg Reg.modFbLockEpoch = e then s
  else
    let s1 := ((s.setFld Reg.modFbStatus 0 1 1).setReg Reg.modFbLockEpoch e).setReg64 Reg.modFbLockTickLo
      Reg.modFbLockTickHi s.pitch
    let s2 := (s1.bump Reg.modWideLocks).report 0x0504 (unitCell c) (layer % 2 ^ 20 + 2 ^ 20 * (e.toNat % 2 ^ 12))
    (List.range 8).foldl (fun t d => t.setPhaseAcc d { t.phaseAcc d with locked := true }) s2

/-- A gather request word with another format, for a whole tile or for a liner (R208, R211, R315; DEDUCED, log entry 34). -/
def reWord (w : W64) (fmt : Nat) (liner : Bool) : W64 :=
  BitVec.ofNat 64 (putField (putField w.toNat 20 4 fmt) 24 1 (b2n liner))

/-! ### The repeat check (R204, R205) -/

/-- The next rung for weights (Table 7-5). -/
def nextW (f : Nat) : Option Nat := if f = 0 ∨ f = 1 then some 2 else if f = 2 then some 4 else none

/-- The next rung for activations (Table 7-5). -/
def nextA (f : Nat) : Option Nat := if f = 3 then some 4 else none

/-- The result word of TM.RCHK: WIDEN_W, WIDEN_A, DENIED, LOCK, TOP and the two formats (R204). -/
def rchkWord (ww wa denied lock top : Bool) (fw fa : Nat) : W64 :=
  BitVec.ofNat 64 (b2n ww + 2 * b2n wa + 4 * b2n denied + 8 * b2n lock + 16 * b2n top + 2 ^ 8 * (fw % 16) + 2 ^ 12 * (fa % 16))

/-- Denies a check; the first for want of budget engages wide-lock (R205, R210). -/
def State.rchkDeny (s : State) (c layer : Nat) (lock : Bool) : State :=
  let s1 := (s.bump Reg.modRptDenied).countLayer c layer 5
  if lock then s1 else s1.engageLock c layer s.epoch

/-- Counts a grant of one operand. -/
def State.rchkGrant (s : State) (c layer : Nat) (b : Bool) (off w : Nat) : State :=
  if b then (s.bump off).countLayer c layer w else s

/-- Decides a repeat check from a status word and a check word: the result word and the state after (R205). On a denial
the format fields return WNOW and ANOW (DEDUCED, log entry 35). -/
def State.rchk (s : State) (c : Nat) (tsw chk : W64) : W64 × State :=
  let k := chk.toNat
  let layer := field k 19 0
  let wnow := field k 23 20
  let anow := field k 27 24
  let r := s.readLayer c (unitCell c) layer
  let d := r.1
  let lock := s.wideOn s.epoch
  if k.testBit 28 then
    (if lock && d.wlockEn then rchkWord false false false lock false d.wlockW d.wlockA
     else rchkWord false false false lock false d.wfmt d.afmt, r.2)
  else
    let tw := d.rptW && (tsw.getLsbD 3 || tsw.getLsbD 4)
    let ta := d.rptA && decide (d.satThr < field tsw.toNat 31 16)
    let wn := if tw then nextW wnow else none
    let an := if ta then nextA anow else none
    let top := (tw && wn.isNone) || (ta && an.isNone)
    let s1 := if top then (r.2.bump Reg.modRptTop).countLayer c layer 6 else r.2
    if wn.isNone && an.isNone then (rchkWord false false false false top wnow anow, s1)
    else if lock ∨ s1.reg Reg.modFbRemain = 0 then
      (rchkWord false false true false top wnow anow, s1.rchkDeny c layer lock)
    else
      let s2 := s1.setReg Reg.modFbRemain (s1.reg Reg.modFbRemain - 1)
      let s3 := (s2.rchkGrant c layer wn.isSome Reg.modRptW 0).rchkGrant c layer an.isSome Reg.modRptA 1
      (rchkWord wn.isSome an.isSome false false top (wn.getD wnow) (an.getD anow), s3)

/-- An exception is taken from the state in which the wait for pages has ended. -/
def Eff.from (u : State) : Eff → Eff
  | .exc cause _ => .excRead u cause
  | e => e

/-- An instruction of a cell that reads pages: it waits for those held in the far tier (R301). -/
def State.pagesFirst (s : State) (c : Nat) (ps : List Nat) (eff : State → Eff) : Eff :=
  let need := s.farNeed (.core c) ps
  if need.isEmpty then (eff (s.goOn (.core c))).from (s.goOn (.core c)) else .wait (s.waitFar (.core c) need c)

/-- TM.RCHK (R204 to R206). -/
def execTmRchk (c : Nat) (o : ROps) (s : State) : Out :=
  coreR c (.tmRchk c o) o 0x03 0x00 [o.sd.toNat, o.sa.toNat, o.sb.toNat]
    (fun t =>
      let k := t.cell c
      t.pagesFirst c (t.layerPages (field (k.s o.sb.toNat).toNat 19 0)) (fun u =>
        let r := u.rchk c (k.s o.sa.toNat) (k.s o.sb.toNat)
        effS c o.sd.toNat r.1 r.2)) s

/-! ### Copies (R397) -/

/-- TM_FMT (Table 13-10). -/
def excTmFmt : Nat := 0x30
/-- TM_ADDR. -/
def excTmAddr : Nat := 0x31

/-- Are the operands of a copy of `n` bytes in order (R397)? -/
def copyOk (n src dst : Nat) : Bool :=
  n != 0 && src % 64 == 0 && dst % 64 == 0 && spadIn src n && spadIn dst n

/-- Is the source of byte `i` of a copy a byte that the copy writes too (R170, R397)? -/
def copyOpen (n src dst i : Nat) : Bool := src != dst && dst ≤ src + i && src + i < dst + n

/-- Byte `i` of a copy: its source byte as it was, or, where the copy writes that one too, that or what the copy wrote
there, and which of the two is free (R170; DESIGN CHOICE, log entry 4). The first argument bounds how many times a byte
can be handed on. -/
def copyByte (m : List (Nat × Byte)) (free n src dst : Nat) : Nat → Nat → Byte
  | 0, i => memByte m (src + i)
  | f + 1, i =>
    if copyOpen n src dst i ∧ Config.freeBool (free + i) then copyByte m free n src dst f (src + i - dst)
    else memByte m (src + i)

/-- Copies `n` bytes of scratchpad (R397). -/
def State.copySpad (s : State) (n src dst : Nat) : State :=
  let s1 := s.spadTouch src n
  let bs := (List.range n).map (copyByte s1.spad s1.free n src dst (n / 64))
  ({ s1 with free := s1.free + n }).spadWrite dst bs

/-- The length in bytes that SA[23:0] gives (R397). -/
def copyLen (w : W64) : Nat := 64 * (w.toNat % 2 ^ 24)

/-- TM.COPY (R397; DESIGN CHOICE, log entry 49: the copy is made as it issues). -/
def execTmCopy (c : Nat) (o : ROps) (s : State) : Out :=
  coreR c (.tmCopy c o) o 0x03 0x02 [o.sa.toNat]
    (fun t =>
      let k := t.cell c
      let n := copyLen (k.s o.sa.toNat)
      let src := (k.a o.ax.toNat).toNat
      let dst := (k.a o.ay.toNat).toNat
      if copyOk n src dst then .done (t.copySpad n src dst) else .exc excTmAddr 0) s

/-- TM.FENCE (Table 13-7): copies end when they are issued; widens are awaited. -/
def execTmFence (c : Nat) (o : ROps) (s : State) : Out :=
  coreR c (.tmFence c o) o 0x03 0x03 [] (fun t => if (t.cell c).widens.isEmpty then .done t else .stall) s

/-! ### Widening (R207 to R209) -/

/-- The bytes of a tile that a Q2 widen reads from its source, header included. -/
def q2Span (h : Hdr) : Nat :=
  max (codesEnd 1 (hdrCount h)) (mittenOff h + up64 (4 * h.mittens.toNat))

/-- The bytes of the Q4 layout that completes a Q2 tile (Table 7-1). -/
def q4Span (h : Hdr) : Nat :=
  codesEnd 2 (hdrCount h) + up64 (ceilDiv (hdrCount h) 32) + up64 (4 * h.mittens.toNat)

/-- The cause that a widen raises, if any: TM_ADDR for the source, TM_FMT, TM_ADDR for the destination (R207; DEDUCED, log entry 33
for the bytes that count). -/
def State.checkWiden (s : State) (c src dst : Nat) (w : W64) : Option Nat :=
  let h := s.spadHdr src
  let q2 := h.fmt == 1
  firstCause [(src % 64 != 0 || !spadIn src 64, excTmAddr),
    (nextW h.fmt.toNat != some (field w.toNat 3 0), excTmFmt),
    (q2 && !spadIn src (q2Span h), excTmAddr),
    (!alignedOk c dst (if q2 then q4Span h else 64) true, excTmAddr)]

/-- Copies the Q2 plane, scales and mittens of a tile into the Q4 layout; the header is written last (R208). -/
def State.copyQ2 (s : State) (src dst : Nat) (h : Hdr) : State :=
  let p := hdrCount h
  let rest := up64 (ceilDiv p 32) + up64 (4 * h.mittens.toNat)
  let s1 := s.spadTouch src (q2Span h)
  (s1.spadWrite (dst + 64) (s1.spadBytes (src + 64) (planeBytes 1 p))).spadWrite (dst + codesEnd 2 p)
    (s1.spadBytes (src + 64 * h.scaleLoc.toNat) rest)

/-- The header of a gather request (Tables 11-5 and 11-6). -/
def State.gatherHdr (s : State) (c : Nat) (word : W64) (dst gs : Nat) (e : W32) (dl : Bool) (low : W32) : Hdr :=
  { kind := 1, layer := word.setWidth 20, flags := if dl then 0x80 else 0, epoch := e, deadline := if dl then low else 0,
    src := BitVec.ofNat 17 s.ownAddr, srcUnit := BitVec.ofNat 15 c, len := 64, arg := word.setWidth 128,
    dst := BitVec.ofNat 17 dst, dstUnit := BitVec.ofNat 15 gs }

/-- The lowest number that no widen of a cell has. -/
def Cell.freeWiden (k : Cell) : Nat :=
  ((List.range (k.widens.length + 1)).find? (fun i => (alistGet k.widens i).isNone)).getD 0

/-- Starts a widen with a tag for its fetch (R207, R208). -/
def State.startWiden (s : State) (c tag src dst sd : Nat) (req w : W64) : State :=
  let h := s.spadHdr src
  let q2 := h.fmt == 1
  let target := field w.toNat 3 0
  let dl := w.getLsbD 4
  let low := BitVec.ofNat 32 (field w.toNat 63 32)
  let word := reWord req target q2
  let s1 := if q2 then s.copyQ2 src dst h else s.spadTouch src 64
  let k := s1.cell c
  let i := k.freeWiden
  let x : Widen := { src := src, dst := dst, target := target, word := word, epoch := h.epoch, hdr := h, dlEn := dl,
                     deadline := fullTime s.pitch low, tag := some tag, sd := sd }
  let k1 := { k with widens := tabPut i x k.widens, owed := if sd = 0 then k.owed else sd :: k.owed }
  (s1.setCell c k1).startTxn tag (.widen c i)
    (s1.gatherHdr c word h.src.toNat h.srcUnit.toNat h.epoch dl low) 0

/-- A unit stalls for want of a tag, counted once as it begins to wait (R356). -/
def State.tagWait (s : State) (c : Nat) (i : Instr) : Eff :=
  if (s.cell c).stall = some i then .stall else .wait (s.bump Reg.fabTagStall)

/-- TM.WIDEN (R207 to R209). -/
def execTmWiden (c : Nat) (o : ROps) (s : State) : Out :=
  coreR c (.tmWiden c o) o 0x03 0x01 [o.sd.toNat, o.sa.toNat, o.sb.toNat]
    (fun t =>
      let k := t.cell c
      let src := (k.a o.ax.toNat).toNat
      let dst := (k.a o.ay.toNat).toNat
      match t.checkWiden c src dst (k.s o.sb.toNat) with
      | some e => .exc e 0
      | none =>
        match t.nextTag with
        | none => t.tagWait c (.tmWiden c o)
        | some tag =>
          .done (t.startWiden c tag src dst o.sd.toNat (k.s o.sa.toNat) (k.s o.sb.toNat))) s

/-- Writes bytes at a destination of a cell, as far as its slice reaches (DEDUCED, log entry 33). -/
def State.spadPut (s : State) (a : Nat) (bs : List Byte) : State := s.spadWrite a (bs.take (spadRoom a))

/-- Writes an object of header and payload, the header last (R307, R208). -/
def State.putObject (s : State) (a : Nat) (h : Hdr) (payload : List Byte) : State :=
  (s.spadPut (a + 64) (padBytes (h.len.toNat - 64) payload)).spadWrite a (hdrBytes h)

/-- Writes what a widen fetched: the liner of the Q2 plane already copied, or a whole tile (R208). -/
def State.writeWiden (s : State) (x : Widen) (h : Hdr) (payload : List Byte) : State :=
  if hdrFlag h 0 ∧ x.hdr.fmt = 1 then
    let p := hdrCount x.hdr
    let bc := planeBytes 2 p
    let h1 := { x.hdr with fmt := 2, scaleLoc := BitVec.ofNat 16 (codesEnd 2 p / 64),
                           len := BitVec.ofNat 32 (q4Span x.hdr) }
    (s.spadPut (x.dst + 64 + bc) (padBytes bc (payload.take bc))).spadWrite x.dst
      (hdrBytes (setHdrFlag (setHdrFlag h1 0 false) 3 true))
  else s.putObject x.dst (setHdrFlag h 3 true) payload

/-- Ends a widen with its result code (R209). -/
def State.endWiden (s : State) (c i sd code : Nat) : State :=
  let k := s.cell c
  s.setCell c { k.setS sd (BitVec.ofNat 64 code) with widens := tabDel i k.widens, owed := k.owed.erase sd }

/-- WIDEN_COMPLETE (R208, R209): the fetch has ended. -/
def execWidenComplete (c i : Nat) (s : State) : Out :=
  onUnit (c < 512) (match alistGet (s.cell c).widens i with
    | none => s
    | some x =>
      whenOk s.works s
        (match x.resp with
          | some (h, payload) =>
            if hdrFlag h 4 then s.endWiden c i x.sd 1
            else if fmtReserved h.fmt.toNat then
              (s.cellReserved c h.fmt.toNat h.layer.toNat (some h.epoch)).endWiden c i x.sd 2
            else (s.writeWiden x h payload).endWiden c i x.sd 0
          | none => if x.failed then s.endWiden c i x.sd 2 else s))

end Sys2Proof.Machine
end

