-- ==== Sys2Proof/Machine/Coll.lean ====
section
/-! DEFINITION. Collectives of a cell and the channel messages of the collective units (R373 to R384). -/

namespace Sys2Proof.Machine

/-! ### Exceptions (Table 12-6) -/

/-- CL_OP. -/
def excClOp : Nat := 0x50
/-- CL_FMT. -/
def excClFmt : Nat := 0x51
/-- CL_SHAPE. -/
def excClShape : Nat := 0x52
/-- CL_GROUP. -/
def excClGroup : Nat := 0x53
/-- CL_ADDR. -/
def excClAddr : Nat := 0x54
/-- CL_HANDLE. -/
def excClHandle : Nat := 0x55

/-! ### The words of a collective (Tables 12-3 and 12-4) -/

/-- FMT of a collective word. -/
def collFmt (w : W64) : Nat := field w.toNat 7 4
/-- The source size X in bytes. -/
def collBytes (w : W64) : Nat := 64 * field w.toNat 31 8
/-- GROUP of a collective word. -/
def collGroup (w : W64) : Nat := field w.toNat 47 32
/-- ID of a collective word. -/
def collId (w : W64) : Nat := field w.toNat 63 48
/-- CHAN_BASE of a route word. -/
def routeBase (r : W64) : Nat := field r.toNat 15 0
/-- PEER_A of a route word. -/
def routeA (r : W64) : Nat := field r.toNat 32 16
/-- PEER_B of a route word. -/
def routeB (r : W64) : Nat := field r.toNat 49 33
/-- R of a route word. -/
def routeRadix (r : W64) : Nat := min (field r.toNat 52 50) 6 + 2

/-- Does an operation sum (RS, AR)? -/
def collSums (op : Nat) : Bool := op == 0 || op == 2

/-- X in W32: twice the bytes of an H16 source (R381). -/
def collWide (w : W64) : Nat := if collFmt w = 4 then 2 * collBytes w else collBytes w

/-- The bytes of the destination (Table 12-5). -/
def collDest (op g : Nat) (w : W64) : Nat :=
  if op = 0 then collWide w / g else if op = 1 then g * collBytes w else if op = 2 then collWide w else collBytes w

/-- Is an extent in the addressable scratchpad and aligned (Table 12-6)? -/
def collAddrOk (a n : Nat) : Bool := a % 64 == 0 && spadIn a n

/-- The cause that a collective raises, if any (Table 12-6; DEDUCED, log entry 37 for the order). -/
def State.checkColl (s : State) (op : Nat) (w r : W64) (src dst : Nat) : Option Nat :=
  if field w.toNat 3 0 ≠ op ∨ field r.toNat 63 53 ≠ 0 then some excClOp
  else if fmtReserved (collFmt w) ∨ (collSums op ∧ collFmt w ≠ 4 ∧ collFmt w ≠ 5) then some excClFmt
  else match s.validGroup (collGroup w) with
    | none => some excClGroup
    | some ms =>
      let g := ms.length
      firstCause [(decide (65536 < routeBase r + g), excClGroup),
        (op == 0 && field w.toNat 31 8 % g != 0, excClShape),
        (g ≤ routeA r || g ≤ routeB r, excClShape),
        (!collAddrOk src (collBytes w) || !collAddrOk dst (collDest op g w), excClAddr)]

/-! ### Trees (R371) -/

/-- The rank of a member in a tree. -/
def treeRank (g root m : Nat) : Nat := (m + g - root) % g

/-- The member of a rank. -/
def treeMember (g root j : Nat) : Nat := (j + root) % g

/-- The ranks of the children of a rank, ascending. -/
def treeKids (g radix j : Nat) : List Nat :=
  (List.range radix).filterMap (fun i => let c := radix * j + 1 + i; if c < g then some c else none)

/-- The size of a collective's group. -/
def Coll.g (k : Coll) : Nat := k.members.length

/-- The members below this one in the tree of a root, in the order of R371. -/
def Coll.kids (k : Coll) (root : Nat) : List Nat :=
  (treeKids k.g (routeRadix k.route) (treeRank k.g root k.rank)).map (treeMember k.g root)

/-- The member above this one in the tree of a root; none at the root. -/
def Coll.parent (k : Coll) (root : Nat) : Option Nat :=
  let j := treeRank k.g root k.rank
  if j = 0 then none else some (treeMember k.g root ((j - 1) / routeRadix k.route))

/-- The members that this one exchanges messages with. -/
def Coll.peers (k : Coll) : List Nat :=
  if k.op = 4 then [routeA k.route, routeB k.route]
  else (if k.op ≤ 1 then List.range k.g else [routeA k.route]).flatMap (fun r => k.kids r ++ (k.parent r).toList)

/-- Does a collective use a channel context (R380, R383)? -/
def Coll.uses (k : Coll) (c : Nat) : Bool := k.peers.any (fun m => routeBase k.route + m == c)

/-- The bytes of one tree's data: a chunk, or the whole (R381). -/
def Coll.size (k : Coll) : Nat :=
  if k.op = 0 then collWide k.word / k.g else if k.op = 2 then collWide k.word else collBytes k.word

/-! ### Sending (R382) -/

/-- Sends one message of a collective to a member, from the unit of its cell's die: kind COLL, or EXCH with only ID, sender and
offset in ARG. -/
def State.collSend (s : State) (c i : Nat) (k : Coll) (chunk : Nat) (p : Nat × List Byte) (to_ : Nat) : State :=
  let ctx := routeBase k.route + to_
  let arg := collId k.word + 2 ^ 19 * k.rank + 2 ^ 64 * p.1
    + (if k.op = 4 then 0 else 2 ^ 16 * k.op + 2 ^ 36 * chunk)
  s.cuSend (dieOf c)
    { ctx := ctx, payload := p.2, owner := some (c, i),
      h := { kind := if k.op = 4 then 6 else 5, src := BitVec.ofNat 17 s.ownAddr, srcUnit := BitVec.ofNat 15 c,
             len := BitVec.ofNat 32 (64 + p.2.length), arg := BitVec.ofNat 128 arg,
             dstUnit := BitVec.ofNat 15 ((s.ctx ctx).elim 0 (·.peerUnit)) } }

/-- The messages that carry some data: at most 65,536 bytes each (R382). -/
def collPieces (bs : List Byte) : List (Nat × List Byte) := ((chunkList 65536 bs).zipIdx).map (fun p => (65536 * p.2, p.1))

/-- Sends data to some members. -/
def State.collSendAll (s : State) (c i : Nat) (k : Coll) (chunk : Nat) (bs : List Byte) (to_ : List Nat) : State :=
  to_.foldl (fun t m => (collPieces bs).foldl (fun u p => u.collSend c i k chunk p m) t) s

/-! ### Data -/

/-- The W32 elements that `n` bytes of a source stand for: H16 is widened exactly (R371). -/
def collElems (fmt : Nat) (bs : List Byte) : List W32 :=
  if fmt = 4 then (chunkList 2 bs).map (fun b => rneW32 (decH16 (leNat b))) else payWords bs (bs.length / 4)

/-- The little-endian bytes of W32 elements. -/
def wordsBytes (ws : List W32) : List Byte := ws.flatMap (fun w => leBytes 4 w.toNat)

/-- What has come of a tree from a member, when it is all there. -/
def Coll.whole (k : Coll) (chunk who : Nat) : Option (List Byte) :=
  let cs := (k.got.find? (fun x => x.chunk == chunk && x.who == who)).elim [] (·.cells)
  if sumNat (cs.map (·.2.length)) = k.size then some (cs.flatMap (·.2)) else none

/-- This member's own source bytes of a tree: chunk `n`, or all. -/
def State.collSource (s : State) (k : Coll) (n : Nat) : List Byte :=
  let x := collBytes k.word
  if k.op = 0 then s.spadBytes (k.src + n * (x / k.g)) (x / k.g) else s.spadBytes k.src x

/-- part(j) of a tree sum, once the parts of every child are there (R371). -/
def State.collPart (s : State) (k : Coll) (root : Nat) : Option (List W32) :=
  let ps := (k.kids root).map (k.whole root)
  if ps.all Option.isSome then
    some (ps.foldl (fun a p => List.zipWith addW32 a (payWords (p.getD []) (k.size / 4)))
      (collElems (collFmt k.word) (s.collSource k root)))
  else none

/-- Stores a collective under its handle. -/
def State.putColl (s : State) (c h : Nat) (k : Coll) : State :=
  let j := s.cell c
  s.setCell c { j with colls := tabPut h k j.colls }

/-- Forms this member's part of one tree, where it can: the root keeps it, and sends it down again for AR; any other
member sends it to its parent (R371, Table 12-5). The adds are those of the unit of the cell's die (R385). -/
def State.collForm (c h : Nat) (s : State) (root : Nat) : State :=
  match alistGet (s.cell c).colls h with
  | none => s
  | some k =>
    if k.sent.contains root then s
    else match s.collPart k root with
      | none => s
      | some ws =>
        let k1 := { k with sent := k.sent ++ [root] }
        let bs := wordsBytes ws
        let t := s.countAdds (dieOf c) ((k.kids root).length * ws.length)
        match k.parent root with
        | some p => (t.putColl c h k1).collSendAll c h k root bs [p]
        | none =>
          let s1 := t.putColl c h { k1 with result := some bs }
          if k.op = 2 then s1.collSendAll c h k root bs (k.kids root) else s1

/-- The roots of the trees that a collective sums over. -/
def Coll.sums (k : Coll) : List Nat := if k.op = 0 then List.range k.g else if k.op = 2 then [routeA k.route] else []

/-- Forms every part that can be formed. -/
def State.collPump (s : State) (c h : Nat) : State :=
  match alistGet (s.cell c).colls h with
  | none => s
  | some k => k.sums.foldl (State.collForm c h) s

/-! ### Receiving (R382) -/

/-- The member index, chunk and offset of a message. -/
def msgSender (h : Hdr) : Nat := field h.arg.toNat 35 19
/-- The chunk member: the root or source of the tree. -/
def msgChunk (h : Hdr) : Nat := field h.arg.toNat 52 36
/-- The byte offset within the chunk. -/
def msgOffset (h : Hdr) : Nat := field h.arg.toNat 95 64
/-- OP of a message; the kind EXCH stands for OP 4. -/
def msgOp (h : Hdr) : Nat :=
  if h.kind = 6 then 4 else let o := field h.arg.toNat 18 16; if o = 4 then 7 else o

/-- Does a collective take data of a tree from a member: its child's part, or what its parent relays (Table 12-5)? -/
def Coll.takes (k : Coll) (chunk who : Nat) : Bool :=
  if k.op = 0 then chunk < k.g && (k.kids chunk).contains who
  else if k.op = 1 then chunk < k.g && k.parent chunk == some who
  else if k.op = 2 then chunk == routeA k.route && ((k.kids chunk).contains who || k.parent chunk == some who)
  else if k.op = 3 then chunk == routeA k.route && k.parent chunk == some who
  else who == routeB k.route

/-- Is a message one that a collective has still to receive? Any other is dropped (DEDUCED, log entry 37). -/
def Coll.wants (k : Coll) (chunk who off n : Nat) : Bool :=
  k.takes chunk who && off + n ≤ k.size
    && !(k.got.any (fun x => x.chunk == chunk && x.who == who
      && x.cells.any (fun p => p.1 < off + n && off < p.1 + p.2.length)))

/-- Keeps the payload of a message. -/
def Coll.keep (k : Coll) (chunk who off : Nat) (bs : List Byte) : Coll :=
  let x := (k.got.find? (fun x => x.chunk == chunk && x.who == who)).getD ⟨chunk, who, []⟩
  { k with got := k.got.filter (fun y => !(y.chunk == chunk && y.who == who))
                  ++ [{ x with cells := tabPut off bs x.cells }] }

/-- A running collective takes a message: what comes from above is relayed, a child's part may complete a sum. -/
def State.collTake (s : State) (c i : Nat) (k : Coll) (h : Hdr) (payload : List Byte) : State :=
  let chunk := if k.op = 4 then 0 else msgChunk h
  let who := msgSender h
  let bs := padBytes (h.len.toNat - 64) (payload.take (h.len.toNat - 64))
  if k.wants chunk who (msgOffset h) bs.length then
    let s1 := s.putColl c i (k.keep chunk who (msgOffset h) bs)
    let down := k.op ≤ 3 && k.parent chunk == some who
    (if down then (k.kids chunk).foldl (fun t m => t.collSend c i k chunk (msgOffset h, bs) m) s1 else s1).collPump c i
  else s

/-- Does a message belong to a collective by context and ID (R382)? -/
def Coll.owns (k : Coll) (h : Hdr) : Bool :=
  k.phase == .running && collId k.word == field h.arg.toNat 15 0
    && routeBase k.route ≤ h.chan.toNat && h.chan.toNat < routeBase k.route + k.g

/-- The running collective that a message belongs to: cell, handle and record. -/
def State.collFor (s : State) (h : Hdr) : Option (Nat × Nat × Coll) :=
  s.cells.findSome? (fun p => (p.2.colls.find? (fun q => q.2.owns h)).map (fun q => (p.1, q.1, q.2)))

/-- Drops a message whose OP is not that of its collective, which then does not complete (R374, R382; DEDUCED, log entry 37 for the
epoch of the flag). -/
def State.collBad (s : State) (c i : Nat) (k : Coll) : State :=
  let d := dieOf c
  (((s.putColl c i { k with bad := true }).bump (Reg.fabCuAbort d)).reportLim 0x040D d (unitDie d)
    (d + 2 ^ 3 + 2 ^ 12 * collId k.word)).raiseFlag flagAbort s.epoch

/-- The unit that holds a message before its collective is issued: that of the die of the cell it names (DEDUCED, log entry 37). -/
def earlyDie (h : Hdr) : Nat := if h.dstUnit.toNat < 512 then dieOf h.dstUnit.toNat else 0

/-- Takes a collective message that its channel has delivered; one with a reserved format is neither consumed nor relayed
(R61). -/
def State.collMsg (s : State) (h : Hdr) (payload : List Byte) : State :=
  if fmtReserved h.fmt.toNat then s.cuReserved (earlyDie h) h.fmt.toNat h.layer.toNat h.epoch
  else match s.collFor h with
  | some (c, i, k) => if msgOp h = k.op then s.collTake c i k h payload else s.collBad c i k
  | none =>
    let d := earlyDie h
    s.setCu d { s.cu d with early := (s.cu d).early ++ [(h, payload)] }

/-- Does a unit have no room for a channel message (R378)? -/
def State.chanFull (s : State) (h : Hdr) : Option Nat :=
  let d := s.cuDie (hdrRow0 h) h.layer.toNat
  if h.kind = 3 then (if s.cuFull d h then some d else none)
  else if h.kind = 5 ∨ h.kind = 6 then
    (if (s.collFor h).isNone ∧ fmtReserved h.fmt.toNat = false ∧ s.cuRoom (earlyDie h) (h.len.toNat - 64) false = false then some (earlyDie h) else none)
  else none

/-- Hands a message that its channel has delivered to its unit. -/
def State.chanDeliver (s : State) (m : Msg) : State :=
  if m.h.kind = 3 then s.takePartial (s.cuDie (hdrRow0 m.h) m.h.layer.toNat) m.h m.payload
  else if m.h.kind = 4 then
    (if gsUnitOk m.h then s.takeContrib (m.h.dstUnit.toNat - 0x4000) m.h m.payload else s.bump Reg.fabBadKind)
  else s.collMsg m.h m.payload

/-- A channel message arrives: one that finds no room counts as not received, any other goes through its channel, which
may deliver messages it has held back (R361, R362, R378). -/
def State.chanArrive (s : State) (h : Hdr) (payload : List Byte) : State :=
  match (if s.chanNew h then s.chanFull h else none) with
  | some d => s.bump (Reg.fabCuRefused d)
  | none =>
    let r := s.chanReceive h payload
    r.1.foldl State.chanDeliver r.2

/-! ### Starting and ending -/

/-- The collective handles of a cell not in use, ascending. -/
def Cell.freeColls (k : Cell) : List Nat := (List.range 16).filter (fun h => (alistGet k.colls h).isNone)

/-- A free handle; which one is the module's choice (R380; DESIGN CHOICE, log entry 5). -/
def State.takeColl (s : State) (c : Nat) : Option (Nat × State) :=
  let l := (s.cell c).freeColls
  if l.isEmpty then none
  else
    let (n, s1) := s.drawNat
    some (l.getD (n % l.length) 0, s1)

/-- A collective as checked (R380, R384). -/
def State.newColl (s : State) (op : Nat) (w r : W64) (src dst : Nat) : Coll :=
  let ms := (s.validGroup (collGroup w)).getD []
  { op := op, word := w, route := r, src := src, dst := dst, rank := ms.findIdx (· == s.ownAddr), members := ms }

/-- Leaves the destination of a collective undefined (R383; DESIGN CHOICE, log entry 4). -/
def State.collUndefined (s : State) (k : Coll) : State :=
  let r := s.drawBytes (collDest k.op k.g k.word)
  r.2.spadWrite k.dst r.1

/-- Drops what a collective has formed and not sent. -/
def State.dropOut (s : State) (c h : Nat) : State :=
  let u := s.cu (dieOf c)
  let s1 := s.setCu (dieOf c) { u with outbox := u.outbox.filter (fun m => m.owner != some (c, h)) }
  State.pumpOut (dieOf c) u.outbox.length s1

/-- Has a collective sent all that it has formed? -/
def State.allSent (s : State) (c h : Nat) : Bool := (s.cu (dieOf c)).outbox.all (fun m => m.owner != some (c, h))

/-- Ends a collective FAILED with reason 7 (R383, R384, Table 12-8). -/
def State.collFail (s : State) (c h : Nat) (k : Coll) : State :=
  (((s.dropOut c h).collUndefined k).putColl c h { k with phase := .failed 7 }).report 0x040E (unitCell c)
    (collId k.word + 2 ^ 16 * c)

/-- Has a channel context entered ERROR (Table 11-11)? -/
def State.chanError (s : State) (c : Nat) : Bool := (s.ctx c).elim false (fun x => x.cstate == 2)

/-- Sends this member's own source where the operation sends it as it stands (Table 12-5). -/
def State.collOpen (s : State) (c i : Nat) (k : Coll) : State :=
  if k.op = 1 then s.collSendAll c i k k.rank (s.collSource k 0) (k.kids k.rank)
  else if k.op = 3 ∧ k.rank = routeA k.route then s.collSendAll c i k k.rank (s.collSource k 0) (k.kids k.rank)
  else if k.op = 4 then s.collSendAll c i k 0 (s.collSource k 0) [routeA k.route]
  else s

/-- Takes the messages that came before their collective. -/
def State.collEarly (s : State) (k : Coll) : State :=
  (List.range 8).foldl (fun t d =>
    let ms := (t.cu d).early
    (ms.filter (fun p => k.owns p.1)).foldl (fun u p => u.collMsg p.1 p.2)
      (t.setCu d { t.cu d with early := ms.filter (fun p => !k.owns p.1) })) s

/-- Starts a collective under its handle: one whose channel is in ERROR fails (R383). -/
def State.startColl (s : State) (c h : Nat) (k0 : Coll) : State :=
  let k := { k0 with phase := .running }
  if k.peers.any (fun m => s.chanError (routeBase k.route + m)) then s.collFail c h k
  else
    let s1 := (s.spadTouch k.src (collBytes k.word)).putColl c h k
    ((s1.collOpen c h k).collPump c h).collEarly k

/-- The bytes that a collective writes, once everything it waits for has come and been passed on (Table 12-5). -/
def State.collResult (s : State) (k : Coll) : Option (List Byte) :=
  if k.bad then none
  else if k.op = 0 then (if (List.range k.g).all k.sent.contains then k.result else none)
  else if k.op = 1 then
    let ps := (List.range k.g).map (fun n =>
      match k.parent n with | none => some (s.collSource k 0) | some p => k.whole n p)
    if ps.all Option.isSome then some (ps.flatMap (·.getD [])) else none
  else if k.op = 2 then
    match k.parent (routeA k.route) with
    | none => k.result
    | some p => if k.sent.contains (routeA k.route) then k.whole (routeA k.route) p else none
  else if k.op = 3 then
    match k.parent (routeA k.route) with
    | none => some (s.collSource k 0)
    | some p => k.whole (routeA k.route) p
  else k.whole 0 (routeB k.route)

/-- Is a core stalled in CL.WAIT on a handle? -/
def Cell.waitsColl (k : Cell) (h : Nat) : Bool :=
  match k.stall with
  | some (.clWait _ o) => (k.s o.sa.toNat).toNat == h
  | _ => false

/-- Removes a queued action that would start a collective. -/
def Cell.dropColl (k : Cell) (h : Nat) : Cell :=
  { k with colls := tabDel h k.colls,
           lq := k.lq.filter (fun e => match e.work with | .coll j => j != h | _ => true) }

/-- CL.CANCEL of a handle in use (R383): the destination is left undefined, and a CL.WAIT that is stalled on the handle returns
FAILED with reason 8, else the handle is free at once. -/
def State.cancelColl (s : State) (c h : Nat) (k : Coll) : State :=
  let s1 := (s.dropOut c h).collUndefined k
  let j := s1.cell c
  if j.waitsColl h then
    s1.setCell c { j.dropColl h with colls := tabPut h { k with phase := .failed 8 } j.colls }
  else s1.setCell c (j.dropColl h)

/-- Every running collective that uses a context fails when it enters ERROR (R383). -/
def State.collsFail (s : State) (ctx : Nat) : State :=
  (s.cells.flatMap (fun p => p.2.colls.map (fun q => (p.1, q.1, q.2)))).foldl
    (fun t x => if x.2.2.phase = .running ∧ x.2.2.uses ctx then t.collFail x.1 x.2.1 x.2.2 else t) s

/-! ### Instructions -/

/-- The pages that a collective word's group lies in. -/
def State.collPages (s : State) (w : W64) : List Nat :=
  if collGroup w < s.dirCount then s.groupPages (collGroup w) else []

/-- The effect of a collective instruction: checks first, then issue stalls while no handle is free (R380, R384). -/
def collEffect (c op : Nat) (o : ROps) (t : State) : Eff :=
  let k := t.cell c
  let w := k.s o.sa.toNat
  let r := k.s (o.sa.toNat + 1)
  let src := (k.a o.ax.toNat).toNat
  let dst := (k.a o.ay.toNat).toNat
  t.pagesFirst c (t.collPages w) (fun t0 =>
    let u := t0.groupTouch c (collGroup w)
    match t0.checkColl op w r src dst with
    | some e => if e = excClOp ∨ e = excClFmt then .exc e 0 else .excRead u e
    | none => match u.takeColl c with
      | none => .stall
      | some (h, t1) =>
        let t2 := t1.startColl c h (t1.newColl op w r src dst)
        effS c o.sd.toNat (BitVec.ofNat 64 h) t2)

/-- The scalar registers of a collective instruction. -/
def collUses (o : ROps) : List Nat := [o.sd.toNat, o.sa.toNat, o.sa.toNat + 1]

/-- CL.RS (R381). -/
def execClRs (c : Nat) (o : ROps) (s : State) : Out := coreR c (.clRs c o) o 0x06 0x00 (collUses o) (collEffect c 0 o) s

/-- CL.AG (R381). -/
def execClAg (c : Nat) (o : ROps) (s : State) : Out := coreR c (.clAg c o) o 0x06 0x01 (collUses o) (collEffect c 1 o) s

/-- CL.AR (R381). -/
def execClAr (c : Nat) (o : ROps) (s : State) : Out := coreR c (.clAr c o) o 0x06 0x02 (collUses o) (collEffect c 2 o) s

/-- CL.BCAST (R381). -/
def execClBcast (c : Nat) (o : ROps) (s : State) : Out :=
  coreR c (.clBcast c o) o 0x06 0x03 (collUses o) (collEffect c 3 o) s

/-- CL.EXCH (R381). -/
def execClExch (c : Nat) (o : ROps) (s : State) : Out :=
  coreR c (.clExch c o) o 0x06 0x04 (collUses o) (collEffect c 4 o) s

/-- The result word of CL.WAIT; none while the collective goes on (R383). -/
def Coll.waitWord (k : Coll) : Option W64 :=
  match k.phase with
  | .reserved => none
  | .running => none
  | .done => some 1
  | .failed r => some (BitVec.ofNat 64 (1 + 2 ^ 4 + 2 ^ 8 * (r % 16)))

/-- CL.WAIT (R383). -/
def execClWait (c : Nat) (o : ROps) (s : State) : Out :=
  coreR c (.clWait c o) o 0x06 0x08 [o.sd.toNat, o.sa.toNat]
    (fun t =>
      let k := t.cell c
      let h := (k.s o.sa.toNat).toNat
      match alistGet k.colls h with
      | none => .exc excClHandle 0
      | some x => match x.waitWord with
        | none => .stall
        | some w => .done (t.setCell c ({ k with colls := tabDel h k.colls }.setS o.sd.toNat w))) s

/-- CL.CANCEL (R383). -/
def execClCancel (c : Nat) (o : ROps) (s : State) : Out :=
  coreR c (.clCancel c o) o 0x06 0x09 [o.sa.toNat]
    (fun t =>
      let h := ((t.cell c).s o.sa.toNat).toNat
      match alistGet (t.cell c).colls h with
      | none => .exc excClHandle 0
      | some k => .done (t.cancelColl c h k)) s

/-! ### Events -/

/-- COLLECTIVE_COMPLETE (R381, R383): a collective whose data is all there, and has been sent on, writes its destination. -/
def execCollectiveComplete (c h : Nat) (s : State) : Out :=
  onUnit (c < 512) (match alistGet (s.cell c).colls h with
    | none => s
    | some k =>
      if k.phase ≠ .running ∨ s.works = false ∨ s.allSent c h = false then s
      else match s.collResult k with
        | none => s
        | some bs => (s.spadWrite k.dst bs).putColl c h { k with phase := .done })

/-- COLL (R382). -/
def execColl (h : Hdr) (payload : List Byte) (s : State) : Out :=
  .next (whenOk s.up s ((s.unstamp h).chanArrive { h with kind := 5 } payload))

/-- EXCH (R382). -/
def execExch (h : Hdr) (payload : List Byte) (s : State) : Out :=
  .next (whenOk s.up s ((s.unstamp h).chanArrive { h with kind := 6 } payload))

/-- The pages that placing a piece of a layer reads: its placement record, and the group it names (R366, R368). -/
def State.placePages (s : State) (l : Nat) : List Nat :=
  if s.layerCount ≤ l then []
  else
    let p := s.placeAddr l / pageBytes
    let g := s.poolNat (s.placeAddr l + 8) 4 % 2 ^ 16
    p :: (if s.pageHere p && decide (g < s.dirCount) then s.groupPages g else [])

/-- DW_PIECE (R375, R376). -/
def execDwPiece (h : Hdr) (payload : List Byte) (s : State) : Out :=
  .next (whenOk s.up s
    (s.withPages (.dwPiece h payload) (s.placePages h.layer.toNat) (fun t => (t.unstamp h).chanArrive { h with kind := 3 } payload)))

/-- The pages that taking a contribution reads: the record of its unit and its group. -/
def State.contribPages (s : State) (n : Nat) (h : Hdr) : List Nat :=
  s.lookupPages n h.layer.toNat (hdrRow0 h / s.unitRows n)

/-- CONTRIB (R229, R375): from another module it comes on a channel, from this one's own collective unit directly. -/
def execContrib (h : Hdr) (payload : List Byte) (s : State) : Out :=
  .next (whenOk (s.up && gsUnitOk h) s
    (s.withPages (.contrib h payload) (s.contribPages (h.dstUnit.toNat - 0x4000) h)
      (fun t =>
        let h1 := { h with kind := 4 }
        let u := t.unstamp h
        if h.src.toNat = u.ownAddr then u.takeContrib (h.dstUnit.toNat - 0x4000) h1 payload
        else u.chanArrive h1 payload)))

/-- The header of the dW piece that a RED drain emits (R148). -/
def State.redHdr (s : State) (c : Nat) (t : Tile) : Hdr :=
  let w := t.endw.toNat
  { kind := 0, fmt := 5, dim0 := BitVec.ofNat 24 t.n, dim1 := BitVec.ofNat 32 t.m, layer := BitVec.ofNat 20 t.layer,
    mb := BitVec.ofNat 4 t.mb, flags := if w.testBit 2 then 0x60 else 0x40, epoch := t.epoch,
    src := BitVec.ofNat 17 s.ownAddr, srcUnit := BitVec.ofNat 15 c, chan := BitVec.ofNat 16 (field w 61 46),
    len := BitVec.ofNat 32 (64 + 4 * t.m * t.n + 8), arg := BitVec.ofNat 128 (field w 27 4 + 2 ^ 32 * field w 45 28) }

/-- DW_PIECE_TAKE (R373, R374, R378): a piece that finds no room is not taken. -/
def execDwPieceTake (c h : Nat) (s : State) : Out :=
  onUnit (c < 512) (match (s.cell c).tiles.find? (fun t => t.h == h && t.phase == .red) with
    | none => s
    | some t =>
      let d := s.redHdr c t
      let die := s.cuDie (hdrRow0 d) t.layer
      whenOk (s.works && !s.cuFull die d) s
        (s.withPages (.dwPieceTake c h) (s.placePages t.layer)
          (fun u =>
            let k := u.cell c
            let u1 := u.setCell c { k with tiles := k.tiles.map (fun x => if x = t then { x with phase := .taken } else x) }
            (u1.bump (Reg.cellMxPieces c)).takePartial die d (drainBytes t))))

end Sys2Proof.Machine
end

