-- ==== Sys2Proof/Machine/Xfer.lean ====
section
/-! DEFINITION. Transfers, gathers and streams of a cell, and the late policy (R306 to R317, R324). -/

namespace Sys2Proof.Machine

/-! ### Exceptions (Table 10-8) -/

/-- PL_KIND. -/
def excPlKind : Nat := 0x40
/-- PL_ADDR. -/
def excPlAddr : Nat := 0x41
/-- PL_BUSY. -/
def excPlBusy : Nat := 0x42
/-- PL_HANDLE. -/
def excPlHandle : Nat := 0x43

/-! ### The transfer word and objects (R306 to R308) -/

/-- KIND of a transfer word. -/
def xferKindOf (w : W64) : Nat := field w.toNat 1 0
/-- FAR of a transfer word. -/
def xferFar (w : W64) : Bool := w.getLsbD 2
/-- LEN of a transfer word, in 64-byte units. -/
def xferCap (w : W64) : Nat := field w.toNat 27 4

/-- Is a pool or far address in order for a transfer (R291, R302, R307)? -/
def xferAddrOk (isFar : Bool) (a : Nat) : Bool :=
  a % 64 == 0 && (if isFar then decide (a < 2 ^ 44) else poolAddrOk a)

/-- The cause that PL.GET or PL.PUT raises, if any (R307, Table 10-8). The length of a TILE or TENSOR put stands in its header,
which alone must lie in the scratchpad at issue (DEDUCED, log entry 47). -/
def checkPool (put : Bool) (c : Nat) (a w : W64) (spad : Nat) : Option Nat :=
  let n := if put && xferKindOf w != 2 then 64 else 64 * xferCap w
  firstCause [(xferKindOf w == 3 || field w.toNat 31 28 != 0, excPlKind),
    (!alignedOk c spad n (!put) || !xferAddrOk (xferFar w) a.toNat, excPlAddr)]

/-- Bytes of a code plane of a tensor, whose rows begin at multiples of 64 bytes (R308). -/
def rowPlane (h : Hdr) : Nat :=
  let f := h.fmt.toNat
  let d := h.dim0.toNat
  h.dim1.toNat * up64 (if f = 0 then ceilDiv d 5 else if f ≤ 2 then ceilDiv d 4 else d * fmtBytes f)

/-- Where the code planes of an object end: a tile in the layout of R190, a tensor in that of R308. -/
def objCodesEnd (tensor : Bool) (h : Hdr) : Nat :=
  if tensor then 64 + (if h.fmt = 2 then 2 else 1) * rowPlane h else codesEnd h.fmt.toNat (hdrCount h)

/-- Bytes of the scale plane of a tensor (R308). -/
def tensorScales (h : Hdr) : Nat := h.dim1.toNat * hdrRowScales h

/-- Where the mitten table of an object begins. -/
def objMittenOff (tensor : Bool) (h : Hdr) : Nat :=
  if tensor then 64 * h.scaleLoc.toNat + up64 (tensorScales h) else mittenOff h

/-- Where the sections end that an object's header places: the scale plane, or the mitten table. -/
def objSectionsEnd (tensor : Bool) (h : Hdr) : Nat :=
  if tensor then
    (if h.mittens = 0 ∨ 3 ≤ h.fmt.toNat then 64 * h.scaleLoc.toNat + tensorScales h
     else objMittenOff true h + 4 * h.mittens.toNat)
  else sectionsEnd h

/-- The mitten positions of an object's table, from its bytes (R191). -/
def objMittens (tensor : Bool) (h : Hdr) (bs : List Byte) : List (Nat × Nat) :=
  if h.fmt.toNat ≤ 2 then
    (List.range h.mittens.toNat).map (fun i => (leNat ((bs.drop (objMittenOff tensor h + 4 * i)).take 2), 0))
  else []

/-- Does the header of an object fail a check of R138 or R193, its mitten positions apart (R307; DEDUCED, log entry 47: W32
objects are moved beside those of R138's formats)? -/
def objHdrFault (tensor : Bool) (h : Hdr) : Bool :=
  let f := h.fmt.toNat
  5 < f || h.blk.toNat != b2n (fmtBlocked f) || 64 < h.mittens.toNat
    || (f ≤ 3 && (64 * h.scaleLoc.toNat < objCodesEnd tensor h || h.len.toNat < objSectionsEnd tensor h))

/-- Does the header of an object fail the checks of R138 or R193 (R307)? -/
def objFault (tensor : Bool) (h : Hdr) (bs : List Byte) : Bool :=
  objHdrFault tensor h || !mittensOk (hdrCount h) (objMittens tensor h bs)

/-- The header that the first 64 bytes of an object hold. -/
def hdrFrom (bs : List Byte) : Hdr := hdrOf ((List.range 16).map (fun i => leNat ((bs.drop (4 * i)).take 4)))

/-- The length of an object by its header; none where it is below a header or above the capacity (R307). -/
def objLen (cap : Nat) (h : Hdr) : Option Nat :=
  if h.len.toNat < 64 ∨ 64 * cap < h.len.toNat then none else some h.len.toNat

/-! ### Handles -/

/-- The transfer handles of a cell not in use, ascending. -/
def Cell.freeHandles (k : Cell) : List Nat := (List.range 64).filter (fun h => (alistGet k.xfers h).isNone)

/-- A free handle; which one is the module's choice (R306; DESIGN CHOICE, log entry 5). -/
def State.takeHandle (s : State) (c : Nat) : Option (Nat × State) :=
  let l := (s.cell c).freeHandles
  if l.isEmpty then none
  else
    let (n, s1) := s.drawNat
    some (l.getD (n % l.length) 0, s1)

/-- Stores a transfer of a cell under its key. -/
def State.putXfer (s : State) (c h : Nat) (x : Xfer) : State :=
  let k := s.cell c
  s.setCell c { k with xfers := tabPut h x k.xfers }

/-- A cell with a transfer issued: it takes the next place in the order of issue (R310). -/
def State.issueXfer (s : State) (c h : Nat) (x : Xfer) : State :=
  let k := s.cell c
  s.setCell c { k with xfers := tabPut h { x with seq := k.xferSeq } k.xfers, xferSeq := k.xferSeq + 1 }

/-! ### Starting pool and far transfers (R301, R302, R307) -/

/-- Is a transfer's object a tensor (R307)? -/
def xferTensor (w : W64) : Bool := xferKindOf w == 1

/-- The object that a put reads from scratchpad, with the effects of the reads (R290): none where its header fails, or places
bytes beyond the addressable scratchpad (R193, R307). -/
def State.putRead (s : State) (x : Xfer) : Option (List Byte) × State :=
  let t := s.spadTouch x.spad 64
  let h := s.spadHdr x.spad
  let tn := xferTensor x.word
  if xferKindOf x.word = 2 then (some (s.spadBytes x.spad (64 * x.cap)), s.spadTouch x.spad (64 * x.cap))
  else match objLen x.cap h with
    | none => (none, t)
    | some n =>
      if spadRoom x.spad < n ∨ objHdrFault tn h then (none, t)
      else if mittensOk (hdrCount h) (objMittens tn h (s.spadBytes x.spad n)) then
        (some (s.spadBytes x.spad n), s.spadTouch x.spad n)
      else (none, t.spadTouch (x.spad + objMittenOff tn h) (4 * h.mittens.toNat))

/-- Starts a far read for a transfer; one of no bytes has its data at once. -/
def State.xferFarRead (s : State) (c h a n : Nat) : State :=
  if n = 0 then s.addFar false (.xfer c h) 0 0 (some (0, [])) else s.farRead (.xfer c h) a n c

/-- The UIO writes of an access: each of at most 256 bytes, to the address that its region gives (R302, R451). -/
def State.sendWrites (s : State) (id a : Nat) (bs : List Byte) : State :=
  (uioParts a bs.length).foldl (fun t p =>
    t.emit (.farWrite id (t.farHpa ((t.farRegion p.1).getD 0) p.1) ((bs.drop (p.1 - a)).take p.2))) s

/-- Starts a far write for a transfer: its object is read and leaves in UIO writes (R302, R304, R307, R451). -/
def State.xferFarWrite (s : State) (c h : Nat) (x : Xfer) : State :=
  let o : FarOwner := .xfer c h
  match s.putRead x with
  | (none, s1) => s1.addFar true o 0 0 (some (6, []))
  | (some bs, s1) =>
    if bs.isEmpty then s1.addFar true o 0 0 none
    else match s1.farCovers x.addr.toNat bs.length with
      | some r => (s1.addFar true o r bs.length none).sendWrites s1.pool.nextFar x.addr.toNat bs
      | none => (s1.addFar true o 0 bs.length (some (5, []))).farWriteFailed o 0 5

/-- Starts a fired transfer: a far one sends its request; a pool one brings up the first pages it needs. -/
def State.beginXfer (s : State) (c h : Nat) (x : Xfer) : State :=
  let raw := xferKindOf x.word == 2
  if xferFar x.word then
    (if x.kind = .put then s.xferFarWrite c h x
     else s.xferFarRead c h x.addr.toNat (if raw then 64 * x.cap else 64))
  else s.bringAll (s.farAmong (pagesOf x.addr.toNat (if raw then 64 * x.cap else 64))) c

/-- A transfer that PL.GET, PL.PUT or a stream issues at the present count (R5, R306). -/
def State.newXfer (s : State) (put : Bool) (a w : W64) (spad : Nat) : Xfer :=
  { kind := if put then .put else .get, word := w, addr := a, spad := spad, cap := xferCap w, dlEn := w.getLsbD 3,
    deadline := fullTime s.pitch (BitVec.ofNat 32 (field w.toNat 63 32)), epoch := s.epoch }

/-- Issues a pool or far transfer under a key. -/
def State.startPool (s : State) (c h : Nat) (put : Bool) (a w : W64) (spad : Nat) : State :=
  let x := s.newXfer put a w spad
  (s.issueXfer c h x).beginXfer c h x

/-! ### Gathers (R211, R309) -/

/-- The capacity in an owner word, in 64-byte units. -/
def ownerCap (w : W64) : Nat := field w.toNat 44 21

/-- The cause that PL.GATHER raises, if any. -/
def checkGather (c : Nat) (owner : W64) (dst : Nat) : Option Nat :=
  firstCause [(!alignedOk c dst (64 * ownerCap owner) true, excPlAddr)]

/-- The request word as wide-lock has it sent, and the state after the descriptor has been read (R211; DEDUCED, log entry 34). -/
def State.lockWord (s : State) (c : Nat) (w : W64) : W64 × State :=
  let g := gWord w.toNat
  if s.wideOn s.epoch = false ∨ 2 < g.fmt ∨ (g.fmt = 2 ∧ g.liner) then (w, s)
  else
    let r := s.readLayer c (unitCell c) g.layer
    let wide := r.1.wlockW
    (if r.1.wlockEn ∧ g.fmt < wide then reWord w wide false else w, r.2)

/-- Sends the request of a gather with a tag (R309, R339). -/
def State.sendGather (s : State) (c h tag : Nat) (x : Xfer) : State :=
  s.startTxn tag (.xfer c h)
    (s.gatherHdr c x.word (field x.addr.toNat 16 0) (0x4000 + field x.addr.toNat 20 17) x.epoch x.dlEn
      (BitVec.ofInt 32 x.deadline)) 0

/-- Issues a gather under a key with a tag (R309). -/
def State.startGather (s : State) (c h tag : Nat) (req owner dl : W64) (dst : Nat) : State :=
  let r := s.lockWord c req
  let x : Xfer :=
    { kind := .gather, word := r.1, addr := owner, spad := dst, cap := ownerCap owner, dlEn := dl.getLsbD 32,
      deadline := fullTime s.pitch (BitVec.ofNat 32 (field dl.toNat 31 0)), epoch := s.epoch, tag := some tag }
  (r.2.issueXfer c h x).sendGather c h tag x

/-- The pages that issuing a gather reads: its layer's descriptor, under wide-lock. -/
def State.gatherReads (s : State) (req : W64) : List Nat :=
  if s.wideOn s.epoch then s.layerPages (gWord req.toNat).layer else []

/-! ### Completion of pool and far transfers (R295, R307, R310) -/

/-- Marks a transfer complete. -/
def State.doneXfer (s : State) (c h : Nat) (x : Xfer) : State := s.putXfer c h { x with complete := true }

/-- A transfer meets a page that cannot be served (R295, R522). -/
def State.unallocated (s : State) (c h p : Nat) : State :=
  ((s.raiseFlag flagAbort s.epoch).xferFault c p).failXfer c h 1

/-- Must a transfer wait: one that the cell issued earlier on a page of it is in progress (R310)? -/
def Cell.ordered (k : Cell) (x : Xfer) : Bool :=
  k.xfers.any (fun y => y.2.seq < x.seq && (pagesOf x.addr.toNat (64 * x.cap)).any (fun p => xferOn p y.2))

/-- A tile or tensor with a reserved format is not taken (R61, R307; DEDUCED, log entry 47). -/
def State.reservedObj (s : State) (c : Nat) (h : Hdr) : State :=
  if fmtReserved h.fmt.toNat then s.cellReserved c h.fmt.toNat h.layer.toNat (some h.epoch) else s

/-- Writes an object that a get has fetched, or fails it where its header does (R307). -/
def State.landGet (s : State) (c h : Nat) (x : Xfer) (bs : List Byte) : State :=
  let d := hdrFrom bs
  if xferKindOf x.word ≠ 2 ∧ objFault (xferTensor x.word) d bs then (s.reservedObj c d).failXfer c h 6
  else (s.spadWrite x.spad bs).doneXfer c h x

/-- Performs a pool transfer of `n` bytes whose pages are resident. -/
def State.movePool (s : State) (c h : Nat) (x : Xfer) (n : Nat) : State :=
  let a := x.addr.toNat
  if x.kind = .put then
    match s.putRead x with
    | (none, s1) => s1.failXfer c h 6
    | (some bs, s1) => (s1.poolWrite a bs).doneXfer c h x
  else (s.poolTouch a n).landGet c h x (s.poolRaw a n)

/-- Runs a pool transfer over some pages: it fails where one cannot be served, waits where one is in the far tier. -/
def State.overPages (s : State) (c h : Nat) (i : Instr) (ps : List Nat) (act : State → State) : State :=
  match ps.find? (fun p => !s.pageOk p) with
  | some p => s.unallocated c h p
  | none => if (s.farAmong ps).isEmpty then act s else (s.bringAll (s.farAmong ps) c).park i

/-- The bytes a pool transfer moves, once its header can be read; none where the header fails. -/
def State.poolLen (s : State) (x : Xfer) : Option Nat :=
  if xferKindOf x.word = 2 then some (64 * x.cap)
  else objLen x.cap (if x.kind = .put then s.spadHdr x.spad else hdrFrom (s.poolRaw x.addr.toNat 64))

/-- Ends a pool transfer (R295, R301, R307). -/
def State.endPool (s : State) (c h : Nat) (i : Instr) (x : Xfer) : State :=
  let a := x.addr.toNat
  let whole := fun t : State =>
    match t.poolLen x with
    | none => (if x.kind = .put then t.spadTouch x.spad 64 else t.poolTouch a 64).failXfer c h 6
    | some n => t.overPages c h i (pagesOf a n) (fun u => u.movePool c h x n)
  if xferKindOf x.word = 2 ∨ x.kind = .put then whole s else s.overPages c h i (pagesOf a 64) whole

/-- Ends a far put with the status of its write: 0 done, 4 poisoned, another an error (R304). -/
def State.endFarPut (s : State) (c h : Nat) (x : Xfer) (r : FarReq) (st : Nat) : State :=
  let s1 := s.dropOwner (.xfer c h)
  match r.done with
  | some (reason, _) => s1.failXfer c h reason
  | none =>
    if st = 0 then (s1.bumpBy Reg.farWrites (ceilDiv r.len 64)).doneXfer c h x
    else
      let reason := if st = 4 then 4 else 3
      (s1.farWriteFailed r.owner r.region reason).failXfer c h reason

/-- Ends a far get whose reads have come to a reason and data, or sends for the rest of an object once its header is known
(R304, R307; DEDUCED, log entry 48). -/
def State.endFarGet (s : State) (c h : Nat) (x : Xfer) (reason : Nat) (bs : List Byte) : State :=
  let s1 := s.dropOwner (.xfer c h)
  if reason ≠ 0 then s1.failXfer c h reason
  else if xferKindOf x.word = 2 then (s1.spadWrite x.spad bs).doneXfer c h x
  else match objLen x.cap (hdrFrom bs) with
    | none => s1.failXfer c h 6
    | some n => if bs.length < n then s.xferFarRead c h (x.addr.toNat + 64) (n - 64) else s1.landGet c h x bs

/-- Ends a far transfer whose requests have ended. -/
def State.endFar (s : State) (c h : Nat) (x : Xfer) (st : Nat) : State :=
  if x.kind = .put then
    match s.pool.farReqs.find? (fun r => r.write && r.owner == .xfer c h) with
    | some r => s.endFarPut c h x r st
    | none => s
  else match s.farResult (.xfer c h) with
    | some (reason, bs) => s.endFarGet c h x reason bs
    | none => s

/-! ### Streams (R311, R312) -/

/-- The key of item `i` of a stream among the transfers of its cell. -/
def Stream.key (t : Stream) (k i : Nat) : Nat := 64 + 8 * k + i % t.slots

/-- Stores a stream. -/
def State.putStream (s : State) (c k : Nat) (t : Stream) : State :=
  let j := s.cell c
  s.setCell c { j with streams := tabPut k t j.streams }

/-- Releases the oldest item of a stream; the stream ends with its last item, or once cancelled with the last in flight
(R312; DEDUCED, log entry 36). -/
def State.releaseItem (s : State) (c k : Nat) (t : Stream) : State :=
  let j := s.cell c
  let t1 := { t with released := t.released + 1 }
  let j1 := { j with xfers := tabDel (t.key k t.released) j.xfers }
  if t1.released = t1.count ∨ (t1.cancelled ∧ t1.released = t1.issued) then
    s.setCell c { j1 with streams := tabDel k j1.streams }
  else s.setCell c { j1 with streams := tabPut k t1 j1.streams }

/-- Releases the completed items of a cancelled stream without use (R312). -/
def State.settleStream (c k : Nat) : Nat → State → State
  | 0, s => s
  | f + 1, s =>
    let j := s.cell c
    match alistGet j.streams k with
    | none => s
    | some t =>
      if t.cancelled = false then s
      else if t.released = t.issued then s.setCell c { j with streams := tabDel k j.streams }
      else if ((alistGet j.xfers (t.key k t.released)).elim true (·.complete)) then
        State.settleStream c k f (s.releaseItem c k t)
      else s

/-- Settles the stream of a transfer's key, if it is a stream item. -/
def State.settleKey (s : State) (c h : Nat) : State :=
  if h < 64 then s else State.settleStream c ((h - 64) / 8) 9 s

/-- The address of an item record. -/
def Stream.itemAddr (t : Stream) (i : Nat) : Nat := t.list + 16 * i

/-- The cause that an item's record shows, if any (Table 10-8): the record lies outside the scratchpad, has reserved bits
set, or names an address that is not in order. -/
def State.checkItem (s : State) (t : Stream) (i : Nat) : Option Nat :=
  let a := t.itemAddr i
  let r := s.spadNat a 16
  firstCause [(!spadIn a 16, excPlAddr), (field r 95 86 != 0, excPlKind),
    (t.kind != 0 && !xferAddrOk (t.kind == 3) (field r 63 0), excPlAddr)]

/-- The first cause that the records of some items show. -/
def State.checkItems (s : State) (t : Stream) (l : List Nat) : Option Nat := l.findSome? (fun i => s.checkItem t i)

/-- The transfer word of a stream's pool or far item (Table 10-6). -/
def Stream.word (t : Stream) (r : Nat) : W64 :=
  BitVec.ofNat 64 ((if t.kind = 1 then 0 else 1) + b2n (t.kind == 3) * 4 + field r 85 85 * 8 + t.slotSize * 2 ^ 4
    + 2 ^ 32 * field r 127 96)

/-- Issues one item of a stream; a gather needs a tag. An item of a fired action whose record is out of order ends FAILED
with reason 6 (DEDUCED, log entry 36). -/
def State.issueItem (s : State) (c k : Nat) (t : Stream) (tag : Option Nat) : State :=
  let i := t.issued
  let a := t.itemAddr i
  let s0 := (s.spadTouch a 16).putStream c k { t with issued := i + 1 }
  let r := s.spadNat a 16
  let key := t.key k i
  let dst := t.slotBase + 64 * ((i % t.slots) * t.slotSize)
  if (s.checkItem t i).isSome then
    (s0.issueXfer c key { kind := .gather, spad := dst, cap := t.slotSize, epoch := s.epoch }).failXfer c key 6
  else if t.kind = 0 then
    (match tag with
      | some g => s0.startGather c key g (BitVec.ofNat 64 (field r 63 0))
          (BitVec.ofNat 64 (field r 84 64 + 2 ^ 21 * t.slotSize))
          (BitVec.ofNat 64 (field r 127 96 + 2 ^ 32 * field r 85 85)) dst
      | none => s)
  else s0.startPool c key false (BitVec.ofNat 64 (field r 63 0)) (t.word r) dst

/-- Issues the items that a stream may issue now; one that finds no tag, or whose layer's descriptor is in the far tier,
waits with those behind it (R312, R356). -/
def State.pumpStream (c k : Nat) : Nat → State → State
  | 0, s => s
  | f + 1, s =>
    match alistGet (s.cell c).streams k with
    | none => s
    | some t =>
      if t.cancelled ∨ min t.count (t.released + t.slots) ≤ t.issued then s
      else if t.kind ≠ 0 ∨ (s.checkItem t t.issued).isSome then State.pumpStream c k f (s.issueItem c k t none)
      else
        let ps := s.gatherReads (BitVec.ofNat 64 (s.spadNat (t.itemAddr t.issued) 8))
        s.orWait (.stream c k) ps c (fun u =>
          match u.nextTag with
          | some g => State.pumpStream c k f (u.issueItem c k { t with tagStall := false } (some g))
          | none => if t.tagStall then u else (u.putStream c k { t with tagStall := true }).bump Reg.fabTagStall)

/-- The stream that sixteen words give, clamped (Table 10-6). -/
def streamOf (ws : List Nat) : Stream :=
  let f := wfield ws
  { kind := f 1 0 2, slots := holdTo 1 8 (f 1 4 4), count := max 1 (f 2 0 24), list := f 3 0 32, slotBase := f 4 0 32,
    slotSize := holdTo 1 98304 (f 5 0 24) }

/-- Does the ring of slots lie in the cell's own slice, and is it aligned? -/
def Stream.ringOk (t : Stream) (c : Nat) : Bool := alignedOk c t.slotBase (64 * (t.slots * t.slotSize)) true

/-- Is the list a scratchpad address in order? -/
def Stream.listOk (t : Stream) : Bool := t.list % 16 == 0 && spadIn t.list 16

/-- What the check of a stream descriptor records (R487). -/
def streamItems (c : Nat) (ws : List Nat) : List ClampItem :=
  let f := wfield ws
  let t := streamOf ws
  ckField ws 1 2 2 0 ++ ckField ws 1 4 4 t.slots ++ ckField ws 1 8 24 0 ++ ckField ws 2 0 24 t.count
    ++ ckField ws 2 24 8 0 ++ rjField ws 3 0 32 t.listOk ++ rjField ws 4 0 32 (t.ringOk c)
    ++ ckField ws 5 0 24 (holdTo 1 98304 (f 5 0 24)) ++ ckField ws 5 24 8 0 ++ ckWords ws 6 14

/-- Reads a stream descriptor in scratchpad (R311, R487). -/
def State.readStream (s : State) (c k a : Nat) : Stream × State :=
  let ws := (List.range 16).map (fun i => s.spadNat (a + 4 * i) 4)
  (streamOf ws, (s.spadTouch a 64).clampRead 0x06 (c * 4 + k) (nthWord ws 0) (nthWord ws 15) (unitCell c)
    (streamItems c ws))

/-- Starts a stream and issues its first items (R312). -/
def State.startStream (s : State) (c k : Nat) (t : Stream) : State := State.pumpStream c k 9 (s.putStream c k t)

/-- Has a stream not ended? -/
def State.streamOn (s : State) (c k : Nat) : Bool := (alistGet (s.cell c).streams k).isSome

/-- Stops a stream issuing (R312). -/
def State.cancelStream (s : State) (c k : Nat) : State :=
  match alistGet (s.cell c).streams k with
  | none => s
  | some t => State.settleStream c k 9 (s.putStream c k { t with cancelled := true })

/-- Is there an item that PL.SRELEASE can release: the oldest one, once PL.SWAIT has completed it? -/
def Stream.canRelease (t : Stream) : Bool := !t.cancelled && t.released < t.waited

/-- Releases the oldest item and issues the next one (R312). -/
def State.srelease (s : State) (c k : Nat) : State :=
  match alistGet (s.cell c).streams k with
  | none => s
  | some t => if t.canRelease then State.pumpStream c k 9 (s.releaseItem c k t) else s

/-! ### The late policy (R313 to R315) -/

/-- What a wait comes to: it returns a result word, with the transfer complete or not, or it goes on. -/
inductive WaitRes where
  | ret (w : Nat) (done : Bool) (s : State)
  | stay (s : State)
  deriving DecidableEq, Repr

/-- The result word of a transfer (R314). -/
def Xfer.result (x : Xfer) : Nat :=
  b2n x.complete + x.flags % 16 + b2n x.failed * 2 ^ 4 + 2 ^ 5 * b2n x.stale
    + (if x.failed then 2 ^ 8 * (x.reason % 16) else 0) + (if x.kind = .gather then 2 ^ 12 * (x.fmt % 16) else 0)

/-- Counts a wait that stalls past its deadline (R314, Table 10-11). -/
def State.deadlineMiss (s : State) (c layer : Nat) : State :=
  (s.bump (Reg.cellDeadlineMiss c)).reportLim 0x0309 c (unitCell c) (c + 2 ^ 16 * (layer % 2 ^ 16))

/-- The layer that DEADLINE_MISS names. -/
def Xfer.layer (x : Xfer) : Nat := if x.kind = .gather then (gWord x.word.toNat).layer else 0xFFFF

/-- The rung below a weight format (R315). -/
def rungBelow (f : Nat) : Option Nat := if f = 4 then some 2 else if f = 2 then some 1 else if f = 1 then some 0 else none

/-- Is narrowing allowed for a transfer (R315)? The layer's descriptor is read where the transfer could be narrowed. -/
def State.narrowing (s : State) (c : Nat) (x : Xfer) : Option Nat × State :=
  let g := gWord x.word.toNat
  match x.kind, rungBelow g.fmt with
  | .gather, some f =>
    let r := s.readLayer c (unitCell c) g.layer
    (if r.1.lateNarrow ∧ ¬(s.wideOn x.epoch ∧ r.1.wlockEn) then some f else none, r.2)
  | _, _ => (none, s)

/-- Issues the narrower request: the same request word with FMT moved, a new tag, the same owner and epoch, a new deadline
(R315). -/
def State.narrow (s : State) (c h tag f : Nat) (x : Xfer) : State :=
  let d := max x.deadline (s.pitch : Int) + (s.fld (Reg.cellLateCtrl c) 16 16 : Int)
  let x1 := { x with word := BitVec.ofNat 64 (putField x.word.toNat 20 4 f), deadline := d, tag := some tag, tag2 := x.tag, narrowTried := true,
                     flags := x.flags ||| 4 }
  ((s.putXfer c h x1).bump (Reg.cellLateNarrow c)).sendGather c h tag x1

/-- The narrowing step of the late policy for a transfer past its deadline: a new state, and whether the wait goes on
within this evaluation (R314, R315). -/
def State.narrowStep (s : State) (c h : Nat) (x : Xfer) : State × Bool :=
  let ps := match x.kind, rungBelow (gWord x.word.toNat).fmt with
    | .gather, some _ => s.layerPages (gWord x.word.toNat).layer
    | _, _ => []
  let need := s.farNeed (.core c) ps
  if need.isEmpty then
    match (s.goOn (.core c)).narrowing c x with
    | (none, s1) => (s1.putXfer c h { x with narrowTried := true }, true)
    | (some f, s1) =>
      match s1.nextTag with
      | some tag => (s1.narrow c h tag f x, true)
      | none => (if x.tagStall then s1 else (s1.putXfer c h { x with tagStall := true }).bump Reg.fabTagStall, false)
  else (s.waitFar (.core c) need c, false)

/-- Has the response to a transfer's request reached the port before the deadline: it is on time, though the cell has not taken
it yet (R51, R313)? -/
def State.onTime (s : State) (x : Xfer) : Bool :=
  s.fab.arrived.any (fun a => decide ((a.2 : Int) < x.deadline) && a.1.resp
    && (s.txnOf a.1).elim false (fun t => some t.tag == x.tag))

/-- The function wait(x) of R314 at the present count. -/
def State.waitLoop (c h : Nat) : Nat → State → WaitRes
  | 0, s => .stay s
  | f + 1, s =>
    match alistGet (s.cell c).xfers h with
    | none => .stay s
    | some x =>
      if x.fired = false then .stay s
      else if x.complete then .ret x.result true s
      else if x.dlEn = false ∨ (s.pitch : Int) < x.deadline ∨ s.onTime x then .stay s
      else if x.switchTried = false then
        let k := s.cell c
        if s.fld (Reg.cellLateCtrl c) 0 1 = 1 ∧ k.altReady then
          let x1 := { x with switchTried := true, flags := x.flags ||| 2 }
          let s1 := s.setCell c { k with altReady := false, xfers := tabPut h x1 k.xfers }
          .ret x1.result false (s1.bump (Reg.cellLateSwitch c))
        else State.waitLoop c h f (s.putXfer c h { x with switchTried := true })
      else if x.narrowTried = false then
        let r := s.narrowStep c h x
        if r.2 then State.waitLoop c h f r.1 else .stay r.1
      else if x.missed = false then
        .stay ((s.putXfer c h { x with missed := true, flags := x.flags ||| 8 }).deadlineMiss c x.layer)
      else .stay s

/-- Evaluates a wait. -/
def State.waitFor (s : State) (c h : Nat) : WaitRes := State.waitLoop c h 4 s

/-! ### Instructions -/

/-- The effect of an instruction that takes a transfer handle: issue stalls while none is free (R306). -/
def State.withHandle (s : State) (c sd : Nat) (act : Nat → State → State) : Eff :=
  match s.takeHandle c with
  | none => .stall
  | some (h, s1) =>
    let t := act h s1
    .done (t.setCell c ((t.cell c).setS sd (BitVec.ofNat 64 h)))

/-- The effect of PL.GET and PL.PUT. -/
def poolEffect (put : Bool) (c : Nat) (o : ROps) (t : State) : Eff :=
  let k := t.cell c
  let a := k.s o.sa.toNat
  let w := k.s o.sb.toNat
  let spad := (k.a o.ax.toNat).toNat
  match checkPool put c a w spad with
  | some e => .exc e 0
  | none => t.withHandle c o.sd.toNat (fun h u => u.startPool c h put a w spad)

/-- PL.GET (R306, R307). -/
def execPlGet (c : Nat) (o : ROps) (s : State) : Out :=
  coreR c (.plGet c o) o 0x07 0x00 [o.sd.toNat, o.sa.toNat, o.sb.toNat] (poolEffect false c o) s

/-- PL.PUT (R306, R307). -/
def execPlPut (c : Nat) (o : ROps) (s : State) : Out :=
  coreR c (.plPut c o) o 0x07 0x01 [o.sd.toNat, o.sa.toNat, o.sb.toNat] (poolEffect true c o) s

/-- PL.GATHER (R309). -/
def execPlGather (c : Nat) (o : ROps) (s : State) : Out :=
  coreR c (.plGather c o) o 0x07 0x02 [o.sd.toNat, o.sa.toNat, o.sb.toNat, o.sc.toNat]
    (fun t =>
      let k := t.cell c
      let req := k.s o.sa.toNat
      let owner := k.s o.sb.toNat
      let dl := k.s o.sc.toNat
      let dst := (k.a o.ax.toNat).toNat
      match checkGather c owner dst with
      | some e => .exc e 0
      | none =>
        if k.freeHandles.isEmpty then .stall
        else match t.nextTag with
          | none => t.tagWait c (.plGather c o)
          | some tag =>
            t.pagesFirst c (t.gatherReads req) (fun v =>
              v.withHandle c o.sd.toNat (fun h u => u.startGather c h tag req owner dl dst))) s

/-- The effect of PL.WAIT (R314): the handle is freed when it returns DONE. -/
def waitEffect (c : Nat) (o : ROps) (t : State) : Eff :=
  let h := ((t.cell c).s o.sa.toNat).toNat
  if 64 ≤ h ∨ (alistGet (t.cell c).xfers h).isNone then .exc excPlHandle 0
  else match t.waitFor c h with
    | .stay u => .wait u
    | .ret w done u =>
      let k := u.cell c
      .done (u.setCell c ({ k with xfers := if done then tabDel h k.xfers else k.xfers }.setS o.sd.toNat
        (BitVec.ofNat 64 w)))

/-- PL.WAIT (R314). -/
def execPlWait (c : Nat) (o : ROps) (s : State) : Out :=
  coreR c (.plWait c o) o 0x07 0x03 [o.sd.toNat, o.sa.toNat] (waitEffect c o) s

/-- PL.STREAM (R311, R312): a descriptor that is refused has been read. -/
def execPlStream (c : Nat) (o : ROps) (s : State) : Out :=
  coreR c (.plStream c o) o 0x07 0x04 []
    (fun t =>
      let j := o.x.toNat % 4
      let a := ((t.cell c).a o.ax.toNat).toNat
      if !alignedOk c a 64 true then .exc excPlAddr 0
      else
        let t0 := State.settleStream c j 9 t
        if t0.streamOn c j then .exc excPlBusy 0
        else
          let r := t0.readStream c j a
          if !r.1.listOk || !r.1.ringOk c then .excRead r.2 excPlAddr
          else match t0.checkItems r.1 (List.range (min r.1.slots r.1.count)) with
            | some e => .excRead r.2 e
            | none => .done (r.2.startStream c j r.1)) s

/-- The effect of PL.SWAIT: the oldest unreleased item under the late policy, its slot in [23:16] (R312; DEDUCED, log entry 36). -/
def swaitEffect (c : Nat) (o : ROps) (t0 : State) : Eff :=
  let j := o.x.toNat % 4
  match alistGet (t0.cell c).streams j with
  | none => .exc excPlBusy 0
  | some x =>
    if x.cancelled then .exc excPlBusy 0
    else match t0.waitFor c (x.key j x.released) with
      | .stay u => .wait u
      | .ret w done u =>
        let u1 := match done, alistGet (u.cell c).streams j with
          | true, some y => u.putStream c j { y with waited := max y.waited (y.released + 1) }
          | _, _ => u
        effS c o.sd.toNat (BitVec.ofNat 64 (w + 2 ^ 16 * (x.released % x.slots))) u1

/-- PL.SWAIT (R312, R314). -/
def execPlSwait (c : Nat) (o : ROps) (s : State) : Out :=
  coreR c (.plSwait c o) o 0x07 0x05 [o.sd.toNat] (swaitEffect c o) s

/-- The cause that PL.SRELEASE raises, if any: nothing to release, or the next item's record is out of order. -/
def State.checkRelease (s : State) (c j : Nat) : Option Nat :=
  match alistGet (s.cell c).streams j with
  | none => some excPlBusy
  | some t =>
    if t.canRelease = false then some excPlBusy
    else if t.issued < t.count ∧ t.issued < t.released + 1 + t.slots then s.checkItem t t.issued else none

/-- PL.SRELEASE (R312). -/
def execPlSrelease (c : Nat) (o : ROps) (s : State) : Out :=
  coreR c (.plSrelease c o) o 0x07 0x06 []
    (fun t => match t.checkRelease c (o.x.toNat % 4) with
      | some e => .exc e 0
      | none => .done (t.srelease c (o.x.toNat % 4))) s

/-- PL.SCANCEL (R312). -/
def execPlScancel (c : Nat) (o : ROps) (s : State) : Out :=
  coreR c (.plScancel c o) o 0x07 0x07 [] (fun t => .done (t.cancelStream c (o.x.toNat % 4))) s

/-- PL.ALTREADY (R314). -/
def execPlAltready (c : Nat) (o : ROps) (s : State) : Out :=
  coreR c (.plAltready c o) o 0x07 0x08 []
    (fun t => .done (t.setCell c { t.cell c with altReady := o.x.getLsbD 0 })) s

/-! ### Events of transfers -/

/-- XFER_COMPLETE (R307, R310): a pool or far transfer of a cell, a stream item included, completes or fails. -/
def execXferComplete (c h st : Nat) (s : State) : Out :=
  onUnit (c < 512) (match alistGet (s.cell c).xfers h with
    | none => s
    | some x =>
      whenOk (s.works && x.fired && !x.complete && x.kind != .gather) s
        (if xferFar x.word then (s.endFar c h x st).settleKey c h
         else if (s.cell c).ordered x then s
         else (s.endPool c h (.xferComplete c h st) x).settleKey c h))

/-- A gather response reaches the transfer that asked for it (R309, R314, R317, R61). -/
def State.gatherLands (s : State) (c h : Nat) (x : Xfer) (d : Hdr) (payload : List Byte) : State :=
  let y := { x with fmt := d.fmt.toNat }
  if hdrFlag d 4 then (s.spadPut x.spad (hdrBytes d)).doneXfer c h { y with stale := true }
  else if fmtReserved d.fmt.toNat then ((s.reservedObj c d).putXfer c h y).failXfer c h 6
  else if 64 * x.cap < max 64 d.len.toNat then (s.putXfer c h y).failXfer c h 6
  else (s.putObject x.spad d payload).doneXfer c h y

/-- What a response stamped `at_` does for the owner of its transaction; one superseded by a narrower request is discarded
(R51, R209, R315). -/
def State.respFor (s : State) (at_ : Nat) (t : Txn) (d : Hdr) (payload : List Byte) : State :=
  match t.owner with
  | .xfer c h =>
    match alistGet (s.cell c).xfers h with
    | some x =>
      if x.tag = some t.tag ∧ x.complete = false then (s.gatherLands c h x d payload).settleKey c h
      else s.bump (Reg.cellLateDiscard c)
    | none => s.bump (Reg.cellLateDiscard c)
  | .widen c i =>
    let k := s.cell c
    match alistGet k.widens i with
    | some w =>
      let s1 := s.setCell c { k with widens := tabPut i { w with resp := some (d, payload) } k.widens }
      if w.dlEn ∧ hdrFlag d 4 = false ∧ w.deadline ≤ (at_ : Int) then s1.deadlineMiss c (gWord w.word.toNat).layer
      else s1
    | none => s
  | .disc => s

/-- GATHER_RESP (R314, R315, R357): while a trip freezes transfers the response waits (R435). -/
def execGatherResp (h : Hdr) (payload : List Byte) (s : State) : Out :=
  .next (whenOk s.up s
    (if s.tripped then s.park (.gatherResp h payload)
     else
      let u := s.unstamp h
      match u.txnOf h with
      | none => u.bump Reg.fabLateResp
      | some t => (u.endTxn t.tag).respFor (s.stampOf h) t h payload))

/-- A transaction has failed for its owner: reason 7, or the widen's result 2 (R209, R357). -/
def State.txnDead (s : State) (t : Txn) : State :=
  match t.owner with
  | .xfer c h =>
    match alistGet (s.cell c).xfers h with
    | some x => if x.tag = some t.tag ∧ x.complete = false then (s.failXfer c h 7).settleKey c h else s
    | none => s
  | .widen c i =>
    let k := s.cell c
    match alistGet k.widens i with
    | some w => s.setCell c { k with widens := tabPut i { w with failed := true } k.widens }
    | none => s
  | .disc => s

/-- The transfer that a core's stalled wait waits for. -/
def State.waitedKey (s : State) (c : Nat) : Option Nat :=
  let k := s.cell c
  match k.stall with
  | some (.plWait _ o) => some (k.s o.sa.toNat).toNat
  | some (.plSwait _ o) => (alistGet k.streams (o.x.toNat % 4)).map (fun t => t.key (o.x.toNat % 4) t.released)
  | _ => none

/-- Has a deadline come that a stalled core waits over, and is it still to be handled? -/
def State.edgeDue (s : State) (c : Nat) : Bool :=
  match (s.waitedKey c).bind (alistGet (s.cell c).xfers) with
  | some x => x.fired && !x.complete && !x.missed && x.dlEn && x.deadline ≤ (s.pitch : Int) && !s.onTime x
  | none => false

/-- DEADLINE_EDGE (R313): the late policy is evaluated for the wait of a cell. -/
def execDeadlineEdge (c : Nat) (s : State) : Out :=
  onUnit (c < 512) (whenOk (s.works && (s.cell c).run == .running && s.edgeDue c) s
    (match (s.cell c).stall with
      | some (.plWait b o) => s.finish c (.plWait b o) 0x07 0x03 1 (waitEffect c o s)
      | some (.plSwait b o) => s.finish c (.plSwait b o) 0x07 0x05 1 (swaitEffect c o s)
      | _ => s))

end Sys2Proof.Machine
end

