-- ==== Sys2Proof/Machine/Fabric.lean ====
section
/-! DEFINITION. Channel contexts, transactions and discovery (R347 to R350, R356 to R362). -/

namespace Sys2Proof.Machine

/-! ### Channel contexts (R359 to R362) -/

/-- Stores CSTATE of a context. -/
def State.setCstate (s : State) (c v : Nat) : State :=
  s.setCtxWord c 13 (putField (nthWord (s.chanWords c) 13) 0 2 v)

/-- FAB_CHAN_STATUS after a command: 0 done, 1 refused. -/
def State.chanResult (s : State) (r : Nat) : State := s.setReg Reg.fabChanStatus (BitVec.ofNat 32 (r * 2))

/-- OPEN (R360): the record is read and checked; torn bookends or a PEER_UNIT out of range refuse it. -/
def State.openChan (s : State) (c : Nat) : State :=
  match s.unitWords 0xFFFF (s.chanAddr c) with
  | (none, s1) => s1.chanResult 1
  | (some ws, s1) =>
    let s2 := s1.clampRead 0x05 c (nthWord ws 0) (nthWord ws 15) unitMgmt (ctxItems ws)
    if itemsOk (ctxItems ws) = false ∨ nthWord ws 0 ≠ nthWord ws 15 then s2.chanResult 1
    else ((((((s2.setChan c {}).setCtxWord c 10 0).setCtxWord c 11 0).setCtxWord c 12 0).setCstate c 1)).chanResult 0

/-- CLOSE (R360): unacknowledged messages are discarded; what a unit still has to send on the context is lost (DEDUCED, log
entry 18). -/
def State.closeChan (s : State) (c : Nat) : State :=
  if s.chanOk c then (((s.setChan c {}).setCstate c 0).chanResult 0).pumpUnits
  else (s.notServed 0xFFFF (s.chanAddr c / pageBytes)).chanResult 1

/-- A command on a context, once the page it lies in is resident; until then FAB_CHAN_STATUS shows BUSY (R364). -/
def chanCmd (i : Instr) (c : Nat) (act : State → State) (s : State) : Out :=
  let ps := [s.chanAddr c / pageBytes]
  let t := if (s.farNeed (.cmd i) ps).isEmpty then s else s.setFld Reg.fabChanStatus 0 1 1
  .next (whenOk (s.up && c < 65536) s (t.withPages i ps act))

/-- CHAN_OPEN (R360). -/
def execChanOpen (c : Nat) (s : State) : Out := chanCmd (.chanOpen c) c (fun t => t.openChan c) s

/-- CHAN_CLOSE (R360). -/
def execChanClose (c : Nat) (s : State) : Out := chanCmd (.chanClose c) c (fun t => t.closeChan c) s

/-- CHAN_RESET (R360). -/
def execChanReset (c : Nat) (s : State) : Out :=
  chanCmd (.chanReset c) c (fun t => if t.chanOk c then (t.closeChan c).openChan c else t.closeChan c) s

/-- Takes an acknowledgement up to sequence number `v`: ACKED advances, and units that waited for the window go on (R361). -/
def State.takeAck (s : State) (c : Nat) (x : Ctx) (v : Nat) : State :=
  let n := (v + 2 ^ 32 - x.acked) % 2 ^ 32
  if n = 0 ∨ (x.tx + 2 ^ 32 - x.acked) % 2 ^ 32 < n then s
  else
    let k := s.chan c
    ((s.setChan c { k with unacked := k.unacked.drop n, progress := s.pitch, retx := 0 }).setCtxWord c 11 v).pumpUnits

/-- ACK (R361, R362). -/
def execAck (h : Hdr) (s : State) : Out :=
  let c := h.chan.toNat
  .next (whenOk s.up s (s.withPages (.ack h) [s.chanAddr c / pageBytes] (fun t0 =>
    let t := t0.unstamp h
    match t.ctx c with
    | some x => if x.cstate = 1 then t.takeAck c x (h.arg.toNat % 2 ^ 32) else t.chanReject c
    | none => t.chanReject c)))

/-- Has a context owed its acknowledgement for 32 ticks (R361)? -/
def State.ackDue (s : State) (c : Nat) : Bool := (s.chan c).ackFrom.elim false (fun t => decide (t + 32 ≤ s.pitch))

/-- ACK_DELAY (R361). -/
def execAckDelay (c : Nat) (s : State) : Out := .next (whenOk (s.up && s.ackDue c) s (s.chanAck c))

/-- Has a context gone RTO ticks without ACKED advancing (R361)? -/
def State.rtoDue (s : State) (c : Nat) : Bool :=
  match s.ctx c with
  | some x => x.cstate == 1 && !(s.chan c).unacked.isEmpty && decide ((s.chan c).progress + x.rto ≤ s.pitch)
  | none => false

/-- Sends every unacknowledged message again, in order, and counts it (R361). -/
def State.resendChan (s : State) (c : Nat) (x : Ctx) : State :=
  let k := s.chan c
  let w := nthWord (s.chanWords c) 13
  let s1 := (s.setChan c { k with progress := s.pitch, retx := k.retx + 1 }).setCtxWord c 13
    (putField w 16 16 (min (w / 2 ^ 16 + 1) 0xFFFF))
  k.unacked.foldl (fun t m => t.issueMsg m.h m.payload x.vl x.ar) (s1.bump Reg.fabChanRetx)

/-- A context enters ERROR: its messages are discarded and the collectives that use it fail (R362, R383). -/
def State.failChan (s : State) (c : Nat) : State :=
  ((((s.setChan c {}).setCstate c 2).reportLim 0x0409 (2 * c) unitMgmt c).collsFail c).pumpUnits

/-- CHANNEL_RTO (R361, R362). -/
def execChannelRto (c : Nat) (s : State) : Out :=
  .next (whenOk (s.up && s.rtoDue c) s
    (match s.ctx c with
      | some x => if (s.chan c).retx < x.retries then s.resendChan c x else s.failChan c
      | none => s))

/-! ### Discovery records (R348, Table 11-9) -/

/-- The ports of a mask of 24, ascending. -/
def maskPorts (m : Nat) : List Nat := (List.range 24).filter m.testBit

/-- A route of port numbers as ARG carries it, with the index of the next hop (R349). -/
def routeArg (ps : List Nat) (idx : Nat) : BitVec 128 :=
  BitVec.ofNat 128 (sumNat ((List.range 24).map (fun i => ps.getD i 31 * 2 ^ (5 * i))) + 2 ^ 120 * idx)

/-- LANES of a discovery record. -/
def discLanes (n : Nat) : Nat := if n = 4 then 2 else if n = 2 then 1 else 0

/-- One record of Table 11-9 for the port in hand, as eight qwords. -/
def discRec (n : DiscNode) (port : Nat) (peer : Option Ident) (addr status : Nat) : List W64 :=
  let i := peer.getD {}
  [BitVec.ofNat 64 n.serial,
   BitVec.ofNat 64 (n.addr + 2 ^ 17 * port + 2 ^ 22 * discLanes i.lanes + 2 ^ 24 * (n.depth % 256)
     + 2 ^ 32 * (i.serial % 2 ^ 32)),
   BitVec.ofNat 64 (i.serial / 2 ^ 32 % 2 ^ 32 + 2 ^ 32 * (addr + 2 ^ 17 * (i.port % 2 ^ 5) + 2 ^ 24 * status)),
   BitVec.ofNat 64 i.cableSerial,
   BitVec.ofNat 64 (i.cableLength.toNat + 2 ^ 16 * i.cableAsym.toNat
     + 2 ^ 32 * (i.stepping.toNat + 2 ^ 16 * i.level.toNat)),
   0, 0, 0]

/-- Writes the record of the port in hand, up to FAB_DISC_MAXREC, and takes the port off the module being probed. -/
def State.discRecord (s : State) (n : DiscNode) (port : Nat) (peer : Option Ident) (addr status : Nat) : State :=
  let d := s.fab.disc
  let base := 64 * (s.reg64 Reg.fabDiscBufLo Reg.fabDiscBufHi / 64)
  let fits := decide (d.records < s.fld Reg.fabDiscMaxrec 0 20)
  let s1 := if fits then s.toHost (.hostWrite (base + 64 * d.records) (discRec n port peer addr status)) else s
  let rest := { n with ports := n.ports.filter (· != port) } :: d.queue.drop 1
  { s1 with fab := { s1.fab with disc := { d with records := d.records + b2n fits, queue := rest, peer := none } } }

/-- Ends discovery: 2 done, 3 failed (R348, Table 11-13). -/
def State.discEnd (s : State) (m : DiscMode) (code : Nat) : State :=
  let d := s.fab.disc
  ({ s with fab := { s.fab with disc := { d with mode := m, queue := [], peer := none } } }).report 0x040B unitMgmt
    (d.found % 2 ^ 18 + 2 ^ 18 * min d.beyond 0xFFF + 2 ^ 30 * code)

/-! ### Discovery requests (R348 to R350) -/

/-- Sends a source-routed request of this module, or sends it again: out of the first port of its route. -/
def State.discIssue (s : State) (h : Hdr) (payload : List Byte) : State :=
  s.discOut (routePort h 0) { h := routeStep h, payload := payload, vl := 6, hops := s.fld Reg.fabCtrl 8 6 }

/-- Starts a discovery transaction, when a tag is free (R356); a stall is counted once. -/
def State.discTxn (s : State) (kind : BitVec 8) (route : List Nat) (payload : List Byte) : State :=
  let d := s.fab.disc
  match s.nextTag with
  | none =>
    if d.stalled then s
    else ({ s with fab := { s.fab with disc := { d with stalled := true } } }).bump Reg.fabTagStall
  | some t =>
    let h : Hdr := { kind := kind, src := BitVec.ofNat 17 s.ownAddr, srcUnit := 0x7FFF, dstUnit := 0x7FFF,
                     tag := BitVec.ofNat 15 t, len := BitVec.ofNat 32 (64 + payload.length), arg := routeArg route 0 }
    let x : Txn := ⟨t, { h := h, payload := payload, vl := 6 }, .disc, s.pitch, 0⟩
    ({ s with fab := { s.fab with txns := s.fab.txns ++ [x], disc := { d with stalled := false } } }).discIssue h payload

/-- Goes on with discovery at the root (R348): assigns an address to a peer found, or probes the next port in breadth-first
order; a port beyond 24 hops is recorded and counted (the fuel bounds such ports and modules done with). -/
def State.discGo : Nat → State → State
  | 0, s => s
  | f + 1, s =>
    let d := s.fab.disc
    if d.mode ≠ .running ∨ s.fab.txns.any (fun x => x.owner == .disc) then s
    else match d.queue with
    | [] => s.discEnd .done 2
    | n :: ns =>
      match n.ports with
      | [] => State.discGo f { s with fab := { s.fab with disc := { d with queue := ns } } }
      | p :: _ =>
        let route := n.route ++ [p]
        if d.peer.isSome then
          -- the address was taken from FAB_DISC_NEXT when the peer was found
          s.discTxn 0x0C route (leBytes 4 d.addr ++ List.replicate 60 0)
        else if 24 < route.length then
          State.discGo f ({ s with fab := { s.fab with disc := { d with beyond := d.beyond + 1 } } }.discRecord n p none 0 4)
        else s.discTxn 0x0A route []

/-- Bound of the modules and ports that one step of discovery can pass over. -/
def State.discFuel (s : State) : Nat := sumNat (s.fab.disc.queue.map (fun n => n.ports.length + 1)) + 1

/-- The next step of discovery. -/
def State.discNext (s : State) : State := State.discGo s.discFuel s

/-- Records the serial of every peer as its port last exchanged it (R342, R348). -/
def State.recordPeers (s : State) : State :=
  (List.range 24).foldl (fun t p =>
    let q := t.port p
    if q.receives then t.setPort p { q with recorded := some q.peerSerial } else t) s

/-- DISC_START (R348): the root takes itself as depth 0. -/
def execDiscStart (s : State) : Out :=
  .next (whenOk (s.up && s.fab.disc.mode != .running) s
    (let n : DiscNode := ⟨s.ownAddr, s.fab.serial, 0, [], (List.range 24).filter s.portUp⟩
     let d : Disc := { mode := .running, queue := [n], seen := [s.fab.serial], found := 1 }
     ({ s.recordPeers with fab := { s.recordPeers.fab with disc := d } }).discNext))

/-- DISC_ABORT (R364): discovery stops, and its transaction with it. -/
def execDiscAbort (s : State) : Out :=
  .next (whenOk (s.up && s.fab.disc.mode == .running) s
    (((s.fab.txns.filter (fun x => x.owner == .disc)).foldl (fun (t : State) (x : Txn) => t.endTxn x.tag) s).discEnd .failed 3))

/-- The answer or response to a discovery request, sent back on the port the request came on, with AR as FAB_CTRL.AR_TXN
gives it (R349, R352; DESIGN CHOICE, log entry 41 for the payload). -/
def State.discAnswer (s : State) (port : Nat) (h : Hdr) (kind : BitVec 8) (payload : List Byte) : State :=
  let a : Hdr := { kind := kind, src := BitVec.ofNat 17 s.ownAddr, srcUnit := 0x7FFF, dst := h.src, dstUnit := h.srcUnit,
                   tag := h.tag, resp := true, len := BitVec.ofNat 32 (64 + payload.length), arg := h.arg }
  (s.recordRoute (routeKey h.src h) port).discOut port
    { h := a, payload := payload, vl := 6, ar := s.fld Reg.fabCtrl 1 1 == 1, hops := s.fld Reg.fabCtrl 8 6 }

/-- What a DISC_IDENT carries, as the bytes of its payload (R348; DESIGN CHOICE, log entry 41 for their order). -/
def identBytes (i : Ident) : List Byte :=
  leBytes 8 i.serial ++ leBytes 2 i.stepping.toNat ++ leBytes 2 i.level.toNat
    ++ leBytes 4 (i.addr.toNat + 2 ^ 17 * b2n i.valid + 2 ^ 18 * (i.port % 2 ^ 5) + 2 ^ 23 * (i.lanes % 2 ^ 3))
    ++ leBytes 8 i.cableSerial ++ leBytes 2 i.cableLength.toNat ++ leBytes 2 i.cableAsym.toNat
    ++ leBytes 4 i.upPorts.toNat

/-- The identity of this module as seen on a port (R348). -/
def State.ident (s : State) (p : Nat) : Ident :=
  { serial := s.fab.serial, stepping := s.boot.stepping, level := BitVec.ofNat 16 s.boot.level,
    addr := BitVec.ofNat 17 s.ownAddr, valid := s.fld Reg.fabAddr 31 1 == 1, port := p, lanes := (s.port p).laneCount,
    cableSerial := (s.port p).cableSerial, cableLength := BitVec.ofNat 16 (s.fld (Reg.fabPortCable p) 16 16),
    cableAsym := BitVec.ofNat 16 (s.fld (Reg.fabPortCable p) 0 16),
    upPorts := BitVec.ofNat 24 (sumNat (((List.range 24).filter s.portUp).map (2 ^ ·))) }

/-- A message for the management core as a command row gives it, with the hops it has left and without damage (DESIGN
CHOICE, log entry 41). -/
def discMsg (hops : Nat) (h : Hdr) (payload : List Byte) : Msg :=
  { h := h, payload := payload, vl := 6, hops := hops % 64 }

/-- DISC_PROBE (R349): forwarded along its route, or answered at its destination. -/
def execDiscProbe (port hops : Nat) (h : Hdr) (s : State) : Out :=
  onUnit (port < 24) (whenOk (s.up && h.kind == 0x0A) s
    (if s.discHere h then s.discAnswer port h 0x0B (identBytes (s.ident port)) else s.discForward port (discMsg hops h [])))

/-- The discovery transaction that an answer completes: its tag is outstanding and its route the same (R357; DESIGN CHOICE, log entry 41
for SRC, which the root does not know). -/
def State.discTxnOf (s : State) (h : Hdr) : Option Txn :=
  s.fab.txns.find? (fun x => x.owner == .disc && x.tag == h.tag.toNat
    && x.msg.h.arg.toNat % 2 ^ 120 == h.arg.toNat % 2 ^ 120)

/-- A peer has answered a probe: one seen before is recorded; one not seen is given FAB_DISC_NEXT (R348). -/
def State.discFound (s : State) (peer : Ident) : State :=
  let d := s.fab.disc
  match d.queue with
  | [] => s
  | n :: _ =>
    match n.ports with
    | [] => s
    | p :: _ =>
      if d.seen.contains peer.serial then s.discRecord n p (some peer) peer.addr.toNat 1
      else
        let a := s.fld Reg.fabDiscNext 0 17
        let s1 := { s with fab := { s.fab with disc :=
          { d with seen := d.seen ++ [peer.serial], found := d.found + 1, peer := some peer, addr := a } } }
        s1.setFld Reg.fabDiscNext 0 17 ((a + 1) % 2 ^ 17)

/-- DISC_IDENT (R348, R349): passed back towards the root, or taken there. -/
def execDiscIdent (port hops : Nat) (h : Hdr) (peer : Ident) (s : State) : Out :=
  onUnit (port < 24) (whenOk (s.up && h.kind == 0x0B) s
    (if s.discHere { h with resp := true } then
       (match s.discTxnOf h with
         | none => s.bump Reg.fabLateResp
         | some t => ((s.endTxn t.tag).discFound peer).discNext)
     else s.discForward port (discMsg hops { h with resp := true } (identBytes peer))))

/-- Takes an assigned address (R348, R350): the answer is 0 assigned, or 2 refused outside IDLE. -/
def State.takeAddr (s : State) (h : Hdr) (a : Nat) : Nat × State :=
  let had := s.fld Reg.fabAddr 31 1 == 1
  if had ∧ s.ownAddr = a ∧ hdrFlag h 8 then (0, s)
  else if s.step.mode = .idle then
    let s1 := (s.setFld Reg.fabAddr 0 17 a).setFld Reg.fabAddr 31 1 1
    (0, s1.recordPeers.report 0x040A unitMgmt (a + 2 ^ 17 * b2n had))
  else (2, s)

/-- The response to an assignment has come to the root: the port is recorded, and the peer is probed in its turn. -/
def State.discAssigned (s : State) (status : Nat) : State :=
  let d := s.fab.disc
  match d.queue, d.peer with
  | n :: _, some peer =>
    match n.ports with
    | [] => s
    | p :: _ =>
      let a := if status = 0 then d.addr else peer.addr.toNat
      let s1 := s.discRecord n p (some peer) a status
      let m : DiscNode := ⟨a, peer.serial, n.depth + 1, n.route ++ [p], maskPorts peer.upPorts.toNat⟩
      let e := s1.fab.disc
      { s1 with fab := { s1.fab with disc := { e with queue := e.queue ++ [m] } } }
  | _, _ => s

/-- DISC_ASSIGN (R348 to R350, R358): forwarded, taken or refused by the module it is for, or, as a response, taken by the
root; byte 4 of a response's payload is its status (DESIGN CHOICE, log entry 41). -/
def execDiscAssign (port hops : Nat) (h : Hdr) (payload : List Byte) (s : State) : Out :=
  onUnit (port < 24) (whenOk (s.up && h.kind == 0x0C) s
    (if s.discHere h = false then s.discForward port (discMsg hops h payload)
     else if h.resp then
       (match s.discTxnOf h with
         | none => s.bump Reg.fabLateResp
         | some t => ((s.endTxn t.tag).discAssigned (if (payload.getD 4 0).toNat = 0 then 0 else 2)).discNext)
     else
       let r := s.takeAddr h (leNat (payload.take 4) % 2 ^ 17)
       r.2.discAnswer port h 0x0C (leBytes 4 r.2.ownAddr ++ leBytes 4 r.1 ++ List.replicate 56 0)))

/-! ### Timeouts (R357) -/

/-- A discovery transaction has failed: the port is recorded as failed and discovery goes on (R350). -/
def State.discDead (s : State) : State :=
  let d := s.fab.disc
  match d.queue with
  | [] => s
  | n :: _ =>
    match n.ports with
    | [] => s
    | p :: _ => (s.discRecord n p d.peer (d.peer.elim 0 (·.addr.toNat)) 3).discNext

/-- Sends the request of a transaction again with RETRY set (R357). -/
def State.retryTxn (s : State) (t : Txn) : State :=
  let h := setHdrFlag t.msg.h 8 true
  let y : Txn := { t with msg := { t.msg with h := h }, sentAt := s.pitch, retries := t.retries + 1 }
  let s1 := { s with fab := { s.fab with txns := s.fab.txns.map (fun x : Txn => if x.tag = t.tag then y else x) } }
  match t.owner with
  | .disc => s1.discIssue h t.msg.payload
  | .xfer _ _ => s1.issueReq h t.msg.vl
  | .widen _ _ => s1.issueReq h t.msg.vl

/-- The epoch of a requester: the one its request carries; the management core's is the module's. -/
def State.txnEpoch (s : State) (t : Txn) : W32 :=
  match t.owner with
  | .disc => s.epoch
  | .xfer _ _ => t.msg.h.epoch
  | .widen _ _ => t.msg.h.epoch

/-- A transaction fails with reason 7 (R357). -/
def State.failTxn (s : State) (t : Txn) : State :=
  let u := t.msg.h.srcUnit.toNat
  let s1 := ((s.endTxn t.tag).bump Reg.fabTxnFail).reportLim 0x0408 u u (t.tag + 2 ^ 16 * u)
  let s2 := if s.stepping then s1.raiseFlag flagDeadline (s.txnEpoch t) else s1
  match t.owner with
  | .disc => s2.discDead
  | .xfer _ _ => s2.txnDead t
  | .widen _ _ => s2.txnDead t

/-- TXN_TIMEOUT (R357). -/
def execTxnTimeout (tag : Nat) (s : State) : Out :=
  .next (match s.fab.txns.find? (fun x => x.tag == tag) with
    | none => s
    | some t => whenOk (s.up && t.sentAt + s.txnTimeout ≤ s.pitch) s
        (if t.retries < s.fld Reg.fabTxnRetries 0 4 then s.retryTxn t else s.failTxn t))

end Sys2Proof.Machine
end

