-- ==== Sys2Proof/Machine/Launch.lean ====
section
/-! DEFINITION. Timed launch: LAUNCH.AT and the firing of launch-queue entries (R45 to R48, R398 to R400). -/

namespace Sys2Proof.Machine

/-! ### Which instruction may be an action (R45, R398, Tables 13-7 and 13-8) -/

/-- May an instruction of a class and opcode be an action, apart from VS.OP's own condition? -/
def actionAllowed (cls opc : Nat) : Bool :=
  (cls == 0x03 && opc == 0x02) || (cls == 0x04 && opc ≤ 0x02) || (cls == 0x05 && opc == 0x00)
    || (cls == 0x06 && (opc ≤ 0x04 || opc == 0x09))
    || (cls == 0x07 && (opc ≤ 0x02 || opc == 0x04 || (0x06 ≤ opc && opc ≤ 0x08)))
    || (cls == 0x08 && opc == 0x02) || cls == 0x09

/-- Does an action take a handle? -/
def actionHandle (cls opc : Nat) : Bool := (cls == 0x06 && opc ≤ 0x04) || (cls == 0x07 && opc ≤ 0x02)

/-- The scalar registers that an action reads, or writes with its handle. -/
def actionUses (k : Cell) (cls opc : Nat) (o : ROps) : List Nat :=
  (if actionHandle cls opc then [o.sd.toNat] else [])
    ++ (if cls = 0x05 then vsUses o (k.vsOp o) else [])
    ++ (if cls = 0x06 ∧ opc ≤ 0x04 then [o.sa.toNat, o.sa.toNat + 1] else [o.sa.toNat, o.sb.toNat, o.sc.toNat])

/-- An action of a class and opcode that R398 refuses: its class, its mark, its guard, or a VS.OP that writes SD. -/
def actionBad (k : Cell) (cls opc : Nat) (o : ROps) : Bool :=
  !actionAllowed cls opc || o.gneg || o.gp != 0 || (cls == 0x05 && (vctl (k.vsOp o).ctl).writesSd)

/-- The cause that a PL.STREAM action raises, if any; its descriptor is read for the check (R311, R324;
DEDUCED, log entry 38). -/
def State.checkStream (s : State) (c k a : Nat) : Option Nat :=
  if !alignedOk c a 64 true then some excPlAddr
  else if s.streamOn c k then some excPlBusy
  else
    let t := (s.readStream c k a).1
    if !t.listOk || !t.ringOk c then some excPlAddr else s.checkItems t (List.range (min t.slots t.count))

/-! ### Firing -/

/-- A launch fault (R400, R409): the action is dropped, its cause written and counted. -/
def State.launchFault (s : State) (c cause : Nat) : State :=
  let s1 := (s.setFld (Reg.cellLaunchFault c) 0 8 cause).bumpFld (Reg.cellLaunchFault c) 16 16 1
  (s1.setCell c { s1.cell c with lfaultTick := BitVec.ofNat 32 s.pitch }).reportLim 0x0741 c (unitCell c)
    (c + 2 ^ 16 * (cause % 2 ^ 8))

/-- Sends the request of a gather that has fired, once the descriptor it reads is at hand and a tag is free (R309,
R356). -/
def State.goGather (s : State) (c h : Nat) (x : Xfer) : State :=
  s.orWait (.gather c h) (s.gatherReads x.word) c (fun t =>
    match t.nextTag with
    | none => if x.tagStall then t else (t.putXfer c h { x with tagStall := true }).bump Reg.fabTagStall
    | some tag =>
      let r := t.lockWord c x.word
      let y := { x with word := r.1, tag := some tag, tagStall := false }
      (r.2.putXfer c h y).sendGather c h tag y)

/-- Has a gather fired that has not been able to send its request? -/
def Xfer.waitsTag (x : Xfer) : Bool := x.kind == .gather && x.fired && x.tag.isNone && !x.complete

/-- Sends the requests of a cell's fired gathers that wait. -/
def State.goGathers (s : State) (c : Nat) : State :=
  ((s.cell c).xfers.filter (fun p => p.2.waitsTag)).foldl (fun t p => t.goGather c p.1 p.2) s

/-- A transfer action fires: its handle is in use from now on as after an issue (R399). -/
def State.firePool (s : State) (c h : Nat) (put : Bool) (a w : W64) (spad : W32) : State :=
  s.startPool c h put a w spad.toNat

/-- A gather action fires. -/
def State.fireGather (s : State) (c h : Nat) (req owner dl : W64) (dst : W32) : State :=
  let x : Xfer :=
    { kind := .gather, word := req, addr := owner, spad := dst.toNat, cap := ownerCap owner, dlEn := dl.getLsbD 32,
      deadline := fullTime s.pitch (BitVec.ofNat 32 (field dl.toNat 31 0)), epoch := s.epoch }
  (s.issueXfer c h x).goGathers c

/-- A PL.STREAM action fires; on a stream that has not ended, or with a descriptor refused by now, it does nothing (DEDUCED, log
entry 38). -/
def State.fireStream (s : State) (c k a : Nat) : State :=
  let t := State.settleStream c k 9 s
  if (t.checkStream c k a).isSome then t
  else
    let r := t.readStream c k a
    r.2.startStream c k r.1

/-- The epoch of a matrix start is that of the step in which it enters its queue. -/
def MxOp.stamp (e : W32) : MxOp → MxOp
  | .start h w src _ => .start h w src e
  | .mul h ws wt kc sa ta => .mul h ws wt kc sa ta
  | .fin h w dst => .fin h w dst

/-- Hands an action to its unit (R48, R399, R400). -/
def State.fireWork (s : State) (c : Nat) : Work → State
  | .mx op =>
    match s.checkMx c false true (op.stamp s.epoch) with
    | some e => s.launchFault c e
    | none => (s.mxPush c (op.stamp s.epoch)).runEngines c
  | .vs op =>
    match s.checkVs c false true op with
    | some e => s.launchFault c e
    | none => (s.vsPush c op).runEngines c
  | .copy n src dst => s.copySpad n src.toNat dst.toNat
  | .pool put h a w spad => s.firePool c h put a w spad
  | .gather h req owner dl dst => s.fireGather c h req owner dl dst
  | .coll h =>
    match alistGet (s.cell c).colls h with
    | some k => s.startColl c h k
    | none => s
  | .clCancel w =>
    match alistGet (s.cell c).colls w.toNat with
    | some k => s.cancelColl c w.toNat k
    | none => s
  | .stream k a => s.fireStream c k a.toNat
  | .srelease k => s.srelease c k
  | .scancel k => s.cancelStream c k
  | .altready b => s.setCell c { s.cell c with altReady := b }
  | .seal t => s.cellSeal c t.toNat
  | .phase n => s.markPhase c n
  | .hint n t => s.addHint (dieOf c) n t.toNat

/-- Is an entry late at a count: marked, or passed while launch entries were frozen (R47, R435)? -/
def LaunchEntry.isLate (e : LaunchEntry) (pitch : Nat) : Bool := e.late || e.target < pitch

/-- The entry that fires next of those due at a count: those on time in queue order, then the late ones by target (R47). -/
def pickLaunch (pitch : Nat) (l : List LaunchEntry) : Option LaunchEntry :=
  match l.find? (fun e => e.target == pitch && !e.late) with
  | some e => some e
  | none => (l.filter (fun e => e.target ≤ pitch)).foldl
      (fun b e => match b with
        | none => some e
        | some x => if e.target < x.target then some e else some x) none

/-- Entries of the launch queues that fire (R47): the entry leaves its queue and its action goes to its unit; a late one is
counted. -/
def State.fireEntry (s : State) (c : Nat) (e : LaunchEntry) : State :=
  let k := s.cell c
  let s1 := s.setCell c { k with lq := k.lq.erase e }
  let s2 := if e.isLate s.pitch then (s1.bump (Reg.cellLaunchLate c)).bump Reg.pitLaunchLate else s1
  s2.fireWork c e.work

/-- The late entries of a cell fire within the tick, once none that is due in it on time is left (R47). -/
def State.fireLate (c : Nat) : Nat → State → State
  | 0, s => s
  | f + 1, s =>
    match pickLaunch s.pitch (s.cell c).lq with
    | none => s
    | some e => if e.isLate s.pitch && s.works then State.fireLate c f (s.fireEntry c e) else s

/-- LAUNCH_FIRE (R47): the next entry of a cell that is due leaves the queue and fires, and the late ones after the last
that is on time. -/
def execLaunchFire (c : Nat) (s : State) : Out :=
  onUnit (c < 512) (match pickLaunch s.pitch (s.cell c).lq with
    | none => s
    | some e =>
      whenOk s.works s
        (let t := s.fireEntry c e
         State.fireLate c (t.cell c).lq.length t))

/-! ### Queueing -/

/-- Entries of a launch queue (R46). -/
def launchRoom : Nat := 16

/-- Puts an action into the launch queue of a cell; a target that is not ahead of the count makes it late, and it fires within the current tick (R47). -/
def State.queueWork (s : State) (c : Nat) (target : Nat) (w : Work) : State :=
  let k := s.cell c
  let s1 := s.setCell c { k with lq := k.lq ++ [(⟨target, target ≤ s.pitch, w⟩ : LaunchEntry)] }
  if target ≤ s.pitch then State.fireLate c (k.lq.length + 1) s1 else s1

/-- The effect of queueing an action whose checks gave a cause or none. -/
def queueIf (c target : Nat) (cause : Option Nat) (w : Work) (s : State) : Eff :=
  match cause with
  | some e => .exc e 0
  | none => .done (s.queueWork c target w)

/-- The effect of queueing an action that takes a transfer handle: it is reserved until the action fires (R399). -/
def queueXfer (c target sd : Nat) (cause : Option Nat) (kind : XferKind) (w : Nat → Work) (s : State) : Eff :=
  match cause with
  | some e => .exc e 0
  | none => s.withHandle c sd (fun h t => (t.putXfer c h { kind := kind, fired := false }).queueWork c target (w h))

/-- The effect of queueing a collective: its handle is reserved until it fires (R399). -/
def queueColl (c target op : Nat) (o : ROps) (s : State) : Eff :=
  let k := s.cell c
  let w := k.s o.sa.toNat
  let r := k.s (o.sa.toNat + 1)
  let src := (k.a o.ax.toNat).toNat
  let dst := (k.a o.ay.toNat).toNat
  s.pagesFirst c (s.collPages w) (fun u =>
    let v := u.groupTouch c (collGroup w)
    match u.checkColl op w r src dst with
    | some e => if e = excClOp ∨ e = excClFmt then .exc e 0 else .excRead v e
    | none => match v.takeColl c with
      | none => .stall
      | some (h, t) =>
        effS c o.sd.toNat (BitVec.ofNat 64 h) ((t.putColl c h (t.newColl op w r src dst)).queueWork c target (.coll h)))

/-- The effect of queueing a PL.STREAM; a descriptor that is refused has been read. -/
def queueStream (c target : Nat) (o : ROps) (s : State) : Eff :=
  let k := o.x.toNat % 4
  let a := ((s.cell c).a o.ax.toNat).toNat
  let t := State.settleStream c k 9 s
  if !alignedOk c a 64 true then .exc excPlAddr 0
  else if t.streamOn c k then .exc excPlBusy 0
  else
    let u := (t.readStream c k a).2
    match t.checkStream c k a with
    | some e => .excRead u e
    | none => .done (u.queueWork c target (.stream k (BitVec.ofNat 32 a)))

/-- The effect of queueing an action of the pool and far tier class. -/
def queuePool (c target opc : Nat) (o : ROps) (s : State) : Eff :=
  let k := s.cell c
  let a := k.s o.sa.toNat
  let w := k.s o.sb.toNat
  let ax := k.a o.ax.toNat
  if opc ≤ 0x01 then
    queueXfer c target o.sd.toNat (checkPool (opc == 1) c a w ax.toNat) (if opc = 1 then .put else .get)
      (fun h => .pool (opc == 1) h a w ax) s
  else if opc = 0x02 then
    queueXfer c target o.sd.toNat (checkGather c w ax.toNat) .gather (fun h => .gather h a w (k.s o.sc.toNat) ax) s
  else if opc = 0x04 then queueStream c target o s
  else if opc = 0x06 then queueIf c target (s.checkRelease c (o.x.toNat % 4)) (.srelease (o.x.toNat % 4)) s
  else if opc = 0x07 then queueIf c target none (.scancel (o.x.toNat % 4)) s
  else queueIf c target none (.altready (o.x.getLsbD 0)) s

/-- The effect of queueing an action: the checks that its chapter assigns to LAUNCH.AT, then the handle, then the queue
(R399). -/
def queueAction (c target cls opc : Nat) (o : ROps) (s : State) : Eff :=
  let k := s.cell c
  let sa := k.s o.sa.toNat
  if cls = 0x03 then
    queueIf c target (if copyOk (copyLen sa) (k.a o.ax.toNat).toNat (k.a o.ay.toNat).toNat then none else some excTmAddr)
      (.copy (copyLen sa) (k.a o.ax.toNat) (k.a o.ay.toNat)) s
  else if cls = 0x04 then
    let m := k.mxOp s.epoch opc o
    queueIf c target (s.checkMx c true false m) (.mx m) s
  else if cls = 0x05 then
    let v := k.vsOp o
    queueIf c target (s.checkVs c true false v) (.vs v) s
  else if cls = 0x06 then
    if opc = 0x09 then
      queueIf c target (if (alistGet k.colls sa.toNat).isNone then some excClHandle else none) (.clCancel sa) s
    else queueColl c target opc o s
  else if cls = 0x07 then queuePool c target opc o s
  else if cls = 0x08 then queueIf c target none (.seal sa) s
  else if opc = 0x00 then queueIf c target none (.phase (o.x.toNat % 256)) s
  else queueIf c target none (.hint (o.x.toNat % 256) sa) s

/-- An action word that R394 finds legal, with the registers as they stand. -/
def Cell.actionLegal (k : Cell) (w : W64) : Bool :=
  wordLegal w && !(wordClass w == 0x05 && wordOpc w == 0x00 && k.vsRunBad (wordR w))

/-- LAUNCH.AT with its action (R45 to R47, R398, R399): the pair is fetched together and has one PC, and there is none at
word 4,095. An action word that R394 finds illegal raises ILLEGAL_OP. -/
def execLaunchAt (c : Nat) (o : ROps) (action : W64) (s : State) : Out :=
  let cls := wordClass action
  let opc := wordOpc action
  let a := wordR action
  let k := s.cell c
  let noWord := k.pc.toNat == 4095 || k.imemErr.contains (k.pc.toNat + 1)
  let legal := rLegal 0x08 0x00 o && (noWord || k.actionLegal action)
  onUnit (c < 512) (whenOk (s.canIssue c (.launchAt c o action)) s
    ((s.fetchNext c).issue c (.launchAt c o action) o.gneg o.gp 0x08 0x00 2 legal (o.sa.toNat :: actionUses k cls opc a)
      (fun t =>
        let j := t.cell c
        if j.pc = 4095 then .exc excBrTarget 0
        else if j.imemErr.contains (j.pc.toNat + 1) then .exc excImemUncorr 0
        else if actionBad j cls opc a then .exc excIllegalAction 0
        else if launchRoom ≤ j.lq.length then .stall
        else queueAction c (j.s o.sa.toNat).toNat cls opc a t)))

end Sys2Proof.Machine
end

