-- ==== Sys2Proof/Machine/Pitch.lean ====
section
/-! DEFINITION. The pitch counter: loads, timing exchanges and the alignment of a follower (R36 to R44, R57, R338). -/

namespace Sys2Proof.Machine

/-! ### Moving the counter (R38, R41, R47) -/

/-- Marks the launch entries of a cell that a forward step of the counter has passed over, or meets (R47). -/
def Cell.passLaunches (old new : Nat) (k : Cell) : Cell :=
  { k with lq := k.lq.map (fun e => if old < e.target ∧ e.target ≤ new then { e with late := true } else e) }

/-- The cell whose next due entry has the lowest target; among equals the first in the order of R53. -/
def State.nextLate (s : State) : Option Nat :=
  (s.cellOrder.foldl (fun b c => match pickLaunch s.pitch (s.cell c).lq, b with
    | none, _ => b
    | some e, none => some (c, e.target)
    | some e, some x => if e.target < x.2 then some (c, e.target) else b) none).map (·.1)

/-- Fires the entries that a step of the counter has made due, in ascending target order (R47). -/
def State.firePassed : Nat → State → State
  | 0, s => s
  | f + 1, s =>
    match s.nextLate with
    | none => s
    | some c =>
      match pickLaunch s.pitch (s.cell c).lq with
      | none => s
      | some e => State.firePassed f (s.fireEntry c e)

/-- The entries of every launch queue. -/
def State.launches (s : State) : Nat := sumNat (s.cells.map (fun k => k.2.lq.length))

/-- Sets the count and reports PITCH_STEPPED with the signed step (Table 2-8); a forward step fires what it passes over
(R47). -/
def State.setCount (s : State) (new : Nat) : State :=
  let d : Int := (new : Int) - s.pitch
  let s1 := { s with pitch := new }
  let s2 := if s.pitch < new then s1.mapCells (Cell.passLaunches s.pitch new) else s1
  let s3 := s2.report 0x0104 unitMgmt (d % 2 ^ 32).toNat
  if s.pitch < new ∧ s3.works then State.firePassed s3.launches s3 else s3

/-- PIT_CMD_LOAD (R38): ignored on a follower. -/
def execPitCmdLoad (s : State) : Out :=
  .next (whenOk (s.up && s.isMaster) s (s.setCount (s.reg64 Reg.pitSetLo Reg.pitSetHi)))

/-! ### Timing cells (R40, R338) -/

/-- Is a port the one to the parent of a follower? -/
def State.fromParent (s : State) (p : Nat) : Bool := !s.isMaster && p == s.upPort

/-- Sends SYNC with its departure to a child. -/
def State.sendSync (s : State) (p : Nat) : State := s.queueCell p (.time 0 0)

/-- TIMING_EXCHANGE (R40): a module sends SYNC to its children; a follower begins an exchange with its parent, which it
completes with DELAY_REQ and DELAY_RESP (DESIGN CHOICE, log entry 40). Ports of the tree on which no cell has come count
the interval (R59). -/
def execTimingExchange (s : State) : Out :=
  .next (whenOk s.up s
    (let s0 := (List.range 24).foldl State.guyMissed s
     let s1 := s.downPorts.foldl State.sendSync s0
     if s.isMaster then s1
     else
       let k := s1.pit
       { s1 with pit := { k with t1 := none, t3 := none, missing := k.missing + 1,
                                 good := if 0 < k.missing then 0 else k.good } }))

/-- The stamp that a timing cell carries, in 1/1,024 tick. -/
def cellStamp (g : TimeCell) : Nat := 1024 * g.tick + g.frac % 1024

/-- SYNC (R40): the child stamps its receipt and sends DELAY_REQ. -/
def execSync (port : Nat) (g : TimeCell) (s : State) : Out :=
  onUnit (port < 24) (whenOk s.up s (match s.guyTake port g.seq g.copy g.good with
    | none => s
    | some t =>
      if t.fromParent port then
        let r := t.stampNow
        ({ r.2 with pit := { r.2.pit with t1 := some (cellStamp g), t2 := r.1, t3 := none } }).queueCell port (.time 1 0)
      else t))

/-- DELAY_REQ (R40): the parent stamps its receipt and answers with DELAY_RESP. -/
def execDelayReq (port : Nat) (g : TimeCell) (s : State) : Out :=
  onUnit (port < 24) (whenOk s.up s (match s.guyTake port g.seq g.copy g.good with
    | none => s
    | some t =>
      if t.downPorts.contains port then
        let r := t.stampNow
        r.2.queueCell port (.time 2 r.1)
      else t))

/-! ### A completed exchange (R40, R41, R57) -/

/-- The asymmetry of a port's cable in 1/1,024 tick, rounded to nearest; 0 where it is unknown (R40, R42). -/
def State.asymOf (s : State) (p : Nat) : Int :=
  let a := s.fld (Reg.fabPortCable p) 0 16
  if a = 0x8000 then 0
  else
    let ps : Int := if 0x8000 ≤ a then (a : Int) - 0x10000 else a
    (128 * ps + 625) / 1250

/-- The offset of an exchange in 1/1,024 tick (R40; DESIGN CHOICE, log entry 40 for the half units). -/
def pitOffset (t1 t2 t3 t4 : Nat) (asym : Int) : Int := (((t2 : Int) - t1) - ((t4 : Int) - t3) - asym) / 2

/-- The one-way delay that an exchange shows, in 1/1,024 tick. -/
def pitDelay (t1 t2 t3 t4 : Nat) : Nat := ((((t2 : Int) - t1) + ((t4 : Int) - t3)) / 2).toNat

/-- Records a link delay, and reports GUY_HOP_SLOW where it makes a hop longer than 12 ticks: the hop adds the 30 ns of the
other terms of Table 2-5 (R57; DESIGN CHOICE, log entry 40). -/
def State.linkDelay (s : State) (p delay : Nat) : State :=
  let s1 := s.setFld Reg.guyDelayMax 0 16 (max (s.fld Reg.guyDelayMax 0 16) (min delay 0xFFFF))
  let hop := delay + 3 * 1024
  if 12 * 1024 < hop then s1.report 0x0111 (unitPort p) (p + 2 ^ 16 * min (hop / 64) 0xFFFF) else s1

/-- 50 ppm and 250 ppm in units of PIT_RATE, 2⁻³² of the nominal rate. -/
def ppm50 : Int := 214748
/-- 250 ppm. -/
def ppm250 : Int := 1073741

/-- Changes the pitch rate so that an offset is cancelled over the next 1,024 ticks, by at most 50 ppm, and within the
250 ppm of R38: an offset of 1/1,024 tick takes 2¹² units (R40; DEDUCED, log entry 40 that the change is added to the rate
in force). -/
def State.slew (s : State) (o : Int) : State :=
  let change := max (-ppm50) (min ppm50 (-(4096 * o)))
  s.setReg Reg.pitRate (BitVec.ofInt 32 (max (-ppm250) (min ppm250 ((s.reg Reg.pitRate).toInt + change))))

/-- Enters LOCKED (Table 2-8). -/
def State.enterLocked (s : State) (o : Int) : State :=
  ({ s with pit := { s.pit with mode := .locked } }).report 0x0101 unitMgmt (o % 2 ^ 32).toNat

/-- Enters ACQUIRING, or stays there, with an offset: one of a tick or more steps the counter by its whole ticks; eight
within 250 ps in a row lock (Table 2-2). -/
def State.acquire (s : State) (o : Int) : State :=
  if 1024 ≤ o.natAbs then
    let d : Int := (o.natAbs / 1024 : Nat)
    let s1 := { s with pit := { s.pit with mode := .acquiring, good := 0 } }
    let whole := if o < 0 then -d else d
    (s1.setCount ((s.pitch : Int) - whole).toNat).slew (o - 1024 * whole)
  else
    let g := if o.natAbs ≤ 25 then s.pit.good + 1 else 0
    let s1 := ({ s with pit := { s.pit with mode := .acquiring, good := g } }).slew o
    if 8 ≤ g then s1.enterLocked o else s1

/-- Moves a follower between the states of Table 2-2 by the offset of an exchange. FREE is left here, at the exchange's
completion, and not at the first timing cell: Table 2-2 has FREE left when cells arrive and ACQUIRING entered at the first
valid exchange, and names no state between (DESIGN CHOICE, log entry 40). -/
def State.exchangeDone (s : State) (o : Int) : State :=
  let first := { s with pit := { s.pit with good := 0 } }
  match s.pit.mode with
  | .free => first.acquire o
  | .acquiring => s.acquire o
  | .locked => if 1024 < o.natAbs then first.acquire o else s.slew o
  | .holdover => if 1024 < o.natAbs then first.acquire o else (s.slew o).enterLocked o

/-- LINKS, learnt from timing cells: the layout of a cell has no field for it, so the value is free (DESIGN CHOICE, log entry 40). -/
def State.learnLinks (s : State) : State :=
  let r := s.drawNat
  r.2.setFld Reg.pitStatus 8 8 r.1

/-- Completes an exchange with t4, in 1/1,024 tick. -/
def State.exchange (s : State) (port t1 t3 t4 : Nat) : State :=
  let k := s.pit
  let o := pitOffset t1 k.t2 t3 t4 (s.asymOf port)
  let s1 := { s with pit := { k with t1 := none, t3 := none, missing := 0 } }
  let s2 := (s1.setReg Reg.pitOffset (BitVec.ofInt 32 o)).linkDelay port (pitDelay t1 k.t2 t3 t4)
  s2.learnLinks.exchangeDone o

/-- DELAY_RESP (R40, R41). -/
def execDelayResp (port : Nat) (g : TimeCell) (s : State) : Out :=
  onUnit (port < 24) (whenOk s.up s (match s.guyTake port g.seq g.copy g.good with
    | none => s
    | some t =>
      match t.pit.t1, t.pit.t3 with
      | some t1, some t3 => if t.fromParent port then t.exchange port t1 t3 (cellStamp g) else t
      | _, _ => t))

/-- EXCHANGE_MISSING (R41): with three exchanges missing and the next begun, a LOCKED follower enters HOLDOVER. -/
def execExchangeMissing (s : State) : Out :=
  .next (whenOk (s.up && !s.isMaster && s.pit.mode == .locked && 4 ≤ s.pit.missing) s
    (({ s with pit := { s.pit with mode := .holdover, holdFrom := s.pitch } }).report 0x0102 unitMgmt s.upPort))

/-- HOLDOVER_LIMIT (R41). -/
def execHoldoverLimit (s : State) : Out :=
  let spent := s.pitch - s.pit.holdFrom
  .next (whenOk (s.up && s.pit.mode == .holdover && 1024 * s.fld Reg.pitHoldLimit 0 16 ≤ spent) s
    (({ s with pit := { s.pit with mode := .free } }).report 0x0103 unitMgmt spent))

end Sys2Proof.Machine
end

