-- ==== Sys2Proof/Machine/Regs.lean ====
section
/-! DEFINITION. The host's view of BAR0: reads, latches and writes of registers (R6 to R10, R58, R445, R446, R476, R496). -/

namespace Sys2Proof.Machine

/-! ### Configuration space (R444) -/

/-- The capabilities that the configuration space holds. -/
inductive ConfigCap where
  | pcie | msix | aer | doe | ide | dvsecDevice | dvsecFlexBus | dvsecLocator
  deriving DecidableEq, Repr

/-- What R444 gives of the configuration space; the rest is as the standards define it (log entry 56). -/
structure ConfigSpace where
  caps : List ConfigCap
  bars : Nat
  barBits : Nat
  prefetchable : Bool
  barSize : Nat
  /-- Where the register locator says the component registers lie in BAR0. -/
  locator : Nat
  deriving DecidableEq, Repr

/-- The configuration space of the T20. -/
def configSpace : ConfigSpace :=
  { caps := [.pcie, .msix, .aer, .doe, .ide, .dvsecDevice, .dvsecFlexBus, .dvsecLocator], bars := 1, barBits := 64,
    prefetchable := false, barSize := 64 * 2 ^ 20, locator := 0x80000 }

/-- The bytes of BAR0. -/
def bar0Size : Nat := configSpace.barSize

/-! ### Latched halves (R58) -/

/-- The register, 4 bytes after a `_LO` register, that a read of the latter latches; none for any other. -/
def hiLatch (off : Nat) : Option Nat :=
  let cell := off % 0x10000
  if [Reg.pitCountLo, Reg.modFbLockTickLo, Reg.modStepTsealLo, Reg.pwrEnergyLo, Reg.pwrKindleLo,
      Reg.modHarnessSerialLo].contains off then some (off + 4)
  else if 0x2000000 ≤ off ∧ off < 0x4000000 ∧ cell = 0x818 then some (off + 4)
  else if 0x1000000 ≤ off ∧ off < 0x1C00000 ∧ off % 0x100000 = 0x304 then some (off + 4)
  else none

/-- The present high half of a latching pair. -/
def State.liveHi (s : State) (hi : Nat) : W32 :=
  if hi = Reg.pitCountHi then BitVec.ofNat 32 (s.pitch / 2 ^ 32)
  else if hi = Reg.modStepTsealHi then BitVec.ofNat 32 (s.step.tsealReg / 2 ^ 32)
  else s.reg hi

/-! ### Registers computed from the state -/

/-- PIT_STATUS.STATE (Table 2-2). -/
def pitCode : PitchMode → Nat
  | .free => 0
  | .acquiring => 1
  | .locked => 2
  | .holdover => 3

/-- One bit for each index below `n` that holds. -/
def bitMask (n : Nat) (p : Nat → Bool) : Nat := sumNat ((List.range n).map (fun i => b2n (p i) * 2 ^ i))

/-- MOD_, PIT_ and GUY_ registers. -/
def State.viewMod (s : State) (off w : Nat) : Nat :=
  if off = Reg.pitCountLo then s.pitch % 2 ^ 32
  else if off = Reg.pitStatus then
    pitCode s.pit.mode + b2n s.isMaster * 2 ^ 2 + (if s.isMaster then 0 else 2 ^ 8 * (w / 2 ^ 8 % 2 ^ 8))
  else if off = Reg.guyStatus then bitMask 24 (fun p => s.guyPort p && s.portUp p && (s.port p).guyHeard)
  else if off = Reg.modStepStatus then s.stepStatus
  else if off = Reg.modStepTsealLo then s.step.tsealReg % 2 ^ 32
  else if off = Reg.modFlyPages then s.pool.flies.length + s.pool.merges.length
  else if off = Reg.modResetStatus then
    s.rst.cause % 2 ^ 3 + 2 ^ 8 * b2n s.rst.stepLost + 2 ^ 31 * b2n s.rst.busy
  else if off = Reg.modPinStatus then b2n s.pwr.warnPin + s.boot.straps.toNat * 2 ^ 4
  else w

/-- POOL_ registers. -/
def State.viewPool (s : State) (off w : Nat) : Nat :=
  let free := fun n : Nat => s.freeFrames n
  if off = Reg.poolStatus then sumNat ((List.range 12).map free) + 2 ^ 20 * s.pool.evicts.length
  else if Reg.poolUse 0 ≤ off ∧ off < Reg.poolFree 0 then s.classUse ((off - Reg.poolUse 0) / 4)
  else if Reg.poolFree 0 ≤ off ∧ off < Reg.poolFree 12 then free ((off - Reg.poolFree 0) / 4)
  else if Reg.poolRetired 0 ≤ off ∧ off < Reg.poolRetired 12 then s.retiredFrames ((off - Reg.poolRetired 0) / 4)
  else if off = Reg.poolLost then s.pool.dir.countP (fun e => e.2.lost)
  else w

/-- FAB_PORT_STATUS.STATE (Table 11-7). -/
def portCode : PortMode → Nat
  | .disabled => 0
  | .train => 1
  | .align => 2
  | .ident => 3
  | .up => 4
  | .fenced => 5

/-- FAB_DISC_STATUS.STATE. -/
def discCode : DiscMode → Nat
  | .idle => 0
  | .running => 1
  | .done => 2
  | .failed => 3

/-- The registers of a port, at an offset from the start of its block. -/
def State.viewPort (s : State) (p o w : Nat) : Nat :=
  let q := s.port p
  if o = 0x04 then portCode q.mode + q.lanes % 2 ^ 4 * 2 ^ 3 + 2 ^ 7 * (q.failed % 2 ^ 4)
  else if o = 0x08 then q.peerAddr.toNat + 2 ^ 17 * b2n q.peerValid + 2 ^ 18 * (q.peerPort % 2 ^ 5)
  else if o = 0x0C then q.recorded.getD 0 % 2 ^ 32
  else if o = 0x10 then q.recorded.getD 0 / 2 ^ 32
  else w

/-- Has a collective unit work at hand: a region it has not sent, a message that waits, or a collective of one of its die's cells
(R385)? -/
def State.cuBusy (s : State) (d : Nat) : Bool :=
  (s.cu d).regions.any (fun r => !r.sent) || !(s.cu d).outbox.isEmpty
    || s.cells.any (fun p => dieOf p.1 == d && p.2.colls.any (fun q => q.2.phase == .running))

/-- Is the slice that the update engine takes next of a group whose rule works on the block unit (R243, Table 8-7)? -/
def State.buBusy (s : State) (n : Nat) : Bool :=
  match (s.gs n).ready with
  | [] => false
  | r :: _ => (s.peekShard n r.shard).elim false (fun x => x.desc.rule == 2)

/-- FAB_ registers. USED has twelve bits, so a full buffer of 4,096 KiB reads 4,095 (DESIGN CHOICE, log entry 61). -/
def State.viewFab (s : State) (off w : Nat) : Nat :=
  if off = Reg.fabSerialLo then s.fab.serial % 2 ^ 32
  else if off = Reg.fabSerialHi then s.fab.serial / 2 ^ 32
  else if off = Reg.fabDiscStatus then discCode s.fab.disc.mode + s.fab.disc.records % 2 ^ 20 * 2 ^ 4
  else if off = Reg.fabDiscFound then s.fab.disc.found
  else if off = Reg.fabTxnInflight then s.fab.txns.length
  else if Reg.fabCuStatus 0 ≤ off ∧ off < Reg.fabCuStatus 8 ∧ off % 32 = 0 then
    let d := (off - Reg.fabCuStatus 0) / 32
    b2n (s.cuBusy d) + min (ceilDiv (s.cuUsed d) 1024) 0xFFF * 2 ^ 4
  else if Reg.fabPortCtrl 0 ≤ off ∧ off < Reg.fabPortCtrl 24 then
    s.viewPort ((off - Reg.fabPortCtrl 0) / 64) (off % 64) w
  else w

/-- PWR_ and THM_ registers. -/
def State.viewPwr (s : State) (off w : Nat) : Nat :=
  let p := s.pwr
  if off = Reg.pwrCapEff then s.capEff.1 + 2 ^ 12 * s.capEff.2
  else if off = Reg.pwrStatus then
    s.pwrMode + b2n (p.warnPin || p.inputLow) * 2 ^ 3 + b2n p.airStop * 2 ^ 4 + 2 ^ 5 * b2n p.airLow
      + 2 ^ 6 * b2n p.excFrom.isSome + 2 ^ 7 * s.fld Reg.modFbStatus 0 1 + 2 ^ 8 * b2n (0 < p.kindle) + 2 ^ 9 * b2n p.hsValid
  else if Reg.pwrDie 0 ≤ off ∧ off < Reg.pwrDie 8 then
    let k := tabGet (fun _ => {}) p.clocks ((off - Reg.pwrDie 0) / 4)
    w / 2 ^ 16 * 2 ^ 16 + k.rail / 50 * 2 ^ 8 + k.step
  else if off = Reg.pwrRotOffset then s.rotOffset s.epoch
  else if off = Reg.thmTrip then b2n s.tripped + 2 ^ 8 * (p.trip % 2 ^ 20)
  else w

/-- HQ_ registers (R451, R455). -/
def State.viewHq (s : State) (off w : Nat) : Nat :=
  let h := s.host
  if off = Reg.hqLinkStatus then
    h.width % 2 ^ 5 + 2 ^ 5 * (h.rate % 2 ^ 3) + 2 ^ 8 * b2n h.cxl
      + 2 ^ 9 * b2n ((List.range 9).any (fun k => (s.ide k).active)) + 2 ^ 10 * b2n (s.ide 256).active
  else if off = Reg.hqUioInflight then
    s.pool.farReqs.countP FarReq.readOut
  else if Reg.hqQbaseLo 0 ≤ off ∧ off < Reg.hqQbaseLo 64 then
    let n := (off - Reg.hqQbaseLo 0) / 64
    let q := s.queue n
    let o := off % 64
    if o = 0x18 then q.head + 2 ^ 16 * (q.completed % s.queueSize n)
    else if o = 0x1C then
      (match q.mode with | .disabled => 0 | .running => 1 | .stopped => 2) + 2 ^ 8 * (q.fault % 2 ^ 4)
        + 2 ^ 16 * q.started.length
    else w
  else w

/-- CXL component registers: the status of the CXL.cachemem IDE stream, 1 active in containment mode, 4 insecure, the same for
both directions (R445; PRESUMED, log entry 63). -/
def State.viewComp (s : State) (off w : Nat) : Nat :=
  if off = Reg.compIdeStatus then (if s.insecure 256 then 0x44 else 0x11 * b2n (s.ide 256).active) else w

/-- BOOT_ and SEC_ registers. -/
def State.viewBoot (s : State) (off w : Nat) : Nat :=
  let b := s.boot
  if off = Reg.bootStatus then b.statusWord (stageCode b.stage)
  else if off = Reg.bootFwVersion then (b.fw.elim 0 (·.version)).toNat
  else if off = Reg.bootUcVersion then (b.uc.elim 0 (·.version)).toNat
  else if off = Reg.bootHw then b.hwl % 2 ^ 8 + 2 ^ 8 * b.stepping.toNat
  else if off = Reg.bootSvn then
    b.fuseSvn % 2 ^ 6 + 2 ^ 8 * (b.fw.elim 0 (·.svn) % 2 ^ 6) + 2 ^ 16 * (b.uc.elim 0 (·.svn) % 2 ^ 6)
  else if off = Reg.bootCmdStatus then
    b2n b.load.isSome + b.result % 2 ^ 4 * 2 + 2 ^ 8 * b2n b.pairTested + 2 ^ 9 * b2n b.pairOk
      + 2 ^ 16 * (b.pairLevel % 2 ^ 8)
  else if off = Reg.secStatus then
    b.sessions.countP (·.2) + b.revoked.toNat * 2 ^ 4 + 2 ^ 8 * b2n (s.host.ide.any (fun i => i.2.keys))
  else w

/-- The registers of a groundsheet, at an offset from the start of its block; the busy bits show work at hand. -/
def State.viewGs (s : State) (n o w : Nat) : Nat :=
  let k := s.gs n
  if o = 0x04 then b2n (!k.ready.isEmpty) + b2n (!k.reqs.isEmpty) * 2 + b2n (s.buBusy n) * 2 ^ 2
      + 2 ^ 16 * (k.reqs.length % 2 ^ 16)
  else if o = 0x14 then s.slicesOpen n
  else w

/-- CELL_CORE_STATUS.STATE (Table 13-13). -/
def coreCode : CoreRun → Nat
  | .halted => 0
  | .running => 1
  | .done => 2
  | .faulted => 3

/-- One bit for each bank of accumulators held by a tile that `p` picks (R139). -/
def Cell.bankBits (k : Cell) (p : Tile → Bool) : Nat :=
  bitMask 4 (fun b => k.tiles.any (fun t => p t && t.banks.contains b))

/-- The registers of a cell, at an offset from the start of its block. CELL_CORE_PC reads the PC while the core is not
RUNNING; what it reads in RUNNING the manual does not say, and it is free. -/
def State.viewCell (s : State) (c o w : Nat) : Nat :=
  let k := s.cell c
  if o = 0x104 then (if k.run = .running then Config.freeNat s.free % 4096 else k.pc.toNat)
  else if o = 0x108 then
    coreCode k.run + b2n k.stall.isSome * 2 ^ 2 + b2n k.active * 2 ^ 3 + k.lq.length * 2 ^ 4
  else if o = 0x904 then
    b2n (!k.mxq.isEmpty || k.tiles.any (fun t => t.phase != .live)) + k.bankBits (fun t => t.phase == .live) * 2
      + 2 ^ 5 * k.bankBits (fun t => t.phase != .live) + 2 ^ 16 * min k.mxq.length queueRoom
  else if o = 0xA04 then
    b2n (!k.vsq.isEmpty) + k.bankBits (fun t => t.phase == .vec) * 2 + 2 ^ 16 * min k.vsq.length queueRoom
  else if o = 0xB00 then putField w 1 1 (b2n k.altReady)
  else if o = 0xB04 then
    k.xfers.countP (fun x => decide (x.1 < 64)) + 2 ^ 8 * bitMask 4 (fun i => (alistGet k.streams i).isSome)
  else if o = 0xC04 then k.colls.length
  else if 0x8000 ≤ o then
    (tabGet (fun _ => 0) k.imem ((o - 0x8000) / 8)).toNat / 2 ^ (o % 8 * 8) % 2 ^ 32
  else w

/-- The stored word of a register as the host reads it: under FREEZE the COUNT fields are those frozen (R496). -/
def State.storedWord (s : State) (off : Nat) : Nat :=
  let w := (s.reg off).toNat
  match s.frozen with
  | none => w
  | some r =>
    (fieldsAt off).foldl (fun v f =>
      if f.count then putField v f.lo f.width ((tabGet resetWord r off).toNat / 2 ^ f.lo) else v) w

/-- What a read of the dword at an offset returns (R6, R10, R445); an offset that no register holds reads 0. -/
def State.readReg (s : State) (off : Nat) : W32 :=
  if (fieldsAt off).isEmpty then 0
  else if 4 ≤ off ∧ (hiLatch (off - 4)).isSome then tabGet resetWord s.latched off
  else
    let w := s.storedWord off
    BitVec.ofNat 32
      (if 0x2000000 ≤ off then s.viewCell ((off - 0x2000000) / 0x10000) (off % 0x10000) w
       else if 0x1000000 ≤ off then s.viewGs ((off - 0x1000000) / 0x100000) (off % 0x100000) w
       else if 0x200000 ≤ off then s.viewPool off w
       else if 0x100000 ≤ off then s.viewFab off w
       else if 0x80000 ≤ off then s.viewComp off w
       else if 0x40000 ≤ off then s.viewBoot off w
       else if 0x30000 ≤ off then s.viewHq off w
       else if 0x20000 ≤ off then s.viewPwr off w
       else s.viewMod off w)

/-- Is a register served in the present stage (R476, R478)? -/
def State.regServed (s : State) (off : Nat) : Bool :=
  s.boot.stage == .running || off < 0x100 || (0x40000 ≤ off && off < 0x80000) || (0x30100 ≤ off && off < 0x30120)
    || (0x38000 ≤ off && off < 0x3A000)

/-- What a read of a dword returns in the present stage: while a warm reset runs every register but MOD_RESET_STATUS reads
0 (R476, R478, R499). -/
def State.dword (s : State) (off : Nat) : W32 :=
  if s.rst.busy then (if off = Reg.modResetStatus then s.readReg off else 0)
  else if s.regServed off = false then 0
  else s.readReg off

/-- What a read of a dword leaves: a read of a `_LO` register latches its `_HI` half (R58). -/
def State.latchHi (s : State) (off : Nat) : State :=
  if s.rst.busy ∨ s.regServed off = false then s
  else match hiLatch off with
    | some hi => { s with free := s.free + 1, latched := tabSet resetWord s.latched hi (s.liveHi hi) }
    | none => { s with free := s.free + 1 }

/-- Reads bytes of one dword. -/
def State.readBytes (s : State) (off bytes : Nat) : State :=
  let d := off / 4 * 4
  (s.emit (.regRead off (BitVec.ofNat 32 ((s.dword d).toNat / 2 ^ (8 * (off % 4)) % 2 ^ (8 * bytes))))).latchHi d

/-- LO_READ_LATCH (R58, R446): a read of an aligned dword, of an aligned qword as two dwords, the lower offset first, or of one
or two bytes of a dword. Any other read has a free result (DESIGN CHOICE, log entry 63). -/
def execLoReadLatch (off bytes : Nat) (s : State) : Out :=
  .next (whenOk (s.alive && s.boot.stage != .rom && !s.insecure 0 && decide (off < bar0Size)) s
    (if bytes = 8 ∧ off % 8 = 0 then (s.readBytes off 4).readBytes (off + 4) 4
     else if (bytes = 4 ∨ bytes = 1 ∨ bytes = 2) ∧ off % 4 + bytes ≤ 4 then s.readBytes off bytes
     else
       let r := s.drawNat
       r.2.emit (.regRead off (BitVec.ofNat 32 r.1))))

/-! ### Writes (R6 to R9, R446) -/

/-- The `n` lowest set bits of a mask of 24 ports. -/
def lowestBits (n m : Nat) : Nat := sumNat ((((List.range 24).filter m.testBit).take n).map (2 ^ ·))

/-- The value that a write of a field applies: the nearest in its range, where the range may depend on another register
(R9 and the Meaning columns of the registers named). -/
def State.fieldClamp (s : State) (off : Nat) (f : FieldRow) (v : Nat) : Nat :=
  if off = Reg.guyUpport then (if 24 ≤ v then 31 else v)
  else if off = Reg.guyDownmask then lowestBits 8 v
  else if off = Reg.poolHiwater then holdTo (s.fld Reg.poolLowater 0 16) 8192 v
  else if off = Reg.poolCmdArg ∧ f.lo = 16 then (if 12 ≤ v then 15 else v)
  else if off = Reg.pwrPeak then holdTo (s.fld Reg.pwrCap 0 12) 2400 v
  else holdTo f.min f.max v

/-- Is a write of a field without effect in the present state: LOG2N of a queue that is not DISABLED (Table 15-7), or the
registers of HDM decoder 0 while it is committed and locked (PRESUMED, log entry 63)? -/
def State.fieldFixed (s : State) (off : Nat) (f : FieldRow) : Bool :=
  (Reg.hqQbaseLo 0 ≤ off && off < Reg.hqQbaseLo 64 && off % 64 == 0x10 && f.lo == 4
    && (s.queue ((off - Reg.hqQbaseLo 0) / 64)).mode != .disabled)
  || (Reg.hdmBaseLo ≤ off && off < Reg.hdmDecoder + 12 && s.fld Reg.hdmDecoder 8 1 == 1 && s.fld Reg.hdmDecoder 10 1 == 1)

/-- Clears the frozen value of a counter (R496). -/
def State.clearFrozen (s : State) (off : Nat) (f : FieldRow) : State :=
  match s.frozen with
  | none => s
  | some r => { s with frozen := some (tabSet resetWord r off
      (BitVec.ofNat 32 (putField (tabGet resetWord r off).toNat f.lo f.width 0))) }

/-- Writes one field as its access code gives; a field that a command of its own writes is left to it (R6, R8, R9). -/
def State.writeField (off v : Nat) (s : State) (f : FieldRow) : State :=
  let x := v / 2 ^ f.lo % 2 ^ f.width
  if f.own ∨ s.fieldFixed off f then s
  else match f.acc with
  | .rw | .rws =>
    let y := s.fieldClamp off f x
    let s1 := s.setFld off f.lo f.width y
    let s2 := if y = x then s1 else s1.clampReg off f.lo x y
    if f.count ∧ y = 0 then s2.clearFrozen off f else s2
  | .w1c =>
    let old := s.fld off f.lo f.width
    s.setFld off f.lo f.width (old - (old &&& x))
  | .ro | .wo => s

/-- A change of role by the GUY_ registers (R39): a new follower is FREE, a new master LOCKED on its own reference. -/
def State.roleChange (old : Bool) (s : State) : State :=
  if old = s.isMaster then s
  else if s.isMaster then ({ s with pit := {} }).setReg Reg.pitRate 0
  else { s with pit := { mode := .free } }

/-- Sends the message of a vector whose entry is no longer masked (R466). -/
def State.unmask (s : State) (v : Nat) : State :=
  if (s.reg (Reg.msixTable (4 * v + 3))).getLsbD 0 = false ∧ s.fld (Reg.msixPending (v / 32)) (v % 32) 1 = 1 then
    (s.setFld (Reg.msixPending (v / 32)) (v % 32) 1 0).toHost (.msix v)
  else s

/-- HDM decoder 0 is committed or not, as COMMIT asks: a size above 64 GiB, or 0, and an interleave of more than one way are
errors (R448; PRESUMED, log entry 63). -/
def State.hdmCommit (s : State) : State :=
  let want := s.fld Reg.hdmDecoder 9 1 = 1
  let ok := decide (0 < s.hdmSize ∧ s.hdmSize ≤ 2 ^ 36) && s.fld Reg.hdmDecoder 4 4 == 0
  (s.setFld Reg.hdmDecoder 10 1 (b2n (want && ok))).setFld Reg.hdmDecoder 11 1 (b2n (want && !ok))

/-- What a write brings about beyond its fields. -/
def State.afterWrite (s old : State) (off v : Nat) : State :=
  if off = Reg.guyCtrl ∨ off = Reg.guyUpport ∨ off = Reg.guyDownmask then (s.guyPortsNew old).roleChange old.isMaster
  else if off = Reg.evtCtrl then (if v % 2 = 0 then s.setFld Reg.evtCtrl 0 1 0 else s)
  else if off = Reg.bootCringCtrl then (if v % 2 = 0 then s.setFld Reg.bootCringCtrl 0 1 0 else s)
  else if off = Reg.evtHead then (s.ringDrain evtRing).2
  else if off = Reg.bootCringHead then s.clampDrain
  else if off = Reg.hdmDecoder then s.hdmCommit
  else if off = Reg.pwrRotCtrl ∨ off = Reg.pwrRotEpoch0 then (if s.step.mode = .idle then s.applyRot else s)
  else if Reg.msixTable 0 ≤ off ∧ off < Reg.msixTable 264 then s.unmask ((off - Reg.msixTable 0) / 16)
  else if 0x1000000 ≤ off ∧ off < 0x1C00000 ∧ off % 0x100000 = 0 ∧ old.fld off 0 1 = 0 ∧ s.fld off 0 1 = 1 then
    s.retakeContribs ((off - 0x1000000) / 0x100000)
  else s

/-- Writes a half of a word of instruction memory; the word loses its errors (R405). -/
def Cell.writeImem (k : Cell) (i v : Nat) : Cell :=
  let w := (tabGet (fun _ => (0 : W64)) k.imem (i / 2)).toNat
  { k with imem := tabSet (fun _ => 0) k.imem (i / 2) (BitVec.ofNat 64 (putField w (i % 2 * 32) 32 v)),
           imemErr := k.imemErr.filter (· != i / 2), imemCe := k.imemCe.filter (· != i / 2) }

/-- A write of CELL_CORE_PC or of CELL_IMEM_w: ignored while the core is RUNNING (Table 13-13). -/
def State.writeCore (s : State) (c o v : Nat) : State :=
  let k := s.cell c
  if k.run = .running then s
  else if o = 0x104 then s.setCell c { k with pc := BitVec.ofNat 12 v }
  else s.setCell c (k.writeImem ((o - 0x8000) / 4) v)

/-- Writes a dword of BAR0. -/
def State.writeReg (s : State) (off v : Nat) : State :=
  let o := off % 0x10000
  if s.regServed off = false then s
  else if 0x2000000 ≤ off ∧ off < 0x4000000 ∧ (o = 0x104 ∨ 0x8000 ≤ o) then s.writeCore ((off - 0x2000000) / 0x10000) o v
  else ((fieldsAt off).foldl (State.writeField off v) s).afterWrite s off v

/-- REGISTER_WRITE (R6, R446): one aligned dword, or one aligned qword as two dwords, the lower offset first; a write of
fewer bytes is ignored. -/
def execRegisterWrite (off bytes : Nat) (v : W64) (s : State) : Out :=
  let lo := v.toNat % 2 ^ 32
  .next (whenOk (s.barOn && !s.insecure 0 && decide (off < bar0Size)) s
    (if bytes = 4 ∧ off % 4 = 0 then s.writeReg off lo
     else if bytes = 8 ∧ off % 8 = 0 then (s.writeReg off lo).writeReg (off + 4) (v.toNat / 2 ^ 32)
     else s))

end Sys2Proof.Machine
end

