-- ==== Sys2Proof/Machine/Rules.lean ====
section
/-! DEFINITION. The update rules of a groundsheet as computations on W32 elements (R226 to R246). -/

namespace Sys2Proof.Machine

/-! ### Lane operations (R219, R237) -/

/-- 1.0 as a W32 pattern. -/
def oneW : W32 := 0x3FC00000#32

/-- A W32 multiply. -/
def mulW (a b : W32) : W32 := rneW32 (mulVal (decW32 a) (decW32 b))
/-- A W32 subtraction. -/
def subW (a b : W32) : W32 := rneW32 (addVal (decW32 a) (negVal (decW32 b))).1
/-- `a × b + c`, rounded once. -/
def fmaW (a b c : W32) : W32 := rneW32 (fmaVal (decW32 a) (decW32 b) (decW32 c)).1
/-- The pattern with its sign inverted. -/
def negW (a : W32) : W32 := a ^^^ 0x80000000#32

/-- A division with the specials of R237. -/
def divVal : Val → Val → Val
  | .nan, _ => .nan
  | _, .nan => .nan
  | .ovf _, .ovf _ => .nan
  | .ovf a, .fin b _ => .ovf (a != b)
  | .fin a _, .ovf b => .fin (a != b) ⟨0, 1⟩
  | .fin a m, .fin b n =>
    if n.num = 0 then (if m.num = 0 then .nan else .ovf (a != b)) else .fin (a != b) (divFrac m n)

/-- A W32 division. -/
def divW (a b : W32) : W32 := rneW32 (divVal (decW32 a) (decW32 b))
/-- A W32 square root (Table 6-6). -/
def sqrtW (a : W32) : W32 := rneW32 (fnSqrt (decW32 a)).lo
/-- RSQRT (Table 6-6). -/
def rsqrtW (a : W32) : W32 := rneW32 (fnRsqrt (decW32 a)).lo

/-- sign(x) of R240. -/
def signW (a : W32) : W32 :=
  match decW32 a with
  | .nan => rneW32 .nan
  | .ovf n => if n then negW oneW else oneW
  | .fin n m => if m.num = 0 then 0 else if n then negW oneW else oneW

/-- The H16 value that a W32 element rounds to (RNE). -/
def toHalf (a : W32) : Nat := (roundFloat fmtH16 .rne (decW32 a)).1

/-- The running product of `pow`: result, power and exponent (R228). -/
def powLoop : Nat → W32 → W32 → Nat → W32
  | 0, r, _, _ => r
  | f + 1, r, x, t =>
    if t = 0 then r
    else
      let r1 := if t % 2 = 1 then mulW r x else r
      powLoop f r1 (if t / 2 = 0 then x else mulW x x) (t / 2)

/-- `pow(b, t)` of R228. -/
def powW (b : W32) (t : Nat) : W32 := powLoop 33 oneW b t

/-! ### Step constants (R228) -/

/-- The step constants of a group. -/
structure StepConst where
  t : Nat
  gi : W32
  c2 : W32
  c1g : W32
  c2g : W32
  etab : W32
  kb2 : W32
  kd : W32
  deriving DecidableEq, Repr

/-- The step constants of a group in an epoch under a GSCALE (R228). -/
def stepConst (d : UDesc) (e gscale : W32) : StepConst :=
  let t0 := (e.toNat + 2 ^ 32 - d.startEpoch % 2 ^ 32) % 2 ^ 32 + 1
  let t := if 2 ^ 31 ≤ t0 then 1 else t0
  let gi := divW oneW gscale
  let c1 := subW oneW d.beta1
  let c2 := subW oneW d.beta2
  let b1 := if d.biasCorr then subW oneW (powW d.beta1 t) else oneW
  let b2 := if d.biasCorr then subW oneW (powW d.beta2 t) else oneW
  { t := t, gi := gi, c2 := c2, c1g := mulW c1 gi, c2g := mulW c2 (mulW gi gi), etab := divW d.eta b1,
    kb2 := rsqrtW b2, kd := subW oneW (mulW d.eta d.lambda) }

/-! ### Element rules (R238 to R240) -/

/-- What a rule gives an element: the new master value and moments, and the direction of UPD_ADAPTIVE. -/
structure ElemOut where
  wn : W32 := 0
  mw : W32 := 0
  vw : W32 := 0
  d : W32 := 0
  deriving DecidableEq, Repr

/-- UPD_MOMENTUM (R238). -/
def ruleMomentum (d : UDesc) (k : StepConst) (w m g : W32) : ElemOut :=
  let mw := fmaW d.beta1 m (mulW k.gi g)
  { wn := fmaW (negW d.eta) mw (mulW w k.kd), mw := mw }

/-- UPD_ADAPTIVE (R239). -/
def ruleAdaptive (d : UDesc) (k : StepConst) (w m v g : W32) : ElemOut :=
  let mw := fmaW d.beta1 m (mulW k.c1g g)
  let vw := fmaW d.beta2 v (mulW k.c2g (mulW g g))
  let dir := divW mw (fmaW (sqrtW vw) k.kb2 d.eps)
  { wn := fmaW (negW k.etab) dir (mulW w k.kd), mw := mw, vw := vw, d := dir }

/-- UPD_SIGN (R240). -/
def ruleSign (d : UDesc) (k : StepConst) (w m g : W32) : ElemOut :=
  let c := fmaW d.beta1 m (mulW k.c1g g)
  { wn := fmaW (negW d.eta) (signW c) (mulW w k.kd), mw := fmaW d.beta2 m (mulW k.c2g g) }

/-- The rule of a group on one element; UPD_KRONECKER begins as UPD_ADAPTIVE (R244). -/
def ruleElem (d : UDesc) (k : StepConst) (w m v g : W32) : ElemOut :=
  if d.rule = 0 then ruleMomentum d k w m g
  else if d.rule = 3 then ruleSign d k w m g
  else ruleAdaptive d k w m v g

/-! ### The block unit (R106, R243) -/

/-- A product of `m × k` by `k × n` elements on the block unit, in row-major order, with its status word. -/
def buProduct (m k n : Nat) (p q : Nat → Nat → Val) : List W32 × Tsw :=
  let es := (List.range (m * n)).map (fun i =>
    wideDot 0 ⟨0, {}⟩ ((List.range k).map (fun x => (⟨mulVal (p (i / n) x) (q x (i % n)), x, false⟩ : PTerm))))
  (es.map (·.acc), es.foldl (fun a e => joinTsw a e.st) {})

/-- An element of a row-major matrix of width `n`, rounded into H16 (R243). -/
def halfAt (n : Nat) (l : List W32) (r c : Nat) : Val := decH16 (toHalf (l.getD (r * n + c) 0))

/-- bu(A, B) of two `b × b` matrices. -/
def buSquare (b : Nat) (x y : List W32) : List W32 × Tsw := buProduct b b b (halfAt b x) (halfAt b y)

/-- The state of the Newton iteration: X, M and the status words of its products, oldest first. -/
structure NewtonSt where
  x : List W32
  m : List W32
  st : List Tsw := []
  deriving DecidableEq, Repr

/-- `0.25 × (5 × δ − M)`, rounded once (R246). -/
def newtonT (b : Nat) (m : List W32) : List W32 :=
  (m.zipIdx).map (fun p =>
    let five : Val := .fin false ⟨if p.2 / b = p.2 % b then 5 else 0, 1⟩
    rneW32 (mulVal (.fin false ⟨1, 4⟩) (addVal five (negVal (decW32 p.1))).1))

/-- One Newton iteration (R246). -/
def newtonStep (b : Nat) (s : NewtonSt) : NewtonSt :=
  let t := newtonT b s.m
  let x := buSquare b s.x t
  let t2 := buSquare b t t
  let t4 := buSquare b t2.1 t2.1
  let m := buSquare b t4.1 s.m
  { x := x.1, m := m.1, st := s.st ++ [x.2, t2.2, t4.2, m.2] }

/-- RSUM of the squares of elements, each square rounded first (R244, R246). -/
def sumSquares (l : List W32) : W32 := (sumReduce (l.map (fun a => decW32 (mulW a a)))).1

/-- root4(A) with the status words of its products (R246; DEDUCED, log entry 39: A itself is not changed). -/
def root4 (b : Nat) (eps : W32) (newton : Nat) (a0 : List W32) : List W32 × List Tsw :=
  let a := (a0.zipIdx).map (fun p => if p.2 / b = p.2 % b then addW32 p.1 eps else p.1)
  let z := divW 0x40500000#32 (mulW 0x40000000#32 (sqrtW (sumSquares a)))
  let x0 := sqrtW (sqrtW z)
  let x := (List.range (b * b)).map (fun i => mulW x0 (if i / b = i % b then oneW else 0))
  let r := (List.range newton).foldl (fun s _ => newtonStep b s) { x := x, m := a.map (mulW z) }
  (r.x, r.st)

/-! ### UPD_KRONECKER on one block (R244, R245) -/

/-- The matrices of a block, row-major. -/
structure KState where
  l : List W32
  r : List W32
  lr : List W32
  rr : List W32
  deriving DecidableEq, Repr

/-- What a block comes to: its state, the direction `f × D` per element, the status words of its products with the
multiply-accumulates they took, and what its roots did. -/
structure KOut where
  k : KState
  step : List W32
  st : List Tsw
  cycles : Nat
  recomp : Bool
  fail : Bool
  deriving DecidableEq, Repr

/-- GCLK cycles of a product (R219). -/
def buCycles (m k n : Nat) : Nat := 64 * (ceilDiv m 64 * ceilDiv k 64 * ceilDiv n 64)

/-- Steps 2 to 4 of R244 on a block of `br × bc` elements: `g` is the gradient, `da` the direction of R239, `due` says that
its roots are recomputed. -/
def kronBlock (d : UDesc) (c : StepConst) (br bc : Nat) (due : Bool) (k : KState) (g da : List W32) : KOut :=
  let gh := g.map (fun x => decH16 (toHalf (mulW c.gi x)))
  let at_ := fun i j : Nat => gh.getD (i * bc + j) valZero
  let p := buProduct br bc br at_ (fun i j => at_ j i)
  let q := buProduct bc br bc (fun i j => at_ j i) at_
  let mix := fun (old new : List W32) => List.zipWith (fun o n => fmaW d.beta2 o (mulW c.c2 n)) old new
  let l := mix k.l p.1
  let r := mix k.r q.1
  let a := if due then root4 br d.eps d.newton l else (k.lr, [])
  let b := if due then root4 bc d.eps d.newton r else (k.rr, [])
  let fail := due && (a.1.any nonFinite || b.1.any nonFinite)
  let lr := if fail then k.lr else a.1
  let rr := if fail then k.rr else b.1
  let x := buProduct br br bc (halfAt br lr) at_
  let y := buProduct br bc bc (halfAt bc x.1) (halfAt bc rr)
  let nd := sqrtW (sumSquares y.1)
  let f := divW (sqrtW (sumSquares da)) (rneW32 (pickVal true (decW32 nd) (decW32 d.graft)).1)
  { k := ⟨l, r, lr, rr⟩, step := y.1.map (mulW f), st := [p.2, q.2] ++ a.2 ++ b.2 ++ [x.2, y.2],
    cycles := buCycles br bc br + buCycles bc br bc
      + (if due then 4 * d.newton * (buCycles br br br + buCycles bc bc bc) else 0)
      + buCycles br br bc + buCycles br bc bc,
    recomp := due, fail := fail }

end Sys2Proof.Machine
end

