-- ==== Sys2Proof/Machine/Update.lean ====
section
/-! DEFINITION. The update engine: a ready slice is updated and its fly versions are written (R227, R232, R241 to R246,
R262 to R265, R285). -/

namespace Sys2Proof.Machine

/-! ### Fly versions (R25, R262, R263) -/

/-- Creates the fly version of a page, in the stack of the committed page; none while that stack has no free frame
(R262, R265), or others wait for one there, among whom the allocator decides first (R53). -/
def State.flyCreate (s : State) (p : Nat) (e : DirEntry) : Option State :=
  if s.frameWaits e.home then none else
  match s.takeFrame e.home (.fly p) with
  | none => none
  | some (f, s1) =>
    let s2 := s1.cancelEviction p
    let e1 := (s2.dir p).getD e
    let s3 := s2.setDir p { e1 with fly := true }
    some (({ s3 with pool := { s3.pool with flies := tabPut p ⟨f, 0⟩ s3.pool.flies } }).quotaCheck s 3)

/-- Creates the fly versions that some pages lack; none where a stack has no free frame. -/
def State.flyCreateAll : List Nat → State → Option State
  | [], s => some s
  | p :: ps, s =>
    match alistGet s.pool.flies p, s.dir p with
    | none, some e => (s.flyCreate p e).bind (State.flyCreateAll ps)
    | _, _ => State.flyCreateAll ps s

/-- Writes bytes of one segment of a fly version: the rest of an invalid segment is first copied from the committed
version, unless the write covers it whole (R263). -/
def State.flySegment (s : State) (p off : Nat) (bs : List Byte) : State :=
  match alistGet s.pool.flies p, s.dir p with
  | some v, some e =>
    let k := off / segBytes
    let whole := off % segBytes == 0 && bs.length == segBytes
    let s1 :=
      if v.valid.testBit k || whole then s.partTouch true p e off bs.length
      else
        let src := s.committedFrame p e off
        let t := (s.pageTouch false p e (segBytes * k) (off % segBytes)).pageTouch false p e (off + bs.length)
          (segBytes - off % segBytes - bs.length)
        State.copySeg src v.frame t k
    let s2 := s1.frameWrite v.frame off bs
    { s2 with pool := { s2.pool with flies := tabPut p { v with valid := v.valid ||| 2 ^ k } s2.pool.flies } }
  | _, _ => s

/-- Writes bytes from a pool address on into fly versions, segment by segment. -/
def State.flyWriteAt : Nat → Nat → List Byte → State → State
  | 0, _, _, s => s
  | f + 1, a, bs, s =>
    if bs.isEmpty then s
    else
      let n := segBytes - a % segBytes
      State.flyWriteAt f (a + n) (bs.drop n) (s.flySegment (a / pageBytes) (a % pageBytes) (bs.take n))

/-- Writes bytes from a pool address on into the fly versions of its pages, which exist. -/
def State.flyWrite (s : State) (p : Nat × List Byte) : State := State.flyWriteAt (p.2.length / segBytes + 2) p.1 p.2 s

/-- Bytes from a pool address on as an update reads them (R25, R263). -/
def State.flyRaw (s : State) (a n : Nat) : List Byte :=
  (List.range n).map (fun i =>
    match s.dir ((a + i) / pageBytes) with
    | some e => if e.far then 0 else s.pageByte true ((a + i) / pageBytes) e ((a + i) % pageBytes)
    | none => 0)

/-- The effects of that read on errors and LASTUSE (R284, R297, R319). -/
def State.flyTouch (s : State) (p : Nat × Nat) : State :=
  (pagesOf p.1 p.2).foldl (fun t g =>
    match t.dir g with
    | some e =>
      let lo := max p.1 (pageBytes * g)
      let hi := min (p.1 + p.2) (pageBytes * (g + 1))
      ((t.pageTouch true g e (lo - pageBytes * g) (hi - lo)).lostTouch e).usePage g
    | none => t) s

/-! ### A slice's bytes (R224) -/

/-- Where the state of a slice lies: the first element index, the count, and the pool addresses. -/
structure SliceAt where
  first : Nat
  count : Nat
  master : Nat
  mom : Nat
  codes : Nat
  scales : Nat
  deriving DecidableEq, Repr

/-- The place of a slice whose first row within its unit is `r0`, with `rows` rows. -/
def sliceAt (x : Shard) (r0 rows : Nat) : SliceAt :=
  let i := r0 * x.cols
  { first := i, count := rows * x.cols, master := pageBytes * x.master + 4 * i, mom := pageBytes * x.mom + 2 * i,
    codes := pageBytes * x.var + i, scales := pageBytes * x.var + up64 (x.rows * x.cols) + i / 32 }

/-- The blocks of a record that lie in a slice, with their index and pool address (R224, R243). -/
def State.kronBlocks (s : State) (n : Nat) (x : Shard) (r0 rows : Nat) : List (Nat × Nat × KBlock) :=
  let bs := recordBlocks (kSize x.desc) (s.sliceRows n) x.rows x.cols
  (bs.zipIdx).filterMap (fun p =>
    if r0 ≤ p.1.row0 && p.1.row0 < r0 + rows then
      some (p.2, pageBytes * x.kst + sumNat ((bs.take p.2).map blockBytes), p.1)
    else none)

/-- The four matrices of a block: address and bytes of each. -/
def kronSpans (a : Nat) (b : KBlock) : List (Nat × Nat) :=
  let m := 4 * b.br * b.br
  let k := 4 * b.bc * b.bc
  [(a, m), (a + up64 m, k), (a + up64 m + up64 k, m), (a + 2 * up64 m + up64 k, k)]

/-- The spans of state that the update of a slice reads and writes. -/
def State.updateSpans (s : State) (n : Nat) (x : Shard) (r0 rows : Nat) : List (Nat × Nat) :=
  let p := sliceAt x r0 rows
  [(p.master, 4 * p.count), (p.mom, 2 * p.count)]
    ++ (if usesVar x.desc then [(p.codes, p.count), (p.scales, ceilDiv p.count 32)] else [])
    ++ (if x.desc.rule = 2 then (s.kronBlocks n x r0 rows).flatMap (fun b => kronSpans b.2.1 b.2.2) else [])

/-! ### The new state of a slice (R241 to R244) -/

/-- Second-moment values of a slice, decoded from A8 with their block scales (R237). -/
def State.varElems (s : State) (p : SliceAt) : List W32 :=
  let cs := s.flyRaw p.codes p.count
  let ss := s.flyRaw p.scales (ceilDiv p.count 32)
  (cs.zipIdx).map (fun c => rneW32 (decA8 c.1.toNat (ss.getD (c.2 / 32) 0).toNat))

/-- The blocks of a slice's second moments that are read with scale 0xFF (R66). -/
def State.varInv (s : State) (p : SliceAt) : Nat := (s.flyRaw p.scales (ceilDiv p.count 32)).count 0xFF

/-- One block of 32 second moments into A8 (R241): scale and codes. The scale is chosen from the finite ones; any other alone
becomes 0x80 (R85). -/
def storeA8 (b : List W32) : Nat × List Nat :=
  let vs := b.map decW32
  let sc := scaleAbsmax 3 (((vs.filter isFinVal).map magVal).foldl maxFrac ⟨0, 1⟩)
  (sc, vs.map (fun v => (toA8 .rne v sc).1))

/-- What an update comes to: the bytes it writes, whether an output is not finite, the blocks of scale 0xFF that it read, and
the outcome of each block of the second-order rule. -/
structure UpdateOut where
  writes : List (Nat × List Byte)
  bad : Bool
  inv : Nat := 0
  blocks : List (Nat × KOut) := []
  deriving DecidableEq, Repr

/-- The elements of a slice that a block covers, in row-major order. -/
def blockElems (cols r0 : Nat) (b : KBlock) (l : List W32) : List W32 :=
  (List.range (b.br * b.bc)).map (fun i => l.getD ((b.row0 - r0 + i / b.bc) * cols + b.col0 + i % b.bc) 0)

/-- W32 elements at a pool address, as an update reads them. -/
def State.flyWords (s : State) (p : Nat × Nat) : List W32 := payWords (s.flyRaw p.1 p.2) (p.2 / 4)

/-- UPD_KRONECKER's blocks of a slice: index, address, block, outcome (R244). -/
def State.kronOut (s : State) (n : Nat) (x : Shard) (c : StepConst) (r0 rows : Nat) (g : List W32) (es : List ElemOut) :
    List (Nat × Nat × KBlock × KOut) :=
  (s.kronBlocks n x r0 rows).map (fun b =>
    let ms := (kronSpans b.2.1 b.2.2).map s.flyWords
    let k : KState := ⟨ms.getD 0 [], ms.getD 1 [], ms.getD 2 [], ms.getD 3 []⟩
    (b.1, b.2.1, b.2.2,
      kronBlock x.desc c b.2.2.br b.2.2.bc ((c.t + b.1) % x.desc.rootN == 0) k (blockElems x.cols r0 b.2.2 g)
        (blockElems x.cols r0 b.2.2 (es.map (·.d)))))

/-- The direction `f × D` of the element at a row and column of a slice, from the block that covers it. -/
def kronStepAt (l : List (Nat × Nat × KBlock × KOut)) (r c : Nat) : W32 :=
  match l.find? (fun b => b.2.2.1.row0 ≤ r && r < b.2.2.1.row0 + b.2.2.1.br && b.2.2.1.col0 ≤ c
      && c < b.2.2.1.col0 + b.2.2.1.bc) with
  | some b => b.2.2.2.step.getD ((r - b.2.2.1.row0) * b.2.2.1.bc + (c - b.2.2.1.col0)) 0
  | none => 0

/-- The W32 bytes of a list. -/
def wBytes (l : List W32) : List Byte := l.flatMap (fun w => leBytes 4 w.toNat)

/-- Computes the update of a slice from the state as it is read (R238 to R244). -/
def State.computeUpdate (s : State) (n : Nat) (x : Shard) (c : StepConst) (r0 rows : Nat) (g : List W32) : UpdateOut :=
  let p := sliceAt x r0 rows
  let ws := s.flyWords (p.master, 4 * p.count)
  let ms := (List.range p.count).map (fun i => rneW32 (decH16 (leNat ((s.flyRaw (p.mom + 2 * i) 2)))))
  let vs := if usesVar x.desc then s.varElems p else []
  let es := (List.range p.count).map (fun i =>
    ruleElem x.desc c (ws.getD i 0) (ms.getD i 0) (vs.getD i 0) (g.getD i 0))
  let ks := if x.desc.rule = 2 then s.kronOut n x c r0 rows g es else []
  let wn := (es.zipIdx).map (fun e =>
    if x.desc.rule = 2 then
      fmaW (negW c.etab) (kronStepAt ks (r0 + e.2 / x.cols) (e.2 % x.cols)) (mulW (ws.getD e.2 0) c.kd)
    else e.1.wn)
  let mh := es.map (fun e => toHalf e.mw)
  let blocks := (chunkList 32 (es.map (·.vw))).map storeA8
  { writes := [(p.master, wBytes wn), (p.mom, mh.flatMap (leBytes 2))]
      ++ (if usesVar x.desc then
            [(p.codes, blocks.flatMap (fun b => b.2.map (BitVec.ofNat 8))), (p.scales, blocks.map (fun b => BitVec.ofNat 8 b.1))]
          else [])
      ++ ks.flatMap (fun b =>
          let k := b.2.2.2.k
          ((kronSpans b.2.1 b.2.2.1).zip [k.l, k.r, k.lr, k.rr]).map (fun q => (q.1.1, wBytes q.2))),
    bad := wn.any nonFinite || es.any (fun e => nonFinite e.mw) || mh.any (fun h => !isFinVal (decH16 h))
      || (usesVar x.desc && es.any (fun e => nonFinite e.vw)),
    inv := if usesVar x.desc then s.varInv p else 0,
    blocks := ks.map (fun b => (b.1, b.2.2.2)) }

/-! ### The block unit's registers (R129, Table 8-7) -/

/-- A product of the block unit has completed: its status word, sticky flags, and DOT_NONFINITE. -/
def State.buDone (n layer : Nat) (s : State) (t : Tsw) : State :=
  let s1 := s.setReg (Reg.gsBuStatus n) (s.reg (Reg.gsBuStatus n) ||| BitVec.ofNat 32 (b2n t.nan + 2 * b2n t.ovf))
  let s2 := s1.setReg64 (Reg.gsBuTswLastLo n) (Reg.gsBuTswLastHi n) (tswWord t).toNat
  if t.nan || t.ovf then
    s2.reportLim 0x0502 (0x8000 + n) (unitGs n)
      (0x8000 + n + 2 ^ 16 * b2n t.nan + 2 ^ 17 * b2n t.ovf + 2 ^ 18 * b2n t.first.isSome + 2 ^ 20 * (layer % 2 ^ 12))
  else s2

/-- What the blocks of a slice leave in the registers (R246, Table 8-7). -/
def State.blockDone (n : Nat) (x : Shard) (s : State) (b : Nat × KOut) : State :=
  let k := s.gs n
  let cyc := k.buCycles + b.2.cycles
  let s1 := (s.setGs n { k with buCycles := cyc % 1024 }).bumpUnits (Reg.gsBuActive n) (cyc / 1024)
  let s2 := b.2.st.foldl (State.buDone n x.layer) s1
  let s3 := if b.2.recomp then s2.bump (Reg.gsRootRecomp n) else s2
  if b.2.fail then
    (s3.bump (Reg.gsRootFail n)).reportLim 0x0511 n (unitGs n) (n + x.group * 2 ^ 4 + 2 ^ 16 * (b.1 % 2 ^ 16))
  else s3

/-! ### The command (R227, R232, R235, R265, R285, R523) -/

/-- The gradient of a ready slice: the contribution, or the accumulator (R230). -/
def State.sliceGrad (s : State) (n : Nat) (x : Shard) (r : ReadySlice) (r0 rows : Nat) : Option (List W32) × State :=
  if x.desc.acc = 1 then (some r.g, s)
  else
    let a := pageBytes * x.acc + 4 * (r0 * x.cols)
    match s.unitPool (0x8000 + n) a (4 * (rows * x.cols)) with
    | (none, s1) => (none, s1)
    | (some bs, s1) =>
      (some (payWords bs (rows * x.cols)), s1.poolWrite a (List.replicate (4 * (rows * x.cols)) 0))

/-- Takes a slice off the ready list. -/
def State.dropReady (s : State) (n : Nat) (r : ReadySlice) : State :=
  s.setGs n { s.gs n with ready := (s.gs n).ready.erase r }

/-- Waits for a page of class FLY, reported once per epoch (R265). -/
def State.flyStall (s : State) (n : Nat) (e : W32) : State :=
  if (s.gs n).flyStalled then s
  else (s.setGs n { s.gs n with flyStalled := true }).report 0x0607 (unitGs n) (n + 2 ^ 8 * (e.toNat % 2 ^ 24))

/-- Writes an update whose fly versions exist (R66, R241, R242). -/
def State.writeUpdate (s : State) (n : Nat) (x : Shard) (r : ReadySlice) (o : UpdateOut) : State :=
  let s1 := o.blocks.foldl (State.blockDone n x) (o.writes.foldl State.flyWrite s)
  let s2 := ((s1.setGs n { s1.gs n with written := (s1.gs n).written ++ [(x.index, r.slice)] }).bump
    (Reg.gsUpdSlices n)).bumpBy (Reg.gsScaleInvalid n) o.inv
  if o.bad then
    ((s2.raiseFlag flagNonfinite r.epoch).bump (Reg.gsUpdNf n)).reportLim 0x0510 n (unitGs n)
      (n + x.group * 2 ^ 4 + 2 ^ 16 * (x.layer % 2 ^ 16))
  else s2

/-- The pages of a slice's accumulator (R230). -/
def accPages (x : Shard) (r0 rows : Nat) : List Nat :=
  if x.desc.acc = 1 then [] else pagesOf (pageBytes * x.acc + 4 * (r0 * x.cols)) (4 * (rows * x.cols))

/-- The pages that an update of a slice reads and writes beside its record: the state and the accumulator. -/
def State.updatePages (s : State) (n : Nat) (x : Shard) (r0 rows : Nat) : List Nat :=
  spanPages (s.updateSpans n x r0 rows) ++ accPages x r0 rows

/-- Is any of some pages marked lost? -/
def State.anyLost (s : State) (ps : List Nat) : Bool := ps.any (fun p => (s.dir p).elim false (·.lost))

/-- Updates a slice whose state has been read, with the group's GSCALE for the epoch: its gradient, the rule, the fly
versions. -/
def State.applyUpdate (s : State) (n : Nat) (x : Shard) (gscale : W32) (r : ReadySlice) (r0 rows : Nat) : State :=
  let g := s.sliceGrad n x r r0 rows
  match g.1 with
  | none => (g.2.dropReady n r).raiseFlag flagAbort r.epoch
  | some gs =>
    let o := g.2.computeUpdate n x (stepConst x.desc r.epoch gscale) r0 rows gs
    (g.2.dropReady n r).writeUpdate n x r o

/-- Updates a slice: a page that is not served, or one that is lost, leaves it without fly versions (R285, R523); while no
page of class FLY can be had it waits (R265). -/
def State.updateSlice (s : State) (n : Nat) (x : Shard) (gscale : W32) (r : ReadySlice) (r0 rows : Nat) : State :=
  let spans := s.updateSpans n x r0 rows
  let ps := spanPages spans
  match (s.updatePages n x r0 rows).find? (fun p => !s.pageHere p) with
  | some p => ((s.dropReady n r).notServed (0x8000 + n) p).raiseFlag flagAbort r.epoch
  | none =>
    if (State.flyCreateAll ps s).isNone ∧ s.anyLost ps = false then s.flyStall n r.epoch
    else
      let s1 := spans.foldl State.flyTouch s
      if s1.anyLost ps then (s1.dropReady n r).raiseFlag flagEcc r.epoch
      else match State.flyCreateAll ps s1 with
        | none => s.flyStall n r.epoch
        | some s2 => s2.applyUpdate n x gscale r r0 rows

/-- The rows of a ready slice within its unit: the first, and how many. -/
def State.readyRows (s : State) (n : Nat) (x : Shard) (r : ReadySlice) : Nat × Nat :=
  let span := s.sliceSpan n x r.slice
  (span.1 - x.unit * s.unitRows n, span.2)

/-- The pages that the update of a ready slice needs, as far as they can be told beforehand. -/
def State.slicePages (s : State) (n : Nat) (r : ReadySlice) : List Nat :=
  s.recordPages n r.shard
    ++ (match s.peekShard n r.shard with
      | some x =>
        let q := s.readyRows n x r
        (s.layerAddr x.layer / pageBytes) :: s.updatePages n x q.1 q.2
      | none => [])

/-- Reads the record, the group and the layer of a ready slice and updates it (R227, R232): a record that is no longer valid,
or whose layer has DW_SKIP set, is not updated (R235). -/
def State.readSlice (s : State) (n : Nat) (r : ReadySlice) : State :=
  match s.readShard n r.shard with
  | (none, s1) => (s1.dropReady n r).raiseFlag flagAbort r.epoch
  | (some x0, s1) =>
    let c := s1.groupConsts n x0.group x0.desc
    let x := { x0 with desc := c.1.1 }
    let l := c.2.readLayer (0x8000 + n) (unitGs n) x.layer
    let q := s.readyRows n x r
    if l.1.dwSkip then l.2.dropReady n r else l.2.updateSlice n x c.1.2 r q.1 q.2

/-- Takes the oldest ready slice of a groundsheet (R232). -/
def State.takeSlice (s : State) (n : Nat) : State :=
  match (s.gs n).ready with
  | [] => s
  | r :: _ => s.withPages (.sliceUpdate n) (s.slicePages n r) (fun t => t.readSlice n r)

/-- SLICE_UPDATE (R232). -/
def execSliceUpdate (n : Nat) (s : State) : Out :=
  onUnit (n < 12) (whenOk (s.works && s.fld (Reg.gsCtrl n) 0 1 == 1) s (s.takeSlice n))

end Sys2Proof.Machine
end

