-- ==== Sys2Proof/Machine/Vector.lean ====
section
/-! DEFINITION. The vector class (Table 13-7): VS.OP with every operation of Table 6-4, VS.FENCE and VS.STAT. -/

namespace Sys2Proof.Machine

/-- VS.OP as the command of one operation of Table 6-4 (R171). A command whose control word holds another listed operation
is turned away; an operation code that no row lists raises VS_OPCODE whichever row carries it (DESIGN CHOICE, log entry 1). -/
def vsRow (op c : Nat) (i : Instr) (o : ROps) (s : State) : Out :=
  let v := (s.cell c).vsOp o
  let p := (vctl v.ctl).op
  if opKnown p ∧ p ≠ op then onUnit (c < 512) s
  else coreStep c i o.gneg o.gp 0x05 0x00 1 (rLegal 0x05 0x00 o && !(s.cell c).vsRunBad o) (vsUses o v) (vsEffect c o) s

/-- The tiles that completed vector instructions have read had their operands read, and the program knows it (R153, R183). -/
def Cell.vsKnown (k : Cell) : Cell := k.settle (fun h => k.mxDerived.any (fun d => d.1 == h))

/-- VS.FENCE (R184). -/
def execVsFence (c : Nat) (o : ROps) (s : State) : Out :=
  coreR c (.vsFence c o) o 0x05 0x01 []
    (fun t => if (t.cell c).vsq.isEmpty then .done (t.setCell c (t.cell c).vsKnown) else .stall) s

/-- VS.STAT (R185). -/
def execVsStat (c : Nat) (o : ROps) (s : State) : Out :=
  coreR c (.vsStat c o) o 0x05 0x02 [o.sd.toNat]
    (fun t =>
      if (t.cell c).vsq.isEmpty then
        let v := (t.reg (Reg.cellVsStatus c)).setWidth 64
        let u := if o.x.toNat % 2 = 1 then t.setReg (Reg.cellVsStatus c) 0 else t
        effS c o.sd.toNat v (u.setCell c (u.cell c).vsKnown)
      else .stall) s

/-- VS.OP AND, OP 0x01 (Table 6-4). -/
def execVsAnd (c : Nat) (o : ROps) (s : State) : Out := vsRow 0x01 c (.vsAnd c o) o s

/-- VS.OP OR, OP 0x02 (Table 6-4). -/
def execVsOr (c : Nat) (o : ROps) (s : State) : Out := vsRow 0x02 c (.vsOr c o) o s

/-- VS.OP XOR, OP 0x03 (Table 6-4). -/
def execVsXor (c : Nat) (o : ROps) (s : State) : Out := vsRow 0x03 c (.vsXor c o) o s

/-- VS.OP NOT, OP 0x04 (Table 6-4). -/
def execVsNot (c : Nat) (o : ROps) (s : State) : Out := vsRow 0x04 c (.vsNot c o) o s

/-- VS.OP SHL, OP 0x05 (Table 6-4). -/
def execVsShl (c : Nat) (o : ROps) (s : State) : Out := vsRow 0x05 c (.vsShl c o) o s

/-- VS.OP SHR, OP 0x06 (Table 6-4). -/
def execVsShr (c : Nat) (o : ROps) (s : State) : Out := vsRow 0x06 c (.vsShr c o) o s

/-- VS.OP SRA, OP 0x07 (Table 6-4). -/
def execVsSra (c : Nat) (o : ROps) (s : State) : Out := vsRow 0x07 c (.vsSra c o) o s

/-- VS.OP IADD, OP 0x08 (Table 6-4). -/
def execIadd (c : Nat) (o : ROps) (s : State) : Out := vsRow 0x08 c (.iadd c o) o s

/-- VS.OP ISUB, OP 0x09 (Table 6-4). -/
def execIsub (c : Nat) (o : ROps) (s : State) : Out := vsRow 0x09 c (.isub c o) o s

/-- VS.OP IMUL, OP 0x0A (Table 6-4). -/
def execImul (c : Nat) (o : ROps) (s : State) : Out := vsRow 0x0A c (.imul c o) o s

/-- VS.OP IMIN, OP 0x0B (Table 6-4). -/
def execImin (c : Nat) (o : ROps) (s : State) : Out := vsRow 0x0B c (.imin c o) o s

/-- VS.OP IMAX, OP 0x0C (Table 6-4). -/
def execImax (c : Nat) (o : ROps) (s : State) : Out := vsRow 0x0C c (.imax c o) o s

/-- VS.OP IABS, OP 0x0D (Table 6-4). -/
def execIabs (c : Nat) (o : ROps) (s : State) : Out := vsRow 0x0D c (.iabs c o) o s

/-- VS.OP IOTA, OP 0x0E (Table 6-4). -/
def execIota (c : Nat) (o : ROps) (s : State) : Out := vsRow 0x0E c (.iota c o) o s

/-- VS.OP ABS, OP 0x0F (Table 6-4). -/
def execAbs (c : Nat) (o : ROps) (s : State) : Out := vsRow 0x0F c (.abs c o) o s

/-- VS.OP NEG, OP 0x10 (Table 6-4). -/
def execNeg (c : Nat) (o : ROps) (s : State) : Out := vsRow 0x10 c (.neg c o) o s

/-- VS.OP MOV, OP 0x11 (Table 6-4). -/
def execMov (c : Nat) (o : ROps) (s : State) : Out := vsRow 0x11 c (.mov c o) o s

/-- VS.OP EXPO, OP 0x12 (Table 6-4). -/
def execExpo (c : Nat) (o : ROps) (s : State) : Out := vsRow 0x12 c (.expo c o) o s

/-- VS.OP ADD, OP 0x20 (Table 6-4). -/
def execVsAdd (c : Nat) (o : ROps) (s : State) : Out := vsRow 0x20 c (.vsAdd c o) o s

/-- VS.OP SUB, OP 0x21 (Table 6-4). -/
def execVsSub (c : Nat) (o : ROps) (s : State) : Out := vsRow 0x21 c (.vsSub c o) o s

/-- VS.OP MUL, OP 0x22 (Table 6-4). -/
def execVsMul (c : Nat) (o : ROps) (s : State) : Out := vsRow 0x22 c (.vsMul c o) o s

/-- VS.OP FMA, OP 0x23 (Table 6-4). -/
def execFma (c : Nat) (o : ROps) (s : State) : Out := vsRow 0x23 c (.fma c o) o s

/-- VS.OP MAX, OP 0x24 (Table 6-4). -/
def execVsMax (c : Nat) (o : ROps) (s : State) : Out := vsRow 0x24 c (.vsMax c o) o s

/-- VS.OP MIN, OP 0x25 (Table 6-4). -/
def execVsMin (c : Nat) (o : ROps) (s : State) : Out := vsRow 0x25 c (.vsMin c o) o s

/-- VS.OP CMPEQ, OP 0x26 (Table 6-4). -/
def execVsCmpeq (c : Nat) (o : ROps) (s : State) : Out := vsRow 0x26 c (.vsCmpeq c o) o s

/-- VS.OP CMPNE, OP 0x27 (Table 6-4). -/
def execVsCmpne (c : Nat) (o : ROps) (s : State) : Out := vsRow 0x27 c (.vsCmpne c o) o s

/-- VS.OP CMPLT, OP 0x28 (Table 6-4). -/
def execVsCmplt (c : Nat) (o : ROps) (s : State) : Out := vsRow 0x28 c (.vsCmplt c o) o s

/-- VS.OP CMPLE, OP 0x29 (Table 6-4). -/
def execVsCmple (c : Nat) (o : ROps) (s : State) : Out := vsRow 0x29 c (.vsCmple c o) o s

/-- VS.OP CMPGT, OP 0x2A (Table 6-4). -/
def execVsCmpgt (c : Nat) (o : ROps) (s : State) : Out := vsRow 0x2A c (.vsCmpgt c o) o s

/-- VS.OP CMPGE, OP 0x2B (Table 6-4). -/
def execVsCmpge (c : Nat) (o : ROps) (s : State) : Out := vsRow 0x2B c (.vsCmpge c o) o s

/-- VS.OP SEL, OP 0x2C (Table 6-4). -/
def execVsSel (c : Nat) (o : ROps) (s : State) : Out := vsRow 0x2C c (.vsSel c o) o s

/-- VS.OP CVT, OP 0x2D (Table 6-4). -/
def execCvt (c : Nat) (o : ROps) (s : State) : Out := vsRow 0x2D c (.cvt c o) o s

/-- VS.OP SCALE, OP 0x2E (Table 6-4). -/
def execScale (c : Nat) (o : ROps) (s : State) : Out := vsRow 0x2E c (.scale c o) o s

/-- VS.OP EXPF, OP 0x30 (Table 6-4). -/
def execExpf (c : Nat) (o : ROps) (s : State) : Out := vsRow 0x30 c (.expf c o) o s

/-- VS.OP LOGF, OP 0x31 (Table 6-4). -/
def execLogf (c : Nat) (o : ROps) (s : State) : Out := vsRow 0x31 c (.logf c o) o s

/-- VS.OP RCP, OP 0x32 (Table 6-4). -/
def execRcp (c : Nat) (o : ROps) (s : State) : Out := vsRow 0x32 c (.rcp c o) o s

/-- VS.OP SQRT, OP 0x33 (Table 6-4). -/
def execSqrt (c : Nat) (o : ROps) (s : State) : Out := vsRow 0x33 c (.sqrt c o) o s

/-- VS.OP RSQRT, OP 0x34 (Table 6-4). -/
def execRsqrt (c : Nat) (o : ROps) (s : State) : Out := vsRow 0x34 c (.rsqrt c o) o s

/-- VS.OP SIGMOID, OP 0x35 (Table 6-4). -/
def execSigmoid (c : Nat) (o : ROps) (s : State) : Out := vsRow 0x35 c (.sigmoid c o) o s

/-- VS.OP TANH, OP 0x36 (Table 6-4). -/
def execTanh (c : Nat) (o : ROps) (s : State) : Out := vsRow 0x36 c (.tanh c o) o s

/-- VS.OP SOFTPLUS, OP 0x37 (Table 6-4). -/
def execSoftplus (c : Nat) (o : ROps) (s : State) : Out := vsRow 0x37 c (.softplus c o) o s

/-- VS.OP GELU, OP 0x38 (Table 6-4). -/
def execGelu (c : Nat) (o : ROps) (s : State) : Out := vsRow 0x38 c (.gelu c o) o s

/-- VS.OP SILU, OP 0x39 (Table 6-4). -/
def execSilu (c : Nat) (o : ROps) (s : State) : Out := vsRow 0x39 c (.silu c o) o s

/-- VS.OP D.RELU, OP 0x40 (Table 6-4). -/
def execDRelu (c : Nat) (o : ROps) (s : State) : Out := vsRow 0x40 c (.dRelu c o) o s

/-- VS.OP D.LRELU, OP 0x41 (Table 6-4). -/
def execDLrelu (c : Nat) (o : ROps) (s : State) : Out := vsRow 0x41 c (.dLrelu c o) o s

/-- VS.OP D.SIGMOID, OP 0x42 (Table 6-4). -/
def execDSigmoid (c : Nat) (o : ROps) (s : State) : Out := vsRow 0x42 c (.dSigmoid c o) o s

/-- VS.OP D.TANH, OP 0x43 (Table 6-4). -/
def execDTanh (c : Nat) (o : ROps) (s : State) : Out := vsRow 0x43 c (.dTanh c o) o s

/-- VS.OP D.SOFTPLUS, OP 0x44 (Table 6-4). -/
def execDSoftplus (c : Nat) (o : ROps) (s : State) : Out := vsRow 0x44 c (.dSoftplus c o) o s

/-- VS.OP D.ELU, OP 0x45 (Table 6-4). -/
def execDElu (c : Nat) (o : ROps) (s : State) : Out := vsRow 0x45 c (.dElu c o) o s

/-- VS.OP D.EXP, OP 0x46 (Table 6-4). -/
def execDExp (c : Nat) (o : ROps) (s : State) : Out := vsRow 0x46 c (.dExp c o) o s

/-- VS.OP D.GELU, OP 0x48 (Table 6-4). -/
def execDGelu (c : Nat) (o : ROps) (s : State) : Out := vsRow 0x48 c (.dGelu c o) o s

/-- VS.OP D.SILU, OP 0x49 (Table 6-4). -/
def execDSilu (c : Nat) (o : ROps) (s : State) : Out := vsRow 0x49 c (.dSilu c o) o s

/-- VS.OP RSUM, OP 0x50 (Table 6-4). -/
def execRsum (c : Nat) (o : ROps) (s : State) : Out := vsRow 0x50 c (.rsum c o) o s

/-- VS.OP RPROD, OP 0x51 (Table 6-4). -/
def execRprod (c : Nat) (o : ROps) (s : State) : Out := vsRow 0x51 c (.rprod c o) o s

/-- VS.OP RMAX, OP 0x52 (Table 6-4). -/
def execRmax (c : Nat) (o : ROps) (s : State) : Out := vsRow 0x52 c (.rmax c o) o s

/-- VS.OP RMIN, OP 0x53 (Table 6-4). -/
def execRmin (c : Nat) (o : ROps) (s : State) : Out := vsRow 0x53 c (.rmin c o) o s

/-- VS.OP RARGMAX, OP 0x54 (Table 6-4). -/
def execRargmax (c : Nat) (o : ROps) (s : State) : Out := vsRow 0x54 c (.rargmax c o) o s

/-- VS.OP RARGMIN, OP 0x55 (Table 6-4). -/
def execRargmin (c : Nat) (o : ROps) (s : State) : Out := vsRow 0x55 c (.rargmin c o) o s

/-- VS.OP RCNT, OP 0x56 (Table 6-4). -/
def execRcnt (c : Nat) (o : ROps) (s : State) : Out := vsRow 0x56 c (.rcnt c o) o s

/-- VS.OP RMEAN, OP 0x57 (Table 6-4). -/
def execRmean (c : Nat) (o : ROps) (s : State) : Out := vsRow 0x57 c (.rmean c o) o s

/-- VS.OP COMPRESS, OP 0x60 (Table 6-4). -/
def execCompress (c : Nat) (o : ROps) (s : State) : Out := vsRow 0x60 c (.compress c o) o s

/-- VS.OP EXPAND, OP 0x61 (Table 6-4). -/
def execExpand (c : Nat) (o : ROps) (s : State) : Out := vsRow 0x61 c (.expand c o) o s

end Sys2Proof.Machine
end

