-- ==== Sys2Proof/Machine/Dispatch.lean ====
section
/-! DEFINITION. The dispatch: one arm per command of opcode_table.json, each one direct call of its meaning. -/

namespace Sys2Proof.Machine

/-- The effect of a command on everything but the queue of commands that wait. -/
def exec (i : Instr) (s : State) : Host.Outcome State Fault Refusal :=
  match i with
  | .registerWrite off bytes v => Sys2Proof.Machine.execRegisterWrite off bytes v s
  | .loReadLatch off bytes => Sys2Proof.Machine.execLoReadLatch off bytes s
  | .pitCmdLoad => Sys2Proof.Machine.execPitCmdLoad s
  | .timingExchange => Sys2Proof.Machine.execTimingExchange s
  | .sync port g => Sys2Proof.Machine.execSync port g s
  | .delayReq port g => Sys2Proof.Machine.execDelayReq port g s
  | .delayResp port g => Sys2Proof.Machine.execDelayResp port g s
  | .exchangeMissing => Sys2Proof.Machine.execExchangeMissing s
  | .holdoverLimit => Sys2Proof.Machine.execHoldoverLimit s
  | .launchFire c => Sys2Proof.Machine.execLaunchFire c s
  | .waitTickResume c => Sys2Proof.Machine.execWaitTickResume c s
  | .tSealReached => Sys2Proof.Machine.execTSealReached s
  | .guylineContribution port g => Sys2Proof.Machine.execGuylineContribution port g s
  | .guylineVerdict port g => Sys2Proof.Machine.execGuylineVerdict port g s
  | .verdictApply => Sys2Proof.Machine.execVerdictApply s
  | .flyMerge page => Sys2Proof.Machine.execFlyMerge page s
  | .stepEnable => Sys2Proof.Machine.execStepEnable s
  | .stepDisable => Sys2Proof.Machine.execStepDisable s
  | .modEpochWrite v => Sys2Proof.Machine.execModEpochWrite v s
  | .stepCmdSeal => Sys2Proof.Machine.execStepCmdSeal s
  | .stepCmdAbort => Sys2Proof.Machine.execStepCmdAbort s
  | .clearDiverge => Sys2Proof.Machine.execClearDiverge s
  | .modGscaleWrite v => Sys2Proof.Machine.execModGscaleWrite v s
  | .modGscaleCtrlWrite v => Sys2Proof.Machine.execModGscaleCtrlWrite v s
  | .gatherReq h => Sys2Proof.Machine.execGatherReq h s
  | .gatherServe n => Sys2Proof.Machine.execGatherServe n s
  | .gatherResp h payload => Sys2Proof.Machine.execGatherResp h payload s
  | .contrib h payload => Sys2Proof.Machine.execContrib h payload s
  | .sliceUpdate n => Sys2Proof.Machine.execSliceUpdate n s
  | .dwPieceTake c h => Sys2Proof.Machine.execDwPieceTake c h s
  | .dwPiece h payload => Sys2Proof.Machine.execDwPiece h payload s
  | .coll h payload => Sys2Proof.Machine.execColl h payload s
  | .exch h payload => Sys2Proof.Machine.execExch h payload s
  | .collectiveComplete c h => Sys2Proof.Machine.execCollectiveComplete c h s
  | .ack h => Sys2Proof.Machine.execAck h s
  | .ackDelay ctx => Sys2Proof.Machine.execAckDelay ctx s
  | .channelRto ctx => Sys2Proof.Machine.execChannelRto ctx s
  | .chanOpen ctx => Sys2Proof.Machine.execChanOpen ctx s
  | .chanClose ctx => Sys2Proof.Machine.execChanClose ctx s
  | .chanReset ctx => Sys2Proof.Machine.execChanReset ctx s
  | .headFlitRoute port vl ar esc hops flits fec h payload => Sys2Proof.Machine.execHeadFlitRoute port vl ar esc hops flits fec h payload s
  | .linkFlitReceive port vl pool count fec => Sys2Proof.Machine.execLinkFlitReceive port vl pool count fec s
  | .creditReport port counts => Sys2Proof.Machine.execCreditReport port counts s
  | .txnTimeout tag => Sys2Proof.Machine.execTxnTimeout tag s
  | .routeEntryWrite a v => Sys2Proof.Machine.execRouteEntryWrite a v s
  | .portEnable p => Sys2Proof.Machine.execPortEnable p s
  | .portDisable p => Sys2Proof.Machine.execPortDisable p s
  | .unfence p => Sys2Proof.Machine.execUnfence p s
  | .trainComplete p four low high => Sys2Proof.Machine.execTrainComplete p four low high s
  | .alignComplete p => Sys2Proof.Machine.execAlignComplete p s
  | .alignTimeout p => Sys2Proof.Machine.execAlignTimeout p s
  | .identComplete p serial addr valid peerPort cable => Sys2Proof.Machine.execIdentComplete p serial addr valid peerPort cable s
  | .laneFault p lane => Sys2Proof.Machine.execLaneFault p lane s
  | .discStart => Sys2Proof.Machine.execDiscStart s
  | .discAbort => Sys2Proof.Machine.execDiscAbort s
  | .discProbe port hops h => Sys2Proof.Machine.execDiscProbe port hops h s
  | .discIdent port hops h peer => Sys2Proof.Machine.execDiscIdent port hops h peer s
  | .discAssign port hops h payload => Sys2Proof.Machine.execDiscAssign port hops h payload s
  | .plGet c o => Sys2Proof.Machine.execPlGet c o s
  | .plPut c o => Sys2Proof.Machine.execPlPut c o s
  | .xferComplete c h st => Sys2Proof.Machine.execXferComplete c h st s
  | .plGather c o => Sys2Proof.Machine.execPlGather c o s
  | .plWait c o => Sys2Proof.Machine.execPlWait c o s
  | .deadlineEdge c => Sys2Proof.Machine.execDeadlineEdge c s
  | .plStream c o => Sys2Proof.Machine.execPlStream c o s
  | .plSwait c o => Sys2Proof.Machine.execPlSwait c o s
  | .plSrelease c o => Sys2Proof.Machine.execPlSrelease c o s
  | .plScancel c o => Sys2Proof.Machine.execPlScancel c o s
  | .plAltready c o => Sys2Proof.Machine.execPlAltready c o s
  | .plAlloc c o => Sys2Proof.Machine.execPlAlloc c o s
  | .allocWaitEnd => Sys2Proof.Machine.execAllocWaitEnd s
  | .plFree c o => Sys2Proof.Machine.execPlFree c o s
  | .plPeg c o => Sys2Proof.Machine.execPlPeg c o s
  | .plUnpeg c o => Sys2Proof.Machine.execPlUnpeg c o s
  | .poolCmdAlloc => Sys2Proof.Machine.execPoolCmdAlloc s
  | .poolCmdFree => Sys2Proof.Machine.execPoolCmdFree s
  | .poolCmdPeg => Sys2Proof.Machine.execPoolCmdPeg s
  | .poolCmdUnpeg => Sys2Proof.Machine.execPoolCmdUnpeg s
  | .clearLost => Sys2Proof.Machine.execClearLost s
  | .retire => Sys2Proof.Machine.execRetire s
  | .retireCopyComplete n frame => Sys2Proof.Machine.execRetireCopyComplete n frame s
  | .readDir => Sys2Proof.Machine.execReadDir s
  | .readFrame => Sys2Proof.Machine.execReadFrame s
  | .evictionStart n => Sys2Proof.Machine.execEvictionStart n s
  | .evictionComplete page st => Sys2Proof.Machine.execEvictionComplete page st s
  | .bringupComplete page => Sys2Proof.Machine.execBringupComplete page s
  | .farReadCompletion id st data => Sys2Proof.Machine.execFarReadCompletion id st data s
  | .farReadTimeout id => Sys2Proof.Machine.execFarReadTimeout id s
  | .scrubPass n => Sys2Proof.Machine.execScrubPass n s
  | .tmRchk c o => Sys2Proof.Machine.execTmRchk c o s
  | .tmWiden c o => Sys2Proof.Machine.execTmWiden c o s
  | .widenComplete c w => Sys2Proof.Machine.execWidenComplete c w s
  | .tmCopy c o => Sys2Proof.Machine.execTmCopy c o s
  | .tmFence c o => Sys2Proof.Machine.execTmFence c o s
  | .mxStart c o => Sys2Proof.Machine.execMxStart c o s
  | .mxMul c o => Sys2Proof.Machine.execMxMul c o s
  | .mxEnd c o => Sys2Proof.Machine.execMxEnd c o s
  | .mxDrainComplete c h => Sys2Proof.Machine.execMxDrainComplete c h s
  | .mxTsw c o => Sys2Proof.Machine.execMxTsw c o s
  | .mxFence c o => Sys2Proof.Machine.execMxFence c o s
  | .vsFence c o => Sys2Proof.Machine.execVsFence c o s
  | .vsStat c o => Sys2Proof.Machine.execVsStat c o s
  | .vsAnd c o => Sys2Proof.Machine.execVsAnd c o s
  | .vsOr c o => Sys2Proof.Machine.execVsOr c o s
  | .vsXor c o => Sys2Proof.Machine.execVsXor c o s
  | .vsNot c o => Sys2Proof.Machine.execVsNot c o s
  | .vsShl c o => Sys2Proof.Machine.execVsShl c o s
  | .vsShr c o => Sys2Proof.Machine.execVsShr c o s
  | .vsSra c o => Sys2Proof.Machine.execVsSra c o s
  | .iadd c o => Sys2Proof.Machine.execIadd c o s
  | .isub c o => Sys2Proof.Machine.execIsub c o s
  | .imul c o => Sys2Proof.Machine.execImul c o s
  | .imin c o => Sys2Proof.Machine.execImin c o s
  | .imax c o => Sys2Proof.Machine.execImax c o s
  | .iabs c o => Sys2Proof.Machine.execIabs c o s
  | .iota c o => Sys2Proof.Machine.execIota c o s
  | .abs c o => Sys2Proof.Machine.execAbs c o s
  | .neg c o => Sys2Proof.Machine.execNeg c o s
  | .mov c o => Sys2Proof.Machine.execMov c o s
  | .expo c o => Sys2Proof.Machine.execExpo c o s
  | .vsAdd c o => Sys2Proof.Machine.execVsAdd c o s
  | .vsSub c o => Sys2Proof.Machine.execVsSub c o s
  | .vsMul c o => Sys2Proof.Machine.execVsMul c o s
  | .fma c o => Sys2Proof.Machine.execFma c o s
  | .vsMax c o => Sys2Proof.Machine.execVsMax c o s
  | .vsMin c o => Sys2Proof.Machine.execVsMin c o s
  | .vsCmpeq c o => Sys2Proof.Machine.execVsCmpeq c o s
  | .vsCmpne c o => Sys2Proof.Machine.execVsCmpne c o s
  | .vsCmplt c o => Sys2Proof.Machine.execVsCmplt c o s
  | .vsCmple c o => Sys2Proof.Machine.execVsCmple c o s
  | .vsCmpgt c o => Sys2Proof.Machine.execVsCmpgt c o s
  | .vsCmpge c o => Sys2Proof.Machine.execVsCmpge c o s
  | .vsSel c o => Sys2Proof.Machine.execVsSel c o s
  | .cvt c o => Sys2Proof.Machine.execCvt c o s
  | .scale c o => Sys2Proof.Machine.execScale c o s
  | .expf c o => Sys2Proof.Machine.execExpf c o s
  | .logf c o => Sys2Proof.Machine.execLogf c o s
  | .rcp c o => Sys2Proof.Machine.execRcp c o s
  | .sqrt c o => Sys2Proof.Machine.execSqrt c o s
  | .rsqrt c o => Sys2Proof.Machine.execRsqrt c o s
  | .sigmoid c o => Sys2Proof.Machine.execSigmoid c o s
  | .tanh c o => Sys2Proof.Machine.execTanh c o s
  | .softplus c o => Sys2Proof.Machine.execSoftplus c o s
  | .gelu c o => Sys2Proof.Machine.execGelu c o s
  | .silu c o => Sys2Proof.Machine.execSilu c o s
  | .dRelu c o => Sys2Proof.Machine.execDRelu c o s
  | .dLrelu c o => Sys2Proof.Machine.execDLrelu c o s
  | .dSigmoid c o => Sys2Proof.Machine.execDSigmoid c o s
  | .dTanh c o => Sys2Proof.Machine.execDTanh c o s
  | .dSoftplus c o => Sys2Proof.Machine.execDSoftplus c o s
  | .dElu c o => Sys2Proof.Machine.execDElu c o s
  | .dExp c o => Sys2Proof.Machine.execDExp c o s
  | .dGelu c o => Sys2Proof.Machine.execDGelu c o s
  | .dSilu c o => Sys2Proof.Machine.execDSilu c o s
  | .rsum c o => Sys2Proof.Machine.execRsum c o s
  | .rprod c o => Sys2Proof.Machine.execRprod c o s
  | .rmax c o => Sys2Proof.Machine.execRmax c o s
  | .rmin c o => Sys2Proof.Machine.execRmin c o s
  | .rargmax c o => Sys2Proof.Machine.execRargmax c o s
  | .rargmin c o => Sys2Proof.Machine.execRargmin c o s
  | .rcnt c o => Sys2Proof.Machine.execRcnt c o s
  | .rmean c o => Sys2Proof.Machine.execRmean c o s
  | .compress c o => Sys2Proof.Machine.execCompress c o s
  | .expand c o => Sys2Proof.Machine.execExpand c o s
  | .clRs c o => Sys2Proof.Machine.execClRs c o s
  | .clAg c o => Sys2Proof.Machine.execClAg c o s
  | .clAr c o => Sys2Proof.Machine.execClAr c o s
  | .clBcast c o => Sys2Proof.Machine.execClBcast c o s
  | .clExch c o => Sys2Proof.Machine.execClExch c o s
  | .clWait c o => Sys2Proof.Machine.execClWait c o s
  | .clCancel c o => Sys2Proof.Machine.execClCancel c o s
  | .add c o => Sys2Proof.Machine.execAdd c o s
  | .sub c o => Sys2Proof.Machine.execSub c o s
  | .mul c o => Sys2Proof.Machine.execMul c o s
  | .mulhu c o => Sys2Proof.Machine.execMulhu c o s
  | .mulhs c o => Sys2Proof.Machine.execMulhs c o s
  | .and c o => Sys2Proof.Machine.execAnd c o s
  | .or c o => Sys2Proof.Machine.execOr c o s
  | .xor c o => Sys2Proof.Machine.execXor c o s
  | .shl c o => Sys2Proof.Machine.execShl c o s
  | .shr c o => Sys2Proof.Machine.execShr c o s
  | .sra c o => Sys2Proof.Machine.execSra c o s
  | .min c o => Sys2Proof.Machine.execMin c o s
  | .max c o => Sys2Proof.Machine.execMax c o s
  | .minu c o => Sys2Proof.Machine.execMinu c o s
  | .maxu c o => Sys2Proof.Machine.execMaxu c o s
  | .sel c o => Sys2Proof.Machine.execSel c o s
  | .addi c o => Sys2Proof.Machine.execAddi c o s
  | .andi c o => Sys2Proof.Machine.execAndi c o s
  | .ori c o => Sys2Proof.Machine.execOri c o s
  | .xori c o => Sys2Proof.Machine.execXori c o s
  | .shli c o => Sys2Proof.Machine.execShli c o s
  | .shri c o => Sys2Proof.Machine.execShri c o s
  | .srai c o => Sys2Proof.Machine.execSrai c o s
  | .movi c o => Sys2Proof.Machine.execMovi c o s
  | .movhi c o => Sys2Proof.Machine.execMovhi c o s
  | .cmpeq c o => Sys2Proof.Machine.execCmpeq c o s
  | .cmpne c o => Sys2Proof.Machine.execCmpne c o s
  | .cmplt c o => Sys2Proof.Machine.execCmplt c o s
  | .cmpltu c o => Sys2Proof.Machine.execCmpltu c o s
  | .cmpge c o => Sys2Proof.Machine.execCmpge c o s
  | .cmpgeu c o => Sys2Proof.Machine.execCmpgeu c o s
  | .cmpeqi c o => Sys2Proof.Machine.execCmpeqi c o s
  | .cmplti c o => Sys2Proof.Machine.execCmplti c o s
  | .pand c o => Sys2Proof.Machine.execPand c o s
  | .por c o => Sys2Proof.Machine.execPor c o s
  | .pxor c o => Sys2Proof.Machine.execPxor c o s
  | .amov c o => Sys2Proof.Machine.execAmov c o s
  | .aaddi c o => Sys2Proof.Machine.execAaddi c o s
  | .ard c o => Sys2Proof.Machine.execArd c o s
  | .ld64 c o => Sys2Proof.Machine.execLd64 c o s
  | .ld32 c o => Sys2Proof.Machine.execLd32 c o s
  | .ld16 c o => Sys2Proof.Machine.execLd16 c o s
  | .ld8 c o => Sys2Proof.Machine.execLd8 c o s
  | .lds32 c o => Sys2Proof.Machine.execLds32 c o s
  | .lds16 c o => Sys2Proof.Machine.execLds16 c o s
  | .lds8 c o => Sys2Proof.Machine.execLds8 c o s
  | .st64 c o => Sys2Proof.Machine.execSt64 c o s
  | .st32 c o => Sys2Proof.Machine.execSt32 c o s
  | .st16 c o => Sys2Proof.Machine.execSt16 c o s
  | .st8 c o => Sys2Proof.Machine.execSt8 c o s
  | .fadd c o => Sys2Proof.Machine.execFadd c o s
  | .fmul c o => Sys2Proof.Machine.execFmul c o s
  | .ffma c o => Sys2Proof.Machine.execFfma c o s
  | .fcvt c o => Sys2Proof.Machine.execFcvt c o s
  | .br c o => Sys2Proof.Machine.execBr c o s
  | .call c o => Sys2Proof.Machine.execCall c o s
  | .jmp c o => Sys2Proof.Machine.execJmp c o s
  | .callr c o => Sys2Proof.Machine.execCallr c o s
  | .dbnz c o => Sys2Proof.Machine.execDbnz c o s
  | .launchAt c o action => Sys2Proof.Machine.execLaunchAt c o action s
  | .waitTick c o => Sys2Proof.Machine.execWaitTick c o s
  | .seal c o => Sys2Proof.Machine.execSeal c o s
  | .tick c o => Sys2Proof.Machine.execTick c o s
  | .syncAbort c o => Sys2Proof.Machine.execSyncAbort c o s
  | .phase c o => Sys2Proof.Machine.execPhase c o s
  | .hint c o => Sys2Proof.Machine.execHint c o s
  | .nop c o => Sys2Proof.Machine.execNop c o s
  | .sysRd c o => Sys2Proof.Machine.execSysRd c o s
  | .sysWr c o => Sys2Proof.Machine.execSysWr c o s
  | .sysEret c o => Sys2Proof.Machine.execSysEret c o s
  | .sysHalt c o => Sys2Proof.Machine.execSysHalt c o s
  | .sysTrap c o => Sys2Proof.Machine.execSysTrap c o s
  | .run c => Sys2Proof.Machine.execRun c s
  | .halt c => Sys2Proof.Machine.execHalt c s
  | .clrlq c => Sys2Proof.Machine.execClrlq c s
  | .psuWarnAssert ns => Sys2Proof.Machine.execPsuWarnAssert ns s
  | .vinLow => Sys2Proof.Machine.execVinLow s
  | .shedComplete => Sys2Proof.Machine.execShedComplete s
  | .psuWarnClear input => Sys2Proof.Machine.execPsuWarnClear input s
  | .warnHoldExpiry => Sys2Proof.Machine.execWarnHoldExpiry s
  | .vinCutoff => Sys2Proof.Machine.execVinCutoff s
  | .powerReturn => Sys2Proof.Machine.execPowerReturn s
  | .controlPeriod m => Sys2Proof.Machine.execControlPeriod m s
  | .excursionTimeout => Sys2Proof.Machine.execExcursionTimeout s
  | .airflowEstimate mean tin tout => Sys2Proof.Machine.execAirflowEstimate mean tin tout s
  | .junctionSample temps forecast => Sys2Proof.Machine.execJunctionSample temps forecast s
  | .analogTrip u => Sys2Proof.Machine.execAnalogTrip u s
  | .tripClear => Sys2Proof.Machine.execTripClear s
  | .reread mem => Sys2Proof.Machine.execReread mem s
  | .capability => Sys2Proof.Machine.execCapability s
  | .statusByte => Sys2Proof.Machine.execStatusByte s
  | .readVin => Sys2Proof.Machine.execReadVin s
  | .readIin => Sys2Proof.Machine.execReadIin s
  | .readPin => Sys2Proof.Machine.execReadPin s
  | .pmbusRevision => Sys2Proof.Machine.execPmbusRevision s
  | .budgetWrite v pec => Sys2Proof.Machine.execBudgetWrite v pec s
  | .budgetRead => Sys2Proof.Machine.execBudgetRead s
  | .capEff => Sys2Proof.Machine.execCapEff s
  | .pmbusUnsupported code => Sys2Proof.Machine.execPmbusUnsupported code s
  | .hotReset => Sys2Proof.Machine.execHotReset s
  | .linkLoss us => Sys2Proof.Machine.execLinkLoss us s
  | .hostLinkTrained width rate cxl => Sys2Proof.Machine.execHostLinkTrained width rate cxl s
  | .snoop addr => Sys2Proof.Machine.execSnoop addr s
  | .hdmRead hpa len => Sys2Proof.Machine.execHdmRead hpa len s
  | .hdmWrite hpa data => Sys2Proof.Machine.execHdmWrite hpa data s
  | .uioRequest addr => Sys2Proof.Machine.execUioRequest addr s
  | .ideIntegrityFailure stream cm => Sys2Proof.Machine.execIdeIntegrityFailure stream cm s
  | .doeDiscovery index => Sys2Proof.Machine.execDoeDiscovery index s
  | .cxlTableAccess index => Sys2Proof.Machine.execCxlTableAccess index s
  | .getVersion => Sys2Proof.Machine.execGetVersion s
  | .getCapabilities => Sys2Proof.Machine.execGetCapabilities s
  | .negotiateAlgorithms asym hash => Sys2Proof.Machine.execNegotiateAlgorithms asym hash s
  | .getDigests => Sys2Proof.Machine.execGetDigests s
  | .getCertificate slot off len => Sys2Proof.Machine.execGetCertificate slot off len s
  | .challenge slot nonce => Sys2Proof.Machine.execChallenge slot nonce s
  | .getMeasurements index signed session => Sys2Proof.Machine.execGetMeasurements index signed session s
  | .keyExchange slot => Sys2Proof.Machine.execKeyExchange slot s
  | .finish session ok => Sys2Proof.Machine.execFinish session ok s
  | .heartbeat session => Sys2Proof.Machine.execHeartbeat session s
  | .keyUpdate session => Sys2Proof.Machine.execKeyUpdate session s
  | .endSession session => Sys2Proof.Machine.execEndSession session s
  | .query session => Sys2Proof.Machine.execQuery session s
  | .keyProg session stream cm => Sys2Proof.Machine.execKeyProg session stream cm s
  | .kSetGo session stream cm => Sys2Proof.Machine.execKSetGo session stream cm s
  | .kSetStop session stream cm => Sys2Proof.Machine.execKSetStop session stream cm s
  | .queueEnable q => Sys2Proof.Machine.execQueueEnable q s
  | .queueDisable q => Sys2Proof.Machine.execQueueDisable q s
  | .doorbell q tail => Sys2Proof.Machine.execDoorbell q tail s
  | .descriptorFetch st words => Sys2Proof.Machine.execDescriptorFetch st words s
  | .descNop q slot => Sys2Proof.Machine.execDescNop q slot s
  | .program q slot image => Sys2Proof.Machine.execProgram q slot image s
  | .programStart q slot => Sys2Proof.Machine.execProgramStart q slot s
  | .step q slot => Sys2Proof.Machine.execStep q slot s
  | .copy q slot => Sys2Proof.Machine.execCopy q slot s
  | .copyComplete q slot st data => Sys2Proof.Machine.execCopyComplete q slot st data s
  | .wait q slot => Sys2Proof.Machine.execWait q slot s
  | .waitComplete q slot => Sys2Proof.Machine.execWaitComplete q slot s
  | .eventRingEnable => Sys2Proof.Machine.execEventRingEnable s
  | .eventIrqDelay => Sys2Proof.Machine.execEventIrqDelay s
  | .clampRingEnable => Sys2Proof.Machine.execClampRingEnable s
  | .clampIrqDelay => Sys2Proof.Machine.execClampIrqDelay s
  | .loadFw => Sys2Proof.Machine.execLoadFw s
  | .loadUc => Sys2Proof.Machine.execLoadUc s
  | .loadComplete img flashOk => Sys2Proof.Machine.execLoadComplete img flashOk s
  | .activateFw => Sys2Proof.Machine.execActivateFw s
  | .activateUc => Sys2Proof.Machine.execActivateUc s
  | .pair => Sys2Proof.Machine.execPair s
  | .coldReset => Sys2Proof.Machine.execColdReset s
  | .commitSvn ok => Sys2Proof.Machine.execCommitSvn ok s
  | .persistPolicy ok => Sys2Proof.Machine.execPersistPolicy ok s
  | .coldBoot straps heatsink harness => Sys2Proof.Machine.execColdBoot straps heatsink harness s
  | .firmwareStart => Sys2Proof.Machine.execFirmwareStart s
  | .warmReset => Sys2Proof.Machine.execWarmReset s
  | .warmResetComplete => Sys2Proof.Machine.execWarmResetComplete s
  | .rstNAssert ns => Sys2Proof.Machine.execRstNAssert ns s
  | .rstNRelease => Sys2Proof.Machine.execRstNRelease s
  | .refclkLoss => Sys2Proof.Machine.execRefclkLoss s
  | .freeze on => Sys2Proof.Machine.execFreeze on s
  | .clearAll => Sys2Proof.Machine.execClearAll s
  | .codewordUncorrectable p => Sys2Proof.Machine.execCodewordUncorrectable p s
  | .farWriteTimeout id => Sys2Proof.Machine.execFarWriteTimeout id s
  | .pageReclaim n => Sys2Proof.Machine.execPageReclaim n s
  | .hqFetchTimeout q => Sys2Proof.Machine.execHqFetchTimeout q s

end Sys2Proof.Machine
end

