-- ==== Sys2Proof/Machine/Fetch.lean ====
section
/-! DEFINITION. A core's own fetch: which instruction the words at its program counter spell (R392, R394, R395, Tables 13-3
to 13-8). A RUNNING core that does not stall issues one instruction at each tick (DESIGN CHOICE, log entry 46). -/

namespace Sys2Proof.Machine

/-- Table 13-5: the scalar instruction of a minor opcode. -/
def scalarInstr (c opc : Nat) (w : W64) : Option Instr :=
  let r := wordR w
  let i := wordI w
  match opc with
  | 0x00 => some (.add c r)
  | 0x01 => some (.sub c r)
  | 0x02 => some (.mul c r)
  | 0x03 => some (.mulhu c r)
  | 0x04 => some (.mulhs c r)
  | 0x05 => some (.and c r)
  | 0x06 => some (.or c r)
  | 0x07 => some (.xor c r)
  | 0x08 => some (.shl c r)
  | 0x09 => some (.shr c r)
  | 0x0A => some (.sra c r)
  | 0x0B => some (.min c r)
  | 0x0C => some (.max c r)
  | 0x0D => some (.minu c r)
  | 0x0E => some (.maxu c r)
  | 0x0F => some (.sel c r)
  | 0x10 => some (.addi c i)
  | 0x11 => some (.andi c i)
  | 0x12 => some (.ori c i)
  | 0x13 => some (.xori c i)
  | 0x14 => some (.shli c i)
  | 0x15 => some (.shri c i)
  | 0x16 => some (.srai c i)
  | 0x18 => some (.movi c (wordU w))
  | 0x19 => some (.movhi c (wordU w))
  | 0x20 => some (.cmpeq c r)
  | 0x21 => some (.cmpne c r)
  | 0x22 => some (.cmplt c r)
  | 0x23 => some (.cmpltu c r)
  | 0x24 => some (.cmpge c r)
  | 0x25 => some (.cmpgeu c r)
  | 0x26 => some (.cmpeqi c i)
  | 0x27 => some (.cmplti c i)
  | 0x28 => some (.pand c r)
  | 0x29 => some (.por c r)
  | 0x2A => some (.pxor c r)
  | 0x30 => some (.amov c r)
  | 0x31 => some (.aaddi c i)
  | 0x32 => some (.ard c r)
  | 0x38 => some (.ld64 c i)
  | 0x39 => some (.ld32 c i)
  | 0x3A => some (.ld16 c i)
  | 0x3B => some (.ld8 c i)
  | 0x3C => some (.lds32 c i)
  | 0x3D => some (.lds16 c i)
  | 0x3E => some (.lds8 c i)
  | 0x40 => some (.st64 c i)
  | 0x41 => some (.st32 c i)
  | 0x42 => some (.st16 c i)
  | 0x43 => some (.st8 c i)
  | 0x48 => some (.fadd c r)
  | 0x49 => some (.fmul c r)
  | 0x4A => some (.ffma c r)
  | 0x4B => some (.fcvt c r)
  | _ => none

/-- Table 6-4: the command of the operation that a VS.OP's control word holds. An operation that no row lists is carried by
any of them, since it raises VS_OPCODE (log entry 1). -/
def vectorInstr (c op : Nat) (r : ROps) : Instr :=
  match op with
  | 0x01 => .vsAnd c r
  | 0x02 => .vsOr c r
  | 0x03 => .vsXor c r
  | 0x04 => .vsNot c r
  | 0x05 => .vsShl c r
  | 0x06 => .vsShr c r
  | 0x07 => .vsSra c r
  | 0x08 => .iadd c r
  | 0x09 => .isub c r
  | 0x0A => .imul c r
  | 0x0B => .imin c r
  | 0x0C => .imax c r
  | 0x0D => .iabs c r
  | 0x0E => .iota c r
  | 0x0F => .abs c r
  | 0x10 => .neg c r
  | 0x11 => .mov c r
  | 0x12 => .expo c r
  | 0x20 => .vsAdd c r
  | 0x21 => .vsSub c r
  | 0x22 => .vsMul c r
  | 0x23 => .fma c r
  | 0x24 => .vsMax c r
  | 0x25 => .vsMin c r
  | 0x26 => .vsCmpeq c r
  | 0x27 => .vsCmpne c r
  | 0x28 => .vsCmplt c r
  | 0x29 => .vsCmple c r
  | 0x2A => .vsCmpgt c r
  | 0x2B => .vsCmpge c r
  | 0x2C => .vsSel c r
  | 0x2D => .cvt c r
  | 0x2E => .scale c r
  | 0x30 => .expf c r
  | 0x31 => .logf c r
  | 0x32 => .rcp c r
  | 0x33 => .sqrt c r
  | 0x34 => .rsqrt c r
  | 0x35 => .sigmoid c r
  | 0x36 => .tanh c r
  | 0x37 => .softplus c r
  | 0x38 => .gelu c r
  | 0x39 => .silu c r
  | 0x40 => .dRelu c r
  | 0x41 => .dLrelu c r
  | 0x42 => .dSigmoid c r
  | 0x43 => .dTanh c r
  | 0x44 => .dSoftplus c r
  | 0x45 => .dElu c r
  | 0x46 => .dExp c r
  | 0x48 => .dGelu c r
  | 0x49 => .dSilu c r
  | 0x50 => .rsum c r
  | 0x51 => .rprod c r
  | 0x52 => .rmax c r
  | 0x53 => .rmin c r
  | 0x54 => .rargmax c r
  | 0x55 => .rargmin c r
  | 0x56 => .rcnt c r
  | 0x57 => .rmean c r
  | 0x60 => .compress c r
  | 0x61 => .expand c r
  | _ => .vsAnd c r

/-- Tables 13-6 to 13-8: the instruction of the other classes; `op` is the operation in the control word of a VS.OP, and
`action` the word after a LAUNCH.AT. -/
def engineInstr (c cls opc op : Nat) (w action : W64) : Option Instr :=
  let r := wordR w
  let i := wordI w
  match cls, opc with
  | 0x02, 0x00 => some (.br c i)
  | 0x02, 0x01 => some (.call c i)
  | 0x02, 0x02 => some (.jmp c r)
  | 0x02, 0x03 => some (.callr c r)
  | 0x02, 0x04 => some (.dbnz c i)
  | 0x03, 0x00 => some (.tmRchk c r)
  | 0x03, 0x01 => some (.tmWiden c r)
  | 0x03, 0x02 => some (.tmCopy c r)
  | 0x03, 0x03 => some (.tmFence c r)
  | 0x04, 0x00 => some (.mxStart c r)
  | 0x04, 0x01 => some (.mxMul c r)
  | 0x04, 0x02 => some (.mxEnd c r)
  | 0x04, 0x03 => some (.mxTsw c r)
  | 0x04, 0x04 => some (.mxFence c r)
  | 0x05, 0x00 => some (vectorInstr c op r)
  | 0x05, 0x01 => some (.vsFence c r)
  | 0x05, 0x02 => some (.vsStat c r)
  | 0x06, 0x00 => some (.clRs c r)
  | 0x06, 0x01 => some (.clAg c r)
  | 0x06, 0x02 => some (.clAr c r)
  | 0x06, 0x03 => some (.clBcast c r)
  | 0x06, 0x04 => some (.clExch c r)
  | 0x06, 0x08 => some (.clWait c r)
  | 0x06, 0x09 => some (.clCancel c r)
  | 0x07, 0x00 => some (.plGet c r)
  | 0x07, 0x01 => some (.plPut c r)
  | 0x07, 0x02 => some (.plGather c r)
  | 0x07, 0x03 => some (.plWait c r)
  | 0x07, 0x04 => some (.plStream c r)
  | 0x07, 0x05 => some (.plSwait c r)
  | 0x07, 0x06 => some (.plSrelease c r)
  | 0x07, 0x07 => some (.plScancel c r)
  | 0x07, 0x08 => some (.plAltready c r)
  | 0x07, 0x10 => some (.plAlloc c r)
  | 0x07, 0x11 => some (.plFree c r)
  | 0x07, 0x12 => some (.plPeg c r)
  | 0x07, 0x13 => some (.plUnpeg c r)
  | 0x08, 0x00 => some (.launchAt c r action)
  | 0x08, 0x01 => some (.waitTick c r)
  | 0x08, 0x02 => some (.seal c r)
  | 0x08, 0x03 => some (.tick c r)
  | 0x08, 0x04 => some (.syncAbort c r)
  | 0x09, 0x00 => some (.phase c r)
  | 0x09, 0x01 => some (.hint c r)
  | 0x0A, 0x00 => some (.nop c r)
  | 0x0A, 0x01 => some (.sysRd c r)
  | 0x0A, 0x02 => some (.sysWr c r)
  | 0x0A, 0x03 => some (.sysEret c r)
  | 0x0A, 0x04 => some (.sysHalt c r)
  | 0x0A, 0x05 => some (.sysTrap c r)
  | _, _ => none

/-- The instruction that a word spells on a cell, by its CLASS and OPC (R392, R395); none where its class is reserved or
its opcode is not listed (R394). -/
def wordInstr (c op : Nat) (w action : W64) : Option Instr :=
  if wordClass w = 0x01 then scalarInstr c (wordOpc w) w else engineInstr c (wordClass w) (wordOpc w) op w action

/-- The word of instruction memory at an index. -/
def Cell.imemAt (k : Cell) (i : Nat) : W64 := tabGet (fun _ => 0) k.imem i

/-- Does a core fetch at a tick: RUNNING, and no instruction stalled in front (R407)? -/
def Cell.fetches (k : Cell) : Bool := k.run == .running && k.stall.isNone

/-- The operation in the control word that the instruction at PC names, if it is a VS.OP. -/
def Cell.opAtPc (k : Cell) : Nat := (vctl (k.s (wordR (k.imemAt k.pc.toNat)).sa.toNat)).op

/-- The instruction at the program counter of a core. -/
def Cell.instrAtPc (c : Nat) (k : Cell) : Option Instr :=
  wordInstr c k.opAtPc (k.imemAt k.pc.toNat) (k.imemAt (k.pc.toNat + 1))

/-- A VS.OP whose control word is still owed waits for it before the core tells which operation it is (R407). -/
def Cell.opOwed (k : Cell) : Bool :=
  let w := k.imemAt k.pc.toNat
  wordClass w == 0x05 && wordOpc w == 0x00 && k.owed.contains (wordR w).sa.toNat

/-- A core meets a word that spells no instruction: IMEM_UNCORR where the word has an uncorrectable error, else ILLEGAL_OP
(R394, R405). -/
def State.fetchTrap (s : State) (c : Nat) : State :=
  let k := s.cell c
  let w := k.imemAt k.pc.toNat
  if k.fetches && (k.instrAtPc c).isNone then
    (s.fetchCe c).takeExc c (wordClass w) (wordOpc w)
      (if k.imemErr.contains k.pc.toNat then excImemUncorr else excIllegalOp) 0
  else s

/-- The command that issues the instruction at the program counter of a core that fetches. -/
def State.fetchDue (s : State) (c : Nat) : List Instr :=
  let k := s.cell c
  if k.fetches && !k.opOwed then (k.instrAtPc c).toList else []

end Sys2Proof.Machine
end

