-- ==== Sys2Proof/Machine/Tick.lean ====
section
/-! DEFINITION. The tick of the pitch counter, which is what a step does on an empty queue (R36, R50; DESIGN CHOICE, log entry 15): the
count advances, waiting work goes on, and the commands that this tick brings about are put into the queue. -/

namespace Sys2Proof.Machine

/-! ### Work that goes on at a tick -/

/-- The items of one stream go on, and one that has ended is forgotten (R312). -/
def State.streamTick (c : Nat) (s : State) (k : Nat) : State :=
  State.pumpStream c k 9 (State.settleStream c k 9 s)

/-- The store buffer, streams, waiting gathers and engines of a cell go on, and its core meets a word that spells no
instruction (R301, R312, R356, R390, R394). -/
def State.cellTick (s : State) (c : Nat) : State :=
  (((((s.cell c).streams.map (·.1)).foldl (State.streamTick c) (s.drainStores c)).goGathers c).runEngines c).fetchTrap c

/-- What goes on by itself at a tick: cells, far reads that wait to be sent (R451), the credit counts of every 1,024 ticks (R336), guyline cells that wait (R337),
the lantern (R421, R424), and discovery that waits for a tag (R356). -/
def State.tickWork (s : State) : State :=
  let s1 := if s.works then s.cellOrder.foldl State.cellTick s else s
  if s.up then
    let s0 := if s1.pitch % 1024 = 0 then (List.range 24).foldl State.sendCredits s1 else s1
    let s2 := s0.guyTick.pumpFar.lanternTick s0.capEff.1
    if s2.fab.disc.stalled then s2.discNext else s2
  else s1

/-! ### What a tick brings about -/

/-- A command under a condition. -/
def dueIf (b : Bool) (i : Instr) : List Instr := if b then [i] else []

/-- T_seal, and the application tick of a verdict (R50, R267, R272). -/
def State.stepDue (s : State) : List Instr :=
  dueIf (s.step.mode == .opened && s.reached s.step.tseal) .tSealReached
    ++ dueIf (s.step.mode == .sealed && s.reached s.step.applyAt) .verdictApply

/-- One firing for each launch entry of a cell that is due (R47). -/
def State.launchDue (s : State) (c : Nat) : List Instr :=
  ((s.cell c).lq.filter (fun e => e.target ≤ s.pitch)).map (fun _ => .launchFire c)

/-- A core on WAIT.TICK whose tick has come (R49). -/
def State.waitTickDue (s : State) (c : Nat) : List Instr :=
  match (s.cell c).stall with
  | some (.waitTick _ o) => dueIf (waitTarget (s.cell c) o ≤ s.pitch) (.waitTickResume c)
  | _ => []

/-- A core waiting on a transfer whose deadline has come (R313). -/
def State.edgesDue (s : State) (c : Nat) : List Instr :=
  dueIf ((s.cell c).run == .running && s.edgeDue c) (.deadlineEdge c)

/-- The instruction that stalls a core is tried again (R407); WAIT.TICK has its own resumption. -/
def State.retryDue (s : State) (c : Nat) : List Instr :=
  match (s.cell c).stall with
  | some (.waitTick _ _) => []
  | some i => dueIf ((s.cell c).run == .running) i
  | none => []

/-- Is an instruction a repeat check? -/
def isRchk : Instr → Bool
  | .tmRchk _ _ => true
  | _ => false

/-- Is an instruction an allocation of a pool page? -/
def isAlloc : Instr → Bool
  | .plAlloc _ _ => true
  | _ => false

/-- The instructions that the cores try again or fetch at a tick, one for each: repeat checks, allocations and all others,
each in the order of R53 for its resource (R206, R294, Table 2-4). -/
def State.coresDue (s : State) : List Instr :=
  let f := fun c : Nat => s.retryDue c ++ s.fetchDue c
  (s.rchkOrder.flatMap f).filter isRchk ++ (s.poolOrder.flatMap f).filter isAlloc
    ++ (s.cellOrder.flatMap f).filter (fun i => !isRchk i && !isAlloc i)

/-- A started descriptor whose tick has come (R458, R461). -/
def State.descDue (s : State) (q : Nat) (d : Started) : List Instr :=
  dueIf (d.begun && d.kind == 1 && s.progDue d) (.programStart q d.slot)
    ++ dueIf (d.begun && d.kind == 4 && s.waitDue d) (.waitComplete q d.slot)

/-- Descriptors of every queue. -/
def State.queuesDue (s : State) : List Instr := s.host.queues.flatMap (fun q => q.2.started.flatMap (s.descDue q.1))

/-- Timing exchanges and their limits (R40, R41). -/
def State.pitchDue (s : State) : List Instr :=
  dueIf (s.pitch % 1024 == 0 && (!s.isMaster || !s.downPorts.isEmpty)) .timingExchange
    ++ dueIf (!s.isMaster && s.pit.mode == .locked && decide (4 ≤ s.pit.missing)) .exchangeMissing
    ++ dueIf (s.pit.mode == .holdover && decide (1024 * s.fld Reg.pitHoldLimit 0 16 ≤ s.pitch - s.pit.holdFrom)) .holdoverLimit

/-- Acknowledgements, retransmissions and timeouts of the fabric (R357, R361, R362). -/
def State.fabDue (s : State) : List Instr :=
  s.fab.chans.flatMap (fun k => dueIf (s.ackDue k.1) (.ackDelay k.1) ++ dueIf (s.rtoDue k.1) (.channelRto k.1))
    ++ s.fab.txns.flatMap (fun t => dueIf (t.sentAt + s.txnTimeout ≤ s.pitch) (.txnTimeout t.tag))

/-- Timeouts of the far tier, and allocations and bring-ups that wait for a frame (R294, R301, R304). -/
def State.poolDue (s : State) : List Instr :=
  s.pool.farReqs.flatMap (fun r =>
      dueIf (s.farExpired r && r.readOut) (.farReadTimeout r.id)
        ++ dueIf (s.farExpired r && r.write && r.done.isNone) (.farWriteTimeout r.id))
    ++ dueIf (!s.pool.waits.isEmpty || s.pool.bringups.any (fun b => b.frame.isNone)) .allocWaitEnd

/-- Limits of the supply and of excursions (R416, R418). -/
def State.powerDue (s : State) : List Instr :=
  dueIf s.holdOver .warnHoldExpiry ++ dueIf s.excursionOver .excursionTimeout

/-- Interrupt delays of the rings (R466, R490). -/
def State.ringsDue (s : State) : List Instr :=
  dueIf (s.irqDue evtRing (s.fld Reg.evtIrqDelay 0 16)) .eventIrqDelay
    ++ dueIf (s.irqDue clampRing 100) .clampIrqDelay

/-- The commands that the present tick brings about, in the order of R50, then those that wait for a bring-up, and the
instructions of the cores (DESIGN CHOICE, log entries 13, 15 and 46). -/
def State.due (s : State) : List Instr :=
  let cs := s.cellOrder
  let core := if s.works then cs.flatMap s.launchDue ++ cs.flatMap s.waitTickDue ++ cs.flatMap s.edgesDue else []
  let rest := if s.works then s.coresDue else []
  if s.up then
    s.stepDue ++ core ++ s.queuesDue ++ s.pitchDue ++ s.fabDue ++ s.poolDue ++ s.powerDue ++ s.ringsDue ++ s.parked ++ rest
  else if s.barOn then s.ringsDue
  else []

/-- One tick of the pitch counter; without power or clock, or in reset, nothing happens (R411, R507, R508). -/
def State.tick (s : State) : State :=
  if s.alive then
    let t := { s with pitch := s.pitch + 1 }.tickWork
    { t with pending := t.pending ++ t.due, parked := if t.up then [] else t.parked }
  else s

end Sys2Proof.Machine
end

