-- ==== Sys2Proof/WellFormed.lean ====
section
/-! DEFINITION. Well-formed commands: the units a command names are units of the package. -/

namespace Sys2Proof

/-- A command names only units the package has: cells 0 to 511 (R16), groundsheets 0 to 11 (R20), ports 0 to 23 (R21),
command queues 0 to 63 (R454), comparators 0 to 19 (R435). -/
def Instr.wf : Instr → Bool
  | .registerWrite _ _ _ => true
  | .loReadLatch _ _ => true
  | .pitCmdLoad => true
  | .timingExchange => true
  | .sync port _ => decide (port < 24)
  | .delayReq port _ => decide (port < 24)
  | .delayResp port _ => decide (port < 24)
  | .exchangeMissing => true
  | .holdoverLimit => true
  | .launchFire c => decide (c < 512)
  | .waitTickResume c => decide (c < 512)
  | .tSealReached => true
  | .guylineContribution port _ => decide (port < 24)
  | .guylineVerdict port _ => decide (port < 24)
  | .verdictApply => true
  | .flyMerge _ => true
  | .stepEnable => true
  | .stepDisable => true
  | .modEpochWrite _ => true
  | .stepCmdSeal => true
  | .stepCmdAbort => true
  | .clearDiverge => true
  | .modGscaleWrite _ => true
  | .modGscaleCtrlWrite _ => true
  | .gatherReq _ => true
  | .gatherServe n => decide (n < 12)
  | .gatherResp _ _ => true
  | .contrib _ _ => true
  | .sliceUpdate n => decide (n < 12)
  | .dwPieceTake c _ => decide (c < 512)
  | .dwPiece _ _ => true
  | .coll _ _ => true
  | .exch _ _ => true
  | .collectiveComplete c _ => decide (c < 512)
  | .ack _ => true
  | .ackDelay _ => true
  | .channelRto _ => true
  | .chanOpen _ => true
  | .chanClose _ => true
  | .chanReset _ => true
  | .headFlitRoute port _ _ _ _ _ _ _ _ => decide (port < 24)
  | .linkFlitReceive port _ _ _ _ => decide (port < 24)
  | .creditReport port _ => decide (port < 24)
  | .txnTimeout _ => true
  | .routeEntryWrite _ _ => true
  | .portEnable p => decide (p < 24)
  | .portDisable p => decide (p < 24)
  | .unfence p => decide (p < 24)
  | .trainComplete p _ _ _ => decide (p < 24)
  | .alignComplete p => decide (p < 24)
  | .alignTimeout p => decide (p < 24)
  | .identComplete p _ _ _ _ _ => decide (p < 24)
  | .laneFault p _ => decide (p < 24)
  | .discStart => true
  | .discAbort => true
  | .discProbe port _ _ => decide (port < 24)
  | .discIdent port _ _ _ => decide (port < 24)
  | .discAssign port _ _ _ => decide (port < 24)
  | .plGet c _ => decide (c < 512)
  | .plPut c _ => decide (c < 512)
  | .xferComplete c _ _ => decide (c < 512)
  | .plGather c _ => decide (c < 512)
  | .plWait c _ => decide (c < 512)
  | .deadlineEdge c => decide (c < 512)
  | .plStream c _ => decide (c < 512)
  | .plSwait c _ => decide (c < 512)
  | .plSrelease c _ => decide (c < 512)
  | .plScancel c _ => decide (c < 512)
  | .plAltready c _ => decide (c < 512)
  | .plAlloc c _ => decide (c < 512)
  | .allocWaitEnd => true
  | .plFree c _ => decide (c < 512)
  | .plPeg c _ => decide (c < 512)
  | .plUnpeg c _ => decide (c < 512)
  | .poolCmdAlloc => true
  | .poolCmdFree => true
  | .poolCmdPeg => true
  | .poolCmdUnpeg => true
  | .clearLost => true
  | .retire => true
  | .retireCopyComplete n _ => decide (n < 12)
  | .readDir => true
  | .readFrame => true
  | .evictionStart n => decide (n < 12)
  | .evictionComplete _ _ => true
  | .bringupComplete _ => true
  | .farReadCompletion _ _ _ => true
  | .farReadTimeout _ => true
  | .scrubPass n => decide (n < 12)
  | .tmRchk c _ => decide (c < 512)
  | .tmWiden c _ => decide (c < 512)
  | .widenComplete c _ => decide (c < 512)
  | .tmCopy c _ => decide (c < 512)
  | .tmFence c _ => decide (c < 512)
  | .mxStart c _ => decide (c < 512)
  | .mxMul c _ => decide (c < 512)
  | .mxEnd c _ => decide (c < 512)
  | .mxDrainComplete c _ => decide (c < 512)
  | .mxTsw c _ => decide (c < 512)
  | .mxFence c _ => decide (c < 512)
  | .vsFence c _ => decide (c < 512)
  | .vsStat c _ => decide (c < 512)
  | .vsAnd c _ => decide (c < 512)
  | .vsOr c _ => decide (c < 512)
  | .vsXor c _ => decide (c < 512)
  | .vsNot c _ => decide (c < 512)
  | .vsShl c _ => decide (c < 512)
  | .vsShr c _ => decide (c < 512)
  | .vsSra c _ => decide (c < 512)
  | .iadd c _ => decide (c < 512)
  | .isub c _ => decide (c < 512)
  | .imul c _ => decide (c < 512)
  | .imin c _ => decide (c < 512)
  | .imax c _ => decide (c < 512)
  | .iabs c _ => decide (c < 512)
  | .iota c _ => decide (c < 512)
  | .abs c _ => decide (c < 512)
  | .neg c _ => decide (c < 512)
  | .mov c _ => decide (c < 512)
  | .expo c _ => decide (c < 512)
  | .vsAdd c _ => decide (c < 512)
  | .vsSub c _ => decide (c < 512)
  | .vsMul c _ => decide (c < 512)
  | .fma c _ => decide (c < 512)
  | .vsMax c _ => decide (c < 512)
  | .vsMin c _ => decide (c < 512)
  | .vsCmpeq c _ => decide (c < 512)
  | .vsCmpne c _ => decide (c < 512)
  | .vsCmplt c _ => decide (c < 512)
  | .vsCmple c _ => decide (c < 512)
  | .vsCmpgt c _ => decide (c < 512)
  | .vsCmpge c _ => decide (c < 512)
  | .vsSel c _ => decide (c < 512)
  | .cvt c _ => decide (c < 512)
  | .scale c _ => decide (c < 512)
  | .expf c _ => decide (c < 512)
  | .logf c _ => decide (c < 512)
  | .rcp c _ => decide (c < 512)
  | .sqrt c _ => decide (c < 512)
  | .rsqrt c _ => decide (c < 512)
  | .sigmoid c _ => decide (c < 512)
  | .tanh c _ => decide (c < 512)
  | .softplus c _ => decide (c < 512)
  | .gelu c _ => decide (c < 512)
  | .silu c _ => decide (c < 512)
  | .dRelu c _ => decide (c < 512)
  | .dLrelu c _ => decide (c < 512)
  | .dSigmoid c _ => decide (c < 512)
  | .dTanh c _ => decide (c < 512)
  | .dSoftplus c _ => decide (c < 512)
  | .dElu c _ => decide (c < 512)
  | .dExp c _ => decide (c < 512)
  | .dGelu c _ => decide (c < 512)
  | .dSilu c _ => decide (c < 512)
  | .rsum c _ => decide (c < 512)
  | .rprod c _ => decide (c < 512)
  | .rmax c _ => decide (c < 512)
  | .rmin c _ => decide (c < 512)
  | .rargmax c _ => decide (c < 512)
  | .rargmin c _ => decide (c < 512)
  | .rcnt c _ => decide (c < 512)
  | .rmean c _ => decide (c < 512)
  | .compress c _ => decide (c < 512)
  | .expand c _ => decide (c < 512)
  | .clRs c _ => decide (c < 512)
  | .clAg c _ => decide (c < 512)
  | .clAr c _ => decide (c < 512)
  | .clBcast c _ => decide (c < 512)
  | .clExch c _ => decide (c < 512)
  | .clWait c _ => decide (c < 512)
  | .clCancel c _ => decide (c < 512)
  | .add c _ => decide (c < 512)
  | .sub c _ => decide (c < 512)
  | .mul c _ => decide (c < 512)
  | .mulhu c _ => decide (c < 512)
  | .mulhs c _ => decide (c < 512)
  | .and c _ => decide (c < 512)
  | .or c _ => decide (c < 512)
  | .xor c _ => decide (c < 512)
  | .shl c _ => decide (c < 512)
  | .shr c _ => decide (c < 512)
  | .sra c _ => decide (c < 512)
  | .min c _ => decide (c < 512)
  | .max c _ => decide (c < 512)
  | .minu c _ => decide (c < 512)
  | .maxu c _ => decide (c < 512)
  | .sel c _ => decide (c < 512)
  | .addi c _ => decide (c < 512)
  | .andi c _ => decide (c < 512)
  | .ori c _ => decide (c < 512)
  | .xori c _ => decide (c < 512)
  | .shli c _ => decide (c < 512)
  | .shri c _ => decide (c < 512)
  | .srai c _ => decide (c < 512)
  | .movi c _ => decide (c < 512)
  | .movhi c _ => decide (c < 512)
  | .cmpeq c _ => decide (c < 512)
  | .cmpne c _ => decide (c < 512)
  | .cmplt c _ => decide (c < 512)
  | .cmpltu c _ => decide (c < 512)
  | .cmpge c _ => decide (c < 512)
  | .cmpgeu c _ => decide (c < 512)
  | .cmpeqi c _ => decide (c < 512)
  | .cmplti c _ => decide (c < 512)
  | .pand c _ => decide (c < 512)
  | .por c _ => decide (c < 512)
  | .pxor c _ => decide (c < 512)
  | .amov c _ => decide (c < 512)
  | .aaddi c _ => decide (c < 512)
  | .ard c _ => decide (c < 512)
  | .ld64 c _ => decide (c < 512)
  | .ld32 c _ => decide (c < 512)
  | .ld16 c _ => decide (c < 512)
  | .ld8 c _ => decide (c < 512)
  | .lds32 c _ => decide (c < 512)
  | .lds16 c _ => decide (c < 512)
  | .lds8 c _ => decide (c < 512)
  | .st64 c _ => decide (c < 512)
  | .st32 c _ => decide (c < 512)
  | .st16 c _ => decide (c < 512)
  | .st8 c _ => decide (c < 512)
  | .fadd c _ => decide (c < 512)
  | .fmul c _ => decide (c < 512)
  | .ffma c _ => decide (c < 512)
  | .fcvt c _ => decide (c < 512)
  | .br c _ => decide (c < 512)
  | .call c _ => decide (c < 512)
  | .jmp c _ => decide (c < 512)
  | .callr c _ => decide (c < 512)
  | .dbnz c _ => decide (c < 512)
  | .launchAt c _ _ => decide (c < 512)
  | .waitTick c _ => decide (c < 512)
  | .seal c _ => decide (c < 512)
  | .tick c _ => decide (c < 512)
  | .syncAbort c _ => decide (c < 512)
  | .phase c _ => decide (c < 512)
  | .hint c _ => decide (c < 512)
  | .nop c _ => decide (c < 512)
  | .sysRd c _ => decide (c < 512)
  | .sysWr c _ => decide (c < 512)
  | .sysEret c _ => decide (c < 512)
  | .sysHalt c _ => decide (c < 512)
  | .sysTrap c _ => decide (c < 512)
  | .run c => decide (c < 512)
  | .halt c => decide (c < 512)
  | .clrlq c => decide (c < 512)
  | .psuWarnAssert _ => true
  | .vinLow => true
  | .shedComplete => true
  | .psuWarnClear _ => true
  | .warnHoldExpiry => true
  | .vinCutoff => true
  | .powerReturn => true
  | .controlPeriod _ => true
  | .excursionTimeout => true
  | .airflowEstimate _ _ _ => true
  | .junctionSample _ _ => true
  | .analogTrip u => decide (u < 20)
  | .tripClear => true
  | .reread _ => true
  | .capability => true
  | .statusByte => true
  | .readVin => true
  | .readIin => true
  | .readPin => true
  | .pmbusRevision => true
  | .budgetWrite _ _ => true
  | .budgetRead => true
  | .capEff => true
  | .pmbusUnsupported _ => true
  | .hotReset => true
  | .linkLoss _ => true
  | .hostLinkTrained _ _ _ => true
  | .snoop _ => true
  | .hdmRead _ _ => true
  | .hdmWrite _ _ => true
  | .uioRequest _ => true
  | .ideIntegrityFailure _ _ => true
  | .doeDiscovery _ => true
  | .cxlTableAccess _ => true
  | .getVersion => true
  | .getCapabilities => true
  | .negotiateAlgorithms _ _ => true
  | .getDigests => true
  | .getCertificate _ _ _ => true
  | .challenge _ _ => true
  | .getMeasurements _ _ _ => true
  | .keyExchange _ => true
  | .finish _ _ => true
  | .heartbeat _ => true
  | .keyUpdate _ => true
  | .endSession _ => true
  | .query _ => true
  | .keyProg _ _ _ => true
  | .kSetGo _ _ _ => true
  | .kSetStop _ _ _ => true
  | .queueEnable q => decide (q < 64)
  | .queueDisable q => decide (q < 64)
  | .doorbell q _ => decide (q < 64)
  | .descriptorFetch _ _ => true
  | .descNop q _ => decide (q < 64)
  | .program q _ _ => decide (q < 64)
  | .programStart q _ => decide (q < 64)
  | .step q _ => decide (q < 64)
  | .copy q _ => decide (q < 64)
  | .copyComplete q _ _ _ => decide (q < 64)
  | .wait q _ => decide (q < 64)
  | .waitComplete q _ => decide (q < 64)
  | .eventRingEnable => true
  | .eventIrqDelay => true
  | .clampRingEnable => true
  | .clampIrqDelay => true
  | .loadFw => true
  | .loadUc => true
  | .loadComplete _ _ => true
  | .activateFw => true
  | .activateUc => true
  | .pair => true
  | .coldReset => true
  | .commitSvn _ => true
  | .persistPolicy _ => true
  | .coldBoot _ _ _ => true
  | .firmwareStart => true
  | .warmReset => true
  | .warmResetComplete => true
  | .rstNAssert _ => true
  | .rstNRelease => true
  | .refclkLoss => true
  | .freeze _ => true
  | .clearAll => true
  | .codewordUncorrectable p => decide (p < 24)
  | .farWriteTimeout _ => true
  | .pageReclaim n => decide (n < 12)
  | .hqFetchTimeout q => decide (q < 64)

end Sys2Proof
end

