-- ==== Sys2Proof/Safety.lean ====
section
/-! DEFINITION. What a safe run is: every command in the queue names units the package has, and no step stops. Beside it
the conditions and frames in whose terms the statements are made: when a core issues an instruction, and what an update
leaves alone. -/

namespace Sys2Proof.Machine

/-- Every command that waits is well formed. -/
def State.queueWf (s : State) : Bool := s.pending.all Instr.wf && s.parked.all Instr.wf

/-- The outcome is a next state. -/
def completes (o : Host.Outcome State Fault Refusal) : Bool :=
  match o with
  | .next _ => true
  | .fault _ => false
  | .refused _ => false

/-! ### Issue of an instruction on a core -/

/-- A core issues an instruction and its effect happens: the module works and the core is RUNNING with no other instruction
stalled in front (R406, R407, R435), its word has no uncorrectable error (R405), its guard is true (R393), and no earlier
instruction owes a register it uses (R407). -/
def Issues (s : State) (c : Nat) (i : Instr) (gneg : Bool) (gp : BitVec 3) (uses : List Nat) : Prop :=
  c < 512 ∧ s.canIssue c i = true ∧ (s.cell c).imemErr.contains (s.cell c).pc.toNat = false
    ∧ ((s.cell c).p gp.toNat ^^ gneg) = true ∧ uses.any (fun r => (s.cell c).owed.contains r) = false

/-- `t` differs from `s` in cell `c` only, beside two counters of that cell: instructions issued and corrected words of
instruction memory. Cell `c` is `k`, but for what those counters hold in the cell. -/
def CoreGoes (s t : State) (c : Nat) (k : Cell) : Prop :=
  t = { s with cells := t.cells, regs := t.regs }
    ∧ (∀ d, d ≠ c → t.cell d = s.cell d)
    ∧ (∀ off, off ≠ Reg.cellCoreInsns c → off ≠ Reg.cellImemCe c → t.reg off = s.reg off)
    ∧ t.cell c = { k with insns := (t.cell c).insns, imemCe := (t.cell c).imemCe }

/-- A cell that goes on at a word of instruction memory, with no instruction stalled. -/
def Cell.goTo (k : Cell) (pc : BitVec 12) : Cell := { k with pc := pc, stall := none }

/-- The state in which an instruction's effect is computed: its word is fetched, and for the classes that wait for it
the store buffer is written out (R390, R405). -/
def State.fetched (s : State) (c cls opc : Nat) : State :=
  if waitsStores cls opc then (s.fetchCe c).drainStores c else s.fetchCe c

/-- An instruction that is done: PC goes on by one word and the instruction is counted (R395, Table 13-13). -/
def State.goesOn (t : State) (c : Nat) (pc : BitVec 12) : State := (t.setPc c (pc.toNat + 1)).countInsn c

/-- An instruction of format R that changes its own cell only: where it issues, its word is legal (R394) and a next word
follows, it completes; the cell becomes `k` and goes on at the next word, and nothing else changes. -/
def RCompletes (s : State) (c : Nat) (i : Instr) (o : ROps) (cls opc : Nat) (uses : List Nat) (k : Cell) : Prop :=
  Issues s c i o.gneg o.gp uses → rLegal cls opc o = true → (s.cell c).pc.toNat < 4095 →
    ∃ t, exec i s = .next t ∧ CoreGoes s t c (k.goTo ((s.cell c).pc + 1))

/-- The same for an instruction of format I. -/
def ICompletes (s : State) (c : Nat) (i : Instr) (o : IOps) (cls opc : Nat) (uses : List Nat) (k : Cell) : Prop :=
  Issues s c i o.gneg o.gp uses → iLegal cls opc o = true → (s.cell c).pc.toNat < 4095 →
    ∃ t, exec i s = .next t ∧ CoreGoes s t c (k.goTo ((s.cell c).pc + 1))

/-- The same for an instruction of format U. -/
def UCompletes (s : State) (c : Nat) (i : Instr) (o : UOps) (opc : Nat) (uses : List Nat) (k : Cell) : Prop :=
  Issues s c i o.gneg o.gp uses → uLegal opc o = true → (s.cell c).pc.toNat < 4095 →
    ∃ t, exec i s = .next t ∧ CoreGoes s t c (k.goTo ((s.cell c).pc + 1))

/-- An instruction of format R: where it issues, its word is legal and a next word follows, it is done, with the state
that its effect leaves being `t`. -/
def RLeaves (s : State) (c : Nat) (i : Instr) (o : ROps) (cls opc : Nat) (uses : List Nat) (t : State) : Prop :=
  Issues s c i o.gneg o.gp uses → rLegal cls opc o = true → (s.cell c).pc.toNat < 4095 →
    exec i s = .next (t.goesOn c (s.cell c).pc)

/-- An instruction of format R: where it issues and its word is legal, it takes an exception with a cause, and its own
effect does not happen (R402). -/
def RTraps (s : State) (c : Nat) (i : Instr) (o : ROps) (cls opc : Nat) (uses : List Nat) (cause : Nat) : Prop :=
  Issues s c i o.gneg o.gp uses → rLegal cls opc o = true →
    exec i s = .next ((s.fetched c cls opc).takeExc c cls opc cause 0)

/-- The same for an instruction that reads pages before its checks: the exception is taken from the state `u` in which
the wait for them has ended (R301, R402). -/
def RTrapsIn (s : State) (c : Nat) (i : Instr) (o : ROps) (cls opc : Nat) (uses : List Nat) (u : State) (cause : Nat) :
    Prop :=
  Issues s c i o.gneg o.gp uses → rLegal cls opc o = true → exec i s = .next (u.takeExc c cls opc cause 0)

/-- An instruction of format R: where it issues and its word is legal, it stalls its core at the instruction, and nothing
else happens. -/
def RStalls (s : State) (c : Nat) (i : Instr) (o : ROps) (cls opc : Nat) (uses : List Nat) : Prop :=
  Issues s c i o.gneg o.gp uses → rLegal cls opc o = true →
    let u := s.fetched c cls opc
    exec i s = .next (u.setCell c { u.cell c with stall := some i })

/-- The state of a command that acts on one cell: every other cell as before. -/
def OtherCells (s t : State) (c : Nat) : Prop := ∀ d, d ≠ c → t.cell d = s.cell d

/-- The registers at some offsets may have changed; every other register is as before. -/
def OtherRegs (s t : State) (l : List Nat) : Prop := ∀ off, off ∉ l → t.reg off = s.reg off

/-- A byte that a vector instruction has made of a tile whose operands are not yet known to be read: a write of those
operands leaves it undefined (R153). -/
def State.openByte (s : State) (x : Nat) : Prop := ∃ p ∈ s.cells, ∃ r ∈ p.2.mxDerived, r.2.1 ≤ x ∧ x < r.2.1 + r.2.2

/-- Every byte of scratchpad outside `[a, a + n)`, but for those that R153 leaves undefined on a write, is as before. -/
def OtherBytes (s t : State) (a n : Nat) : Prop :=
  ∀ x, x < a ∨ a + n ≤ x → ¬s.openByte x → memByte t.spad x = memByte s.spad x

/-- Scratchpad and pool memory are byte for byte as before. -/
def SameMemory (s t : State) : Prop :=
  (∀ a, memByte t.spad a = memByte s.spad a) ∧ ∀ a, memByte t.hbm a = memByte s.hbm a

/-! ### Secure boot -/

/-- The commands that may write boot state: those of boot, of images and of sessions, and the resets. -/
def bootCommand : Instr → Bool
  | .vinCutoff | .powerReturn | .hotReset | .linkLoss _ | .keyExchange _ | .finish _ _ | .endSession _ => true
  | .loadFw | .loadUc | .loadComplete _ _ | .activateFw | .activateUc | .pair | .coldReset | .commitSvn _ => true
  | .persistPolicy _ | .coldBoot _ _ _ | .firmwareStart | .warmReset | .rstNAssert _ => true
  | _ => false

/-- Both images that a boot has taken pass every check of R471, under the fuses as they stand. -/
def State.imagesValid (s : State) : Prop :=
  s.imageFault false s.boot.fw = 0 ∧ s.imageFault true s.boot.uc = 0

/-- The pair in force may run: both images allow this hardware, the level is the highest that both implement, and the pair
is tested or runs under LEVEL (R475). -/
def State.pairMayRun (s : State) : Prop :=
  ∃ f u, s.boot.fw = some f ∧ s.boot.uc = some u ∧ imageOnHw f s.boot.hwl = true ∧ imageOnHw u s.boot.hwl = true
    ∧ max f.plMin u.plMin ≤ s.boot.level ∧ s.boot.level = min f.plMax u.plMax
    ∧ (pairTested f u = true ∨ s.boot.levelled = true)

/-- Secure boot: a module in RUNNING or HELD, or about to start its firmware, has taken two valid images; one that runs, or
is about to, runs a pair that R475 lets run. -/
def State.bootSafe (s : State) : Prop :=
  (s.boot.stage = .running ∨ s.boot.stage = .held ∨ s.boot.starting = true → s.imagesValid)
    ∧ (s.boot.stage = .running ∨ s.boot.starting = true → s.pairMayRun)

end Sys2Proof.Machine
end

