-- ==== Sys2Proof/Certificates/Slice0/Obligations.lean ====
section
/-! DEFINITION. The statements for the provers. -/

open Sys2Proof Sys2Proof.Machine

/-! ### The scalar class (Table 13-5) -/

/-- Integer arithmetic, logic, shifts and selection: the result goes to SD alone, and to nowhere where SD is s0. W32
arithmetic is exact and rounded once to nearest, ties to even, and the result is zero-extended (R395, R396). Immediate
forms: the immediate of format I is sign-extended from 34 bits, that of MOVI from 40; MOVHI replaces bits [63:40] and
keeps the others. FCVT takes the format pairs of Table 13-5 and raises ILLEGAL_OP on any other (R396). Compares and
predicate operations write one predicate; a write to p0 is ignored. Address registers:
AMOV takes the low 32 bits, AADDI adds modulo 2³², ARD is zero-extended. Where the manual is silent it follows the
model's choices of log entry 46. -/
def Obligations.ScalarInstructionsGiveTheirResults : Prop :=
  (∀ (s : State) (c : Nat) (o : ROps),
    let k := s.cell c
    let x := k.s o.sa.toNat
    let y := k.s o.sb.toNat
    let rr := fun (i : Instr) (opc : Nat) (v : W64) =>
      RCompletes s c i o 0x01 opc [o.sd.toNat, o.sa.toNat, o.sb.toNat] (k.setS o.sd.toNat v)
    rr (.add c o) 0x00 (x + y) ∧ rr (.sub c o) 0x01 (x - y) ∧ rr (.mul c o) 0x02 (x * y)
      ∧ rr (.mulhu c o) 0x03 (BitVec.ofNat 64 (x.toNat * y.toNat / 2 ^ 64))
      ∧ rr (.mulhs c o) 0x04 (BitVec.ofInt 64 (x.toInt * y.toInt / 2 ^ 64))
      ∧ rr (.and c o) 0x05 (x &&& y) ∧ rr (.or c o) 0x06 (x ||| y) ∧ rr (.xor c o) 0x07 (x ^^^ y)
      ∧ rr (.shl c o) 0x08 (x <<< (y.toNat % 64)) ∧ rr (.shr c o) 0x09 (x >>> (y.toNat % 64))
      ∧ rr (.sra c o) 0x0A (x.sshiftRight (y.toNat % 64))
      ∧ rr (.min c o) 0x0B (if x.toInt < y.toInt then x else y) ∧ rr (.max c o) 0x0C (if x.toInt < y.toInt then y else x)
      ∧ rr (.minu c o) 0x0D (if x.toNat < y.toNat then x else y) ∧ rr (.maxu c o) 0x0E (if x.toNat < y.toNat then y else x)
      ∧ rr (.sel c o) 0x0F (if k.p (o.x.toNat % 8) then x else y))
  ∧ (∀ (s : State) (c : Nat) (o : ROps),
    let k := s.cell c
    let f := fun n : Nat => w32Val (k.s n)
    let sd := o.sd.toNat
    let sa := o.sa.toNat
    let sb := o.sb.toNat
    let sc := o.sc.toNat
    RCompletes s c (.fadd c o) o 0x01 0x48 [sd, sa, sb]
        (k.setS sd ((rneW32 (addVal (f sa) (f sb)).1).setWidth 64))
      ∧ RCompletes s c (.fmul c o) o 0x01 0x49 [sd, sa, sb]
        (k.setS sd ((rneW32 (mulVal (f sa) (f sb))).setWidth 64))
      ∧ RCompletes s c (.ffma c o) o 0x01 0x4A [sd, sa, sb, sc]
        (k.setS sd ((rneW32 (fmaVal (f sa) (f sb) (f sc)).1).setWidth 64))
      ∧ (fcvtPair o.x.toNat = true →
        RCompletes s c (.fcvt c o) o 0x01 0x4B [sd, sa] (k.setS sd (fcvtResult o.x.toNat (k.s sa))))
      ∧ (fcvtPair o.x.toNat = false → RTraps s c (.fcvt c o) o 0x01 0x4B [sd, sa] 0x01))
  ∧ ((∀ (s : State) (c : Nat) (o : IOps),
    let k := s.cell c
    let x := k.s o.sa.toNat
    let y := o.imm.signExtend 64
    let n := o.imm.toNat % 64
    let ri := fun (i : Instr) (opc : Nat) (v : W64) =>
      ICompletes s c i o 0x01 opc [o.sd.toNat, o.sa.toNat] (k.setS o.sd.toNat v)
    ri (.addi c o) 0x10 (x + y) ∧ ri (.andi c o) 0x11 (x &&& y) ∧ ri (.ori c o) 0x12 (x ||| y)
      ∧ ri (.xori c o) 0x13 (x ^^^ y) ∧ ri (.shli c o) 0x14 (x <<< n) ∧ ri (.shri c o) 0x15 (x >>> n)
      ∧ ri (.srai c o) 0x16 (x.sshiftRight n))
  ∧ ∀ (s : State) (c : Nat) (o : UOps),
    let k := s.cell c
    let old := (k.s o.sd.toNat).toNat
    UCompletes s c (.movi c o) o 0x18 [o.sd.toNat] (k.setS o.sd.toNat (o.imm.signExtend 64))
      ∧ UCompletes s c (.movhi c o) o 0x19 [o.sd.toNat]
        (k.setS o.sd.toNat (BitVec.ofNat 64 (old % 2 ^ 40 + 2 ^ 40 * (o.imm.toNat % 2 ^ 24)))))
  ∧ ((∀ (s : State) (c : Nat) (o : ROps),
    let k := s.cell c
    let x := k.s o.sa.toNat
    let y := k.s o.sb.toNat
    let p := k.p o.sa.toNat
    let q := k.p o.sb.toNat
    let cmp := fun (i : Instr) (opc : Nat) (b : Bool) =>
      RCompletes s c i o 0x01 opc [o.sa.toNat, o.sb.toNat] (k.setP o.sd.toNat b)
    let lgc := fun (i : Instr) (opc : Nat) (b : Bool) => RCompletes s c i o 0x01 opc [] (k.setP o.sd.toNat b)
    cmp (.cmpeq c o) 0x20 (decide (x = y)) ∧ cmp (.cmpne c o) 0x21 (decide (x ≠ y))
      ∧ cmp (.cmplt c o) 0x22 (decide (x.toInt < y.toInt)) ∧ cmp (.cmpltu c o) 0x23 (decide (x.toNat < y.toNat))
      ∧ cmp (.cmpge c o) 0x24 (decide (y.toInt ≤ x.toInt)) ∧ cmp (.cmpgeu c o) 0x25 (decide (y.toNat ≤ x.toNat))
      ∧ lgc (.pand c o) 0x28 (p && q) ∧ lgc (.por c o) 0x29 (p || q) ∧ lgc (.pxor c o) 0x2A (p ^^ q))
  ∧ ∀ (s : State) (c : Nat) (o : IOps),
    let k := s.cell c
    let x := k.s o.sa.toNat
    let y := o.imm.signExtend 64
    ICompletes s c (.cmpeqi c o) o 0x01 0x26 [o.sa.toNat] (k.setP o.sd.toNat (decide (x = y)))
      ∧ ICompletes s c (.cmplti c o) o 0x01 0x27 [o.sa.toNat] (k.setP o.sd.toNat (decide (x.toInt < y.toInt))))
  ∧ (∀ (k : Cell) (v : W64) (b : Bool), k.setS 0 v = k ∧ k.s 0 = 0 ∧ k.setP 0 b = k ∧ k.p 0 = true)
  ∧ (∀ (s : State) (c : Nat) (o : ROps) (q : IOps),
    let k := s.cell c
    RCompletes s c (.amov c o) o 0x01 0x30 [o.sa.toNat] (k.setA o.ax.toNat ((k.s o.sa.toNat).setWidth 32))
      ∧ ICompletes s c (.aaddi c q) q 0x01 0x31 []
        (k.setA q.sd.toNat (k.a q.sa.toNat + (q.imm.signExtend 64).setWidth 32))
      ∧ RCompletes s c (.ard c o) o 0x01 0x32 [o.sd.toNat] (k.setS o.sd.toNat ((k.a o.ax.toNat).setWidth 64)))

/-! ### Loads and stores (R389, R390) -/

/-- A load whose address is in scratchpad and aligned (R389) returns the little-endian number stored there, zero-
extended, or sign-extended for LDS: with no buffered store on those bytes (R390) and no word of scratchpad in error
(R290) it changes SD alone. A load of bytes that the store buffer holds waits until the stores that precede it are
written, and then reads them (R390): the whole buffer is empty after it, in memory as its stores say. A store whose
address is in scratchpad and aligned goes into the store buffer while it has room, with the low bytes of SD at its
address; no byte of memory changes yet (R390). Writing one buffered store out changes the bytes that it stores, as
they stand in the entry, and no other byte of scratchpad but those that R153 leaves undefined; memory of the pool
stays. Where the manual is silent it
follows the model's choices of log entries 45, 46. -/
def Obligations.LoadsAndStoresMoveTheirBytes : Prop :=
  (∀ (s : State) (c : Nat) (o : IOps),
    let k := s.cell c
    let a := (k.a o.sa.toNat + (o.imm.signExtend 64).setWidth 32).toNat
    let ld := fun (i : Instr) (opc n : Nat) (v : W64) =>
      a % 2 ^ 23 < 6291456 → a % n = 0 → s.spadErr = [] → s.spadCe = []
        → (∀ e ∈ k.stores, e.addr + e.bytes.length ≤ a ∨ a + n ≤ e.addr)
        → ICompletes s c i o 0x01 opc [o.sd.toNat] (k.setS o.sd.toNat v)
    let w := fun n : Nat => memNat s.spad a n
    ld (.ld64 c o) 0x38 8 (BitVec.ofNat 64 (w 8)) ∧ ld (.ld32 c o) 0x39 4 (BitVec.ofNat 64 (w 4))
      ∧ ld (.ld16 c o) 0x3A 2 (BitVec.ofNat 64 (w 2)) ∧ ld (.ld8 c o) 0x3B 1 (BitVec.ofNat 64 (w 1))
      ∧ ld (.lds32 c o) 0x3C 4 ((BitVec.ofNat 32 (w 4)).signExtend 64)
      ∧ ld (.lds16 c o) 0x3D 2 ((BitVec.ofNat 16 (w 2)).signExtend 64)
      ∧ ld (.lds8 c o) 0x3E 1 ((BitVec.ofNat 8 (w 1)).signExtend 64))
  ∧ (∀ (s : State) (c : Nat) (o : IOps),
    let k := s.cell c
    let a := (k.a o.sa.toNat + (o.imm.signExtend 64).setWidth 32).toNat
    let u := (s.fetchCe c).drainStores c
    Issues s c (.ld64 c o) o.gneg o.gp [o.sd.toNat] → iLegal 0x01 0x38 o = true → k.pc.toNat < 4095
      → a % 2 ^ 23 < 6291456 → a % 8 = 0 → (∃ e ∈ k.stores, e.addr < a + 8 ∧ a < e.addr + e.bytes.length)
      → s.spadErr = [] → s.spadCe = []
      → exec (.ld64 c o) s =
          .next ((u.setCell c ((u.cell c).setS o.sd.toNat (BitVec.ofNat 64 (memNat u.spad a 8)))).goesOn c k.pc)
        ∧ (u.cell c).stores = [])
  ∧ (∀ (s : State) (c : Nat) (o : IOps),
    let k := s.cell c
    let a := (k.a o.sa.toNat + (o.imm.signExtend 64).setWidth 32).toNat
    let st := fun (i : Instr) (opc n : Nat) =>
      a % 2 ^ 23 < 6291456 → a % n = 0 → k.stores.length < 8
        → ICompletes s c i o 0x01 opc [o.sd.toNat]
            { k with stores := k.stores ++ [⟨a, leBytes n (k.s o.sd.toNat).toNat⟩] }
    st (.st64 c o) 0x40 8 ∧ st (.st32 c o) 0x41 4 ∧ st (.st16 c o) 0x42 2 ∧ st (.st8 c o) 0x43 1)
  ∧ (∀ (s : State) (c : Nat) (e : StoreEntry),
    (s.cell c).stores = [e] →
      let t := s.drainStores c
      (∀ j, j < e.bytes.length → memByte t.spad (e.addr + j) = e.bytes.getD j 0) ∧ OtherBytes s t e.addr e.bytes.length
        ∧ t.hbm = s.hbm ∧ (t.cell c).stores = [])

/-! ### Branches (Table 13-6) -/

/-- Branches whose target is a word of instruction memory go there, and a call links the next word; any other target
raises BR_TARGET. SYS.TRAP takes the exception TRAP with its code; SYS.ERET ends a handler: ACTIVE is cleared and the
core goes on at EPC; SYS.HALT stops the core as DONE; NOP only advances. SYS.WR writes EVEC, EPC, ES0 or ES1, SYS.RD
reads a control register; a write of any other index, and ERET outside a handler, are ILLEGAL_OP. Where the manual is
silent it follows the model's choices of log entries 12, 21, 46. -/
def Obligations.BranchesAndSystemInstructionsAct : Prop :=
  ((∀ (s : State) (c : Nat) (o : IOps),
    let k := s.cell c
    let tgt : Int := (k.pc.toNat : Int) + (o.imm.signExtend 64).toInt
    let at_ := BitVec.ofNat 12 tgt.toNat
    let link := k.setS o.sd.toNat (BitVec.ofNat 64 (k.pc.toNat + 1))
    let d := k.s o.sd.toNat - 1
    let go := fun (i : Instr) (opc : Nat) (uses : List Nat) (j : Cell) =>
      Issues s c i o.gneg o.gp uses → iLegal 0x02 opc o = true → ∃ t, exec i s = .next t ∧ CoreGoes s t c j
    (0 ≤ tgt → tgt ≤ 4095 → go (.br c o) 0x00 [] (k.goTo at_) ∧ go (.call c o) 0x01 [o.sd.toNat] (link.goTo at_)
        ∧ (d ≠ 0 → go (.dbnz c o) 0x04 [o.sd.toNat] ((k.setS o.sd.toNat d).goTo at_)))
      ∧ (d = 0 → k.pc.toNat < 4095 → go (.dbnz c o) 0x04 [o.sd.toNat] ((k.setS o.sd.toNat d).goTo (k.pc + 1)))
      ∧ (tgt < 0 ∨ 4095 < tgt →
          let traps := fun (i : Instr) (opc : Nat) (uses : List Nat) =>
            Issues s c i o.gneg o.gp uses → iLegal 0x02 opc o = true →
              exec i s = .next ((s.fetchCe c).takeExc c 0x02 opc 0x05 0)
          traps (.br c o) 0x00 [] ∧ traps (.call c o) 0x01 [o.sd.toNat] ∧ (d ≠ 0 → traps (.dbnz c o) 0x04 [o.sd.toNat])))
  ∧ ∀ (s : State) (c : Nat) (o : ROps),
    let k := s.cell c
    let tgt := (k.s o.sa.toNat).toNat
    let at_ := BitVec.ofNat 12 tgt
    let link := k.setS o.sd.toNat (BitVec.ofNat 64 (k.pc.toNat + 1))
    let go := fun (i : Instr) (opc : Nat) (uses : List Nat) (j : Cell) =>
      Issues s c i o.gneg o.gp uses → rLegal 0x02 opc o = true → ∃ t, exec i s = .next t ∧ CoreGoes s t c j
    (tgt ≤ 4095 → go (.jmp c o) 0x02 [o.sa.toNat] (k.goTo at_)
        ∧ go (.callr c o) 0x03 [o.sd.toNat, o.sa.toNat] (link.goTo at_))
      ∧ (4095 < tgt →
          (Issues s c (.jmp c o) o.gneg o.gp [o.sa.toNat] → rLegal 0x02 0x02 o = true →
              exec (.jmp c o) s = .next ((s.fetchCe c).takeExc c 0x02 0x02 0x05 0))
            ∧ (Issues s c (.callr c o) o.gneg o.gp [o.sd.toNat, o.sa.toNat] → rLegal 0x02 0x03 o = true →
              exec (.callr c o) s = .next ((s.fetchCe c).takeExc c 0x02 0x03 0x05 0))))
  ∧ (∀ (s : State) (c : Nat) (o : ROps),
    let k := s.cell c
    let x := o.x.toNat % 256
    let v := k.s o.sa.toNat
    let go := fun (i : Instr) (opc : Nat) (uses : List Nat) (j : Cell) =>
      Issues s c i o.gneg o.gp uses → rLegal 0x0A opc o = true → ∃ t, exec i s = .next t ∧ CoreGoes s t c j
    let traps := fun (i : Instr) (opc : Nat) (uses : List Nat) (cause trap : Nat) =>
      Issues s c i o.gneg o.gp uses → rLegal 0x0A opc o = true →
        exec i s = .next ((s.fetchCe c).takeExc c 0x0A opc cause trap)
    RCompletes s c (.nop c o) o 0x0A 0x00 [] k
      ∧ RCompletes s c (.sysRd c o) o 0x0A 0x01 [o.sd.toNat] (k.setS o.sd.toNat (BitVec.ofNat 64 ((s.fetchCe c).controlReg c x)))
      ∧ (x = 0x10 → RCompletes s c (.sysWr c o) o 0x0A 0x02 [o.sa.toNat]
          { k with evec := v.setWidth 12, evecEn := v.getLsbD 31 })
      ∧ (x = 0x11 → RCompletes s c (.sysWr c o) o 0x0A 0x02 [o.sa.toNat] { k with epc := v.setWidth 12 })
      ∧ (x = 0x14 → RCompletes s c (.sysWr c o) o 0x0A 0x02 [o.sa.toNat] { k with es0 := v })
      ∧ (x = 0x15 → RCompletes s c (.sysWr c o) o 0x0A 0x02 [o.sa.toNat] { k with es1 := v })
      ∧ (x ≠ 0x10 ∧ x ≠ 0x11 ∧ x ≠ 0x14 ∧ x ≠ 0x15 → traps (.sysWr c o) 0x02 [o.sa.toNat] 0x01 0)
      ∧ (k.active = true → go (.sysEret c o) 0x03 [] { k with active := false, pc := k.epc })
      ∧ (k.active = false → traps (.sysEret c o) 0x03 [] 0x01 0)
      ∧ go (.sysHalt c o) 0x04 [] { k with run := .done, stall := none }
      ∧ traps (.sysTrap c o) 0x05 [] 0x06 x)

/-! ### Guard, legality and exceptions (R393, R394, R402, R404) -/

/-- A false guard: the instruction does nothing but go on at the next word (R393), whatever it would have done; shown
for one instruction of each class. A LAUNCH.AT goes on after the word of its action, which is fetched with it (R398). An instruction word whose unused fields are not 0 raises ILLEGAL_OP before its
guard is looked at (R394); shown for instructions of each format. An address outside the addressable bytes of its
slice raises SC_ADDR; one inside that is not a multiple of the access size raises SC_ALIGN; nothing is loaded or
stored (R389). Taking an exception saves the cause, class, opcode and TRAP code, and the PC of the instruction. With a
handler enabled and none active the core goes on at EVEC with ACTIVE set; else it stops as FAULTED, and the event ring
is given CELL_HALT. CELL_CORE_EXC takes the cause and PC, CELL_CORE_EXCCNT counts; scratchpad, pool and the other
cells stay. Where the manual is silent it follows the model's choices of log entry 45. -/
def Obligations.GuardsAndExceptions : Prop :=
  (∀ (s : State) (c : Nat) (o : ROps) (q : IOps) (a : W64),
    let k := s.cell c
    let skips := fun (i : Instr) (gneg : Bool) (gp : BitVec 3) (legal : Bool) =>
      c < 512 → s.canIssue c i = true → k.imemErr.contains k.pc.toNat = false → (k.p gp.toNat ^^ gneg) = false →
        legal = true → k.pc.toNat < 4095 → ∃ t, exec i s = .next t ∧ CoreGoes s t c (k.goTo (k.pc + 1))
    skips (.add c o) o.gneg o.gp (rLegal 0x01 0x00 o) ∧ skips (.st64 c q) q.gneg q.gp (iLegal 0x01 0x40 q)
      ∧ skips (.br c q) q.gneg q.gp (iLegal 0x02 0x00 q) ∧ skips (.tmFence c o) o.gneg o.gp (rLegal 0x03 0x03 o)
      ∧ skips (.mxMul c o) o.gneg o.gp (rLegal 0x04 0x01 o) ∧ skips (.vsFence c o) o.gneg o.gp (rLegal 0x05 0x01 o)
      ∧ skips (.clWait c o) o.gneg o.gp (rLegal 0x06 0x08 o) ∧ skips (.plGet c o) o.gneg o.gp (rLegal 0x07 0x00 o)
      ∧ (c < 512 → s.canIssue c (.launchAt c o a) = true → k.imemErr.contains k.pc.toNat = false →
          (k.p o.gp.toNat ^^ o.gneg) = false → rLegal 0x08 0x00 o = true → k.actionLegal a = true → k.pc.toNat < 4094 →
          ∃ t, exec (.launchAt c o a) s = .next t ∧ t = { s with cells := t.cells, regs := t.regs }
            ∧ (∀ d, d ≠ c → t.cell d = s.cell d)
            ∧ t.cell c = { k.goTo (k.pc + 2) with insns := (t.cell c).insns, imemCe := (t.cell c).imemCe })
      ∧ skips (.phase c o) o.gneg o.gp (rLegal 0x09 0x00 o)
      ∧ skips (.sysTrap c o) o.gneg o.gp (rLegal 0x0A 0x05 o))
  ∧ (∀ (s : State) (c : Nat) (o : ROps) (q : IOps) (u : UOps),
    let k := s.cell c
    let traps := fun (i : Instr) (cls opc : Nat) (legal : Bool) =>
      c < 512 → s.canIssue c i = true → k.imemErr.contains k.pc.toNat = false → legal = false →
        exec i s = .next ((s.fetchCe c).takeExc c cls opc 0x01 0)
    traps (.add c o) 0x01 0x00 (rLegal 0x01 0x00 o) ∧ traps (.fcvt c o) 0x01 0x4B (rLegal 0x01 0x4B o)
      ∧ traps (.ld64 c q) 0x01 0x38 (iLegal 0x01 0x38 q) ∧ traps (.br c q) 0x02 0x00 (iLegal 0x02 0x00 q)
      ∧ traps (.movhi c u) 0x01 0x19 (uLegal 0x19 u) ∧ traps (.sysHalt c o) 0x0A 0x04 (rLegal 0x0A 0x04 o))
  ∧ (∀ (s : State) (c : Nat) (o : IOps),
    let k := s.cell c
    let a := (k.a o.sa.toNat + (o.imm.signExtend 64).setWidth 32).toNat
    let traps := fun (i : Instr) (opc n : Nat) =>
      Issues s c i o.gneg o.gp [o.sd.toNat] → iLegal 0x01 opc o = true →
        (6291456 ≤ a % 2 ^ 23 → exec i s = .next ((s.fetchCe c).takeExc c 0x01 opc 0x03 0))
          ∧ (a % 2 ^ 23 < 6291456 → a % n ≠ 0 → exec i s = .next ((s.fetchCe c).takeExc c 0x01 opc 0x04 0))
    traps (.ld64 c o) 0x38 8 ∧ traps (.ld32 c o) 0x39 4 ∧ traps (.ld16 c o) 0x3A 2 ∧ traps (.ld8 c o) 0x3B 1
      ∧ traps (.lds32 c o) 0x3C 4 ∧ traps (.lds16 c o) 0x3D 2 ∧ traps (.lds8 c o) 0x3E 1
      ∧ traps (.st64 c o) 0x40 8 ∧ traps (.st32 c o) 0x41 4 ∧ traps (.st16 c o) 0x42 2 ∧ traps (.st8 c o) 0x43 1)
  ∧ (∀ (s : State) (c cls opc cause trap : Nat), c < 512 →
    let k := s.cell c
    let t := s.takeExc c cls opc cause trap
    let j := t.cell c
    j.epc = k.pc
      ∧ j.ecause = BitVec.ofNat 32 (cause % 2 ^ 8 + 2 ^ 8 * (cls % 2 ^ 6) + 2 ^ 14 * (opc % 2 ^ 8) + 2 ^ 24 * (trap % 2 ^ 8))
      ∧ j.stall = none ∧ j.sreg = k.sreg ∧ j.areg = k.areg ∧ j.preg = k.preg
      ∧ (k.evecEn = true ∧ k.active = false → j.active = true ∧ j.pc = k.evec ∧ j.run = k.run ∧ t.out = s.out)
      ∧ (¬(k.evecEn = true ∧ k.active = false) → j.active = k.active ∧ j.pc = k.pc ∧ j.run = .faulted
          ∧ ∃ u : State, u.host = s.host ∧ u.out = s.out
            ∧ t = u.report 0x0740 (unitCell c) (c + 2 ^ 16 * (cause % 2 ^ 8) + 2 ^ 24 * b2n k.active))
      ∧ t.reg (Reg.cellCoreExc c) = BitVec.ofNat 32 (cause + 2 ^ 16 * k.pc.toNat)
      ∧ (t.reg (Reg.cellCoreExccnt c)).toNat = min ((s.reg (Reg.cellCoreExccnt c)).toNat + 1) 0xFFFFFFFF
      ∧ t.spad = s.spad ∧ t.hbm = s.hbm ∧ ∀ d, d ≠ c → t.cell d = s.cell d)

/-! ### The system class, and the host's control of a core (Tables 13-8, 13-9; R401 to R406) -/

/-- The host's RUN starts a core that is not RUNNING at its CELL_CORE_PC, with no handler active; HALT stops a RUNNING
one, giving up a stalled instruction, and leaves any other as it is; CLRLQ empties the launch queue of a core that is
not RUNNING. -/
def Obligations.HostControlsTheCore : Prop :=
  ∀ (s : State) (c : Nat), c < 512 → s.up = true →
    let k := s.cell c
    let onlyCell := fun (i : Instr) (j : Cell) =>
      ∃ t, exec i s = .next t ∧ t = { s with cells := t.cells } ∧ t.cell c = j ∧ ∀ d, d ≠ c → t.cell d = s.cell d
    (k.run ≠ .running → onlyCell (.run c) { k with run := .running, active := false, stall := none })
      ∧ (k.run = .running → onlyCell (.run c) k ∧ onlyCell (.halt c) { k with run := .halted, stall := none }
          ∧ onlyCell (.clrlq c) k)
      ∧ (k.run ≠ .running → onlyCell (.halt c) k)
      ∧ (k.run ≠ .running → ∃ t, exec (.clrlq c) s = .next t ∧ t = { s with cells := t.cells } ∧ (t.cell c).lq = []
          ∧ (t.cell c).run = k.run ∧ (t.cell c).pc = k.pc ∧ (t.cell c).sreg = k.sreg
          ∧ ∀ d, d ≠ c → t.cell d = s.cell d)

/-! ### Timed and sync, launch (R45 to R49, R399, R400) -/

/-- TICK reads the pitch count. WAIT.TICK goes on where the count has reached its tick and stalls the core where it
has not; WAIT_TICK_RESUME ends that stall once the count has reached the tick (R49). SEAL seals the step from its cell
at the tick in SA, SYNC.ABORT raises USER_ABORT in the current epoch, PHASE marks a phase on the die of its cell and
HINT announces one there (R266, R271, R422, R424). A marked phase is the die's current phase and its sample starts
now, unless a cell that comes later in the order of R53 has marked one in this tick already; hints of it within 1,024
ticks are gone. A hint is queued in order of arrival while it lies ahead, is new, and fewer than 16 wait. A flag raised
for the current epoch counts in the step while it is OPEN and T_seal has not come, and for the next step afterwards;
one for the next epoch counts for the next step; any other is dropped and counted (R271). In the application tick a
flag waits for the step that begins there (R259). Where the manual is silent it follows the model's choices of log entry 50. -/
def Obligations.TickSealAndMarksAct : Prop :=
  (∀ (s : State) (c : Nat) (o : ROps),
    let k := s.cell c
    let target := (k.s o.sa.toNat).toNat
    RCompletes s c (.tick c o) o 0x08 0x03 [o.sd.toNat] (k.setS o.sd.toNat (BitVec.ofNat 64 s.pitch))
      ∧ (target ≤ s.pitch → RCompletes s c (.waitTick c o) o 0x08 0x01 [o.sa.toNat] k)
      ∧ (s.pitch < target → RStalls s c (.waitTick c o) o 0x08 0x01 [o.sa.toNat])
      ∧ (c < 512 → s.works = true → k.run = .running → k.stall = some (.waitTick c o) → target ≤ s.pitch →
          k.pc.toNat < 4095 → ∃ t, exec (.waitTickResume c) s = .next t ∧ CoreGoes s t c (k.goTo (k.pc + 1)))
      ∧ (k.stall = some (.waitTick c o) → s.pitch < target → c < 512 → exec (.waitTickResume c) s = .next s))
  ∧ ((∀ (s : State) (c : Nat) (o : ROps),
    let u := s.fetchCe c
    let x := o.x.toNat % 256
    let v := ((s.cell c).s o.sa.toNat).toNat
    RLeaves s c (.seal c o) o 0x08 0x02 [o.sa.toNat] (u.cellSeal c v)
      ∧ RLeaves s c (.syncAbort c o) o 0x08 0x04 [] (u.raiseFlag 8 s.epoch)
      ∧ RLeaves s c (.phase c o) o 0x09 0x00 [] (u.markPhase c x)
      ∧ RLeaves s c (.hint c o) o 0x09 0x01 [o.sa.toNat] (u.addHint (c / 64) x v))
  ∧ (∀ (s : State) (c n : Nat), c < 512 → n < 256 →
    let d := c / 64
    let t := s.markPhase c n
    (s.outranked c = false → t.phaseOf d = n ∧ (t.phaseAcc d).start = s.pitch)
      ∧ (s.outranked c = true → t.phaseOf d = s.phaseOf d ∧ t.phaseAcc d = s.phaseAcc d)
      ∧ SameMemory s t
      ∧ t.hintsOf d = (s.hintsOf d).filter (fun h => !(h.1 == n && h.2 ≤ s.pitch + 1024 && s.pitch < h.2 + 1024)))
  ∧ ∀ (s : State) (d n t : Nat),
    let l := s.hintsOf d
    (t ≤ s.pitch ∨ (n, t) ∈ l → s.addHint d n t = s)
      ∧ (s.pitch < t → (n, t) ∉ l → l.length < 16 → (s.addHint d n t).hintsOf d = l ++ [(n, t)])
      ∧ (s.pitch < t → (n, t) ∉ l → 16 ≤ l.length → s.addHint d n t = s.bump Reg.pwrHintDrop))
  ∧ (∀ (s : State) (f : BitVec 4) (e : W32),
    let k := s.step
    let t := s.raiseFlag f e
    let now := k.mode = .opened ∧ s.pastSeal = false
    let applied := s.atVerdict = true
    (s.stepping = true → e = s.epoch → ¬applied → now → t.step = { k with flags := k.flags ||| f })
      ∧ (s.stepping = true → e = s.epoch → ¬applied → ¬now → t.step = { k with pend := k.pend ||| f })
      ∧ (s.stepping = true → e = s.epoch + 1 → ¬applied → t.step = { k with pend := k.pend ||| f })
      ∧ (s.stepping = true → e = s.epoch → applied → t.step = { k with early := k.early ||| f })
      ∧ (s.stepping = true → e = s.epoch + 1 → applied → t.step = { k with earlyNext := k.earlyNext ||| f })
      ∧ (s.stepping = false ∨ (e ≠ s.epoch ∧ e ≠ s.epoch + 1) →
          t.step = k ∧ (t.reg Reg.modFlagsDropped).toNat = min ((s.reg Reg.modFlagsDropped).toNat + 1) 0xFFFFFFFF))

/-- LAUNCH.AT puts its action into the launch queue of its cell and goes on after the action's word: where the action
may be one, its word is legal, the queue has room and its checks raise nothing (R45, R46, R398, R399). A PHASE action
whose target lies ahead is queued as it stands; a target that is not ahead of the count makes the entry late, and it
fires within the tick (R47). LAUNCH_FIRE takes the entry that fires next off the launch queue and hands its action to
its unit, and the late entries follow the last that is on time; a late one is counted at the cell and at the pitch unit
(R47, R48). Entries on time fire before late ones. Where the manual is silent it follows the model's
choices of log entry 38. -/
def Obligations.LaunchQueuesAndFires : Prop :=
  (∀ (s : State) (c : Nat) (o : ROps) (w : W64),
    let k := s.cell c
    let u := (s.fetchNext c).fetched c 0x08 0x00
    let cls := wordClass w
    let opc := wordOpc w
    let target := (k.s o.sa.toNat).toNat
    let done := fun t : State =>
      exec (.launchAt c o w) s = .next ((t.setPc c (k.pc.toNat + 2)).countInsn c)
    Issues s c (.launchAt c o w) o.gneg o.gp (o.sa.toNat :: actionUses k cls opc (wordR w)) → rLegal 0x08 0x00 o = true →
      k.actionLegal w = true → k.pc.toNat < 4094 → k.imemErr.contains (k.pc.toNat + 1) = false →
      actionBad (u.cell c) cls opc (wordR w) = false → (u.cell c).lq.length < 16 →
        (∀ t, queueAction c target cls opc (wordR w) u = .done t → done t)
          ∧ (cls = 0x09 → opc = 0x00 →
              let e : LaunchEntry := ⟨target, decide (target ≤ s.pitch), .phase ((wordR w).x.toNat % 256)⟩
              let v := u.setCell c { u.cell c with lq := (u.cell c).lq ++ [e] }
              (s.pitch < target → done v)
                ∧ (target ≤ s.pitch → done (State.fireLate c ((u.cell c).lq.length + 1) v))))
  ∧ ((∀ (s : State) (c : Nat) (e : LaunchEntry),
    let k := s.cell c
    let u := s.setCell c { k with lq := k.lq.erase e }
    let t := (if e.isLate s.pitch then (u.bump (Reg.cellLaunchLate c)).bump Reg.pitLaunchLate else u).fireWork c e.work
    c < 512 → s.works = true → pickLaunch s.pitch k.lq = some e →
      exec (.launchFire c) s = .next (State.fireLate c (t.cell c).lq.length t)
        ∧ ∀ b, e.work = .altready b → (∀ x, pickLaunch s.pitch (k.lq.erase e) = some x → x.isLate s.pitch = false) →
          ∃ t, exec (.launchFire c) s = .next t ∧ (t.cell c).altReady = b
            ∧ (t.cell c).lq = k.lq.erase e ∧ OtherCells s t c ∧ t.spad = s.spad ∧ t.hbm = s.hbm)
  ∧ ∀ (pitch : Nat) (l : List LaunchEntry) (e x : LaunchEntry),
    x ∈ l → x.target = pitch → x.late = false → pickLaunch pitch l = some e → e.target = pitch ∧ e.late = false)

/-! ### The vector engine (chapter 6) -/

/-- Every vector operation whose control word is in order, that passes the checks of Table 6-8 at issue, joins the
vector queue of its cell, which has room; the engines then run as far as their inputs allow, and the core goes on
(R183). VS.FENCE goes on once the queue is empty, else it stalls. VS.STAT then returns CELL_VS_STATUS, clearing it
where asked (R184, R185). After either the program knows that the tiles which completed instructions read had their
operands read (R153). A vector instruction that a check refuses raises the first cause of Table 6-8 and does not
join the queue (R186); a full queue stalls the core. Where the manual is silent it follows the model's choices of log
entry 27. -/
def Obligations.VectorInstructionsAreQueuedOrRefused : Prop :=
  (∀ (s : State) (c : Nat) (o : ROps),
    let k := s.cell c
    let v := k.vsOp o
    let u := s.fetched c 0x05 0x00
    let q := fun (i : Instr) (op : Nat) =>
      (vctl v.ctl).op = op → ¬((vctl v.ctl).rnd = 1 ∧ 61 < o.sa.toNat) → (u.cell c).vsq.length < 8 →
        u.checkVs c true true v = none →
          RLeaves s c i o 0x05 0x00 (vsUses o v) ((u.vsPush c v).runEngines c)
    let status := BitVec.setWidth 64 (u.reg (Reg.cellVsStatus c))
    q (.vsAnd c o) 0x01 ∧ q (.vsOr c o) 0x02 ∧ q (.vsXor c o) 0x03 ∧ q (.vsNot c o) 0x04 ∧ q (.vsShl c o) 0x05
      ∧ q (.vsShr c o) 0x06 ∧ q (.vsSra c o) 0x07 ∧ q (.iadd c o) 0x08 ∧ q (.isub c o) 0x09 ∧ q (.imul c o) 0x0A
      ∧ q (.imin c o) 0x0B ∧ q (.imax c o) 0x0C ∧ q (.iabs c o) 0x0D ∧ q (.iota c o) 0x0E ∧ q (.abs c o) 0x0F
      ∧ q (.neg c o) 0x10 ∧ q (.mov c o) 0x11 ∧ q (.expo c o) 0x12 ∧ q (.vsAdd c o) 0x20 ∧ q (.vsSub c o) 0x21
      ∧ q (.vsMul c o) 0x22 ∧ q (.fma c o) 0x23 ∧ q (.vsMax c o) 0x24 ∧ q (.vsMin c o) 0x25 ∧ q (.vsCmpeq c o) 0x26
      ∧ q (.vsCmpne c o) 0x27 ∧ q (.vsCmplt c o) 0x28 ∧ q (.vsCmple c o) 0x29 ∧ q (.vsCmpgt c o) 0x2A
      ∧ q (.vsCmpge c o) 0x2B ∧ q (.vsSel c o) 0x2C ∧ q (.cvt c o) 0x2D ∧ q (.scale c o) 0x2E ∧ q (.expf c o) 0x30
      ∧ q (.logf c o) 0x31 ∧ q (.rcp c o) 0x32 ∧ q (.sqrt c o) 0x33 ∧ q (.rsqrt c o) 0x34 ∧ q (.sigmoid c o) 0x35
      ∧ q (.tanh c o) 0x36 ∧ q (.softplus c o) 0x37 ∧ q (.gelu c o) 0x38 ∧ q (.silu c o) 0x39 ∧ q (.dRelu c o) 0x40
      ∧ q (.dLrelu c o) 0x41 ∧ q (.dSigmoid c o) 0x42 ∧ q (.dTanh c o) 0x43 ∧ q (.dSoftplus c o) 0x44
      ∧ q (.dElu c o) 0x45 ∧ q (.dExp c o) 0x46 ∧ q (.dGelu c o) 0x48 ∧ q (.dSilu c o) 0x49 ∧ q (.rsum c o) 0x50
      ∧ q (.rprod c o) 0x51 ∧ q (.rmax c o) 0x52 ∧ q (.rmin c o) 0x53 ∧ q (.rargmax c o) 0x54 ∧ q (.rargmin c o) 0x55
      ∧ q (.rcnt c o) 0x56 ∧ q (.rmean c o) 0x57 ∧ q (.compress c o) 0x60 ∧ q (.expand c o) 0x61
      ∧ ((u.cell c).vsq = [] → RLeaves s c (.vsFence c o) o 0x05 0x01 [] (u.setCell c (u.cell c).vsKnown)
          ∧ RLeaves s c (.vsStat c o) o 0x05 0x02 [o.sd.toNat]
              (let t := if o.x.toNat % 2 = 1 then u.setReg (Reg.cellVsStatus c) 0 else u
               let w := t.setCell c (t.cell c).vsKnown
               w.setCell c ((w.cell c).setS o.sd.toNat status)))
      ∧ ((u.cell c).vsq ≠ [] → RStalls s c (.vsFence c o) o 0x05 0x01 []
          ∧ RStalls s c (.vsStat c o) o 0x05 0x02 [o.sd.toNat]))
  ∧ (∀ (s : State) (c : Nat) (o : ROps) (e : Nat),
    let v := (s.cell c).vsOp o
    let u := s.fetched c 0x05 0x00
    (vctl v.ctl).op = 0x20 → ¬((vctl v.ctl).rnd = 1 ∧ 61 < o.sa.toNat) →
      ((u.cell c).vsq.length < 8 → u.checkVs c true true v = some e →
          RTraps s c (.vsAdd c o) o 0x05 0x00 (vsUses o v) e)
        ∧ (8 ≤ (u.cell c).vsq.length → RStalls s c (.vsAdd c o) o 0x05 0x00 (vsUses o v)))

/-- An idle vector engine executes an instruction without accumulator sources at once. Executing a vector instruction
writes scratchpad in the bytes of its results and in those that R153 leaves undefined, leaves the pool, every other cell's registers and its
own address and predicate registers alone, and writes one scalar register where it has a scalar result, SD, with that
result (R163, R170, R175). Elements of the main path: integer results saturate into I32 or U16 (R173); AND, OR and XOR
are bitwise; NEG of an H16 or W32 value that is not a NaN flips its sign bit alone; a NaN leaves as the canonical one
(R122). Where the manual is silent it follows the model's choices of log entries 28, 49. -/
def Obligations.VectorExecutionFollowsItsRules : Prop :=
  (∀ (s : State) (c : Nat) (v : VsOp),
    s.works = true → (s.cell c).vsq = [] → (s.cell c).mxq = [] → v.handles = [] →
      let t := s.vsPush c v
      t.runEngines c = (t.setCell c { t.cell c with vsq := [] }).vsExecOn c v)
  ∧ (∀ (s : State) (c : Nat) (v : VsOp),
    let t := s.vsExecOn c v
    let rl := v.rowLen (s.cell c).vecShape
    let r := s.vRun c v rl (s.vActive v)
    let w := (vctl v.ctl).writesSd
    (∀ a, (∀ x ∈ r.writes, a < x.addr ∨ x.addr + x.bytes.length ≤ a) → ¬s.openByte a →
        memByte t.spad a = memByte s.spad a)
      ∧ t.hbm = s.hbm ∧ (t.cell c).areg = (s.cell c).areg ∧ (t.cell c).preg = (s.cell c).preg
      ∧ (∀ d, d ≠ c → (t.cell d).sreg = (s.cell d).sreg ∧ (t.cell d).areg = (s.cell d).areg ∧ (t.cell d).preg = (s.cell d).preg)
      ∧ (w = true → ∀ n, (t.cell c).s n = if n = v.sd ∧ n ≠ 0 then BitVec.ofNat 64 r.sd else (s.cell c).s n)
      ∧ (w = false → (t.cell c).sreg = (s.cell c).sreg))
  ∧ (∀ (fa fb fd i a b : Nat), fa = 7 ∨ fa = 8 → fd = 7 ∨ fd = 8 →
    let lo : Int := if fd = 7 then -(2 ^ 31) else 0
    let hi : Int := if fd = 7 then 2 ^ 31 - 1 else 65535
    let held := fun (op : Nat) (x : Int) => lo ≤ x → x ≤ hi → vsMain op fa fb fd i a b = (i32Bits x, false)
    let x := intOf fa a
    let y := intOf fb b
    held 0x08 (x + y) ∧ held 0x09 (x - y) ∧ held 0x0A (x * y) ∧ held 0x0B (min x y) ∧ held 0x0C (max x y)
      ∧ held 0x0D (if x < 0 then -x else x)
      ∧ (hi < x + y → vsMain 0x08 fa fb fd i a b = (i32Bits hi, true))
      ∧ (x + y < lo → vsMain 0x08 fa fb fd i a b = (i32Bits lo, true))
      ∧ vsMain 0x01 fa fb fd i a b = (a &&& b, false) ∧ vsMain 0x02 fa fb fd i a b = (a ||| b, false)
      ∧ vsMain 0x03 fa fb fd i a b = (a ^^^ b, false))
  ∧ (∀ (fb fd i a b : Nat),
    let neg := fun (fa : Nat) (nan : Bool) (sign canon : Nat) =>
      vsMain 0x10 fa fb fd i a b = (if nan then canon else a ^^^ sign, false)
    neg 4 (isNanVal (decH16 a)) 0x8000 0x7F80 ∧ neg 5 (isNanVal (decW32 (BitVec.ofNat 32 a))) 0x80000000 0x7FE00000)

/-! ### The matrix engine (chapter 5) -/

/-- MX.START, MX.MUL and MX.END that pass their checks join the matrix queue of their cell, which has room (R152,
R154), where the layer's descriptor that a check reads is not in the far tier (R301); one that a check refuses raises
its cause. MX.TSW returns the status word of its handle once no matrix
instruction on it waits, and MX.FENCE goes on once its condition holds; both stall until then (R150, R151). A drain to
scratchpad that its slice holds ends with the elements of its tile at its address, in row order, and the status word
after them; no other byte changes but those that R153 leaves undefined, and the tile has left the cell (R146, R147). The engines are idle here. MX.END ends its live tile: the
status word of the tile is kept for MX.TSW and in CELL_TSW_LAST, and the tile drains, or is gone where its destination
is none (R116, R146). Where the manual is silent it follows the model's choices of log entry 23. -/
def Obligations.MatrixInstructionsQueueAndDrain : Prop :=
  (∀ (s : State) (c : Nat) (o : ROps),
    let k := s.cell c
    let u := s.fetched c 0x04 0x00
    let h := o.x.toNat % 4
    let j := u.cell c
    let g := u.goOn (.core c)
    let q := fun (i : Instr) (opc : Nat) (uses : List Nat) =>
      let m := k.mxOp s.epoch opc o
      let near := j.mxq.length < 8 ∧ u.farNeed (.core c) (u.checkPages m) = []
      (near → g.checkMx c true true m = none → RLeaves s c i o 0x04 opc uses ((g.mxPush c m).runEngines c))
        ∧ (∀ e, near → g.checkMx c true true m = some e → RTrapsIn s c i o 0x04 opc uses g e)
        ∧ (8 ≤ j.mxq.length → RStalls s c i o 0x04 opc uses)
    q (.mxStart c o) 0x00 [o.sa.toNat] ∧ q (.mxMul c o) 0x01 [o.sa.toNat, o.sb.toNat, o.sc.toNat]
      ∧ q (.mxEnd c o) 0x02 [o.sa.toNat]
      ∧ ((∀ m ∈ j.mxq, m.handle ≠ h) →
          RLeaves s c (.mxTsw c o) o 0x04 0x03 [o.sd.toNat] (u.setCell c ((j.settle (· == h)).setS o.sd.toNat (j.tswOf h))))
      ∧ ((∃ m ∈ j.mxq, m.handle = h) → RStalls s c (.mxTsw c o) o 0x04 0x03 [o.sd.toNat])
      ∧ (u.mxDone c (o.x.toNat % 2 == 1) = true →
          RLeaves s c (.mxFence c o) o 0x04 0x04 [] (u.setCell c (j.settle (fun _ => true))))
      ∧ (u.mxDone c (o.x.toNat % 2 == 1) = false → RStalls s c (.mxFence c o) o 0x04 0x04 []))
  ∧ (∀ (s : State) (c h a : Nat) (tile : Tile),
    let k := s.cell c
    let bs := tile.elems.flatMap (fun e => leBytes 4 e.toNat) ++ leBytes 8 (tswWord tile.tsw).toNat
    c < 512 → s.works = true → k.drained h = some tile → tile.phase = .spad a → k.mxq = [] → k.vsq = [] →
      a % 2 ^ 23 + bs.length ≤ 6291456 →
      ∃ t, exec (.mxDrainComplete c h) s = .next t ∧ t.hbm = s.hbm
        ∧ (∀ j, j < bs.length → memByte t.spad (a + j) = bs.getD j 0) ∧ OtherBytes s t a bs.length
        ∧ (∀ y ∈ (t.cell c).tiles, ¬(y.h = h ∧ y.phase = .spad a))
        ∧ (t.cell c).sreg = k.sreg ∧ ((∀ p ∈ s.cells, p.2.mxReads = []) → (t.cell c).lastTsw = k.lastTsw))
  ∧ (∀ (s : State) (c : Nat) (tile : Tile) (w : W64) (dst : W32),
    let t := s.execFinOn c tile w dst
    let word := tswWord tile.tsw
    c < 512 → tile.null = false → alistGet (t.cell c).lastTsw tile.h = some word
      ∧ t.reg (Reg.cellTswLastLo c) = BitVec.ofNat 32 word.toNat
      ∧ t.reg (Reg.cellTswLastHi c) = BitVec.ofNat 32 (word.toNat / 2 ^ 32)
      ∧ (∀ x ∈ (t.cell c).tiles, ¬(x.h = tile.h ∧ x.phase = .live))
      ∧ (field w.toNat 1 0 = 1 → ∃ x ∈ (t.cell c).tiles, x.h = tile.h ∧ x.phase = .spad dst.toNat ∧ x.elems = tile.elems)
      ∧ SameMemory s t)

/-! ### Tile moves (chapter 7; R397) -/

/-- TM.COPY copies where its length, alignment and extents are in order, and raises TM_ADDR where they are not. Each byte
of the destination takes its source byte, unless that one is overwritten too and is not the same byte; no other byte of
scratchpad changes but those that R153 leaves undefined (R170, R397). TM.FENCE goes on once no widen of its cell is under way. TM.RCHK returns its result word in SD and leaves the
state that the check leaves, where the layer's descriptor is not in the far tier (R204, R301). TM.WIDEN starts a widen, whose SD is owed until it ends, where its checks pass and
a tag is free; a check that fails raises its cause (R207). WIDEN_COMPLETE ends a widen whose fetch has ended: SD takes
0 where the tile came, 1 where the answer was stale, 2 where the fetch failed, and is owed no longer; the widen is
gone, and no byte outside scratchpad changes (R208, R209). Where the manual is silent it follows the model's choices
of log entries 22, 33, 35, 49. -/
def Obligations.TileMovesCopyAndWiden : Prop :=
  ((∀ (s : State) (c : Nat) (o : ROps),
    let k := s.cell c
    let u := s.fetched c 0x03 0x02
    let n := 64 * ((k.s o.sa.toNat).toNat % 2 ^ 24)
    let src := (k.a o.ax.toNat).toNat
    let dst := (k.a o.ay.toNat).toNat
    let ok := n ≠ 0 ∧ src % 64 = 0 ∧ dst % 64 = 0 ∧ src % 2 ^ 23 + n ≤ 6291456 ∧ dst % 2 ^ 23 + n ≤ 6291456
    (ok → RLeaves s c (.tmCopy c o) o 0x03 0x02 [o.sa.toNat] (u.copySpad n src dst))
      ∧ (¬ok → RTraps s c (.tmCopy c o) o 0x03 0x02 [o.sa.toNat] 0x31))
  ∧ ∀ (s : State) (n src dst : Nat),
    let t := s.copySpad n src dst
    (∀ j, j < n → src = dst ∨ src + j < dst ∨ dst + n ≤ src + j → memByte t.spad (dst + j) = memByte s.spad (src + j))
      ∧ OtherBytes s t dst n ∧ t.hbm = s.hbm)
  ∧ (∀ (s : State) (c : Nat) (o : ROps),
    let k := s.cell c
    let u := s.fetched c 0x03 0x00
    let src := (k.a o.ax.toNat).toNat
    let dst := (k.a o.ay.toNat).toNat
    let uses := [o.sd.toNat, o.sa.toNat, o.sb.toNat]
    ((u.cell c).widens = [] → RLeaves s c (.tmFence c o) o 0x03 0x03 [] u)
      ∧ ((u.cell c).widens ≠ [] → RStalls s c (.tmFence c o) o 0x03 0x03 [])
      ∧ (u.farNeed (.core c) (u.layerPages ((k.s o.sb.toNat).toNat % 2 ^ 20)) = [] →
          let r := (u.goOn (.core c)).rchk c (k.s o.sa.toNat) (k.s o.sb.toNat)
          RLeaves s c (.tmRchk c o) o 0x03 0x00 uses (r.2.setCell c ((r.2.cell c).setS o.sd.toNat r.1)))
      ∧ (∀ tag, u.checkWiden c src dst (k.s o.sb.toNat) = none → u.nextTag = some tag →
          RLeaves s c (.tmWiden c o) o 0x03 0x01 uses (u.startWiden c tag src dst o.sd.toNat (k.s o.sa.toNat) (k.s o.sb.toNat)))
      ∧ (∀ e, u.checkWiden c src dst (k.s o.sb.toNat) = some e → RTraps s c (.tmWiden c o) o 0x03 0x01 uses e))
  ∧ (∀ (s : State) (c w : Nat) (x : Widen),
    let k := s.cell c
    let ends := fun v : Nat => ∃ t, exec (.widenComplete c w) s = .next t
      ∧ (∀ n, (t.cell c).s n = if n = x.sd ∧ n ≠ 0 then BitVec.ofNat 64 v else k.s n)
      ∧ (t.cell c).owed = k.owed.erase x.sd ∧ alistGet (t.cell c).widens w = none ∧ t.hbm = s.hbm
    c < 512 → s.works = true → alistGet k.widens w = some x →
      (∀ h bs, x.resp = some (h, bs) → hdrFlag h 4 = true → ends 1)
        ∧ (∀ h bs, x.resp = some (h, bs) → hdrFlag h 4 = false → h.fmt.toNat ≤ 8 → ends 0)
        ∧ (x.resp = none → x.failed = true → ends 2))

/-! ### Transfers, gathers and the late policy (chapter 10) -/

/-- PL.GET, PL.PUT and PL.GATHER that pass their checks take a free handle, return it in SD and hold the transfer
under it, begun and not complete; a check that fails raises its cause (R306, R307, R309). A gather reads its layer's
descriptor under wide-lock, which here is not in the far tier. PL.WAIT on a transfer that
is complete returns its result word in SD and frees the handle; on one that is not, and that has no deadline or one
that lies ahead, or whose response came to the port in time (R51), it stalls; on a handle that is not in use it raises PL_HANDLE (R314). The deadline of a get that a
stalled core waits for passes while switching is off: the transfer is marked missed and the miss is counted; the core
still waits (R313, R314). Where the manual is silent it follows the model's choices of log entry 5. -/
def Obligations.TransfersStartAndEnd : Prop :=
  (∀ (s : State) (c : Nat) (o : ROps),
    let k := s.cell c
    let u := s.fetched c 0x07 0x00
    let a := k.s o.sa.toNat
    let w := k.s o.sb.toNat
    let dst := (k.a o.ax.toNat).toNat
    let uses := [o.sd.toNat, o.sa.toNat, o.sb.toNat]
    let takes := fun (i : Instr) (opc : Nat) (us : List Nat) (kind : XferKind) (addr : W64) =>
      Issues s c i o.gneg o.gp us → rLegal 0x07 opc o = true → k.pc.toNat < 4095 → (u.cell c).freeHandles ≠ [] →
        ∃ (h : Nat) (t : State) (x : Xfer), exec i s = .next (t.goesOn c k.pc) ∧ h ∈ (u.cell c).freeHandles
          ∧ (o.sd.toNat ≠ 0 → (t.cell c).s o.sd.toNat = BitVec.ofNat 64 h)
          ∧ alistGet (t.cell c).xfers h = some x ∧ x.kind = kind ∧ x.addr = addr ∧ x.spad = dst ∧ x.complete = false
          ∧ x.epoch = s.epoch
    (checkPool false c a w dst = none → takes (.plGet c o) 0x00 uses .get a)
      ∧ (checkPool true c a w dst = none → takes (.plPut c o) 0x01 uses .put a)
      ∧ (∀ tag, checkGather c w dst = none → u.nextTag = some tag → u.farNeed (.core c) (u.gatherReads a) = [] →
          takes (.plGather c o) 0x02 (uses ++ [o.sc.toNat]) .gather w)
      ∧ (∀ e, checkPool false c a w dst = some e → RTraps s c (.plGet c o) o 0x07 0x00 uses e)
      ∧ (∀ e, checkPool true c a w dst = some e → RTraps s c (.plPut c o) o 0x07 0x01 uses e)
      ∧ (∀ e, checkGather c w dst = some e → RTraps s c (.plGather c o) o 0x07 0x02 (uses ++ [o.sc.toNat]) e)
      ∧ ((u.cell c).freeHandles = [] → checkPool false c a w dst = none → RStalls s c (.plGet c o) o 0x07 0x00 uses))
  ∧ (∀ (s : State) (c : Nat) (o : ROps) (x : Xfer),
    let k := s.cell c
    let u := s.fetched c 0x07 0x03
    let h := (k.s o.sa.toNat).toNat
    let uses := [o.sd.toNat, o.sa.toNat]
    (h < 64 → alistGet k.xfers h = some x → x.fired = true → x.complete = true →
        RLeaves s c (.plWait c o) o 0x07 0x03 uses
          (u.setCell c ({ u.cell c with xfers := tabDel h (u.cell c).xfers }.setS o.sd.toNat (BitVec.ofNat 64 x.result))))
      ∧ (h < 64 → alistGet k.xfers h = some x → x.complete = false →
          (x.dlEn = false ∨ (s.pitch : Int) < x.deadline ∨ s.onTime x = true) →
          RStalls s c (.plWait c o) o 0x07 0x03 uses)
      ∧ (64 ≤ h ∨ alistGet k.xfers h = none → RTraps s c (.plWait c o) o 0x07 0x03 uses 0x43))
  ∧ (∀ (s : State) (c : Nat) (o : ROps) (x : Xfer),
    let k := s.cell c
    let h := (k.s o.sa.toNat).toNat
    c < 512 → s.works = true → k.run = .running → k.stall = some (.plWait c o) → h < 64 → alistGet k.xfers h = some x →
      x.fired = true → x.complete = false → x.missed = false → x.dlEn = true → x.deadline ≤ (s.pitch : Int) →
      s.onTime x = false → x.kind = .get → s.fld (Reg.cellLateCtrl c) 0 1 = 0 →
        ∃ t, exec (.deadlineEdge c) s = .next t
          ∧ alistGet (t.cell c).xfers h = some { x with switchTried := true, narrowTried := true, missed := true,
                                                        flags := x.flags ||| 8 }
          ∧ (t.cell c).stall = some (.plWait c o) ∧ (t.cell c).pc = k.pc ∧ (t.cell c).sreg = k.sreg
          ∧ (t.reg (Reg.cellDeadlineMiss c)).toNat = min ((s.reg (Reg.cellDeadlineMiss c)).toNat + 1) 0xFFFFFFFF
          ∧ SameMemory s t ∧ OtherCells s t c)

/-- XFER_COMPLETE of a raw get from the pool whose pages are resident writes the pool's bytes at its scratchpad
address, and no other byte of scratchpad but those that R153 leaves undefined; the transfer is complete, and the
pool's bytes stay (R307). XFER_COMPLETE of
a raw put into resident pages reads the scratchpad, writes the pool and completes the transfer; a transfer on a page
that is not served fails with reason 1 and XFER_FAULT (R295, R307, R522). GATHER_RESP ends the transaction that it
answers and hands the tile to its owner; one that answers none is counted and dropped (R357). A gather whose tile
comes in a format that is not reserved and fits its capacity is complete (R309). Where the manual is silent it follows
the model's choices of log entries 47, 48, 49. -/
def Obligations.TransfersMoveTheirBytes : Prop :=
  (∀ (s : State) (c h st : Nat) (x : Xfer),
    let k := s.cell c
    let a := x.addr.toNat
    let n := 64 * x.cap
    c < 512 → h < 64 → s.works = true → alistGet k.xfers h = some x → x.fired = true → x.complete = false → x.kind = .get →
      x.word.toNat % 8 = 2 → k.ordered x = false → (∀ p ∈ pagesOf a n, s.pageOk p = true) → s.farAmong (pagesOf a n) = [] →
        ∃ t, exec (.xferComplete c h st) s = .next t
          ∧ (∀ j, j < n → memByte t.spad (x.spad + j) = (s.poolRaw a n).getD j 0) ∧ OtherBytes s t x.spad n
          ∧ t.hbm = s.hbm ∧ alistGet (t.cell c).xfers h = some { x with complete := true })
  ∧ (∀ (s : State) (c h st : Nat) (x : Xfer),
    let k := s.cell c
    let a := x.addr.toNat
    let n := 64 * x.cap
    c < 512 → h < 64 → s.works = true → alistGet k.xfers h = some x → x.fired = true → x.complete = false →
      x.word.toNat % 8 = 2 → k.ordered x = false →
        (x.kind = .put → (∀ p ∈ pagesOf a n, s.pageOk p = true) → s.farAmong (pagesOf a n) = [] →
          exec (.xferComplete c h st) s =
            .next (((s.spadTouch x.spad n).poolWrite a (memBytes s.spad x.spad n)).doneXfer c h x))
        ∧ (∀ p, x.kind = .get ∨ x.kind = .put → (pagesOf a n).find? (fun q => !s.pageOk q) = some p →
          ∃ t, exec (.xferComplete c h st) s = .next t ∧ SameMemory s t
            ∧ t = ((s.raiseFlag 8 s.epoch).xferFault c p).failXfer c h 1
            ∧ alistGet (t.cell c).xfers h = some { x with complete := true, failed := true, reason := 1 }))
  ∧ (∀ (s : State) (h : Hdr) (bs : List Byte),
    s.up = true → s.tripped = false →
      (s.txnOf h = none → exec (.gatherResp h bs) s = .next ((s.unstamp h).bump Reg.fabLateResp))
        ∧ (∀ m : Txn, s.txnOf h = some m → exec (.gatherResp h bs) s
            = .next (((s.unstamp h).endTxn m.tag).respFor (s.stampOf h) m h bs))
        ∧ ∀ (m : Txn) (c j : Nat) (x : Xfer),
          s.txnOf h = some m → m.owner = .xfer c j → j < 64 → alistGet (s.cell c).xfers j = some x →
            x.tag = some m.tag → x.complete = false →
            ∃ t, exec (.gatherResp h bs) s = .next t ∧ (∀ y ∈ t.fab.txns, y.tag ≠ m.tag) ∧ t.hbm = s.hbm
              ∧ (hdrFlag h 4 = false → h.fmt.toNat ≤ 8 → max 64 h.len.toNat ≤ 64 * x.cap →
                  alistGet (t.cell c).xfers j = some { x with fmt := h.fmt.toNat, complete := true })
              ∧ (hdrFlag h 4 = true →
                  alistGet (t.cell c).xfers j = some { x with fmt := h.fmt.toNat, stale := true, complete := true }))

/-! ### Streams (R311, R312) -/

/-- PL.STREAM reads its descriptor and starts the stream where its address, list, ring and first records are in order;
while the stream runs it raises PL_BUSY. PL.SRELEASE releases the oldest item that has been waited for, PL.SCANCEL
stops the stream, PL.ALTREADY sets or clears the mark of R314. PL.SWAIT on a stream whose oldest item is complete
returns its result word with the item's slot in [23:16], and the item can be released; without a stream it raises
PL_BUSY (R312). Where the manual is silent it follows the model's choices of log entry 36. -/
def Obligations.StreamsReturnTheirItems : Prop :=
  (∀ (s : State) (c : Nat) (o : ROps),
    let k := s.cell c
    let u := s.fetched c 0x07 0x04
    let j := o.x.toNat % 4
    let a := (k.a o.ax.toNat).toNat
    let v := State.settleStream c j 9 u
    let r := v.readStream c j a
    (alignedOk c a 64 true = true → v.streamOn c j = false → r.1.listOk = true → r.1.ringOk c = true →
        v.checkItems r.1 (List.range (min r.1.slots r.1.count)) = none →
          RLeaves s c (.plStream c o) o 0x07 0x04 [] (r.2.startStream c j r.1))
      ∧ (alignedOk c a 64 true = false → RTraps s c (.plStream c o) o 0x07 0x04 [] 0x41)
      ∧ (alignedOk c a 64 true = true → v.streamOn c j = true → RTraps s c (.plStream c o) o 0x07 0x04 [] 0x42)
      ∧ (u.checkRelease c j = none → RLeaves s c (.plSrelease c o) o 0x07 0x06 [] (u.srelease c j))
      ∧ (∀ e, u.checkRelease c j = some e → RTraps s c (.plSrelease c o) o 0x07 0x06 [] e)
      ∧ RLeaves s c (.plScancel c o) o 0x07 0x07 [] (u.cancelStream c j)
      ∧ RLeaves s c (.plAltready c o) o 0x07 0x08 [] (u.setCell c { u.cell c with altReady := o.x.toNat % 2 == 1 }))
  ∧ (∀ (s : State) (c : Nat) (o : ROps),
    let k := s.cell c
    let u := s.fetched c 0x07 0x05
    let j := o.x.toNat % 4
    (∀ (y : Stream) (x : Xfer), alistGet k.streams j = some y → y.cancelled = false →
        alistGet k.xfers (y.key j y.released) = some x → x.fired = true → x.complete = true →
          let v := u.putStream c j { y with waited := max y.waited (y.released + 1) }
          RLeaves s c (.plSwait c o) o 0x07 0x05 [o.sd.toNat]
            (v.setCell c ((v.cell c).setS o.sd.toNat (BitVec.ofNat 64 (x.result + 2 ^ 16 * (y.released % y.slots))))))
      ∧ (alistGet k.streams j = none → RTraps s c (.plSwait c o) o 0x07 0x05 [o.sd.toNat] 0x42))

/-! ### The pool and the far tier (chapter 10) -/

/-- A stack with a free frame gives one: a frame of that stack that held nothing, which now holds what it is taken
for. An allocation maps the lowest free logical page to a free frame of the stack named: the page is VALID and
resident there, its bytes are 0, no other page changes, and the client is answered with result 0 and the page, where
nothing else waits for a frame of the stack (R294). Class FLY and stacks 12 to 14 are refused with result 2.
ALLOC_WAIT_END ends the first request at the allocator that can end, in the order of R53: an allocation that finds its
frame now is answered with its page (R294). Where the manual is silent it follows the
model's choices of log entry 5. -/
def Obligations.AllocationMapsTheLowestFreePage : Prop :=
  (∀ (s : State) (n : Nat) (v : FrameUse), n < 12 → 0 < s.freeFrames n →
    ∃ f u, s.takeFrame n v = some (f, u) ∧ frameStack f = n ∧ s.frameUse f = none ∧ u.frameUse f = some v
      ∧ (∀ g, g ≠ f → u.frameUse g = s.frameUse g) ∧ u.pool.dir = s.pool.dir ∧ u.hbm = s.hbm)
  ∧ ((∀ (s : State) (who : PoolClient) (cls stack p f : Nat) (u : State),
    cls ≠ 3 → stack ≤ 11 → s.frameWaits stack = false → s.lowestPage = some p → s.takeFrame stack (.page p) = some (f, u) →
      let t := s.allocPage who cls stack
      t.dir p = some { cls := cls, home := stack, loc := frameIdx f, lastuse := s.pitch / 2 ^ 14 % 2 ^ 28 }
        ∧ t.frameUse f = some (.page p) ∧ (∀ off, off < 2097152 → memByte t.hbm (2097152 * f + off) = 0)
        ∧ (∀ q, q ≠ p → t.dir q = s.dir q)
        ∧ (who = .host → t.fld Reg.poolCmdStatus 12 19 = p ∧ t.fld Reg.poolCmdStatus 0 4 = 0)
        ∧ ∀ c sd, who = .cell c sd → sd ≠ 0 → (t.cell c).s sd = BitVec.ofNat 64 p)
  ∧ (∀ (s : State) (who : PoolClient) (cls stack : Nat), cls = 3 ∨ (11 < stack ∧ stack ≠ 15) →
      s.allocPage who cls stack = s.allocFails who 2)
  ∧ ∀ (s : State) (p : Nat), s.lowestPage = some p → p < 294912 ∧ s.dir p = none ∧ ∀ q, q < p → (s.dir q).isSome)
  ∧ (∀ (s : State), s.up = true →
    exec .allocWaitEnd s = .next (s.endAsk s.asks)
      ∧ ∀ (c sd cls n p : Nat) (u : State), c < 512 → s.pool.waits = [.alloc (.cell c sd) cls n] → s.pool.bringups = [] →
          s.lowestPage = some p → ({ s with pool := { s.pool with waits := [] } }).allocNow p cls n = some u → sd ≠ 0 →
          ∃ t, exec .allocWaitEnd s = .next t ∧ t.pool.waits = [] ∧ (t.cell c).s sd = BitVec.ofNat 64 p
            ∧ (t.cell c).owed = (s.cell c).owed.erase sd)

/-- The pool commands of the host, served while none is in progress, and PL.ALLOC, PL.FREE, PL.PEG and PL.UNPEG act
alike, each for its client (R294, R295, R298, R325). What the pool commands do to a page: one that is not VALID is
answered with result 2; a page with a fly version is not freed (3); a page without transfers in progress is freed (0),
and only the page that holds the map of eviction slots may change beside it, and one with transfers waits for them; a
resident one is pegged or unpegged (0), and a peg of one in the far tier waits until it has come; the LOST mark is cleared where it stands and result 5 answers where it does
not (R295, R298, R323). RETIRE takes a frame that holds nothing out of use at once and copies an occupied one;
RETIRE_COPY_COMPLETE ends the copy: the frame is retired and its page lies in the target frame with the same bytes,
where none of its words is in error and no window access waits for it. A
stack keeps at most 256 retired frames (result 4) (R321). -/
def Obligations.PoolCommandsKeepTheDirectory : Prop :=
  ((∀ s : State, s.up = true → s.fld Reg.poolCmdStatus 0 1 = 0 →
    let p := s.fld Reg.poolCmdPage 0 19
    let frame := s.fld Reg.poolCmdArg 0 15
    let stack := s.fld Reg.poolCmdArg 16 4
    exec .poolCmdAlloc s = .next (s.allocPage .host (s.fld Reg.poolCmdArg 20 3) stack)
      ∧ exec .poolCmdFree s = .next (s.freePage .host p) ∧ exec .poolCmdPeg s = .next (s.pegPage .host p)
      ∧ exec .poolCmdUnpeg s = .next (s.unpegPage .host p) ∧ exec .clearLost s = .next (s.clearLostMark p)
      ∧ exec .retire s = .next (s.retireFrame stack frame) ∧ exec .readDir s = .next (s.showDir p)
      ∧ exec .readFrame s = .next (s.showFrame stack frame))
  ∧ ∀ (s : State) (c : Nat) (o : ROps),
    let u := s.fetched c 0x07 0x10
    let w := ((s.cell c).s o.sa.toNat).toNat
    let sd := o.sd.toNat
    let uses := [o.sd.toNat, o.sa.toNat]
    RLeaves s c (.plAlloc c o) o 0x07 0x10 uses (u.allocPage (.cell c sd) (w % 8) (w / 16 % 16))
      ∧ RLeaves s c (.plFree c o) o 0x07 0x11 uses (u.freePage (.cell c sd) (w % 2 ^ 19))
      ∧ RLeaves s c (.plPeg c o) o 0x07 0x12 uses (u.pegPage (.cell c sd) (w % 2 ^ 19))
      ∧ RLeaves s c (.plUnpeg c o) o 0x07 0x13 uses (u.unpegPage (.cell c sd) (w % 2 ^ 19)))
  ∧ (∀ (s : State) (who : PoolClient) (p : Nat),
    (s.dir p = none → s.freePage who p = s.poolAnswer who p 2 ∧ s.pegPage who p = s.poolAnswer who p 2
        ∧ s.unpegPage who p = s.poolAnswer who p 2 ∧ s.clearLostMark p = s.poolAnswer .host 0 2)
      ∧ ∀ e, s.dir p = some e →
        (e.fly = true → s.freePage who p = s.poolAnswer who p 3)
          ∧ (e.fly = false → s.pageBusy p = true → s.freePage who p = s.poolWait (.free who p (s.busyWith p)) who)
          ∧ (e.fly = false → s.pageBusy p = false → (∀ b ∈ s.pool.bringups, b.page ≠ p) →
              s.freePage who p = (s.releasePage p).poolAnswer who p 0
                ∧ (s.freePage who p).dir p = none ∧ ∀ q, q ≠ p → q ≠ s.evictMap → (s.freePage who p).dir q = s.dir q)
          ∧ (e.far = true → s.pegPage who p = (s.startBringup p (clientCell who)).poolWait (.peg who p) who)
          ∧ (e.far = false → (∃ u : State, s.pegPage who p = u.poolAnswer who p 0)
              ∧ ∃ e1, (s.pegPage who p).dir p = some e1 ∧ e1.peg = true ∧ e1.home = e.home ∧ e1.loc = e.loc)
          ∧ s.unpegPage who p = (s.setDir p { e with peg := false }).poolAnswer who p 0
          ∧ (s.unpegPage who p).dir p = some { e with peg := false }
          ∧ (e.lost = true → s.clearLostMark p = (s.setDir p { e with lost := false }).poolAnswer .host 0 0
              ∧ (s.clearLostMark p).dir p = some { e with lost := false })
          ∧ (e.lost = false → s.clearLostMark p = s.poolAnswer .host 0 5))
  ∧ ((∀ (s : State) (n f : Nat), n ≤ 11 → f < 24576 →
    let t := s.retireFrame n f
    (256 ≤ s.retiredFrames n → t = s.poolAnswer .host 0 4)
      ∧ (s.retiredFrames n < 256 → s.frameUse (24576 * n + f) = none →
          t.frameUse (24576 * n + f) = some .retired ∧ t.fld Reg.poolCmdStatus 0 4 = 0)
      ∧ (s.retiredFrames n < 256 → s.frameUse (24576 * n + f) = some .retired → t = s.poolAnswer .host 0 2)
      ∧ (∀ p g u, s.retiredFrames n < 256 → s.frameUse (24576 * n + f) = some (.page p) → s.frameWaits n = false →
          s.takeFrame n .copy = some (g, u) → (⟨n, f, g⟩ : Retiring) ∈ t.pool.retiring ∧ t.fld Reg.poolCmdStatus 0 1 = 1))
  ∧ ∀ (s : State) (n f p : Nat) (r : Retiring) (e : DirEntry),
    n < 12 → f < 24576 → s.up = true → s.pool.retiring.find? (fun x => x.stack == n && x.frame == f) = some r →
      s.frameUse (24576 * n + f) = some (.page p) → s.dir p = some e → r.target ≠ 24576 * n + f →
      (∀ i, i ∈ s.hbmErr ∨ i ∈ s.hbmCe → i * 32 / 2097152 ≠ 24576 * n + f) → (∀ w ∈ s.pool.hdmWaits, w.page ≠ p) →
        ∃ t, exec (.retireCopyComplete n f) s = .next t ∧ t.frameUse (24576 * n + f) = some .retired
          ∧ t.frameUse r.target = some (.page p) ∧ t.dir p = some { e with loc := r.target % 24576 }
          ∧ ∀ off, off < 2097152 → memByte t.hbm (2097152 * r.target + off) = memByte s.hbm (2097152 * (24576 * n + f) + off))

/-- EVICTION_START on a stack that is to evict takes the page that R299 selects and the lowest free slot: the page is
MOVING, its eviction holds that slot, and its bytes leave for the far tier (R299, R300). EVICTION_COMPLETE with status 0 leaves the
page in its slot of the far tier and its frame free; another status ends the eviction as a cancel, and the page stays
resident (R300). No word of pool memory is in error where the map of eviction slots is read. BRINGUP_COMPLETE makes a page whose bytes have come resident in its frame, with those bytes; where the read
failed the page stays in the far tier and the frame is free (R301). No window access waits for the page here. Where
the manual is silent it follows the model's choices of log entry 14. -/
def Obligations.PagesMoveToAndFromTheFarTier : Prop :=
  (∀ (s : State) (n p slot r : Nat) (e : DirEntry),
    n < 12 → s.up = true → s.poolOn = true → s.fld Reg.poolCtrl 1 1 = 1 → s.evictReady = true → s.evictWanted n = true →
      s.evictingOn n < 4 → s.victim n = some (p, e) → s.lowestSlot = some slot →
      s.hbmErr = [] → s.hbmCe = [] → s.farCovers (s.slotAddr slot) 2097152 = some r →
        ∃ t, exec (.evictionStart n) s = .next t ∧ t.dir p = some { e with moving := true }
          ∧ (⟨p, slot, s.pool.nextFar⟩ : Evict) ∈ t.pool.evicts
          ∧ (∃ cells, Output.farWritePage s.pool.nextFar (s.farHpa r (s.slotAddr slot)) cells ∈ t.out)
          ∧ ∀ q, q ≠ p → q ≠ s.evictMap → t.dir q = s.dir q)
  ∧ (∀ (s : State) (p : Nat) (v : Evict) (e : DirEntry),
    s.up = true → s.poolOn = true → s.pool.evicts.find? (fun x => x.page == p) = some v → s.dir p = some e → alistGet s.pool.merges p = none →
      (∃ t, exec (.evictionComplete p 0) s = .next t ∧ t.dir p = some { e with far := true, moving := false, loc := v.slot }
          ∧ t.frameUse (24576 * e.home + e.loc) = none ∧ v ∉ t.pool.evicts)
        ∧ ∀ st, st ≠ 0 → p ≠ s.evictMap → s.hbmErr = [] → ∃ t, exec (.evictionComplete p st) s = .next t ∧ t.dir p = some { e with moving := false }
          ∧ t.frameUse (24576 * e.home + e.loc) = s.frameUse (24576 * e.home + e.loc)
          ∧ (∀ x ∈ t.pool.evicts, x.page ≠ p)
          ∧ (t.reg Reg.poolEvictCancel).toNat = min ((s.reg Reg.poolEvictCancel).toNat + 1) 0xFFFFFFFF)
  ∧ (∀ (s : State) (p f : Nat) (b : Bringup) (e : DirEntry) (reason : Nat) (data : List Byte),
    s.up = true → s.poolOn = true → s.pool.bringups.find? (fun x => x.page == p) = some b → s.dir p = some e → b.frame = some f →
      s.farResult (.bringup p) = some (reason, data) → (∀ w ∈ s.pool.hdmWaits, w.page ≠ p) →
      (∀ m, s.dir s.evictMap = some m → ∀ o, s.committedFrame s.evictMap m o ≠ f) →
        (reason = 0 → ∃ t, exec (.bringupComplete p) s = .next t
            ∧ t.dir p = some { e with far := false, moving := false, loc := f % 24576 } ∧ t.frameUse f = some (.page p)
            ∧ ∀ off, off < 2097152 → memByte t.hbm (2097152 * f + off) = data.getD off 0)
          ∧ (reason ≠ 0 → ∃ t, exec (.bringupComplete p) s = .next t ∧ t.dir p = some { e with moving := false }
              ∧ t.frameUse f = none))

/-- A far read that completes keeps its data and is counted, and the next reads leave while fewer than 1,024 are
outstanding; one that is refused, is poisoned, or has waited FAR_TIMEOUT ticks ends with its reason, and so do the
other parts of its access, and counts as failed (R304, R451). A far write that has waited as long ends what it served:
a put fails with reason 2 (R304). A scrub pass reads the next frame of its stack and moves on by one frame, wrapping
after the last; a frame without errors is left as it is (R320). PAGE_RECLAIM makes the frames that a verdict freed on
its stack free, and no other. FLY_MERGE ends the merge of a staked page: the frame that it replaced is free (R273). -/
def Obligations.FarRequestsAndScrubEnd : Prop :=
  (∀ (s : State) (id : Nat) (r : FarReq),
    s.up = true →
      (s.pool.farReqs.find? (fun x => x.id == id && x.readOut) = some r →
        (∀ data, exec (.farReadCompletion id 0 data) s =
            .next ((s.setFarDone id (0, data)).bumpBy Reg.farReads (ceilDiv r.len 64)).pumpFar)
          ∧ (∀ data st, st ≠ 0 → ∃ t, exec (.farReadCompletion id st data) s = .next t
              ∧ (∃ x ∈ t.pool.farReqs, x.id = id ∧ x.done = some (if st = 4 then 4 else 3, []))
              ∧ (∀ y ∈ t.pool.farReqs, y.write = false → y.owner = r.owner → y.done ≠ none)
              ∧ (t.reg Reg.farFails).toNat = min ((s.reg Reg.farFails).toNat + 1) 0xFFFFFFFF)
          ∧ (r.start + s.fld Reg.farTimeout 0 24 ≤ s.pitch → ∃ t, exec (.farReadTimeout id) s = .next t
              ∧ (∃ x ∈ t.pool.farReqs, x.id = id ∧ x.done = some (2, []))
              ∧ (∀ y ∈ t.pool.farReqs, y.write = false → y.owner = r.owner → y.done ≠ none)
              ∧ (t.reg Reg.farFails).toNat = min ((s.reg Reg.farFails).toNat + 1) 0xFFFFFFFF))
        ∧ ∀ c h x, s.pool.farReqs.find? (fun x => x.id == id && x.write && x.done.isNone) = some r → r.owner = .xfer c h →
            r.start + s.fld Reg.farTimeout 0 24 ≤ s.pitch → alistGet (s.cell c).xfers h = some x →
            ∃ t, exec (.farWriteTimeout id) s = .next t
              ∧ alistGet (t.cell c).xfers h = some { x with complete := true, failed := true, reason := 2 }
              ∧ (∀ y ∈ t.pool.farReqs, y.id ≠ r.id))
  ∧ (∀ (s : State) (n : Nat), n < 12 →
    (s.up = true → s.poolOn = true → s.fld Reg.poolCtrl 2 1 = 1 → s.hbmErr = [] → s.hbmCe = [] →
        exec (.scrubPass n) s = .next { s with pool := { s.pool with
          scrub := tabPut n (((alistGet s.pool.scrub n).getD 0 % 24576 + 1) % 24576) s.pool.scrub } })
      ∧ (s.up = true → ∃ t, exec (.pageReclaim n) s = .next t
          ∧ t = { s with pool := { s.pool with frames := t.pool.frames, evictOn := t.pool.evictOn } }
          ∧ ∀ x, x ∈ t.pool.frames ↔ x ∈ s.pool.frames ∧ ¬(x.1 / 24576 = n ∧ x.2 = .reclaim))
      ∧ ∀ p m e, s.works = true → alistGet s.pool.merges p = some m → s.dir p = some e →
          ∃ t, exec (.flyMerge p) s = .next t ∧ alistGet t.pool.merges p = none ∧ t.frameUse m.frame = none
            ∧ t.dir p = (s.mergePage p m e).dir p ∧ t.spad = s.spad)

/-- A window read of a resident page answers with the committed bytes of the pool and counts its 64-byte units; a
write puts its bytes there. While the window is off, or the page is not VALID, a read answers with zeros, a write is
dropped, and the fault is counted (R448, R449). An access outside the range of the HDM decoder reaches no page: that a
read returns ones then is the model's choice, log entry 63. -/
def Obligations.WindowReadsAndWritesThePool : Prop :=
  ∀ (s : State) (hpa len : Nat) (data : List Byte),
    let a := 2097152 * s.fld Reg.poolHdmPage0 0 19 + (hpa - s.hdmBase)
    let u := s.bumpBy Reg.poolHdmRd (ceilDiv len 64)
    let v := s.bumpBy Reg.poolHdmWr (ceilDiv data.length 64)
    let off := s.fld Reg.poolHdmCtrl 0 1 = 0
      ∨ (s.fld Reg.poolHdmCtrl 1 1 = 0 ∧ (s.poolOn = false ∨ s.dir (a / 2097152) = none))
    s.memOn = true →
      (s.inWindow hpa len = false → exec (.hdmRead hpa len) s = .next (s.emit (.reply (List.replicate len 0xFF))))
        ∧ (s.inWindow hpa data.length = false → exec (.hdmWrite hpa data) s = .next s)
        ∧ (s.inWindow hpa len = true → s.inWindow hpa data.length = true →
          s.fld Reg.poolHdmCtrl 0 1 = 1 → s.fld Reg.poolHdmCtrl 1 1 = 0 → s.poolOn = true →
          ∀ e, s.dir (a / 2097152) = some e → e.far = false → s.copying (a / 2097152) = false →
            exec (.hdmRead hpa len) s = .next ((u.poolTouch a len).emit (.reply (s.poolRaw a len)))
              ∧ exec (.hdmWrite hpa data) s = .next (v.poolWrite a data))
        ∧ (s.inWindow hpa len = true → s.inWindow hpa data.length = true → off →
            (∃ t, exec (.hdmRead hpa len) s = .next t ∧ t.out.getLast? = some (.reply (List.replicate len 0)) ∧ SameMemory s t
              ∧ (t.reg Reg.poolHdmFaults).toNat = min ((s.reg Reg.poolHdmFaults).toNat + 1) 0xFFFFFFFF)
            ∧ ∃ t, exec (.hdmWrite hpa data) s = .next t ∧ SameMemory s t
              ∧ (t.reg Reg.poolHdmFaults).toNat = min ((s.reg Reg.poolHdmFaults).toNat + 1) 0xFFFFFFFF)

/-! ### Collectives, pieces and contributions (chapters 8 and 12) -/

/-- A collective that passes the checks of Table 12-6 takes a free handle, returns it in SD and starts under it, once the
pages of its group, which it reads, are not in the far tier; one that a check refuses raises its cause; with no handle
free the core stalls (R380, R384). CL.WAIT returns the result
word of a collective that has ended and frees its handle: 1 where it is done, and FAILED with its reason; one that
runs stalls the core, and a handle not in use raises CL_HANDLE. CL.CANCEL cancels a collective (R383).
COLLECTIVE_COMPLETE writes the result of a collective whose data is all there and sent on at its destination, and
nowhere else but in the bytes that R153 leaves undefined, and the collective is done (R381, R383). Where the manual is silent it follows the model's choices of log entries 5,
37. -/
def Obligations.CollectivesRunAndComplete : Prop :=
  (∀ (s : State) (c : Nat) (o : ROps),
    let k := s.cell c
    let u := s.fetched c 0x06 0x00
    let w := k.s o.sa.toNat
    let r := k.s (o.sa.toNat + 1)
    let src := (k.a o.ax.toNat).toNat
    let dst := (k.a o.ay.toNat).toNat
    let g := u.goOn (.core c)
    let read := g.groupTouch c (collGroup w)
    let cl := fun (i : Instr) (op : Nat) =>
      u.farNeed (.core c) (u.collPages w) = [] →
        (∀ h v, g.checkColl op w r src dst = none → read.takeColl c = some (h, v) → h ∈ (read.cell c).freeColls ∧
            let t := v.startColl c h (v.newColl op w r src dst)
            RLeaves s c i o 0x06 op (collUses o) (t.setCell c ((t.cell c).setS o.sd.toNat (BitVec.ofNat 64 h))))
          ∧ (g.checkColl op w r src dst = none → read.takeColl c = none → RStalls s c i o 0x06 op (collUses o))
          ∧ ∀ e, g.checkColl op w r src dst = some e →
              RTrapsIn s c i o 0x06 op (collUses o) (if e = excClOp ∨ e = excClFmt then g else read) e
    cl (.clRs c o) 0 ∧ cl (.clAg c o) 1 ∧ cl (.clAr c o) 2 ∧ cl (.clBcast c o) 3 ∧ cl (.clExch c o) 4)
  ∧ (∀ (s : State) (c : Nat) (o : ROps),
    let k := s.cell c
    let u := s.fetched c 0x06 0x08
    let h := (k.s o.sa.toNat).toNat
    let uses := [o.sd.toNat, o.sa.toNat]
    let ret := fun v : W64 =>
      RLeaves s c (.clWait c o) o 0x06 0x08 uses
        (u.setCell c ({ u.cell c with colls := tabDel h (u.cell c).colls }.setS o.sd.toNat v))
    (∀ x, alistGet k.colls h = some x →
        (x.phase = .done → ret 1)
          ∧ (∀ r, r < 16 → x.phase = .failed r → ret (BitVec.ofNat 64 (0x11 + 2 ^ 8 * r)))
          ∧ (x.phase = .running → RStalls s c (.clWait c o) o 0x06 0x08 uses)
          ∧ RLeaves s c (.clCancel c o) o 0x06 0x09 [o.sa.toNat] (u.cancelColl c h x))
      ∧ (alistGet k.colls h = none → RTraps s c (.clWait c o) o 0x06 0x08 uses 0x55
          ∧ RTraps s c (.clCancel c o) o 0x06 0x09 [o.sa.toNat] 0x55))
  ∧ (∀ (s : State) (c h : Nat) (k : Coll) (bs : List Byte),
    c < 512 → s.works = true → alistGet (s.cell c).colls h = some k → k.phase = .running → s.allSent c h = true →
      s.collResult k = some bs → ∃ t, exec (.collectiveComplete c h) s = .next t ∧ t.hbm = s.hbm
        ∧ (∀ j, j < bs.length → memByte t.spad (k.dst + j) = bs.getD j 0) ∧ OtherBytes s t k.dst bs.length
        ∧ alistGet (t.cell c).colls h = some { k with phase := .done })

/-- COLL, EXCH and DW_PIECE reach their unit through the channel they came on; one for a context that is not OPEN is
counted and dropped (R361, R362, R375, R382). A contribution of this module's own collective unit is taken by its
groundsheet, which holds one of the next epoch in a format that is not reserved (Table 9-6); one of another module
comes through its channel. DW_PIECE_TAKE hands the piece of a tile that drains to RED
to the collective unit of its die, which has room, and counts it; the tile's banks wait for the end of the drain
(R373, R378). Where the manual is silent it follows the model's choices of log entry 37. -/
def Obligations.ChannelMessagesReachTheirUnit : Prop :=
  (∀ (s : State) (h : Hdr) (bs : List Byte),
    s.up = true →
      exec (.coll h bs) s = .next ((s.unstamp h).chanArrive { h with kind := 5 } bs)
        ∧ exec (.exch h bs) s = .next ((s.unstamp h).chanArrive { h with kind := 6 } bs)
        ∧ (s.farNeed (.cmd (.dwPiece h bs)) (s.placePages h.layer.toNat) = [] → exec (.dwPiece h bs) s =
            .next (((s.goOn (.cmd (.dwPiece h bs))).unstamp h).chanArrive { h with kind := 3 } bs))
        ∧ ((∀ x, s.ctx h.chan.toNat = some x → x.cstate ≠ 1) → SameMemory s (s.chanArrive h bs)
            ∧ ((s.chanArrive h bs).reg Reg.fabChanReject).toNat = min ((s.reg Reg.fabChanReject).toNat + 1) 0xFFFFFFFF
            ∧ (s.chanArrive h bs).cells = s.cells)
        ∧ ∀ n, n < 12 → h.dstUnit.toNat = 0x4000 + n →
            s.farNeed (.cmd (.contrib h bs)) (s.contribPages n h) = [] →
            let u := (s.goOn (.cmd (.contrib h bs))).unstamp h
            (h.src.toNat = s.ownAddr → exec (.contrib h bs) s = .next (u.takeContrib n { h with kind := 4 } bs))
              ∧ (h.src.toNat ≠ s.ownAddr → exec (.contrib h bs) s = .next (u.chanArrive { h with kind := 4 } bs))
              ∧ (h.src.toNat = s.ownAddr → s.fld (Reg.gsCtrl n) 0 1 = 1 → s.step.mode ≠ .diverged →
                  h.epoch = s.epoch + 1 → h.fmt.toNat ≤ 8 →
                  exec (.contrib h bs) s = .next (u.setGs n { u.gs n with held := (u.gs n).held ++ [({ h with kind := 4 }, bs)] })))
  ∧ (∀ (s : State) (c h : Nat) (tile : Tile),
    c < 512 → s.works = true → (s.cell c).tiles.find? (fun t => t.h == h && t.phase == .red) = some tile →
      let d := s.redHdr c tile
      let die := s.cuDie (hdrRow0 d) tile.layer
      let k := s.cell c
      let g := s.goOn (.cmd (.dwPieceTake c h))
      let u := g.setCell c { k with tiles := k.tiles.map (fun x => if x = tile then { x with phase := .taken } else x) }
      s.cuFull die d = false → s.farNeed (.cmd (.dwPieceTake c h)) (s.placePages tile.layer) = [] →
        exec (.dwPieceTake c h) s = .next ((u.bump (Reg.cellMxPieces c)).takePartial die d (drainBytes tile)))

/-- A gather request waits at its groundsheet, held and counted as such where it is of the next epoch; its deadline is
counted from the tick of its arrival (R51). GATHER_SERVE takes the request that R252 picks: one of a stale epoch is
answered as stale, one of the next epoch is held, and one of the current epoch is answered with its tile (R26, R250 to
R252). SLICE_UPDATE takes the oldest ready slice of its groundsheet and reads its record: one whose record no longer
stands raises USER_ABORT, one whose layer has DW_SKIP set leaves the ready list without an update, and any other is
updated under its record and the values of its group in this epoch (R227, R232, R235). Where the manual is silent it
follows the model's choices of log entry 32. -/
def Obligations.GroundsheetsServeAndUpdate : Prop :=
  ((∀ (s : State) (h : Hdr) (n : Nat), n < 12 → h.dstUnit.toNat = 0x4000 + n → s.up = true →
    let u := s.unstamp h
    let add := fun (v : State) (held : Bool) => v.setGs n { v.gs n with
      reqs := (v.gs n).reqs ++ [(⟨h, fullTime (s.stampOf h) h.deadline, held⟩ : GatherReq)] }
    let ahead := s.step.mode ≠ .diverged ∧ h.epoch = s.epoch + 1
    (ahead → exec (.gatherReq h) s = .next (add (u.bump (Reg.gsGatherHeld n)) true))
      ∧ (¬ahead → exec (.gatherReq h) s = .next (add u false)))
  ∧ ∀ (s : State) (n : Nat) (r : GatherReq),
    let k := s.gs n
    let rest := s.setGs n { k with reqs := k.reqs.erase r }
    n < 12 → s.works = true → s.fld (Reg.gsCtrl n) 0 1 = 1 → s.pickGather n = some r →
      (s.step.mode = .diverged ∨ (r.h.epoch ≠ s.epoch ∧ r.h.epoch ≠ s.epoch + 1) →
          exec (.gatherServe n) s = .next (rest.answerStale n r.h))
        ∧ (s.step.mode ≠ .diverged → r.h.epoch = s.epoch + 1 → exec (.gatherServe n) s =
            .next ((s.bump (Reg.gsGatherHeld n)).setGs n { k with reqs := k.reqs.replace r { r with held := true } }))
        ∧ (s.step.mode ≠ .diverged → r.h.epoch = s.epoch →
            s.farNeed (.cmd (.gatherServe n)) (s.gatherPages n (gWord r.h.arg.toNat)) = [] → exec (.gatherServe n) s =
              .next (((s.goOn (.cmd (.gatherServe n))).setGs n { k with reqs := k.reqs.erase r }).serveTile n r.h)))
  ∧ (∀ (s : State) (n : Nat), n < 12 → s.works = true → s.fld (Reg.gsCtrl n) 0 1 = 1 →
    ((s.gs n).ready = [] → exec (.sliceUpdate n) s = .next s)
      ∧ ∀ r l, (s.gs n).ready = r :: l → s.farNeed (.cmd (.sliceUpdate n)) (s.slicePages n r) = [] →
          exec (.sliceUpdate n) s = .next ((s.goOn (.cmd (.sliceUpdate n))).readSlice n r))
  ∧ (∀ (s : State) (n : Nat) (r : ReadySlice),
    let q := s.readShard n r.shard
    (q.1 = none → s.readSlice n r = (q.2.dropReady n r).raiseFlag 8 r.epoch)
      ∧ ∀ y, q.1 = some y →
        let k := q.2.groupConsts n y.group y.desc
        let x := { y with desc := k.1.1 }
        let l := k.2.readLayer (0x8000 + n) (unitGs n) x.layer
        let span := s.sliceSpan n x r.slice
        (l.1.dwSkip = true → s.readSlice n r = l.2.dropReady n r)
          ∧ (l.1.dwSkip = false →
              s.readSlice n r = l.2.updateSlice n x k.1.2 r (span.1 - x.unit * s.unitRows n) span.2))
  ∧ (∀ (s : State) (n : Nat) (r : ReadySlice),
    ((s.dropReady n r).gs n).ready = (s.gs n).ready.erase r ∧ (∀ m, m ≠ n → (s.dropReady n r).gs m = s.gs m)
      ∧ SameMemory s (s.dropReady n r))

/-! ### Pitch counter and timing (chapter 2) -/

/-- PIT_CMD_LOAD on a time master sets the pitch count to PIT_SET; on a follower it is ignored (R38). No launch waits where
the count steps. Timing cells: the second copy of one and a damaged one are left aside (R337); an
exchange has SYNC sent to the children, and a follower begins one with its parent; SYNC is stamped at its receipt and
answered with DELAY_REQ; DELAY_REQ from a child is answered with DELAY_RESP and the count of its receipt, each in two
copies at once where no other cell waits and the port has room for one (R40, R337).
DELAY_RESP completes an exchange: the offset is ((t2 − t1) − (t4 − t3) − asymmetry) ÷ 2 and is kept in PIT_OFFSET; a
LOCKED follower within a tick stays LOCKED, one in HOLDOVER within a tick is LOCKED again, and an ACQUIRING one that
is a tick or more off steps its count by the whole ticks (R40, R41, Table 2-2). A LOCKED follower's rate moves so that
the offset goes within the next interval, by at most 50 ppm, and stays within 250 ppm (R38, R40). A LOCKED follower whose exchanges go
missing enters HOLDOVER at the present count; one that has been there for PIT_HOLD_LIMIT × 1,024 ticks enters FREE
(R41). Where the manual is silent it follows the model's choices of log entry 40. -/
def Obligations.PitchIsAligned : Prop :=
  (∀ (s : State), s.up = true →
    let v := s.reg64 Reg.pitSetLo Reg.pitSetHi
    (s.isMaster = true → exec .pitCmdLoad s = .next (s.setCount v)
        ∧ (s.launches = 0 → (s.setCount v).pitch = v ∧ SameMemory s (s.setCount v) ∧ (s.setCount v).step = s.step))
      ∧ (s.isMaster = false → exec .pitCmdLoad s = .next s))
  ∧ ((∀ (s : State), s.up = true →
    (s.isMaster = true → exec .timingExchange s =
        .next (s.downPorts.foldl State.sendSync ((List.range 24).foldl State.guyMissed s)))
      ∧ (s.isMaster = false → ∃ t, exec .timingExchange s = .next t ∧ t.pit.t1 = none ∧ t.pit.t3 = none
          ∧ t.pit.missing = s.pit.missing + 1 ∧ t.pit.mode = s.pit.mode ∧ t.pitch = s.pitch))
  ∧ ∀ (s : State) (port : Nat) (g : TimeCell), port < 24 → s.up = true →
    let q := s.port port
    let aside := g.good = false ∨ (g.copy = true ∧ alistGet s.step.seqIn port = some g.seq)
    let twice := fun (kind y : Nat) (t : State) => ∃ n,
      let c : TimeCell := { seq := n, tick := s.pitch, frac := y }
      t.out = s.out ++ [.timing port kind c, .timing port kind { c with copy := true }]
    (aside → exec (.sync port g) s = .next s ∧ exec (.delayReq port g) s = .next s ∧ exec (.delayResp port g) s = .next s)
      ∧ (¬aside → s.isMaster = false → port = s.upPort → ∃ t x, exec (.sync port g) s = .next t
        ∧ t.pit.t1 = some (1024 * g.tick + g.frac % 1024) ∧ t.pit.t2 = 1024 * s.pitch + x ∧ x < 1024
        ∧ (s.portUp port = true → q.guyQ = [] → q.guyRoom s.pitch = true → ∃ y, y < 1024
            ∧ t.pit.t3 = some (1024 * s.pitch + y) ∧ twice 1 y t))
      ∧ (¬aside → port ∈ s.downPorts → s.portUp port = true → q.guyQ = [] → q.guyRoom s.pitch = true →
          ∃ t y, exec (.delayReq port g) s = .next t ∧ y < 1024 ∧ twice 2 y t))
  ∧ (∀ (s : State) (t1 t3 : Nat) (g : TimeCell),
    let p := s.upPort
    let o := pitOffset t1 s.pit.t2 t3 (1024 * g.tick + g.frac % 1024) (s.asymOf p)
    let rate := (s.reg Reg.pitRate).toInt + max (-214748) (min 214748 (-(4096 * o)))
    s.up = true → s.isMaster = false → p < 24 → s.pit.t1 = some t1 → s.pit.t3 = some t3 → g.good = true →
      (g.copy = true → alistGet s.step.seqIn p ≠ some g.seq) → -1024 < o ∨ s.launches = 0 →
      ∃ t, exec (.delayResp p g) s = .next t ∧ t.reg Reg.pitOffset = BitVec.ofInt 32 o ∧ t.pit.missing = 0
        ∧ t.pit.t1 = none ∧ t.pit.t3 = none
        ∧ (s.pit.mode = .locked ∨ s.pit.mode = .holdover → o.natAbs ≤ 1024 → t.pit.mode = .locked ∧ t.pitch = s.pitch)
        ∧ (s.pit.mode = .locked → o.natAbs ≤ 1024 →
            t.reg Reg.pitRate = BitVec.ofInt 32 (max (-1073741) (min 1073741 rate)))
        ∧ (s.pit.mode = .acquiring → 1024 ≤ o → t.pit.mode = .acquiring ∧ t.pitch = s.pitch - o.toNat / 1024)
        ∧ (s.pit.mode = .acquiring → o ≤ -1024 → t.pitch = s.pitch + (-o).toNat / 1024))
  ∧ (∀ (s : State), s.up = true →
    (s.isMaster = false → s.pit.mode = .locked → 4 ≤ s.pit.missing → ∃ t, exec .exchangeMissing s = .next t
        ∧ t.pit = { s.pit with mode := .holdover, holdFrom := s.pitch } ∧ t.pitch = s.pitch)
      ∧ (s.pit.mode = .holdover → 1024 * s.fld Reg.pitHoldLimit 0 16 ≤ s.pitch - s.pit.holdFrom →
          ∃ t, exec .holdoverLimit s = .next t ∧ t.pit = { s.pit with mode := .free } ∧ t.pitch = s.pitch))

/-! ### The step machine (chapter 9) -/

/-- Sealing (Table 9-2): a tick ahead is latched as T_seal; one that has passed is replaced by the next tick and
raises USER_ABORT; a second seal of another tick raises USER_ABORT and changes nothing else; a second of the same tick
does nothing. STEP_CMD_SEAL seals at MOD_STEP_SEALT and STEP_CMD_ABORT raises USER_ABORT (R266, R271). STEP_ENABLE
opens the step of MOD_EPOCH in IDLE with no flag raised; CLEAR_DIVERGE opens one in DIVERGED; STEP_DISABLE leaves the
module IDLE (R258, R260, R286). MOD_EPOCH is written outside a step; within one it keeps its value, and the write is
recorded as a clamp (R260). -/
def Obligations.StepsOpenSealAndClose : Prop :=
  ((∀ (s : State) (unit t : Nat), s.step.mode = .opened →
    let v := s.sealAt unit t
    (s.step.tseal = none → s.pitch < t → v.step = { s.step with tseal := some t, tsealReg := t % 2 ^ 64 })
      ∧ (s.step.tseal = none → t ≤ s.pitch → v.step.tseal = some (s.pitch + 1) ∧ v.step.flags = s.step.flags ||| 8)
      ∧ (∀ t0, s.step.tseal = some t0 → s.pitch < t0 → t ≠ t0 → v.step = { s.step with flags := s.step.flags ||| 8 })
      ∧ (s.step.tseal = some t → v = s))
  ∧ ∀ s : State, s.up = true →
    exec .stepCmdSeal s = .next (s.sealAt 0x7FFF (s.reg64 Reg.modStepSealtLo Reg.modStepSealtHi))
      ∧ exec .stepCmdAbort s = .next (s.raiseFlag 8 s.epoch))
  ∧ (∀ (s : State) (v : W32), s.up = true →
    (s.step.mode = .idle → ∃ t, exec .stepEnable s = .next t ∧ t.step.mode = .opened ∧ t.step.flags = 0
        ∧ t.step.tseal = none ∧ t.fld Reg.modStepCtrl 0 1 = 1 ∧ t.epoch = s.epoch ∧ SameMemory s t)
      ∧ (s.step.mode ≠ .idle → ∃ t, exec .stepEnable s = .next t ∧ t.step = s.step)
      ∧ (s.step.mode = .diverged → ∃ t, exec .clearDiverge s = .next t ∧ t.step.mode = .opened ∧ t.step.flags = 0
          ∧ t.step.children = [] ∧ t.epoch = s.epoch)
      ∧ (s.step.mode = .idle → ∃ t, exec .stepDisable s = .next t ∧ t.step.mode = .idle
          ∧ t.fld Reg.modStepCtrl 0 1 = 0 ∧ t.epoch = s.epoch)
      ∧ (s.stepping = true → exec .stepDisable s = .next ((s.setFld Reg.modStepCtrl 0 1 0).endStep)
          ∧ ((s.setFld Reg.modStepCtrl 0 1 0).endStep).step.mode = .idle)
      ∧ (s.stepping = false → exec (.modEpochWrite v) s = .next (s.setReg Reg.modEpoch v))
      ∧ (s.stepping = true → exec (.modEpochWrite v) s = .next (s.clampReg Reg.modEpoch 0 v.toNat s.epoch.toNat)
          ∧ ∃ t, exec (.modEpochWrite v) s = .next t ∧ t.epoch = s.epoch ∧ t.step = s.step))

/-- The guyline tree: a cell from a child port is kept, of at most 64 that wait, until every child and the module itself
have one; then the OR
of their flags goes to the parent, with USER_ABORT for a child whose epoch or T_seal differs (R268). A verdict from
the parent goes to every child port and is judged (R269). A damaged or repeated copy is left aside (R337). A verdict
for the step that is sealed is held for its application tick; one for any other epoch is counted as stray (R269).
Where the manual is silent it follows the model's choices of log entry 19. -/
def Obligations.GuylineCombinesAndJudges : Prop :=
  (∀ (s : State) (port : Nat) (g : GuyCell),
    let seen := ({ s with step := { s.step with seqIn := tabPut port g.seq s.step.seqIn } } : State).guyHear port
    let few := s.step.children.countP (fun x => x.1 == port) < 64
    let kept := { seen with step := { seen.step with children := s.step.children ++ [(port, g)] } }
    port < 24 → s.up = true →
      (g.good = false ∨ (g.copy = true ∧ alistGet s.step.seqIn port = some g.seq) →
          exec (.guylineContribution port g) s = .next s ∧ exec (.guylineVerdict port g) s = .next s)
        ∧ (g.good = true → (g.copy = true → alistGet s.step.seqIn port ≠ some g.seq) →
            (port ∈ s.downPorts → few → exec (.guylineContribution port g) s = .next kept.guyRound)
              ∧ (port ∈ s.downPorts → few → s.step.own = none → exec (.guylineContribution port g) s = .next kept)
              ∧ (∀ own, port ∈ s.downPorts → s.downPorts = [port] → s.step.own = some own → s.step.forwarded = false →
                  s.step.children = [] → s.isMaster = false →
                  exec (.guylineContribution port g) s = .next (({ kept with step := { kept.step with
                    forwarded := true, children := [] } }).sendGuy s.upPort false
                      { own with flags := own.flags ||| (if g.epoch = own.epoch ∧ g.tseal = own.tseal then g.flags
                                                         else g.flags ||| 8) }))
              ∧ (s.guyOn = true → port = s.upPort → exec (.guylineVerdict port g) s =
                  .next ((s.downPorts.foldl (fun t p => t.sendGuy p true g) seen).judgeVerdict g))))
  ∧ (∀ (s : State) (g : GuyCell), s.stepping = true →
    (∀ t, g.epoch = s.epoch → s.step.tseal = some t → g.tseal = BitVec.ofNat 32 t →
        s.judgeVerdict g = { s with step := { s.step with verdict := some g.flags } })
      ∧ (g.epoch ≠ s.epoch → (s.judgeVerdict g).step = s.step
          ∧ ((s.judgeVerdict g).reg Reg.modVerdictStray).toNat = min ((s.reg Reg.modVerdictStray).toNat + 1) 0xFFFFFFFF))

/-- At T_seal the module is SEALED and the flags that stood there, with DEADLINE where a groundsheet has a slice open,
are its contribution; the verdict is applied GUY_BOUND ticks later. At the application tick a
verdict without flags stakes the step: the epoch advances by one and the next step is OPEN; one with flags strikes it:
the epoch stays and the step is OPEN again; with no verdict the module strikes locally and is DIVERGED (R267, R272,
R280). -/
def Obligations.VerdictStakesOrStrikes : Prop :=
  ∀ (s : State) (t : Nat), s.up = true → t ≤ s.pitch →
    (s.step.mode = .opened → s.step.tseal = some t →
        ∃ u, exec .tSealReached s = .next u ∧ u.step.mode = .sealed ∧ u.step.tseal = some t ∧ u.epoch = s.epoch
          ∧ u.step.applyAt = some (t + s.fld Reg.guyBound 0 16)
          ∧ ∃ g, u.step.own = some g ∧ g.epoch = s.epoch ∧ g.tseal = BitVec.ofNat 32 t
            ∧ g.flags = ((List.range 12).foldl State.sealGs s).step.flags)
      ∧ (s.step.mode = .sealed → s.step.applyAt = some t →
          (s.step.verdict = some 0 → ∃ u, exec .verdictApply s = .next u ∧ u.step.mode = .opened ∧ u.epoch = s.epoch + 1
              ∧ u.step.lastVerdict = true ∧ (s.endUnits true).pool.flies = [])
            ∧ (∀ f, s.step.verdict = some f → f ≠ 0 → ∃ u, exec .verdictApply s = .next u ∧ u.step.mode = .opened
                ∧ u.epoch = s.epoch ∧ u.step.lastVerdict = false ∧ u.step.lastOr = f)
            ∧ (s.step.verdict = none → ∃ u, exec .verdictApply s = .next u ∧ u.step.mode = .diverged
                ∧ u.epoch = s.epoch ∧ u.step.struck = s.epoch))

/-- GSCALE is a power of two in range: a power of two from 2^MIN_EXP to 2^MAX_EXP is stored as written, 0 and negative
values are stored as 2^MIN_EXP, and any value written leaves a power of two in the range. A range of MOD_GSCALE_CTRL
in order is stored as written, and GSCALE is moved into it (R275). -/
def Obligations.GradientScaleStaysInRange : Prop :=
  ∀ (s : State) (v : W32), s.up = true →
    let lo := s.fld Reg.modGscaleCtrl 16 6
    let hi := s.fld Reg.modGscaleCtrl 24 6
    (∀ k, lo ≤ k → k ≤ hi → hi ≤ 62 → v.toNat = 2 ^ 22 * (k + 255) →
        exec (.modGscaleWrite v) s = .next (s.setReg Reg.modGscale v))
      ∧ (lo ≤ hi → hi ≤ 62 → ∃ t k, exec (.modGscaleWrite v) s = .next t ∧ lo ≤ k ∧ k ≤ hi
          ∧ (t.reg Reg.modGscale).toNat = 2 ^ 22 * (k + 255) ∧ (v = 0 ∨ v.getLsbD 31 = true → k = lo))
      ∧ (let a := v.toNat / 2 ^ 16 % 2 ^ 6
         let b := v.toNat / 2 ^ 24 % 2 ^ 6
         0 < v.toNat % 2 ^ 16 → a ≤ b → b ≤ 62 →
           ∃ t, exec (.modGscaleCtrlWrite v) s = .next t
             ∧ (t.reg Reg.modGscaleCtrl).toNat = v.toNat % 2 ^ 16 + 2 ^ 16 * a + 2 ^ 24 * b
             ∧ (a ≤ s.gscaleExp → s.gscaleExp ≤ b → t.reg Reg.modGscale = s.reg Reg.modGscale)
             ∧ (s.gscaleExp < a → (t.reg Reg.modGscale).toNat = 2 ^ 22 * (a + 255))
             ∧ (b < s.gscaleExp → (t.reg Reg.modGscale).toNat = 2 ^ 22 * (b + 255)))

/-! ### Channels, routing, ports and discovery (chapter 11) -/

/-- CHAN_OPEN on a context whose bookends agree and whose PEER_UNIT is in range sets TX_SEQ, ACKED and RX_SEQ to 0 and
enters OPEN; any other context is refused with RESULT 1 and stays as it is. CHAN_CLOSE enters CLOSED and discards what
is unacknowledged, and CHAN_RESET does both (R360), while no eviction or copy of the page of the context is in
progress and no collective unit has a message waiting. ACK
moves ACKED of an OPEN context up to the number it carries and drops as many unacknowledged messages; on a context
that is not OPEN it is counted and dropped. ACK_DELAY tells the peer RX_SEQ. CHANNEL_RTO, RTO ticks after the last
progress, sends again and counts, and after RETRIES retransmissions puts the context into ERROR (R361, R362). Where
the manual is silent it follows the model's choices of log entry 18. -/
def Obligations.ChannelsSequenceAndRetransmit : Prop :=
  (∀ (s : State) (c : Nat),
    let ws := s.chanWords c
    s.up = true → c < 65536 → s.chanOk c = true → (∀ e ∈ s.pool.evicts, e.page ≠ s.chanAddr c / pageBytes) →
      s.farAmong [s.chanAddr c / pageBytes] = [] → (∀ d, (s.cu d).outbox = []) →
      (nthWord ws 0 = nthWord ws 15 → unitOk (wfield ws 1 17 15) = true →
          ∀ i ∈ [Instr.chanOpen c, Instr.chanReset c], ∃ t, exec i s = .next t ∧ t.chan c = {}
            ∧ t.reg Reg.fabChanStatus = 0
            ∧ t.ctx c = some { ctxOf ws with tx := 0, acked := 0, rx := 0, cstate := 1 })
        ∧ (nthWord ws 0 ≠ nthWord ws 15 ∨ unitOk (wfield ws 1 17 15) = false →
            ∃ t, exec (.chanOpen c) s = .next t ∧ t.reg Reg.fabChanStatus = 2 ∧ t.ctx c = s.ctx c ∧ t.chan c = s.chan c)
        ∧ ∃ t, exec (.chanClose c) s = .next t ∧ t.chan c = {} ∧ t.reg Reg.fabChanStatus = 0
            ∧ t.ctx c = some { ctxOf ws with cstate := 0 })
  ∧ (∀ (s : State) (c : Nat) (x : Ctx), s.up = true → s.ctx c = some x →
    (∀ e ∈ s.pool.evicts, e.page ≠ s.chanAddr c / pageBytes) →
    s.farAmong [s.chanAddr c / pageBytes] = [] → (∀ d, (s.cu d).outbox = []) →
    let k := s.chan c
    (∀ h : Hdr, h.chan.toNat = c → x.cstate = 1 →
        let v := h.arg.toNat % 2 ^ 32
        let n := (v + 2 ^ 32 - x.acked) % 2 ^ 32
        (0 < n → n ≤ (x.tx + 2 ^ 32 - x.acked) % 2 ^ 32 → ∃ t, exec (.ack h) s = .next t
            ∧ t.ctx c = some { x with acked := v } ∧ (t.chan c).unacked = k.unacked.drop n ∧ (t.chan c).retx = 0)
          ∧ ((x.tx + 2 ^ 32 - x.acked) % 2 ^ 32 < n ∨ n = 0 →
              exec (.ack h) s = .next ((s.goOn (.cmd (.ack h))).unstamp h)))
      ∧ (∀ h : Hdr, h.chan.toNat = c → x.cstate ≠ 1 → ∃ t, exec (.ack h) s = .next t ∧ SameMemory s t
          ∧ t.chan c = k ∧ (t.reg Reg.fabChanReject).toNat = min ((s.reg Reg.fabChanReject).toNat + 1) 0xFFFFFFFF)
      ∧ (∀ b, k.ackFrom = some b →
          (b + 32 ≤ s.pitch → ∃ t, exec (.ackDelay c) s = .next t ∧ t.chan c = { k with ackFrom := none, told := x.rx })
            ∧ (s.pitch < b + 32 → exec (.ackDelay c) s = .next s))
      ∧ (x.cstate = 1 → k.unacked ≠ [] →
          (s.pitch < k.progress + x.rto → exec (.channelRto c) s = .next s)
            ∧ (k.progress + x.rto ≤ s.pitch →
                (k.retx < x.retries → ∃ t, exec (.channelRto c) s = .next t ∧ (t.chan c).unacked = k.unacked
                    ∧ (t.chan c).retx = k.retx + 1
                    ∧ (t.reg Reg.fabChanRetx).toNat = min ((s.reg Reg.fabChanRetx).toNat + 1) 0xFFFFFFFF)
                  ∧ (x.retries ≤ k.retx → ∃ t, exec (.channelRto c) s = .next t ∧ t.chan c = {}
                      ∧ t.ctx c = some { x with cstate := 2 }))))

/-- A message that comes in is counted on its port, with the credits that its flits return, and routed; without SOM at
its start it is dropped (R334). A message for this module that is whole is delivered;
one without a valid entry is counted in FAB_UNROUTABLE and one whose hops are spent in FAB_TTL_DROP. With AR clear it
waits on the primary port while that is UP, in its escape class, which the dateline then raises for the next hop. The
three choices of the worked example come out as it says. ROUTE_ENTRY_WRITE writes one entry (R351, R352, R355). A link
flit's credit return frees the credits that its cumulative count adds, modulo 256, in its lane and pool alone. A
credit report restores the credits of flits that the other end has not received and counts them in
FAB_PORT_FLITS_LOST; an uncorrectable codeword is counted (R331, R336). A lane whose symbol errors in an interval pass
FAB_LANE_LIMIT is marked failed and its port trains again (R343). Where the manual is silent it follows the
model's choices of log entry 16. -/
def Obligations.MessagesFollowRoutesAndCredits : Prop :=
  ((∀ (s : State) (p vl hops : Nat) (ar esc : Bool) (fl : List Flit) (fec : Fec) (h : Hdr) (bs : List Byte),
    p < 24 → vl < 7 → s.up = true → (s.port p).mode = .up → isDisc h = false → (vl < 6 → s.fabOn = true) →
      let r := s.arrivalPool ar esc
      let n := fl.length
      let u := r.2.countRx p n
      let q := fl.foldl (fun k f => k.takeCredit f.crvl f.crpool f.crcnt) (u.port p)
      let i := laneIdx vl r.1
      let w := u.setPort p { q with received := setCount q.received i (countAt q.received i + n) }
      let m : Msg := { h := h, payload := bs, vl := vl, ar := ar, esc := esc, hops := hops % 64,
                       intact := flitsWhole h fl, got := some n, back := some (p, r.1) }
      let done := fun t : State =>
        exec (.headFlitRoute p vl ar esc hops fl fec h bs) s = .next ((t.pump p).fecTake p fec)
      (fl.head?.map (·.som) = some true → done (w.route (some p) m))
        ∧ (fl.head?.map (·.som) ≠ some true → done ((w.giveBack m n).bump Reg.fabIncomplete)))
  ∧ (∀ (s : State) (p : Nat) (m : Msg),
      let e := (s.reg (Reg.fabRt m.h.dst.toNat)).toNat
      let n := { m with hops := m.hops - 1 }
      (m.h.dst.toNat = s.ownAddr → m.intact = true → kindOk m.h.kind.toNat = true → unitOk m.h.dstUnit.toNat = true →
          (s.route (some p) m).out.getLast? = some (.deliver m.h m.payload))
        ∧ (m.h.dst.toNat ≠ s.ownAddr → m.hops = 0 →
            ((s.route (some p) m).reg Reg.fabTtlDrop).toNat = min ((s.reg Reg.fabTtlDrop).toNat + 1) 0xFFFFFFFF)
        ∧ (m.h.dst.toNat ≠ s.ownAddr → 0 < m.hops → e.testBit 31 = false →
            ((s.route (some p) m).reg Reg.fabUnroutable).toNat = min ((s.reg Reg.fabUnroutable).toNat + 1) 0xFFFFFFFF)
        ∧ (m.h.dst.toNat ≠ s.ownAddr → 0 < m.hops → e.testBit 31 = true → e % 32 < 24 → m.ar = false →
            s.portUp (e % 32) = true →
            s.route (some p) m = s.enqueue (e % 32) (1 + b2n m.esc) { n with esc := m.esc || e.testBit 29 }))
  ∧ (∀ (s : State) (m : Msg), s.pitch = 0x3B9ACA12 → m.vl = 0 → m.esc = false →
      s.portUp 8 = true → s.portUp 19 = true → (s.port 8).laneCount = 2 → (s.port 19).laneCount = 4 →
      (s.port 8).queued 0 = 12 → (s.port 19).queued 0 = 24 → 0 < (s.port 8).credit 0 0 → 0 < (s.port 19).credit 0 0 →
      (s.portUp 7 = true → (s.port 7).laneCount = 4 → (s.port 7).queued 0 = 40 →
          (m.ar = true → s.routeBy (some 2) m 0xC1002007 = s.enqueue 19 0 m)
            ∧ (m.ar = false → s.routeBy (some 2) m 0xC1002007 = s.enqueue 7 1 m))
        ∧ (s.portUp 7 = false → m.ar = false →
            s.routeBy (some 2) m 0xC1002007 = (s.enqueue 8 1 m).bump Reg.fabFailover))
  ∧ ∀ (s : State) (a : Nat) (v : W32), s.up = true → a < 131072 →
      exec (.routeEntryWrite a v) s = .next (s.setReg (Reg.fabRt a) v))
  ∧ (∀ (s : State) (p : Nat), p < 24 → s.up = true → (s.port p).receives = true →
    let q := s.port p
    (∀ vl pool n fec,
        let u := s.countRx p 1
        let t := (u.setPort p ((u.port p).takeCredit vl pool n)).pump p
        let i := laneIdx vl pool
        exec (.linkFlitReceive p vl pool n fec) s = .next (t.fecTake p fec)
          ∧ (vl < 7 → pool < 3 → q.queue = [] → countAt (t.port p).used i = countAt q.used i - (n % 256 + 256 - countAt q.returned i % 256) % 256
          ∧ countAt (t.port p).returned i = n % 256
          ∧ (∀ j, j ≠ i → countAt (t.port p).used j = countAt q.used j) ∧ ∀ d, d ≠ p → t.port d = s.port d))
      ∧ (∀ counts : List Nat, q.queue = [] →
          ∃ t, exec (.creditReport p counts) s = .next t
            ∧ (∀ i, i < 21 → countAt (t.port p).used i = countAt q.used i - q.lostAt counts i)
            ∧ (t.reg (Reg.fabPortFlitsLost p)).toNat = min ((s.reg (Reg.fabPortFlitsLost p)).toNat
                + sumNat ((List.range 21).map (q.lostAt counts))) 0xFFFFFFFF)
      ∧ ((s.sendCredits p).out =
          s.out ++ [.credits p ((List.range 21).map (fun i => countAt q.received i % 256)) (s.portId p)])
      ∧ (∀ (f : Fec) (i : Nat), i < 4 →
          let tooMany := fun j : Nat => q.lanes.testBit j = true ∧ s.fld Reg.fabLaneLimit 0 24 < (s.symbolsNow p f).getD j 0
          tooMany i → (∀ j, j < i → ¬tooMany j) →
            ((s.fecTake p f).port p).mode = .train ∧ ((s.fecTake p f).port p).failed.testBit i = true)
      ∧ exec (.codewordUncorrectable p) s = .next (s.bump (Reg.fabPortFecUncorr p)))

/-- A request without a response for FAB_TXN_TIMEOUT ticks goes again with RETRY set, up to FAB_TXN_RETRIES times;
then it fails, is counted, and its tag is free (R357). -/
def Obligations.TransactionsRetryAndFail : Prop :=
  ∀ (s : State) (tag : Nat) (x : Txn), s.up = true → s.fab.txns.find? (fun y => y.tag == tag) = some x →
    (∀ c h, x.owner = .xfer c h ∨ x.owner = .widen c h → c < 512) →
    (s.pitch < x.sentAt + s.txnTimeout → exec (.txnTimeout tag) s = .next s)
      ∧ (x.sentAt + s.txnTimeout ≤ s.pitch →
          (x.retries < s.fld Reg.fabTxnRetries 0 4 → ∃ t y, exec (.txnTimeout tag) s = .next t ∧ y ∈ t.fab.txns
              ∧ y.tag = tag ∧ y.owner = x.owner ∧ y.retries = x.retries + 1 ∧ y.sentAt = s.pitch
              ∧ y.msg.h = setHdrFlag x.msg.h 8 true)
            ∧ (s.fld Reg.fabTxnRetries 0 4 ≤ x.retries → ∃ t, exec (.txnTimeout tag) s = .next t
                ∧ (∀ y ∈ t.fab.txns, y.tag ≠ tag)
                ∧ (t.reg Reg.fabTxnFail).toNat = min ((s.reg Reg.fabTxnFail).toNat + 1) 0xFFFFFFFF))

/-- The port states of Table 11-7: a disabled port that is enabled trains with its failed marks cleared; training
takes the lanes of R344; alignment leads to IDENT in time and back to TRAIN otherwise; a peer that is recorded, or the
first, brings the port UP and another fences it, until UNFENCE records it; a lane fault marks its lane and trains
again, and the loss of the peer trains again with the marks as they are (R342 to R344). Where the manual is silent it follows the model's choices of log entry 41. -/
def Obligations.PortsFollowTheirStates : Prop :=
  ∀ (s : State) (p : Nat), p < 24 → s.up = true →
    let q := s.port p
    let q' := fun (i : Instr) (P : State → Port → Prop) => ∃ t, exec i s = .next t ∧ P t (t.port p)
    (q.mode = .disabled → q' (.portEnable p) (fun t r => r.mode = .train ∧ r.failed = 0 ∧ r.lanes = 0
        ∧ t.fld (Reg.fabPortCtrl p) 0 1 = 1))
      ∧ (q.mode ≠ .disabled → exec (.portEnable p) s = .next (s.setFld (Reg.fabPortCtrl p) 0 1 1))
      ∧ q' (.portDisable p) (fun t r => r.mode = .disabled ∧ r.lanes = 0 ∧ t.fld (Reg.fabPortCtrl p) 0 1 = 0)
      ∧ (q.mode = .train → ∀ four low high,
          (q.failed % 16 = 0 → s.fld (Reg.fabPortCtrl p) 1 1 = 0 → four = true →
              q' (.trainComplete p four low high) (fun _ r => r.mode = .align ∧ r.lanes = 15))
            ∧ (q.failed % 16 = 0 → s.fld (Reg.fabPortCtrl p) 1 1 = 1 → four = true →
              q' (.trainComplete p four low high) (fun _ r => r.mode = .align ∧ r.lanes = 3))
            ∧ (q.failed % 4 ≠ 0 → q.failed / 4 % 4 = 0 → high = true →
              q' (.trainComplete p four low high) (fun _ r => r.mode = .align ∧ r.lanes = 12))
            ∧ (q.failed % 4 ≠ 0 → q.failed / 4 % 4 ≠ 0 →
              q' (.trainComplete p four low high) (fun _ r => r.mode = .train ∧ r.stuck = true)))
      ∧ (q.mode = .align → exec (.alignComplete p) s = .next (s.setPort p { q with mode := .ident })
          ∧ q' (.alignTimeout p) (fun _ r => r.mode = .train ∧ r.lanes = 0))
      ∧ (q.mode = .ident → ∀ serial addr valid pp cable, serial < 2 ^ 64 →
          (q.recorded = none ∨ q.recorded = some serial →
              q' (.identComplete p serial addr valid pp cable) (fun _ r => r.mode = .up ∧ r.recorded = some serial
                ∧ r.peerAddr = addr))
            ∧ (q.recorded ≠ none → q.recorded ≠ some serial →
              q' (.identComplete p serial addr valid pp cable) (fun _ r => r.mode = .fenced ∧ r.recorded = q.recorded)))
      ∧ (q.mode = .fenced → q' (.unfence p) (fun _ r => r.mode = .up ∧ r.recorded = some q.peerSerial))
      ∧ (∀ lane, lane < 4 → q.lanes.testBit lane = true →
          q' (.laneFault p lane) (fun _ r => r.mode = .train ∧ r.failed.testBit lane = true))
      ∧ (q.lanes ≠ 0 → q' (.laneFault p 4) (fun _ r => r.mode = .train ∧ r.failed = q.failed))

/-- Discovery. DISC_START probes the first port that is UP, and is done at once with none; DISC_ABORT ends it as
failed. A probe at the end of its route is answered with the identity of the port it came on, and one that is not goes
on. At the root a new serial takes FAB_DISC_NEXT, and one seen before takes nothing. A module in IDLE takes the
address it is assigned, and one in a step keeps its own (R348 to R350). Where the manual is silent it follows the
model's choices of log entry 41. -/
def Obligations.DiscoveryProbesAndAssigns : Prop :=
  ∀ (s : State), s.up = true →
    (s.fab.disc.mode ≠ .running → (∀ x ∈ s.fab.txns, x.owner ≠ .disc) →
        ((List.range 24).filter s.portUp = [] → ∃ t, exec .discStart s = .next t ∧ t.fab.disc.mode = .done
            ∧ t.fab.disc.found = 1 ∧ t.fab.disc.records = 0)
          ∧ ∀ p ps tag, (List.range 24).filter s.portUp = p :: ps → s.nextTag = some tag →
              ∃ t x, exec .discStart s = .next t ∧ t.fab.disc.mode = .running ∧ x ∈ t.fab.txns ∧ x.owner = .disc
                ∧ x.tag = tag ∧ x.msg.h.kind = 0x0A ∧ x.msg.h.arg = routeArg [p] 0)
      ∧ (s.fab.disc.mode = .running → ∃ t, exec .discAbort s = .next t ∧ t.fab.disc.mode = .failed
          ∧ ∀ x ∈ t.fab.txns, x.owner ≠ .disc)
      ∧ (∀ (p hops : Nat) (h : Hdr), p < 24 → h.kind = 0x0A → h.resp = false →
          (routeDone h = true →
              exec (.discProbe p hops h) s = .next (s.discAnswer p h 0x0B (identBytes (s.ident p))))
            ∧ (routeDone h = false → exec (.discProbe p hops h) s = .next (s.discForward p (discMsg hops h []))))
      ∧ (∀ (p hops : Nat) (h : Hdr) (peer : Ident) (x : Txn) (n : DiscNode) (ns : List DiscNode) (a : Nat) (as : List Nat),
          p < 24 → h.kind = 0x0B → s.fld Reg.fabAddr 31 1 = 1 → h.dst.toNat = s.ownAddr →
          s.discTxnOf h = some x → s.fab.disc.queue = n :: ns → n.ports = a :: as →
            (peer.serial ∉ s.fab.disc.seen → ∃ t, exec (.discIdent p hops h peer) s = .next t
                ∧ t.fab.disc.seen = s.fab.disc.seen ++ [peer.serial] ∧ t.fab.disc.found = s.fab.disc.found + 1
                ∧ t.fab.disc.addr = s.fld Reg.fabDiscNext 0 17
                ∧ t.fld Reg.fabDiscNext 0 17 = (s.fld Reg.fabDiscNext 0 17 + 1) % 2 ^ 17)
              ∧ (peer.serial ∈ s.fab.disc.seen → ∃ t, exec (.discIdent p hops h peer) s = .next t
                ∧ t.fab.disc.seen = s.fab.disc.seen ∧ t.fld Reg.fabDiscNext 0 17 = s.fld Reg.fabDiscNext 0 17))
      ∧ ∀ (p hops : Nat) (h : Hdr) (bs : List Byte), p < 24 → h.kind = 0x0C → h.resp = false → routeDone h = true →
          let a := leNat (bs.take 4) % 2 ^ 17
          (s.step.mode = .idle → ∃ t, exec (.discAssign p hops h bs) s = .next t ∧ t.ownAddr = a ∧ t.fld Reg.fabAddr 31 1 = 1)
            ∧ (s.step.mode ≠ .idle → s.ownAddr ≠ a → ∃ t, exec (.discAssign p hops h bs) s = .next t
                ∧ t.reg Reg.fabAddr = s.reg Reg.fabAddr)

/-! ### Power, air and heat (chapter 14) -/

/-- PSU_WARN_ASSERT, low for 50 ns or longer, and VIN_LOW start the shed sequence: SHED, with the divider on and groundsheets at half rate;
before the firmware runs only the status bit shows them. SHED_COMPLETE removes the divider, and the half rate where
PWR_BIVOUAC allows it, and a warning then holds the module in BIVOUAC. PSU_WARN_CLEAR starts the hold time, and WARN_HOLD_EXPIRY ends BIVOUAC once it is over, with no
other cause left (R417, R418, R513, R514). VIN_CUTOFF switches the module off and leaves nothing but fuses, flash and
serial; POWER_RETURN is a cold reset of cause 4, from which every register but BOOT_FWPOLICY holds its reset value
(R410, R411, R498). Where the manual is silent it follows the model's choices of log entry 42. -/
def Obligations.SupplyWarningsShedAndCutoffClears : Prop :=
  (∀ (s : State), s.alive = true →
    let p := s.pwr
    let starts := fun (i : Instr) (q : Pwr) (input : Bool) =>
      (s.up = false → exec i s = .next { s with pwr := q })
        ∧ (s.up = true → p.shed = true → exec i s = .next { s with pwr := { q with warned := true, clearedAt := none } })
        ∧ (s.up = true → p.shed = false → s.tripped = false → ∃ t, exec i s = .next t ∧ t.pwr.warned = true
            ∧ t.pwr.shed = true ∧ t.pwr.shedInput = input ∧ t.pwr.divider = true ∧ t.pwr.halfRate = true ∧ t.pwrMode = 1
            ∧ t.pwr.warnPin = q.warnPin ∧ t.pwr.inputLow = q.inputLow
            ∧ (t.reg Reg.pwrSheds).toNat = min ((s.reg Reg.pwrSheds).toNat + 1) 0xFFFFFFFF)
    (∀ ns, 50 ≤ ns → p.warnPin = false → starts (.psuWarnAssert ns) { p with warnPin := true } false)
      ∧ (p.inputLow = false → starts .vinLow { p with inputLow := true } true)
      ∧ (s.up = true → p.shed = true → p.warned = true → s.tripped = false → ∃ t, exec .shedComplete s = .next t
          ∧ t.pwr.shed = false ∧ t.pwr.divider = false ∧ t.pwrMode = 2
          ∧ t.pwr.halfRate = (s.shareCap (s.fld Reg.pwrBivouac 0 12)).pwr.issueLimit)
      ∧ (p.warnPin = true → exec (.psuWarnClear false) s = .next { s with pwr :=
          { p with warnPin := false, clearedAt := if p.warned = true ∧ p.inputLow = false then some s.pitch else p.clearedAt } })
      ∧ (p.inputLow = true → exec (.psuWarnClear true) s = .next { s with pwr :=
          { p with inputLow := false, clearedAt := if p.warned = true ∧ p.warnPin = false then some s.pitch else p.clearedAt } })
      ∧ ∀ b, s.up = true → p.warned = true → p.shed = false → p.clearedAt = some b →
          (s.pitch < b + 1024 * s.fld Reg.pwrWarnCtrl 8 16 → exec .warnHoldExpiry s = .next s)
            ∧ (b + 1024 * s.fld Reg.pwrWarnCtrl 8 16 ≤ s.pitch → p.airStop = false → p.tripCleared = false →
                s.tripped = false → ∃ t, exec .warnHoldExpiry s = .next t ∧ t.pwr.warned = false ∧ t.pwrMode = 0
                  ∧ t.pwr.target = 100000 * s.powerNow ∧ t.pwr.heldCaps = none))
  ∧ (∀ (s : State),
    (s.pwr.off = false → ∃ t, exec .vinCutoff s = .next t ∧ t.pwr.off = true ∧ t.alive = false ∧ t.boot = s.boot.kept
        ∧ t.spad = [] ∧ t.hbm = [] ∧ t.cells = [] ∧ t.pool = {} ∧ t.fab = { serial := s.fab.serial })
      ∧ (s.pwr.off = true → ∃ t, exec .powerReturn s = .next t ∧ t.alive = true ∧ t.rst.cause = 4 ∧ t.rst.stepLost = false
          ∧ t.boot = s.boot.kept ∧ t.boot.stage = .rom ∧ t.hbm = [] ∧ t.fld Reg.bootFwpolicy 0 1 = b2n s.boot.policy
          ∧ ∀ off, off ≠ Reg.bootFwpolicy → t.reg off = resetWord off))

/-- CONTROL_PERIOD shows what was measured and adds up energy; in NORMAL the lantern's target moves towards the
effective cap, by no more than PWR_RAMP and, upwards, PWR_DPDT allow in 256 ticks, and kindling raises the power to the
cap at most. The shares never add up to more than the budget, no die
gets more than it can use, and each gets all of that where the budget suffices (R415, R420, R426 to R428). The effective cap
lies from 600 W to 2,000 W and, above 600 W, at or below every term in force. An excursion ends after 1,000,000 ticks,
and as long again passes before another may begin (R412, R416). Where the manual is silent it follows the model's
choices of log entries 42, 53, 62. -/
def Obligations.LanternFollowsTheCap : Prop :=
  ((∀ (s : State) (m : Meas), s.up = true →
    ∃ t, exec (.controlPeriod m) s = .next t
      ∧ t.reg Reg.pwrPower = BitVec.ofNat 32 (min m.now 4095 + 2 ^ 16 * min m.mean 4095)
      ∧ t.reg Reg.pwrVin = BitVec.ofNat 32 (min m.mv 65535)
      ∧ t.reg Reg.pwrIin = BitVec.ofNat 32 (min (m.ma / 10) 65535)
      ∧ t.reg64 Reg.pwrEnergyLo Reg.pwrEnergyHi = (s.reg64 Reg.pwrEnergyLo Reg.pwrEnergyHi + m.energy) % 2 ^ 64
      ∧ (s.pwrMode = 0 →
          let goal := 100000 * s.capEff.1
          let ramp := 256 * s.fld Reg.pwrRamp 0 10
          min s.pwr.target goal ≤ t.pwr.target ∧ t.pwr.target ≤ max s.pwr.target goal
            ∧ t.pwr.target ≤ s.pwr.target + min ramp (256 * (s.fld Reg.pwrDpdt 0 7 * s.capEff.1) / 100)
            ∧ s.pwr.target ≤ t.pwr.target + ramp ∧ t.pwr.level ≤ max (100000 * m.now - s.pwr.kindle) goal))
  ∧ ∀ (b : Nat) (hs : List Nat),
      (waterFill b hs).length = hs.length ∧ sumNat (waterFill b hs) ≤ b
        ∧ (∀ i, (waterFill b hs).getD i 0 ≤ hs.getD i 0) ∧ (sumNat hs ≤ b → waterFill b hs = hs))
  ∧ (∀ (s : State),
    (600 ≤ s.capEff.1 ∧ s.capEff.1 ≤ 2000 ∧ ∀ x ∈ s.capTerms, s.capEff.1 ≤ max 600 x.1)
      ∧ ∀ b, s.up = true → s.pwrMode = 0 → s.pwr.excFrom = some b →
          (s.pitch < b + 1000000 → exec .excursionTimeout s = .next s)
            ∧ (b + 1000000 ≤ s.pitch → ∃ t, exec .excursionTimeout s = .next t ∧ t.pwr.excFrom = none
                ∧ t.pwr.excNotBefore = s.pitch + (s.pitch - b)))

/-- AIRFLOW_ESTIMATE gives the airflow and the air cap of the two worked examples, and below 300 W holds the last
estimate. JUNCTION_SAMPLE shows the junctions, keeps the hottest one's samples over THM_SLOPE_WIN and sets AIR_STOP,
which is a cause of BIVOUAC, where their slope exceeds the forecast by more than THM_SLOPE. REREAD takes a valid heatsink memory; without one PWR_BIVOUAC limits the cap
(R431 to R434). ANALOG_TRIP latches TRIP, stops every control core and leaves memory as it stands; it works in every
stage. TRIP_CLEAR is ignored while a junction reads above 90 °C; else it clears TRIP and the module is in BIVOUAC,
with ACLK at its lowest step (R435, R436). Where the manual is silent it follows the model's choices of log entries
42, 53, 62. -/
def Obligations.AirHeatAndTripLimitThePower : Prop :=
  (∀ (s : State), s.up = true →
    (∀ mean tin tout, mean < 300 → ∃ t, exec (.airflowEstimate mean tin tout) s = .next t
        ∧ t.fld Reg.thmAir 0 16 = s.fld Reg.thmAir 0 16 ∧ t.pwr.airCap = s.pwr.airCap
        ∧ t.fld Reg.thmInlet 0 16 = (tin % 65536).toNat ∧ t.fld Reg.thmOutlet 0 16 = (tout % 65536).toNat)
      ∧ (s.pwr.hsValid = true → s.pwr.curve = [(800, 360), (1000, 300), (1200, 260)] →
          s.fld Reg.thmAir 16 16 = 900 → s.fld Reg.thmTjTarget 0 8 = 95 →
          (∃ t, exec (.airflowEstimate 1900 7680 11520) s = .next t ∧ t.fld Reg.thmAir 0 16 = 1056
              ∧ t.pwr.airCap = some 2250 ∧ t.pwr.airBad = false)
            ∧ ∃ t, exec (.airflowEstimate 1900 7680 12800) s = .next t ∧ t.fld Reg.thmAir 0 16 = 792
              ∧ t.pwr.airCap = some 1786 ∧ t.pwr.airLow = true)
      ∧ (∀ (temps : List Int) (forecast : Int),
          let win := s.fld Reg.thmSlopeWin 0 16
          let kept := (((hottest 0 (temps.take 20)).getD (0, 0)).1 :: s.pwr.temps).take win
          ∃ t, exec (.junctionSample temps forecast) s = .next t ∧ t.pwr.temps = kept
          ∧ (∀ d, d < 8 → t.fld (Reg.thmTj d) 0 16 = (temps.getD d 0 % 65536).toNat)
          ∧ (∀ e, slopeExcess win kept forecast = some e → (s.fld Reg.thmSlope 0 16 : Int) < e →
              s.fld Reg.pwrCtrl 2 1 = 1 → s.fld Reg.thmCtrl 0 1 = 1 →
              t.pwr.airStop = true ∧ (s.tripped = false → s.pwr.shed = false → t.pwrMode = 2))
          ∧ (s.pwr.airStop = false → s.fld Reg.thmCtrl 0 1 = 0 → t.pwr.airStop = false))
      ∧ ∀ b : List Byte,
          (cableOk b = true → ∃ t, exec (.reread b) s = .next t ∧ t.pwr.hsValid = true ∧ t.pwr.curve = curveOf b
              ∧ t.fld Reg.thmAir 16 16 = cableField b 12 2)
            ∧ (cableOk b = false → ∃ t, exec (.reread b) s = .next t ∧ t.pwr.hsValid = false
                ∧ t.capEff.1 ≤ max 600 (s.fld Reg.pwrBivouac 0 12)))
  ∧ (∀ (s : State),
    (∀ u, u < 20 → s.alive = true →
        (s.tripped = false → ∃ t, exec (.analogTrip u) s = .next t ∧ t.pwr.trip.testBit u = true ∧ t.pwrMode = 3
            ∧ t.works = false ∧ (∀ c, (t.cell c).run ≠ .running) ∧ SameMemory s t)
          ∧ (s.tripped = true →
              exec (.analogTrip u) s = .next { s with pwr := { s.pwr with trip := putField s.pwr.trip u 1 1 } }))
      ∧ (s.up = true → s.tripped = true → (∀ k ∈ s.cells, k.1 < 512) →
          (((s.reg Reg.thmTjMax).extractLsb' 0 16).toInt > 23040 → exec .tripClear s = .next s)
            ∧ (((s.reg Reg.thmTjMax).extractLsb' 0 16).toInt ≤ 23040 → ∃ t, exec .tripClear s = .next t
                ∧ t.pwr.trip = 0 ∧ (s.pwr.shed = false → t.pwrMode = 2) ∧ ∀ d, d < 8 → (t.clock d).step = 0)))

/-- PMBus reads answer with the values of Table 14-2: constants, CML, the budget as written, the effective cap, and
the measured voltage, current and power as a mantissa below 1,024 times a power of two that is next below the value. A
budget is held to 600 to 2,000 W, and 0 withdraws it; an unsupported command sets CML (R412, R414). Every answer ends in
its PEC, and a write with a wrong one only sets CML (the model's reading of PEC is log entry 62). -/
def Obligations.PmbusAnswersAsItsTable : Prop :=
  ∀ (s : State), s.up = true →
    let linear := fun (i : Instr) (code : Byte) (n d : Nat) => ∃ t m e, exec i s = .next t ∧ m < 1024 ∧ e < 32
      ∧ t.out = (s.pmbusReply code (leBytes 2 (m + 2048 * ((e + 16) % 32)))).out
      ∧ m * (d * 2 ^ e) ≤ 2 ^ 16 * n ∧ 2 ^ 16 * n < (m + 1) * (d * 2 ^ e)
    exec .capability s = .next (s.pmbusReply 0x19 [0xA0])
      ∧ exec .pmbusRevision s = .next (s.pmbusReply 0x98 [0x33])
      ∧ exec .statusByte s = .next (s.pmbusReply 0x78 [if s.pwr.cml then 2 else 0])
      ∧ exec .budgetRead s = .next (s.pmbusReply 0xD0 (leBytes 2 s.pwr.budget.toNat))
      ∧ exec .capEff s = .next (s.pmbusReply 0xD1 (leBytes 2 s.capEff.1))
      ∧ linear .readVin 0x88 (s.fld Reg.pwrVin 0 16) 1000 ∧ linear .readIin 0x89 (s.fld Reg.pwrIin 0 16) 100
      ∧ linear .readPin 0x97 (s.fld Reg.pwrPower 16 12) 1
      ∧ (∀ (code : Byte) (bs : List Byte), (s.pmbusReply code bs).out = s.out ++ [.reply (bs ++ [s.readPec code bs])])
      ∧ (∀ (v : BitVec 16) (c : Byte), c ≠ s.writePec 0xD0 (leBytes 2 v.toNat) →
          exec (.budgetWrite v (some c)) s = .next { s with pwr := { s.pwr with cml := true } })
      ∧ (∀ (v : BitVec 16) (pec : Option Byte), pec = none ∨ pec = some (s.writePec 0xD0 (leBytes 2 v.toNat)) →
          ∃ t, exec (.budgetWrite v pec) s = .next t ∧ t.pwr.budget = v
          ∧ (v = 0 → t.reg Reg.pwrBudget = 0)
          ∧ (600 ≤ v.toNat → v.toNat ≤ 2000 → t.reg Reg.pwrBudget = BitVec.ofNat 32 (v.toNat + 2147483648)
              ∧ t.reg Reg.bootClamps = s.reg Reg.bootClamps)
          ∧ (v ≠ 0 → v.toNat < 600 → t.reg Reg.pwrBudget = BitVec.ofNat 32 2147484248
              ∧ (t.reg Reg.bootClamps).toNat = min ((s.reg Reg.bootClamps).toNat + 1) 0xFFFFFFFF)
          ∧ (2000 < v.toNat → t.reg Reg.pwrBudget = BitVec.ofNat 32 2147485648
              ∧ (t.reg Reg.bootClamps).toNat = min ((s.reg Reg.bootClamps).toNat + 1) 0xFFFFFFFF))
      ∧ ∀ code, code ∉ [0x19, 0x78, 0x88, 0x89, 0x97, 0x98, 0xD0, 0xD1] →
          exec (.pmbusUnsupported code) s = .next { s with pwr := { s.pwr with cml := true } }

/-! ### The host link and its queues (chapters 15 and 16) -/

/-- A hot reset, and a link loss of 1 ms or more, take the CXL link down with its IDE streams and start a warm reset
of cause 2 or 3; a shorter loss does nothing. The link trains to 16 or 8 lanes at rate 5 or 6 only. A snoop is
answered as a miss, and a UIO request as unsupported. A stream in use that fails its integrity check becomes insecure:
an insecure CXL.cachemem stream carries no snoop, and what goes to the host over an insecure link stream waits (R442,
R443, R447, R451, R452, R498). A request over DOE is answered, in every stage after the ROM, and changes
nothing else but the count of bytes that the manual leaves to the standards. Measurements 1 to 3 carry the digests of
the ROM and of the two images, and a certificate request returns its part of the chain of slot 0, at most 3,584 bytes at a time (R453, R483, R484).
Where the manual is silent it follows the model's choices of log entries 8, 44, 63. -/
def Obligations.HostLinkIsServed : Prop :=
  (∀ (s : State), s.alive = true →
    let down := fun (i : Instr) (cause : Nat) => ∃ t, exec i s = .next t ∧ t.host.width = 0 ∧ t.host.cxl = false
      ∧ t.host.ide = [] ∧ (s.rst.busy = false → s.boot.stage ≠ .rom → t.rst.busy = true ∧ t.rst.cause = cause)
      ∧ (s.rst.busy = true → t.rst = s.rst)
    down .hotReset 2
      ∧ (∀ us, (1000 ≤ us → down (.linkLoss us) 3) ∧ (us < 1000 → exec (.linkLoss us) s = .next s))
      ∧ (∀ width rate cxl, (width = 16 ∨ width = 8) → (rate = 6 ∨ rate = 5) →
          ∃ t, exec (.hostLinkTrained width rate cxl) s = .next t ∧ t.host.width = width ∧ t.host.rate = rate
            ∧ t.host.cxl = cxl ∧ SameMemory s t)
      ∧ (∀ width rate cxl, ¬((width = 16 ∨ width = 8) ∧ (rate = 6 ∨ rate = 5)) →
          exec (.hostLinkTrained width rate cxl) s = .next s)
      ∧ (∀ a, s.host.cxl = true → s.insecure 256 = false → exec (.snoop a) s = .next (s.emit (.linkResp 0)))
      ∧ (∀ a, s.insecure 256 = true → exec (.snoop a) s = .next s)
      ∧ (∀ a, exec (.uioRequest a) s = .next (s.toHost (.linkResp 1)))
      ∧ (∀ o, (s.insecure 0 = false → s.toHost o = s.emit o) ∧ (s.insecure 0 = true → (s.toHost o).out = s.out
          ∧ (s.toHost o).host.held = s.host.held ++ [o]))
      ∧ ∀ stream cm k, ideKey stream cm = some k →
          ((s.ide k).active = true → ∃ t, exec (.ideIntegrityFailure stream cm) s = .next t
              ∧ t.ide k = { s.ide k with active := false, insecure := true } ∧ ∀ j, j ≠ k → t.ide j = s.ide j)
            ∧ ((s.ide k).active = false → exec (.ideIntegrityFailure stream cm) s = .next s))
  ∧ (∀ (s : State), s.barOn = true →
    (∀ (a b n : Nat) (f g : Bool), ∀ i ∈ [Instr.doeDiscovery a, .cxlTableAccess a, .getVersion, .getCapabilities,
        .negotiateAlgorithms f g, .getDigests, .getCertificate a b n, .challenge a b, .getMeasurements a f g, .heartbeat a,
        .keyUpdate a, .query a],
      ∃ t r, exec i s = .next t ∧ t = { s with out := s.out ++ [.reply r], free := t.free })
    ∧ (∀ off n, ∃ t a b, exec (.getCertificate 0 off n) s = .next t
        ∧ t.out = s.out ++ [.reply (a ++ ((fixedObject 0).drop off).take (min n 3584) ++ b)])
    ∧ (∀ k, ∃ t a b, exec (.doeDiscovery k) s = .next t ∧ t.out = s.out ++ [.reply (a ++ doeEntry k ++ b)])
    ∧ (∀ k, ∃ t a b, exec (.cxlTableAccess k) s = .next t ∧ t.out = s.out ++ [.reply (a ++ cdatEntry k ++ b)])
    ∧ ∀ (f u : Image) (signed : Bool), s.boot.fw = some f → s.boot.uc = some u →
        ∀ x ∈ [(1, s.boot.romDigest), (2, f.payloadDigest), (3, u.payloadDigest)],
          ∃ t a b, exec (.getMeasurements x.1 signed false) s = .next t
            ∧ t.out = s.out ++ [.reply (a ++ leBytes 64 x.2 ++ b)])

/-- A key exchange on slot 0 begins a session, at most two at once; FINISH establishes it or, with a wrong proof, ends
it; END_SESSION ends it. In an established session KEY_PROG gives a stream keys and ends its insecure state, K_SET_GO
puts it into use and K_SET_STOP out of use; without one the streams stay as they are (R452, R483, R485). Where the
manual is silent it follows the model's choices of log entries 8, 44. -/
def Obligations.SessionsAndKeys : Prop :=
  ∀ (s : State) (n : Nat), s.up = true →
    let l := s.boot.sessions
    (l.length < 2 → ∃ t, exec (.keyExchange 0) s = .next t ∧ t.boot.sessions = l ++ [(s.boot.nextSession, false)]
        ∧ t.boot.nextSession = s.boot.nextSession + 1)
      ∧ (∀ slot, 2 ≤ l.length ∨ slot ≠ 0 → ∃ t, exec (.keyExchange slot) s = .next t ∧ t.boot = s.boot)
      ∧ ((n, false) ∈ l → (∃ t, exec (.finish n true) s = .next t ∧ t.inSession n = true)
          ∧ ∃ t, exec (.finish n false) s = .next t ∧ t.boot.sessions = l.filter (fun x => x.1 != n))
      ∧ ((n, true) ∈ l → ∃ t, exec (.endSession n) s = .next t ∧ t.boot.sessions = l.filter (fun x => x.1 != n)
          ∧ t.host = s.host)
      ∧ ∀ stream cm k, ideKey stream cm = some k →
          ((n, true) ∈ l →
              (∃ t, exec (.keyProg n stream cm) s = .next t ∧ t.ide k = { s.ide k with keys := true, insecure := false })
                ∧ (∃ t, exec (.kSetGo n stream cm) s = .next t ∧ t.ide k = { s.ide k with active := (s.ide k).keys })
                ∧ ∃ t, exec (.kSetStop n stream cm) s = .next t ∧ t.ide k = { s.ide k with active := false })
            ∧ ((n, true) ∉ l → ∀ i ∈ [Instr.keyProg n stream cm, .kSetGo n stream cm, .kSetStop n stream cm],
                ∃ t, exec i s = .next t ∧ t.host = s.host)

/-- Queues: EN = 1 takes a DISABLED queue to RUNNING from slot 0; EN = 0 takes an idle one to DISABLED and lets
another drain; a doorbell sets the tail, clamped to the queue. A fetch starts the descriptor at the head of the queue
that R53 picks, or waits at a fence, or stops the queue with the fault of the read (R454, R455). Where the manual is
silent it follows the model's choices of log entry 43. -/
def Obligations.QueuesFetchInOrder : Prop :=
  ∀ (s : State) (q : Nat), q < 64 → s.up = true →
    let k := s.queue q
    let n := s.queueSize q
    (k.mode = .disabled → ∃ t, exec (.queueEnable q) s = .next t ∧ t.queue q = { mode := .running }
        ∧ t.fld (Reg.hqQctrl q) 0 1 = 1)
      ∧ (k.mode ≠ .disabled → k.started = [] → ∃ t, exec (.queueDisable q) s = .next t ∧ t.queue q = {}
          ∧ t.fld (Reg.hqQctrl q) 0 1 = 0 ∧ t.fld (Reg.hqQtail q) 0 16 = 0)
      ∧ (k.mode ≠ .disabled → k.started ≠ [] → ∃ t, exec (.queueDisable q) s = .next t
          ∧ t.queue q = { k with draining := true } ∧ t.fld (Reg.hqQctrl q) 0 1 = 0)
      ∧ (∀ tail, tail < 65536 → ∃ t, exec (.doorbell q tail) s = .next t ∧ t.host.queues = s.host.queues
          ∧ t.fld (Reg.hqQtail q) 0 16 = min tail (n - 1))
      ∧ (s.queueReady q = true → ∃ t, exec (.hqFetchTimeout q) s = .next t
          ∧ t.queue q = { k with mode := .stopped, fault := 3 })
      ∧ (arbiter 64 s.pitch s.queueReady = some q → ∀ (words : List W32),
          let ws := words.map BitVec.toNat
          (∀ st, st ≠ 0 → ∃ t, exec (.descriptorFetch st words) s = .next t
              ∧ t.queue q = { k with mode := .stopped, fault := min st 3 }
              ∧ (t.reg Reg.hqHostErr).toNat = min ((s.reg Reg.hqHostErr).toNat + 1) 0xFFFFFFFF)
            ∧ (wfield ws 1 8 1 = 1 → k.started ≠ [] →
                exec (.descriptorFetch 0 words) s = .next ((s.readDesc q).setQueue q { k with fenced := true }))
            ∧ (wfield ws 1 8 1 = 0 ∨ k.started = [] → wfield ws 1 0 8 ≤ 4 → hqItems ws = [] →
                ∃ t, exec (.descriptorFetch 0 words) s = .next t ∧ t.queue q = { k with
                  head := (k.head + 1) % n, started := k.started ++ [{ slot := k.head, words := words }], fenced := false }))

/-- A descriptor that is done leaves its completion record in the next slot of the completion ring, with the tick, its
cookie, slot, status and kind, its result, and the phase of this pass; a queue that has drained is DISABLED (R455,
R462). NOP and WAIT complete with status 0, the latter once its tick has come; STEP completes with status 4 for
another epoch and 5 outside a step, and else waits for the verdict (R457, R459, R461). -/
def Obligations.DescriptorsComplete : Prop :=
  (∀ (s : State) (q st r : Nat) (d : Started), q < 64 → d ∈ (s.queue q).started →
    let k := s.queue q
    let n := s.queueSize q
    let t := s.complete q d st r
    s.insecure 0 = false →
    (.hostWrite (s.reg64 (Reg.hqQcbaseLo q) (Reg.hqQcbaseHi q) + 32 * (k.completed % n))
        [BitVec.ofNat 64 s.pitch, BitVec.ofNat 64 (nthWord d.ws 2 + 2 ^ 32 * d.slot + 2 ^ 48 * st + 2 ^ 56 * d.kind),
         BitVec.ofNat 64 r, if k.completed / n % 2 = 0 then 0x8000000000000000 else 0] : Output) ∈ t.out
      ∧ (k.draining = false → t.queue q = { k with completed := k.completed + 1, started := k.started.erase d })
      ∧ (k.draining = true → k.started = [d] → t.queue q = {})
      ∧ (wfield d.ws 1 9 1 = 1 → s.fld (Reg.hqQctrl q) 8 1 = 1 → (s.reg (Reg.msixTable (4 * q + 3))).getLsbD 0 = false →
          .msix q ∈ t.out))
  ∧ (∀ (s : State) (q slot : Nat) (d : Started), q < 64 → s.up = true →
    (s.startedAt q slot 0 = some d → d.begun = false → exec (.descNop q slot) s = .next (s.complete q d 0 0))
      ∧ (s.startedAt q slot 4 = some d → d.begun = false →
          (s.waitDue d = true → exec (.wait q slot) s = .next (s.complete q d 0 0))
            ∧ (s.waitDue d = false → exec (.wait q slot) s = .next (s.putStarted q d { d with begun := true })))
      ∧ (s.begunAt q slot 4 = some d →
          (s.waitDue d = true → exec (.waitComplete q slot) s = .next (s.complete q d 0 0))
            ∧ (s.waitDue d = false → exec (.waitComplete q slot) s = .next s))
      ∧ (s.startedAt q slot 2 = some d → d.begun = false → s.stepping = true →
          (s.epoch.toNat ≠ nthWord d.ws 3 → exec (.step q slot) s = .next (s.complete q d 4 s.epoch.toNat))
            ∧ (s.epoch.toNat = nthWord d.ws 3 → nthWord d.ws 4 = 0 → nthWord d.ws 5 = 0 →
                exec (.step q slot) s = .next (s.putStarted q d { d with begun := true }))
            ∧ ∀ t, s.epoch.toNat = nthWord d.ws 3 → t = nthWord d.ws 4 + 2 ^ 32 * nthWord d.ws 5 → t ≠ 0 →
                exec (.step q slot) s = .next ((s.sealAt unitMgmt t).putStarted q d { d with begun := true }))
      ∧ (s.startedAt q slot 2 = some d → d.begun = false → s.stepping = false → wfield d.ws 6 0 1 = 0 →
          s.epoch.toNat = nthWord d.ws 3 → exec (.step q slot) s = .next (s.complete q d 5 0)))

/-- PROGRAM writes its image into the instruction memory of each of its cells, and nowhere else, and completes; with
START it waits for its tick, and PROGRAM_START then starts the cells. Where a cell is RUNNING it completes with status
3 and writes nothing (R458). Where the manual is silent it follows the model's choices of log entry 43. -/
def Obligations.ProgramLoadsItsCells : Prop :=
  ∀ (s : State) (q slot : Nat) (d : Started) (image : List W64), q < 64 → s.up = true →
    let cells := progCellList d.ws
    let w0 := wfield d.ws 5 0 12
    let n := wfield d.ws 5 12 13
    let read : Output := .hostRead (nthWord d.ws 3 + 2 ^ 32 * nthWord d.ws 4) (8 * n)
    (s.startedAt q slot 1 = some d → d.begun = false → s.progOverlaps cells = false →
        ((∃ c ∈ cells, (s.cell c).run = .running) → exec (.program q slot image) s = .next (s.complete q d 3 0))
          ∧ ((∀ c ∈ cells, (s.cell c).run ≠ .running) → ∃ t, exec (.program q slot image) s = .next t
              ∧ (∀ c ∈ cells, ∀ w, tabGet (fun _ => 0) (t.cell c).imem w
                  = if w0 ≤ w ∧ w < w0 + n then image.getD (w - w0) 0 else tabGet (fun _ => 0) (s.cell c).imem w)
              ∧ (∀ c, c ∉ cells → t.cell c = s.cell c) ∧ SameMemory s t
              ∧ (wfield d.ws 7 0 1 = 0 → t.host = (((s.toHost read).progLoad d image).complete q d 0 0).host)
              ∧ (wfield d.ws 7 0 1 = 1 → ∀ c ∈ cells, (t.cell c).pc = BitVec.ofNat 12 (wfield d.ws 7 1 12)
                  ∧ (s.progDue d = true → (t.cell c).run = .running) ∧ (s.progDue d = false → (t.cell c).run = (s.cell c).run))))
      ∧ (s.begunAt q slot 1 = some d →
          (s.progDue d = false → exec (.programStart q slot) s = .next s)
            ∧ (s.progDue d = true → ∃ t, exec (.programStart q slot) s = .next t
                ∧ (∀ c ∈ cells, (t.cell c).run = .running ∧ (t.cell c).pc = (s.cell c).pc)
                ∧ ∀ c, c ∉ cells → t.cell c = s.cell c))

/-- COPY from the host asks for its bytes and COPY_COMPLETE writes them to the pool; COPY to the host sends the pool's
bytes, once the pages are there. A host access that fails completes with status 1 and result 8, and is counted; a pool address out of place, or
a page that cannot be served, completes with status 1 and result 1 (R460). Where the manual is silent it follows the
model's choices of log entry 43. -/
def Obligations.CopyMovesItsBytes : Prop :=
  ∀ (s : State) (q slot : Nat) (d : Started), q < 64 → s.up = true →
    let a := copyPool d.ws
    let n := 64 * wfield d.ws 7 0 24
    let host := nthWord d.ws 3 + 2 ^ 32 * nthWord d.ws 4
    let e : Started := { d with begun := true }
    let v := s.putStarted q d e
    let w : FarWaiter := .cmd (.copy q slot)
    let u := (v.goOn w).putStarted q e { e with sent := true }
    let served := ∀ p ∈ copyPages d.ws, s.pageOk p = true
    (s.startedAt q slot 3 = some d → d.sent = false →
        (copyPoolOk d.ws = false → exec (.copy q slot) s = .next (s.complete q d 1 1))
          ∧ (copyPoolOk d.ws = true → served → v.farNeed w (copyPages d.ws) = [] →
              (wfield d.ws 7 31 1 = 0 → exec (.copy q slot) s = .next (u.toHost (.hostRead host n)))
                ∧ (wfield d.ws 7 31 1 = 1 →
                    exec (.copy q slot) s = .next ((u.poolTouch a n).toHost (.hostData host (s.poolRaw a n)))))
          ∧ ∀ p l, copyPoolOk d.ws = true → copyPages d.ws = p :: l → s.pageOk p = false →
              exec (.copy q slot) s = .next (((s.putStarted q d e).xferFault 0xFFFF p).complete q e 1 1))
      ∧ (s.begunAt q slot 3 = some d → d.sent = true → ∀ data : List Byte,
          (∀ st, st ≠ 0 → exec (.copyComplete q slot st data) s = .next ((s.bump Reg.hqHostErr).complete q d 1 8))
            ∧ (wfield d.ws 7 31 1 = 1 → exec (.copyComplete q slot 0 data) s = .next (s.complete q d 0 0))
            ∧ (wfield d.ws 7 31 1 = 0 → data.length = n → served →
                s.farNeed (.cmd (.copyComplete q slot 0 data)) (copyPages d.ws) = [] →
                exec (.copyComplete q slot 0 data) s
                  = .next (((s.goOn (.cmd (.copyComplete q slot 0 data))).poolWrite a data).complete q d 0 0)))

/-- Events reach their ring: a record is held while the ring is disabled, up to the 256 or 64 that its ring holds; on
an enabled ring with nothing waiting it is written at the tail, or lost while the ring is full. Enabling a ring writes
what it holds, oldest first, and a signal that is due, or that one record in COALESCE asks for, goes out on its vector (R464 to
R466, R490). -/
def Obligations.RecordsReachTheirRing : Prop :=
  ∀ (s : State) (r : RingRegs), (r = evtRing ∨ r = clampRing) →
    let g := s.ring r
    (∀ x : RingRec,
        (s.ringOn r = false → g.held.length < r.hold →
            (s.ringPut r x).2 = s.setRing r { g with held := g.held ++ [x] })
          ∧ (s.ringOn r = false → r.hold ≤ g.held.length → (s.ringPut r x).2 = s.ringLose r)
          ∧ (s.ringOn r = true → g.held = [] → g.lost = 0 →
              (s.ringFull r = true → (s.ringPut r x).2 = s.ringLose r)
                ∧ (s.ringFull r = false →
                    let t := (s.ringPut r x).2
                    let m := s.fld r.tail 0 16 % s.ringSize r
                    t.fld r.tail 0 16 = (m + 1) % s.ringSize r % 65536 ∧ (t.ring r).seq = g.seq + 1
                      ∧ (s.insecure 0 = false → ∃ q2 q3,
                        .hostWrite (s.reg64 r.baseLo r.baseHi + 32 * m) [x.q0, x.q1, q2, q3] ∈ t.out))))
      ∧ (∀ (x : RingRec) (l : List RingRec), s.ringOn r = true → s.ringFull r = false →
          (g.held = x :: l → s.ringDrain r = ((s.setRing r { g with held := l }).ringWrite r x).ringDrain r)
            ∧ (s.insecure 0 = false → s.fld r.ctrl 9 1 = 1 → s.fld r.ctrl 16 8 ≤ g.unsignalled + 1 →
                (s.reg (Reg.msixTable (4 * r.vector + 3))).getLsbD 0 = false →
                .msix r.vector ∈ (s.ringWrite r x).out ∧ ((s.ringWrite r x).ring r).unsignalled = 0))
      ∧ (s.barOn = true → exec .eventRingEnable s = .next ((s.setFld Reg.evtCtrl 0 1 1).ringDrain evtRing).2
          ∧ exec .clampRingEnable s = .next (s.setFld Reg.bootCringCtrl 0 1 1).clampDrain)
      ∧ (s.barOn = true → s.host.evt.held = [] → s.host.evt.lost = 0 →
          exec .eventRingEnable s = .next (s.setFld Reg.evtCtrl 0 1 1))
      ∧ (s.barOn = true → s.host.clamp.held = [] → s.host.clamp.lost = 0 →
          exec .clampRingEnable s = .next (s.setFld Reg.bootCringCtrl 0 1 1))
      ∧ (s.barOn = true → s.irqDue evtRing (s.fld Reg.evtIrqDelay 0 16) = true →
          ∃ t, exec .eventIrqDelay s = .next t ∧ t.host.evt = { s.host.evt with unsignalled := 0, firstTick := none }
            ∧ ((s.reg (Reg.msixTable 259)).getLsbD 0 = false → s.insecure 0 = false → t.out = s.out ++ [.msix 64])
            ∧ ((s.reg (Reg.msixTable 259)).getLsbD 0 = true → t.out = s.out ∧ t.fld (Reg.msixPending 2) 0 1 = 1))
      ∧ (s.barOn = true → s.irqDue clampRing 100 = true →
          ∃ t, exec .clampIrqDelay s = .next t ∧ t.host.clamp = { s.host.clamp with unsignalled := 0, firstTick := none }
            ∧ ((s.reg (Reg.msixTable 263)).getLsbD 0 = false → s.insecure 0 = false → t.out = s.out ++ [.msix 65])
            ∧ ((s.reg (Reg.msixTable 263)).getLsbD 0 = true → t.out = s.out ∧ t.fld (Reg.msixPending 2) 1 1 = 1))

/-! ### Boot, pairing, resets and registers (chapters 15 to 17) -/

/-- COLD_BOOT takes of each type the image of the selector's slot where it is valid, else that of the other slot,
which is reported as a fallback; with neither valid it enters RECOVERY with reason 4 or 5. The pair is then evaluated:
it runs at its level, or is HELD with its reason. FIRMWARE_START brings a pair that runs to RUNNING (R472, R475,
R478). Where the manual is silent it follows the model's choices of log entries 44, 51. -/
def Obligations.ColdBootTakesValidImages : Prop :=
  ∀ (s : State) (straps : BitVec 3) (hs hn : List Byte) (f u : Image),
    s.alive = true → s.boot.stage = .rom → s.boot.starting = false →
      let ok := fun (t n : Nat) => s.imageFault (t == 1) (s.boot.slot t n) = 0
      let boots := fun (P : State → Prop) => ∃ t, exec (.coldBoot straps hs hn) s = .next t ∧ t.boot.straps = straps ∧ P t
      (¬ok 0 s.boot.selFw → ¬ok 0 (1 - s.boot.selFw) →
          boots (fun t => t.boot.stage = .recovery ∧ t.boot.reason = 4 ∧ t.boot.fw = s.boot.fw))
        ∧ (ok 0 s.boot.selFw → s.boot.slot 0 s.boot.selFw = some f → ¬ok 1 s.boot.selUc → ¬ok 1 (1 - s.boot.selUc) →
          boots (fun t => t.boot.stage = .recovery ∧ t.boot.reason = 5 ∧ t.boot.fw = some f))
        ∧ (∀ a b, s.boot.slot 0 a = some f → s.boot.slot 1 b = some u → ok 0 a → ok 1 b →
            (a = s.boot.selFw ∨ a = 1 - s.boot.selFw ∧ ¬ok 0 s.boot.selFw) →
            (b = s.boot.selUc ∨ b = 1 - s.boot.selUc ∧ ¬ok 1 s.boot.selUc) →
              let e := evalPair s.boot.hwl s.levelPolicy f u
              boots (fun t => t.boot.fw = some f ∧ t.boot.uc = some u ∧ t.boot.fwSlot = a ∧ t.boot.ucSlot = b
                ∧ t.boot.reason = e.reason ∧ t.boot.level = e.level ∧ t.boot.levelled = e.levelled
                ∧ (e.reason = 0 → t.boot.starting = true) ∧ (e.reason ≠ 0 → t.boot.stage = .held ∧ t.boot.starting = false)
                ∧ (¬ok 0 s.boot.selFw ∨ ¬ok 1 s.boot.selUc → t.boot.fallback = true)))
        ∧ ∀ v : State, v.alive = true → v.boot.starting = true → v.rst.busy = false →
            ∃ t, exec .firmwareStart v = .next t ∧ t.boot = { v.boot with stage := .running, starting := false } ∧ t.up = true

/-- The rule of R475 over a pair: level and reason as it says, with its worked example. PAIR evaluates it again in
HELD: FW_INCOMPATIBLE, FW_UNTESTED_PAIR or FW_LEVEL is reported as the rule says, and the boot of a pair that runs
goes on without a reset. In any other stage PAIR completes with result 8 and changes nothing (R475, R477). -/
def Obligations.PairsAreEvaluated : Prop :=
  (∀ (hwl : Nat) (policy : Bool) (f u : Image),
    let e := evalPair hwl policy f u
    let lo := max f.plMin u.plMin
    let hi := min f.plMax u.plMax
    let onHw := f.hwMin ≤ hwl ∧ hwl ≤ f.hwMax ∧ u.hwMin ≤ hwl ∧ hwl ≤ u.hwMax
    let listed := u.version ∈ f.tested.take 32 ∨ f.version ∈ u.tested.take 32
    (e.reason = 3 ↔ ¬onHw) ∧ (e.reason = 2 ↔ onHw ∧ hi < lo)
      ∧ (e.reason = 1 ↔ onHw ∧ lo ≤ hi ∧ ¬listed ∧ policy = false)
      ∧ (e.reason = 0 ↔ onHw ∧ lo ≤ hi ∧ (listed ∨ policy = true))
      ∧ (e.reason = 0 → e.level = hi ∧ (e.levelled = true ↔ ¬listed)))
  ∧ (∀ (f u : Image), f.version = 0x03040000 → f.hwMin = 3 → f.hwMax = 5 → f.plMin = 5 → f.plMax = 7 →
      f.tested = [0x02010000, 0x02020000] → u.version = 0x02030000 → u.hwMin = 4 → u.hwMax = 4 → u.plMin = 4 → u.plMax = 6 →
      u.tested = [0x03020000, 0x03030000] → evalPair 4 false f u = ⟨1, 0, false⟩ ∧ evalPair 4 true f u = ⟨0, 6, true⟩)
  ∧ ∀ (s : State) (f u : Image), s.barOn = true → s.boot.load = none →
      (s.boot.fw = some f → s.boot.uc = some u → s.boot.stage = .held → s.boot.starting = false →
          let e := evalPair s.boot.hwl s.levelPolicy f u
          let told := fun (code data : Nat) => s.report code unitMgmt data
          let r := if e.reason = 3 ∨ e.reason = 2 then told 0x0704 (e.reason + 2 ^ 8 * s.boot.hwl)
            else if e.reason = 1 then told 0x0703 (majorMinor f.version + 2 ^ 16 * majorMinor u.version)
            else if e.levelled = true then told 0x0705 (e.level + 2 ^ 8) else s
          ∃ t, exec .pair s = .next t ∧ t.boot.result = 0 ∧ t.boot.reason = e.reason ∧ t.boot.level = e.level
            ∧ t.boot.levelled = e.levelled ∧ t.boot.stage = .held ∧ t.boot.starting = (e.reason == 0)
            ∧ t.host = r.host ∧ t.out = r.out ∧ t.rst = s.rst ∧ t.pitch = s.pitch ∧ t.step = s.step ∧ SameMemory s t)
        ∧ (s.boot.stage ≠ .held → exec .pair s = .next { s with boot := { s.boot with result := 8 } })

/-- An image is checked in the order header, key, signature, version, hash, and the first check that fails gives the
result; one that passes all is valid. LOAD_FW and LOAD_UC ask the host for the image; a valid one goes to the slot
that the selector does not name, and to no other, and ACTIVATE then points the selector at it. A load that fails
leaves every valid slot as it is (R471, R479, R480, R482). Where the manual is silent it follows the model's choices
of log entry 44. -/
def Obligations.ImagesAreLoadedAndActivated : Prop :=
  (∀ (s : State) (uc : Bool) (i : Image),
    let header := i.magic = 0x54444C48 ∧ i.type = (if uc then 2 else 1) ∧ i.hdrver = 1
      ∧ i.payloadLen ≤ (if uc then 4194304 else 16777216)
    let key := i.key ≤ 3 ∧ s.boot.revoked.getLsbD i.key = false ∧ i.keyDigest = s.boot.keyDigests.getD i.key 0
    let r := s.imageFault uc (some i)
    (r = 2 ↔ ¬header) ∧ (header → ¬key → r = 4) ∧ (header → key → i.sigOk = false → r = 3)
      ∧ (header → key → i.sigOk = true → i.svn < s.boot.fuseSvn → r = 5)
      ∧ (header → key → i.sigOk = true → s.boot.fuseSvn ≤ i.svn → i.hashOk = false → r = 6)
      ∧ (r = 0 ↔ header ∧ key ∧ i.sigOk = true ∧ s.boot.fuseSvn ≤ i.svn ∧ i.hashOk = true))
  ∧ ∀ (s : State), s.barOn = true →
    (∀ x ∈ [(Instr.loadFw, false), (.loadUc, true)],
        (s.boot.load = none → exec x.1 s = .next (({ s with boot := { s.boot with load := some ⟨x.2⟩ } }).toHost
            (.hostRead (s.reg64 Reg.bootLoadAddrLo Reg.bootLoadAddrHi) (s.fld Reg.bootLoadLen 0 25))))
          ∧ (s.boot.load ≠ none → exec x.1 s = .next s))
      ∧ (∀ (uc : Bool) (i : Image), s.boot.load = some ⟨uc⟩ → s.boot.resetAfterLoad = false →
          let t0 := b2n uc
          let n := 1 - s.boot.sel t0
          let r := s.imageFault uc (some i)
          (r = 0 → ∃ t, exec (.loadComplete (some i) true) s = .next t ∧ t.boot.load = none ∧ t.boot.result = 0
              ∧ t.boot.slots = (s.boot.setSlot t0 n (some i)).slots
              ∧ (if uc then t.boot.loadedUc else t.boot.loadedFw) = some n ∧ t.boot.selFw = s.boot.selFw
              ∧ t.boot.selUc = s.boot.selUc)
            ∧ (r ≠ 0 → ∀ ok, ∃ t, exec (.loadComplete (some i) ok) s = .next t ∧ t.boot.load = none ∧ t.boot.result = r
              ∧ t.boot.slots = s.boot.slots)
            ∧ (∀ ok, ∃ t, exec (.loadComplete none ok) s = .next t ∧ t.boot.load = none ∧ t.boot.result = 1
              ∧ t.boot.slots = s.boot.slots)
            ∧ (r = 0 → ∃ t, exec (.loadComplete (some i) false) s = .next t ∧ t.boot.result = 9
              ∧ t.boot.slots = (s.boot.setSlot t0 n none).slots))
      ∧ (s.boot.load = none →
          (∀ n, s.boot.loadedFw = some n →
              exec .activateFw s = .next { s with boot := { s.boot with selFw := n, result := 0 } })
            ∧ (∀ n, s.boot.loadedUc = some n →
              exec .activateUc s = .next { s with boot := { s.boot with selUc := n, result := 0 } })
            ∧ (s.boot.loadedFw = none → exec .activateFw s = .next { s with boot := { s.boot with result := 7 } })
            ∧ (s.boot.loadedUc = none → exec .activateUc s = .next { s with boot := { s.boot with result := 7 } }))

/-- COMMIT_SVN in RUNNING raises FUSE_SVN to the lower SVN of the two running images, and never lowers it;
PERSIST_POLICY makes BOOT_FWPOLICY the value after reset. Elsewhere they complete with result 8, and with 9 where the
fuses or the flash cannot be written. COLD_RESET leaves only fuses and flash, with cause 5, or waits for the load in
progress (R480, R481). Where the manual is silent it follows the model's choices of log entry 44. -/
def Obligations.FusesPolicyAndColdReset : Prop :=
  ∀ (s : State), s.barOn = true →
    let with_ := fun (b : Boot) => ({ s with boot := b } : State)
    (s.boot.load = none →
        (∀ f u, s.boot.stage = .running → s.boot.fw = some f → s.boot.uc = some u → exec (.commitSvn true) s =
            .next (with_ { s.boot with fuseSvn := max s.boot.fuseSvn (min f.svn u.svn), result := 0 }))
          ∧ (s.boot.stage ≠ .running → ∀ ok, exec (.commitSvn ok) s = .next (with_ { s.boot with result := 8 }))
          ∧ (s.boot.stage = .running → exec (.commitSvn false) s = .next (with_ { s.boot with result := 9 }))
          ∧ (s.boot.stage ≠ .recovery →
              exec (.persistPolicy true) s = .next (with_ { s.boot with policy := s.levelPolicy, result := 0 })
                ∧ exec (.persistPolicy false) s = .next (with_ { s.boot with result := 9 }))
          ∧ (s.boot.stage = .recovery → ∀ ok, exec (.persistPolicy ok) s = .next (with_ { s.boot with result := 8 }))
          ∧ ∃ t, exec .coldReset s = .next t ∧ t.boot = s.boot.kept ∧ t.rst.cause = 5 ∧ t.rst.stepLost = s.stepping
            ∧ t.pitch = 0 ∧ t.spad = [] ∧ t.hbm = [] ∧ t.pool = {} ∧ t.pwr.warnPin = s.pwr.warnPin
            ∧ t.fld Reg.bootFwpolicy 0 1 = b2n s.boot.policy)
      ∧ (s.boot.load ≠ none → exec .coldReset s = .next (with_ { s.boot with resetAfterLoad := true }))

/-- A warm reset in RUNNING keeps the pitch count, HBM, images and RWS fields, and resets cores, scratchpad, the pool
directory, the step and RW fields; MOD_RESET_STATUS is BUSY until it completes with RESET_DONE. In HELD or RECOVERY it
resets the rings and queues. One that comes while BUSY is ignored (R498 to R500). Where the manual is silent it
follows the model's choices of log entry 44. -/
def Obligations.WarmResetKeepsWhatItMust : Prop :=
  ∀ (s : State),
    (s.barOn = true → s.boot.stage = .running → ∃ t, exec .warmReset s = .next t
        ∧ t.rst = { cause := 1, stepLost := s.stepping, busy := true } ∧ t.pitch = s.pitch ∧ t.hbm = s.hbm
        ∧ t.boot.stage = .running ∧ t.boot.fw = s.boot.fw ∧ t.boot.uc = s.boot.uc ∧ t.boot.level = s.boot.level
        ∧ t.boot.sessions = [] ∧ t.boot.load = none ∧ t.cells = [] ∧ t.spad = [] ∧ t.gss = [] ∧ t.pool.dir = []
        ∧ t.step.mode = .idle ∧ t.epoch = 0 ∧ t.pwr.trip = s.pwr.trip
        ∧ t.fld Reg.fabAddr 0 17 = s.fld Reg.fabAddr 0 17 ∧ t.fld Reg.fabAddr 31 1 = s.fld Reg.fabAddr 31 1
        ∧ t.reg Reg.fabCtrl = resetWord Reg.fabCtrl
        ∧ (∀ off, off ≠ Reg.modWarmResets → off ≠ Reg.bootFwpolicy →
            t.reg off = if off ∈ s.regs.map (·.1) then warmWord off (s.reg off) else s.reg off)
        ∧ (t.reg Reg.modWarmResets).toNat = min ((s.reg Reg.modWarmResets).toNat + 1) 0xFFFFFFFF)
      ∧ (s.barOn = true → s.boot.stage ≠ .running → ∃ t, exec .warmReset s = .next t
          ∧ t.rst = { cause := 1, stepLost := s.stepping, busy := true } ∧ t.boot.stage = s.boot.stage
          ∧ t.host.queues = [] ∧ t.host.evt = {} ∧ t.host.clamp = {})
      ∧ (s.rst.busy = true → exec .warmReset s = .next s)
      ∧ (s.alive = true → s.rst.busy = true → ∃ t, exec .warmResetComplete s = .next t ∧ t.rst = { s.rst with busy := false }
          ∧ t.boot = s.boot ∧ (s.boot.stage ≠ .running → ∃ r, t.host.evt.held = r :: s.host.evt.held
              ∧ r.q0 = BitVec.ofNat 64 s.pitch
              ∧ r.q1 = BitVec.ofNat 64 (0x7FFF0720 + 2 ^ 32 * (s.rst.cause + 2 ^ 8 * b2n s.rst.stepLost))))

/-- RST_N held low for 100 µs or more is a cold reset, in which the module stays until the pin is released; one below
1 µs does nothing, and between the two either happens. Without its reference clock the module stands still and its
link is lost (R498, R507, R508). Where the manual is silent it follows the model's choices of log entries 6, 44. -/
def Obligations.ResetPinAndClock : Prop :=
  ∀ (s : State), s.pwr.off = false → s.pwr.rstLow = false →
    let reset := fun (t : State) => t.pwr.rstLow = true ∧ t.alive = false ∧ t.boot = s.boot.kept ∧ t.hbm = [] ∧ t.pitch = 0
      ∧ t.rst.cause = if s.rst.cause = 4 ∧ s.boot.stage = .rom ∧ s.boot.starting = false then 4 else 6
    (∀ ns, (100000 ≤ ns → ∃ t, exec (.rstNAssert ns) s = .next t ∧ reset t)
        ∧ (ns < 1000 → exec (.rstNAssert ns) s = .next s)
        ∧ ∃ t, exec (.rstNAssert ns) s = .next t ∧ (reset t ∨ t = { s with free := t.free }))
      ∧ (∀ v : State, v.pwr.rstLow = true →
          exec .rstNRelease v = .next { v with pwr := { v.pwr with rstLow := false } })
      ∧ (s.pwr.clockLost = false → ∃ t, exec .refclkLoss s = .next t ∧ t.pwr.clockLost = true ∧ t.alive = false
          ∧ t.host.cxl = false ∧ t.boot = s.boot ∧ t.pitch = s.pitch ∧ SameMemory s t)

/-- Registers: a write within range is stored, one out of range is stored as the nearest value and counted as a clamp,
and a write-1-to-clear field loses the bits written; a write of a read-only register, and one of fewer than four
bytes, changes nothing. An offset that no register occupies reads as 0 and a write there changes nothing; no event is
raised. A read of a dword, of a qword as two dwords, or of one or two bytes of a dword answers with the register, and
that of PIT_COUNT_LO latches the high half (R6 to R10, R58, R446). -/
def Obligations.RegistersAreReadAndWritten : Prop :=
  ∀ (s : State) (v : W64), s.up = true → s.insecure 0 = false →
    (∀ x, x < 2 ^ 32 → v.toNat % 2 ^ 32 = x →
        (∃ t, exec (.registerWrite Reg.poolUe 4 v) s = .next t ∧ (t.reg Reg.poolUe).toNat = x)
          ∧ (100 ≤ x % 2 ^ 24 → ∃ t, exec (.registerWrite Reg.fabTxnTimeout 4 v) s = .next t
              ∧ t.txnTimeout = x % 2 ^ 24 ∧ t.reg Reg.bootClamps = s.reg Reg.bootClamps)
          ∧ (x % 2 ^ 24 < 100 → ∃ t, exec (.registerWrite Reg.fabTxnTimeout 4 v) s = .next t ∧ t.txnTimeout = 100
              ∧ (t.reg Reg.bootClamps).toNat = min ((s.reg Reg.bootClamps).toNat + 1) 0xFFFFFFFF)
          ∧ (∃ t, exec (.registerWrite (Reg.cellNumStatus 0) 4 v) s = .next t
              ∧ t.fld (Reg.cellNumStatus 0) 0 1 = (if x % 2 = 1 then 0 else s.fld (Reg.cellNumStatus 0) 0 1)))
      ∧ exec (.registerWrite Reg.bootStatus 4 v) s = .next s
      ∧ (∀ off, fieldsAt off = [] → exec (.registerWrite off 4 v) s = .next s
          ∧ (off % 4 = 0 → off < 0x4000000 → ∃ t, exec (.loReadLatch off 4) s = .next t
              ∧ t.out = s.out ++ [.regRead off 0] ∧ t.host = s.host))
      ∧ (∀ off n, n < 4 → exec (.registerWrite off n v) s = .next s)
      ∧ (∀ off, off < 0x4000000 →
          (off % 4 = 0 → exec (.registerWrite off 4 v) s = .next (s.writeReg off (v.toNat % 2 ^ 32)))
            ∧ (off % 8 = 0 → exec (.registerWrite off 8 v) s
                = .next ((s.writeReg off (v.toNat % 2 ^ 32)).writeReg (off + 4) (v.toNat / 2 ^ 32)))
            ∧ (off % 8 = 0 → exec (.loReadLatch off 8) s = .next ((s.readBytes off 4).readBytes (off + 4) 4))
            ∧ ∀ n, (n = 1 ∨ n = 2 ∨ n = 4) → off % 4 + n ≤ 4 →
                let d := off / 4 * 4
                let t := s.readBytes off n
                exec (.loReadLatch off n) s = .next t
                  ∧ t.out = s.out ++ [.regRead off (BitVec.ofNat 32 ((s.readReg d).toNat / 2 ^ (8 * (off % 4)) % 2 ^ (8 * n)))]
                  ∧ t.latched = (hiLatch d).elim s.latched (fun hi => tabSet resetWord s.latched hi (s.liveHi hi))
                  ∧ t.regs = s.regs ∧ t.host = s.host ∧ t.step = s.step ∧ SameMemory s t)
      ∧ (∀ (off x : Nat) (f : FieldRow), f.own = false → s.fieldFixed off f = false →
          let y := x / 2 ^ f.lo % 2 ^ f.width
          let z := s.fieldClamp off f y
          let old := s.fld off f.lo f.width
          (f.acc = .ro ∨ f.acc = .wo → s.writeField off x f = s)
            ∧ (f.acc = .w1c → s.writeField off x f = s.setFld off f.lo f.width (old - (old &&& y)))
            ∧ (f.acc = .rw ∨ f.acc = .rws → f.count = false →
                (z = y → s.writeField off x f = s.setFld off f.lo f.width y)
                  ∧ (z ≠ y → s.writeField off x f = (s.setFld off f.lo f.width z).clampReg off f.lo y z)))
      ∧ ∃ t, exec (.loReadLatch Reg.pitCountLo 4) s = .next t
          ∧ t.out = s.out ++ [.regRead Reg.pitCountLo (BitVec.ofNat 32 (s.pitch % 2 ^ 32))]
          ∧ ∀ u : State, u.latched = t.latched → u.readReg Reg.pitCountHi = BitVec.ofNat 32 (s.pitch / 2 ^ 32)

/-- FREEZE holds the counters as they stand, which is what reads of them then return, and releases them again; CLEAR_ALL sets every RW count field to 0, live
and frozen, and leaves other fields (R496). Where the manual is silent it follows the model's choices of log entry 44.
-/
def Obligations.CountersFreezeAndClear : Prop :=
  ∀ (s : State), s.up = true →
    (∃ t, exec (.freeze false) s = .next t ∧ t.frozen = none ∧ t.fld Reg.modCtrCtrl 0 1 = 0)
      ∧ (s.frozen = none → ∃ t, exec (.freeze true) s = .next t ∧ t.frozen = some s.regs ∧ t.fld Reg.modCtrCtrl 0 1 = 1)
      ∧ (s.frozen ≠ none → ∃ t, exec (.freeze true) s = .next t ∧ t.frozen = s.frozen)
      ∧ (∀ off w, (∀ f ∈ fieldsAt off, f.acc = .rw → f.count = true →
            (clearedWord off w).toNat / 2 ^ f.lo % 2 ^ f.width = 0)
          ∧ ((∀ f ∈ fieldsAt off, ¬(f.acc = .rw ∧ f.count = true)) → clearedWord off w = w))
      ∧ (∀ (u : State) r off f, u.frozen = some r → fieldsAt off = [f] → f.count = true → u.storedWord off
          = putField (u.reg off).toNat f.lo f.width ((tabGet resetWord r off).toNat / 2 ^ f.lo))
      ∧ ∃ t, exec .clearAll s = .next t ∧ t.reg Reg.poolUe = 0 ∧ t.reg Reg.fabUnroutable = 0
          ∧ (∀ off, t.reg off = if off ∈ s.regs.map (·.1) then clearedWord off (s.reg off) else s.reg off)
          ∧ t.frozen = s.frozen.map clearCounts
          ∧ t.reg Reg.fabAddr = s.reg Reg.fabAddr ∧ t.pitch = s.pitch ∧ t.boot = s.boot ∧ SameMemory s t

/-! ### The machine as a whole -/

/-- A step runs the command at the front of the queue on the state with the rest of the queue. On an empty queue the
pitch counter ticks (the model's choice, log entry 15); without power or clock, or in reset, nothing happens then.
Where the manual is silent it follows the model's choices of log entry 15. -/
def Obligations.StepRunsTheFrontCommand : Prop :=
  (∀ (s : State) (i : Instr) (rest : List Instr), s.pending = i :: rest → step s = exec i { s with pending := rest })
    ∧ ∀ s : State, s.pending = [] → step s = .next s.tick ∧ (s.alive = false → step s = .next s)

/-- The machine right after reset: every register at its reset value, the pitch counter at 0, nothing listed in
memory, no image taken, the step IDLE, no command waiting, and the cause of the reset a power return (R36, R495, R498,
R500). Where the manual is silent it follows the model's choices of log entries 2, 10. -/
def Obligations.ResetLeavesTheResetValues : Prop :=
  (∀ off, State.reset.reg off = resetWord off) ∧ State.reset.pitch = 0 ∧ State.reset.step.mode = .idle
    ∧ State.reset.boot.stage = .rom ∧ State.reset.boot.fw = none ∧ State.reset.boot.uc = none
    ∧ State.reset.rst = { cause := 4, stepLost := false, busy := false } ∧ State.reset.pending = []
    ∧ (∀ a, memByte State.reset.spad a = 0 ∧ memByte State.reset.hbm a = 0)
    ∧ Memory.wf State.reset.spad = true ∧ Memory.wf State.reset.hbm = true
    ∧ (∀ c, State.reset.cell c = {}) ∧ (∀ p, (State.reset.port p).mode = .disabled)
    ∧ State.reset.epoch = 0 ∧ State.reset.alive = true ∧ State.reset.works = false

/-- Secure boot holds in the state after reset. -/
def Obligations.ResetIsBootSafe : Prop :=
  State.reset.bootSafe

/-- Every step keeps secure boot: whatever the command, a module that runs, that is held, or that is about to start
its firmware has taken two images that pass every check of R471 under the fuses as they stand, and one that runs or is
about to runs a pair that R475 lets run, at the highest level that both implement (R471, R472, R475, R477, R481,
R500). -/
def Obligations.EveryStepKeepsSecureBoot : Prop :=
  ∀ (s t : State), s.bootSafe → step s = .next t → t.bootSafe

/-- No step lowers FUSE_SVN or changes a key digest, a revocation bit, the hardware level, the stepping or the ROM
(R471, R475, R481, R484). -/
def Obligations.FusesNeverGoBack : Prop :=
  ∀ (s t : State), step s = .next t → s.boot.fuseSvn ≤ t.boot.fuseSvn ∧ t.boot.keyDigests = s.boot.keyDigests
    ∧ t.boot.revoked = s.boot.revoked ∧ t.boot.hwl = s.boot.hwl ∧ t.boot.stepping = s.boot.stepping
    ∧ t.boot.romDigest = s.boot.romDigest

/-- No instruction of a core, and no command but those of boot, of images, of sessions and of reset, changes the
stage, the images, the selectors, the fuses or a session (R472, R476 to R485, R498 to R500). -/
def Obligations.OnlyBootCommandsChangeBootState : Prop :=
  ∀ (s t : State) (i : Instr), bootCommand i = false → exec i s = .next t → t.boot = s.boot

/-- A message header written as its sixteen words, or as its 64 bytes, reads back as it was, every field at every
value (R3, R339). -/
def Obligations.HeadersReadBackAsWritten : Prop :=
  ∀ h : Hdr, hdrOf (hdrWords h) = h ∧ hdrFrom (hdrBytes h) = h ∧ (hdrBytes h).length = 64

/-- Memories in their canonical form that read alike at every address are the same data, and a write keeps the form.
-/
def Obligations.MemoryIsCanonical : Prop :=
  ∀ (m n : List (Nat × Byte)), Memory.wf m = true →
    (∀ (a : Nat) (bs : List Byte), Memory.wf (memWrite m a bs) = true)
      ∧ (Memory.wf n = true → (∀ a, memByte m a = memByte n a) → m = n)

/-- A command that names units of the package answers a next state, whatever the state; one that names a unit the
package does not have is a fault (R13, R16, R20, R21, R435, R454). -/
def Obligations.CommandsActOnUnitsOfThePackage : Prop :=
  ∀ (s : State) (i : Instr),
    (i.wf = true → ∃ t, exec i s = .next t) ∧ (i.wf = false → exec i s = .fault .noSuchUnit)
end

