-- ==== Sys2Proof/Laws/Keep.lean ====
section
/-! SUPPORT. What it means that an outcome leaves the boot state alone, with the laws of the shared shapes of a meaning:
conditions, units, folds, and the issue of an instruction. -/

namespace Sys2Proof.Machine

/-- A next state has this boot state. -/
def bootOut (b : Boot) : Out → Prop
  | .next t => t.boot = b
  | .fault _ => True
  | .refused _ => True

/-- The state that the effect of an instruction leaves, if any, has this boot state. -/
def bootEff (b : Boot) : Eff → Prop
  | .done t => t.boot = b
  | .jump _ t => t.boot = b
  | .placed t => t.boot = b
  | .exc _ _ => True
  | .excRead t _ => t.boot = b
  | .stall => True
  | .wait t => t.boot = b

/-- A state, if there is one, has this boot state. -/
def bootOpt (b : Boot) : Option State → Prop
  | some t => t.boot = b
  | none => True

@[simp] theorem bootOut_next (b : Boot) (t : State) : bootOut b (.next t) ↔ t.boot = b := Iff.rfl
@[simp] theorem bootOut_fault (b : Boot) (f : Fault) : bootOut b (.fault f) := trivial
@[simp] theorem bootEff_done (b : Boot) (t : State) : bootEff b (.done t) ↔ t.boot = b := Iff.rfl
@[simp] theorem bootEff_jump (b : Boot) (x : Int) (t : State) : bootEff b (.jump x t) ↔ t.boot = b := Iff.rfl
@[simp] theorem bootEff_placed (b : Boot) (t : State) : bootEff b (.placed t) ↔ t.boot = b := Iff.rfl
@[simp] theorem bootEff_exc (b : Boot) (x y : Nat) : bootEff b (.exc x y) := trivial
@[simp] theorem bootEff_excRead (b : Boot) (t : State) (x : Nat) : bootEff b (.excRead t x) ↔ t.boot = b := Iff.rfl
@[simp] theorem bootEff_stall (b : Boot) : bootEff b .stall := trivial
@[simp] theorem bootEff_wait (b : Boot) (t : State) : bootEff b (.wait t) ↔ t.boot = b := Iff.rfl
@[simp] theorem bootOpt_some (b : Boot) (t : State) : bootOpt b (some t) ↔ t.boot = b := Iff.rfl
@[simp] theorem bootOpt_none (b : Boot) : bootOpt b none := trivial

theorem bootOpt_get {b : Boot} {o : Option State} {t : State} (h : bootOpt b o) (e : o = some t) : t.boot = b := by
  subst e; exact h

@[simp] theorem whenOk_boot (ok : Bool) (s t : State) :
    (whenOk ok s t).boot = if ok = true then t.boot else s.boot := by unfold whenOk; split <;> rfl

@[simp] theorem onUnit_boot (b : Boot) (ok : Bool) (s : State) (h : s.boot = b) : bootOut b (onUnit ok s) := by
  unfold onUnit; split
  · exact h
  · trivial

@[simp] theorem foldl_boot {α : Type} (f : State → α → State) (h : ∀ s a, (f s a).boot = s.boot) (l : List α) (s : State) :
    (l.foldl f s).boot = s.boot := by
  induction l generalizing s with
  | nil => rfl
  | cons a l ih => rw [List.foldl_cons, ih, h]

@[simp] theorem foldl_boot_snd {α β : Type} (f : β × State → α → β × State) (h : ∀ a x, (f a x).2.boot = a.2.boot)
    (l : List α) (a : β × State) : (l.foldl f a).2.boot = a.2.boot := by
  induction l generalizing a with
  | nil => rfl
  | cons x l ih => rw [List.foldl_cons, ih, h]

end Sys2Proof.Machine
end

