-- ==== Sys2Proof/Laws/BootOfOps.lean ====
section
/-! SUPPORT. No function of Machine/Ops.lean changes the boot state of the module. -/

namespace Sys2Proof.Machine

@[simp] theorem State.setReg_boot (s : State) (off : Nat) (v : W32) :
    (State.setReg s off v).boot = s.boot := by
  unfold State.setReg
  simp

@[simp] theorem State.setFld_boot (s : State) (off : Nat) (lo : Nat) (w : Nat) (v : Nat) :
    (State.setFld s off lo w v).boot = s.boot := by
  unfold State.setFld
  simp

@[simp] theorem State.bumpFld_boot (s : State) (off : Nat) (lo : Nat) (w : Nat) (n : Nat) :
    (State.bumpFld s off lo w n).boot = s.boot := by
  unfold State.bumpFld
  simp

@[simp] theorem State.bumpBy_boot (s : State) (off : Nat) (n : Nat) :
    (State.bumpBy s off n).boot = s.boot := by
  unfold State.bumpBy
  simp

@[simp] theorem State.bump_boot (s : State) (off : Nat) :
    (State.bump s off).boot = s.boot := by
  unfold State.bump
  simp

@[simp] theorem State.setReg64_boot (s : State) (lo : Nat) (hi : Nat) (v : Nat) :
    (State.setReg64 s lo hi v).boot = s.boot := by
  unfold State.setReg64
  simp

@[simp] theorem State.setCell_boot (s : State) (c : Nat) (v : Cell) :
    (State.setCell s c v).boot = s.boot := by
  unfold State.setCell
  simp

@[simp] theorem State.mapCells_boot (s : State) (f : Cell → Cell) :
    (State.mapCells s f).boot = s.boot := by
  unfold State.mapCells
  simp

@[simp] theorem State.setGs_boot (s : State) (n : Nat) (v : Gs) :
    (State.setGs s n v).boot = s.boot := by
  unfold State.setGs
  simp

@[simp] theorem State.setCu_boot (s : State) (d : Nat) (v : Cu) :
    (State.setCu s d v).boot = s.boot := by
  unfold State.setCu
  simp

@[simp] theorem State.setPort_boot (s : State) (p : Nat) (v : Port) :
    (State.setPort s p v).boot = s.boot := by
  unfold State.setPort
  simp

@[simp] theorem State.setQueue_boot (s : State) (q : Nat) (v : Queue) :
    (State.setQueue s q v).boot = s.boot := by
  unfold State.setQueue
  simp

@[simp] theorem State.emit_boot (s : State) (o : Output) :
    (State.emit s o).boot = s.boot := by
  unfold State.emit
  simp

@[simp] theorem State.drawNat_boot (s : State) :
    (State.drawNat s).2.boot = s.boot := by
  unfold State.drawNat
  simp

theorem State.drawNat_boot' {s : State} {fst' : Nat} {snd' : State}
    (hyp' : (State.drawNat s) = (fst', snd')) : snd'.boot = s.boot := by
  rw [← State.drawNat_boot s, hyp']

@[simp] theorem State.drawBytes_boot (s : State) (n : Nat) :
    (State.drawBytes s n).2.boot = s.boot := by
  unfold State.drawBytes
  simp

theorem State.drawBytes_boot' {s : State} {n : Nat} {fst' : List Byte} {snd' : State}
    (hyp' : (State.drawBytes s n) = (fst', snd')) : snd'.boot = s.boot := by
  rw [← State.drawBytes_boot s n, hyp']

@[simp] theorem State.toHost_boot (s : State) (o : Output) :
    (State.toHost s o).boot = s.boot := by
  unfold State.toHost
  split <;> simp

@[simp] theorem State.releaseHost_boot (s : State) :
    (State.releaseHost s).boot = s.boot := by
  unfold State.releaseHost
  split <;> simp

@[simp] theorem State.msix_boot (s : State) (v : Nat) :
    (State.msix s v).boot = s.boot := by
  unfold State.msix
  split <;> simp

@[simp] theorem State.setRing_boot (s : State) (r : RingRegs) (v : Ring) :
    (State.setRing s r v).boot = s.boot := by
  unfold State.setRing
  split <;> simp

@[simp] theorem State.ringWrite_boot (s : State) (r : RingRegs) (rec : RingRec) :
    (State.ringWrite s r rec).boot = s.boot := by
  unfold State.ringWrite
  simp only []
  split <;> simp

@[simp] theorem State.ringLose_boot (s : State) (r : RingRegs) :
    (State.ringLose s r).boot = s.boot := by
  unfold State.ringLose
  simp

@[simp] theorem State.ringHeld_boot (r : RingRegs) (a : Nat) (x2 : State) :
    (State.ringHeld r a x2).boot = x2.boot := by
  induction a generalizing r x2 with
    | zero => simp [State.ringHeld]
    | succ k ih => unfold State.ringHeld; (try dsimp only); (repeat' split) <;> simp [ih, *]

@[simp] theorem State.ringDrain_boot (s : State) (r : RingRegs) :
    (State.ringDrain s r).2.boot = s.boot := by
  unfold State.ringDrain
  (try dsimp only)
  (repeat' split) <;> simp

theorem State.ringDrain_boot' {s : State} {r : RingRegs} {fst' : Nat} {snd' : State}
    (hyp' : (State.ringDrain s r) = (fst', snd')) : snd'.boot = s.boot := by
  rw [← State.ringDrain_boot s r, hyp']

@[simp] theorem State.ringPut_boot (s : State) (r : RingRegs) (rec : RingRec) :
    (State.ringPut s r rec).2.boot = s.boot := by
  unfold State.ringPut
  (try dsimp only)
  (repeat' split) <;> simp

theorem State.ringPut_boot' {s : State} {r : RingRegs} {rec : RingRec} {fst' : Nat} {snd' : State}
    (hyp' : (State.ringPut s r rec) = (fst', snd')) : snd'.boot = s.boot := by
  rw [← State.ringPut_boot s r rec, hyp']

@[simp] theorem State.reportAt_boot (s : State) (tick : Nat) (code : Nat) (unit : Nat) (data : Nat) :
    (State.reportAt s tick code unit data).boot = s.boot := by
  unfold State.reportAt
  simp

@[simp] theorem State.report_boot (s : State) (code : Nat) (unit : Nat) (data : Nat) :
    (State.report s code unit data).boot = s.boot := by
  unfold State.report
  simp

@[simp] theorem State.reportLim_boot (s : State) (code : Nat) (source : Nat) (unit : Nat) (data : Nat) :
    (State.reportLim s code source unit data).boot = s.boot := by
  unfold State.reportLim
  simp only []
  split <;> simp

@[simp] theorem State.clampPut_boot (s : State) (rec : RingRec) :
    (State.clampPut s rec).boot = s.boot := by
  unfold State.clampPut
  simp only []
  split <;> simp

@[simp] theorem State.clampDrain_boot (s : State) :
    (State.clampDrain s).boot = s.boot := by
  unfold State.clampDrain
  simp only []
  split <;> simp

@[simp] theorem State.countItem_boot (s : State) (i : ClampItem) :
    (State.countItem s i).boot = s.boot := by
  unfold State.countItem
  simp

@[simp] theorem State.clampRead_boot (s : State) (kind : Nat) (ident : Nat) (head : Nat) (tail : Nat) (source : Nat) (items : List ClampItem) :
    (State.clampRead s kind ident head tail source items).boot = s.boot := by
  unfold State.clampRead
  (try dsimp only)
  (repeat' split) <;> simp

@[simp] theorem State.clampReg_boot (s : State) (off : Nat) (bit : Nat) (written : Nat) (applied : Nat) :
    (State.clampReg s off bit written applied).boot = s.boot := by
  unfold State.clampReg
  simp

@[simp] theorem State.clampRule_boot (s : State) (c : Nat) (written : Nat) (applied : Nat) :
    (State.clampRule s c written applied).boot = s.boot := by
  unfold State.clampRule
  simp

end Sys2Proof.Machine
end

