-- ==== Sys2Proof/Laws/BootOfFlags.lean ====
section
/-! SUPPORT. No function of Machine/Flags.lean changes the boot state of the module. -/

namespace Sys2Proof.Machine

@[simp] theorem State.raiseFlag_boot (s : State) (f : BitVec 4) (e : W32) :
    (State.raiseFlag s f e).boot = s.boot := by
  unfold State.raiseFlag
  (repeat' split) <;> simp

@[simp] theorem State.numStatus_boot (s : State) (c : Nat) (bits : Nat) :
    (State.numStatus s c bits).boot = s.boot := by
  unfold State.numStatus
  simp

@[simp] theorem State.vsFlags_boot (s : State) (c : Nat) (f : NFlags) :
    (State.vsFlags s c f).boot = s.boot := by
  unfold State.vsFlags
  simp

@[simp] theorem State.cellReserved_boot (s : State) (c : Nat) (code : Nat) (layer : Nat) (step : Option W32) :
    (State.cellReserved s c code layer step).boot = s.boot := by
  unfold State.cellReserved
  split <;> simp

@[simp] theorem State.fmtReport_boot (s : State) (unit : Nat) (code : Nat) (fmt : Nat) (layer : Nat) :
    (State.fmtReport s unit code fmt layer).boot = s.boot := by
  unfold State.fmtReport
  simp

@[simp] theorem State.gsReserved_boot (s : State) (n : Nat) (code : Nat) (layer : Nat) (e : W32) :
    (State.gsReserved s n code layer e).boot = s.boot := by
  unfold State.gsReserved
  simp

@[simp] theorem State.cuReserved_boot (s : State) (d : Nat) (code : Nat) (layer : Nat) (e : W32) :
    (State.cuReserved s d code layer e).boot = s.boot := by
  unfold State.cuReserved
  simp

@[simp] theorem State.spadUe_boot (s : State) (i : Nat) :
    (State.spadUe s i).boot = s.boot := by
  unfold State.spadUe
  split <;> simp

@[simp] theorem State.spadCorrect_boot (s : State) (i : Nat) :
    (State.spadCorrect s i).boot = s.boot := by
  unfold State.spadCorrect
  simp

@[simp] theorem State.spadTouch_boot (s : State) (a : Nat) (n : Nat) :
    (State.spadTouch s a n).boot = s.boot := by
  unfold State.spadTouch
  split <;> simp

@[simp] theorem State.raceRegs_boot (hit : Nat → List Nat) (s : State) (c : Nat) :
    (State.raceRegs hit s c).boot = s.boot := by
  unfold State.raceRegs
  (try dsimp only)
  (repeat' split) <;> simp

@[simp] theorem State.raceWrite_boot (s : State) (a : Nat) (n : Nat) :
    (State.raceWrite s a n).boot = s.boot := by
  unfold State.raceWrite
  split <;> simp

@[simp] theorem State.spadWrite_boot (s0 : State) (a : Nat) (bs : List Byte) :
    (State.spadWrite s0 a bs).boot = s0.boot := by
  unfold State.spadWrite
  simp

end Sys2Proof.Machine
end

