-- ==== Sys2Proof/Laws/BootOfIssue.lean ====
section
/-! SUPPORT. No function of Machine/Issue.lean changes the boot state of the module. -/

namespace Sys2Proof.Machine

@[simp] theorem State.excRegs_boot (s : State) (c : Nat) (cause : Nat) (pc : BitVec 12) :
    (State.excRegs s c cause pc).boot = s.boot := by
  unfold State.excRegs
  (repeat' split) <;> simp

@[simp] theorem State.takeExc_boot (s : State) (c : Nat) (cls : Nat) (opc : Nat) (cause : Nat) (trap : Nat) :
    (State.takeExc s c cls opc cause trap).boot = s.boot := by
  unfold State.takeExc
  simp only []
  split <;> simp

@[simp] theorem State.countInsn_boot (s : State) (c : Nat) :
    (State.countInsn s c).boot = s.boot := by
  unfold State.countInsn
  simp only []
  split <;> simp

@[simp] theorem State.drainStores_boot (s : State) (c : Nat) :
    (State.drainStores s c).boot = s.boot := by
  unfold State.drainStores
  simp only []
  split <;> simp

@[simp] theorem State.setPc_boot (s : State) (c : Nat) (pc : Nat) :
    (State.setPc s c pc).boot = s.boot := by
  unfold State.setPc
  simp

@[simp] theorem State.finish_boot (s : State) (c : Nat) (i : Instr) (cls opc len : Nat) (e : Eff)
    (h : bootEff s.boot e) : (State.finish s c i cls opc len e).boot = s.boot := by
  unfold State.finish
  cases e <;> dsimp only <;> repeat' split
  all_goals simp_all [bootEff]

@[simp] theorem State.correctWord_boot (s : State) (c : Nat) (i : Nat) :
    (State.correctWord s c i).boot = s.boot := by
  unfold State.correctWord
  (try dsimp only)
  (repeat' split) <;> simp

@[simp] theorem State.fetchCe_boot (s : State) (c : Nat) :
    (State.fetchCe s c).boot = s.boot := by
  unfold State.fetchCe
  simp

@[simp] theorem State.fetchNext_boot (s : State) (c : Nat) :
    (State.fetchNext s c).boot = s.boot := by
  unfold State.fetchNext
  simp

@[simp] theorem State.issue_boot (s : State) (c : Nat) (i : Instr) (gneg : Bool) (gp : BitVec 3) (cls opc len : Nat)
    (legal : Bool) (uses : List Nat) (eff : State → Eff) (h : ∀ t, bootEff t.boot (eff t)) :
    (State.issue s c i gneg gp cls opc len legal uses eff).boot = s.boot := by
  unfold State.issue
  dsimp only
  have h1 : ∀ t : State, t.boot = s.boot → bootEff s.boot (eff t) := fun t e => e ▸ h t
  repeat' split
  all_goals simp [h1]

@[simp] theorem coreStep_boot (c : Nat) (i : Instr) (gneg : Bool) (gp : BitVec 3) (cls opc len : Nat) (legal : Bool) (uses : List Nat) (eff : State → Eff) (s : State)
    (h : ∀ t, bootEff t.boot (eff t)) : bootOut s.boot (coreStep c i gneg gp cls opc len legal uses eff s) := by
  unfold coreStep
  exact onUnit_boot _ _ _ (by simp [State.issue_boot _ _ _ _ _ _ _ _ _ _ _ h])

@[simp] theorem coreR_boot (c : Nat) (i : Instr) (o : ROps) (cls opc : Nat) (uses : List Nat) (eff : State → Eff) (s : State)
    (h : ∀ t, bootEff t.boot (eff t)) : bootOut s.boot (coreR c i o cls opc uses eff s) := by
  unfold coreR
  exact coreStep_boot _ _ _ _ _ _ _ _ _ _ _ h

@[simp] theorem coreI_boot (c : Nat) (i : Instr) (o : IOps) (cls opc : Nat) (uses : List Nat) (eff : State → Eff) (s : State)
    (h : ∀ t, bootEff t.boot (eff t)) : bootOut s.boot (coreI c i o cls opc uses eff s) := by
  unfold coreI
  exact coreStep_boot _ _ _ _ _ _ _ _ _ _ _ h

@[simp] theorem coreU_boot (c : Nat) (i : Instr) (o : UOps) (opc : Nat) (uses : List Nat) (eff : State → Eff) (s : State)
    (h : ∀ t, bootEff t.boot (eff t)) : bootOut s.boot (coreU c i o opc uses eff s) := by
  unfold coreU
  exact coreStep_boot _ _ _ _ _ _ _ _ _ _ _ h

@[simp] theorem effS_boot (c : Nat) (sd : Nat) (v : W64) (s : State) (b : Boot) (h : s.boot = b) :
    bootEff b (effS c sd v s) := by
  subst h
  unfold effS
  simp

@[simp] theorem effP_boot (c : Nat) (pd : Nat) (v : Bool) (s : State) (b : Boot) (h : s.boot = b) :
    bootEff b (effP c pd v s) := by
  subst h
  unfold effP
  simp

@[simp] theorem effA_boot (c : Nat) (ad : Nat) (v : W32) (s : State) (b : Boot) (h : s.boot = b) :
    bootEff b (effA c ad v s) := by
  subst h
  unfold effA
  simp

@[simp] theorem State.haltAll_boot (s : State) :
    (State.haltAll s).boot = s.boot := by
  unfold State.haltAll
  simp

end Sys2Proof.Machine
end

