-- ==== Sys2Proof/Laws/BootOfHbm.lean ====
section
/-! SUPPORT. No function of Machine/Hbm.lean changes the boot state of the module. -/

namespace Sys2Proof.Machine

@[simp] theorem State.setDir_boot (s : State) (p : Nat) (e : DirEntry) :
    (State.setDir s p e).boot = s.boot := by
  unfold State.setDir
  simp

@[simp] theorem State.delDir_boot (s : State) (p : Nat) :
    (State.delDir s p).boot = s.boot := by
  unfold State.delDir
  simp

@[simp] theorem State.usePage_boot (s : State) (p : Nat) :
    (State.usePage s p).boot = s.boot := by
  unfold State.usePage
  split <;> simp

@[simp] theorem State.setFrame_boot (s : State) (f : Nat) (u : FrameUse) :
    (State.setFrame s f u).boot = s.boot := by
  unfold State.setFrame
  simp

@[simp] theorem State.noteFree_boot (s : State) (n : Nat) :
    (State.noteFree s n).boot = s.boot := rfl

@[simp] theorem State.freeFrame_boot (s : State) (f : Nat) :
    (State.freeFrame s f).boot = s.boot := by
  unfold State.freeFrame
  simp

@[simp] theorem State.noteTaken_boot (s : State) (n : Nat) :
    (State.noteTaken s n).boot = s.boot := rfl

@[simp] theorem State.quotaCheck_boot (s : State) (old : State) (c : Nat) :
    (State.quotaCheck s old c).boot = s.boot := by
  unfold State.quotaCheck
  simp only []
  split <;> simp

@[simp] theorem State.takeFrame_boot (s : State) (n : Nat) (u : FrameUse) :
    bootOpt s.boot ((State.takeFrame s n u).map Prod.snd) := by
  unfold State.takeFrame
  (try dsimp only)
  (repeat' split) <;> simp

theorem State.takeFrame_boot' {s : State} {n : Nat} {u : FrameUse} {fst' : Nat} {snd' : State}
    (hyp' : (State.takeFrame s n u) = some (fst', snd')) : snd'.boot = s.boot := by
  have e := State.takeFrame_boot s n u
  rw [hyp'] at e
  exact e

@[simp] theorem State.zeroFrame_boot (s : State) (f : Nat) :
    (State.zeroFrame s f).boot = s.boot := by
  unfold State.zeroFrame
  simp

@[simp] theorem State.frameWrite_boot (s : State) (f : Nat) (off : Nat) (bs : List Byte) :
    (State.frameWrite s f off bs).boot = s.boot := by
  unfold State.frameWrite
  simp

@[simp] theorem State.copyFrame_boot (s : State) (src : Nat) (dst : Nat) :
    (State.copyFrame s src dst).boot = s.boot := by
  unfold State.copyFrame
  simp

end Sys2Proof.Machine
end

