-- ==== Sys2Proof/Laws/BootOfDesc.lean ====
section
/-! SUPPORT. No function of Machine/Desc.lean changes the boot state of the module. -/

namespace Sys2Proof.Machine

@[simp] theorem State.hbmCorrect_boot (s : State) (i : Nat) :
    (State.hbmCorrect s i).boot = s.boot := by
  unfold State.hbmCorrect
  simp only []
  split <;> simp

@[simp] theorem State.loseShard_boot (s : State) (n : Nat) (p : Nat) :
    (State.loseShard s n p).boot = s.boot := by
  unfold State.loseShard
  split <;> simp

@[simp] theorem State.hbmUe_boot (scrub : Bool) (committed : Option Nat) (s : State) (i : Nat) :
    (State.hbmUe scrub committed s i).boot = s.boot := by
  unfold State.hbmUe
  (try dsimp only)
  (repeat' split) <;> simp

@[simp] theorem State.pageTouch_boot (s : State) (fly : Bool) (p : Nat) (e : DirEntry) (off : Nat) (n : Nat) :
    (State.pageTouch s fly p e off n).boot = s.boot := by
  unfold State.pageTouch
  split <;> simp

@[simp] theorem State.lostTouch_boot (s : State) (e : DirEntry) :
    (State.lostTouch s e).boot = s.boot := by
  unfold State.lostTouch
  split <;> simp

@[simp] theorem State.poolTouch_boot (s : State) (a : Nat) (n : Nat) :
    (State.poolTouch s a n).boot = s.boot := by
  unfold State.poolTouch
  apply foldl_boot
  intro t p
  (try dsimp only)
  (repeat' split) <;> simp [*]

@[simp] theorem State.xferFault_boot (s : State) (code : Nat) (p : Nat) :
    (State.xferFault s code p).boot = s.boot := by
  unfold State.xferFault
  simp

@[simp] theorem State.notServed_boot (s : State) (code : Nat) (p : Nat) :
    (State.notServed s code p).boot = s.boot := by
  unfold State.notServed
  split <;> simp

@[simp] theorem State.unitRead_boot (s : State) (code : Nat) (fly : Bool) (a : Nat) (n : Nat) :
    (State.unitRead s code fly a n).2.boot = s.boot := by
  unfold State.unitRead
  (try dsimp only)
  (repeat' split) <;> simp

theorem State.unitRead_boot' {s : State} {code : Nat} {fly : Bool} {a : Nat} {n : Nat} {fst' : Option (List Byte)} {snd' : State}
    (hyp' : (State.unitRead s code fly a n) = (fst', snd')) : snd'.boot = s.boot := by
  rw [← State.unitRead_boot s code fly a n, hyp']

@[simp] theorem State.unitPool_boot (s : State) (code : Nat) (a : Nat) (n : Nat) :
    (State.unitPool s code a n).2.boot = s.boot := by
  unfold State.unitPool
  split <;> simp

theorem State.unitPool_boot' {s : State} {code : Nat} {a : Nat} {n : Nat} {fst' : Option (List Byte)} {snd' : State}
    (hyp' : (State.unitPool s code a n) = (fst', snd')) : snd'.boot = s.boot := by
  rw [← State.unitPool_boot s code a n, hyp']

@[simp] theorem State.unitWords_boot (s : State) (code : Nat) (a : Nat) :
    (State.unitWords s code a).2.boot = s.boot := by
  unfold State.unitWords
  simp

theorem State.unitWords_boot' {s : State} {code : Nat} {a : Nat} {fst' : Option (List Nat)} {snd' : State}
    (hyp' : (State.unitWords s code a) = (fst', snd')) : snd'.boot = s.boot := by
  rw [← State.unitWords_boot s code a, hyp']

@[simp] theorem State.layerUnknown_boot (s : State) (source : Nat) (kind : Nat) (l : Nat) :
    (State.layerUnknown s source kind l).boot = s.boot := by
  unfold State.layerUnknown
  simp

@[simp] theorem State.readLayer_boot (s : State) (code : Nat) (source : Nat) (l : Nat) :
    (State.readLayer s code source l).2.boot = s.boot := by
  unfold State.readLayer
  (repeat' split) <;> (try have e0 := State.unitWords_boot' (by assumption)) <;> simp [*]

theorem State.readLayer_boot' {s : State} {code : Nat} {source : Nat} {l : Nat} {fst' : LDesc} {snd' : State}
    (hyp' : (State.readLayer s code source l) = (fst', snd')) : snd'.boot = s.boot := by
  rw [← State.readLayer_boot s code source l, hyp']

@[simp] theorem State.readGroup_boot (s : State) (code : Nat) (source : Nat) (g : Nat) :
    (State.readGroup s code source g).2.boot = s.boot := by
  unfold State.readGroup
  (repeat' split) <;> (try have e0 := State.unitWords_boot' (by assumption)) <;> simp [*]

theorem State.readGroup_boot' {s : State} {code : Nat} {source : Nat} {g : Nat} {fst' : Option UDesc} {snd' : State}
    (hyp' : (State.readGroup s code source g) = (fst', snd')) : snd'.boot = s.boot := by
  rw [← State.readGroup_boot s code source g, hyp']

@[simp] theorem State.groupNow_boot (s : State) (n : Nat) (g : Nat) :
    (State.groupNow s n g).2.boot = s.boot := by
  unfold State.groupNow
  split <;> simp

theorem State.groupNow_boot' {s : State} {n : Nat} {g : Nat} {fst' : Option UDesc} {snd' : State}
    (hyp' : (State.groupNow s n g) = (fst', snd')) : snd'.boot = s.boot := by
  rw [← State.groupNow_boot s n g, hyp']

@[simp] theorem State.groupConsts_boot (s : State) (n : Nat) (g : Nat) (d : UDesc) :
    (State.groupConsts s n g d).2.boot = s.boot := by
  unfold State.groupConsts
  (try dsimp only)
  (repeat' split) <;> simp

theorem State.groupConsts_boot' {s : State} {n : Nat} {g : Nat} {d : UDesc} {fst' : (UDesc × W32)} {snd' : State}
    (hyp' : (State.groupConsts s n g d) = (fst', snd')) : snd'.boot = s.boot := by
  rw [← State.groupConsts_boot s n g d, hyp']

@[simp] theorem State.probeTouch_boot (s : State) (n : Nat) (key : Nat) :
    (State.probeTouch s n key).boot = s.boot := by
  unfold State.probeTouch
  simp

@[simp] theorem State.readShard_boot (s : State) (n : Nat) (i : Nat) :
    (State.readShard s n i).2.boot = s.boot := by
  unfold State.readShard
  (try dsimp only)
  (repeat' split) <;> (try have e0 := State.unitWords_boot' (by assumption)) <;> simp [*]

theorem State.readShard_boot' {s : State} {n : Nat} {i : Nat} {fst' : Option Shard} {snd' : State}
    (hyp' : (State.readShard s n i) = (fst', snd')) : snd'.boot = s.boot := by
  rw [← State.readShard_boot s n i, hyp']

@[simp] theorem State.shardUnknown_boot (s : State) (n : Nat) (gather : Bool) (layer : Nat) :
    (State.shardUnknown s n gather layer).boot = s.boot := by
  unfold State.shardUnknown
  simp

@[simp] theorem State.lookupShard_boot (s : State) (n : Nat) (gather : Bool) (layer : Nat) (unit : Nat) :
    (State.lookupShard s n gather layer unit).2.boot = s.boot := by
  unfold State.lookupShard
  (try dsimp only)
  (repeat' split) <;> (try have e0 := State.readShard_boot' (by assumption)) <;> simp [*]

theorem State.lookupShard_boot' {s : State} {n : Nat} {gather : Bool} {layer : Nat} {unit : Nat} {fst' : Option Shard} {snd' : State}
    (hyp' : (State.lookupShard s n gather layer unit) = (fst', snd')) : snd'.boot = s.boot := by
  rw [← State.lookupShard_boot s n gather layer unit, hyp']

@[simp] theorem State.groupTouch_boot (s : State) (code : Nat) (g : Nat) :
    (State.groupTouch s code g).boot = s.boot := by
  unfold State.groupTouch
  (try dsimp only)
  (repeat' split) <;> simp

@[simp] theorem State.readPlace_boot (s : State) (d : Nat) (l : Nat) :
    (State.readPlace s d l).2.boot = s.boot := by
  unfold State.readPlace
  (try dsimp only)
  (repeat' split) <;> (try have e0 := State.unitWords_boot' (by assumption)) <;> simp [*]

theorem State.readPlace_boot' {s : State} {d : Nat} {l : Nat} {fst' : Option Place} {snd' : State}
    (hyp' : (State.readPlace s d l) = (fst', snd')) : snd'.boot = s.boot := by
  rw [← State.readPlace_boot s d l, hyp']

end Sys2Proof.Machine
end

