-- ==== Sys2Proof/Laws/BootOfPoolOps.lean ====
section
/-! SUPPORT. No function of Machine/PoolOps.lean changes the boot state of the module. -/

namespace Sys2Proof.Machine

@[simp] theorem State.partTouch_boot (s : State) (fly : Bool) (p : Nat) (e : DirEntry) (off : Nat) (n : Nat) :
    (State.partTouch s fly p e off n).boot = s.boot := by
  unfold State.partTouch
  (try dsimp only)
  (repeat' split) <;> simp

@[simp] theorem State.partialTouch_boot (s : State) (p : Nat) (e : DirEntry) (off : Nat) (n : Nat) :
    (State.partialTouch s p e off n).boot = s.boot := by
  unfold State.partialTouch
  (repeat' split) <;> simp

@[simp] theorem State.setSlot_boot (s : State) (i : Nat) (b : Bool) :
    (State.setSlot s i b).boot = s.boot := by
  unfold State.setSlot
  (try dsimp only)
  (repeat' split) <;> simp

@[simp] theorem State.slotTouch_boot (s : State) (i : Nat) :
    (State.slotTouch s i).boot = s.boot := by
  unfold State.slotTouch
  simp

@[simp] theorem State.dropEviction_boot (s : State) (p : Nat) :
    (State.dropEviction s p).boot = s.boot := by
  unfold State.dropEviction
  (try dsimp only)
  (repeat' split) <;> simp

@[simp] theorem State.cancelEviction_boot (s : State) (p : Nat) :
    (State.cancelEviction s p).boot = s.boot := by
  unfold State.cancelEviction
  split <;> simp

@[simp] theorem State.farReadFailed_boot (s : State) (o : FarOwner) (region : Nat) (reason : Nat) (cell : Nat) :
    (State.farReadFailed s o region reason cell).boot = s.boot := by
  unfold State.farReadFailed
  simp only []
  split <;> simp

@[simp] theorem State.farWriteFailed_boot (s : State) (o : FarOwner) (region : Nat) (reason : Nat) :
    (State.farWriteFailed s o region reason).boot = s.boot := by
  unfold State.farWriteFailed
  simp

@[simp] theorem State.addFar_boot (s : State) (write : Bool) (o : FarOwner) (region : Nat) (len : Nat) (done : Option (Nat × List Byte)) :
    (State.addFar s write o region len done).boot = s.boot := by
  unfold State.addFar
  simp

@[simp] theorem State.addReads_boot (s : State) (o : FarOwner) (a : Nat) (n : Nat) :
    (State.addReads s o a n).boot = s.boot := by
  unfold State.addReads
  simp

@[simp] theorem State.pumpFar_boot (s : State) :
    (State.pumpFar s).boot = s.boot := by
  unfold State.pumpFar
  simp

@[simp] theorem State.farRead_boot (s : State) (o : FarOwner) (a : Nat) (len : Nat) (cell : Nat) :
    (State.farRead s o a len cell).boot = s.boot := by
  unfold State.farRead
  split <;> simp

@[simp] theorem State.dropOwner_boot (s : State) (o : FarOwner) :
    (State.dropOwner s o).boot = s.boot := by
  unfold State.dropOwner
  simp

@[simp] theorem State.failReads_boot (s : State) (o : FarOwner) (reason : Nat) :
    (State.failReads s o reason).boot = s.boot := by
  unfold State.failReads
  simp

@[simp] theorem State.bringupRead_boot (s : State) (b : Bringup) :
    (State.bringupRead s b).boot = s.boot := by
  unfold State.bringupRead
  (try dsimp only)
  (repeat' split) <;> (try have e0 := Sys2Proof.Machine.State.takeFrame_boot' (by assumption)) <;> simp [*]

@[simp] theorem State.startBringup_boot (s : State) (p : Nat) (cell : Nat) :
    (State.startBringup s p cell).boot = s.boot := by
  unfold State.startBringup
  (try dsimp only)
  (repeat' split) <;> simp

@[simp] theorem State.bringAll_boot (s : State) (ps : List Nat) (cell : Nat) :
    (State.bringAll s ps cell).boot = s.boot := by
  unfold State.bringAll
  simp

@[simp] theorem State.park_boot (s : State) (i : Instr) :
    (State.park s i).boot = s.boot := by
  unfold State.park
  simp

@[simp] theorem State.waitFar_boot (s : State) (w : FarWaiter) (ps : List Nat) (cell : Nat) :
    (State.waitFar s w ps cell).boot = s.boot := by
  unfold State.waitFar
  simp

@[simp] theorem State.goOn_boot (s : State) (w : FarWaiter) :
    (State.goOn s w).boot = s.boot := by
  unfold State.goOn
  split <;> simp

@[simp] theorem State.orWait_boot (s : State) (w : FarWaiter) (ps : List Nat) (cell : Nat) (act : State → State) (hact : ∀ t, (act t).boot = t.boot) :
    (State.orWait s w ps cell act).boot = s.boot := by
  unfold State.orWait
  (try dsimp only)
  (repeat' split) <;> simp [hact]

@[simp] theorem State.withPages_boot (s : State) (i : Instr) (ps : List Nat) (act : State → State) (hact : ∀ t, (act t).boot = t.boot) :
    (State.withPages s i ps act).boot = s.boot := by
  unfold State.withPages
  (try dsimp only)
  (repeat' split) <;> simp [hact]

@[simp] theorem State.writeSegs_boot (p : Nat) (e : DirEntry) (x0 : Nat) (x1 : Nat) (x2 : List Byte) (x3 : State) :
    (State.writeSegs p e x0 x1 x2 x3).boot = x3.boot := by
  induction x0 generalizing x1 x2 x3 with
    | zero => simp [State.writeSegs]
    | succ k ih => unfold State.writeSegs; (repeat' split) <;> simp [ih]

@[simp] theorem State.pageWrite_boot (s : State) (p : Nat) (off : Nat) (bs : List Byte) :
    (State.pageWrite s p off bs).boot = s.boot := by
  unfold State.pageWrite
  simp only []
  split <;> simp

@[simp] theorem State.poolWriteAt_boot (x0 : Nat) (x1 : Nat) (x2 : List Byte) (x3 : State) :
    (State.poolWriteAt x0 x1 x2 x3).boot = x3.boot := by
  induction x0 generalizing x1 x2 x3 with
    | zero => simp [State.poolWriteAt]
    | succ k ih => unfold State.poolWriteAt; (repeat' split) <;> simp [ih]

@[simp] theorem State.poolWrite_boot (s : State) (a : Nat) (bs : List Byte) :
    (State.poolWrite s a bs).boot = s.boot := by
  unfold State.poolWrite
  simp

@[simp] theorem State.mapPage_boot (s : State) (p : Nat) (cls : Nat) (n : Nat) (f : Nat) :
    (State.mapPage s p cls n f).boot = s.boot := by
  unfold State.mapPage
  simp

@[simp] theorem State.allocNow_boot (s : State) (p : Nat) (cls : Nat) (n : Nat) :
    bootOpt s.boot (State.allocNow s p cls n) := by
  unfold State.allocNow
  (try dsimp only)
  (repeat' split) <;> (try have e0 := Sys2Proof.Machine.State.takeFrame_boot' (by assumption)) <;> simp [*]

theorem State.allocNow_boot' {s : State} {p : Nat} {cls : Nat} {n : Nat} {snd' : State}
    (hyp' : (State.allocNow s p cls n) = some snd') : snd'.boot = s.boot := by
  have e := State.allocNow_boot s p cls n
  rw [hyp'] at e
  exact e

@[simp] theorem State.releaseFrames_boot (s : State) (p : Nat) (e : DirEntry) :
    (State.releaseFrames s p e).boot = s.boot := by
  unfold State.releaseFrames
  split <;> simp

@[simp] theorem State.releasePage_boot (s : State) (p : Nat) :
    (State.releasePage s p).boot = s.boot := by
  unfold State.releasePage
  (try dsimp only)
  (repeat' split) <;> simp

@[simp] theorem State.poolAnswer_boot (s : State) (who : PoolClient) (page : Nat) (result : Nat) :
    (State.poolAnswer s who page result).boot = s.boot := by
  unfold State.poolAnswer
  split <;> simp

@[simp] theorem State.allocDone_boot (s : State) (who : PoolClient) (page : Nat) :
    (State.allocDone s who page).boot = s.boot := by
  unfold State.allocDone
  split <;> simp

@[simp] theorem State.allocFails_boot (s : State) (who : PoolClient) (result : Nat) :
    (State.allocFails s who result).boot = s.boot := by
  unfold State.allocFails
  split <;> simp

@[simp] theorem State.poolFull_boot (s : State) (who : PoolClient) (n : Nat) (cls : Nat) :
    (State.poolFull s who n cls).boot = s.boot := by
  unfold State.poolFull
  simp

@[simp] theorem State.poolWait_boot (s : State) (w : PoolWait) (who : PoolClient) :
    (State.poolWait s w who).boot = s.boot := by
  unfold State.poolWait
  (repeat' split) <;> simp

@[simp] theorem State.allocPage_boot (s : State) (who : PoolClient) (cls : Nat) (stack : Nat) :
    (State.allocPage s who cls stack).boot = s.boot := by
  unfold State.allocPage
  (try dsimp only)
  (repeat' split) <;> (try have e0 := Sys2Proof.Machine.State.allocNow_boot' (by assumption)) <;> simp [*]

@[simp] theorem State.freePage_boot (s : State) (who : PoolClient) (p : Nat) :
    (State.freePage s who p).boot = s.boot := by
  unfold State.freePage
  (repeat' split) <;> simp

@[simp] theorem State.pegPage_boot (s : State) (who : PoolClient) (p : Nat) :
    (State.pegPage s who p).boot = s.boot := by
  unfold State.pegPage
  (try dsimp only)
  (repeat' split) <;> simp

@[simp] theorem State.unpegPage_boot (s : State) (who : PoolClient) (p : Nat) :
    (State.unpegPage s who p).boot = s.boot := by
  unfold State.unpegPage
  split <;> simp

end Sys2Proof.Machine
end

