-- ==== Sys2Proof/Laws/BootOfComplete.lean ====
section
/-! SUPPORT. No function of Machine/Complete.lean changes the boot state of the module. -/

namespace Sys2Proof.Machine

@[simp] theorem State.queueSettle_boot (s : State) (q : Nat) :
    (State.queueSettle s q).boot = s.boot := by
  unfold State.queueSettle
  simp only []
  split <;> simp

@[simp] theorem State.complete_boot (s : State) (q : Nat) (d : Started) (status : Nat) (result : Nat) :
    (State.complete s q d status result).boot = s.boot := by
  unfold State.complete
  simp only []
  split <;> simp

@[simp] theorem State.completeStep_boot (e : W32) (s : State) (x : Nat × Started) :
    (State.completeStep e s x).boot = s.boot := by
  unfold State.completeStep
  simp only []
  split <;> simp

@[simp] theorem State.completeSteps_boot (s : State) (e : W32) :
    (State.completeSteps s e).boot = s.boot := by
  unfold State.completeSteps
  simp

end Sys2Proof.Machine
end

