-- ==== Sys2Proof/Laws/BootOfRoute.lean ====
section
/-! SUPPORT. No function of Machine/Route.lean changes the boot state of the module. -/

namespace Sys2Proof.Machine

@[simp] theorem State.bumpUnits_boot (s : State) (off : Nat) (n : Nat) :
    (State.bumpUnits s off n).boot = s.boot := rfl

@[simp] theorem State.giveBack_boot (s : State) (m : Msg) (n : Nat) :
    (State.giveBack s m n).boot = s.boot := by
  unfold State.giveBack
  split <;> simp

@[simp] theorem State.sendFlits_boot (s : State) (p : Nat) (x : Queued) (n : Nat) :
    (State.sendFlits s p x n).boot = s.boot := by
  unfold State.sendFlits
  split <;> simp

@[simp] theorem State.pumpPort_boot (p : Nat) (x0 : Nat) (x1 : State) :
    (State.pumpPort p x0 x1).boot = x1.boot := by
  induction x0 generalizing x1 with
    | zero => simp [State.pumpPort]
    | succ k ih => unfold State.pumpPort; (try dsimp only); (repeat' split) <;> simp [ih]

@[simp] theorem State.pump_boot (s : State) (p : Nat) :
    (State.pump s p).boot = s.boot := by
  unfold State.pump
  simp

@[simp] theorem State.enqueue_boot (s : State) (p : Nat) (pool : Nat) (m : Msg) :
    (State.enqueue s p pool m).boot = s.boot := by
  unfold State.enqueue
  simp

@[simp] theorem State.unstamp_boot (s : State) (h : Hdr) :
    (State.unstamp s h).boot = s.boot := by
  unfold State.unstamp
  simp

@[simp] theorem State.keepStamp_boot (s : State) (h : Hdr) :
    (State.keepStamp s h).boot = s.boot := by
  unfold State.keepStamp
  simp

@[simp] theorem State.deliver_boot (s0 : State) (m : Msg) :
    (State.deliver s0 m).boot = s0.boot := by
  unfold State.deliver
  (repeat' split) <;> simp

@[simp] theorem State.noRoute_boot (s : State) (m : Msg) :
    (State.noRoute s m).boot = s.boot := by
  unfold State.noRoute
  simp

@[simp] theorem State.ttlDrop_boot (s : State) (m : Msg) :
    (State.ttlDrop s m).boot = s.boot := by
  unfold State.ttlDrop
  simp

@[simp] theorem State.routeBy_boot (s : State) (arr : Option Nat) (m : Msg) (e : Nat) :
    (State.routeBy s arr m e).boot = s.boot := by
  unfold State.routeBy
  (try dsimp only)
  (repeat' split) <;> simp

@[simp] theorem State.route_boot (s : State) (arr : Option Nat) (m : Msg) :
    (State.route s arr m).boot = s.boot := by
  unfold State.route
  (try dsimp only)
  (repeat' split) <;> simp

@[simp] theorem State.issueMsg_boot (s : State) (h : Hdr) (payload : List Byte) (vl : Nat) (ar : Bool) :
    (State.issueMsg s h payload vl ar).boot = s.boot := by
  unfold State.issueMsg
  split <;> simp

@[simp] theorem State.issueReq_boot (s : State) (h : Hdr) (vl : Nat) :
    (State.issueReq s h vl).boot = s.boot := by
  unfold State.issueReq
  simp

@[simp] theorem State.issueResp_boot (s : State) (h : Hdr) (payload : List Byte) :
    (State.issueResp s h payload).boot = s.boot := by
  unfold State.issueResp
  split <;> simp

@[simp] theorem State.startTxn_boot (s : State) (tag : Nat) (owner : TxnOwner) (h : Hdr) (vl : Nat) :
    (State.startTxn s tag owner h vl).boot = s.boot := by
  unfold State.startTxn
  simp

@[simp] theorem State.endTxn_boot (s : State) (tag : Nat) :
    (State.endTxn s tag).boot = s.boot := by
  unfold State.endTxn
  simp

@[simp] theorem State.setCtxWord_boot (s : State) (c : Nat) (w : Nat) (v : Nat) :
    (State.setCtxWord s c w v).boot = s.boot := by
  unfold State.setCtxWord
  simp

@[simp] theorem State.setChan_boot (s : State) (c : Nat) (v : Chan) :
    (State.setChan s c v).boot = s.boot := by
  unfold State.setChan
  simp

@[simp] theorem State.chanPush_boot (s : State) (c : Nat) (x : Ctx) (m : Msg) :
    (State.chanPush s c x m).boot = s.boot := by
  unfold State.chanPush
  simp

@[simp] theorem State.chanSend_boot (s : State) (c : Nat) (h : Hdr) (payload : List Byte) :
    (State.chanSend s c h payload).boot = s.boot := by
  unfold State.chanSend
  (try dsimp only)
  (repeat' split) <;> simp

@[simp] theorem State.pumpOut_boot (d : Nat) (a : Nat) (x2 : State) :
    (State.pumpOut d a x2).boot = x2.boot := by
  induction a generalizing d x2 with
    | zero => simp [State.pumpOut]
    | succ k ih => unfold State.pumpOut; (try dsimp only); (repeat' split) <;> simp [ih, *]

@[simp] theorem State.cuSend_boot (s : State) (d : Nat) (m : OutMsg) :
    (State.cuSend s d m).boot = s.boot := by
  unfold State.cuSend
  simp

@[simp] theorem State.pumpUnits_boot (s : State) :
    (State.pumpUnits s).boot = s.boot := by
  unfold State.pumpUnits
  simp

@[simp] theorem State.chanReject_boot (s : State) (c : Nat) :
    (State.chanReject s c).boot = s.boot := by
  unfold State.chanReject
  simp

@[simp] theorem State.chanAck_boot (s : State) (c : Nat) :
    (State.chanAck s c).boot = s.boot := by
  unfold State.chanAck
  split <;> simp

@[simp] theorem State.chanReceive_boot (s : State) (h : Hdr) (payload : List Byte) :
    (State.chanReceive s h payload).2.boot = s.boot := by
  unfold State.chanReceive
  (try dsimp only)
  (repeat' split) <;> simp

theorem State.chanReceive_boot' {s : State} {h : Hdr} {payload : List Byte} {fst' : List Msg} {snd' : State}
    (hyp' : (State.chanReceive s h payload) = (fst', snd')) : snd'.boot = s.boot := by
  rw [← State.chanReceive_boot s h payload, hyp']

end Sys2Proof.Machine
end

