-- ==== Sys2Proof/Laws/BootOfGsOps.lean ====
section
/-! SUPPORT. No function of Machine/GsOps.lean changes the boot state of the module. -/

namespace Sys2Proof.Machine

@[simp] theorem State.staleIn_boot (s : State) :
    (State.staleIn s).boot = s.boot := by
  unfold State.staleIn
  simp

@[simp] theorem State.sealRecord_boot (n : Nat) (a : List (Nat × Nat) × State) (i : Nat) :
    (State.sealRecord n a i).2.boot = a.2.boot := by
  unfold State.sealRecord
  (try dsimp only)
  (repeat' split) <;> (try have e0 := State.readShard_boot' (by assumption)) <;> (try have e1 := State.readLayer_boot' (by assumption)) <;> simp [*]

@[simp] theorem State.sealGs_boot (s : State) (n : Nat) :
    (State.sealGs s n).boot = s.boot := by
  unfold State.sealGs
  (try dsimp only)
  (repeat' split) <;> simp

@[simp] theorem State.dropPiece_boot (s : State) (n : Nat) (kind : Nat) (h : Hdr) :
    (State.dropPiece s n kind h).boot = s.boot := by
  unfold State.dropPiece
  simp

@[simp] theorem State.accumulate_boot (s : State) (n : Nat) (first : Bool) (a : Nat) (g : List W32) (e : W32) :
    (State.accumulate s n first a g e).boot = s.boot := by
  unfold State.accumulate
  (repeat' split) <;> (try have e0 := State.unitPool_boot' (by assumption)) <;> simp [*]

@[simp] theorem State.addReady_boot (n : Nat) (x : Shard) (slice : Nat) (r0 : Nat) (rows : Nat) (e : W32) (x0 : Nat) (x1 : State) :
    (State.addReady n x slice r0 rows e x0 x1).boot = x1.boot := by
  induction x0 generalizing x1 with
    | zero => simp [State.addReady]
    | succ k ih => unfold State.addReady; (try dsimp only); (repeat' split) <;> simp [ih]

@[simp] theorem State.contribDone_boot (s : State) (n : Nat) (x : Shard) (t : SliceSt) (h : Hdr) (r0 : Nat) (rows : Nat) :
    (State.contribDone s n x t h r0 rows).boot = s.boot := by
  unfold State.contribDone
  (try dsimp only)
  (repeat' split) <;> simp

@[simp] theorem State.takePiece_boot (s : State) (n : Nat) (x : Shard) (h : Hdr) (payload : List Byte) :
    (State.takePiece s n x h payload).boot = s.boot := by
  unfold State.takePiece
  (try dsimp only)
  (repeat' split) <;> simp

@[simp] theorem State.takeCurrent_boot (s : State) (n : Nat) (h : Hdr) (payload : List Byte) :
    (State.takeCurrent s n h payload).boot = s.boot := by
  unfold State.takeCurrent
  (repeat' split) <;> (try have e0 := State.lookupShard_boot' (by assumption)) <;> simp [*]

@[simp] theorem State.takeContrib_boot (s : State) (n : Nat) (h : Hdr) (payload : List Byte) :
    (State.takeContrib s n h payload).boot = s.boot := by
  unfold State.takeContrib
  (try dsimp only)
  (repeat' split) <;> simp

@[simp] theorem State.retakeContribs_boot (s : State) (n : Nat) :
    (State.retakeContribs s n).boot = s.boot := by
  unfold State.retakeContribs
  simp

@[simp] theorem State.answerStale_boot (s : State) (n : Nat) (h : Hdr) :
    (State.answerStale s n h).boot = s.boot := by
  unfold State.answerStale
  simp

@[simp] theorem State.holdReq_boot (s : State) (n : Nat) (r : GatherReq) :
    (State.holdReq s n r).2.boot = s.boot := by
  unfold State.holdReq
  split <;> simp

theorem State.holdReq_boot' {s : State} {n : Nat} {r : GatherReq} {fst' : GatherReq} {snd' : State}
    (hyp' : (State.holdReq s n r) = (fst', snd')) : snd'.boot = s.boot := by
  rw [← State.holdReq_boot s n r, hyp']

@[simp] theorem State.staleHeld_boot (s : State) (n : Nat) :
    (State.staleHeld s n).boot = s.boot := by
  unfold State.staleHeld
  simp

@[simp] theorem State.freeHeld_boot (s : State) (n : Nat) :
    (State.freeHeld s n).boot = s.boot := by
  unfold State.freeHeld
  simp

@[simp] theorem State.clearAcc_boot (s : State) (n : Nat) :
    (State.clearAcc s n).boot = s.boot := by
  unfold State.clearAcc
  apply foldl_boot
  intro t p
  (try dsimp only)
  (repeat' split) <;> simp [*]

@[simp] theorem State.verdictGs_boot (s : State) (n : Nat) :
    (State.verdictGs s n).boot = s.boot := by
  unfold State.verdictGs
  simp

end Sys2Proof.Machine
end

