-- ==== Sys2Proof/Laws/BootOfCuOps.lean ====
section
/-! SUPPORT. No function of Machine/CuOps.lean changes the boot state of the module. -/

namespace Sys2Proof.Machine

@[simp] theorem State.pieceBad_boot (s : State) (d : Nat) (layer : Nat) (e : W32) :
    (State.pieceBad s d layer e).boot = s.boot := by
  unfold State.pieceBad
  simp

@[simp] theorem State.noPlace_boot (s : State) (d : Nat) (layer : Nat) (e : W32) :
    (State.noPlace s d layer e).boot = s.boot := by
  unfold State.noPlace
  simp

@[simp] theorem State.regionFor_boot (s : State) (d : Nat) (layer : Nat) (e : W32) (mb : Nat) (row0 : Nat) (col0 : Nat) (m : Nat) (n : Nat) :
    (State.regionFor s d layer e mb row0 col0 m n).2.boot = s.boot := by
  unfold State.regionFor
  (repeat' split) <;> (try have e0 := State.readPlace_boot' (by assumption)) <;> simp [*]

theorem State.regionFor_boot' {s : State} {d : Nat} {layer : Nat} {e : W32} {mb : Nat} {row0 : Nat} {col0 : Nat} {m : Nat} {n : Nat} {fst' : Option Region} {snd' : State}
    (hyp' : (State.regionFor s d layer e mb row0 col0 m n) = (fst', snd')) : snd'.boot = s.boot := by
  rw [← State.regionFor_boot s d layer e mb row0 col0 m n, hyp']

@[simp] theorem State.countAdds_boot (s : State) (d : Nat) (n : Nat) :
    (State.countAdds s d n).boot = s.boot := by
  unfold State.countAdds
  simp

@[simp] theorem State.regionPut_boot (s : State) (d : Nat) (r : Region) :
    (State.regionPut s d r).boot = s.boot := by
  unfold State.regionPut
  (try dsimp only)
  (repeat' split) <;> simp

@[simp] theorem State.takeLocal_boot (s : State) (d : Nat) (r : Region) (chan : Nat) (m : Nat) (n : Nat) (t : CuTerm) :
    (State.takeLocal s d r chan m n t).boot = s.boot := by
  unfold State.takeLocal
  split <;> simp

@[simp] theorem State.takeChild_boot (s : State) (d : Nat) (r : Region) (src : Nat) (m : Nat) (n : Nat) (elems : List W32) (flags : Nat) :
    (State.takeChild s d r src m n elems flags).boot = s.boot := by
  unfold State.takeChild
  simp only []
  split <;> simp

@[simp] theorem State.applyRot_boot (s : State) :
    (State.applyRot s).boot = s.boot := by
  unfold State.applyRot
  simp

@[simp] theorem State.takeTerm_boot (s : State) (d : Nat) (r : Region) (h : Hdr) (payload : List Byte) :
    (State.takeTerm s d r h payload).boot = s.boot := by
  unfold State.takeTerm
  split <;> simp

@[simp] theorem State.takePartial_boot (s : State) (d : Nat) (h : Hdr) (payload : List Byte) :
    (State.takePartial s d h payload).boot = s.boot := by
  unfold State.takePartial
  (try dsimp only)
  (repeat' split) <;> (try have e0 := Sys2Proof.Machine.State.regionFor_boot' (by assumption)) <;> simp [*]

@[simp] theorem State.retakePartials_boot (s : State) (d : Nat) :
    (State.retakePartials s d).boot = s.boot := by
  unfold State.retakePartials
  simp

@[simp] theorem State.verdictCu_boot (e : W32) (s : State) (d : Nat) :
    (State.verdictCu e s d).boot = s.boot := by
  unfold State.verdictCu
  simp

end Sys2Proof.Machine
end

