-- ==== Sys2Proof/Laws/BootOfPool.lean ====
section
/-! SUPPORT. No function of Machine/Pool.lean changes the boot state of the module. -/

namespace Sys2Proof.Machine

@[simp] theorem execPoolCmdAlloc_boot (s : State) :
    bootOut s.boot (execPoolCmdAlloc s) := by
  unfold execPoolCmdAlloc
  simp

@[simp] theorem execPoolCmdFree_boot (s : State) :
    bootOut s.boot (execPoolCmdFree s) := by
  unfold execPoolCmdFree
  simp

@[simp] theorem execPoolCmdPeg_boot (s : State) :
    bootOut s.boot (execPoolCmdPeg s) := by
  unfold execPoolCmdPeg
  simp

@[simp] theorem execPoolCmdUnpeg_boot (s : State) :
    bootOut s.boot (execPoolCmdUnpeg s) := by
  unfold execPoolCmdUnpeg
  simp

@[simp] theorem State.clearLostMark_boot (s : State) (p : Nat) :
    (State.clearLostMark s p).boot = s.boot := by
  unfold State.clearLostMark
  (repeat' split) <;> simp

@[simp] theorem execClearLost_boot (s : State) :
    bootOut s.boot (execClearLost s) := by
  unfold execClearLost
  simp

@[simp] theorem State.frameRetired_boot (s : State) (n : Nat) (f : Nat) :
    (State.frameRetired s n f).boot = s.boot := by
  unfold State.frameRetired
  simp

@[simp] theorem State.startRetire_boot (s : State) (n : Nat) (f : Nat) :
    (State.startRetire s n f).boot = s.boot := by
  unfold State.startRetire
  (repeat' split) <;> (try have e0 := State.takeFrame_boot' (by assumption)) <;> simp [*]

@[simp] theorem State.askRetire_boot (s : State) (n : Nat) (f : Nat) :
    (State.askRetire s n f).boot = s.boot := by
  unfold State.askRetire
  split <;> simp

@[simp] theorem State.retireFrame_boot (s : State) (n : Nat) (f : Nat) :
    (State.retireFrame s n f).boot = s.boot := by
  unfold State.retireFrame
  (repeat' split) <;> simp

@[simp] theorem execRetire_boot (s : State) :
    bootOut s.boot (execRetire s) := by
  unfold execRetire
  simp

@[simp] theorem State.remap_boot (s : State) (u : FrameUse) (g : Nat) :
    (State.remap s u g).boot = s.boot := by
  unfold State.remap
  (repeat' split) <;> simp

@[simp] theorem State.hdmFault_boot (s : State) (page : Nat) (write : Bool) (reason : Nat) :
    (State.hdmFault s page write reason).boot = s.boot := by
  unfold State.hdmFault
  simp

@[simp] theorem State.hdmServe_boot (s : State) (w : HdmWait) :
    (State.hdmServe s w).boot = s.boot := by
  unfold State.hdmServe
  split <;> simp

@[simp] theorem State.hdmRefuse_boot (s : State) (w : HdmWait) (reason : Nat) :
    (State.hdmRefuse s w reason).boot = s.boot := by
  unfold State.hdmRefuse
  split <;> simp

@[simp] theorem State.takeHdm_boot (s : State) (p : Nat) :
    (State.takeHdm s p).2.boot = s.boot := by
  unfold State.takeHdm
  simp

theorem State.takeHdm_boot' {s : State} {p : Nat} {fst' : List HdmWait} {snd' : State}
    (hyp' : (State.takeHdm s p) = (fst', snd')) : snd'.boot = s.boot := by
  rw [← State.takeHdm_boot s p, hyp']

@[simp] theorem State.readFrame_boot (s : State) (scrub : Bool) (f : Nat) :
    (State.readFrame s scrub f).boot = s.boot := by
  unfold State.readFrame
  simp

@[simp] theorem State.endRetire_boot (s : State) (r : Retiring) :
    (State.endRetire s r).boot = s.boot := by
  unfold State.endRetire
  (try dsimp only)
  (repeat' split) <;> simp

@[simp] theorem execRetireCopyComplete_boot (n : Nat) (frame : Nat) (s : State) :
    bootOut s.boot (execRetireCopyComplete n frame s) := by
  unfold execRetireCopyComplete
  split <;> simp

@[simp] theorem State.showDir_boot (s : State) (p : Nat) :
    (State.showDir s p).boot = s.boot := by
  unfold State.showDir
  split <;> simp

@[simp] theorem execReadDir_boot (s : State) :
    bootOut s.boot (execReadDir s) := by
  unfold execReadDir
  simp

@[simp] theorem State.showFrame_boot (s : State) (n : Nat) (f : Nat) :
    (State.showFrame s n f).boot = s.boot := by
  unfold State.showFrame
  split <;> simp

@[simp] theorem execReadFrame_boot (s : State) :
    bootOut s.boot (execReadFrame s) := by
  unfold execReadFrame
  simp

@[simp] theorem execPlAlloc_boot (c : Nat) (o : ROps) (s : State) :
    bootOut s.boot (execPlAlloc c o s) := by
  unfold execPlAlloc
  simp

@[simp] theorem execPlFree_boot (c : Nat) (o : ROps) (s : State) :
    bootOut s.boot (execPlFree c o s) := by
  unfold execPlFree
  simp

@[simp] theorem execPlPeg_boot (c : Nat) (o : ROps) (s : State) :
    bootOut s.boot (execPlPeg c o s) := by
  unfold execPlPeg
  simp

@[simp] theorem execPlUnpeg_boot (c : Nat) (o : ROps) (s : State) :
    bootOut s.boot (execPlUnpeg c o s) := by
  unfold execPlUnpeg
  simp

@[simp] theorem State.tryWait_boot (s : State) (w : PoolWait) :
    bootOpt s.boot (State.tryWait s w) := by
  unfold State.tryWait
  (repeat' split) <;> (try have e0 := State.allocNow_boot' (by assumption)) <;> simp [*]

theorem State.tryWait_boot' {s : State} {w : PoolWait} {snd' : State}
    (hyp' : (State.tryWait s w) = some snd') : snd'.boot = s.boot := by
  have e := State.tryWait_boot s w
  rw [hyp'] at e
  exact e

@[simp] theorem State.bringupNone_boot (s : State) (b : Bringup) (e : DirEntry) :
    (State.bringupNone s b e).boot = s.boot := by
  unfold State.bringupNone
  simp

@[simp] theorem State.evictOne_boot (s : State) (n : Nat) :
    (State.evictOne s n).boot = s.boot := by
  unfold State.evictOne
  (try dsimp only)
  (repeat' split) <;> simp

@[simp] theorem execEvictionStart_boot (n : Nat) (s : State) :
    bootOut s.boot (execEvictionStart n s) := by
  unfold execEvictionStart
  simp

@[simp] theorem State.evicted_boot (s : State) (v : Evict) (e : DirEntry) :
    (State.evicted s v e).boot = s.boot := by
  unfold State.evicted
  simp

@[simp] theorem execEvictionComplete_boot (page : Nat) (st : Nat) (s : State) :
    bootOut s.boot (execEvictionComplete page st s) := by
  unfold execEvictionComplete
  (repeat' split) <;> simp

@[simp] theorem State.dropFar_boot (s : State) (id : Nat) :
    (State.dropFar s id).boot = s.boot := by
  unfold State.dropFar
  simp

@[simp] theorem State.failXfer_boot (s : State) (c : Nat) (h : Nat) (reason : Nat) :
    (State.failXfer s c h reason).boot = s.boot := by
  unfold State.failXfer
  simp only []
  split <;> simp

@[simp] theorem State.broughtUp_boot (s : State) (b : Bringup) (e : DirEntry) (f : Nat) (data : List Byte) :
    (State.broughtUp s b e f data).boot = s.boot := by
  unfold State.broughtUp
  simp

@[simp] theorem State.failCopies_boot (s : State) (p : Nat) (reason : Nat) :
    (State.failCopies s p reason).boot = s.boot := by
  unfold State.failCopies
  apply foldl_boot
  intro t p
  (repeat' split) <;> simp

@[simp] theorem State.failWaiters_boot (s : State) (p : Nat) (reason : Nat) :
    (State.failWaiters s p reason).boot = s.boot := by
  unfold State.failWaiters
  simp

@[simp] theorem State.endBringup_boot (s : State) (b : Bringup) (e : DirEntry) :
    (State.endBringup s b e).boot = s.boot := by
  unfold State.endBringup
  simp

@[simp] theorem State.bringupFailed_boot (s : State) (b : Bringup) (e : DirEntry) (f : Nat) (reason : Nat) :
    (State.bringupFailed s b e f reason).boot = s.boot := by
  unfold State.bringupFailed
  simp

@[simp] theorem execBringupComplete_boot (page : Nat) (s : State) :
    bootOut s.boot (execBringupComplete page s) := by
  unfold execBringupComplete
  (repeat' split) <;> simp

@[simp] theorem State.tryAsk_boot (s : State) (x0 : FrameAsk) :
    bootOpt s.boot (State.tryAsk s x0) := by
  unfold State.tryAsk
  split
  · have e := State.tryWait_boot { s with pool := { s.pool with waits := s.pool.waits.erase ‹PoolWait› } } ‹PoolWait›
    simpa using e
  · (repeat' split) <;> simp

theorem State.tryAsk_boot' {s : State} {a : FrameAsk} {snd' : State}
    (hyp' : (State.tryAsk s a) = some snd') : snd'.boot = s.boot := by
  have e := State.tryAsk_boot s a
  rw [hyp'] at e
  exact e

@[simp] theorem State.endAsk_boot (s : State) (l : List FrameAsk) :
    (State.endAsk s l).boot = s.boot := by
  induction l with
  | nil => rfl
  | cons a l ih =>
    unfold State.endAsk
    cases h : s.tryAsk a with
    | none => exact ih
    | some t => exact State.tryAsk_boot' h

@[simp] theorem execAllocWaitEnd_boot (s : State) :
    bootOut s.boot (execAllocWaitEnd s) := by
  unfold execAllocWaitEnd
  simp

@[simp] theorem State.setFarDone_boot (s : State) (id : Nat) (d : Nat × List Byte) :
    (State.setFarDone s id d).boot = s.boot := by
  unfold State.setFarDone
  simp

@[simp] theorem execFarReadCompletion_boot (id : Nat) (st : Nat) (data : List Byte) (s : State) :
    bootOut s.boot (execFarReadCompletion id st data s) := by
  unfold execFarReadCompletion
  (repeat' split) <;> simp

@[simp] theorem execFarReadTimeout_boot (id : Nat) (s : State) :
    bootOut s.boot (execFarReadTimeout id s) := by
  unfold execFarReadTimeout
  split <;> simp

@[simp] theorem State.farWriteDead_boot (s : State) (r : FarReq) :
    (State.farWriteDead s r).boot = s.boot := by
  unfold State.farWriteDead
  split <;> simp

@[simp] theorem execFarWriteTimeout_boot (id : Nat) (s : State) :
    bootOut s.boot (execFarWriteTimeout id s) := by
  unfold execFarWriteTimeout
  split <;> simp

@[simp] theorem execScrubPass_boot (n : Nat) (s : State) :
    bootOut s.boot (execScrubPass n s) := by
  unfold execScrubPass
  simp

@[simp] theorem State.copySeg_boot (src : Nat) (dst : Nat) (s : State) (k : Nat) :
    (State.copySeg src dst s k).boot = s.boot := by
  unfold State.copySeg
  simp

@[simp] theorem State.mergePage_boot (s : State) (p : Nat) (m : Merge) (e : DirEntry) :
    (State.mergePage s p m e).boot = s.boot := by
  unfold State.mergePage
  simp

@[simp] theorem execFlyMerge_boot (page : Nat) (s : State) :
    bootOut s.boot (execFlyMerge page s) := by
  unfold execFlyMerge
  split <;> simp

@[simp] theorem execPageReclaim_boot (n : Nat) (s : State) :
    bootOut s.boot (execPageReclaim n s) := by
  unfold execPageReclaim
  simp

@[simp] theorem State.hdmRaw_boot (s : State) (w : HdmWait) (off : Nat) :
    (State.hdmRaw s w off).boot = s.boot := by
  unfold State.hdmRaw
  (try dsimp only)
  (repeat' split) <;> simp

@[simp] theorem State.hdmAccess_boot (s : State) (off : Nat) (len : Nat) (data : Option (List Byte)) :
    (State.hdmAccess s off len data).boot = s.boot := by
  unfold State.hdmAccess
  (try dsimp only)
  (repeat' split) <;> simp

@[simp] theorem execHdmRead_boot (hpa : Nat) (len : Nat) (s : State) :
    bootOut s.boot (execHdmRead hpa len s) := by
  unfold execHdmRead
  split <;> simp

@[simp] theorem execHdmWrite_boot (off : Nat) (data : List Byte) (s : State) :
    bootOut s.boot (execHdmWrite off data s) := by
  unfold execHdmWrite
  simp

end Sys2Proof.Machine
end

