-- ==== Sys2Proof/Laws/BootOfStepOps.lean ====
section
/-! SUPPORT. No function of Machine/StepOps.lean changes the boot state of the module. -/

namespace Sys2Proof.Machine

@[simp] theorem State.stampNow_boot (s : State) :
    (State.stampNow s).2.boot = s.boot := by
  unfold State.stampNow
  simp

theorem State.stampNow_boot' {s : State} {fst' : Nat} {snd' : State}
    (hyp' : (State.stampNow s) = (fst', snd')) : snd'.boot = s.boot := by
  rw [← State.stampNow_boot s, hyp']

@[simp] theorem State.takeSeq_boot (s : State) (p : Nat) :
    (State.takeSeq s p).2.boot = s.boot := by
  unfold State.takeSeq
  simp

theorem State.takeSeq_boot' {s : State} {p : Nat} {fst' : BitVec 3} {snd' : State}
    (hyp' : (State.takeSeq s p) = (fst', snd')) : snd'.boot = s.boot := by
  rw [← State.takeSeq_boot s p, hyp']

@[simp] theorem State.emitGuy_boot (s : State) (p : Nat) (a : GuyOut) :
    (State.emitGuy s p a).boot = s.boot := by
  unfold State.emitGuy
  (try dsimp only)
  (repeat' split) <;> simp

@[simp] theorem State.pumpGuy_boot (p : Nat) (a : Nat) (x2 : State) :
    (State.pumpGuy p a x2).boot = x2.boot := by
  induction a generalizing p x2 with
    | zero => simp [State.pumpGuy]
    | succ k ih => unfold State.pumpGuy; (try dsimp only); (repeat' split) <;> simp [ih, *]

@[simp] theorem State.queueCell_boot (s : State) (p : Nat) (g : GuyOut) :
    (State.queueCell s p g).boot = s.boot := by
  unfold State.queueCell
  split <;> simp

@[simp] theorem State.guyTick_boot (s : State) :
    (State.guyTick s).boot = s.boot := by
  unfold State.guyTick
  simp

@[simp] theorem State.sendGuy_boot (s : State) (p : Nat) (verdict : Bool) (g : GuyCell) :
    (State.sendGuy s p verdict g).boot = s.boot := by
  unfold State.sendGuy
  simp

@[simp] theorem State.guyHear_boot (s : State) (p : Nat) :
    (State.guyHear s p).boot = s.boot := by
  unfold State.guyHear
  split <;> simp

@[simp] theorem State.guyTake_boot (s : State) (p : Nat) (seq : BitVec 3) (copy : Bool) (good : Bool) :
    bootOpt s.boot (State.guyTake s p seq copy good) := by
  unfold State.guyTake
  split <;> simp

theorem State.guyTake_boot' {s : State} {p : Nat} {seq : BitVec 3} {copy : Bool} {good : Bool} {snd' : State}
    (hyp' : (State.guyTake s p seq copy good) = some snd') : snd'.boot = s.boot := by
  have e := State.guyTake_boot s p seq copy good
  rw [hyp'] at e
  exact e

@[simp] theorem State.guyMissed_boot (s : State) (p : Nat) :
    (State.guyMissed s p).boot = s.boot := by
  unfold State.guyMissed
  (try dsimp only)
  (repeat' split) <;> simp

@[simp] theorem State.guyNote_boot (s : State) (p : Nat) :
    (State.guyNote s p).boot = s.boot := by
  unfold State.guyNote
  (try dsimp only)
  (repeat' split) <;> simp

@[simp] theorem State.guyPortsNew_boot (s : State) (old : State) :
    (State.guyPortsNew s old).boot = s.boot := by
  unfold State.guyPortsNew
  apply foldl_boot
  intro t p
  (try dsimp only)
  (repeat' split) <;> simp [*]

@[simp] theorem State.judgeVerdict_boot (s : State) (g : GuyCell) :
    (State.judgeVerdict s g).boot = s.boot := by
  unfold State.judgeVerdict
  (try dsimp only)
  (repeat' split) <;> simp

@[simp] theorem State.takeVerdict_boot (s : State) (g : GuyCell) :
    (State.takeVerdict s g).boot = s.boot := by
  unfold State.takeVerdict
  simp

@[simp] theorem State.guyRound_boot (s : State) :
    (State.guyRound s).boot = s.boot := by
  unfold State.guyRound
  (try dsimp only)
  (repeat' split) <;> simp

@[simp] theorem State.sealFault_boot (s : State) (reason : Nat) (unit : Nat) :
    (State.sealFault s reason unit).boot = s.boot := by
  unfold State.sealFault
  simp

@[simp] theorem State.latchSeal_boot (s : State) (t : Nat) :
    (State.latchSeal s t).boot = s.boot := by
  unfold State.latchSeal
  simp

@[simp] theorem State.sealAt_boot (s : State) (unit : Nat) (t : Nat) :
    (State.sealAt s unit t).boot = s.boot := by
  unfold State.sealAt
  (repeat' split) <;> simp

@[simp] theorem State.cellSeal_boot (s : State) (c : Nat) (t : Nat) :
    (State.cellSeal s c t).boot = s.boot := by
  unfold State.cellSeal
  split <;> simp

@[simp] theorem State.sealEdge_boot (s : State) (t : Nat) :
    (State.sealEdge s t).boot = s.boot := by
  unfold State.sealEdge
  simp

@[simp] theorem State.stakePage_boot (s : State) (x : Nat × FlyPage) :
    (State.stakePage s x).boot = s.boot := by
  unfold State.stakePage
  (try dsimp only)
  (repeat' split) <;> simp

@[simp] theorem State.strikePage_boot (s : State) (x : Nat × FlyPage) :
    (State.strikePage s x).boot = s.boot := by
  unfold State.strikePage
  simp only []
  split <;> simp

@[simp] theorem State.verdictFly_boot (s : State) (stake : Bool) :
    (State.verdictFly s stake).boot = s.boot := by
  unfold State.verdictFly
  split <;> simp

@[simp] theorem State.clearWide_boot (s : State) :
    (State.clearWide s).boot = s.boot := by
  unfold State.clearWide
  simp

@[simp] theorem State.gscaleLimit_boot (s : State) (top : Bool) (e : W32) :
    (State.gscaleLimit s top e).boot = s.boot := by
  unfold State.gscaleLimit
  simp

@[simp] theorem State.gscaleMove_boot (s : State) (up : Bool) (e : W32) :
    (State.gscaleMove s up e).boot = s.boot := by
  unfold State.gscaleMove
  (try dsimp only)
  (repeat' split) <;> simp

@[simp] theorem State.autoscale_boot (s : State) (stake : Bool) (e : W32) :
    (State.autoscale s stake e).boot = s.boot := by
  unfold State.autoscale
  (try dsimp only)
  (repeat' split) <;> simp

@[simp] theorem State.openStep_boot (s : State) (first : BitVec 4) :
    (State.openStep s first).boot = s.boot := by
  unfold State.openStep
  simp

@[simp] theorem State.endUnits_boot (s : State) (stake : Bool) :
    (State.endUnits s stake).boot = s.boot := by
  unfold State.endUnits
  simp

@[simp] theorem State.afterVerdict_boot (s0 : State) (stake : Bool) :
    (State.afterVerdict s0 stake).boot = s0.boot := by
  unfold State.afterVerdict
  split <;> simp

@[simp] theorem State.stake_boot (s : State) (fl : BitVec 4) :
    (State.stake s fl).boot = s.boot := by
  unfold State.stake
  simp

@[simp] theorem State.strike_boot (s : State) (fl : BitVec 4) (loc : Bool) :
    (State.strike s fl loc).boot = s.boot := by
  unfold State.strike
  split <;> simp

@[simp] theorem State.applyVerdict_boot (s : State) :
    (State.applyVerdict s).boot = s.boot := by
  unfold State.applyVerdict
  (repeat' split) <;> simp

@[simp] theorem State.endStep_boot (s : State) :
    (State.endStep s).boot = s.boot := by
  unfold State.endStep
  split <;> simp

end Sys2Proof.Machine
end

