-- ==== Sys2Proof/Laws/BootOfStepCmds.lean ====
section
/-! SUPPORT. No function of Machine/StepCmds.lean changes the boot state of the module. -/

namespace Sys2Proof.Machine

@[simp] theorem execTSealReached_boot (s : State) :
    bootOut s.boot (execTSealReached s) := by
  unfold execTSealReached
  simp

@[simp] theorem execGuylineContribution_boot (port : Nat) (g : GuyCell) (s : State) :
    bootOut s.boot (execGuylineContribution port g s) := by
  unfold execGuylineContribution
  apply onUnit_boot
  (repeat' split) <;> (try have e0 := State.guyTake_boot' (by assumption)) <;> simp [*]

@[simp] theorem execGuylineVerdict_boot (port : Nat) (g : GuyCell) (s : State) :
    bootOut s.boot (execGuylineVerdict port g s) := by
  unfold execGuylineVerdict
  apply onUnit_boot
  (repeat' split) <;> (try have e0 := State.guyTake_boot' (by assumption)) <;> simp [*]

@[simp] theorem execVerdictApply_boot (s : State) :
    bootOut s.boot (execVerdictApply s) := by
  unfold execVerdictApply
  simp

@[simp] theorem State.stepOn_boot (s : State) :
    (State.stepOn s).boot = s.boot := by
  unfold State.stepOn
  split <;> simp

@[simp] theorem execStepEnable_boot (s : State) :
    bootOut s.boot (execStepEnable s) := by
  unfold execStepEnable
  simp

@[simp] theorem execStepDisable_boot (s : State) :
    bootOut s.boot (execStepDisable s) := by
  unfold execStepDisable
  simp

@[simp] theorem execModEpochWrite_boot (v : W32) (s : State) :
    bootOut s.boot (execModEpochWrite v s) := by
  unfold execModEpochWrite
  (repeat' split) <;> simp

@[simp] theorem execStepCmdSeal_boot (s : State) :
    bootOut s.boot (execStepCmdSeal s) := by
  unfold execStepCmdSeal
  simp

@[simp] theorem execStepCmdAbort_boot (s : State) :
    bootOut s.boot (execStepCmdAbort s) := by
  unfold execStepCmdAbort
  simp

@[simp] theorem execClearDiverge_boot (s : State) :
    bootOut s.boot (execClearDiverge s) := by
  unfold execClearDiverge
  simp

@[simp] theorem execModGscaleWrite_boot (v : W32) (s : State) :
    bootOut s.boot (execModGscaleWrite v s) := by
  unfold execModGscaleWrite
  simp only []
  split <;> simp

@[simp] theorem State.ctrlClamp_boot (s : State) (bit : Nat) (written : Nat) (applied : Nat) :
    (State.ctrlClamp s bit written applied).boot = s.boot := by
  unfold State.ctrlClamp
  split <;> simp

@[simp] theorem execModGscaleCtrlWrite_boot (v : W32) (s : State) :
    bootOut s.boot (execModGscaleCtrlWrite v s) := by
  unfold execModGscaleCtrlWrite
  simp only []
  split <;> simp

end Sys2Proof.Machine
end

