-- ==== Sys2Proof/Laws/BootOfSystem.lean ====
section
/-! SUPPORT. No function of Machine/System.lean changes the boot state of the module. -/

namespace Sys2Proof.Machine

@[simp] theorem State.setPhaseAcc_boot (s : State) (d : Nat) (a : PhaseAcc) :
    (State.setPhaseAcc s d a).boot = s.boot := by
  unfold State.setPhaseAcc
  simp

@[simp] theorem State.closeSample_boot (s : State) (d : Nat) (n : Nat) (a : PhaseAcc) :
    (State.closeSample s d n a).boot = s.boot := by
  unfold State.closeSample
  simp only []
  split <;> simp

@[simp] theorem State.setHints_boot (s : State) (d : Nat) (l : List (Nat × Nat)) :
    (State.setHints s d l).boot = s.boot := by
  unfold State.setHints
  simp

@[simp] theorem State.markPhase_boot (s : State) (c : Nat) (n : Nat) :
    (State.markPhase s c n).boot = s.boot := by
  unfold State.markPhase
  split <;> simp

@[simp] theorem State.addHint_boot (s : State) (d : Nat) (n : Nat) (t : Nat) :
    (State.addHint s d n t).boot = s.boot := by
  unfold State.addHint
  (try dsimp only)
  (repeat' split) <;> simp

@[simp] theorem State.dropHints_boot (s : State) (d : Nat) :
    (State.dropHints s d).boot = s.boot := by
  unfold State.dropHints
  simp only []
  split <;> simp

@[simp] theorem execPhase_boot (c : Nat) (o : ROps) (s : State) :
    bootOut s.boot (execPhase c o s) := by
  unfold execPhase
  simp

@[simp] theorem execHint_boot (c : Nat) (o : ROps) (s : State) :
    bootOut s.boot (execHint c o s) := by
  unfold execHint
  simp

@[simp] theorem execTick_boot (c : Nat) (o : ROps) (s : State) :
    bootOut s.boot (execTick c o s) := by
  unfold execTick
  simp

@[simp] theorem execSeal_boot (c : Nat) (o : ROps) (s : State) :
    bootOut s.boot (execSeal c o s) := by
  unfold execSeal
  simp

@[simp] theorem execSyncAbort_boot (c : Nat) (o : ROps) (s : State) :
    bootOut s.boot (execSyncAbort c o s) := by
  unfold execSyncAbort
  simp

@[simp] theorem execWaitTick_boot (c : Nat) (o : ROps) (s : State) :
    bootOut s.boot (execWaitTick c o s) := by
  unfold execWaitTick
  apply coreR_boot
  intro t
  (try dsimp only)
  (repeat' split) <;> simp

@[simp] theorem execWaitTickResume_boot (c : Nat) (s : State) :
    bootOut s.boot (execWaitTickResume c s) := by
  unfold execWaitTickResume
  split <;> simp

@[simp] theorem execNop_boot (c : Nat) (o : ROps) (s : State) :
    bootOut s.boot (execNop c o s) := by
  unfold execNop
  simp

@[simp] theorem execSysRd_boot (c : Nat) (o : ROps) (s : State) :
    bootOut s.boot (execSysRd c o s) := by
  unfold execSysRd
  simp

@[simp] theorem execSysWr_boot (c : Nat) (o : ROps) (s : State) :
    bootOut s.boot (execSysWr c o s) := by
  unfold execSysWr
  apply coreR_boot
  intro t
  (try dsimp only)
  (repeat' split) <;> simp

@[simp] theorem execSysEret_boot (c : Nat) (o : ROps) (s : State) :
    bootOut s.boot (execSysEret c o s) := by
  unfold execSysEret
  apply coreR_boot
  intro t
  (try dsimp only)
  (repeat' split) <;> simp

@[simp] theorem execSysHalt_boot (c : Nat) (o : ROps) (s : State) :
    bootOut s.boot (execSysHalt c o s) := by
  unfold execSysHalt
  simp

@[simp] theorem execSysTrap_boot (c : Nat) (o : ROps) (s : State) :
    bootOut s.boot (execSysTrap c o s) := by
  unfold execSysTrap
  simp

@[simp] theorem State.startCore_boot (s : State) (c : Nat) :
    (State.startCore s c).boot = s.boot := by
  unfold State.startCore
  simp only []
  split <;> simp

@[simp] theorem execRun_boot (c : Nat) (s : State) :
    bootOut s.boot (execRun c s) := by
  unfold execRun
  simp

@[simp] theorem execHalt_boot (c : Nat) (s : State) :
    bootOut s.boot (execHalt c s) := by
  unfold execHalt
  simp

@[simp] theorem execClrlq_boot (c : Nat) (s : State) :
    bootOut s.boot (execClrlq c s) := by
  unfold execClrlq
  simp

end Sys2Proof.Machine
end

