-- ==== Sys2Proof/Laws/BootOfQueues.lean ====
section
/-! SUPPORT. No function of Machine/Queues.lean changes the boot state of the module. -/

namespace Sys2Proof.Machine

@[simp] theorem State.readDesc_boot (s : State) (q : Nat) :
    (State.readDesc s q).boot = s.boot := by
  unfold State.readDesc
  simp

@[simp] theorem State.fetchFailed_boot (s : State) (q : Nat) (fault : Nat) :
    (State.fetchFailed s q fault).boot = s.boot := by
  unfold State.fetchFailed
  simp

@[simp] theorem State.startDesc_boot (s : State) (q : Nat) (ws : List Nat) :
    (State.startDesc s q ws).boot = s.boot := by
  unfold State.startDesc
  split <;> simp

@[simp] theorem execDescriptorFetch_boot (st : Nat) (words : List W32) (s : State) :
    bootOut s.boot (execDescriptorFetch st words s) := by
  unfold execDescriptorFetch
  (try dsimp only)
  (repeat' split) <;> simp

@[simp] theorem execHqFetchTimeout_boot (q : Nat) (s : State) :
    bootOut s.boot (execHqFetchTimeout q s) := by
  unfold execHqFetchTimeout
  simp

@[simp] theorem execQueueEnable_boot (q : Nat) (s : State) :
    bootOut s.boot (execQueueEnable q s) := by
  unfold execQueueEnable
  split <;> simp

@[simp] theorem execQueueDisable_boot (q : Nat) (s : State) :
    bootOut s.boot (execQueueDisable q s) := by
  unfold execQueueDisable
  split <;> simp

@[simp] theorem State.ringDoorbell_boot (s : State) (q : Nat) (tail : Nat) :
    (State.ringDoorbell s q tail).boot = s.boot := by
  unfold State.ringDoorbell
  simp only []
  split <;> simp

@[simp] theorem execDoorbell_boot (q : Nat) (tail : Nat) (s : State) :
    bootOut s.boot (execDoorbell q tail s) := by
  unfold execDoorbell
  simp

@[simp] theorem State.putStarted_boot (s : State) (q : Nat) (d : Started) (e : Started) :
    (State.putStarted s q d e).boot = s.boot := by
  unfold State.putStarted
  simp

@[simp] theorem onDesc_boot (q slot kind : Nat) (s : State) (act : Started → State)
    (h : ∀ d, (act d).boot = s.boot) : bootOut s.boot (onDesc q slot kind s act) := by
  unfold onDesc
  apply onUnit_boot
  split <;> simp [h]

@[simp] theorem onBegun_boot (q slot kind : Nat) (s : State) (act : Started → State)
    (h : ∀ d, (act d).boot = s.boot) : bootOut s.boot (onBegun q slot kind s act) := by
  unfold onBegun
  apply onUnit_boot
  split <;> simp [h]

@[simp] theorem execDescNop_boot (q : Nat) (slot : Nat) (s : State) :
    bootOut s.boot (execDescNop q slot s) := by
  unfold execDescNop
  simp

@[simp] theorem State.progRun_boot (s : State) (q : Nat) (d : Started) :
    (State.progRun s q d).boot = s.boot := by
  unfold State.progRun
  simp

@[simp] theorem State.progLoad_boot (s : State) (d : Started) (image : List W64) :
    (State.progLoad s d image).boot = s.boot := by
  unfold State.progLoad
  simp

@[simp] theorem execProgram_boot (q : Nat) (slot : Nat) (image : List W64) (s : State) :
    bootOut s.boot (execProgram q slot image s) := by
  unfold execProgram
  apply onDesc_boot
  intro t
  (try dsimp only)
  (repeat' split) <;> simp

@[simp] theorem execProgramStart_boot (q : Nat) (slot : Nat) (s : State) :
    bootOut s.boot (execProgramStart q slot s) := by
  unfold execProgramStart
  simp

@[simp] theorem execStep_boot (q : Nat) (slot : Nat) (s : State) :
    bootOut s.boot (execStep q slot s) := by
  unfold execStep
  apply onDesc_boot
  intro t
  (try dsimp only)
  (repeat' split) <;> simp

@[simp] theorem State.overCopy_boot (s : State) (i : Instr) (q : Nat) (d : Started) (act : State → State)
    (h : ∀ t : State, (act t).boot = t.boot) : (State.overCopy s i q d act).boot = s.boot := by
  unfold State.overCopy
  split <;> simp [h]

@[simp] theorem execCopy_boot (q : Nat) (slot : Nat) (s : State) :
    bootOut s.boot (execCopy q slot s) := by
  unfold execCopy
  (try dsimp only)
  (repeat' split) <;> simp

@[simp] theorem execCopyComplete_boot (q : Nat) (slot : Nat) (st : Nat) (data : List Byte) (s : State) :
    bootOut s.boot (execCopyComplete q slot st data s) := by
  unfold execCopyComplete
  apply onBegun_boot
  intro t
  (try dsimp only)
  (repeat' split) <;> simp

@[simp] theorem execWait_boot (q : Nat) (slot : Nat) (s : State) :
    bootOut s.boot (execWait q slot s) := by
  unfold execWait
  apply onDesc_boot
  intro t
  (try dsimp only)
  (repeat' split) <;> simp

@[simp] theorem execWaitComplete_boot (q : Nat) (slot : Nat) (s : State) :
    bootOut s.boot (execWaitComplete q slot s) := by
  unfold execWaitComplete
  simp

@[simp] theorem execEventRingEnable_boot (s : State) :
    bootOut s.boot (execEventRingEnable s) := by
  unfold execEventRingEnable
  simp

@[simp] theorem execClampRingEnable_boot (s : State) :
    bootOut s.boot (execClampRingEnable s) := by
  unfold execClampRingEnable
  simp

@[simp] theorem State.signalRing_boot (s : State) (r : RingRegs) :
    (State.signalRing s r).boot = s.boot := by
  unfold State.signalRing
  simp

@[simp] theorem execEventIrqDelay_boot (s : State) :
    bootOut s.boot (execEventIrqDelay s) := by
  unfold execEventIrqDelay
  simp

@[simp] theorem execClampIrqDelay_boot (s : State) :
    bootOut s.boot (execClampIrqDelay s) := by
  unfold execClampIrqDelay
  simp

end Sys2Proof.Machine
end

