-- ==== Sys2Proof/Laws/BootOfLink.lean ====
section
/-! SUPPORT. No function of Machine/Link.lean changes the boot state of the module. -/

namespace Sys2Proof.Machine

@[simp] theorem State.linkNote_boot (s : State) :
    (State.linkNote s).boot = s.boot := by
  unfold State.linkNote
  split <;> simp

@[simp] theorem execHostLinkTrained_boot (width : Nat) (rate : Nat) (cxl : Bool) (s : State) :
    bootOut s.boot (execHostLinkTrained width rate cxl s) := by
  unfold execHostLinkTrained
  simp

@[simp] theorem execSnoop_boot (_addr : Nat) (s : State) :
    bootOut s.boot (execSnoop _addr s) := by
  unfold execSnoop
  simp

@[simp] theorem execUioRequest_boot (_addr : Nat) (s : State) :
    bootOut s.boot (execUioRequest _addr s) := by
  unfold execUioRequest
  simp

@[simp] theorem State.setIde_boot (s : State) (k : Nat) (v : Ide) :
    (State.setIde s k v).boot = s.boot := by
  unfold State.setIde
  simp

@[simp] theorem execIdeIntegrityFailure_boot (stream : Nat) (cm : Bool) (s : State) :
    bootOut s.boot (execIdeIntegrityFailure stream cm s) := by
  unfold execIdeIntegrityFailure
  split <;> simp

@[simp] theorem State.stdBytes_boot (s : State) :
    (State.stdBytes s).2.boot = s.boot := by
  unfold State.stdBytes
  simp

theorem State.stdBytes_boot' {s : State} {fst' : List Byte} {snd' : State}
    (hyp' : (State.stdBytes s) = (fst', snd')) : snd'.boot = s.boot := by
  rw [← State.stdBytes_boot s, hyp']

@[simp] theorem State.doeReply_boot (s : State) (body : List Byte) :
    (State.doeReply s body).boot = s.boot := by
  unfold State.doeReply
  simp

@[simp] theorem doeServe_boot (s t : State) (b : Boot) (h : s.boot = b) (h2 : t.boot = b) :
    bootOut b (doeServe s t) := by
  unfold doeServe
  simp [h, h2]

@[simp] theorem execDoeDiscovery_boot (index : Nat) (s : State) :
    bootOut s.boot (execDoeDiscovery index s) := by
  unfold execDoeDiscovery
  simp

@[simp] theorem execCxlTableAccess_boot (index : Nat) (s : State) :
    bootOut s.boot (execCxlTableAccess index s) := by
  unfold execCxlTableAccess
  simp

@[simp] theorem spdmReply_boot (s : State) :
    bootOut s.boot (spdmReply s) := by
  unfold spdmReply
  simp

@[simp] theorem execGetVersion_boot (s : State) :
    bootOut s.boot (execGetVersion s) := by
  unfold execGetVersion
  simp

@[simp] theorem execGetCapabilities_boot (s : State) :
    bootOut s.boot (execGetCapabilities s) := by
  unfold execGetCapabilities
  simp

@[simp] theorem execNegotiateAlgorithms_boot (_asym : Bool) (_hash : Bool) (s : State) :
    bootOut s.boot (execNegotiateAlgorithms _asym _hash s) := by
  unfold execNegotiateAlgorithms
  simp

@[simp] theorem execGetDigests_boot (s : State) :
    bootOut s.boot (execGetDigests s) := by
  unfold execGetDigests
  simp

@[simp] theorem execGetCertificate_boot (slot : Nat) (off : Nat) (len : Nat) (s : State) :
    bootOut s.boot (execGetCertificate slot off len s) := by
  unfold execGetCertificate
  split <;> simp

@[simp] theorem execChallenge_boot (_slot : Nat) (_nonce : Nat) (s : State) :
    bootOut s.boot (execChallenge _slot _nonce s) := by
  unfold execChallenge
  simp

@[simp] theorem addBlock_boot (r : List Byte × State) (index : Nat) :
    (addBlock r index).2.boot = r.2.boot := by
  unfold addBlock
  simp

@[simp] theorem execGetMeasurements_boot (index : Nat) (signed : Bool) (session : Bool) (s : State) :
    bootOut s.boot (execGetMeasurements index signed session s) := by
  unfold execGetMeasurements
  split <;> simp

@[simp] theorem execHeartbeat_boot (_session : Nat) (s : State) :
    bootOut s.boot (execHeartbeat _session s) := by
  unfold execHeartbeat
  simp

@[simp] theorem execKeyUpdate_boot (_session : Nat) (s : State) :
    bootOut s.boot (execKeyUpdate _session s) := by
  unfold execKeyUpdate
  simp

@[simp] theorem ideKm_boot (session : Nat) (stream : Nat) (cm : Bool) (s : State) (act : Ide → Ide) :
    bootOut s.boot (ideKm session stream cm s act) := by
  unfold ideKm
  (repeat' split) <;> simp

@[simp] theorem execQuery_boot (_session : Nat) (s : State) :
    bootOut s.boot (execQuery _session s) := by
  unfold execQuery
  simp

@[simp] theorem execKeyProg_boot (session : Nat) (stream : Nat) (cm : Bool) (s : State) :
    bootOut s.boot (execKeyProg session stream cm s) := by
  unfold execKeyProg
  simp

@[simp] theorem execKSetGo_boot (session : Nat) (stream : Nat) (cm : Bool) (s : State) :
    bootOut s.boot (execKSetGo session stream cm s) := by
  unfold execKSetGo
  simp

@[simp] theorem execKSetStop_boot (session : Nat) (stream : Nat) (cm : Bool) (s : State) :
    bootOut s.boot (execKSetStop session stream cm s) := by
  unfold execKSetStop
  simp

end Sys2Proof.Machine
end

