-- ==== Sys2Proof/Laws/BootOfMxOps.lean ====
section
/-! SUPPORT. No function of Machine/MxOps.lean changes the boot state of the module. -/

namespace Sys2Proof.Machine

@[simp] theorem State.putLive_boot (s : State) (c : Nat) (t : Tile) :
    (State.putLive s c t).boot = s.boot := by
  unfold State.putLive
  simp

@[simp] theorem State.tileStatus_boot (s : State) (c : Nat) (t : Tsw) :
    (State.tileStatus s c t).boot = s.boot := by
  unfold State.tileStatus
  simp only []
  split <;> simp

@[simp] theorem State.headerFault_boot (s : State) (c : Nat) (t : Tile) (k : KWord) (reserved : Option (Nat × Nat)) :
    (State.headerFault s c t k reserved).boot = s.boot := by
  unfold State.headerFault
  split <;> simp

@[simp] theorem State.touchRows_boot (s : State) (a : Nat) (stride : Nat) (r0 : Nat) (rows : Nat) (lo : Nat) (n : Nat) :
    (State.touchRows s a stride r0 rows lo n).boot = s.boot := by
  unfold State.touchRows
  split <;> simp

@[simp] theorem State.touchPlain_boot (s : State) (o : OpWord) (a : Nat) (sa : Nat) (k : KWord) :
    (State.touchPlain s o a sa k).boot = s.boot := by
  unfold State.touchPlain
  simp only []
  split <;> simp

@[simp] theorem State.mxActive_boot (s : State) (c : Nat) (n : Nat) :
    (State.mxActive s c n).boot = s.boot := by
  unfold State.mxActive
  simp

@[simp] theorem State.execMulOn_boot (s : State) (c : Nat) (t0 : Tile) (ws : W64) (wt : W64) (kc : W64) (sa : List W32) (ta : List W32) :
    (State.execMulOn s c t0 ws wt kc sa ta).boot = s.boot := by
  unfold State.execMulOn
  (try dsimp only)
  (repeat' split) <;> simp

@[simp] theorem State.execStartOn_boot (s : State) (c : Nat) (h : Nat) (w : W64) (src : W32) (e : W32) :
    (State.execStartOn s c h w src e).boot = s.boot := by
  unfold State.execStartOn
  (try dsimp only)
  (repeat' split) <;> simp

@[simp] theorem State.execFinOn_boot (s : State) (c : Nat) (t : Tile) (w : W64) (dst : W32) :
    (State.execFinOn s c t w dst).boot = s.boot := by
  unfold State.execFinOn
  (repeat' split) <;> simp

@[simp] theorem State.mxBring_boot (s : State) (c : Nat) :
    (State.mxBring s c).boot = s.boot := by
  unfold State.mxBring
  (try dsimp only)
  (repeat' split) <;> simp

@[simp] theorem State.mxPush_boot (s : State) (c : Nat) (op : MxOp) :
    (State.mxPush s c op).boot = s.boot := by
  unfold State.mxPush
  simp

@[simp] theorem State.raceLive_boot (s : State) (c : Nat) (h : Nat) :
    (State.raceLive s c h).boot = s.boot := by
  unfold State.raceLive
  simp only []
  split <;> simp

@[simp] theorem State.mxStep_boot (s : State) (c : Nat) :
    bootOpt s.boot (State.mxStep s c) := by
  unfold State.mxStep
  (repeat' split) <;> simp

theorem State.mxStep_boot' {s : State} {c : Nat} {snd' : State}
    (hyp' : (State.mxStep s c) = some snd') : snd'.boot = s.boot := by
  have e := State.mxStep_boot s c
  rw [hyp'] at e
  exact e

end Sys2Proof.Machine
end

