-- ==== Sys2Proof/Laws/BootOfVsOps.lean ====
section
/-! SUPPORT. No function of Machine/VsOps.lean changes the boot state of the module. -/

namespace Sys2Proof.Machine

@[simp] theorem State.spadTouchAll_boot (s : State) (l : List (Nat × Nat)) :
    (State.spadTouchAll s l).boot = s.boot := by
  unfold State.spadTouchAll
  split <;> simp

@[simp] theorem State.tileSat_boot (n : Nat) (c : Nat) (s : State) (h : Nat) :
    (State.tileSat n c s h).boot = s.boot := by
  unfold State.tileSat
  simp only []
  split <;> simp

@[simp] theorem State.freeTiles_boot (s : State) (c : Nat) (hs : List Nat) :
    (State.freeTiles s c hs).boot = s.boot := by
  unfold State.freeTiles
  simp

@[simp] theorem State.loss_boot (s : State) (c : Nat) (op : Nat) (code : Nat) :
    (State.loss s c op code).boot = s.boot := by
  unfold State.loss
  simp only []
  split <;> simp

@[simp] theorem State.nanDropped_boot (s : State) (c : Nat) (op : Nat) :
    (State.nanDropped s c op).boot = s.boot := by
  unfold State.nanDropped
  split <;> simp

@[simp] theorem State.vsActive_boot (s : State) (c : Nat) (n : Nat) (fn : Bool) :
    (State.vsActive s c n fn).boot = s.boot := by
  unfold State.vsActive
  simp

@[simp] theorem State.writeSd_boot (s : State) (c : Nat) (sd : Nat) (v : Nat) :
    (State.writeSd s c sd v).boot = s.boot := by
  unfold State.writeSd
  simp

@[simp] theorem State.derive_boot (s : State) (c : Nat) (hs : List Nat) (ws : List (Nat × List Byte)) :
    (State.derive s c hs ws).boot = s.boot := by
  unfold State.derive
  (try dsimp only)
  (repeat' split) <;> simp

@[simp] theorem State.vsExecOn_boot (s : State) (c : Nat) (o : VsOp) :
    (State.vsExecOn s c o).boot = s.boot := by
  unfold State.vsExecOn
  (try dsimp only)
  (repeat' split) <;> simp

@[simp] theorem State.vsStep_boot (s : State) (c : Nat) :
    bootOpt s.boot (State.vsStep s c) := by
  unfold State.vsStep
  (try dsimp only)
  (repeat' split) <;> simp

theorem State.vsStep_boot' {s : State} {c : Nat} {snd' : State}
    (hyp' : (State.vsStep s c) = some snd') : snd'.boot = s.boot := by
  have e := State.vsStep_boot s c
  rw [hyp'] at e
  exact e

end Sys2Proof.Machine
end

