-- ==== Sys2Proof/Laws/BootOfEngines.lean ====
section
/-! SUPPORT. No function of Machine/Engines.lean changes the boot state of the module. -/

namespace Sys2Proof.Machine

@[simp] theorem State.engineLoop_boot (x0 : Nat) (x1 : Nat) (x2 : State) :
    (State.engineLoop x0 x1 x2).boot = x2.boot := by
  induction x0 generalizing x1 x2 with
    | zero => simp [State.engineLoop]
    | succ k ih => unfold State.engineLoop; (try dsimp only); (repeat' split) <;> (try have e0 := State.mxStep_boot' (by assumption)) <;> (try have e1 := State.vsStep_boot' (by assumption)) <;> simp [ih, *]

@[simp] theorem State.runEngines_boot (s : State) (c : Nat) :
    (State.runEngines s c).boot = s.boot := by
  unfold State.runEngines
  split <;> simp

@[simp] theorem State.runAllEngines_boot (s : State) :
    (State.runAllEngines s).boot = s.boot := by
  unfold State.runAllEngines
  simp

@[simp] theorem State.vsPush_boot (s : State) (c : Nat) (v : VsOp) :
    (State.vsPush s c v).boot = s.boot := by
  unfold State.vsPush
  simp

@[simp] theorem mxEffect_boot (c : Nat) (opc : Nat) (o : ROps) (s : State) (b : Boot) (h : s.boot = b) :
    bootEff b (mxEffect c opc o s) := by
  subst h
  unfold mxEffect
  (try dsimp only)
  (repeat' split) <;> simp

@[simp] theorem vsEffect_boot (c : Nat) (o : ROps) (s : State) (b : Boot) (h : s.boot = b) :
    bootEff b (vsEffect c o s) := by
  subst h
  unfold vsEffect
  (try dsimp only)
  (repeat' split) <;> simp

end Sys2Proof.Machine
end

