-- ==== Sys2Proof/Laws/BootOfLantern.lean ====
section
/-! SUPPORT. No function of Machine/Lantern.lean changes the boot state of the module. -/

namespace Sys2Proof.Machine

@[simp] theorem State.setClock_boot (s : State) (d : Nat) (k : DieClock) :
    (State.setClock s d k).boot = s.boot := by
  unfold State.setClock
  simp

@[simp] theorem State.shareCap_boot (s : State) (c : Nat) :
    (State.shareCap s c).boot = s.boot := by simp only [State.shareCap]

@[simp] theorem State.placeClocks_boot (s : State) :
    (State.placeClocks s).boot = s.boot := by simp only [State.placeClocks]

@[simp] theorem State.moveAhead_boot (cap : Nat) (s : State) (d : Nat) :
    (State.moveAhead cap s d).boot = s.boot := by
  unfold State.moveAhead
  (try dsimp only)
  (repeat' split) <;> simp

@[simp] theorem State.lanternTick_boot (s : State) (cap : Nat) :
    (State.lanternTick s cap).boot = s.boot := by
  unfold State.lanternTick
  (try dsimp only)
  (repeat' split) <;> simp

@[simp] theorem State.kindleTo_boot (s : State) (cap : Nat) :
    (State.kindleTo s cap).boot = s.boot := by
  unfold State.kindleTo
  simp

@[simp] theorem State.countKindle_boot (s : State) :
    (State.countKindle s).boot = s.boot := by
  unfold State.countKindle
  simp

end Sys2Proof.Machine
end

