-- ==== Sys2Proof/Laws/BootOfPorts.lean ====
section
/-! SUPPORT. No function of Machine/Ports.lean changes the boot state of the module. -/

namespace Sys2Proof.Machine

@[simp] theorem State.loseFlits_boot (s : State) (p : Nat) :
    (State.loseFlits s p).boot = s.boot := by
  unfold State.loseFlits
  simp

@[simp] theorem State.portLeave_boot (s : State) (p : Nat) (m : PortMode) :
    (State.portLeave s p m).boot = s.boot := by
  unfold State.portLeave
  (try dsimp only)
  (repeat' split) <;> simp

@[simp] theorem State.enterTrain_boot (s : State) (p : Nat) :
    (State.enterTrain s p).boot = s.boot := by
  unfold State.enterTrain
  simp

@[simp] theorem State.enterUp_boot (s : State) (p : Nat) :
    (State.enterUp s p).boot = s.boot := by
  unfold State.enterUp
  (try dsimp only)
  (repeat' split) <;> simp

@[simp] theorem execPortEnable_boot (p : Nat) (s : State) :
    bootOut s.boot (execPortEnable p s) := by
  unfold execPortEnable
  split <;> simp

@[simp] theorem execPortDisable_boot (p : Nat) (s : State) :
    bootOut s.boot (execPortDisable p s) := by
  unfold execPortDisable
  simp

@[simp] theorem execUnfence_boot (p : Nat) (s : State) :
    bootOut s.boot (execUnfence p s) := by
  unfold execUnfence
  simp

@[simp] theorem execTrainComplete_boot (p : Nat) (four : Bool) (low : Bool) (high : Bool) (s : State) :
    bootOut s.boot (execTrainComplete p four low high s) := by
  unfold execTrainComplete
  (try dsimp only)
  (repeat' split) <;> simp

@[simp] theorem execAlignComplete_boot (p : Nat) (s : State) :
    bootOut s.boot (execAlignComplete p s) := by
  unfold execAlignComplete
  simp

@[simp] theorem execAlignTimeout_boot (p : Nat) (s : State) :
    bootOut s.boot (execAlignTimeout p s) := by
  unfold execAlignTimeout
  simp

@[simp] theorem State.takeCable_boot (s : State) (p : Nat) (b : List Byte) :
    (State.takeCable s p b).boot = s.boot := by
  unfold State.takeCable
  (try dsimp only)
  (repeat' split) <;> simp

@[simp] theorem execIdentComplete_boot (p : Nat) (serial : Nat) (addr : BitVec 17) (valid : Bool) (peerPort : Nat) (cable : List Byte) (s : State) :
    bootOut s.boot (execIdentComplete p serial addr valid peerPort cable s) := by
  unfold execIdentComplete
  simp only []
  split <;> simp

@[simp] theorem State.laneDown_boot (s : State) (p : Nat) (lane : Nat) :
    (State.laneDown s p lane).boot = s.boot := by
  unfold State.laneDown
  simp

@[simp] theorem execLaneFault_boot (p : Nat) (lane : Nat) (s : State) :
    bootOut s.boot (execLaneFault p lane s) := by
  unfold execLaneFault
  split <;> simp

@[simp] theorem State.fecTake_boot (s : State) (p : Nat) (f : Fec) :
    (State.fecTake s p f).boot = s.boot := by
  unfold State.fecTake
  (try dsimp only)
  (repeat' split) <;> simp

@[simp] theorem execCodewordUncorrectable_boot (p : Nat) (s : State) :
    bootOut s.boot (execCodewordUncorrectable p s) := by
  unfold execCodewordUncorrectable
  simp

@[simp] theorem State.countRx_boot (s : State) (p : Nat) (n : Nat) :
    (State.countRx s p n).boot = s.boot := by
  unfold State.countRx
  simp

@[simp] theorem execLinkFlitReceive_boot (port : Nat) (vl : Nat) (pool : Nat) (count : Nat) (fec : Fec) (s : State) :
    bootOut s.boot (execLinkFlitReceive port vl pool count fec s) := by
  unfold execLinkFlitReceive
  simp

@[simp] theorem State.sendCredits_boot (s : State) (p : Nat) :
    (State.sendCredits s p).boot = s.boot := by
  unfold State.sendCredits
  (try dsimp only)
  (repeat' split) <;> simp

@[simp] theorem execCreditReport_boot (port : Nat) (counts : List Nat) (s : State) :
    bootOut s.boot (execCreditReport port counts s) := by
  unfold execCreditReport
  simp

@[simp] theorem State.recordRoute_boot (s : State) (k : Nat × Nat) (p : Nat) :
    (State.recordRoute s k p).boot = s.boot := by
  unfold State.recordRoute
  simp

@[simp] theorem State.discOut_boot (s : State) (p : Nat) (m : Msg) :
    (State.discOut s p m).boot = s.boot := by
  unfold State.discOut
  split <;> simp

@[simp] theorem State.discForward_boot (s : State) (port : Nat) (m : Msg) :
    (State.discForward s port m).boot = s.boot := by
  unfold State.discForward
  (repeat' split) <;> simp

@[simp] theorem State.arrivalPool_boot (s : State) (ar : Bool) (esc : Bool) :
    (State.arrivalPool s ar esc).2.boot = s.boot := by
  unfold State.arrivalPool
  split <;> simp

theorem State.arrivalPool_boot' {s : State} {ar : Bool} {esc : Bool} {fst' : Nat} {snd' : State}
    (hyp' : (State.arrivalPool s ar esc) = (fst', snd')) : snd'.boot = s.boot := by
  rw [← State.arrivalPool_boot s ar esc, hyp']

@[simp] theorem State.arrive_boot (s : State) (port : Nat) (m : Msg) :
    (State.arrive s port m).boot = s.boot := by
  unfold State.arrive
  (try dsimp only)
  (repeat' split) <;> simp

@[simp] theorem execHeadFlitRoute_boot (port : Nat) (vl : Nat) (ar : Bool) (esc : Bool) (hops : Nat) (flits : List Flit) (fec : Fec) (h : Hdr) (payload : List Byte) (s : State) :
    bootOut s.boot (execHeadFlitRoute port vl ar esc hops flits fec h payload s) := by
  unfold execHeadFlitRoute
  (repeat' split) <;> simp

@[simp] theorem execRouteEntryWrite_boot (a : Nat) (v : W32) (s : State) :
    bootOut s.boot (execRouteEntryWrite a v s) := by
  unfold execRouteEntryWrite
  simp

end Sys2Proof.Machine
end

