-- ==== Sys2Proof/Laws/BootOfPower.lean ====
section
/-! SUPPORT. No function of Machine/Power.lean changes the boot state of the module. -/

namespace Sys2Proof.Machine

@[simp] theorem State.capNote_boot (s : State) :
    (State.capNote s).boot = s.boot := by
  unfold State.capNote
  (try dsimp only)
  (repeat' split) <;> simp

@[simp] theorem State.endExcursion_boot (s : State) :
    (State.endExcursion s).boot = s.boot := by
  unfold State.endExcursion
  split <;> simp

@[simp] theorem State.voidSamples_boot (s : State) :
    (State.voidSamples s).boot = s.boot := by
  unfold State.voidSamples
  simp

@[simp] theorem State.leaveNormal_boot (s : State) :
    (State.leaveNormal s).boot = s.boot := by
  unfold State.leaveNormal
  simp

@[simp] theorem State.holdCaps_boot (s : State) :
    (State.holdCaps s).boot = s.boot := by
  unfold State.holdCaps
  split <;> simp

@[simp] theorem State.enterBivouac_boot (s : State) (cause : Nat) :
    (State.enterBivouac s cause).boot = s.boot := by
  unfold State.enterBivouac
  simp

@[simp] theorem State.enterNormal_boot (s : State) (old : Nat) :
    (State.enterNormal s old).boot = s.boot := by
  unfold State.enterNormal
  split <;> simp

@[simp] theorem State.settleMode_boot (s : State) (old : Nat) (cause : Nat) :
    (State.settleMode s old cause).boot = s.boot := by
  unfold State.settleMode
  (try dsimp only)
  (repeat' split) <;> simp

@[simp] theorem State.startShed_boot (s : State) (input : Bool) :
    (State.startShed s input).boot = s.boot := by
  unfold State.startShed
  split <;> simp

@[simp] theorem State.takeWarn_boot (s : State) (input : Bool) :
    (State.takeWarn s input).boot = s.boot := by
  unfold State.takeWarn
  split <;> simp

@[simp] theorem State.warnLow_boot (s : State) :
    (State.warnLow s).boot = s.boot := by
  unfold State.warnLow
  simp

@[simp] theorem execPsuWarnAssert_boot (ns : Nat) (s : State) :
    bootOut s.boot (execPsuWarnAssert ns s) := by
  unfold execPsuWarnAssert
  (try dsimp only)
  (repeat' split) <;> simp

@[simp] theorem execVinLow_boot (s : State) :
    bootOut s.boot (execVinLow s) := by
  unfold execVinLow
  simp

@[simp] theorem execShedComplete_boot (s : State) :
    bootOut s.boot (execShedComplete s) := by
  unfold execShedComplete
  simp

@[simp] theorem execPsuWarnClear_boot (input : Bool) (s : State) :
    bootOut s.boot (execPsuWarnClear input s) := by
  unfold execPsuWarnClear
  simp

@[simp] theorem execWarnHoldExpiry_boot (s : State) :
    bootOut s.boot (execWarnHoldExpiry s) := by
  unfold execWarnHoldExpiry
  simp

@[simp] theorem State.moveTarget_boot (s : State) :
    (State.moveTarget s).boot = s.boot := by
  unfold State.moveTarget
  simp

@[simp] theorem State.measureDie_boot (m : Meas) (s : State) (d : Nat) :
    (State.measureDie m s d).boot = s.boot := by
  unfold State.measureDie
  simp

@[simp] theorem State.addEnergy_boot (s : State) (lo : Nat) (hi : Nat) (n : Nat) :
    (State.addEnergy s lo hi n).boot = s.boot := by
  unfold State.addEnergy
  simp

@[simp] theorem State.watchCap_boot (s : State) (now : Nat) :
    (State.watchCap s now).boot = s.boot := by
  unfold State.watchCap
  (try dsimp only)
  (repeat' split) <;> simp

@[simp] theorem State.endTripCause_boot (s : State) :
    (State.endTripCause s).boot = s.boot := by
  unfold State.endTripCause
  split <;> simp

@[simp] theorem execControlPeriod_boot (m : Meas) (s : State) :
    bootOut s.boot (execControlPeriod m s) := by
  unfold execControlPeriod
  (try dsimp only)
  (repeat' split) <;> simp

@[simp] theorem execExcursionTimeout_boot (s : State) :
    bootOut s.boot (execExcursionTimeout s) := by
  unfold execExcursionTimeout
  simp

@[simp] theorem State.takeHeatsink_boot (s : State) (b : List Byte) :
    (State.takeHeatsink s b).boot = s.boot := by
  unfold State.takeHeatsink
  split <;> simp

@[simp] theorem execReread_boot (b : List Byte) (s : State) :
    bootOut s.boot (execReread b s) := by
  unfold execReread
  simp

@[simp] theorem State.airflow_boot (s : State) (mean : Nat) (tin : Int) (tout : Int) :
    (State.airflow s mean tin tout).2.boot = s.boot := by
  unfold State.airflow
  split <;> simp

theorem State.airflow_boot' {s : State} {mean : Nat} {tin : Int} {tout : Int} {fst' : (Nat × Nat)} {snd' : State}
    (hyp' : (State.airflow s mean tin tout) = (fst', snd')) : snd'.boot = s.boot := by
  rw [← State.airflow_boot s mean tin tout, hyp']

@[simp] theorem State.rth_boot (s : State) (q : Nat × Nat) :
    (State.rth s q).2.boot = s.boot := by
  unfold State.rth
  simp only []
  split <;> simp

theorem State.rth_boot' {s : State} {q : Nat × Nat} {fst' : (Nat × Nat)} {snd' : State}
    (hyp' : (State.rth s q) = (fst', snd')) : snd'.boot = s.boot := by
  rw [← State.rth_boot s q, hyp']

@[simp] theorem State.takeAir_boot (s : State) (tin : Int) (q : Nat × Nat) :
    (State.takeAir s tin q).boot = s.boot := by
  unfold State.takeAir
  split <;> simp

@[simp] theorem State.noteAir_boot (s : State) :
    (State.noteAir s).boot = s.boot := by
  unfold State.noteAir
  (try dsimp only)
  (repeat' split) <;> simp

@[simp] theorem State.clearAirStop_boot (s : State) :
    (State.clearAirStop s).boot = s.boot := by
  unfold State.clearAirStop
  split <;> simp

@[simp] theorem execAirflowEstimate_boot (mean : Nat) (tin : Int) (tout : Int) (s : State) :
    bootOut s.boot (execAirflowEstimate mean tin tout s) := by
  unfold execAirflowEstimate
  split <;> simp

@[simp] theorem execJunctionSample_boot (temps : List Int) (excess : Int) (s : State) :
    bootOut s.boot (execJunctionSample temps excess s) := by
  unfold execJunctionSample
  simp only []
  split <;> simp

@[simp] theorem execAnalogTrip_boot (u : Nat) (s : State) :
    bootOut s.boot (execAnalogTrip u s) := by
  unfold execAnalogTrip
  split <;> simp

@[simp] theorem execTripClear_boot (s : State) :
    bootOut s.boot (execTripClear s) := by
  unfold execTripClear
  simp

@[simp] theorem State.pmbusReply_boot (s : State) (code : Byte) (bs : List Byte) :
    (State.pmbusReply s code bs).boot = s.boot := by
  unfold State.pmbusReply
  simp

@[simp] theorem pmbusRead_boot (code : Byte) (bs : List Byte) (s : State) :
    bootOut s.boot (pmbusRead code bs s) := by
  unfold pmbusRead
  simp

@[simp] theorem execCapability_boot (s : State) :
    bootOut s.boot (execCapability s) := by
  unfold execCapability
  simp

@[simp] theorem execStatusByte_boot (s : State) :
    bootOut s.boot (execStatusByte s) := by
  unfold execStatusByte
  simp

@[simp] theorem execPmbusRevision_boot (s : State) :
    bootOut s.boot (execPmbusRevision s) := by
  unfold execPmbusRevision
  simp

@[simp] theorem pmbusLinear_boot (code : Byte) (n : Nat) (d : Nat) (s : State) :
    bootOut s.boot (pmbusLinear code n d s) := by
  unfold pmbusLinear
  simp

@[simp] theorem execReadVin_boot (s : State) :
    bootOut s.boot (execReadVin s) := by
  unfold execReadVin
  simp

@[simp] theorem execReadIin_boot (s : State) :
    bootOut s.boot (execReadIin s) := by
  unfold execReadIin
  simp

@[simp] theorem execReadPin_boot (s : State) :
    bootOut s.boot (execReadPin s) := by
  unfold execReadPin
  simp

@[simp] theorem execBudgetWrite_boot (v : BitVec 16) (pec : Option Byte) (s : State) :
    bootOut s.boot (execBudgetWrite v pec s) := by
  unfold execBudgetWrite
  (try dsimp only)
  (repeat' split) <;> simp

@[simp] theorem execBudgetRead_boot (s : State) :
    bootOut s.boot (execBudgetRead s) := by
  unfold execBudgetRead
  simp

@[simp] theorem execCapEff_boot (s : State) :
    bootOut s.boot (execCapEff s) := by
  unfold execCapEff
  simp

@[simp] theorem execPmbusUnsupported_boot (code : Nat) (s : State) :
    bootOut s.boot (execPmbusUnsupported code s) := by
  unfold execPmbusUnsupported
  simp

end Sys2Proof.Machine
end

