-- ==== Sys2Proof/Laws/BootOfBoot.lean ====
section
/-! SUPPORT. No function of Machine/Boot.lean changes the boot state of the module. -/

namespace Sys2Proof.Machine

@[simp] theorem State.reportFirst_boot (s : State) (code : Nat) (data : Nat) :
    (State.reportFirst s code data).boot = s.boot := by
  unfold State.reportFirst
  simp

@[simp] theorem State.resetDone_boot (s : State) :
    (State.resetDone s).boot = s.boot := by
  unfold State.resetDone
  simp

@[simp] theorem State.startWork_boot (s : State) : (State.startWork s).boot = s.boot := by
  have h : ∀ l : List Nat, (l.foldl (fun (t : State) p =>
      if t.fld (Reg.fabPortCtrl p) 0 1 = 1 ∧ (t.port p).mode = .disabled then t.enterTrain p else t) s).boot = s.boot := by
    intro l
    apply foldl_boot
    intro t p
    split <;> simp
  unfold State.startWork
  extract_lets s1
  have h1 : s1.boot = s.boot := h _
  (repeat' split) <;> simp [h1]

@[simp] theorem execRefclkLoss_boot (s : State) :
    bootOut s.boot (execRefclkLoss s) := by
  unfold execRefclkLoss
  simp

@[simp] theorem execRstNRelease_boot (s : State) :
    bootOut s.boot (execRstNRelease s) := by
  unfold execRstNRelease
  simp

@[simp] theorem State.linkDown_boot (s : State) :
    (State.linkDown s).boot = s.boot := by
  unfold State.linkDown
  simp

@[simp] theorem execWarmResetComplete_boot (s : State) :
    bootOut s.boot (execWarmResetComplete s) := by
  unfold execWarmResetComplete
  simp only []
  split <;> simp

@[simp] theorem execFreeze_boot (on : Bool) (s : State) :
    bootOut s.boot (execFreeze on s) := by
  unfold execFreeze
  (repeat' split) <;> simp

@[simp] theorem execClearAll_boot (s : State) :
    bootOut s.boot (execClearAll s) := by
  unfold execClearAll
  simp

end Sys2Proof.Machine
end

