-- ==== Sys2Proof/Laws/BootOfScalar.lean ====
section
/-! SUPPORT. No function of Machine/Scalar.lean changes the boot state of the module. -/

namespace Sys2Proof.Machine

@[simp] theorem scalarRR_boot (c : Nat) (i : Instr) (o : ROps) (opc : Nat) (f : W64 → W64 → W64) (s : State) :
    bootOut s.boot (scalarRR c i o opc f s) := by
  unfold scalarRR
  simp

@[simp] theorem scalarRI_boot (c : Nat) (i : Instr) (o : IOps) (opc : Nat) (f : W64 → W64 → W64) (s : State) :
    bootOut s.boot (scalarRI c i o opc f s) := by
  unfold scalarRI
  simp

@[simp] theorem scalarCmp_boot (c : Nat) (i : Instr) (o : ROps) (opc : Nat) (f : W64 → W64 → Bool) (s : State) :
    bootOut s.boot (scalarCmp c i o opc f s) := by
  unfold scalarCmp
  simp

@[simp] theorem scalarCmpI_boot (c : Nat) (i : Instr) (o : IOps) (opc : Nat) (f : W64 → W64 → Bool) (s : State) :
    bootOut s.boot (scalarCmpI c i o opc f s) := by
  unfold scalarCmpI
  simp

@[simp] theorem scalarPred_boot (c : Nat) (i : Instr) (o : ROps) (opc : Nat) (f : Bool → Bool → Bool) (s : State) :
    bootOut s.boot (scalarPred c i o opc f s) := by
  unfold scalarPred
  simp

@[simp] theorem scalarLoad_boot (c : Nat) (i : Instr) (o : IOps) (opc : Nat) (n : Nat) (sext : Bool) (s : State) :
    bootOut s.boot (scalarLoad c i o opc n sext s) := by
  unfold scalarLoad
  apply coreI_boot
  intro t
  (try dsimp only)
  (repeat' split) <;> simp

@[simp] theorem scalarStore_boot (c : Nat) (i : Instr) (o : IOps) (opc : Nat) (n : Nat) (s : State) :
    bootOut s.boot (scalarStore c i o opc n s) := by
  unfold scalarStore
  apply coreI_boot
  intro t
  (try dsimp only)
  (repeat' split) <;> simp

@[simp] theorem execAdd_boot (c : Nat) (o : ROps) (s : State) :
    bootOut s.boot (execAdd c o s) := by
  unfold execAdd
  simp

@[simp] theorem execSub_boot (c : Nat) (o : ROps) (s : State) :
    bootOut s.boot (execSub c o s) := by
  unfold execSub
  simp

@[simp] theorem execMul_boot (c : Nat) (o : ROps) (s : State) :
    bootOut s.boot (execMul c o s) := by
  unfold execMul
  simp

@[simp] theorem execMulhu_boot (c : Nat) (o : ROps) (s : State) :
    bootOut s.boot (execMulhu c o s) := by
  unfold execMulhu
  simp

@[simp] theorem execMulhs_boot (c : Nat) (o : ROps) (s : State) :
    bootOut s.boot (execMulhs c o s) := by
  unfold execMulhs
  simp

@[simp] theorem execAnd_boot (c : Nat) (o : ROps) (s : State) :
    bootOut s.boot (execAnd c o s) := by
  unfold execAnd
  simp

@[simp] theorem execOr_boot (c : Nat) (o : ROps) (s : State) :
    bootOut s.boot (execOr c o s) := by
  unfold execOr
  simp

@[simp] theorem execXor_boot (c : Nat) (o : ROps) (s : State) :
    bootOut s.boot (execXor c o s) := by
  unfold execXor
  simp

@[simp] theorem execShl_boot (c : Nat) (o : ROps) (s : State) :
    bootOut s.boot (execShl c o s) := by
  unfold execShl
  simp

@[simp] theorem execShr_boot (c : Nat) (o : ROps) (s : State) :
    bootOut s.boot (execShr c o s) := by
  unfold execShr
  simp

@[simp] theorem execSra_boot (c : Nat) (o : ROps) (s : State) :
    bootOut s.boot (execSra c o s) := by
  unfold execSra
  simp

@[simp] theorem execMin_boot (c : Nat) (o : ROps) (s : State) :
    bootOut s.boot (execMin c o s) := by
  unfold execMin
  simp

@[simp] theorem execMax_boot (c : Nat) (o : ROps) (s : State) :
    bootOut s.boot (execMax c o s) := by
  unfold execMax
  simp

@[simp] theorem execMinu_boot (c : Nat) (o : ROps) (s : State) :
    bootOut s.boot (execMinu c o s) := by
  unfold execMinu
  simp

@[simp] theorem execMaxu_boot (c : Nat) (o : ROps) (s : State) :
    bootOut s.boot (execMaxu c o s) := by
  unfold execMaxu
  simp

@[simp] theorem execSel_boot (c : Nat) (o : ROps) (s : State) :
    bootOut s.boot (execSel c o s) := by
  unfold execSel
  simp

@[simp] theorem execAddi_boot (c : Nat) (o : IOps) (s : State) :
    bootOut s.boot (execAddi c o s) := by
  unfold execAddi
  simp

@[simp] theorem execAndi_boot (c : Nat) (o : IOps) (s : State) :
    bootOut s.boot (execAndi c o s) := by
  unfold execAndi
  simp

@[simp] theorem execOri_boot (c : Nat) (o : IOps) (s : State) :
    bootOut s.boot (execOri c o s) := by
  unfold execOri
  simp

@[simp] theorem execXori_boot (c : Nat) (o : IOps) (s : State) :
    bootOut s.boot (execXori c o s) := by
  unfold execXori
  simp

@[simp] theorem execShli_boot (c : Nat) (o : IOps) (s : State) :
    bootOut s.boot (execShli c o s) := by
  unfold execShli
  simp

@[simp] theorem execShri_boot (c : Nat) (o : IOps) (s : State) :
    bootOut s.boot (execShri c o s) := by
  unfold execShri
  simp

@[simp] theorem execSrai_boot (c : Nat) (o : IOps) (s : State) :
    bootOut s.boot (execSrai c o s) := by
  unfold execSrai
  simp

@[simp] theorem execMovi_boot (c : Nat) (o : UOps) (s : State) :
    bootOut s.boot (execMovi c o s) := by
  unfold execMovi
  simp

@[simp] theorem execMovhi_boot (c : Nat) (o : UOps) (s : State) :
    bootOut s.boot (execMovhi c o s) := by
  unfold execMovhi
  simp

@[simp] theorem execCmpeq_boot (c : Nat) (o : ROps) (s : State) :
    bootOut s.boot (execCmpeq c o s) := by
  unfold execCmpeq
  simp

@[simp] theorem execCmpne_boot (c : Nat) (o : ROps) (s : State) :
    bootOut s.boot (execCmpne c o s) := by
  unfold execCmpne
  simp

@[simp] theorem execCmplt_boot (c : Nat) (o : ROps) (s : State) :
    bootOut s.boot (execCmplt c o s) := by
  unfold execCmplt
  simp

@[simp] theorem execCmpltu_boot (c : Nat) (o : ROps) (s : State) :
    bootOut s.boot (execCmpltu c o s) := by
  unfold execCmpltu
  simp

@[simp] theorem execCmpge_boot (c : Nat) (o : ROps) (s : State) :
    bootOut s.boot (execCmpge c o s) := by
  unfold execCmpge
  simp

@[simp] theorem execCmpgeu_boot (c : Nat) (o : ROps) (s : State) :
    bootOut s.boot (execCmpgeu c o s) := by
  unfold execCmpgeu
  simp

@[simp] theorem execCmpeqi_boot (c : Nat) (o : IOps) (s : State) :
    bootOut s.boot (execCmpeqi c o s) := by
  unfold execCmpeqi
  simp

@[simp] theorem execCmplti_boot (c : Nat) (o : IOps) (s : State) :
    bootOut s.boot (execCmplti c o s) := by
  unfold execCmplti
  simp

@[simp] theorem execPand_boot (c : Nat) (o : ROps) (s : State) :
    bootOut s.boot (execPand c o s) := by
  unfold execPand
  simp

@[simp] theorem execPor_boot (c : Nat) (o : ROps) (s : State) :
    bootOut s.boot (execPor c o s) := by
  unfold execPor
  simp

@[simp] theorem execPxor_boot (c : Nat) (o : ROps) (s : State) :
    bootOut s.boot (execPxor c o s) := by
  unfold execPxor
  simp

@[simp] theorem execAmov_boot (c : Nat) (o : ROps) (s : State) :
    bootOut s.boot (execAmov c o s) := by
  unfold execAmov
  simp

@[simp] theorem execAaddi_boot (c : Nat) (o : IOps) (s : State) :
    bootOut s.boot (execAaddi c o s) := by
  unfold execAaddi
  simp

@[simp] theorem execArd_boot (c : Nat) (o : ROps) (s : State) :
    bootOut s.boot (execArd c o s) := by
  unfold execArd
  simp

@[simp] theorem execLd64_boot (c : Nat) (o : IOps) (s : State) :
    bootOut s.boot (execLd64 c o s) := by
  unfold execLd64
  simp

@[simp] theorem execLd32_boot (c : Nat) (o : IOps) (s : State) :
    bootOut s.boot (execLd32 c o s) := by
  unfold execLd32
  simp

@[simp] theorem execLd16_boot (c : Nat) (o : IOps) (s : State) :
    bootOut s.boot (execLd16 c o s) := by
  unfold execLd16
  simp

@[simp] theorem execLd8_boot (c : Nat) (o : IOps) (s : State) :
    bootOut s.boot (execLd8 c o s) := by
  unfold execLd8
  simp

@[simp] theorem execLds32_boot (c : Nat) (o : IOps) (s : State) :
    bootOut s.boot (execLds32 c o s) := by
  unfold execLds32
  simp

@[simp] theorem execLds16_boot (c : Nat) (o : IOps) (s : State) :
    bootOut s.boot (execLds16 c o s) := by
  unfold execLds16
  simp

@[simp] theorem execLds8_boot (c : Nat) (o : IOps) (s : State) :
    bootOut s.boot (execLds8 c o s) := by
  unfold execLds8
  simp

@[simp] theorem execSt64_boot (c : Nat) (o : IOps) (s : State) :
    bootOut s.boot (execSt64 c o s) := by
  unfold execSt64
  simp

@[simp] theorem execSt32_boot (c : Nat) (o : IOps) (s : State) :
    bootOut s.boot (execSt32 c o s) := by
  unfold execSt32
  simp

@[simp] theorem execSt16_boot (c : Nat) (o : IOps) (s : State) :
    bootOut s.boot (execSt16 c o s) := by
  unfold execSt16
  simp

@[simp] theorem execSt8_boot (c : Nat) (o : IOps) (s : State) :
    bootOut s.boot (execSt8 c o s) := by
  unfold execSt8
  simp

@[simp] theorem execFadd_boot (c : Nat) (o : ROps) (s : State) :
    bootOut s.boot (execFadd c o s) := by
  unfold execFadd
  simp

@[simp] theorem execFmul_boot (c : Nat) (o : ROps) (s : State) :
    bootOut s.boot (execFmul c o s) := by
  unfold execFmul
  simp

@[simp] theorem execFfma_boot (c : Nat) (o : ROps) (s : State) :
    bootOut s.boot (execFfma c o s) := by
  unfold execFfma
  simp

@[simp] theorem execFcvt_boot (c : Nat) (o : ROps) (s : State) :
    bootOut s.boot (execFcvt c o s) := by
  unfold execFcvt
  split <;> simp

end Sys2Proof.Machine
end

