-- ==== Sys2Proof/Laws/BootOfBranch.lean ====
section
/-! SUPPORT. No function of Machine/Branch.lean changes the boot state of the module. -/

namespace Sys2Proof.Machine

@[simp] theorem execBr_boot (c : Nat) (o : IOps) (s : State) :
    bootOut s.boot (execBr c o s) := by
  unfold execBr
  simp

@[simp] theorem execCall_boot (c : Nat) (o : IOps) (s : State) :
    bootOut s.boot (execCall c o s) := by
  unfold execCall
  simp

@[simp] theorem execJmp_boot (c : Nat) (o : ROps) (s : State) :
    bootOut s.boot (execJmp c o s) := by
  unfold execJmp
  simp

@[simp] theorem execCallr_boot (c : Nat) (o : ROps) (s : State) :
    bootOut s.boot (execCallr c o s) := by
  unfold execCallr
  simp

@[simp] theorem execDbnz_boot (c : Nat) (o : IOps) (s : State) :
    bootOut s.boot (execDbnz c o s) := by
  unfold execDbnz
  apply coreI_boot
  intro t
  (try dsimp only)
  (repeat' split) <;> simp

end Sys2Proof.Machine
end

