-- ==== Sys2Proof/Laws/BootOfGather.lean ====
section
/-! SUPPORT. No function of Machine/Gather.lean changes the boot state of the module. -/

namespace Sys2Proof.Machine

@[simp] theorem State.countLayer_boot (s : State) (code : Nat) (l : Nat) (w : Nat) :
    (State.countLayer s code l w).boot = s.boot := by
  unfold State.countLayer
  (try dsimp only)
  (repeat' split) <;> simp

@[simp] theorem State.bumpIf_boot (s : State) (b : Bool) (off : Nat) :
    (State.bumpIf s b off).boot = s.boot := by
  unfold State.bumpIf
  split <;> simp

@[simp] theorem State.countTile_boot (s : State) (n : Nat) (layer : Nat) (f : Nat) (t : TileBuild) :
    (State.countTile s n layer f t).boot = s.boot := by
  unfold State.countTile
  (repeat' split) <;> simp

@[simp] theorem State.answerTile_boot (s : State) (n : Nat) (h : Hdr) (g : GWord) (x : Shard) (sh : Nat × Nat) :
    (State.answerTile s n h g x sh).2.boot = s.boot := by
  unfold State.answerTile
  (try dsimp only)
  (repeat' split) <;> simp

theorem State.answerTile_boot' {s : State} {n : Nat} {h : Hdr} {g : GWord} {x : Shard} {sh : Nat × Nat} {fst' : (Hdr × List Byte)} {snd' : State}
    (hyp' : (State.answerTile s n h g x sh) = (fst', snd')) : snd'.boot = s.boot := by
  rw [← State.answerTile_boot s n h g x sh, hyp']

@[simp] theorem State.gatherAnswer_boot (s : State) (n : Nat) (h : Hdr) :
    (State.gatherAnswer s n h).2.boot = s.boot := by
  unfold State.gatherAnswer
  (try dsimp only)
  (repeat' split) <;> (try have e0 := State.lookupShard_boot' (by assumption)) <;> simp [*]

theorem State.gatherAnswer_boot' {s : State} {n : Nat} {h : Hdr} {fst' : (Hdr × List Byte)} {snd' : State}
    (hyp' : (State.gatherAnswer s n h) = (fst', snd')) : snd'.boot = s.boot := by
  rw [← State.gatherAnswer_boot s n h, hyp']

@[simp] theorem State.serveTile_boot (s : State) (n : Nat) (h : Hdr) :
    (State.serveTile s n h).boot = s.boot := by
  unfold State.serveTile
  simp

@[simp] theorem State.serveGather_boot (s : State) (n : Nat) :
    (State.serveGather s n).boot = s.boot := by
  unfold State.serveGather
  (repeat' split) <;> simp

@[simp] theorem execGatherReq_boot (h : Hdr) (s : State) :
    bootOut s.boot (execGatherReq h s) := by
  unfold execGatherReq
  simp

@[simp] theorem execGatherServe_boot (n : Nat) (s : State) :
    bootOut s.boot (execGatherServe n s) := by
  unfold execGatherServe
  simp

end Sys2Proof.Machine
end

