-- ==== Sys2Proof/Laws/BootOfMatrix.lean ====
section
/-! SUPPORT. No function of Machine/Matrix.lean changes the boot state of the module. -/

namespace Sys2Proof.Machine

@[simp] theorem execMxStart_boot (c : Nat) (o : ROps) (s : State) :
    bootOut s.boot (execMxStart c o s) := by
  unfold execMxStart
  simp

@[simp] theorem execMxMul_boot (c : Nat) (o : ROps) (s : State) :
    bootOut s.boot (execMxMul c o s) := by
  unfold execMxMul
  simp

@[simp] theorem execMxEnd_boot (c : Nat) (o : ROps) (s : State) :
    bootOut s.boot (execMxEnd c o s) := by
  unfold execMxEnd
  simp

@[simp] theorem execMxTsw_boot (c : Nat) (o : ROps) (s : State) :
    bootOut s.boot (execMxTsw c o s) := by
  unfold execMxTsw
  apply coreR_boot
  intro t
  (try dsimp only)
  (repeat' split) <;> simp

@[simp] theorem execMxFence_boot (c : Nat) (o : ROps) (s : State) :
    bootOut s.boot (execMxFence c o s) := by
  unfold execMxFence
  apply coreR_boot
  intro t
  (try dsimp only)
  (repeat' split) <;> simp

@[simp] theorem State.endDrain_boot (s : State) (c : Nat) (h : Nat) (t : Tile) :
    (State.endDrain s c h t).boot = s.boot := by
  unfold State.endDrain
  split <;> simp

@[simp] theorem execMxDrainComplete_boot (c : Nat) (h : Nat) (s : State) :
    bootOut s.boot (execMxDrainComplete c h s) := by
  unfold execMxDrainComplete
  split <;> simp

end Sys2Proof.Machine
end

