-- ==== Sys2Proof/Laws/BootOfTileMove.lean ====
section
/-! SUPPORT. No function of Machine/TileMove.lean changes the boot state of the module. -/

namespace Sys2Proof.Machine

@[simp] theorem State.engageLock_boot (s : State) (c : Nat) (layer : Nat) (e : W32) :
    (State.engageLock s c layer e).boot = s.boot := by
  unfold State.engageLock
  split <;> simp

@[simp] theorem State.rchkDeny_boot (s : State) (c : Nat) (layer : Nat) (lock : Bool) :
    (State.rchkDeny s c layer lock).boot = s.boot := by
  unfold State.rchkDeny
  split <;> simp

@[simp] theorem State.rchkGrant_boot (s : State) (c : Nat) (layer : Nat) (b : Bool) (off : Nat) (w : Nat) :
    (State.rchkGrant s c layer b off w).boot = s.boot := by
  unfold State.rchkGrant
  split <;> simp

@[simp] theorem State.rchk_boot (s : State) (c : Nat) (tsw : W64) (chk : W64) :
    (State.rchk s c tsw chk).2.boot = s.boot := by
  unfold State.rchk
  (try dsimp only)
  (repeat' split) <;> simp

theorem State.rchk_boot' {s : State} {c : Nat} {tsw : W64} {chk : W64} {fst' : W64} {snd' : State}
    (hyp' : (State.rchk s c tsw chk) = (fst', snd')) : snd'.boot = s.boot := by
  rw [← State.rchk_boot s c tsw chk, hyp']

@[simp] theorem Eff.from_boot (u : State) (e : Eff) (b : Boot) (h : u.boot = b) (he : bootEff b e) : bootEff b (e.from u) := by
  unfold Eff.from; split
  · exact h
  · exact he

@[simp] theorem State.pagesFirst_boot (s : State) (c : Nat) (ps : List Nat) (eff : State → Eff) (b : Boot) (h : s.boot = b)
    (heff : ∀ t, bootEff t.boot (eff t)) : bootEff b (State.pagesFirst s c ps eff) := by
  subst h
  unfold State.pagesFirst
  (try dsimp only)
  split
  · have e := heff (s.goOn (.core c))
    rw [State.goOn_boot] at e
    exact Eff.from_boot _ _ _ (by simp) e
  · simp

@[simp] theorem execTmRchk_boot (c : Nat) (o : ROps) (s : State) :
    bootOut s.boot (execTmRchk c o s) := by
  unfold execTmRchk
  apply coreR_boot
  intro t
  (try dsimp only)
  apply State.pagesFirst_boot
  · rfl
  · intro u
    simp

@[simp] theorem State.copySpad_boot (s : State) (n : Nat) (src : Nat) (dst : Nat) :
    (State.copySpad s n src dst).boot = s.boot := by
  unfold State.copySpad
  simp

@[simp] theorem execTmCopy_boot (c : Nat) (o : ROps) (s : State) :
    bootOut s.boot (execTmCopy c o s) := by
  unfold execTmCopy
  apply coreR_boot
  intro t
  (try dsimp only)
  (repeat' split) <;> simp

@[simp] theorem execTmFence_boot (c : Nat) (o : ROps) (s : State) :
    bootOut s.boot (execTmFence c o s) := by
  unfold execTmFence
  apply coreR_boot
  intro t
  (try dsimp only)
  (repeat' split) <;> simp

@[simp] theorem State.copyQ2_boot (s : State) (src : Nat) (dst : Nat) (h : Hdr) :
    (State.copyQ2 s src dst h).boot = s.boot := by
  unfold State.copyQ2
  simp

@[simp] theorem State.startWiden_boot (s : State) (c : Nat) (tag : Nat) (src : Nat) (dst : Nat) (sd : Nat) (req : W64) (w : W64) :
    (State.startWiden s c tag src dst sd req w).boot = s.boot := by
  unfold State.startWiden
  simp only []
  split <;> simp

@[simp] theorem State.tagWait_boot (s : State) (c : Nat) (i : Instr) (b : Boot) (h : s.boot = b) :
    bootEff b (State.tagWait s c i) := by
  subst h
  unfold State.tagWait
  split <;> simp

@[simp] theorem execTmWiden_boot (c : Nat) (o : ROps) (s : State) :
    bootOut s.boot (execTmWiden c o s) := by
  unfold execTmWiden
  apply coreR_boot
  intro t
  (try dsimp only)
  (repeat' split) <;> simp

@[simp] theorem State.spadPut_boot (s : State) (a : Nat) (bs : List Byte) :
    (State.spadPut s a bs).boot = s.boot := by
  unfold State.spadPut
  simp

@[simp] theorem State.putObject_boot (s : State) (a : Nat) (h : Hdr) (payload : List Byte) :
    (State.putObject s a h payload).boot = s.boot := by
  unfold State.putObject
  simp

@[simp] theorem State.writeWiden_boot (s : State) (x : Widen) (h : Hdr) (payload : List Byte) :
    (State.writeWiden s x h payload).boot = s.boot := by
  unfold State.writeWiden
  split <;> simp

@[simp] theorem State.endWiden_boot (s : State) (c : Nat) (i : Nat) (sd : Nat) (code : Nat) :
    (State.endWiden s c i sd code).boot = s.boot := by
  unfold State.endWiden
  simp

@[simp] theorem execWidenComplete_boot (c : Nat) (i : Nat) (s : State) :
    bootOut s.boot (execWidenComplete c i s) := by
  unfold execWidenComplete
  (repeat' split) <;> simp

end Sys2Proof.Machine
end

