-- ==== Sys2Proof/Laws/BootOfColl.lean ====
section
/-! SUPPORT. No function of Machine/Coll.lean changes the boot state of the module. -/

namespace Sys2Proof.Machine

@[simp] theorem State.collSend_boot (s : State) (c : Nat) (i : Nat) (k : Coll) (chunk : Nat) (p : Nat × List Byte) (to_ : Nat) :
    (State.collSend s c i k chunk p to_).boot = s.boot := by
  unfold State.collSend
  simp

@[simp] theorem State.collSendAll_boot (s : State) (c : Nat) (i : Nat) (k : Coll) (chunk : Nat) (bs : List Byte) (to_ : List Nat) :
    (State.collSendAll s c i k chunk bs to_).boot = s.boot := by
  unfold State.collSendAll
  simp

@[simp] theorem State.putColl_boot (s : State) (c : Nat) (h : Nat) (k : Coll) :
    (State.putColl s c h k).boot = s.boot := by
  unfold State.putColl
  simp

@[simp] theorem State.collForm_boot (c : Nat) (h : Nat) (s : State) (root : Nat) :
    (State.collForm c h s root).boot = s.boot := by
  unfold State.collForm
  (try dsimp only)
  (repeat' split) <;> simp

@[simp] theorem State.collPump_boot (s : State) (c : Nat) (h : Nat) :
    (State.collPump s c h).boot = s.boot := by
  unfold State.collPump
  split <;> simp

@[simp] theorem State.collTake_boot (s : State) (c : Nat) (i : Nat) (k : Coll) (h : Hdr) (payload : List Byte) :
    (State.collTake s c i k h payload).boot = s.boot := by
  unfold State.collTake
  (try dsimp only)
  (repeat' split) <;> simp

@[simp] theorem State.collBad_boot (s : State) (c : Nat) (i : Nat) (k : Coll) :
    (State.collBad s c i k).boot = s.boot := by
  unfold State.collBad
  simp

@[simp] theorem State.collMsg_boot (s : State) (h : Hdr) (payload : List Byte) :
    (State.collMsg s h payload).boot = s.boot := by
  unfold State.collMsg
  (repeat' split) <;> simp

@[simp] theorem State.chanDeliver_boot (s : State) (m : Msg) :
    (State.chanDeliver s m).boot = s.boot := by
  unfold State.chanDeliver
  (repeat' split) <;> simp

@[simp] theorem State.chanArrive_boot (s : State) (h : Hdr) (payload : List Byte) :
    (State.chanArrive s h payload).boot = s.boot := by
  unfold State.chanArrive
  split <;> simp

@[simp] theorem State.takeColl_boot (s : State) (c : Nat) :
    bootOpt s.boot ((State.takeColl s c).map Prod.snd) := by
  unfold State.takeColl
  simp only []
  split <;> simp

theorem State.takeColl_boot' {s : State} {c : Nat} {fst' : Nat} {snd' : State}
    (hyp' : (State.takeColl s c) = some (fst', snd')) : snd'.boot = s.boot := by
  have e := State.takeColl_boot s c
  rw [hyp'] at e
  exact e

@[simp] theorem State.collUndefined_boot (s : State) (k : Coll) :
    (State.collUndefined s k).boot = s.boot := by
  unfold State.collUndefined
  simp

@[simp] theorem State.dropOut_boot (s : State) (c : Nat) (h : Nat) :
    (State.dropOut s c h).boot = s.boot := by
  unfold State.dropOut
  simp

@[simp] theorem State.collFail_boot (s : State) (c : Nat) (h : Nat) (k : Coll) :
    (State.collFail s c h k).boot = s.boot := by
  unfold State.collFail
  simp

@[simp] theorem State.collOpen_boot (s : State) (c : Nat) (i : Nat) (k : Coll) :
    (State.collOpen s c i k).boot = s.boot := by
  unfold State.collOpen
  (repeat' split) <;> simp

@[simp] theorem State.collEarly_boot (s : State) (k : Coll) :
    (State.collEarly s k).boot = s.boot := by
  unfold State.collEarly
  simp

@[simp] theorem State.startColl_boot (s : State) (c : Nat) (h : Nat) (k0 : Coll) :
    (State.startColl s c h k0).boot = s.boot := by
  unfold State.startColl
  (try dsimp only)
  (repeat' split) <;> simp

@[simp] theorem State.cancelColl_boot (s : State) (c : Nat) (h : Nat) (k : Coll) :
    (State.cancelColl s c h k).boot = s.boot := by
  unfold State.cancelColl
  (try dsimp only)
  (repeat' split) <;> simp

@[simp] theorem State.collsFail_boot (s : State) (ctx : Nat) :
    (State.collsFail s ctx).boot = s.boot := by
  unfold State.collsFail
  apply foldl_boot
  intro t p
  (repeat' split) <;> simp

@[simp] theorem collEffect_boot (c : Nat) (op : Nat) (o : ROps) (t : State) (b : Boot) (h : t.boot = b) :
    bootEff b (collEffect c op o t) := by
  subst h
  unfold collEffect
  (try dsimp only)
  apply State.pagesFirst_boot
  · rfl
  · intro u
    (try dsimp only)
    (repeat' split) <;> (try have e0 := Sys2Proof.Machine.State.takeColl_boot' (by assumption)) <;> simp [*]

@[simp] theorem execClRs_boot (c : Nat) (o : ROps) (s : State) :
    bootOut s.boot (execClRs c o s) := by
  unfold execClRs
  simp

@[simp] theorem execClAg_boot (c : Nat) (o : ROps) (s : State) :
    bootOut s.boot (execClAg c o s) := by
  unfold execClAg
  simp

@[simp] theorem execClAr_boot (c : Nat) (o : ROps) (s : State) :
    bootOut s.boot (execClAr c o s) := by
  unfold execClAr
  simp

@[simp] theorem execClBcast_boot (c : Nat) (o : ROps) (s : State) :
    bootOut s.boot (execClBcast c o s) := by
  unfold execClBcast
  simp

@[simp] theorem execClExch_boot (c : Nat) (o : ROps) (s : State) :
    bootOut s.boot (execClExch c o s) := by
  unfold execClExch
  simp

@[simp] theorem execClWait_boot (c : Nat) (o : ROps) (s : State) :
    bootOut s.boot (execClWait c o s) := by
  unfold execClWait
  apply coreR_boot
  intro t
  (try dsimp only)
  (repeat' split) <;> simp

@[simp] theorem execClCancel_boot (c : Nat) (o : ROps) (s : State) :
    bootOut s.boot (execClCancel c o s) := by
  unfold execClCancel
  apply coreR_boot
  intro t
  (try dsimp only)
  (repeat' split) <;> simp

@[simp] theorem execCollectiveComplete_boot (c : Nat) (h : Nat) (s : State) :
    bootOut s.boot (execCollectiveComplete c h s) := by
  unfold execCollectiveComplete
  (repeat' split) <;> simp

@[simp] theorem execColl_boot (h : Hdr) (payload : List Byte) (s : State) :
    bootOut s.boot (execColl h payload s) := by
  unfold execColl
  simp

@[simp] theorem execExch_boot (h : Hdr) (payload : List Byte) (s : State) :
    bootOut s.boot (execExch h payload s) := by
  unfold execExch
  simp

@[simp] theorem execDwPiece_boot (h : Hdr) (payload : List Byte) (s : State) :
    bootOut s.boot (execDwPiece h payload s) := by
  unfold execDwPiece
  simp

@[simp] theorem execContrib_boot (h : Hdr) (payload : List Byte) (s : State) :
    bootOut s.boot (execContrib h payload s) := by
  unfold execContrib
  (try dsimp only)
  rw [bootOut_next, whenOk_boot, State.withPages_boot]
  · simp
  · intro t
    (try dsimp only)
    (repeat' split) <;> simp

@[simp] theorem execDwPieceTake_boot (c h : Nat) (s : State) : bootOut s.boot (execDwPieceTake c h s) := by
  unfold execDwPieceTake
  apply onUnit_boot
  split
  · rfl
  · dsimp only
    rw [whenOk_boot, State.withPages_boot]
    · simp
    · intro t
      simp

end Sys2Proof.Machine
end

