-- ==== Sys2Proof/Laws/BootOfXfer.lean ====
section
/-! SUPPORT. No function of Machine/Xfer.lean changes the boot state of the module. -/

namespace Sys2Proof.Machine

@[simp] theorem State.takeHandle_boot (s : State) (c : Nat) :
    bootOpt s.boot ((State.takeHandle s c).map Prod.snd) := by
  unfold State.takeHandle
  simp only []
  split <;> simp

theorem State.takeHandle_boot' {s : State} {c : Nat} {fst' : Nat} {snd' : State}
    (hyp' : (State.takeHandle s c) = some (fst', snd')) : snd'.boot = s.boot := by
  have e := State.takeHandle_boot s c
  rw [hyp'] at e
  exact e

@[simp] theorem State.putXfer_boot (s : State) (c : Nat) (h : Nat) (x : Xfer) :
    (State.putXfer s c h x).boot = s.boot := by
  unfold State.putXfer
  simp

@[simp] theorem State.issueXfer_boot (s : State) (c : Nat) (h : Nat) (x : Xfer) :
    (State.issueXfer s c h x).boot = s.boot := by
  unfold State.issueXfer
  simp

@[simp] theorem State.putRead_boot (s : State) (x : Xfer) :
    (State.putRead s x).2.boot = s.boot := by
  unfold State.putRead
  (try dsimp only)
  (repeat' split) <;> simp

theorem State.putRead_boot' {s : State} {x : Xfer} {fst' : Option (List Byte)} {snd' : State}
    (hyp' : (State.putRead s x) = (fst', snd')) : snd'.boot = s.boot := by
  rw [← State.putRead_boot s x, hyp']

@[simp] theorem State.xferFarRead_boot (s : State) (c : Nat) (h : Nat) (a : Nat) (n : Nat) :
    (State.xferFarRead s c h a n).boot = s.boot := by
  unfold State.xferFarRead
  split <;> simp

@[simp] theorem State.sendWrites_boot (s : State) (id : Nat) (a : Nat) (bs : List Byte) :
    (State.sendWrites s id a bs).boot = s.boot := by
  unfold State.sendWrites
  simp

@[simp] theorem State.xferFarWrite_boot (s : State) (c : Nat) (h : Nat) (x : Xfer) :
    (State.xferFarWrite s c h x).boot = s.boot := by
  unfold State.xferFarWrite
  (try dsimp only)
  (repeat' split) <;> (try have e0 := Sys2Proof.Machine.State.putRead_boot' (by assumption)) <;> simp [*]

@[simp] theorem State.beginXfer_boot (s : State) (c : Nat) (h : Nat) (x : Xfer) :
    (State.beginXfer s c h x).boot = s.boot := by
  unfold State.beginXfer
  (repeat' split) <;> simp

@[simp] theorem State.startPool_boot (s : State) (c : Nat) (h : Nat) (put : Bool) (a : W64) (w : W64) (spad : Nat) :
    (State.startPool s c h put a w spad).boot = s.boot := by
  unfold State.startPool
  simp

@[simp] theorem State.lockWord_boot (s : State) (c : Nat) (w : W64) :
    (State.lockWord s c w).2.boot = s.boot := by
  unfold State.lockWord
  simp only []
  split <;> simp

theorem State.lockWord_boot' {s : State} {c : Nat} {w : W64} {fst' : W64} {snd' : State}
    (hyp' : (State.lockWord s c w) = (fst', snd')) : snd'.boot = s.boot := by
  rw [← State.lockWord_boot s c w, hyp']

@[simp] theorem State.sendGather_boot (s : State) (c : Nat) (h : Nat) (tag : Nat) (x : Xfer) :
    (State.sendGather s c h tag x).boot = s.boot := by
  unfold State.sendGather
  simp

@[simp] theorem State.startGather_boot (s : State) (c : Nat) (h : Nat) (tag : Nat) (req : W64) (owner : W64) (dl : W64) (dst : Nat) :
    (State.startGather s c h tag req owner dl dst).boot = s.boot := by
  unfold State.startGather
  simp

@[simp] theorem State.doneXfer_boot (s : State) (c : Nat) (h : Nat) (x : Xfer) :
    (State.doneXfer s c h x).boot = s.boot := by
  unfold State.doneXfer
  simp

@[simp] theorem State.unallocated_boot (s : State) (c : Nat) (h : Nat) (p : Nat) :
    (State.unallocated s c h p).boot = s.boot := by
  unfold State.unallocated
  simp

@[simp] theorem State.reservedObj_boot (s : State) (c : Nat) (h : Hdr) :
    (State.reservedObj s c h).boot = s.boot := by
  unfold State.reservedObj
  split <;> simp

@[simp] theorem State.landGet_boot (s : State) (c : Nat) (h : Nat) (x : Xfer) (bs : List Byte) :
    (State.landGet s c h x bs).boot = s.boot := by
  unfold State.landGet
  simp only []
  split <;> simp

@[simp] theorem State.movePool_boot (s : State) (c : Nat) (h : Nat) (x : Xfer) (n : Nat) :
    (State.movePool s c h x n).boot = s.boot := by
  unfold State.movePool
  (try dsimp only)
  (repeat' split) <;> (try have e0 := Sys2Proof.Machine.State.putRead_boot' (by assumption)) <;> simp [*]

@[simp] theorem State.overPages_boot (s : State) (c h : Nat) (i : Instr) (ps : List Nat) (act : State → State)
    (hyp : ∀ t : State, (act t).boot = t.boot) : (State.overPages s c h i ps act).boot = s.boot := by
  unfold State.overPages
  (repeat' split) <;> simp [hyp]

@[simp] theorem State.endPool_boot (s : State) (c : Nat) (h : Nat) (i : Instr) (x : Xfer) :
    (State.endPool s c h i x).boot = s.boot := by
  have whole : ∀ t : State, (match t.poolLen x with
      | none => (if x.kind = XferKind.put then t.spadTouch x.spad 64 else t.poolTouch x.addr.toNat 64).failXfer c h 6
      | some n => t.overPages c h i (pagesOf x.addr.toNat n) (fun u => u.movePool c h x n)).boot = t.boot := by
    intro t
    (repeat' split) <;> simp
  unfold State.endPool
  dsimp only
  split
  · exact whole s
  · rw [State.overPages_boot]
    exact whole

@[simp] theorem State.endFarPut_boot (s : State) (c : Nat) (h : Nat) (x : Xfer) (r : FarReq) (st : Nat) :
    (State.endFarPut s c h x r st).boot = s.boot := by
  unfold State.endFarPut
  (repeat' split) <;> simp

@[simp] theorem State.endFarGet_boot (s : State) (c : Nat) (h : Nat) (x : Xfer) (reason : Nat) (bs : List Byte) :
    (State.endFarGet s c h x reason bs).boot = s.boot := by
  unfold State.endFarGet
  (try dsimp only)
  (repeat' split) <;> simp

@[simp] theorem State.endFar_boot (s : State) (c : Nat) (h : Nat) (x : Xfer) (st : Nat) :
    (State.endFar s c h x st).boot = s.boot := by
  unfold State.endFar
  (try dsimp only)
  (repeat' split) <;> simp

@[simp] theorem State.putStream_boot (s : State) (c : Nat) (k : Nat) (t : Stream) :
    (State.putStream s c k t).boot = s.boot := by
  unfold State.putStream
  simp

@[simp] theorem State.releaseItem_boot (s : State) (c : Nat) (k : Nat) (t : Stream) :
    (State.releaseItem s c k t).boot = s.boot := by
  unfold State.releaseItem
  simp only []
  split <;> simp

@[simp] theorem State.settleStream_boot (c : Nat) (k : Nat) (x0 : Nat) (x1 : State) :
    (State.settleStream c k x0 x1).boot = x1.boot := by
  induction x0 generalizing x1 with
    | zero => simp [State.settleStream]
    | succ k ih => unfold State.settleStream; (try dsimp only); (repeat' split) <;> simp [ih]

@[simp] theorem State.settleKey_boot (s : State) (c : Nat) (h : Nat) :
    (State.settleKey s c h).boot = s.boot := by
  unfold State.settleKey
  split <;> simp

@[simp] theorem State.issueItem_boot (s : State) (c : Nat) (k : Nat) (t : Stream) (tag : Option Nat) :
    (State.issueItem s c k t tag).boot = s.boot := by
  unfold State.issueItem
  (try dsimp only)
  (repeat' split) <;> simp

@[simp] theorem State.pumpStream_boot (c : Nat) (k : Nat) (x0 : Nat) (x1 : State) :
    (State.pumpStream c k x0 x1).boot = x1.boot := by
  induction x0 generalizing x1 with
  | zero => simp [State.pumpStream]
  | succ f ih =>
    unfold State.pumpStream
    split
    · rfl
    · split
      · rfl
      · split
        · simp [ih]
        · dsimp only
          rw [State.orWait_boot]
          intro t
          (repeat' split) <;> simp [ih]

@[simp] theorem State.readStream_boot (s : State) (c : Nat) (k : Nat) (a : Nat) :
    (State.readStream s c k a).2.boot = s.boot := by
  unfold State.readStream
  simp

theorem State.readStream_boot' {s : State} {c : Nat} {k : Nat} {a : Nat} {fst' : Stream} {snd' : State}
    (hyp' : (State.readStream s c k a) = (fst', snd')) : snd'.boot = s.boot := by
  rw [← State.readStream_boot s c k a, hyp']

@[simp] theorem State.startStream_boot (s : State) (c : Nat) (k : Nat) (t : Stream) :
    (State.startStream s c k t).boot = s.boot := by
  unfold State.startStream
  simp

@[simp] theorem State.cancelStream_boot (s : State) (c : Nat) (k : Nat) :
    (State.cancelStream s c k).boot = s.boot := by
  unfold State.cancelStream
  split <;> simp

@[simp] theorem State.srelease_boot (s : State) (c : Nat) (k : Nat) :
    (State.srelease s c k).boot = s.boot := by
  unfold State.srelease
  (repeat' split) <;> simp

@[simp] theorem State.deadlineMiss_boot (s : State) (c : Nat) (layer : Nat) :
    (State.deadlineMiss s c layer).boot = s.boot := by
  unfold State.deadlineMiss
  simp

@[simp] theorem State.narrowing_boot (s : State) (c : Nat) (x : Xfer) :
    (State.narrowing s c x).2.boot = s.boot := by
  unfold State.narrowing
  simp only []
  split <;> simp

theorem State.narrowing_boot' {s : State} {c : Nat} {x : Xfer} {fst' : Option Nat} {snd' : State}
    (hyp' : (State.narrowing s c x) = (fst', snd')) : snd'.boot = s.boot := by
  rw [← State.narrowing_boot s c x, hyp']

@[simp] theorem State.narrow_boot (s : State) (c : Nat) (h : Nat) (tag : Nat) (f : Nat) (x : Xfer) :
    (State.narrow s c h tag f x).boot = s.boot := by
  unfold State.narrow
  simp

@[simp] theorem State.narrowStep_boot (s : State) (c : Nat) (h : Nat) (x : Xfer) :
    (State.narrowStep s c h x).1.boot = s.boot := by
  unfold State.narrowStep
  (try dsimp only)
  (repeat' split) <;> (try have e0 := State.narrowing_boot' (by assumption)) <;> simp [*]

/-- Every outcome of a wait has this boot state. -/
def bootWait (b : Boot) : WaitRes → Prop
  | .ret _ _ t => t.boot = b
  | .stay t => t.boot = b
theorem State.waitLoop_boot (c h : Nat) (b : Boot) (n : Nat) (s : State) (e : s.boot = b) :
    bootWait b (State.waitLoop c h n s) := by
  induction n generalizing s with
  | zero => exact e
  | succ n ih =>
    unfold State.waitLoop
    dsimp only
    (repeat' split) <;> first
      | (apply ih; simp [e])
      | simp [bootWait, e]

theorem State.waitFor_boot {s u : State} {c h : Nat} (e : s.waitFor c h = .stay u) : u.boot = s.boot := by
  have k := State.waitLoop_boot c h s.boot 4 s rfl
  rw [State.waitFor] at e
  rw [e] at k
  exact k
theorem State.waitFor_boot_ret {s u : State} {c h w : Nat} {d : Bool} (e : s.waitFor c h = .ret w d u) :
    u.boot = s.boot := by
  have k := State.waitLoop_boot c h s.boot 4 s rfl
  rw [State.waitFor] at e
  rw [e] at k
  exact k

@[simp] theorem State.withHandle_boot (s : State) (c sd : Nat) (act : Nat → State → State) (b : Boot) (h : s.boot = b)
    (hyp : ∀ (n : Nat) (t : State), (act n t).boot = t.boot) : bootEff b (State.withHandle s c sd act) := by
  subst h
  unfold State.withHandle
  (repeat' split) <;> (try have e0 := State.takeHandle_boot' (by assumption)) <;> simp [*]

@[simp] theorem poolEffect_boot (put : Bool) (c : Nat) (o : ROps) (t : State) (b : Boot) (h : t.boot = b) :
    bootEff b (poolEffect put c o t) := by
  subst h
  unfold poolEffect
  simp only []
  split <;> simp

@[simp] theorem execPlGet_boot (c : Nat) (o : ROps) (s : State) :
    bootOut s.boot (execPlGet c o s) := by
  unfold execPlGet
  simp

@[simp] theorem execPlPut_boot (c : Nat) (o : ROps) (s : State) :
    bootOut s.boot (execPlPut c o s) := by
  unfold execPlPut
  simp

@[simp] theorem execPlGather_boot (c : Nat) (o : ROps) (s : State) :
    bootOut s.boot (execPlGather c o s) := by
  unfold execPlGather
  apply coreR_boot
  intro t
  (try dsimp only)
  (repeat' split) <;> simp

@[simp] theorem waitEffect_boot (c : Nat) (o : ROps) (t : State) (b : Boot) (h : t.boot = b) :
    bootEff b (waitEffect c o t) := by
  subst h
  unfold waitEffect
  dsimp only
  (repeat' split) <;> (try have e0 := State.waitFor_boot (by assumption)) <;>
    (try have e1 := State.waitFor_boot_ret (by assumption)) <;> simp [*]

@[simp] theorem execPlWait_boot (c : Nat) (o : ROps) (s : State) :
    bootOut s.boot (execPlWait c o s) := by
  unfold execPlWait
  simp

@[simp] theorem execPlStream_boot (c : Nat) (o : ROps) (s : State) :
    bootOut s.boot (execPlStream c o s) := by
  unfold execPlStream
  apply coreR_boot
  intro t
  (try dsimp only)
  (repeat' split) <;> (try have e0 := Sys2Proof.Machine.State.readStream_boot' (by assumption)) <;> simp [*]

@[simp] theorem swaitEffect_boot (c : Nat) (o : ROps) (t : State) (b : Boot) (h : t.boot = b) :
    bootEff b (swaitEffect c o t) := by
  subst h
  unfold swaitEffect
  dsimp only
  (repeat' split) <;> (try have e0 := State.waitFor_boot (by assumption)) <;>
    (try have e1 := State.waitFor_boot_ret (by assumption)) <;> simp [*]

@[simp] theorem execPlSwait_boot (c : Nat) (o : ROps) (s : State) :
    bootOut s.boot (execPlSwait c o s) := by
  unfold execPlSwait
  simp

@[simp] theorem execPlSrelease_boot (c : Nat) (o : ROps) (s : State) :
    bootOut s.boot (execPlSrelease c o s) := by
  unfold execPlSrelease
  apply coreR_boot
  intro t
  (try dsimp only)
  (repeat' split) <;> simp [*]

@[simp] theorem execPlScancel_boot (c : Nat) (o : ROps) (s : State) :
    bootOut s.boot (execPlScancel c o s) := by
  unfold execPlScancel
  simp

@[simp] theorem execPlAltready_boot (c : Nat) (o : ROps) (s : State) :
    bootOut s.boot (execPlAltready c o s) := by
  unfold execPlAltready
  simp

@[simp] theorem execXferComplete_boot (c : Nat) (h : Nat) (st : Nat) (s : State) :
    bootOut s.boot (execXferComplete c h st s) := by
  unfold execXferComplete
  (try dsimp only)
  (repeat' split) <;> simp

@[simp] theorem State.gatherLands_boot (s : State) (c : Nat) (h : Nat) (x : Xfer) (d : Hdr) (payload : List Byte) :
    (State.gatherLands s c h x d payload).boot = s.boot := by
  unfold State.gatherLands
  (repeat' split) <;> simp

@[simp] theorem State.respFor_boot (s : State) (at_ : Nat) (t : Txn) (d : Hdr) (payload : List Byte) :
    (State.respFor s at_ t d payload).boot = s.boot := by
  unfold State.respFor
  (try dsimp only)
  (repeat' split) <;> simp

@[simp] theorem execGatherResp_boot (h : Hdr) (payload : List Byte) (s : State) :
    bootOut s.boot (execGatherResp h payload s) := by
  unfold execGatherResp
  (try dsimp only)
  (repeat' split) <;> simp

@[simp] theorem State.txnDead_boot (s : State) (t : Txn) :
    (State.txnDead s t).boot = s.boot := by
  unfold State.txnDead
  (try dsimp only)
  (repeat' split) <;> simp

@[simp] theorem execDeadlineEdge_boot (c : Nat) (s : State) :
    bootOut s.boot (execDeadlineEdge c s) := by
  unfold execDeadlineEdge
  apply onUnit_boot
  (try dsimp only)
  (repeat' split) <;> simp [*]

end Sys2Proof.Machine
end

