-- ==== Sys2Proof/Laws/BootOfFabric.lean ====
section
/-! SUPPORT. No function of Machine/Fabric.lean changes the boot state of the module. -/

namespace Sys2Proof.Machine

@[simp] theorem State.setCstate_boot (s : State) (c : Nat) (v : Nat) :
    (State.setCstate s c v).boot = s.boot := by
  unfold State.setCstate
  simp

@[simp] theorem State.chanResult_boot (s : State) (r : Nat) :
    (State.chanResult s r).boot = s.boot := by
  unfold State.chanResult
  simp

@[simp] theorem State.openChan_boot (s : State) (c : Nat) :
    (State.openChan s c).boot = s.boot := by
  unfold State.openChan
  (repeat' split) <;> (try have e0 := State.unitWords_boot' (by assumption)) <;> simp [*]

@[simp] theorem State.closeChan_boot (s : State) (c : Nat) :
    (State.closeChan s c).boot = s.boot := by
  unfold State.closeChan
  split <;> simp

@[simp] theorem chanCmd_boot (i : Instr) (c : Nat) (act : State → State) (s : State) (hact : ∀ t, (act t).boot = t.boot) :
    bootOut s.boot (chanCmd i c act s) := by
  unfold chanCmd
  (try dsimp only)
  (repeat' split) <;> simp [hact]

@[simp] theorem execChanOpen_boot (c : Nat) (s : State) :
    bootOut s.boot (execChanOpen c s) := by
  unfold execChanOpen
  simp

@[simp] theorem execChanClose_boot (c : Nat) (s : State) :
    bootOut s.boot (execChanClose c s) := by
  unfold execChanClose
  simp

@[simp] theorem execChanReset_boot (c : Nat) (s : State) :
    bootOut s.boot (execChanReset c s) := by
  unfold execChanReset
  apply chanCmd_boot
  intro t
  (try dsimp only)
  (repeat' split) <;> simp

@[simp] theorem State.takeAck_boot (s : State) (c : Nat) (x : Ctx) (v : Nat) :
    (State.takeAck s c x v).boot = s.boot := by
  unfold State.takeAck
  simp only []
  split <;> simp

@[simp] theorem execAck_boot (h : Hdr) (s : State) :
    bootOut s.boot (execAck h s) := by
  unfold execAck
  (try dsimp only)
  rw [bootOut_next, whenOk_boot, State.withPages_boot]
  · simp
  · intro t
    (try dsimp only)
    (repeat' split) <;> simp

@[simp] theorem execAckDelay_boot (c : Nat) (s : State) :
    bootOut s.boot (execAckDelay c s) := by
  unfold execAckDelay
  simp

@[simp] theorem State.resendChan_boot (s : State) (c : Nat) (x : Ctx) :
    (State.resendChan s c x).boot = s.boot := by
  unfold State.resendChan
  simp

@[simp] theorem State.failChan_boot (s : State) (c : Nat) :
    (State.failChan s c).boot = s.boot := by
  unfold State.failChan
  simp

@[simp] theorem execChannelRto_boot (c : Nat) (s : State) :
    bootOut s.boot (execChannelRto c s) := by
  unfold execChannelRto
  (repeat' split) <;> simp

@[simp] theorem State.discRecord_boot (s : State) (n : DiscNode) (port : Nat) (peer : Option Ident) (addr : Nat) (status : Nat) :
    (State.discRecord s n port peer addr status).boot = s.boot := by
  unfold State.discRecord
  simp only []
  split <;> simp

@[simp] theorem State.discEnd_boot (s : State) (m : DiscMode) (code : Nat) :
    (State.discEnd s m code).boot = s.boot := by
  unfold State.discEnd
  simp

@[simp] theorem State.discIssue_boot (s : State) (h : Hdr) (payload : List Byte) :
    (State.discIssue s h payload).boot = s.boot := by
  unfold State.discIssue
  simp

@[simp] theorem State.discTxn_boot (s : State) (kind : BitVec 8) (route : List Nat) (payload : List Byte) :
    (State.discTxn s kind route payload).boot = s.boot := by
  unfold State.discTxn
  (try dsimp only)
  (repeat' split) <;> simp

@[simp] theorem State.discGo_boot (x0 : Nat) (x1 : State) :
    (State.discGo x0 x1).boot = x1.boot := by
  induction x0 generalizing x1 with
    | zero => simp [State.discGo]
    | succ k ih => unfold State.discGo; (try dsimp only); (repeat' split) <;> simp [ih]

@[simp] theorem State.discNext_boot (s : State) :
    (State.discNext s).boot = s.boot := by
  unfold State.discNext
  simp

@[simp] theorem State.recordPeers_boot (s : State) :
    (State.recordPeers s).boot = s.boot := by
  unfold State.recordPeers
  apply foldl_boot
  intro t p
  (try dsimp only)
  (repeat' split) <;> simp [*]

@[simp] theorem execDiscStart_boot (s : State) :
    bootOut s.boot (execDiscStart s) := by
  unfold execDiscStart
  simp

@[simp] theorem execDiscAbort_boot (s : State) :
    bootOut s.boot (execDiscAbort s) := by
  unfold execDiscAbort
  simp

@[simp] theorem State.discAnswer_boot (s : State) (port : Nat) (h : Hdr) (kind : BitVec 8) (payload : List Byte) :
    (State.discAnswer s port h kind payload).boot = s.boot := by
  unfold State.discAnswer
  simp

@[simp] theorem execDiscProbe_boot (port : Nat) (hops : Nat) (h : Hdr) (s : State) :
    bootOut s.boot (execDiscProbe port hops h s) := by
  unfold execDiscProbe
  split <;> simp

@[simp] theorem State.discFound_boot (s : State) (peer : Ident) :
    (State.discFound s peer).boot = s.boot := by
  unfold State.discFound
  (try dsimp only)
  (repeat' split) <;> simp

@[simp] theorem execDiscIdent_boot (port : Nat) (hops : Nat) (h : Hdr) (peer : Ident) (s : State) :
    bootOut s.boot (execDiscIdent port hops h peer s) := by
  unfold execDiscIdent
  (repeat' split) <;> simp

@[simp] theorem State.takeAddr_boot (s : State) (h : Hdr) (a : Nat) :
    (State.takeAddr s h a).2.boot = s.boot := by
  unfold State.takeAddr
  (try dsimp only)
  (repeat' split) <;> simp

theorem State.takeAddr_boot' {s : State} {h : Hdr} {a : Nat} {fst' : Nat} {snd' : State}
    (hyp' : (State.takeAddr s h a) = (fst', snd')) : snd'.boot = s.boot := by
  rw [← State.takeAddr_boot s h a, hyp']

@[simp] theorem State.discAssigned_boot (s : State) (status : Nat) :
    (State.discAssigned s status).boot = s.boot := by
  unfold State.discAssigned
  (try dsimp only)
  (repeat' split) <;> simp

@[simp] theorem execDiscAssign_boot (port : Nat) (hops : Nat) (h : Hdr) (payload : List Byte) (s : State) :
    bootOut s.boot (execDiscAssign port hops h payload s) := by
  unfold execDiscAssign
  (repeat' split) <;> simp

@[simp] theorem State.discDead_boot (s : State) :
    (State.discDead s).boot = s.boot := by
  unfold State.discDead
  (try dsimp only)
  (repeat' split) <;> simp

@[simp] theorem State.retryTxn_boot (s : State) (t : Txn) :
    (State.retryTxn s t).boot = s.boot := by
  unfold State.retryTxn
  split <;> simp

@[simp] theorem State.failTxn_boot (s : State) (t : Txn) :
    (State.failTxn s t).boot = s.boot := by
  unfold State.failTxn
  (repeat' split) <;> simp

@[simp] theorem execTxnTimeout_boot (tag : Nat) (s : State) :
    bootOut s.boot (execTxnTimeout tag s) := by
  unfold execTxnTimeout
  (repeat' split) <;> simp

end Sys2Proof.Machine
end

