-- ==== Sys2Proof/Laws/BootOfFetch.lean ====
section
/-! SUPPORT. No function of Machine/Fetch.lean changes the boot state of the module. -/

namespace Sys2Proof.Machine

@[simp] theorem State.fetchTrap_boot (s : State) (c : Nat) :
    (State.fetchTrap s c).boot = s.boot := by
  unfold State.fetchTrap
  (try dsimp only)
  (repeat' split) <;> simp

end Sys2Proof.Machine
end

