-- ==== Sys2Proof/Laws/BootOfLaunch.lean ====
section
/-! SUPPORT. No function of Machine/Launch.lean changes the boot state of the module. -/

namespace Sys2Proof.Machine

@[simp] theorem State.launchFault_boot (s : State) (c : Nat) (cause : Nat) :
    (State.launchFault s c cause).boot = s.boot := by
  unfold State.launchFault
  simp

@[simp] theorem State.goGather_boot (s : State) (c : Nat) (h : Nat) (x : Xfer) :
    (State.goGather s c h x).boot = s.boot := by
  unfold State.goGather
  rw [State.orWait_boot]
  intro t
  (repeat' split) <;> simp

@[simp] theorem State.goGathers_boot (s : State) (c : Nat) :
    (State.goGathers s c).boot = s.boot := by
  unfold State.goGathers
  simp

@[simp] theorem State.firePool_boot (s : State) (c : Nat) (h : Nat) (put : Bool) (a : W64) (w : W64) (spad : W32) :
    (State.firePool s c h put a w spad).boot = s.boot := by
  unfold State.firePool
  simp

@[simp] theorem State.fireGather_boot (s : State) (c : Nat) (h : Nat) (req : W64) (owner : W64) (dl : W64) (dst : W32) :
    (State.fireGather s c h req owner dl dst).boot = s.boot := by
  unfold State.fireGather
  simp

@[simp] theorem State.fireStream_boot (s : State) (c : Nat) (k : Nat) (a : Nat) :
    (State.fireStream s c k a).boot = s.boot := by
  unfold State.fireStream
  simp only []
  split <;> simp

@[simp] theorem State.fireWork_boot (s : State) (c : Nat) (x0 : Work) :
    (State.fireWork s c x0).boot = s.boot := by
  unfold State.fireWork
  (repeat' split) <;> simp

@[simp] theorem State.fireEntry_boot (s : State) (c : Nat) (e : LaunchEntry) :
    (State.fireEntry s c e).boot = s.boot := by
  unfold State.fireEntry
  dsimp only
  rw [State.fireWork_boot]
  split <;> simp

@[simp] theorem State.fireLate_boot (c : Nat) (x0 : Nat) (x1 : State) :
    (State.fireLate c x0 x1).boot = x1.boot := by
  induction x0 generalizing x1 with
  | zero => rfl
  | succ f ih =>
    unfold State.fireLate
    (repeat' split) <;> simp [ih]

@[simp] theorem execLaunchFire_boot (c : Nat) (s : State) :
    bootOut s.boot (execLaunchFire c s) := by
  unfold execLaunchFire
  apply onUnit_boot
  split <;> simp

@[simp] theorem State.queueWork_boot (s : State) (c : Nat) (target : Nat) (w : Work) :
    (State.queueWork s c target w).boot = s.boot := by
  unfold State.queueWork
  split <;> simp

@[simp] theorem queueIf_boot (c : Nat) (target : Nat) (cause : Option Nat) (w : Work) (s : State) (b : Boot) (h : s.boot = b) :
    bootEff b (queueIf c target cause w s) := by
  subst h
  unfold queueIf
  split <;> simp

@[simp] theorem queueXfer_boot (c : Nat) (target : Nat) (sd : Nat) (cause : Option Nat) (kind : XferKind) (w : Nat → Work) (s : State) (b : Boot) (h : s.boot = b) :
    bootEff b (queueXfer c target sd cause kind w s) := by
  subst h
  unfold queueXfer
  split <;> simp

@[simp] theorem queueColl_boot (c : Nat) (target : Nat) (op : Nat) (o : ROps) (s : State) (b : Boot) (h : s.boot = b) :
    bootEff b (queueColl c target op o s) := by
  subst h
  unfold queueColl
  (try dsimp only)
  apply State.pagesFirst_boot
  · rfl
  · intro u
    (try dsimp only)
    (repeat' split) <;> (try have e0 := Sys2Proof.Machine.State.takeColl_boot' (by assumption)) <;> simp [*]

@[simp] theorem queueStream_boot (c : Nat) (target : Nat) (o : ROps) (s : State) (b : Boot) (h : s.boot = b) :
    bootEff b (queueStream c target o s) := by
  subst h
  unfold queueStream
  (try dsimp only)
  (repeat' split) <;> simp

@[simp] theorem queuePool_boot (c : Nat) (target : Nat) (opc : Nat) (o : ROps) (s : State) (b : Boot) (h : s.boot = b) :
    bootEff b (queuePool c target opc o s) := by
  subst h
  unfold queuePool
  (repeat' split) <;> simp

@[simp] theorem queueAction_boot (c : Nat) (target : Nat) (cls : Nat) (opc : Nat) (o : ROps) (s : State) (b : Boot) (h : s.boot = b) :
    bootEff b (queueAction c target cls opc o s) := by
  subst h
  unfold queueAction
  (try dsimp only)
  (repeat' split) <;> simp

@[simp] theorem execLaunchAt_boot (c : Nat) (o : ROps) (action : W64) (s : State) :
    bootOut s.boot (execLaunchAt c o action s) := by
  unfold execLaunchAt
  dsimp only
  apply onUnit_boot
  rw [whenOk_boot, State.issue_boot]
  · simp
  · intro t
    (repeat' split) <;> simp

end Sys2Proof.Machine
end

