-- ==== Sys2Proof/Laws/BootOfPitch.lean ====
section
/-! SUPPORT. No function of Machine/Pitch.lean changes the boot state of the module. -/

namespace Sys2Proof.Machine

@[simp] theorem State.firePassed_boot (a : Nat) (x1 : State) :
    (State.firePassed a x1).boot = x1.boot := by
  induction a generalizing x1 with
    | zero => simp [State.firePassed]
    | succ k ih => unfold State.firePassed; (try dsimp only); (repeat' split) <;> simp [ih, *]

@[simp] theorem State.setCount_boot (s : State) (new : Nat) :
    (State.setCount s new).boot = s.boot := by
  unfold State.setCount
  (try dsimp only)
  (repeat' split) <;> simp

@[simp] theorem execPitCmdLoad_boot (s : State) :
    bootOut s.boot (execPitCmdLoad s) := by
  unfold execPitCmdLoad
  simp

@[simp] theorem State.sendSync_boot (s : State) (p : Nat) :
    (State.sendSync s p).boot = s.boot := by
  unfold State.sendSync
  simp

@[simp] theorem execTimingExchange_boot (s : State) :
    bootOut s.boot (execTimingExchange s) := by
  unfold execTimingExchange
  split <;> simp

@[simp] theorem execSync_boot (port : Nat) (g : TimeCell) (s : State) :
    bootOut s.boot (execSync port g s) := by
  unfold execSync
  (try dsimp only)
  (repeat' split) <;> (try have e0 := Sys2Proof.Machine.State.guyTake_boot' (by assumption)) <;> (try have e1 := Sys2Proof.Machine.State.stampNow_boot' (by assumption)) <;> simp [*]

@[simp] theorem execDelayReq_boot (port : Nat) (g : TimeCell) (s : State) :
    bootOut s.boot (execDelayReq port g s) := by
  unfold execDelayReq
  (try dsimp only)
  (repeat' split) <;> (try have e0 := Sys2Proof.Machine.State.guyTake_boot' (by assumption)) <;> (try have e1 := Sys2Proof.Machine.State.stampNow_boot' (by assumption)) <;> simp [*]

@[simp] theorem State.linkDelay_boot (s : State) (p : Nat) (delay : Nat) :
    (State.linkDelay s p delay).boot = s.boot := by
  unfold State.linkDelay
  simp only []
  split <;> simp

@[simp] theorem State.slew_boot (s : State) (o : Int) :
    (State.slew s o).boot = s.boot := by
  unfold State.slew
  simp

@[simp] theorem State.enterLocked_boot (s : State) (o : Int) :
    (State.enterLocked s o).boot = s.boot := by
  unfold State.enterLocked
  simp

@[simp] theorem State.acquire_boot (s : State) (o : Int) :
    (State.acquire s o).boot = s.boot := by
  unfold State.acquire
  (try dsimp only)
  (repeat' split) <;> simp

@[simp] theorem State.exchangeDone_boot (s : State) (o : Int) :
    (State.exchangeDone s o).boot = s.boot := by
  unfold State.exchangeDone
  (try dsimp only)
  (repeat' split) <;> simp

@[simp] theorem State.learnLinks_boot (s : State) :
    (State.learnLinks s).boot = s.boot := by
  unfold State.learnLinks
  simp

@[simp] theorem State.exchange_boot (s : State) (port : Nat) (t1 : Nat) (t3 : Nat) (t4 : Nat) :
    (State.exchange s port t1 t3 t4).boot = s.boot := by
  unfold State.exchange
  simp

@[simp] theorem execDelayResp_boot (port : Nat) (g : TimeCell) (s : State) :
    bootOut s.boot (execDelayResp port g s) := by
  unfold execDelayResp
  (try dsimp only)
  (repeat' split) <;> (try have e0 := Sys2Proof.Machine.State.guyTake_boot' (by assumption)) <;> simp [*]

@[simp] theorem execExchangeMissing_boot (s : State) :
    bootOut s.boot (execExchangeMissing s) := by
  unfold execExchangeMissing
  simp

@[simp] theorem execHoldoverLimit_boot (s : State) :
    bootOut s.boot (execHoldoverLimit s) := by
  unfold execHoldoverLimit
  simp

end Sys2Proof.Machine
end

