-- ==== Sys2Proof/Laws/BootOfRegs.lean ====
section
/-! SUPPORT. No function of Machine/Regs.lean changes the boot state of the module. -/

namespace Sys2Proof.Machine

@[simp] theorem State.latchHi_boot (s : State) (off : Nat) :
    (State.latchHi s off).boot = s.boot := by
  unfold State.latchHi
  (try dsimp only)
  (repeat' split) <;> simp

@[simp] theorem State.readBytes_boot (s : State) (off : Nat) (bytes : Nat) :
    (State.readBytes s off bytes).boot = s.boot := by
  unfold State.readBytes
  simp

@[simp] theorem execLoReadLatch_boot (off : Nat) (bytes : Nat) (s : State) :
    bootOut s.boot (execLoReadLatch off bytes s) := by
  unfold execLoReadLatch
  (repeat' split) <;> simp

@[simp] theorem State.clearFrozen_boot (s : State) (off : Nat) (f : FieldRow) :
    (State.clearFrozen s off f).boot = s.boot := by
  unfold State.clearFrozen
  split <;> simp

@[simp] theorem State.writeField_boot (off : Nat) (v : Nat) (s : State) (f : FieldRow) :
    (State.writeField off v s f).boot = s.boot := by
  unfold State.writeField
  (try dsimp only)
  (repeat' split) <;> simp

@[simp] theorem State.roleChange_boot (old : Bool) (s : State) :
    (State.roleChange old s).boot = s.boot := by
  unfold State.roleChange
  (repeat' split) <;> simp

@[simp] theorem State.unmask_boot (s : State) (v : Nat) :
    (State.unmask s v).boot = s.boot := by
  unfold State.unmask
  split <;> simp

@[simp] theorem State.hdmCommit_boot (s : State) :
    (State.hdmCommit s).boot = s.boot := by
  unfold State.hdmCommit
  simp

@[simp] theorem State.afterWrite_boot (s : State) (old : State) (off : Nat) (v : Nat) :
    (State.afterWrite s old off v).boot = s.boot := by
  unfold State.afterWrite
  (repeat' split) <;> simp

@[simp] theorem State.writeCore_boot (s : State) (c : Nat) (o : Nat) (v : Nat) :
    (State.writeCore s c o v).boot = s.boot := by
  unfold State.writeCore
  (try dsimp only)
  (repeat' split) <;> simp

@[simp] theorem State.writeReg_boot (s : State) (off : Nat) (v : Nat) :
    (State.writeReg s off v).boot = s.boot := by
  unfold State.writeReg
  (try dsimp only)
  (repeat' split) <;> simp

@[simp] theorem execRegisterWrite_boot (off : Nat) (bytes : Nat) (v : W64) (s : State) :
    bootOut s.boot (execRegisterWrite off bytes v s) := by
  unfold execRegisterWrite
  (repeat' split) <;> simp

end Sys2Proof.Machine
end

