-- ==== Sys2Proof/Laws/BootOfUpdate.lean ====
section
/-! SUPPORT. No function of Machine/Update.lean changes the boot state of the module. -/

namespace Sys2Proof.Machine

@[simp] theorem State.flyCreate_boot (s : State) (p : Nat) (e : DirEntry) :
    bootOpt s.boot (State.flyCreate s p e) := by
  unfold State.flyCreate
  (repeat' split) <;> (try have e0 := State.takeFrame_boot' (by assumption)) <;> simp [*]

theorem State.flyCreate_boot' {s : State} {p : Nat} {e : DirEntry} {snd' : State}
    (hyp' : (State.flyCreate s p e) = some snd') : snd'.boot = s.boot := by
  have e := State.flyCreate_boot s p e
  rw [hyp'] at e
  exact e

@[simp] theorem State.flyCreateAll_boot (x0 : List Nat) (x1 : State) :
    bootOpt x1.boot (State.flyCreateAll x0 x1) := by
  induction x0 generalizing x1 with
  | nil => simp [State.flyCreateAll]
  | cons p l ih =>
    unfold State.flyCreateAll
    split
    · next e _ _ =>
      cases h : x1.flyCreate p e with
      | none => simp
      | some u => rw [← State.flyCreate_boot' h]; exact ih u
    · exact ih _

theorem State.flyCreateAll_boot' {a : List Nat} {x1 : State} {snd' : State}
    (hyp' : (State.flyCreateAll a x1) = some snd') : snd'.boot = x1.boot := by
  have e := State.flyCreateAll_boot a x1
  rw [hyp'] at e
  exact e

@[simp] theorem State.flySegment_boot (s : State) (p : Nat) (off : Nat) (bs : List Byte) :
    (State.flySegment s p off bs).boot = s.boot := by
  unfold State.flySegment
  (try dsimp only)
  (repeat' split) <;> simp

@[simp] theorem State.flyWriteAt_boot (x0 : Nat) (x1 : Nat) (x2 : List Byte) (x3 : State) :
    (State.flyWriteAt x0 x1 x2 x3).boot = x3.boot := by
  induction x0 generalizing x1 x2 x3 with
    | zero => simp [State.flyWriteAt]
    | succ k ih => unfold State.flyWriteAt; (repeat' split) <;> simp [ih]

@[simp] theorem State.flyWrite_boot (s : State) (p : Nat × List Byte) :
    (State.flyWrite s p).boot = s.boot := by
  unfold State.flyWrite
  simp

@[simp] theorem State.flyTouch_boot (s : State) (p : Nat × Nat) :
    (State.flyTouch s p).boot = s.boot := by
  unfold State.flyTouch
  apply foldl_boot
  intro t p
  (repeat' split) <;> simp

@[simp] theorem State.buDone_boot (n : Nat) (layer : Nat) (s : State) (t : Tsw) :
    (State.buDone n layer s t).boot = s.boot := by
  unfold State.buDone
  split <;> simp

@[simp] theorem State.blockDone_boot (n : Nat) (x : Shard) (s : State) (b : Nat × KOut) :
    (State.blockDone n x s b).boot = s.boot := by
  unfold State.blockDone
  (repeat' split) <;> simp

@[simp] theorem State.sliceGrad_boot (s : State) (n : Nat) (x : Shard) (r : ReadySlice) (r0 : Nat) (rows : Nat) :
    (State.sliceGrad s n x r r0 rows).2.boot = s.boot := by
  unfold State.sliceGrad
  (try dsimp only)
  (repeat' split) <;> (try have e0 := State.unitPool_boot' (by assumption)) <;> simp [*]

theorem State.sliceGrad_boot' {s : State} {n : Nat} {x : Shard} {r : ReadySlice} {r0 : Nat} {rows : Nat} {fst' : Option (List W32)} {snd' : State}
    (hyp' : (State.sliceGrad s n x r r0 rows) = (fst', snd')) : snd'.boot = s.boot := by
  rw [← State.sliceGrad_boot s n x r r0 rows, hyp']

@[simp] theorem State.dropReady_boot (s : State) (n : Nat) (r : ReadySlice) :
    (State.dropReady s n r).boot = s.boot := by
  unfold State.dropReady
  simp

@[simp] theorem State.flyStall_boot (s : State) (n : Nat) (e : W32) :
    (State.flyStall s n e).boot = s.boot := by
  unfold State.flyStall
  split <;> simp

@[simp] theorem State.writeUpdate_boot (s : State) (n : Nat) (x : Shard) (r : ReadySlice) (o : UpdateOut) :
    (State.writeUpdate s n x r o).boot = s.boot := by
  unfold State.writeUpdate
  split <;> simp

@[simp] theorem State.applyUpdate_boot (s : State) (n : Nat) (x : Shard) (gscale : W32) (r : ReadySlice) (r0 : Nat) (rows : Nat) :
    (State.applyUpdate s n x gscale r r0 rows).boot = s.boot := by
  unfold State.applyUpdate
  simp only []
  split <;> simp

@[simp] theorem State.updateSlice_boot (s : State) (n : Nat) (x : Shard) (gscale : W32) (r : ReadySlice) (r0 : Nat) (rows : Nat) :
    (State.updateSlice s n x gscale r r0 rows).boot = s.boot := by
  unfold State.updateSlice
  (try dsimp only)
  (repeat' split) <;> (try have e0 := State.flyCreateAll_boot' (by assumption)) <;> simp [*]

@[simp] theorem State.readSlice_boot (s : State) (n : Nat) (r : ReadySlice) :
    (State.readSlice s n r).boot = s.boot := by
  unfold State.readSlice
  (try dsimp only)
  (repeat' split) <;> (try have e0 := Sys2Proof.Machine.State.groupConsts_boot' (by assumption)) <;> (try have e1 := Sys2Proof.Machine.State.readLayer_boot' (by assumption)) <;> (try have e2 := Sys2Proof.Machine.State.readShard_boot' (by assumption)) <;> simp [*]

@[simp] theorem State.takeSlice_boot (s : State) (n : Nat) :
    (State.takeSlice s n).boot = s.boot := by
  unfold State.takeSlice
  (repeat' split) <;> simp

@[simp] theorem execSliceUpdate_boot (n : Nat) (s : State) :
    bootOut s.boot (execSliceUpdate n s) := by
  unfold execSliceUpdate
  simp

end Sys2Proof.Machine
end

