-- ==== Sys2Proof/Laws/BootOfTick.lean ====
section
/-! SUPPORT. No function of Machine/Tick.lean changes the boot state of the module. -/

namespace Sys2Proof.Machine

@[simp] theorem State.streamTick_boot (c : Nat) (s : State) (k : Nat) :
    (State.streamTick c s k).boot = s.boot := by
  unfold State.streamTick
  simp

@[simp] theorem State.cellTick_boot (s : State) (c : Nat) :
    (State.cellTick s c).boot = s.boot := by
  unfold State.cellTick
  simp

@[simp] theorem State.tickWork_boot (s : State) :
    (State.tickWork s).boot = s.boot := by
  unfold State.tickWork
  (try dsimp only)
  (repeat' split) <;> simp

@[simp] theorem State.tick_boot (s : State) :
    (State.tick s).boot = s.boot := by
  unfold State.tick
  split <;> simp

end Sys2Proof.Machine
end

