-- ==== Sys2Proof/Laws/BootOfVector.lean ====
section
/-! SUPPORT. No function of Machine/Vector.lean changes the boot state of the module. -/

namespace Sys2Proof.Machine

@[simp] theorem vsRow_boot (op : Nat) (c : Nat) (i : Instr) (o : ROps) (s : State) :
    bootOut s.boot (vsRow op c i o s) := by
  unfold vsRow
  simp only []
  split <;> simp

@[simp] theorem execVsFence_boot (c : Nat) (o : ROps) (s : State) :
    bootOut s.boot (execVsFence c o s) := by
  unfold execVsFence
  apply coreR_boot
  intro t
  (try dsimp only)
  (repeat' split) <;> simp

@[simp] theorem execVsStat_boot (c : Nat) (o : ROps) (s : State) :
    bootOut s.boot (execVsStat c o s) := by
  unfold execVsStat
  apply coreR_boot
  intro t
  (try dsimp only)
  (repeat' split) <;> simp

@[simp] theorem execVsAnd_boot (c : Nat) (o : ROps) (s : State) :
    bootOut s.boot (execVsAnd c o s) := by
  unfold execVsAnd
  simp

@[simp] theorem execVsOr_boot (c : Nat) (o : ROps) (s : State) :
    bootOut s.boot (execVsOr c o s) := by
  unfold execVsOr
  simp

@[simp] theorem execVsXor_boot (c : Nat) (o : ROps) (s : State) :
    bootOut s.boot (execVsXor c o s) := by
  unfold execVsXor
  simp

@[simp] theorem execVsNot_boot (c : Nat) (o : ROps) (s : State) :
    bootOut s.boot (execVsNot c o s) := by
  unfold execVsNot
  simp

@[simp] theorem execVsShl_boot (c : Nat) (o : ROps) (s : State) :
    bootOut s.boot (execVsShl c o s) := by
  unfold execVsShl
  simp

@[simp] theorem execVsShr_boot (c : Nat) (o : ROps) (s : State) :
    bootOut s.boot (execVsShr c o s) := by
  unfold execVsShr
  simp

@[simp] theorem execVsSra_boot (c : Nat) (o : ROps) (s : State) :
    bootOut s.boot (execVsSra c o s) := by
  unfold execVsSra
  simp

@[simp] theorem execIadd_boot (c : Nat) (o : ROps) (s : State) :
    bootOut s.boot (execIadd c o s) := by
  unfold execIadd
  simp

@[simp] theorem execIsub_boot (c : Nat) (o : ROps) (s : State) :
    bootOut s.boot (execIsub c o s) := by
  unfold execIsub
  simp

@[simp] theorem execImul_boot (c : Nat) (o : ROps) (s : State) :
    bootOut s.boot (execImul c o s) := by
  unfold execImul
  simp

@[simp] theorem execImin_boot (c : Nat) (o : ROps) (s : State) :
    bootOut s.boot (execImin c o s) := by
  unfold execImin
  simp

@[simp] theorem execImax_boot (c : Nat) (o : ROps) (s : State) :
    bootOut s.boot (execImax c o s) := by
  unfold execImax
  simp

@[simp] theorem execIabs_boot (c : Nat) (o : ROps) (s : State) :
    bootOut s.boot (execIabs c o s) := by
  unfold execIabs
  simp

@[simp] theorem execIota_boot (c : Nat) (o : ROps) (s : State) :
    bootOut s.boot (execIota c o s) := by
  unfold execIota
  simp

@[simp] theorem execAbs_boot (c : Nat) (o : ROps) (s : State) :
    bootOut s.boot (execAbs c o s) := by
  unfold execAbs
  simp

@[simp] theorem execNeg_boot (c : Nat) (o : ROps) (s : State) :
    bootOut s.boot (execNeg c o s) := by
  unfold execNeg
  simp

@[simp] theorem execMov_boot (c : Nat) (o : ROps) (s : State) :
    bootOut s.boot (execMov c o s) := by
  unfold execMov
  simp

@[simp] theorem execExpo_boot (c : Nat) (o : ROps) (s : State) :
    bootOut s.boot (execExpo c o s) := by
  unfold execExpo
  simp

@[simp] theorem execVsAdd_boot (c : Nat) (o : ROps) (s : State) :
    bootOut s.boot (execVsAdd c o s) := by
  unfold execVsAdd
  simp

@[simp] theorem execVsSub_boot (c : Nat) (o : ROps) (s : State) :
    bootOut s.boot (execVsSub c o s) := by
  unfold execVsSub
  simp

@[simp] theorem execVsMul_boot (c : Nat) (o : ROps) (s : State) :
    bootOut s.boot (execVsMul c o s) := by
  unfold execVsMul
  simp

@[simp] theorem execFma_boot (c : Nat) (o : ROps) (s : State) :
    bootOut s.boot (execFma c o s) := by
  unfold execFma
  simp

@[simp] theorem execVsMax_boot (c : Nat) (o : ROps) (s : State) :
    bootOut s.boot (execVsMax c o s) := by
  unfold execVsMax
  simp

@[simp] theorem execVsMin_boot (c : Nat) (o : ROps) (s : State) :
    bootOut s.boot (execVsMin c o s) := by
  unfold execVsMin
  simp

@[simp] theorem execVsCmpeq_boot (c : Nat) (o : ROps) (s : State) :
    bootOut s.boot (execVsCmpeq c o s) := by
  unfold execVsCmpeq
  simp

@[simp] theorem execVsCmpne_boot (c : Nat) (o : ROps) (s : State) :
    bootOut s.boot (execVsCmpne c o s) := by
  unfold execVsCmpne
  simp

@[simp] theorem execVsCmplt_boot (c : Nat) (o : ROps) (s : State) :
    bootOut s.boot (execVsCmplt c o s) := by
  unfold execVsCmplt
  simp

@[simp] theorem execVsCmple_boot (c : Nat) (o : ROps) (s : State) :
    bootOut s.boot (execVsCmple c o s) := by
  unfold execVsCmple
  simp

@[simp] theorem execVsCmpgt_boot (c : Nat) (o : ROps) (s : State) :
    bootOut s.boot (execVsCmpgt c o s) := by
  unfold execVsCmpgt
  simp

@[simp] theorem execVsCmpge_boot (c : Nat) (o : ROps) (s : State) :
    bootOut s.boot (execVsCmpge c o s) := by
  unfold execVsCmpge
  simp

@[simp] theorem execVsSel_boot (c : Nat) (o : ROps) (s : State) :
    bootOut s.boot (execVsSel c o s) := by
  unfold execVsSel
  simp

@[simp] theorem execCvt_boot (c : Nat) (o : ROps) (s : State) :
    bootOut s.boot (execCvt c o s) := by
  unfold execCvt
  simp

@[simp] theorem execScale_boot (c : Nat) (o : ROps) (s : State) :
    bootOut s.boot (execScale c o s) := by
  unfold execScale
  simp

@[simp] theorem execExpf_boot (c : Nat) (o : ROps) (s : State) :
    bootOut s.boot (execExpf c o s) := by
  unfold execExpf
  simp

@[simp] theorem execLogf_boot (c : Nat) (o : ROps) (s : State) :
    bootOut s.boot (execLogf c o s) := by
  unfold execLogf
  simp

@[simp] theorem execRcp_boot (c : Nat) (o : ROps) (s : State) :
    bootOut s.boot (execRcp c o s) := by
  unfold execRcp
  simp

@[simp] theorem execSqrt_boot (c : Nat) (o : ROps) (s : State) :
    bootOut s.boot (execSqrt c o s) := by
  unfold execSqrt
  simp

@[simp] theorem execRsqrt_boot (c : Nat) (o : ROps) (s : State) :
    bootOut s.boot (execRsqrt c o s) := by
  unfold execRsqrt
  simp

@[simp] theorem execSigmoid_boot (c : Nat) (o : ROps) (s : State) :
    bootOut s.boot (execSigmoid c o s) := by
  unfold execSigmoid
  simp

@[simp] theorem execTanh_boot (c : Nat) (o : ROps) (s : State) :
    bootOut s.boot (execTanh c o s) := by
  unfold execTanh
  simp

@[simp] theorem execSoftplus_boot (c : Nat) (o : ROps) (s : State) :
    bootOut s.boot (execSoftplus c o s) := by
  unfold execSoftplus
  simp

@[simp] theorem execGelu_boot (c : Nat) (o : ROps) (s : State) :
    bootOut s.boot (execGelu c o s) := by
  unfold execGelu
  simp

@[simp] theorem execSilu_boot (c : Nat) (o : ROps) (s : State) :
    bootOut s.boot (execSilu c o s) := by
  unfold execSilu
  simp

@[simp] theorem execDRelu_boot (c : Nat) (o : ROps) (s : State) :
    bootOut s.boot (execDRelu c o s) := by
  unfold execDRelu
  simp

@[simp] theorem execDLrelu_boot (c : Nat) (o : ROps) (s : State) :
    bootOut s.boot (execDLrelu c o s) := by
  unfold execDLrelu
  simp

@[simp] theorem execDSigmoid_boot (c : Nat) (o : ROps) (s : State) :
    bootOut s.boot (execDSigmoid c o s) := by
  unfold execDSigmoid
  simp

@[simp] theorem execDTanh_boot (c : Nat) (o : ROps) (s : State) :
    bootOut s.boot (execDTanh c o s) := by
  unfold execDTanh
  simp

@[simp] theorem execDSoftplus_boot (c : Nat) (o : ROps) (s : State) :
    bootOut s.boot (execDSoftplus c o s) := by
  unfold execDSoftplus
  simp

@[simp] theorem execDElu_boot (c : Nat) (o : ROps) (s : State) :
    bootOut s.boot (execDElu c o s) := by
  unfold execDElu
  simp

@[simp] theorem execDExp_boot (c : Nat) (o : ROps) (s : State) :
    bootOut s.boot (execDExp c o s) := by
  unfold execDExp
  simp

@[simp] theorem execDGelu_boot (c : Nat) (o : ROps) (s : State) :
    bootOut s.boot (execDGelu c o s) := by
  unfold execDGelu
  simp

@[simp] theorem execDSilu_boot (c : Nat) (o : ROps) (s : State) :
    bootOut s.boot (execDSilu c o s) := by
  unfold execDSilu
  simp

@[simp] theorem execRsum_boot (c : Nat) (o : ROps) (s : State) :
    bootOut s.boot (execRsum c o s) := by
  unfold execRsum
  simp

@[simp] theorem execRprod_boot (c : Nat) (o : ROps) (s : State) :
    bootOut s.boot (execRprod c o s) := by
  unfold execRprod
  simp

@[simp] theorem execRmax_boot (c : Nat) (o : ROps) (s : State) :
    bootOut s.boot (execRmax c o s) := by
  unfold execRmax
  simp

@[simp] theorem execRmin_boot (c : Nat) (o : ROps) (s : State) :
    bootOut s.boot (execRmin c o s) := by
  unfold execRmin
  simp

@[simp] theorem execRargmax_boot (c : Nat) (o : ROps) (s : State) :
    bootOut s.boot (execRargmax c o s) := by
  unfold execRargmax
  simp

@[simp] theorem execRargmin_boot (c : Nat) (o : ROps) (s : State) :
    bootOut s.boot (execRargmin c o s) := by
  unfold execRargmin
  simp

@[simp] theorem execRcnt_boot (c : Nat) (o : ROps) (s : State) :
    bootOut s.boot (execRcnt c o s) := by
  unfold execRcnt
  simp

@[simp] theorem execRmean_boot (c : Nat) (o : ROps) (s : State) :
    bootOut s.boot (execRmean c o s) := by
  unfold execRmean
  simp

@[simp] theorem execCompress_boot (c : Nat) (o : ROps) (s : State) :
    bootOut s.boot (execCompress c o s) := by
  unfold execCompress
  simp

@[simp] theorem execExpand_boot (c : Nat) (o : ROps) (s : State) :
    bootOut s.boot (execExpand c o s) := by
  unfold execExpand
  simp

end Sys2Proof.Machine
end

