-- ==== Sys2Proof/Laws/Sparse.lean ====
section
/-! SUPPORT. Laws of sparse tables and byte memories: a read after a write, other keys untouched, and the canonical form
kept by every operation. -/

namespace Sys2Proof.Machine

variable {V : Type}

theorem tabGet_tabPut (d : Nat → V) (m : List (Nat × V)) (k j : Nat) (v : V) :
    tabGet d (tabPut k v m) j = if j = k then v else tabGet d m j := by
  induction m with
  | nil => simp [tabPut, tabGet]
  | cons p m ih =>
    simp only [tabPut]
    split
    · simp [tabGet]
    · split
      · next h => subst h; simp only [tabGet]; split <;> rfl
      · simp only [tabGet, ih]; split
        · next h1 h2 => subst h2; rw [if_neg (by omega)]
        · rfl

theorem tabGet_tabDel (d : Nat → V) (m : List (Nat × V)) (k j : Nat) :
    tabGet d (tabDel k m) j = if j = k then d k else tabGet d m j := by
  unfold tabDel
  induction m with
  | nil => simp only [List.filter_nil, tabGet]; split <;> simp_all
  | cons p m ih =>
    by_cases hp : p.1 = k
    · rw [List.filter_cons_of_neg (by simp [hp]), ih]
      split
      · rfl
      · next h => rw [tabGet, if_neg (by rw [hp]; exact h)]
    · rw [List.filter_cons_of_pos (by simp [hp])]
      simp only [tabGet, ih]
      split
      · next h => subst h; rw [if_neg hp]
      · rfl

/-- A read after a write: the value written at its key, the old value at any other. -/
@[simp] theorem tabGet_tabSet [DecidableEq V] (d : Nat → V) (m : List (Nat × V)) (k j : Nat) (v : V) :
    tabGet d (tabSet d m k v) j = if j = k then v else tabGet d m j := by
  unfold tabSet
  split
  · next h => rw [tabGet_tabDel]; subst h; rfl
  · exact tabGet_tabPut ..

/-! ### The canonical form -/

theorem tabSorted_filter (p : Nat × V → Bool) : ∀ (b : Option Nat) (m : List (Nat × V)),
    tabSorted b m = true → tabSorted b (m.filter p) = true := by
  have weak : ∀ (m : List (Nat × V)) (a b : Nat), a < b → tabSorted (some b) m = true → tabSorted (some a) m = true := by
    intro m a b hab h
    cases m with
    | nil => rfl
    | cons q m => simp only [tabSorted, Bool.and_eq_true, decide_eq_true_eq] at h ⊢; exact ⟨by omega, h.2⟩
  intro b m
  induction m generalizing b with
  | nil => intro _; cases b <;> rfl
  | cons q m ih =>
    intro h
    by_cases hq : p q = true
    · rw [List.filter_cons_of_pos hq]
      cases b with
      | none => simpa only [tabSorted] using ih _ h
      | some b =>
        simp only [tabSorted, Bool.and_eq_true] at h ⊢
        exact ⟨h.1, ih _ h.2⟩
    · rw [List.filter_cons_of_neg hq]
      cases b with
      | none =>
        have h1 := ih _ (show tabSorted (some q.1) m = true from h)
        generalize m.filter p = l at h1 ⊢
        cases l with
        | nil => rfl
        | cons r l => simp only [tabSorted, Bool.and_eq_true] at h1 ⊢; exact h1.2
      | some b =>
        simp only [tabSorted, Bool.and_eq_true, decide_eq_true_eq] at h
        exact weak _ _ _ h.1 (ih _ h.2)

theorem tabSorted_tabPut (k : Nat) (v : V) : ∀ (b : Option Nat) (m : List (Nat × V)),
    (∀ x, b = some x → x < k) → tabSorted b m = true → tabSorted b (tabPut k v m) = true := by
  intro b m
  induction m generalizing b with
  | nil =>
    intro hb _
    cases b with
    | none => rfl
    | some b => simp [tabPut, tabSorted, hb b rfl]
  | cons q m ih =>
    intro hb h
    have h2 : tabSorted (some q.1) m = true := by
      cases b with
      | none => exact h
      | some b => simp only [tabSorted, Bool.and_eq_true] at h; exact h.2
    simp only [tabPut]
    split
    · next hk =>
      cases b with
      | none => simp only [tabSorted, Bool.and_eq_true, decide_eq_true_eq]; exact ⟨hk, h2⟩
      | some b => simp only [tabSorted, Bool.and_eq_true, decide_eq_true_eq]; exact ⟨hb b rfl, hk, h2⟩
    · split
      · next _ hk =>
        cases b with
        | none => subst hk; exact h2
        | some b =>
          simp only [tabSorted, Bool.and_eq_true, decide_eq_true_eq]; subst hk; exact ⟨hb b rfl, h2⟩
      · next hk1 hk2 =>
        have h3 := ih (some q.1) (by intro x hx; cases hx; omega) h2
        cases b with
        | none => exact h3
        | some b =>
          simp only [tabSorted, Bool.and_eq_true] at h ⊢
          exact ⟨h.1, h3⟩

theorem mem_tabPut (k : Nat) (v : V) (m : List (Nat × V)) (p : Nat × V) (h : p ∈ tabPut k v m) :
    p = (k, v) ∨ p ∈ m := by
  induction m with
  | nil => simpa [tabPut] using h
  | cons q m ih =>
    simp only [tabPut] at h
    split at h
    · simpa using h
    · split at h
      · simp only [List.mem_cons] at h ⊢; tauto
      · simp only [List.mem_cons] at h ⊢
        rcases h with h | h
        · tauto
        · rcases ih h with h | h <;> tauto

theorem tabWf_filter [DecidableEq V] {d : Nat → V} {m : List (Nat × V)} (p : Nat × V → Bool)
    (h : tabWf d m = true) : tabWf d (m.filter p) = true := by
  simp only [tabWf, Bool.and_eq_true, List.all_eq_true] at h ⊢
  exact ⟨tabSorted_filter p _ _ h.1, fun x hx => h.2 x (List.mem_of_mem_filter hx)⟩

/-- A write keeps the canonical form. -/
theorem tabWf_tabSet [DecidableEq V] {d : Nat → V} {m : List (Nat × V)} (k : Nat) (v : V)
    (h : tabWf d m = true) : tabWf d (tabSet d m k v) = true := by
  unfold tabSet
  split
  · exact tabWf_filter _ h
  · next hv =>
    simp only [tabWf, Bool.and_eq_true, List.all_eq_true] at h ⊢
    refine ⟨tabSorted_tabPut k v none m (by simp) h.1, fun p hp => ?_⟩
    rcases mem_tabPut k v m p hp with rfl | hp
    · simpa using hv
    · exact h.2 p hp

/-! ### Byte memories -/

theorem memWrite_wf {m : List (Nat × Byte)} (a : Nat) (bs : List Byte) (h : Memory.wf m = true) :
    Memory.wf (memWrite m a bs) = true := by
  induction bs generalizing m a with
  | nil => exact h
  | cons b bs ih => exact ih _ (tabWf_tabSet _ _ h)

theorem memClear_wf {m : List (Nat × Byte)} (lo hi : Nat) (h : Memory.wf m = true) :
    Memory.wf (memClear m lo hi) = true := tabWf_filter _ h

theorem memFilter_wf {m : List (Nat × Byte)} (p : Nat × Byte → Bool) (h : Memory.wf m = true) :
    Memory.wf (m.filter p) = true := tabWf_filter _ h

/-- A byte after a write: the byte written inside, the old byte outside. -/
theorem memByte_memWrite (m : List (Nat × Byte)) (a x : Nat) (bs : List Byte) :
    memByte (memWrite m a bs) x =
      if a ≤ x ∧ x < a + bs.length then bs.getD (x - a) 0 else memByte m x := by
  induction bs generalizing m a with
  | nil => simp only [memWrite, List.length_nil]; rw [if_neg (by omega)]
  | cons b bs ih =>
    simp only [memWrite, ih, List.length_cons]
    by_cases hx : x = a
    · subst hx
      rw [if_neg (by omega), if_pos (by omega)]
      simp [memByte]
    · by_cases h : a + 1 ≤ x ∧ x < a + 1 + bs.length
      · rw [if_pos h, if_pos (by omega)]
        obtain ⟨n, hn⟩ : ∃ n, x - a = n + 1 := ⟨x - a - 1, by omega⟩
        rw [hn, show x - (a + 1) = n by omega]; rfl
      · rw [if_neg h, if_neg (by omega)]
        simp [memByte, hx]

theorem memByte_outside (m : List (Nat × Byte)) (a x : Nat) (bs : List Byte) (h : x < a ∨ a + bs.length ≤ x) :
    memByte (memWrite m a bs) x = memByte m x := by
  rw [memByte_memWrite, if_neg (by omega)]

theorem tabGet_filter (d : Nat → V) (m : List (Nat × V)) (p : Nat → Bool) (j : Nat) :
    tabGet d (m.filter (fun q => p q.1)) j = if p j then tabGet d m j else d j := by
  induction m with
  | nil => simp [tabGet]
  | cons q m ih =>
    by_cases hq : p q.1 = true
    · rw [List.filter_cons_of_pos (by exact hq)]
      simp only [tabGet, ih]
      split
      · next h => subst h; rw [if_pos hq]
      · rfl
    · rw [List.filter_cons_of_neg (by exact hq), ih]
      split
      · next h =>
        rw [tabGet, if_neg]
        intro e; subst e; exact hq h
      · rfl

theorem memByte_memClear (m : List (Nat × Byte)) (lo hi x : Nat) :
    memByte (memClear m lo hi) x = if lo ≤ x ∧ x < hi then 0 else memByte m x := by
  have h := tabGet_filter zeroByte m (fun a => decide (a < lo) || decide (hi ≤ a)) x
  unfold memByte memClear
  simp only [decide_eq_true_eq, Bool.or_eq_true] at h ⊢
  rw [h]
  by_cases hx : lo ≤ x ∧ x < hi
  · rw [if_neg (by omega), if_pos hx]; rfl
  · rw [if_pos (by omega), if_neg hx]

@[simp] theorem memBytes_length (m : List (Nat × Byte)) (a n : Nat) : (memBytes m a n).length = n := by
  simp [memBytes]

@[simp] theorem leBytes_length (n v : Nat) : (leBytes n v).length = n := by
  induction n generalizing v with
  | zero => rfl
  | succ n ih => simp [leBytes, ih]

/-- Little-endian bytes hold their number. -/
theorem leNat_leBytes (n v : Nat) : leNat (leBytes n v) = v % 256 ^ n := by
  induction n generalizing v with
  | zero => simp [leBytes, leNat, Nat.mod_one]
  | succ n ih =>
    simp only [leBytes, leNat, ih, BitVec.toNat_ofNat]
    rw [show (256 : Nat) ^ (n + 1) = 256 * 256 ^ n from Nat.pow_succ', Nat.mod_mul]

end Sys2Proof.Machine
end

