-- ==== Sys2Proof/Laws/State.lean ====
section
/-! SUPPORT. Laws of the state: each update leaves every other field as it is (the boot state: Laws/BootOf…), and each
read after a write gives the value written at its place and the old value elsewhere. -/

namespace Sys2Proof.Machine

/-! ### Updates and the fields they leave -/

@[simp] theorem State.setReg_pitch (s : State) (off : Nat) (v : W32) : (s.setReg off v).pitch = s.pitch := rfl
@[simp] theorem State.setReg_frozen (s : State) (off : Nat) (v : W32) : (s.setReg off v).frozen = s.frozen := rfl
@[simp] theorem State.setReg_latched (s : State) (off : Nat) (v : W32) : (s.setReg off v).latched = s.latched := rfl
@[simp] theorem State.setReg_pit (s : State) (off : Nat) (v : W32) : (s.setReg off v).pit = s.pit := rfl
@[simp] theorem State.setReg_step (s : State) (off : Nat) (v : W32) : (s.setReg off v).step = s.step := rfl
@[simp] theorem State.setReg_cells (s : State) (off : Nat) (v : W32) : (s.setReg off v).cells = s.cells := rfl
@[simp] theorem State.setReg_spad (s : State) (off : Nat) (v : W32) : (s.setReg off v).spad = s.spad := rfl
@[simp] theorem State.setReg_spadErr (s : State) (off : Nat) (v : W32) : (s.setReg off v).spadErr = s.spadErr := rfl
@[simp] theorem State.setReg_spadCe (s : State) (off : Nat) (v : W32) : (s.setReg off v).spadCe = s.spadCe := rfl
@[simp] theorem State.setReg_hbm (s : State) (off : Nat) (v : W32) : (s.setReg off v).hbm = s.hbm := rfl
@[simp] theorem State.setReg_hbmErr (s : State) (off : Nat) (v : W32) : (s.setReg off v).hbmErr = s.hbmErr := rfl
@[simp] theorem State.setReg_hbmCe (s : State) (off : Nat) (v : W32) : (s.setReg off v).hbmCe = s.hbmCe := rfl
@[simp] theorem State.setReg_gss (s : State) (off : Nat) (v : W32) : (s.setReg off v).gss = s.gss := rfl
@[simp] theorem State.setReg_cus (s : State) (off : Nat) (v : W32) : (s.setReg off v).cus = s.cus := rfl
@[simp] theorem State.setReg_pool (s : State) (off : Nat) (v : W32) : (s.setReg off v).pool = s.pool := rfl
@[simp] theorem State.setReg_fab (s : State) (off : Nat) (v : W32) : (s.setReg off v).fab = s.fab := rfl
@[simp] theorem State.setReg_pwr (s : State) (off : Nat) (v : W32) : (s.setReg off v).pwr = s.pwr := rfl
@[simp] theorem State.setReg_host (s : State) (off : Nat) (v : W32) : (s.setReg off v).host = s.host := rfl
@[simp] theorem State.setReg_rst (s : State) (off : Nat) (v : W32) : (s.setReg off v).rst = s.rst := rfl
@[simp] theorem State.setReg_rate (s : State) (off : Nat) (v : W32) : (s.setReg off v).rate = s.rate := rfl
@[simp] theorem State.setReg_out (s : State) (off : Nat) (v : W32) : (s.setReg off v).out = s.out := rfl
@[simp] theorem State.setReg_parked (s : State) (off : Nat) (v : W32) : (s.setReg off v).parked = s.parked := rfl
@[simp] theorem State.setReg_free (s : State) (off : Nat) (v : W32) : (s.setReg off v).free = s.free := rfl
@[simp] theorem State.setReg_pending (s : State) (off : Nat) (v : W32) : (s.setReg off v).pending = s.pending := rfl

@[simp] theorem State.setFld_pitch (s : State) (off lo w v : Nat) : (s.setFld off lo w v).pitch = s.pitch := rfl
@[simp] theorem State.setFld_frozen (s : State) (off lo w v : Nat) : (s.setFld off lo w v).frozen = s.frozen := rfl
@[simp] theorem State.setFld_latched (s : State) (off lo w v : Nat) : (s.setFld off lo w v).latched = s.latched := rfl
@[simp] theorem State.setFld_pit (s : State) (off lo w v : Nat) : (s.setFld off lo w v).pit = s.pit := rfl
@[simp] theorem State.setFld_step (s : State) (off lo w v : Nat) : (s.setFld off lo w v).step = s.step := rfl
@[simp] theorem State.setFld_cells (s : State) (off lo w v : Nat) : (s.setFld off lo w v).cells = s.cells := rfl
@[simp] theorem State.setFld_spad (s : State) (off lo w v : Nat) : (s.setFld off lo w v).spad = s.spad := rfl
@[simp] theorem State.setFld_spadErr (s : State) (off lo w v : Nat) : (s.setFld off lo w v).spadErr = s.spadErr := rfl
@[simp] theorem State.setFld_spadCe (s : State) (off lo w v : Nat) : (s.setFld off lo w v).spadCe = s.spadCe := rfl
@[simp] theorem State.setFld_hbm (s : State) (off lo w v : Nat) : (s.setFld off lo w v).hbm = s.hbm := rfl
@[simp] theorem State.setFld_hbmErr (s : State) (off lo w v : Nat) : (s.setFld off lo w v).hbmErr = s.hbmErr := rfl
@[simp] theorem State.setFld_hbmCe (s : State) (off lo w v : Nat) : (s.setFld off lo w v).hbmCe = s.hbmCe := rfl
@[simp] theorem State.setFld_gss (s : State) (off lo w v : Nat) : (s.setFld off lo w v).gss = s.gss := rfl
@[simp] theorem State.setFld_cus (s : State) (off lo w v : Nat) : (s.setFld off lo w v).cus = s.cus := rfl
@[simp] theorem State.setFld_pool (s : State) (off lo w v : Nat) : (s.setFld off lo w v).pool = s.pool := rfl
@[simp] theorem State.setFld_fab (s : State) (off lo w v : Nat) : (s.setFld off lo w v).fab = s.fab := rfl
@[simp] theorem State.setFld_pwr (s : State) (off lo w v : Nat) : (s.setFld off lo w v).pwr = s.pwr := rfl
@[simp] theorem State.setFld_host (s : State) (off lo w v : Nat) : (s.setFld off lo w v).host = s.host := rfl
@[simp] theorem State.setFld_rst (s : State) (off lo w v : Nat) : (s.setFld off lo w v).rst = s.rst := rfl
@[simp] theorem State.setFld_rate (s : State) (off lo w v : Nat) : (s.setFld off lo w v).rate = s.rate := rfl
@[simp] theorem State.setFld_out (s : State) (off lo w v : Nat) : (s.setFld off lo w v).out = s.out := rfl
@[simp] theorem State.setFld_parked (s : State) (off lo w v : Nat) : (s.setFld off lo w v).parked = s.parked := rfl
@[simp] theorem State.setFld_free (s : State) (off lo w v : Nat) : (s.setFld off lo w v).free = s.free := rfl
@[simp] theorem State.setFld_pending (s : State) (off lo w v : Nat) : (s.setFld off lo w v).pending = s.pending := rfl

@[simp] theorem State.bumpFld_pitch (s : State) (off lo w n : Nat) : (s.bumpFld off lo w n).pitch = s.pitch := rfl
@[simp] theorem State.bumpFld_frozen (s : State) (off lo w n : Nat) : (s.bumpFld off lo w n).frozen = s.frozen := rfl
@[simp] theorem State.bumpFld_latched (s : State) (off lo w n : Nat) : (s.bumpFld off lo w n).latched = s.latched := rfl
@[simp] theorem State.bumpFld_pit (s : State) (off lo w n : Nat) : (s.bumpFld off lo w n).pit = s.pit := rfl
@[simp] theorem State.bumpFld_step (s : State) (off lo w n : Nat) : (s.bumpFld off lo w n).step = s.step := rfl
@[simp] theorem State.bumpFld_cells (s : State) (off lo w n : Nat) : (s.bumpFld off lo w n).cells = s.cells := rfl
@[simp] theorem State.bumpFld_spad (s : State) (off lo w n : Nat) : (s.bumpFld off lo w n).spad = s.spad := rfl
@[simp] theorem State.bumpFld_spadErr (s : State) (off lo w n : Nat) : (s.bumpFld off lo w n).spadErr = s.spadErr := rfl
@[simp] theorem State.bumpFld_spadCe (s : State) (off lo w n : Nat) : (s.bumpFld off lo w n).spadCe = s.spadCe := rfl
@[simp] theorem State.bumpFld_hbm (s : State) (off lo w n : Nat) : (s.bumpFld off lo w n).hbm = s.hbm := rfl
@[simp] theorem State.bumpFld_hbmErr (s : State) (off lo w n : Nat) : (s.bumpFld off lo w n).hbmErr = s.hbmErr := rfl
@[simp] theorem State.bumpFld_hbmCe (s : State) (off lo w n : Nat) : (s.bumpFld off lo w n).hbmCe = s.hbmCe := rfl
@[simp] theorem State.bumpFld_gss (s : State) (off lo w n : Nat) : (s.bumpFld off lo w n).gss = s.gss := rfl
@[simp] theorem State.bumpFld_cus (s : State) (off lo w n : Nat) : (s.bumpFld off lo w n).cus = s.cus := rfl
@[simp] theorem State.bumpFld_pool (s : State) (off lo w n : Nat) : (s.bumpFld off lo w n).pool = s.pool := rfl
@[simp] theorem State.bumpFld_fab (s : State) (off lo w n : Nat) : (s.bumpFld off lo w n).fab = s.fab := rfl
@[simp] theorem State.bumpFld_pwr (s : State) (off lo w n : Nat) : (s.bumpFld off lo w n).pwr = s.pwr := rfl
@[simp] theorem State.bumpFld_host (s : State) (off lo w n : Nat) : (s.bumpFld off lo w n).host = s.host := rfl
@[simp] theorem State.bumpFld_rst (s : State) (off lo w n : Nat) : (s.bumpFld off lo w n).rst = s.rst := rfl
@[simp] theorem State.bumpFld_rate (s : State) (off lo w n : Nat) : (s.bumpFld off lo w n).rate = s.rate := rfl
@[simp] theorem State.bumpFld_out (s : State) (off lo w n : Nat) : (s.bumpFld off lo w n).out = s.out := rfl
@[simp] theorem State.bumpFld_parked (s : State) (off lo w n : Nat) : (s.bumpFld off lo w n).parked = s.parked := rfl
@[simp] theorem State.bumpFld_free (s : State) (off lo w n : Nat) : (s.bumpFld off lo w n).free = s.free := rfl
@[simp] theorem State.bumpFld_pending (s : State) (off lo w n : Nat) : (s.bumpFld off lo w n).pending = s.pending := rfl

@[simp] theorem State.bumpBy_pitch (s : State) (off n : Nat) : (s.bumpBy off n).pitch = s.pitch := rfl
@[simp] theorem State.bumpBy_frozen (s : State) (off n : Nat) : (s.bumpBy off n).frozen = s.frozen := rfl
@[simp] theorem State.bumpBy_latched (s : State) (off n : Nat) : (s.bumpBy off n).latched = s.latched := rfl
@[simp] theorem State.bumpBy_pit (s : State) (off n : Nat) : (s.bumpBy off n).pit = s.pit := rfl
@[simp] theorem State.bumpBy_step (s : State) (off n : Nat) : (s.bumpBy off n).step = s.step := rfl
@[simp] theorem State.bumpBy_cells (s : State) (off n : Nat) : (s.bumpBy off n).cells = s.cells := rfl
@[simp] theorem State.bumpBy_spad (s : State) (off n : Nat) : (s.bumpBy off n).spad = s.spad := rfl
@[simp] theorem State.bumpBy_spadErr (s : State) (off n : Nat) : (s.bumpBy off n).spadErr = s.spadErr := rfl
@[simp] theorem State.bumpBy_spadCe (s : State) (off n : Nat) : (s.bumpBy off n).spadCe = s.spadCe := rfl
@[simp] theorem State.bumpBy_hbm (s : State) (off n : Nat) : (s.bumpBy off n).hbm = s.hbm := rfl
@[simp] theorem State.bumpBy_hbmErr (s : State) (off n : Nat) : (s.bumpBy off n).hbmErr = s.hbmErr := rfl
@[simp] theorem State.bumpBy_hbmCe (s : State) (off n : Nat) : (s.bumpBy off n).hbmCe = s.hbmCe := rfl
@[simp] theorem State.bumpBy_gss (s : State) (off n : Nat) : (s.bumpBy off n).gss = s.gss := rfl
@[simp] theorem State.bumpBy_cus (s : State) (off n : Nat) : (s.bumpBy off n).cus = s.cus := rfl
@[simp] theorem State.bumpBy_pool (s : State) (off n : Nat) : (s.bumpBy off n).pool = s.pool := rfl
@[simp] theorem State.bumpBy_fab (s : State) (off n : Nat) : (s.bumpBy off n).fab = s.fab := rfl
@[simp] theorem State.bumpBy_pwr (s : State) (off n : Nat) : (s.bumpBy off n).pwr = s.pwr := rfl
@[simp] theorem State.bumpBy_host (s : State) (off n : Nat) : (s.bumpBy off n).host = s.host := rfl
@[simp] theorem State.bumpBy_rst (s : State) (off n : Nat) : (s.bumpBy off n).rst = s.rst := rfl
@[simp] theorem State.bumpBy_rate (s : State) (off n : Nat) : (s.bumpBy off n).rate = s.rate := rfl
@[simp] theorem State.bumpBy_out (s : State) (off n : Nat) : (s.bumpBy off n).out = s.out := rfl
@[simp] theorem State.bumpBy_parked (s : State) (off n : Nat) : (s.bumpBy off n).parked = s.parked := rfl
@[simp] theorem State.bumpBy_free (s : State) (off n : Nat) : (s.bumpBy off n).free = s.free := rfl
@[simp] theorem State.bumpBy_pending (s : State) (off n : Nat) : (s.bumpBy off n).pending = s.pending := rfl

@[simp] theorem State.bump_pitch (s : State) (off : Nat) : (s.bump off).pitch = s.pitch := rfl
@[simp] theorem State.bump_frozen (s : State) (off : Nat) : (s.bump off).frozen = s.frozen := rfl
@[simp] theorem State.bump_latched (s : State) (off : Nat) : (s.bump off).latched = s.latched := rfl
@[simp] theorem State.bump_pit (s : State) (off : Nat) : (s.bump off).pit = s.pit := rfl
@[simp] theorem State.bump_step (s : State) (off : Nat) : (s.bump off).step = s.step := rfl
@[simp] theorem State.bump_cells (s : State) (off : Nat) : (s.bump off).cells = s.cells := rfl
@[simp] theorem State.bump_spad (s : State) (off : Nat) : (s.bump off).spad = s.spad := rfl
@[simp] theorem State.bump_spadErr (s : State) (off : Nat) : (s.bump off).spadErr = s.spadErr := rfl
@[simp] theorem State.bump_spadCe (s : State) (off : Nat) : (s.bump off).spadCe = s.spadCe := rfl
@[simp] theorem State.bump_hbm (s : State) (off : Nat) : (s.bump off).hbm = s.hbm := rfl
@[simp] theorem State.bump_hbmErr (s : State) (off : Nat) : (s.bump off).hbmErr = s.hbmErr := rfl
@[simp] theorem State.bump_hbmCe (s : State) (off : Nat) : (s.bump off).hbmCe = s.hbmCe := rfl
@[simp] theorem State.bump_gss (s : State) (off : Nat) : (s.bump off).gss = s.gss := rfl
@[simp] theorem State.bump_cus (s : State) (off : Nat) : (s.bump off).cus = s.cus := rfl
@[simp] theorem State.bump_pool (s : State) (off : Nat) : (s.bump off).pool = s.pool := rfl
@[simp] theorem State.bump_fab (s : State) (off : Nat) : (s.bump off).fab = s.fab := rfl
@[simp] theorem State.bump_pwr (s : State) (off : Nat) : (s.bump off).pwr = s.pwr := rfl
@[simp] theorem State.bump_host (s : State) (off : Nat) : (s.bump off).host = s.host := rfl
@[simp] theorem State.bump_rst (s : State) (off : Nat) : (s.bump off).rst = s.rst := rfl
@[simp] theorem State.bump_rate (s : State) (off : Nat) : (s.bump off).rate = s.rate := rfl
@[simp] theorem State.bump_out (s : State) (off : Nat) : (s.bump off).out = s.out := rfl
@[simp] theorem State.bump_parked (s : State) (off : Nat) : (s.bump off).parked = s.parked := rfl
@[simp] theorem State.bump_free (s : State) (off : Nat) : (s.bump off).free = s.free := rfl
@[simp] theorem State.bump_pending (s : State) (off : Nat) : (s.bump off).pending = s.pending := rfl

@[simp] theorem State.setReg64_pitch (s : State) (lo hi v : Nat) : (s.setReg64 lo hi v).pitch = s.pitch := rfl
@[simp] theorem State.setReg64_frozen (s : State) (lo hi v : Nat) : (s.setReg64 lo hi v).frozen = s.frozen := rfl
@[simp] theorem State.setReg64_latched (s : State) (lo hi v : Nat) : (s.setReg64 lo hi v).latched = s.latched := rfl
@[simp] theorem State.setReg64_pit (s : State) (lo hi v : Nat) : (s.setReg64 lo hi v).pit = s.pit := rfl
@[simp] theorem State.setReg64_step (s : State) (lo hi v : Nat) : (s.setReg64 lo hi v).step = s.step := rfl
@[simp] theorem State.setReg64_cells (s : State) (lo hi v : Nat) : (s.setReg64 lo hi v).cells = s.cells := rfl
@[simp] theorem State.setReg64_spad (s : State) (lo hi v : Nat) : (s.setReg64 lo hi v).spad = s.spad := rfl
@[simp] theorem State.setReg64_spadErr (s : State) (lo hi v : Nat) : (s.setReg64 lo hi v).spadErr = s.spadErr := rfl
@[simp] theorem State.setReg64_spadCe (s : State) (lo hi v : Nat) : (s.setReg64 lo hi v).spadCe = s.spadCe := rfl
@[simp] theorem State.setReg64_hbm (s : State) (lo hi v : Nat) : (s.setReg64 lo hi v).hbm = s.hbm := rfl
@[simp] theorem State.setReg64_hbmErr (s : State) (lo hi v : Nat) : (s.setReg64 lo hi v).hbmErr = s.hbmErr := rfl
@[simp] theorem State.setReg64_hbmCe (s : State) (lo hi v : Nat) : (s.setReg64 lo hi v).hbmCe = s.hbmCe := rfl
@[simp] theorem State.setReg64_gss (s : State) (lo hi v : Nat) : (s.setReg64 lo hi v).gss = s.gss := rfl
@[simp] theorem State.setReg64_cus (s : State) (lo hi v : Nat) : (s.setReg64 lo hi v).cus = s.cus := rfl
@[simp] theorem State.setReg64_pool (s : State) (lo hi v : Nat) : (s.setReg64 lo hi v).pool = s.pool := rfl
@[simp] theorem State.setReg64_fab (s : State) (lo hi v : Nat) : (s.setReg64 lo hi v).fab = s.fab := rfl
@[simp] theorem State.setReg64_pwr (s : State) (lo hi v : Nat) : (s.setReg64 lo hi v).pwr = s.pwr := rfl
@[simp] theorem State.setReg64_host (s : State) (lo hi v : Nat) : (s.setReg64 lo hi v).host = s.host := rfl
@[simp] theorem State.setReg64_rst (s : State) (lo hi v : Nat) : (s.setReg64 lo hi v).rst = s.rst := rfl
@[simp] theorem State.setReg64_rate (s : State) (lo hi v : Nat) : (s.setReg64 lo hi v).rate = s.rate := rfl
@[simp] theorem State.setReg64_out (s : State) (lo hi v : Nat) : (s.setReg64 lo hi v).out = s.out := rfl
@[simp] theorem State.setReg64_parked (s : State) (lo hi v : Nat) : (s.setReg64 lo hi v).parked = s.parked := rfl
@[simp] theorem State.setReg64_free (s : State) (lo hi v : Nat) : (s.setReg64 lo hi v).free = s.free := rfl
@[simp] theorem State.setReg64_pending (s : State) (lo hi v : Nat) : (s.setReg64 lo hi v).pending = s.pending := rfl

@[simp] theorem State.setCell_pitch (s : State) (c : Nat) (v : Cell) : (s.setCell c v).pitch = s.pitch := rfl
@[simp] theorem State.setCell_regs (s : State) (c : Nat) (v : Cell) : (s.setCell c v).regs = s.regs := rfl
@[simp] theorem State.setCell_frozen (s : State) (c : Nat) (v : Cell) : (s.setCell c v).frozen = s.frozen := rfl
@[simp] theorem State.setCell_latched (s : State) (c : Nat) (v : Cell) : (s.setCell c v).latched = s.latched := rfl
@[simp] theorem State.setCell_pit (s : State) (c : Nat) (v : Cell) : (s.setCell c v).pit = s.pit := rfl
@[simp] theorem State.setCell_step (s : State) (c : Nat) (v : Cell) : (s.setCell c v).step = s.step := rfl
@[simp] theorem State.setCell_spad (s : State) (c : Nat) (v : Cell) : (s.setCell c v).spad = s.spad := rfl
@[simp] theorem State.setCell_spadErr (s : State) (c : Nat) (v : Cell) : (s.setCell c v).spadErr = s.spadErr := rfl
@[simp] theorem State.setCell_spadCe (s : State) (c : Nat) (v : Cell) : (s.setCell c v).spadCe = s.spadCe := rfl
@[simp] theorem State.setCell_hbm (s : State) (c : Nat) (v : Cell) : (s.setCell c v).hbm = s.hbm := rfl
@[simp] theorem State.setCell_hbmErr (s : State) (c : Nat) (v : Cell) : (s.setCell c v).hbmErr = s.hbmErr := rfl
@[simp] theorem State.setCell_hbmCe (s : State) (c : Nat) (v : Cell) : (s.setCell c v).hbmCe = s.hbmCe := rfl
@[simp] theorem State.setCell_gss (s : State) (c : Nat) (v : Cell) : (s.setCell c v).gss = s.gss := rfl
@[simp] theorem State.setCell_cus (s : State) (c : Nat) (v : Cell) : (s.setCell c v).cus = s.cus := rfl
@[simp] theorem State.setCell_pool (s : State) (c : Nat) (v : Cell) : (s.setCell c v).pool = s.pool := rfl
@[simp] theorem State.setCell_fab (s : State) (c : Nat) (v : Cell) : (s.setCell c v).fab = s.fab := rfl
@[simp] theorem State.setCell_pwr (s : State) (c : Nat) (v : Cell) : (s.setCell c v).pwr = s.pwr := rfl
@[simp] theorem State.setCell_host (s : State) (c : Nat) (v : Cell) : (s.setCell c v).host = s.host := rfl
@[simp] theorem State.setCell_rst (s : State) (c : Nat) (v : Cell) : (s.setCell c v).rst = s.rst := rfl
@[simp] theorem State.setCell_rate (s : State) (c : Nat) (v : Cell) : (s.setCell c v).rate = s.rate := rfl
@[simp] theorem State.setCell_out (s : State) (c : Nat) (v : Cell) : (s.setCell c v).out = s.out := rfl
@[simp] theorem State.setCell_parked (s : State) (c : Nat) (v : Cell) : (s.setCell c v).parked = s.parked := rfl
@[simp] theorem State.setCell_free (s : State) (c : Nat) (v : Cell) : (s.setCell c v).free = s.free := rfl
@[simp] theorem State.setCell_pending (s : State) (c : Nat) (v : Cell) : (s.setCell c v).pending = s.pending := rfl

@[simp] theorem State.mapCells_pitch (s : State) (f : Cell → Cell) : (s.mapCells f).pitch = s.pitch := rfl
@[simp] theorem State.mapCells_regs (s : State) (f : Cell → Cell) : (s.mapCells f).regs = s.regs := rfl
@[simp] theorem State.mapCells_frozen (s : State) (f : Cell → Cell) : (s.mapCells f).frozen = s.frozen := rfl
@[simp] theorem State.mapCells_latched (s : State) (f : Cell → Cell) : (s.mapCells f).latched = s.latched := rfl
@[simp] theorem State.mapCells_pit (s : State) (f : Cell → Cell) : (s.mapCells f).pit = s.pit := rfl
@[simp] theorem State.mapCells_step (s : State) (f : Cell → Cell) : (s.mapCells f).step = s.step := rfl
@[simp] theorem State.mapCells_spad (s : State) (f : Cell → Cell) : (s.mapCells f).spad = s.spad := rfl
@[simp] theorem State.mapCells_spadErr (s : State) (f : Cell → Cell) : (s.mapCells f).spadErr = s.spadErr := rfl
@[simp] theorem State.mapCells_spadCe (s : State) (f : Cell → Cell) : (s.mapCells f).spadCe = s.spadCe := rfl
@[simp] theorem State.mapCells_hbm (s : State) (f : Cell → Cell) : (s.mapCells f).hbm = s.hbm := rfl
@[simp] theorem State.mapCells_hbmErr (s : State) (f : Cell → Cell) : (s.mapCells f).hbmErr = s.hbmErr := rfl
@[simp] theorem State.mapCells_hbmCe (s : State) (f : Cell → Cell) : (s.mapCells f).hbmCe = s.hbmCe := rfl
@[simp] theorem State.mapCells_gss (s : State) (f : Cell → Cell) : (s.mapCells f).gss = s.gss := rfl
@[simp] theorem State.mapCells_cus (s : State) (f : Cell → Cell) : (s.mapCells f).cus = s.cus := rfl
@[simp] theorem State.mapCells_pool (s : State) (f : Cell → Cell) : (s.mapCells f).pool = s.pool := rfl
@[simp] theorem State.mapCells_fab (s : State) (f : Cell → Cell) : (s.mapCells f).fab = s.fab := rfl
@[simp] theorem State.mapCells_pwr (s : State) (f : Cell → Cell) : (s.mapCells f).pwr = s.pwr := rfl
@[simp] theorem State.mapCells_host (s : State) (f : Cell → Cell) : (s.mapCells f).host = s.host := rfl
@[simp] theorem State.mapCells_rst (s : State) (f : Cell → Cell) : (s.mapCells f).rst = s.rst := rfl
@[simp] theorem State.mapCells_rate (s : State) (f : Cell → Cell) : (s.mapCells f).rate = s.rate := rfl
@[simp] theorem State.mapCells_out (s : State) (f : Cell → Cell) : (s.mapCells f).out = s.out := rfl
@[simp] theorem State.mapCells_parked (s : State) (f : Cell → Cell) : (s.mapCells f).parked = s.parked := rfl
@[simp] theorem State.mapCells_free (s : State) (f : Cell → Cell) : (s.mapCells f).free = s.free := rfl
@[simp] theorem State.mapCells_pending (s : State) (f : Cell → Cell) : (s.mapCells f).pending = s.pending := rfl

@[simp] theorem State.setGs_pitch (s : State) (n : Nat) (v : Gs) : (s.setGs n v).pitch = s.pitch := rfl
@[simp] theorem State.setGs_regs (s : State) (n : Nat) (v : Gs) : (s.setGs n v).regs = s.regs := rfl
@[simp] theorem State.setGs_frozen (s : State) (n : Nat) (v : Gs) : (s.setGs n v).frozen = s.frozen := rfl
@[simp] theorem State.setGs_latched (s : State) (n : Nat) (v : Gs) : (s.setGs n v).latched = s.latched := rfl
@[simp] theorem State.setGs_pit (s : State) (n : Nat) (v : Gs) : (s.setGs n v).pit = s.pit := rfl
@[simp] theorem State.setGs_step (s : State) (n : Nat) (v : Gs) : (s.setGs n v).step = s.step := rfl
@[simp] theorem State.setGs_cells (s : State) (n : Nat) (v : Gs) : (s.setGs n v).cells = s.cells := rfl
@[simp] theorem State.setGs_spad (s : State) (n : Nat) (v : Gs) : (s.setGs n v).spad = s.spad := rfl
@[simp] theorem State.setGs_spadErr (s : State) (n : Nat) (v : Gs) : (s.setGs n v).spadErr = s.spadErr := rfl
@[simp] theorem State.setGs_spadCe (s : State) (n : Nat) (v : Gs) : (s.setGs n v).spadCe = s.spadCe := rfl
@[simp] theorem State.setGs_hbm (s : State) (n : Nat) (v : Gs) : (s.setGs n v).hbm = s.hbm := rfl
@[simp] theorem State.setGs_hbmErr (s : State) (n : Nat) (v : Gs) : (s.setGs n v).hbmErr = s.hbmErr := rfl
@[simp] theorem State.setGs_hbmCe (s : State) (n : Nat) (v : Gs) : (s.setGs n v).hbmCe = s.hbmCe := rfl
@[simp] theorem State.setGs_cus (s : State) (n : Nat) (v : Gs) : (s.setGs n v).cus = s.cus := rfl
@[simp] theorem State.setGs_pool (s : State) (n : Nat) (v : Gs) : (s.setGs n v).pool = s.pool := rfl
@[simp] theorem State.setGs_fab (s : State) (n : Nat) (v : Gs) : (s.setGs n v).fab = s.fab := rfl
@[simp] theorem State.setGs_pwr (s : State) (n : Nat) (v : Gs) : (s.setGs n v).pwr = s.pwr := rfl
@[simp] theorem State.setGs_host (s : State) (n : Nat) (v : Gs) : (s.setGs n v).host = s.host := rfl
@[simp] theorem State.setGs_rst (s : State) (n : Nat) (v : Gs) : (s.setGs n v).rst = s.rst := rfl
@[simp] theorem State.setGs_rate (s : State) (n : Nat) (v : Gs) : (s.setGs n v).rate = s.rate := rfl
@[simp] theorem State.setGs_out (s : State) (n : Nat) (v : Gs) : (s.setGs n v).out = s.out := rfl
@[simp] theorem State.setGs_parked (s : State) (n : Nat) (v : Gs) : (s.setGs n v).parked = s.parked := rfl
@[simp] theorem State.setGs_free (s : State) (n : Nat) (v : Gs) : (s.setGs n v).free = s.free := rfl
@[simp] theorem State.setGs_pending (s : State) (n : Nat) (v : Gs) : (s.setGs n v).pending = s.pending := rfl

@[simp] theorem State.setCu_pitch (s : State) (d : Nat) (v : Cu) : (s.setCu d v).pitch = s.pitch := rfl
@[simp] theorem State.setCu_regs (s : State) (d : Nat) (v : Cu) : (s.setCu d v).regs = s.regs := rfl
@[simp] theorem State.setCu_frozen (s : State) (d : Nat) (v : Cu) : (s.setCu d v).frozen = s.frozen := rfl
@[simp] theorem State.setCu_latched (s : State) (d : Nat) (v : Cu) : (s.setCu d v).latched = s.latched := rfl
@[simp] theorem State.setCu_pit (s : State) (d : Nat) (v : Cu) : (s.setCu d v).pit = s.pit := rfl
@[simp] theorem State.setCu_step (s : State) (d : Nat) (v : Cu) : (s.setCu d v).step = s.step := rfl
@[simp] theorem State.setCu_cells (s : State) (d : Nat) (v : Cu) : (s.setCu d v).cells = s.cells := rfl
@[simp] theorem State.setCu_spad (s : State) (d : Nat) (v : Cu) : (s.setCu d v).spad = s.spad := rfl
@[simp] theorem State.setCu_spadErr (s : State) (d : Nat) (v : Cu) : (s.setCu d v).spadErr = s.spadErr := rfl
@[simp] theorem State.setCu_spadCe (s : State) (d : Nat) (v : Cu) : (s.setCu d v).spadCe = s.spadCe := rfl
@[simp] theorem State.setCu_hbm (s : State) (d : Nat) (v : Cu) : (s.setCu d v).hbm = s.hbm := rfl
@[simp] theorem State.setCu_hbmErr (s : State) (d : Nat) (v : Cu) : (s.setCu d v).hbmErr = s.hbmErr := rfl
@[simp] theorem State.setCu_hbmCe (s : State) (d : Nat) (v : Cu) : (s.setCu d v).hbmCe = s.hbmCe := rfl
@[simp] theorem State.setCu_gss (s : State) (d : Nat) (v : Cu) : (s.setCu d v).gss = s.gss := rfl
@[simp] theorem State.setCu_pool (s : State) (d : Nat) (v : Cu) : (s.setCu d v).pool = s.pool := rfl
@[simp] theorem State.setCu_fab (s : State) (d : Nat) (v : Cu) : (s.setCu d v).fab = s.fab := rfl
@[simp] theorem State.setCu_pwr (s : State) (d : Nat) (v : Cu) : (s.setCu d v).pwr = s.pwr := rfl
@[simp] theorem State.setCu_host (s : State) (d : Nat) (v : Cu) : (s.setCu d v).host = s.host := rfl
@[simp] theorem State.setCu_rst (s : State) (d : Nat) (v : Cu) : (s.setCu d v).rst = s.rst := rfl
@[simp] theorem State.setCu_rate (s : State) (d : Nat) (v : Cu) : (s.setCu d v).rate = s.rate := rfl
@[simp] theorem State.setCu_out (s : State) (d : Nat) (v : Cu) : (s.setCu d v).out = s.out := rfl
@[simp] theorem State.setCu_parked (s : State) (d : Nat) (v : Cu) : (s.setCu d v).parked = s.parked := rfl
@[simp] theorem State.setCu_free (s : State) (d : Nat) (v : Cu) : (s.setCu d v).free = s.free := rfl
@[simp] theorem State.setCu_pending (s : State) (d : Nat) (v : Cu) : (s.setCu d v).pending = s.pending := rfl

@[simp] theorem State.setPort_pitch (s : State) (p : Nat) (v : Port) : (s.setPort p v).pitch = s.pitch := rfl
@[simp] theorem State.setPort_regs (s : State) (p : Nat) (v : Port) : (s.setPort p v).regs = s.regs := rfl
@[simp] theorem State.setPort_frozen (s : State) (p : Nat) (v : Port) : (s.setPort p v).frozen = s.frozen := rfl
@[simp] theorem State.setPort_latched (s : State) (p : Nat) (v : Port) : (s.setPort p v).latched = s.latched := rfl
@[simp] theorem State.setPort_pit (s : State) (p : Nat) (v : Port) : (s.setPort p v).pit = s.pit := rfl
@[simp] theorem State.setPort_step (s : State) (p : Nat) (v : Port) : (s.setPort p v).step = s.step := rfl
@[simp] theorem State.setPort_cells (s : State) (p : Nat) (v : Port) : (s.setPort p v).cells = s.cells := rfl
@[simp] theorem State.setPort_spad (s : State) (p : Nat) (v : Port) : (s.setPort p v).spad = s.spad := rfl
@[simp] theorem State.setPort_spadErr (s : State) (p : Nat) (v : Port) : (s.setPort p v).spadErr = s.spadErr := rfl
@[simp] theorem State.setPort_spadCe (s : State) (p : Nat) (v : Port) : (s.setPort p v).spadCe = s.spadCe := rfl
@[simp] theorem State.setPort_hbm (s : State) (p : Nat) (v : Port) : (s.setPort p v).hbm = s.hbm := rfl
@[simp] theorem State.setPort_hbmErr (s : State) (p : Nat) (v : Port) : (s.setPort p v).hbmErr = s.hbmErr := rfl
@[simp] theorem State.setPort_hbmCe (s : State) (p : Nat) (v : Port) : (s.setPort p v).hbmCe = s.hbmCe := rfl
@[simp] theorem State.setPort_gss (s : State) (p : Nat) (v : Port) : (s.setPort p v).gss = s.gss := rfl
@[simp] theorem State.setPort_cus (s : State) (p : Nat) (v : Port) : (s.setPort p v).cus = s.cus := rfl
@[simp] theorem State.setPort_pool (s : State) (p : Nat) (v : Port) : (s.setPort p v).pool = s.pool := rfl
@[simp] theorem State.setPort_pwr (s : State) (p : Nat) (v : Port) : (s.setPort p v).pwr = s.pwr := rfl
@[simp] theorem State.setPort_host (s : State) (p : Nat) (v : Port) : (s.setPort p v).host = s.host := rfl
@[simp] theorem State.setPort_rst (s : State) (p : Nat) (v : Port) : (s.setPort p v).rst = s.rst := rfl
@[simp] theorem State.setPort_rate (s : State) (p : Nat) (v : Port) : (s.setPort p v).rate = s.rate := rfl
@[simp] theorem State.setPort_out (s : State) (p : Nat) (v : Port) : (s.setPort p v).out = s.out := rfl
@[simp] theorem State.setPort_parked (s : State) (p : Nat) (v : Port) : (s.setPort p v).parked = s.parked := rfl
@[simp] theorem State.setPort_free (s : State) (p : Nat) (v : Port) : (s.setPort p v).free = s.free := rfl
@[simp] theorem State.setPort_pending (s : State) (p : Nat) (v : Port) : (s.setPort p v).pending = s.pending := rfl

@[simp] theorem State.setQueue_pitch (s : State) (q : Nat) (v : Queue) : (s.setQueue q v).pitch = s.pitch := rfl
@[simp] theorem State.setQueue_regs (s : State) (q : Nat) (v : Queue) : (s.setQueue q v).regs = s.regs := rfl
@[simp] theorem State.setQueue_frozen (s : State) (q : Nat) (v : Queue) : (s.setQueue q v).frozen = s.frozen := rfl
@[simp] theorem State.setQueue_latched (s : State) (q : Nat) (v : Queue) : (s.setQueue q v).latched = s.latched := rfl
@[simp] theorem State.setQueue_pit (s : State) (q : Nat) (v : Queue) : (s.setQueue q v).pit = s.pit := rfl
@[simp] theorem State.setQueue_step (s : State) (q : Nat) (v : Queue) : (s.setQueue q v).step = s.step := rfl
@[simp] theorem State.setQueue_cells (s : State) (q : Nat) (v : Queue) : (s.setQueue q v).cells = s.cells := rfl
@[simp] theorem State.setQueue_spad (s : State) (q : Nat) (v : Queue) : (s.setQueue q v).spad = s.spad := rfl
@[simp] theorem State.setQueue_spadErr (s : State) (q : Nat) (v : Queue) : (s.setQueue q v).spadErr = s.spadErr := rfl
@[simp] theorem State.setQueue_spadCe (s : State) (q : Nat) (v : Queue) : (s.setQueue q v).spadCe = s.spadCe := rfl
@[simp] theorem State.setQueue_hbm (s : State) (q : Nat) (v : Queue) : (s.setQueue q v).hbm = s.hbm := rfl
@[simp] theorem State.setQueue_hbmErr (s : State) (q : Nat) (v : Queue) : (s.setQueue q v).hbmErr = s.hbmErr := rfl
@[simp] theorem State.setQueue_hbmCe (s : State) (q : Nat) (v : Queue) : (s.setQueue q v).hbmCe = s.hbmCe := rfl
@[simp] theorem State.setQueue_gss (s : State) (q : Nat) (v : Queue) : (s.setQueue q v).gss = s.gss := rfl
@[simp] theorem State.setQueue_cus (s : State) (q : Nat) (v : Queue) : (s.setQueue q v).cus = s.cus := rfl
@[simp] theorem State.setQueue_pool (s : State) (q : Nat) (v : Queue) : (s.setQueue q v).pool = s.pool := rfl
@[simp] theorem State.setQueue_fab (s : State) (q : Nat) (v : Queue) : (s.setQueue q v).fab = s.fab := rfl
@[simp] theorem State.setQueue_pwr (s : State) (q : Nat) (v : Queue) : (s.setQueue q v).pwr = s.pwr := rfl
@[simp] theorem State.setQueue_rst (s : State) (q : Nat) (v : Queue) : (s.setQueue q v).rst = s.rst := rfl
@[simp] theorem State.setQueue_rate (s : State) (q : Nat) (v : Queue) : (s.setQueue q v).rate = s.rate := rfl
@[simp] theorem State.setQueue_out (s : State) (q : Nat) (v : Queue) : (s.setQueue q v).out = s.out := rfl
@[simp] theorem State.setQueue_parked (s : State) (q : Nat) (v : Queue) : (s.setQueue q v).parked = s.parked := rfl
@[simp] theorem State.setQueue_free (s : State) (q : Nat) (v : Queue) : (s.setQueue q v).free = s.free := rfl
@[simp] theorem State.setQueue_pending (s : State) (q : Nat) (v : Queue) : (s.setQueue q v).pending = s.pending := rfl

@[simp] theorem State.emit_pitch (s : State) (o : Output) : (s.emit o).pitch = s.pitch := rfl
@[simp] theorem State.emit_regs (s : State) (o : Output) : (s.emit o).regs = s.regs := rfl
@[simp] theorem State.emit_frozen (s : State) (o : Output) : (s.emit o).frozen = s.frozen := rfl
@[simp] theorem State.emit_latched (s : State) (o : Output) : (s.emit o).latched = s.latched := rfl
@[simp] theorem State.emit_pit (s : State) (o : Output) : (s.emit o).pit = s.pit := rfl
@[simp] theorem State.emit_step (s : State) (o : Output) : (s.emit o).step = s.step := rfl
@[simp] theorem State.emit_cells (s : State) (o : Output) : (s.emit o).cells = s.cells := rfl
@[simp] theorem State.emit_spad (s : State) (o : Output) : (s.emit o).spad = s.spad := rfl
@[simp] theorem State.emit_spadErr (s : State) (o : Output) : (s.emit o).spadErr = s.spadErr := rfl
@[simp] theorem State.emit_spadCe (s : State) (o : Output) : (s.emit o).spadCe = s.spadCe := rfl
@[simp] theorem State.emit_hbm (s : State) (o : Output) : (s.emit o).hbm = s.hbm := rfl
@[simp] theorem State.emit_hbmErr (s : State) (o : Output) : (s.emit o).hbmErr = s.hbmErr := rfl
@[simp] theorem State.emit_hbmCe (s : State) (o : Output) : (s.emit o).hbmCe = s.hbmCe := rfl
@[simp] theorem State.emit_gss (s : State) (o : Output) : (s.emit o).gss = s.gss := rfl
@[simp] theorem State.emit_cus (s : State) (o : Output) : (s.emit o).cus = s.cus := rfl
@[simp] theorem State.emit_pool (s : State) (o : Output) : (s.emit o).pool = s.pool := rfl
@[simp] theorem State.emit_fab (s : State) (o : Output) : (s.emit o).fab = s.fab := rfl
@[simp] theorem State.emit_pwr (s : State) (o : Output) : (s.emit o).pwr = s.pwr := rfl
@[simp] theorem State.emit_host (s : State) (o : Output) : (s.emit o).host = s.host := rfl
@[simp] theorem State.emit_rst (s : State) (o : Output) : (s.emit o).rst = s.rst := rfl
@[simp] theorem State.emit_rate (s : State) (o : Output) : (s.emit o).rate = s.rate := rfl
@[simp] theorem State.emit_parked (s : State) (o : Output) : (s.emit o).parked = s.parked := rfl
@[simp] theorem State.emit_free (s : State) (o : Output) : (s.emit o).free = s.free := rfl
@[simp] theorem State.emit_pending (s : State) (o : Output) : (s.emit o).pending = s.pending := rfl

@[simp] theorem State.setPc_pitch (s : State) (c pc : Nat) : (s.setPc c pc).pitch = s.pitch := rfl
@[simp] theorem State.setPc_regs (s : State) (c pc : Nat) : (s.setPc c pc).regs = s.regs := rfl
@[simp] theorem State.setPc_frozen (s : State) (c pc : Nat) : (s.setPc c pc).frozen = s.frozen := rfl
@[simp] theorem State.setPc_latched (s : State) (c pc : Nat) : (s.setPc c pc).latched = s.latched := rfl
@[simp] theorem State.setPc_pit (s : State) (c pc : Nat) : (s.setPc c pc).pit = s.pit := rfl
@[simp] theorem State.setPc_step (s : State) (c pc : Nat) : (s.setPc c pc).step = s.step := rfl
@[simp] theorem State.setPc_spad (s : State) (c pc : Nat) : (s.setPc c pc).spad = s.spad := rfl
@[simp] theorem State.setPc_spadErr (s : State) (c pc : Nat) : (s.setPc c pc).spadErr = s.spadErr := rfl
@[simp] theorem State.setPc_spadCe (s : State) (c pc : Nat) : (s.setPc c pc).spadCe = s.spadCe := rfl
@[simp] theorem State.setPc_hbm (s : State) (c pc : Nat) : (s.setPc c pc).hbm = s.hbm := rfl
@[simp] theorem State.setPc_hbmErr (s : State) (c pc : Nat) : (s.setPc c pc).hbmErr = s.hbmErr := rfl
@[simp] theorem State.setPc_hbmCe (s : State) (c pc : Nat) : (s.setPc c pc).hbmCe = s.hbmCe := rfl
@[simp] theorem State.setPc_gss (s : State) (c pc : Nat) : (s.setPc c pc).gss = s.gss := rfl
@[simp] theorem State.setPc_cus (s : State) (c pc : Nat) : (s.setPc c pc).cus = s.cus := rfl
@[simp] theorem State.setPc_pool (s : State) (c pc : Nat) : (s.setPc c pc).pool = s.pool := rfl
@[simp] theorem State.setPc_fab (s : State) (c pc : Nat) : (s.setPc c pc).fab = s.fab := rfl
@[simp] theorem State.setPc_pwr (s : State) (c pc : Nat) : (s.setPc c pc).pwr = s.pwr := rfl
@[simp] theorem State.setPc_host (s : State) (c pc : Nat) : (s.setPc c pc).host = s.host := rfl
@[simp] theorem State.setPc_rst (s : State) (c pc : Nat) : (s.setPc c pc).rst = s.rst := rfl
@[simp] theorem State.setPc_rate (s : State) (c pc : Nat) : (s.setPc c pc).rate = s.rate := rfl
@[simp] theorem State.setPc_out (s : State) (c pc : Nat) : (s.setPc c pc).out = s.out := rfl
@[simp] theorem State.setPc_parked (s : State) (c pc : Nat) : (s.setPc c pc).parked = s.parked := rfl
@[simp] theorem State.setPc_free (s : State) (c pc : Nat) : (s.setPc c pc).free = s.free := rfl
@[simp] theorem State.setPc_pending (s : State) (c pc : Nat) : (s.setPc c pc).pending = s.pending := rfl

/-! ### Reads of one kind after writes of another -/

@[simp] theorem State.cell_setReg (s : State) (off : Nat) (v : W32) (d1 : Nat) : (s.setReg off v).cell d1 = s.cell d1 := rfl
@[simp] theorem State.gs_setReg (s : State) (off : Nat) (v : W32) (m1 : Nat) : (s.setReg off v).gs m1 = s.gs m1 := rfl
@[simp] theorem State.cu_setReg (s : State) (off : Nat) (v : W32) (m1 : Nat) : (s.setReg off v).cu m1 = s.cu m1 := rfl
@[simp] theorem State.port_setReg (s : State) (off : Nat) (v : W32) (m1 : Nat) : (s.setReg off v).port m1 = s.port m1 := rfl
@[simp] theorem State.queue_setReg (s : State) (off : Nat) (v : W32) (m1 : Nat) : (s.setReg off v).queue m1 = s.queue m1 := rfl
@[simp] theorem State.alive_setReg (s : State) (off : Nat) (v : W32) : (s.setReg off v).alive = s.alive := rfl
@[simp] theorem State.tripped_setReg (s : State) (off : Nat) (v : W32) : (s.setReg off v).tripped = s.tripped := rfl

@[simp] theorem State.cell_setFld (s : State) (off lo w v : Nat) (d1 : Nat) : (s.setFld off lo w v).cell d1 = s.cell d1 := rfl
@[simp] theorem State.gs_setFld (s : State) (off lo w v : Nat) (m1 : Nat) : (s.setFld off lo w v).gs m1 = s.gs m1 := rfl
@[simp] theorem State.cu_setFld (s : State) (off lo w v : Nat) (m1 : Nat) : (s.setFld off lo w v).cu m1 = s.cu m1 := rfl
@[simp] theorem State.port_setFld (s : State) (off lo w v : Nat) (m1 : Nat) : (s.setFld off lo w v).port m1 = s.port m1 := rfl
@[simp] theorem State.queue_setFld (s : State) (off lo w v : Nat) (m1 : Nat) : (s.setFld off lo w v).queue m1 = s.queue m1 := rfl
@[simp] theorem State.alive_setFld (s : State) (off lo w v : Nat) : (s.setFld off lo w v).alive = s.alive := rfl
@[simp] theorem State.tripped_setFld (s : State) (off lo w v : Nat) : (s.setFld off lo w v).tripped = s.tripped := rfl

@[simp] theorem State.cell_bumpFld (s : State) (off lo w n : Nat) (d1 : Nat) : (s.bumpFld off lo w n).cell d1 = s.cell d1 := rfl
@[simp] theorem State.gs_bumpFld (s : State) (off lo w n : Nat) (m1 : Nat) : (s.bumpFld off lo w n).gs m1 = s.gs m1 := rfl
@[simp] theorem State.cu_bumpFld (s : State) (off lo w n : Nat) (m1 : Nat) : (s.bumpFld off lo w n).cu m1 = s.cu m1 := rfl
@[simp] theorem State.port_bumpFld (s : State) (off lo w n : Nat) (m1 : Nat) : (s.bumpFld off lo w n).port m1 = s.port m1 := rfl
@[simp] theorem State.queue_bumpFld (s : State) (off lo w n : Nat) (m1 : Nat) : (s.bumpFld off lo w n).queue m1 = s.queue m1 := rfl
@[simp] theorem State.alive_bumpFld (s : State) (off lo w n : Nat) : (s.bumpFld off lo w n).alive = s.alive := rfl
@[simp] theorem State.tripped_bumpFld (s : State) (off lo w n : Nat) : (s.bumpFld off lo w n).tripped = s.tripped := rfl

@[simp] theorem State.cell_bumpBy (s : State) (off n : Nat) (d1 : Nat) : (s.bumpBy off n).cell d1 = s.cell d1 := rfl
@[simp] theorem State.gs_bumpBy (s : State) (off n : Nat) (m1 : Nat) : (s.bumpBy off n).gs m1 = s.gs m1 := rfl
@[simp] theorem State.cu_bumpBy (s : State) (off n : Nat) (m1 : Nat) : (s.bumpBy off n).cu m1 = s.cu m1 := rfl
@[simp] theorem State.port_bumpBy (s : State) (off n : Nat) (m1 : Nat) : (s.bumpBy off n).port m1 = s.port m1 := rfl
@[simp] theorem State.queue_bumpBy (s : State) (off n : Nat) (m1 : Nat) : (s.bumpBy off n).queue m1 = s.queue m1 := rfl
@[simp] theorem State.alive_bumpBy (s : State) (off n : Nat) : (s.bumpBy off n).alive = s.alive := rfl
@[simp] theorem State.tripped_bumpBy (s : State) (off n : Nat) : (s.bumpBy off n).tripped = s.tripped := rfl

@[simp] theorem State.cell_bump (s : State) (off : Nat) (d1 : Nat) : (s.bump off).cell d1 = s.cell d1 := rfl
@[simp] theorem State.gs_bump (s : State) (off : Nat) (m1 : Nat) : (s.bump off).gs m1 = s.gs m1 := rfl
@[simp] theorem State.cu_bump (s : State) (off : Nat) (m1 : Nat) : (s.bump off).cu m1 = s.cu m1 := rfl
@[simp] theorem State.port_bump (s : State) (off : Nat) (m1 : Nat) : (s.bump off).port m1 = s.port m1 := rfl
@[simp] theorem State.queue_bump (s : State) (off : Nat) (m1 : Nat) : (s.bump off).queue m1 = s.queue m1 := rfl
@[simp] theorem State.alive_bump (s : State) (off : Nat) : (s.bump off).alive = s.alive := rfl
@[simp] theorem State.tripped_bump (s : State) (off : Nat) : (s.bump off).tripped = s.tripped := rfl

@[simp] theorem State.cell_setReg64 (s : State) (lo hi v : Nat) (d1 : Nat) : (s.setReg64 lo hi v).cell d1 = s.cell d1 := rfl
@[simp] theorem State.gs_setReg64 (s : State) (lo hi v : Nat) (m1 : Nat) : (s.setReg64 lo hi v).gs m1 = s.gs m1 := rfl
@[simp] theorem State.cu_setReg64 (s : State) (lo hi v : Nat) (m1 : Nat) : (s.setReg64 lo hi v).cu m1 = s.cu m1 := rfl
@[simp] theorem State.port_setReg64 (s : State) (lo hi v : Nat) (m1 : Nat) : (s.setReg64 lo hi v).port m1 = s.port m1 := rfl
@[simp] theorem State.queue_setReg64 (s : State) (lo hi v : Nat) (m1 : Nat) : (s.setReg64 lo hi v).queue m1 = s.queue m1 := rfl
@[simp] theorem State.alive_setReg64 (s : State) (lo hi v : Nat) : (s.setReg64 lo hi v).alive = s.alive := rfl
@[simp] theorem State.tripped_setReg64 (s : State) (lo hi v : Nat) : (s.setReg64 lo hi v).tripped = s.tripped := rfl

@[simp] theorem State.reg_setCell (s : State) (c : Nat) (v : Cell) (o1 : Nat) : (s.setCell c v).reg o1 = s.reg o1 := rfl
@[simp] theorem State.fld_setCell (s : State) (c : Nat) (v : Cell) (o1 l1 k1 : Nat) : (s.setCell c v).fld o1 l1 k1 = s.fld o1 l1 k1 := rfl
@[simp] theorem State.reg64_setCell (s : State) (c : Nat) (v : Cell) (o1 l1 : Nat) : (s.setCell c v).reg64 o1 l1 = s.reg64 o1 l1 := rfl
@[simp] theorem State.gs_setCell (s : State) (c : Nat) (v : Cell) (m1 : Nat) : (s.setCell c v).gs m1 = s.gs m1 := rfl
@[simp] theorem State.cu_setCell (s : State) (c : Nat) (v : Cell) (m1 : Nat) : (s.setCell c v).cu m1 = s.cu m1 := rfl
@[simp] theorem State.port_setCell (s : State) (c : Nat) (v : Cell) (m1 : Nat) : (s.setCell c v).port m1 = s.port m1 := rfl
@[simp] theorem State.queue_setCell (s : State) (c : Nat) (v : Cell) (m1 : Nat) : (s.setCell c v).queue m1 = s.queue m1 := rfl
@[simp] theorem State.epoch_setCell (s : State) (c : Nat) (v : Cell) : (s.setCell c v).epoch = s.epoch := rfl
@[simp] theorem State.alive_setCell (s : State) (c : Nat) (v : Cell) : (s.setCell c v).alive = s.alive := rfl
@[simp] theorem State.tripped_setCell (s : State) (c : Nat) (v : Cell) : (s.setCell c v).tripped = s.tripped := rfl

@[simp] theorem State.reg_mapCells (s : State) (f : Cell → Cell) (o1 : Nat) : (s.mapCells f).reg o1 = s.reg o1 := rfl
@[simp] theorem State.fld_mapCells (s : State) (f : Cell → Cell) (o1 l1 k1 : Nat) : (s.mapCells f).fld o1 l1 k1 = s.fld o1 l1 k1 := rfl
@[simp] theorem State.reg64_mapCells (s : State) (f : Cell → Cell) (o1 l1 : Nat) : (s.mapCells f).reg64 o1 l1 = s.reg64 o1 l1 := rfl
@[simp] theorem State.gs_mapCells (s : State) (f : Cell → Cell) (m1 : Nat) : (s.mapCells f).gs m1 = s.gs m1 := rfl
@[simp] theorem State.cu_mapCells (s : State) (f : Cell → Cell) (m1 : Nat) : (s.mapCells f).cu m1 = s.cu m1 := rfl
@[simp] theorem State.port_mapCells (s : State) (f : Cell → Cell) (m1 : Nat) : (s.mapCells f).port m1 = s.port m1 := rfl
@[simp] theorem State.queue_mapCells (s : State) (f : Cell → Cell) (m1 : Nat) : (s.mapCells f).queue m1 = s.queue m1 := rfl
@[simp] theorem State.epoch_mapCells (s : State) (f : Cell → Cell) : (s.mapCells f).epoch = s.epoch := rfl
@[simp] theorem State.alive_mapCells (s : State) (f : Cell → Cell) : (s.mapCells f).alive = s.alive := rfl
@[simp] theorem State.tripped_mapCells (s : State) (f : Cell → Cell) : (s.mapCells f).tripped = s.tripped := rfl

@[simp] theorem State.reg_setGs (s : State) (n : Nat) (v : Gs) (o1 : Nat) : (s.setGs n v).reg o1 = s.reg o1 := rfl
@[simp] theorem State.fld_setGs (s : State) (n : Nat) (v : Gs) (o1 l1 k1 : Nat) : (s.setGs n v).fld o1 l1 k1 = s.fld o1 l1 k1 := rfl
@[simp] theorem State.reg64_setGs (s : State) (n : Nat) (v : Gs) (o1 l1 : Nat) : (s.setGs n v).reg64 o1 l1 = s.reg64 o1 l1 := rfl
@[simp] theorem State.cell_setGs (s : State) (n : Nat) (v : Gs) (d1 : Nat) : (s.setGs n v).cell d1 = s.cell d1 := rfl
@[simp] theorem State.cu_setGs (s : State) (n : Nat) (v : Gs) (m1 : Nat) : (s.setGs n v).cu m1 = s.cu m1 := rfl
@[simp] theorem State.port_setGs (s : State) (n : Nat) (v : Gs) (m1 : Nat) : (s.setGs n v).port m1 = s.port m1 := rfl
@[simp] theorem State.queue_setGs (s : State) (n : Nat) (v : Gs) (m1 : Nat) : (s.setGs n v).queue m1 = s.queue m1 := rfl
@[simp] theorem State.epoch_setGs (s : State) (n : Nat) (v : Gs) : (s.setGs n v).epoch = s.epoch := rfl
@[simp] theorem State.alive_setGs (s : State) (n : Nat) (v : Gs) : (s.setGs n v).alive = s.alive := rfl
@[simp] theorem State.tripped_setGs (s : State) (n : Nat) (v : Gs) : (s.setGs n v).tripped = s.tripped := rfl

@[simp] theorem State.reg_setCu (s : State) (d : Nat) (v : Cu) (o1 : Nat) : (s.setCu d v).reg o1 = s.reg o1 := rfl
@[simp] theorem State.fld_setCu (s : State) (d : Nat) (v : Cu) (o1 l1 k1 : Nat) : (s.setCu d v).fld o1 l1 k1 = s.fld o1 l1 k1 := rfl
@[simp] theorem State.reg64_setCu (s : State) (d : Nat) (v : Cu) (o1 l1 : Nat) : (s.setCu d v).reg64 o1 l1 = s.reg64 o1 l1 := rfl
@[simp] theorem State.cell_setCu (s : State) (d : Nat) (v : Cu) (d1 : Nat) : (s.setCu d v).cell d1 = s.cell d1 := rfl
@[simp] theorem State.gs_setCu (s : State) (d : Nat) (v : Cu) (m1 : Nat) : (s.setCu d v).gs m1 = s.gs m1 := rfl
@[simp] theorem State.port_setCu (s : State) (d : Nat) (v : Cu) (m1 : Nat) : (s.setCu d v).port m1 = s.port m1 := rfl
@[simp] theorem State.queue_setCu (s : State) (d : Nat) (v : Cu) (m1 : Nat) : (s.setCu d v).queue m1 = s.queue m1 := rfl
@[simp] theorem State.epoch_setCu (s : State) (d : Nat) (v : Cu) : (s.setCu d v).epoch = s.epoch := rfl
@[simp] theorem State.alive_setCu (s : State) (d : Nat) (v : Cu) : (s.setCu d v).alive = s.alive := rfl
@[simp] theorem State.tripped_setCu (s : State) (d : Nat) (v : Cu) : (s.setCu d v).tripped = s.tripped := rfl

@[simp] theorem State.reg_setPort (s : State) (p : Nat) (v : Port) (o1 : Nat) : (s.setPort p v).reg o1 = s.reg o1 := rfl
@[simp] theorem State.fld_setPort (s : State) (p : Nat) (v : Port) (o1 l1 k1 : Nat) : (s.setPort p v).fld o1 l1 k1 = s.fld o1 l1 k1 := rfl
@[simp] theorem State.reg64_setPort (s : State) (p : Nat) (v : Port) (o1 l1 : Nat) : (s.setPort p v).reg64 o1 l1 = s.reg64 o1 l1 := rfl
@[simp] theorem State.cell_setPort (s : State) (p : Nat) (v : Port) (d1 : Nat) : (s.setPort p v).cell d1 = s.cell d1 := rfl
@[simp] theorem State.gs_setPort (s : State) (p : Nat) (v : Port) (m1 : Nat) : (s.setPort p v).gs m1 = s.gs m1 := rfl
@[simp] theorem State.cu_setPort (s : State) (p : Nat) (v : Port) (m1 : Nat) : (s.setPort p v).cu m1 = s.cu m1 := rfl
@[simp] theorem State.queue_setPort (s : State) (p : Nat) (v : Port) (m1 : Nat) : (s.setPort p v).queue m1 = s.queue m1 := rfl
@[simp] theorem State.epoch_setPort (s : State) (p : Nat) (v : Port) : (s.setPort p v).epoch = s.epoch := rfl
@[simp] theorem State.alive_setPort (s : State) (p : Nat) (v : Port) : (s.setPort p v).alive = s.alive := rfl
@[simp] theorem State.tripped_setPort (s : State) (p : Nat) (v : Port) : (s.setPort p v).tripped = s.tripped := rfl

@[simp] theorem State.reg_setQueue (s : State) (q : Nat) (v : Queue) (o1 : Nat) : (s.setQueue q v).reg o1 = s.reg o1 := rfl
@[simp] theorem State.fld_setQueue (s : State) (q : Nat) (v : Queue) (o1 l1 k1 : Nat) : (s.setQueue q v).fld o1 l1 k1 = s.fld o1 l1 k1 := rfl
@[simp] theorem State.reg64_setQueue (s : State) (q : Nat) (v : Queue) (o1 l1 : Nat) : (s.setQueue q v).reg64 o1 l1 = s.reg64 o1 l1 := rfl
@[simp] theorem State.cell_setQueue (s : State) (q : Nat) (v : Queue) (d1 : Nat) : (s.setQueue q v).cell d1 = s.cell d1 := rfl
@[simp] theorem State.gs_setQueue (s : State) (q : Nat) (v : Queue) (m1 : Nat) : (s.setQueue q v).gs m1 = s.gs m1 := rfl
@[simp] theorem State.cu_setQueue (s : State) (q : Nat) (v : Queue) (m1 : Nat) : (s.setQueue q v).cu m1 = s.cu m1 := rfl
@[simp] theorem State.port_setQueue (s : State) (q : Nat) (v : Queue) (m1 : Nat) : (s.setQueue q v).port m1 = s.port m1 := rfl
@[simp] theorem State.epoch_setQueue (s : State) (q : Nat) (v : Queue) : (s.setQueue q v).epoch = s.epoch := rfl
@[simp] theorem State.alive_setQueue (s : State) (q : Nat) (v : Queue) : (s.setQueue q v).alive = s.alive := rfl
@[simp] theorem State.tripped_setQueue (s : State) (q : Nat) (v : Queue) : (s.setQueue q v).tripped = s.tripped := rfl

@[simp] theorem State.reg_emit (s : State) (o : Output) (o1 : Nat) : (s.emit o).reg o1 = s.reg o1 := rfl
@[simp] theorem State.fld_emit (s : State) (o : Output) (o1 l1 k1 : Nat) : (s.emit o).fld o1 l1 k1 = s.fld o1 l1 k1 := rfl
@[simp] theorem State.reg64_emit (s : State) (o : Output) (o1 l1 : Nat) : (s.emit o).reg64 o1 l1 = s.reg64 o1 l1 := rfl
@[simp] theorem State.cell_emit (s : State) (o : Output) (d1 : Nat) : (s.emit o).cell d1 = s.cell d1 := rfl
@[simp] theorem State.gs_emit (s : State) (o : Output) (m1 : Nat) : (s.emit o).gs m1 = s.gs m1 := rfl
@[simp] theorem State.cu_emit (s : State) (o : Output) (m1 : Nat) : (s.emit o).cu m1 = s.cu m1 := rfl
@[simp] theorem State.port_emit (s : State) (o : Output) (m1 : Nat) : (s.emit o).port m1 = s.port m1 := rfl
@[simp] theorem State.queue_emit (s : State) (o : Output) (m1 : Nat) : (s.emit o).queue m1 = s.queue m1 := rfl
@[simp] theorem State.epoch_emit (s : State) (o : Output) : (s.emit o).epoch = s.epoch := rfl
@[simp] theorem State.alive_emit (s : State) (o : Output) : (s.emit o).alive = s.alive := rfl
@[simp] theorem State.tripped_emit (s : State) (o : Output) : (s.emit o).tripped = s.tripped := rfl

@[simp] theorem State.reg_setPc (s : State) (c pc : Nat) (o1 : Nat) : (s.setPc c pc).reg o1 = s.reg o1 := rfl
@[simp] theorem State.fld_setPc (s : State) (c pc : Nat) (o1 l1 k1 : Nat) : (s.setPc c pc).fld o1 l1 k1 = s.fld o1 l1 k1 := rfl
@[simp] theorem State.reg64_setPc (s : State) (c pc : Nat) (o1 l1 : Nat) : (s.setPc c pc).reg64 o1 l1 = s.reg64 o1 l1 := rfl
@[simp] theorem State.gs_setPc (s : State) (c pc : Nat) (m1 : Nat) : (s.setPc c pc).gs m1 = s.gs m1 := rfl
@[simp] theorem State.cu_setPc (s : State) (c pc : Nat) (m1 : Nat) : (s.setPc c pc).cu m1 = s.cu m1 := rfl
@[simp] theorem State.port_setPc (s : State) (c pc : Nat) (m1 : Nat) : (s.setPc c pc).port m1 = s.port m1 := rfl
@[simp] theorem State.queue_setPc (s : State) (c pc : Nat) (m1 : Nat) : (s.setPc c pc).queue m1 = s.queue m1 := rfl
@[simp] theorem State.epoch_setPc (s : State) (c pc : Nat) : (s.setPc c pc).epoch = s.epoch := rfl
@[simp] theorem State.alive_setPc (s : State) (c pc : Nat) : (s.setPc c pc).alive = s.alive := rfl
@[simp] theorem State.tripped_setPc (s : State) (c pc : Nat) : (s.setPc c pc).tripped = s.tripped := rfl

/-! ### Reads after writes of the same kind -/

@[simp] theorem State.reg_setReg (s : State) (o p : Nat) (v : W32) :
    (s.setReg o v).reg p = if p = o then v else s.reg p := tabGet_tabSet ..

@[simp] theorem State.cell_setCell (s : State) (c d : Nat) (v : Cell) :
    (s.setCell c v).cell d = if d = c then v else s.cell d := tabGet_tabSet ..

@[simp] theorem State.gs_setGs (s : State) (n m : Nat) (v : Gs) :
    (s.setGs n v).gs m = if m = n then v else s.gs m := tabGet_tabSet ..

@[simp] theorem State.cu_setCu (s : State) (d e : Nat) (v : Cu) :
    (s.setCu d v).cu e = if e = d then v else s.cu e := tabGet_tabSet ..

@[simp] theorem State.port_setPort (s : State) (p q : Nat) (v : Port) :
    (s.setPort p v).port q = if q = p then v else s.port q := tabGet_tabSet ..

@[simp] theorem State.queue_setQueue (s : State) (p q : Nat) (v : Queue) :
    (s.setQueue p v).queue q = if q = p then v else s.queue q := tabGet_tabSet ..

theorem State.reg_setFld (s : State) (o lo w v p : Nat) : (s.setFld o lo w v).reg p =
    if p = o then BitVec.ofNat 32 (putField (s.reg o).toNat lo w v) else s.reg p := State.reg_setReg ..

theorem State.reg_bumpBy (s : State) (o n p : Nat) : (s.bumpBy o n).reg p =
    if p = o then BitVec.ofNat 32 (min ((s.reg o).toNat + n) 0xFFFFFFFF) else s.reg p := State.reg_setReg ..

theorem State.reg_bump (s : State) (o p : Nat) : (s.bump o).reg p =
    if p = o then BitVec.ofNat 32 (min ((s.reg o).toNat + 1) 0xFFFFFFFF) else s.reg p := State.reg_setReg ..

/-! ### Registers of a control core (Table 13-1) -/

@[simp] theorem Cell.s_zero (k : Cell) : k.s 0 = 0 := rfl

@[simp] theorem Cell.setS_zero (k : Cell) (v : W64) : k.setS 0 v = k := rfl

@[simp] theorem Cell.s_setS (k : Cell) (n m : Nat) (v : W64) :
    (k.setS n v).s m = if m = n ∧ n ≠ 0 then v else k.s m := by
  unfold Cell.setS Cell.s
  by_cases hn : n = 0
  · simp [hn]
  · by_cases hm : m = 0
    · subst hm; simp [hn, Ne.symm hn]
    · simp [hn, hm]

@[simp] theorem Cell.a_setA (k : Cell) (n m : Nat) (v : W32) :
    (k.setA n v).a m = if m = n then v else k.a m := tabGet_tabSet ..

@[simp] theorem Cell.p_zero (k : Cell) : k.p 0 = true := rfl

@[simp] theorem Cell.setP_zero (k : Cell) (v : Bool) : k.setP 0 v = k := rfl

@[simp] theorem Cell.setS_run (k : Cell) (n : Nat) (v : W64) : (k.setS n v).run = k.run := by
  unfold Cell.setS; split <;> rfl
@[simp] theorem Cell.setS_pc (k : Cell) (n : Nat) (v : W64) : (k.setS n v).pc = k.pc := by
  unfold Cell.setS; split <;> rfl
@[simp] theorem Cell.setS_imem (k : Cell) (n : Nat) (v : W64) : (k.setS n v).imem = k.imem := by
  unfold Cell.setS; split <;> rfl
@[simp] theorem Cell.setS_stall (k : Cell) (n : Nat) (v : W64) : (k.setS n v).stall = k.stall := by
  unfold Cell.setS; split <;> rfl
@[simp] theorem Cell.setS_owed (k : Cell) (n : Nat) (v : W64) : (k.setS n v).owed = k.owed := by
  unfold Cell.setS; split <;> rfl
@[simp] theorem Cell.setS_stores (k : Cell) (n : Nat) (v : W64) : (k.setS n v).stores = k.stores := by
  unfold Cell.setS; split <;> rfl
@[simp] theorem Cell.setS_active (k : Cell) (n : Nat) (v : W64) : (k.setS n v).active = k.active := by
  unfold Cell.setS; split <;> rfl
@[simp] theorem Cell.setS_evec (k : Cell) (n : Nat) (v : W64) : (k.setS n v).evec = k.evec := by
  unfold Cell.setS; split <;> rfl
@[simp] theorem Cell.setS_evecEn (k : Cell) (n : Nat) (v : W64) : (k.setS n v).evecEn = k.evecEn := by
  unfold Cell.setS; split <;> rfl
@[simp] theorem Cell.setS_epc (k : Cell) (n : Nat) (v : W64) : (k.setS n v).epc = k.epc := by
  unfold Cell.setS; split <;> rfl
@[simp] theorem Cell.setS_ecause (k : Cell) (n : Nat) (v : W64) : (k.setS n v).ecause = k.ecause := by
  unfold Cell.setS; split <;> rfl
@[simp] theorem Cell.setS_lq (k : Cell) (n : Nat) (v : W64) : (k.setS n v).lq = k.lq := by
  unfold Cell.setS; split <;> rfl
@[simp] theorem Cell.setS_mxq (k : Cell) (n : Nat) (v : W64) : (k.setS n v).mxq = k.mxq := by
  unfold Cell.setS; split <;> rfl
@[simp] theorem Cell.setS_vsq (k : Cell) (n : Nat) (v : W64) : (k.setS n v).vsq = k.vsq := by
  unfold Cell.setS; split <;> rfl
@[simp] theorem Cell.setS_tiles (k : Cell) (n : Nat) (v : W64) : (k.setS n v).tiles = k.tiles := by
  unfold Cell.setS; split <;> rfl
@[simp] theorem Cell.setS_xfers (k : Cell) (n : Nat) (v : W64) : (k.setS n v).xfers = k.xfers := by
  unfold Cell.setS; split <;> rfl
@[simp] theorem Cell.setS_streams (k : Cell) (n : Nat) (v : W64) : (k.setS n v).streams = k.streams := by
  unfold Cell.setS; split <;> rfl
@[simp] theorem Cell.setS_widens (k : Cell) (n : Nat) (v : W64) : (k.setS n v).widens = k.widens := by
  unfold Cell.setS; split <;> rfl
@[simp] theorem Cell.setS_colls (k : Cell) (n : Nat) (v : W64) : (k.setS n v).colls = k.colls := by
  unfold Cell.setS; split <;> rfl
@[simp] theorem Cell.setS_insns (k : Cell) (n : Nat) (v : W64) : (k.setS n v).insns = k.insns := by
  unfold Cell.setS; split <;> rfl
@[simp] theorem Cell.setS_areg (k : Cell) (n : Nat) (v : W64) : (k.setS n v).areg = k.areg := by
  unfold Cell.setS; split <;> rfl
@[simp] theorem Cell.setS_preg (k : Cell) (n : Nat) (v : W64) : (k.setS n v).preg = k.preg := by
  unfold Cell.setS; split <;> rfl

@[simp] theorem Cell.setA_run (k : Cell) (n : Nat) (v : W32) : (k.setA n v).run = k.run := rfl
@[simp] theorem Cell.setA_pc (k : Cell) (n : Nat) (v : W32) : (k.setA n v).pc = k.pc := rfl
@[simp] theorem Cell.setA_imem (k : Cell) (n : Nat) (v : W32) : (k.setA n v).imem = k.imem := rfl
@[simp] theorem Cell.setA_stall (k : Cell) (n : Nat) (v : W32) : (k.setA n v).stall = k.stall := rfl
@[simp] theorem Cell.setA_owed (k : Cell) (n : Nat) (v : W32) : (k.setA n v).owed = k.owed := rfl
@[simp] theorem Cell.setA_stores (k : Cell) (n : Nat) (v : W32) : (k.setA n v).stores = k.stores := rfl
@[simp] theorem Cell.setA_active (k : Cell) (n : Nat) (v : W32) : (k.setA n v).active = k.active := rfl
@[simp] theorem Cell.setA_evec (k : Cell) (n : Nat) (v : W32) : (k.setA n v).evec = k.evec := rfl
@[simp] theorem Cell.setA_evecEn (k : Cell) (n : Nat) (v : W32) : (k.setA n v).evecEn = k.evecEn := rfl
@[simp] theorem Cell.setA_epc (k : Cell) (n : Nat) (v : W32) : (k.setA n v).epc = k.epc := rfl
@[simp] theorem Cell.setA_ecause (k : Cell) (n : Nat) (v : W32) : (k.setA n v).ecause = k.ecause := rfl
@[simp] theorem Cell.setA_lq (k : Cell) (n : Nat) (v : W32) : (k.setA n v).lq = k.lq := rfl
@[simp] theorem Cell.setA_mxq (k : Cell) (n : Nat) (v : W32) : (k.setA n v).mxq = k.mxq := rfl
@[simp] theorem Cell.setA_vsq (k : Cell) (n : Nat) (v : W32) : (k.setA n v).vsq = k.vsq := rfl
@[simp] theorem Cell.setA_tiles (k : Cell) (n : Nat) (v : W32) : (k.setA n v).tiles = k.tiles := rfl
@[simp] theorem Cell.setA_xfers (k : Cell) (n : Nat) (v : W32) : (k.setA n v).xfers = k.xfers := rfl
@[simp] theorem Cell.setA_streams (k : Cell) (n : Nat) (v : W32) : (k.setA n v).streams = k.streams := rfl
@[simp] theorem Cell.setA_widens (k : Cell) (n : Nat) (v : W32) : (k.setA n v).widens = k.widens := rfl
@[simp] theorem Cell.setA_colls (k : Cell) (n : Nat) (v : W32) : (k.setA n v).colls = k.colls := rfl
@[simp] theorem Cell.setA_insns (k : Cell) (n : Nat) (v : W32) : (k.setA n v).insns = k.insns := rfl
@[simp] theorem Cell.setA_sreg (k : Cell) (n : Nat) (v : W32) : (k.setA n v).sreg = k.sreg := rfl
@[simp] theorem Cell.setA_preg (k : Cell) (n : Nat) (v : W32) : (k.setA n v).preg = k.preg := rfl

@[simp] theorem Cell.setP_run (k : Cell) (n : Nat) (v : Bool) : (k.setP n v).run = k.run := by
  unfold Cell.setP; split <;> rfl
@[simp] theorem Cell.setP_pc (k : Cell) (n : Nat) (v : Bool) : (k.setP n v).pc = k.pc := by
  unfold Cell.setP; split <;> rfl
@[simp] theorem Cell.setP_imem (k : Cell) (n : Nat) (v : Bool) : (k.setP n v).imem = k.imem := by
  unfold Cell.setP; split <;> rfl
@[simp] theorem Cell.setP_stall (k : Cell) (n : Nat) (v : Bool) : (k.setP n v).stall = k.stall := by
  unfold Cell.setP; split <;> rfl
@[simp] theorem Cell.setP_owed (k : Cell) (n : Nat) (v : Bool) : (k.setP n v).owed = k.owed := by
  unfold Cell.setP; split <;> rfl
@[simp] theorem Cell.setP_stores (k : Cell) (n : Nat) (v : Bool) : (k.setP n v).stores = k.stores := by
  unfold Cell.setP; split <;> rfl
@[simp] theorem Cell.setP_active (k : Cell) (n : Nat) (v : Bool) : (k.setP n v).active = k.active := by
  unfold Cell.setP; split <;> rfl
@[simp] theorem Cell.setP_evec (k : Cell) (n : Nat) (v : Bool) : (k.setP n v).evec = k.evec := by
  unfold Cell.setP; split <;> rfl
@[simp] theorem Cell.setP_evecEn (k : Cell) (n : Nat) (v : Bool) : (k.setP n v).evecEn = k.evecEn := by
  unfold Cell.setP; split <;> rfl
@[simp] theorem Cell.setP_epc (k : Cell) (n : Nat) (v : Bool) : (k.setP n v).epc = k.epc := by
  unfold Cell.setP; split <;> rfl
@[simp] theorem Cell.setP_ecause (k : Cell) (n : Nat) (v : Bool) : (k.setP n v).ecause = k.ecause := by
  unfold Cell.setP; split <;> rfl
@[simp] theorem Cell.setP_lq (k : Cell) (n : Nat) (v : Bool) : (k.setP n v).lq = k.lq := by
  unfold Cell.setP; split <;> rfl
@[simp] theorem Cell.setP_mxq (k : Cell) (n : Nat) (v : Bool) : (k.setP n v).mxq = k.mxq := by
  unfold Cell.setP; split <;> rfl
@[simp] theorem Cell.setP_vsq (k : Cell) (n : Nat) (v : Bool) : (k.setP n v).vsq = k.vsq := by
  unfold Cell.setP; split <;> rfl
@[simp] theorem Cell.setP_tiles (k : Cell) (n : Nat) (v : Bool) : (k.setP n v).tiles = k.tiles := by
  unfold Cell.setP; split <;> rfl
@[simp] theorem Cell.setP_xfers (k : Cell) (n : Nat) (v : Bool) : (k.setP n v).xfers = k.xfers := by
  unfold Cell.setP; split <;> rfl
@[simp] theorem Cell.setP_streams (k : Cell) (n : Nat) (v : Bool) : (k.setP n v).streams = k.streams := by
  unfold Cell.setP; split <;> rfl
@[simp] theorem Cell.setP_widens (k : Cell) (n : Nat) (v : Bool) : (k.setP n v).widens = k.widens := by
  unfold Cell.setP; split <;> rfl
@[simp] theorem Cell.setP_colls (k : Cell) (n : Nat) (v : Bool) : (k.setP n v).colls = k.colls := by
  unfold Cell.setP; split <;> rfl
@[simp] theorem Cell.setP_insns (k : Cell) (n : Nat) (v : Bool) : (k.setP n v).insns = k.insns := by
  unfold Cell.setP; split <;> rfl
@[simp] theorem Cell.setP_sreg (k : Cell) (n : Nat) (v : Bool) : (k.setP n v).sreg = k.sreg := by
  unfold Cell.setP; split <;> rfl
@[simp] theorem Cell.setP_areg (k : Cell) (n : Nat) (v : Bool) : (k.setP n v).areg = k.areg := by
  unfold Cell.setP; split <;> rfl

end Sys2Proof.Machine
end

