-- ==== Sys2Proof/Laws/Ops.lean ====
section
/-! SUPPORT. Laws of the shared operations: conditions and units, the issue of an instruction, exceptions, rings and
memory operations keep what they must. -/

namespace Sys2Proof.Machine

/-! ### Conditions -/

@[simp] theorem onUnit_true (s : State) : onUnit true s = .next s := rfl

@[simp] theorem onUnit_false (s : State) : onUnit false s = .fault .noSuchUnit := rfl

@[simp] theorem whenOk_true (s t : State) : whenOk true s t = t := rfl

@[simp] theorem whenOk_false (s t : State) : whenOk false s t = s := rfl

/-- A meaning over a unit answers a next state exactly where the unit exists. -/
theorem onUnit_next (ok : Bool) (s t : State) : onUnit ok s = .next t ↔ ok = true ∧ s = t := by
  cases ok <;> simp [onUnit]

/-- Setting or clearing one bit of eight changes that bit and no other. -/
theorem bitPut (p : BitVec 8) (n m : Fin 8) (v : Bool) :
    (if v then p ||| BitVec.ofNat 8 (2 ^ n.val) else p &&& ~~~(BitVec.ofNat 8 (2 ^ n.val))).getLsbD m
      = if m = n then v else p.getLsbD m := by
  have t : ∀ i : Nat, (BitVec.ofNat 8 (2 ^ n.val)).getLsbD i = decide (i < 8 ∧ n.val = i) := by
    intro i
    rw [BitVec.getLsbD_ofNat, Nat.testBit_two_pow]
    by_cases h1 : i < 8 <;> by_cases h2 : n.val = i <;> simp [h1, h2]
  by_cases e : m = n
  · subst e
    cases v
    · rw [if_neg (by decide), if_pos rfl, BitVec.getLsbD_and, BitVec.getLsbD_not, t]
      simp
    · rw [if_pos rfl, if_pos rfl, BitVec.getLsbD_or, t]
      simp
  · have e' : ¬ (m.val < 8 ∧ n.val = m.val) := by omega
    cases v
    · rw [if_neg (by decide), if_neg e, BitVec.getLsbD_and, BitVec.getLsbD_not, t, decide_eq_false e']
      simp
    · rw [if_pos rfl, if_neg e, BitVec.getLsbD_or, t, decide_eq_false e', Bool.or_false]

theorem Cell.p_setP (k : Cell) (n m : Nat) (v : Bool) (hn : n < 8) (hm : m < 8) :
    (k.setP n v).p m = if m = n ∧ n ≠ 0 then v else k.p m := by
  unfold Cell.setP Cell.p
  by_cases hn0 : n = 0
  · rw [if_pos hn0, if_neg (show ¬ (m = n ∧ n ≠ 0) from fun h => h.2 hn0)]
  · rw [if_neg hn0]
    by_cases h0 : m = 0
    · rw [if_pos h0, if_pos h0, if_neg (show ¬ (m = n ∧ n ≠ 0) from fun h => hn0 (h.1 ▸ h0))]
    · rw [if_neg h0, if_neg h0]
      have b := bitPut k.preg ⟨n, hn⟩ ⟨m, hm⟩ v
      by_cases e : m = n
      · rw [if_pos (show m = n ∧ n ≠ 0 from ⟨e, hn0⟩)]
        rw [if_pos (Fin.ext e)] at b
        exact b
      · rw [if_neg (show ¬ (m = n ∧ n ≠ 0) from fun h => e h.1)]
        rw [if_neg (fun h => e (congrArg Fin.val h))] at b
        exact b

/-! ### Issue -/

theorem State.correctWord_cell (s : State) (c i d : Nat) :
    (s.correctWord c i).cell d
      = if d = c then { s.cell c with imemCe := ((s.correctWord c i).cell c).imemCe } else s.cell d := by
  by_cases h : (s.cell c).imemCe.contains i = true
  · simp only [State.correctWord, if_pos h, State.cell_bump, State.cell_setCell, if_true]
  · simp only [State.correctWord, if_neg h]
    split
    · next e => rw [e]
    · rfl

theorem State.correctWord_reg (s : State) (c i off : Nat) (h : off ≠ Reg.cellImemCe c) :
    (s.correctWord c i).reg off = s.reg off := by
  unfold State.correctWord
  dsimp only
  split
  · rw [State.reg_bump, if_neg h]; rfl
  · rfl

/-- The correction of a word changes its cell's correctable words and one counter. -/
theorem State.correctWord_eq (s : State) (c i : Nat) :
    s.correctWord c i = { s with cells := (s.correctWord c i).cells, regs := (s.correctWord c i).regs } := by
  unfold State.correctWord
  dsimp only
  split <;> rfl

theorem State.fetchCe_cell (s : State) (c d : Nat) :
    (s.fetchCe c).cell d = if d = c then { s.cell c with imemCe := ((s.fetchCe c).cell c).imemCe } else s.cell d :=
  s.correctWord_cell c _ d

theorem State.fetchCe_cell_self (s : State) (c : Nat) :
    (s.fetchCe c).cell c = { s.cell c with imemCe := ((s.fetchCe c).cell c).imemCe } := by
  have h := s.fetchCe_cell c c
  rwa [if_pos rfl] at h

theorem State.fetchCe_reg (s : State) (c off : Nat) (h : off ≠ Reg.cellImemCe c) : (s.fetchCe c).reg off = s.reg off :=
  s.correctWord_reg c _ off h

theorem State.fetchCe_eq (s : State) (c : Nat) :
    s.fetchCe c = { s with cells := (s.fetchCe c).cells, regs := (s.fetchCe c).regs } :=
  s.correctWord_eq c _

/-- What an instruction that issues comes to: the end of its effect on the state in which it is computed. -/
theorem coreStep_issues {s : State} {c : Nat} {i : Instr} {gneg : Bool} {gp : BitVec 3} {uses : List Nat}
    (h : Issues s c i gneg gp uses) (cls opc len : Nat) (eff : State → Eff) :
    coreStep c i gneg gp cls opc len true uses eff s =
      .next ((s.fetched c cls opc).finish c i cls opc len (eff (s.fetched c cls opc))) := by
  obtain ⟨hc, hi, he, hg, hu⟩ := h
  have e := s.fetchCe_cell_self c
  have e1 : ((s.fetchCe c).cell c).imemErr = (s.cell c).imemErr := by rw [e]
  have e2 : ((s.fetchCe c).cell c).pc = (s.cell c).pc := by rw [e]
  have e3 : ∀ n, ((s.fetchCe c).cell c).p n = (s.cell c).p n := by intro n; rw [e]; rfl
  have e4 : ((s.fetchCe c).cell c).owed = (s.cell c).owed := by rw [e]
  unfold coreStep State.issue
  rw [show decide (c < 512) = true from decide_eq_true hc, hi, onUnit_true, whenOk_true]
  simp only [e1, e2, e3, e4, he, hg, hu]
  rfl

/-- The core of an instruction of one register result goes on, and nothing else changes. -/
theorem goesOn_coreGoes (s : State) (c : Nat) (k : Cell) (hk : k.imemCe = ((s.fetchCe c).cell c).imemCe) :
    CoreGoes s (((s.fetchCe c).setCell c k).goesOn c (s.cell c).pc) c
      (k.goTo (BitVec.ofNat 12 ((s.cell c).pc.toNat + 1))) := by
  have e := s.fetchCe_eq c
  unfold CoreGoes State.goesOn State.setPc State.countInsn Cell.goTo
  dsimp only
  refine ⟨?_, ?_, ?_, ?_⟩
  · split <;> (simp only [State.setCell, State.bump, State.bumpBy, State.setReg]; rw [e])
  · intro d hd
    have := s.fetchCe_cell c d
    rw [if_neg hd] at this
    split <;> simp [hd, this]
  · intro off h1 h2
    have := s.fetchCe_reg c off h2
    split
    · rw [State.reg_bump, if_neg h1]; simpa using this
    · simpa using this
  · split <;> simp [hk]

end Sys2Proof.Machine
end

