-- ==== Sys2Proof/Laws/Core.lean ====
section
/-! SUPPORT. Laws of instructions that change their own cell only: what an effect must be for the instruction to complete
with a given cell. -/

namespace Sys2Proof.Machine

/-- Two cells that differ in the correctable words of instruction memory at most. -/
def SameCore (k k' : Cell) : Prop := k = { k' with imemCe := k.imemCe }

theorem CoreGoes.congr {s t : State} {c : Nat} {k k' : Cell} (h : CoreGoes s t c k) (e : SameCore k k') :
    CoreGoes s t c k' := by
  obtain ⟨h1, h2, h3, h4⟩ := h
  exact ⟨h1, h2, h3, by rw [e] at h4; exact h4⟩

/-- The effect of an instruction is to change its cell to one that is `k'`, up to correctable words. -/
def CellEff (s : State) (c : Nat) (e : Eff) (k' : Cell) : Prop :=
  ∃ k : Cell, e = .done ((s.fetchCe c).setCell c k) ∧ k.imemCe = ((s.fetchCe c).cell c).imemCe ∧ SameCore k k'

theorem coreStep_cellEff {s : State} {c : Nat} {i : Instr} {gneg : Bool} {gp : BitVec 3} {uses : List Nat} {cls opc : Nat}
    {eff : State → Eff} {k' : Cell} (h : Issues s c i gneg gp uses) (hw : waitsStores cls opc = false)
    (hpc : (s.cell c).pc.toNat < 4095) (he : CellEff s c (eff (s.fetchCe c)) k') :
    ∃ t, coreStep c i gneg gp cls opc 1 true uses eff s = .next t ∧ CoreGoes s t c (k'.goTo ((s.cell c).pc + 1)) := by
  obtain ⟨k, e1, e2, e3⟩ := he
  refine ⟨_, coreStep_issues h _ _ _ _, ?_⟩
  have hf : s.fetched c cls opc = s.fetchCe c := by simp [State.fetched, hw]
  have epc : ((s.fetchCe c).cell c).pc = (s.cell c).pc := by rw [State.fetchCe_cell_self]
  rw [hf, e1]
  simp only [State.finish, epc]
  rw [if_pos (by omega)]
  have g := goesOn_coreGoes s c k e2
  have e : BitVec.ofNat 12 ((s.cell c).pc.toNat + 1) = (s.cell c).pc + 1 := by
    apply BitVec.eq_of_toNat_eq; simp
  rw [e] at g
  refine g.congr ?_
  unfold SameCore Cell.goTo at *
  rw [e3]

theorem rCompletes_of {s : State} {c : Nat} {i : Instr} {o : ROps} {cls opc : Nat} {uses : List Nat} {eff : State → Eff}
    {k : Cell} (hx : exec i s = coreR c i o cls opc uses eff s) (hw : waitsStores cls opc = false)
    (he : CellEff s c (eff (s.fetchCe c)) k) : RCompletes s c i o cls opc uses k := by
  intro h hl hpc
  rw [hx, coreR, hl]
  exact coreStep_cellEff h hw hpc he

theorem iCompletes_of {s : State} {c : Nat} {i : Instr} {o : IOps} {cls opc : Nat} {uses : List Nat} {eff : State → Eff}
    {k : Cell} (hx : exec i s = coreI c i o cls opc uses eff s) (hw : waitsStores cls opc = false)
    (he : CellEff s c (eff (s.fetchCe c)) k) : ICompletes s c i o cls opc uses k := by
  intro h hl hpc
  rw [hx, coreI, hl]
  exact coreStep_cellEff h hw hpc he

theorem uCompletes_of {s : State} {c : Nat} {i : Instr} {o : UOps} {opc : Nat} {uses : List Nat} {eff : State → Eff}
    {k : Cell} (hx : exec i s = coreU c i o opc uses eff s) (hw : waitsStores 0x01 opc = false)
    (he : CellEff s c (eff (s.fetchCe c)) k) : UCompletes s c i o opc uses k := by
  intro h hl hpc
  rw [hx, coreU, hl]
  exact coreStep_cellEff h hw hpc he

/-! ### Registers of the fetched cell -/

@[simp] theorem fetchCe_s (s : State) (c n : Nat) : ((s.fetchCe c).cell c).s n = (s.cell c).s n := by
  rw [State.fetchCe_cell_self]; rfl

@[simp] theorem fetchCe_a (s : State) (c n : Nat) : ((s.fetchCe c).cell c).a n = (s.cell c).a n := by
  rw [State.fetchCe_cell_self]; rfl

@[simp] theorem fetchCe_p (s : State) (c n : Nat) : ((s.fetchCe c).cell c).p n = (s.cell c).p n := by
  rw [State.fetchCe_cell_self]; rfl

@[simp] theorem fetchCe_pc (s : State) (c : Nat) : ((s.fetchCe c).cell c).pc = (s.cell c).pc := by
  rw [State.fetchCe_cell_self]

theorem effS_cell (s : State) (c sd : Nat) (v : W64) :
    CellEff s c (effS c sd v (s.fetchCe c)) ((s.cell c).setS sd v) := by
  refine ⟨_, rfl, ?_, ?_⟩
  · unfold Cell.setS; split <;> rfl
  · unfold SameCore; rw [State.fetchCe_cell_self]; unfold Cell.setS; split <;> rfl

theorem effP_cell (s : State) (c pd : Nat) (v : Bool) :
    CellEff s c (effP c pd v (s.fetchCe c)) ((s.cell c).setP pd v) := by
  refine ⟨_, rfl, ?_, ?_⟩
  · unfold Cell.setP; split <;> rfl
  · unfold SameCore; rw [State.fetchCe_cell_self]; unfold Cell.setP; split <;> rfl

theorem effA_cell (s : State) (c ad : Nat) (v : W32) :
    CellEff s c (effA c ad v (s.fetchCe c)) ((s.cell c).setA ad v) := by
  refine ⟨_, rfl, rfl, ?_⟩
  unfold SameCore; rw [State.fetchCe_cell_self]; rfl

end Sys2Proof.Machine
end

