-- ==== Sys2Proof/Laws/Memory.lean ====
section
/-! SUPPORT. The two memories keep their canonical form: at reset, and through every operation that writes them. -/

namespace Sys2Proof.Machine

/-- Both memories of a state are in canonical form. -/
abbrev State.memWf (s : State) : Prop := Memory.wf s.spad = true ∧ Memory.wf s.hbm = true

theorem reset_memWf : State.reset.memWf := ⟨rfl, rfl⟩

/-- Bytes moved into a memory one by one keep its form. -/
theorem moved_wf (f : Nat × Byte → Nat) : ∀ (l : List (Nat × Byte)) (m : List (Nat × Byte)), Memory.wf m = true →
    Memory.wf (l.foldl (fun m p => tabSet zeroByte m (f p) p.2) m) = true
  | [], _, h => h
  | p :: l, _, h => moved_wf f l _ (tabWf_tabSet (f p) p.2 h)

/-- Bytes written span by span into a memory keep its form. -/
theorem spans_wf (f : Nat × Nat → List Byte) : ∀ (l : List (Nat × Nat)) (m : List (Nat × Byte)), Memory.wf m = true →
    Memory.wf (l.foldl (fun m x => memWrite m x.1 (f x)) m) = true
  | [], _, h => h
  | x :: l, _, h => spans_wf f l _ (memWrite_wf x.1 (f x) h)

@[simp] theorem raceRegs_hbm (hit : Nat → List Nat) (s : State) (c : Nat) : (State.raceRegs hit s c).hbm = s.hbm := by
  unfold State.raceRegs; dsimp only; (repeat' split) <;> rfl

theorem raceRegs_fold_hbm (hit : Nat → List Nat) : ∀ (l : List Nat) (s : State), (l.foldl (State.raceRegs hit) s).hbm = s.hbm
  | [], _ => rfl
  | c :: l, s => by rw [List.foldl_cons, raceRegs_fold_hbm hit l, raceRegs_hbm]

@[simp] theorem raceWrite_hbm (s : State) (a n : Nat) : (s.raceWrite a n).hbm = s.hbm := by
  unfold State.raceWrite
  split
  · rfl
  · exact raceRegs_fold_hbm _ _ s

@[simp] theorem derivedBy_nil (s : State) : s.derivedBy [] = [] := by
  simp [State.derivedBy, Cell.hitBy]

/-- Nothing rests on what nothing rests on. -/
theorem derivedFrom_nil (s : State) (l : List (Nat × Nat)) (h : s.derivedBy l = []) : ∀ f, s.derivedFrom l f = []
  | 0 => h
  | f + 1 => by simp [State.derivedFrom, derivedFrom_nil s l h f]

/-- A span that rests on a write is one that a vector instruction has noted in its cell. -/
theorem derivedBy_noted {s : State} {l : List (Nat × Nat)} {x : Nat × Nat} (h : x ∈ s.derivedBy l) :
    ∃ p ∈ s.cells, ∃ r ∈ p.2.mxDerived, r.2 = x := by
  obtain ⟨p, hp, hx⟩ := List.mem_flatMap.mp h
  obtain ⟨r, hr, rfl⟩ := List.mem_map.mp hx
  exact ⟨p, hp, r, (List.mem_filter.mp hr).1, rfl⟩

theorem derivedFrom_noted {s : State} {l : List (Nat × Nat)} {x : Nat × Nat} :
    ∀ f, x ∈ s.derivedFrom l f → ∃ p ∈ s.cells, ∃ r ∈ p.2.mxDerived, r.2 = x
  | 0, h => derivedBy_noted h
  | f + 1, h => by
    rcases List.mem_append.mp (List.mem_dedup.mp h) with h | h
    · exact derivedFrom_noted f h
    · exact derivedBy_noted h

/-- Spans written one after another leave a byte that lies in none of them. -/
theorem spans_outside (f : Nat × Nat → List Byte) (y : Nat) : ∀ (l : List (Nat × Nat)) (m : List (Nat × Byte)),
    (∀ x ∈ l, (f x).length = x.2 ∧ (y < x.1 ∨ x.1 + x.2 ≤ y)) →
      memByte (l.foldl (fun m x => memWrite m x.1 (f x)) m) y = memByte m y
  | [], _, _ => rfl
  | x :: l, m, h => by
    obtain ⟨hn, hy⟩ := h x List.mem_cons_self
    rw [List.foldl_cons, spans_outside f y l _ (fun z hz => h z (List.mem_cons_of_mem _ hz)),
      memByte_outside m x.1 y (f x) (by rw [hn]; exact hy)]

/-- A write leaves every byte alone that no vector instruction has made of operands not known to be read. -/
theorem raceWrite_closed (s : State) (a n y : Nat) (h : ¬s.openByte y) :
    memByte (s.raceWrite a n).spad y = memByte s.spad y := by
  unfold State.raceWrite
  split
  · rfl
  · refine spans_outside (fun x => (List.range x.2).map (fun i => Config.freeByte (s.free + 2 ^ 36 + x.1 + i))) y _ _
      (fun x hx => ⟨by simp, ?_⟩)
    obtain ⟨p, hp, r, hr, rfl⟩ := derivedFrom_noted _ hx
    by_contra hc
    exact h ⟨p, hp, r, hr, by omega⟩

/-- The bytes that a write leaves undefined are those that vector instructions have made of the operands written (R153). -/
theorem raceWrite_spad (s : State) (a n : Nat) (h : s.derivedBy [(a, n)] = []) : (s.raceWrite a n).spad = s.spad := by
  unfold State.raceWrite
  split
  · rfl
  · simp only [derivedFrom_nil s _ h, List.foldl_nil]

theorem raceWrite_wf (s : State) (a n : Nat) (h : Memory.wf s.spad = true) : Memory.wf (s.raceWrite a n).spad = true := by
  unfold State.raceWrite
  split
  · exact h
  · exact spans_wf _ _ _ h

/-- A write of scratchpad on which no vector result rests writes its bytes and no other. -/
theorem spadWrite_spad (s : State) (a : Nat) (bs : List Byte) (h : s.derivedBy [(a, bs.length)] = []) :
    (s.spadWrite a bs).spad = memWrite s.spad a bs := by
  show memWrite (s.raceWrite a bs.length).spad a bs = _
  rw [raceWrite_spad s a bs.length h]

@[simp] theorem spadWrite_hbm (s : State) (a : Nat) (bs : List Byte) : (s.spadWrite a bs).hbm = s.hbm :=
  raceWrite_hbm s a bs.length

/-- A write of scratchpad keeps the form, and leaves HBM. -/
theorem spadWrite_memWf (s : State) (a : Nat) (bs : List Byte) (h : s.memWf) : (s.spadWrite a bs).memWf := by
  constructor
  · exact memWrite_wf a bs (raceWrite_wf s a bs.length h.1)
  · rw [spadWrite_hbm]; exact h.2

/-- A write of a frame keeps the form. -/
theorem frameWrite_memWf (s : State) (f off : Nat) (bs : List Byte) (h : s.memWf) : (s.frameWrite f off bs).memWf :=
  ⟨h.1, memWrite_wf _ bs h.2⟩

/-- Zeroing a frame keeps the form. -/
theorem zeroFrame_memWf (s : State) (f : Nat) (h : s.memWf) : (s.zeroFrame f).memWf := ⟨h.1, memClear_wf _ _ h.2⟩

/-- Copying a frame keeps the form. -/
theorem copyFrame_memWf (s : State) (src dst : Nat) (h : s.memWf) : (s.copyFrame src dst).memWf :=
  ⟨h.1, moved_wf _ _ _ (memClear_wf _ _ h.2)⟩

/-- Copying a segment of a page keeps the form (R273). -/
theorem copySeg_memWf (s : State) (a b n : Nat) (h : s.memWf) : (State.copySeg a b s n).memWf :=
  ⟨h.1, moved_wf _ _ _ (memClear_wf _ _ h.2)⟩

/-- A byte that a write of scratchpad does not cover reads as before, where no vector result rests on what is written. -/
theorem spadWrite_outside (s : State) (a x : Nat) (bs : List Byte) (hd : s.derivedBy [(a, bs.length)] = [])
    (h : x < a ∨ a + bs.length ≤ x) : memByte (s.spadWrite a bs).spad x = memByte s.spad x := by
  rw [spadWrite_spad s a bs hd]; exact memByte_outside s.spad a x bs h

/-- A write of scratchpad changes its own bytes, and those that R153 leaves undefined. -/
theorem spadWrite_other (s : State) (a : Nat) (bs : List Byte) : OtherBytes s (s.spadWrite a bs) a bs.length := by
  intro x hx ho
  show memByte (memWrite (s.raceWrite a bs.length).spad a bs) x = _
  rw [memByte_outside _ a x bs hx, raceWrite_closed s a bs.length x ho]

/-- A write of scratchpad leaves its bytes there. -/
theorem spadWrite_inside (s : State) (a j : Nat) (bs : List Byte) (h : j < bs.length) :
    memByte (s.spadWrite a bs).spad (a + j) = bs.getD j 0 := by
  show memByte (memWrite (s.raceWrite a bs.length).spad a bs) (a + j) = _
  rw [memByte_memWrite, if_pos (by omega), Nat.add_sub_cancel_left]

/-- A byte that a write of a frame does not cover reads as before. -/
theorem frameWrite_outside (s : State) (f off x : Nat) (bs : List Byte)
    (h : x < pageBytes * f + off ∨ pageBytes * f + off + bs.length ≤ x) :
    memByte (s.frameWrite f off bs).hbm x = memByte s.hbm x := memByte_outside s.hbm _ x bs h

end Sys2Proof.Machine
end

