-- ==== Sys2Proof/Laws/Issue.lean ====
section
/-! SUPPORT. What a write of scratchpad leaves of a cell (R153), and what an instruction that issues comes to: done, an
exception, or a stall. -/

namespace Sys2Proof.Machine

theorem tabGet_map {V : Type} (d : Nat → V) (f : Nat → V → V) (hf : ∀ n, f n (d n) = d n) : ∀ (m : List (Nat × V)) (k : Nat),
    tabGet d (m.map (fun p => (p.1, f p.1 p.2))) k = f k (tabGet d m k)
  | [], k => (hf k).symm
  | p :: m, k => by
    rw [List.map_cons]
    show (if k = p.1 then f p.1 p.2 else tabGet d (m.map _) k) = f k (if k = p.1 then p.2 else tabGet d m k)
    rw [tabGet_map d f hf m k]
    split
    · rename_i h; rw [h]
    · rfl

/-- A write of scratchpad leaves of each cell everything but what rests on matrix operands that it hits (R153). -/
theorem raceWrite_cell (s : State) (a n c : Nat) : ∃ f hs, (s.raceWrite a n).cell c = (s.cell c).raced f hs := by
  unfold State.raceWrite
  split
  · exact ⟨0, [], by simp [Cell.raced]⟩
  · dsimp only
    unfold State.cell
    rw [tabGet_map (fun _ => ({} : Cell)) (fun k v => v.raced (s.free + 2 ^ 16 * k)
      (v.hitBy ((a, n) :: s.derivedFrom [(a, n)] (s.cells.map (fun p => p.2.mxDerived.length)).sum)))
      (fun n => by simp [Cell.hitBy, Cell.raced])]
    exact ⟨_, _, rfl⟩

theorem spadWrite_cell (s : State) (a c : Nat) (bs : List Byte) : ∃ f hs, (s.spadWrite a bs).cell c = (s.cell c).raced f hs :=
  raceWrite_cell s a bs.length c

theorem raced_same (f : Nat) (hs : List Nat) (k : Cell) :
    k.raced f hs = { k with mxRaced := (k.raced f hs).mxRaced, tiles := (k.raced f hs).tiles, lastTsw := (k.raced f hs).lastTsw } := by
  unfold Cell.raced; split <;> rfl

/-- Of a cell, writes of scratchpad change its tiles, the status words of its ended tiles and the mark of R153 at most. -/
theorem spadWrites_cell (l : List StoreEntry) (c : Nat) : ∀ s : State, ∃ r t w,
    (l.foldl (fun t e => t.spadWrite e.addr e.bytes) s).cell c = { s.cell c with mxRaced := r, tiles := t, lastTsw := w } := by
  induction l with
  | nil => exact fun s => ⟨_, _, _, rfl⟩
  | cons e l ih =>
    intro s
    obtain ⟨r, t, w, h⟩ := ih (s.spadWrite e.addr e.bytes)
    obtain ⟨f, hs, h'⟩ := spadWrite_cell s e.addr c e.bytes
    rw [h', raced_same] at h
    exact ⟨r, t, w, h⟩

theorem drainStores_cell (s : State) (c d : Nat) : ∃ r t w,
    (s.drainStores c).cell d = { s.cell d with mxRaced := r, tiles := t, lastTsw := w,
                                               stores := if d = c then [] else (s.cell d).stores } := by
  unfold State.drainStores
  dsimp only
  split
  · rename_i h
    refine ⟨(s.cell d).mxRaced, (s.cell d).tiles, (s.cell d).lastTsw, ?_⟩
    by_cases e : d = c
    · subst e; rw [if_pos rfl]; rw [List.isEmpty_iff] at h; rw [← h]
    · rw [if_neg e]
  · obtain ⟨r, t, w, h⟩ := spadWrites_cell (s.cell c).stores c s
    obtain ⟨r', t', w', h'⟩ := spadWrites_cell (s.cell c).stores d s
    by_cases e : d = c
    · subst e; exact ⟨r, t, w, by simp [h]⟩
    · exact ⟨r', t', w', by simp [e, h']⟩

/-- The state in which an effect is computed has, of every cell, the registers and the PC as they were. -/
theorem fetched_pc (s : State) (c cls opc : Nat) : ((s.fetched c cls opc).cell c).pc = (s.cell c).pc := by
  unfold State.fetched
  split
  · obtain ⟨r, t, w, h⟩ := drainStores_cell (s.fetchCe c) c c
    rw [h]; simp
  · simp

theorem fetched_s (s : State) (c cls opc n : Nat) : ((s.fetched c cls opc).cell c).s n = (s.cell c).s n := by
  unfold State.fetched
  split
  · obtain ⟨r, t, w, h⟩ := drainStores_cell (s.fetchCe c) c c
    rw [h]; exact fetchCe_s s c n
  · simp

theorem fetched_a (s : State) (c cls opc n : Nat) : ((s.fetched c cls opc).cell c).a n = (s.cell c).a n := by
  unfold State.fetched
  split
  · obtain ⟨r, t, w, h⟩ := drainStores_cell (s.fetchCe c) c c
    rw [h]; exact fetchCe_a s c n
  · simp

/-- What an instruction of format R comes to where it issues with a legal word. -/
theorem coreR_issues {s : State} {c : Nat} {i : Instr} {o : ROps} {cls opc : Nat} {uses : List Nat} {eff : State → Eff}
    (hx : exec i s = coreR c i o cls opc uses eff s) (h : Issues s c i o.gneg o.gp uses) (hl : rLegal cls opc o = true) :
    exec i s = .next ((s.fetched c cls opc).finish c i cls opc 1 (eff (s.fetched c cls opc))) := by
  rw [hx, coreR, hl]; exact coreStep_issues h cls opc 1 eff

/-- An instruction of format R whose effect is done goes on at the next word. -/
theorem rLeaves_of {s t : State} {c : Nat} {i : Instr} {o : ROps} {cls opc : Nat} {uses : List Nat} {eff : State → Eff}
    (hx : exec i s = coreR c i o cls opc uses eff s) (he : eff (s.fetched c cls opc) = .done t) :
    RLeaves s c i o cls opc uses t := by
  intro h hl hp
  rw [coreR_issues hx h hl, he]
  simp only [State.finish, fetched_pc]
  rw [if_pos (by omega)]
  rfl

/-- One whose effect raises a cause takes the exception. -/
theorem rTraps_of {s : State} {c : Nat} {i : Instr} {o : ROps} {cls opc cause : Nat} {uses : List Nat} {eff : State → Eff}
    (hx : exec i s = coreR c i o cls opc uses eff s) (he : eff (s.fetched c cls opc) = .exc cause 0) :
    RTraps s c i o cls opc uses cause := by
  intro h hl
  rw [coreR_issues hx h hl, he]
  rfl

/-- One whose effect stalls stalls its core. -/
theorem rStalls_of {s : State} {c : Nat} {i : Instr} {o : ROps} {cls opc : Nat} {uses : List Nat} {eff : State → Eff}
    (hx : exec i s = coreR c i o cls opc uses eff s) (he : eff (s.fetched c cls opc) = .stall) :
    RStalls s c i o cls opc uses := by
  intro h hl
  rw [coreR_issues hx h hl, he]
  rfl

end Sys2Proof.Machine
end

