-- ==== Sys2Proof/Laws/Reports.lean ====
section
/-! SUPPORT. Reports touch the rings, registers and outputs only: they commute with a change of the boot part. -/

namespace Sys2Proof.Machine

/-- A state with another boot part. -/
def State.withBoot (s : State) (b : Boot) : State := { s with boot := b }

theorem State.setRing_withBoot (s : State) (b : Boot) (r : RingRegs) (g : Ring) :
    (s.withBoot b).setRing r g = (s.setRing r g).withBoot b := by
  unfold State.setRing; split <;> rfl

theorem State.toHost_withBoot (s : State) (b : Boot) (o : Output) :
    (s.withBoot b).toHost o = (s.toHost o).withBoot b := by
  have e : (s.withBoot b).insecure 0 = s.insecure 0 := rfl
  simp only [State.toHost, e]
  split <;> rfl

theorem State.msix_withBoot (s : State) (b : Boot) (v : Nat) : (s.withBoot b).msix v = (s.msix v).withBoot b := by
  have e : (s.withBoot b).reg = s.reg := rfl
  simp only [State.msix, e, State.toHost_withBoot]
  split <;> rfl

theorem State.ringWrite_withBoot (s : State) (b : Boot) (r : RingRegs) (x : RingRec) :
    (s.withBoot b).ringWrite r x = (s.ringWrite r x).withBoot b := by
  have e1 : (s.withBoot b).ring r = s.ring r := rfl
  have e2 : (s.withBoot b).ringSize r = s.ringSize r := rfl
  have e3 : (s.withBoot b).fld = s.fld := rfl
  have e4 : (s.withBoot b).reg64 = s.reg64 := rfl
  have e5 : (s.withBoot b).epoch = s.epoch := rfl
  have e6 : (s.withBoot b).pitch = s.pitch := rfl
  have e8 : ∀ (t : State) o l w v, (t.withBoot b).setFld o l w v = (t.setFld o l w v).withBoot b := fun _ _ _ _ _ => rfl
  simp only [State.ringWrite, e1, e2, e3, e4, e5, e6, e8, State.toHost_withBoot, State.setRing_withBoot, State.msix_withBoot]
  split <;> rfl

theorem State.ringLose_withBoot (s : State) (b : Boot) (r : RingRegs) :
    (s.withBoot b).ringLose r = (s.ringLose r).withBoot b := by
  have e : (s.withBoot b).bump r.lost = (s.bump r.lost).withBoot b := rfl
  have f : (s.withBoot b).ring r = s.ring r := rfl
  simp only [State.ringLose, e, f, State.setRing_withBoot]

theorem State.ringHeld_withBoot (r : RingRegs) (b : Boot) : ∀ (n : Nat) (s : State),
    State.ringHeld r n (s.withBoot b) = (State.ringHeld r n s).withBoot b
  | 0, s => rfl
  | n + 1, s => by
    have e : (s.withBoot b).ring r = s.ring r := rfl
    have f : (s.withBoot b).ringFull r = s.ringFull r := rfl
    simp only [State.ringHeld, e, f, State.setRing_withBoot]
    split
    · rfl
    · split
      · rfl
      · rw [State.ringWrite_withBoot, State.ringHeld_withBoot r b n]

theorem State.ringDrain_withBoot (s : State) (b : Boot) (r : RingRegs) :
    (s.withBoot b).ringDrain r = ((s.ringDrain r).1, (s.ringDrain r).2.withBoot b) := by
  have e0 : (s.withBoot b).ringOn r = s.ringOn r := rfl
  have e1 : ∀ t : State, (t.withBoot b).ring r = t.ring r := fun _ => rfl
  have e2 : ∀ t : State, (t.withBoot b).ringFull r = t.ringFull r := fun _ => rfl
  have e3 : (s.withBoot b).pitch = s.pitch := rfl
  simp only [State.ringDrain, e0, e1, e2, e3, State.ringHeld_withBoot, State.setRing_withBoot, State.ringWrite_withBoot]
  split
  · split <;> rfl
  · rfl

theorem State.ringPut_withBoot (s : State) (b : Boot) (r : RingRegs) (x : RingRec) :
    ((s.withBoot b).ringPut r x).2 = (s.ringPut r x).2.withBoot b := by
  have e0 : (s.withBoot b).ringOn r = s.ringOn r := rfl
  have e1 : ∀ t : State, (t.withBoot b).ring r = t.ring r := fun _ => rfl
  have e2 : ∀ t : State, (t.withBoot b).ringFull r = t.ringFull r := fun _ => rfl
  simp only [State.ringPut, e0, e1, e2, State.ringDrain_withBoot, State.setRing_withBoot, State.ringWrite_withBoot,
    State.ringLose_withBoot]
  split
  · split <;> rfl
  · split <;> rfl

/-- A report goes to the event ring whatever the boot part holds, and leaves it. -/
theorem State.report_withBoot (s : State) (b : Boot) (code unit data : Nat) :
    (s.withBoot b).report code unit data = (s.report code unit data).withBoot b :=
  State.ringPut_withBoot s b evtRing _

end Sys2Proof.Machine
end

