-- ==== Sys2Proof/Machine/Events.lean ====
section
/-! DEFINITION. The action classes of events (R493, R494, Tables 17-1 and 17-2). -/

namespace Sys2Proof.Machine

/-- The action classes of Table 17-1: record, track, remove the cause, restore the job, restore data and job, service the
module. -/
inductive EventClass where
  | n | t | s | j | c | h
  deriving DecidableEq, Repr

/-- The codes of Table 17-2 in each class. -/
def classCodes : List (EventClass × List Nat) :=
  [(.n, [0x0101, 0x0104, 0x0203, 0x0208, 0x0306, 0x0401, 0x040A, 0x040B, 0x0502, 0x0601, 0x0701, 0x0706, 0x0720]),
   (.t, [0x0102, 0x0201, 0x0202, 0x020A, 0x0302, 0x0305, 0x0309, 0x0503, 0x0504, 0x0505, 0x0510, 0x0511, 0x0605, 0x0705,
     0x0803]),
   (.s, [0x0105, 0x0110, 0x0111, 0x0204, 0x0207, 0x0301, 0x0303, 0x0304, 0x0307, 0x0308, 0x030A, 0x0380, 0x0381, 0x0402,
     0x0403, 0x0404, 0x0405, 0x0406, 0x0407, 0x0408, 0x0409, 0x040C, 0x040D, 0x040E, 0x0501, 0x0506, 0x0507, 0x0512, 0x0604,
     0x0607, 0x0608, 0x0702, 0x0710, 0x0711, 0x0740, 0x0741, 0x0801, 0x0802, 0x0804]),
   (.j, [0x0103, 0x0602, 0x0603]),
   (.c, [0x0606]),
   (.h, [0x0205, 0x0206, 0x0209, 0x0703, 0x0704, 0x0805])]

/-- The class of an event code; a code that is not in Table 17-2 is treated as class N (R494). -/
def eventClass (code : Nat) : EventClass := ((classCodes.find? (fun k => k.2.contains code)).map (·.1)).getD .n

/-- Must the host take the action of Table 17-2 (R493)? -/
def actionRequired (code : Nat) : Bool :=
  match eventClass code with
  | .n => false
  | .t => false
  | _ => true

end Sys2Proof.Machine
end

