-- ==== Sys2Proof/Machine/Wire.lean ====
section
/-! DEFINITION. What stands on the wire of a fabric port: flits, link flits and guyline cells as bytes, the stream of units,
and the codewords that carry it (R330 to R333, R336 to R338). The outputs of the block are messages, returns and cells; here
is what each of them is on its port, and which command a received unit comes to. -/

namespace Sys2Proof.Machine

/-! ### CRC-32C -/

/-- One bit of the reflected CRC with the polynomial of Castagnoli (PRESUMED, log entry 59: the manual names CRC-32C alone). -/
def crcBit (c : Nat) : Nat := if c % 2 = 1 then Nat.xor (c / 2) 0x82F63B78 else c / 2

/-- One byte of it. -/
def crcByte (c : Nat) (b : Byte) : Nat :=
  crcBit (crcBit (crcBit (crcBit (crcBit (crcBit (crcBit (crcBit (Nat.xor c b.toNat))))))))

/-- CRC-32C of some bytes. -/
def crc32c (bs : List Byte) : Nat := Nat.xor (bs.foldl crcByte 0xFFFFFFFF) 0xFFFFFFFF

/-! ### Flits (R332, R333) -/

/-- The fields of a flit header (Table 11-2), without FCRC. -/
structure FlitHead where
  link : Bool := false
  vl : Nat := 0
  ar : Bool := false
  som : Bool := false
  eom : Bool := false
  esc : Bool := false
  dst : BitVec 17 := 0
  src : BitVec 17 := 0
  hops : Nat := 0
  len : Nat := 1
  crvl : Nat := 0
  crpool : Nat := 3
  crcnt : Nat := 0
  deriving DecidableEq, Repr

/-- Bits [95:0] of a flit header (Table 11-2). -/
def FlitHead.bits (f : FlitHead) : Nat :=
  (if f.link then 2 else 1) + 2 ^ 8 * (f.vl % 8) + 2 ^ 11 * b2n f.ar + 2 ^ 12 * b2n f.som + 2 ^ 13 * b2n f.eom
    + 2 ^ 14 * b2n f.esc + 2 ^ 16 * f.dst.toNat + 2 ^ 33 * f.src.toNat + 2 ^ 50 * (f.hops % 64) + 2 ^ 56 * (f.len % 256)
    + 2 ^ 64 * (f.crvl % 8) + 2 ^ 67 * (f.crpool % 4) + 2 ^ 72 * (f.crcnt % 256)

/-- The header that the first 12 bytes of a flit hold. -/
def flitHead (w : Nat) : FlitHead :=
  { link := field w 7 0 == 2, vl := field w 10 8, ar := w.testBit 11, som := w.testBit 12, eom := w.testBit 13,
    esc := w.testBit 14, dst := BitVec.ofNat 17 (field w 32 16), src := BitVec.ofNat 17 (field w 49 33),
    hops := field w 55 50, len := field w 63 56, crvl := field w 66 64, crpool := field w 68 67, crcnt := field w 79 72 }

/-- The 256 bytes of a flit: the header, with FCRC over bytes 0 to 11 and 16 to 255, and 240 payload bytes. A flit that is
not `good` has another FCRC. -/
def flitBytes (f : FlitHead) (good : Bool) (payload : List Byte) : List Byte :=
  let a := leBytes 12 f.bits
  let b := padBytes 240 payload
  a ++ leBytes 4 (Nat.xor (crc32c (a ++ b)) (b2n (!good))) ++ b

/-- The bytes of a message on the wire: the header's sixteen words and LEN − 64 bytes of payload (R333, R339). -/
def msgBytes (h : Hdr) (payload : List Byte) : List Byte := hdrBytes h ++ padBytes (h.len.toNat - 64) payload

/-- The flits of a message (R333): SOM on the first, EOM on the last. Its credit returns go in link flits, so CRPOOL is 3
(DESIGN CHOICE, log entry 59). One that arrived damaged goes on damaged, in its last flit. -/
def msgFlits (vl : Nat) (ar esc : Bool) (hops : Nat) (intact : Bool) (h : Hdr) (payload : List Byte) : List (List Byte) :=
  let b := msgBytes h payload
  let n := flitsOf h
  (List.range n).map (fun i =>
    flitBytes { vl := vl, ar := ar, som := i == 0, eom := i + 1 == n, esc := esc, dst := h.dst, src := h.src, hops := hops,
                len := min 240 (h.len.toNat - 240 * i) } (intact || i + 1 != n) ((b.drop (240 * i)).take 240))

/-! ### Link flits (R336) -/

/-- The identity that a link flit carries: serial, address, VALID and port (DESIGN CHOICE, log entry 59 for the bytes). -/
def portIdBytes (w : PortId) : List Byte :=
  leBytes 8 w.serial ++ leBytes 4 (w.addr.toNat + 2 ^ 17 * b2n w.valid + 2 ^ 18 * (w.port % 2 ^ 5))

/-- A link flit with a credit return. -/
def returnFlit (vl pool count : Nat) (who : PortId) : List Byte :=
  flitBytes { link := true, len := 12, crvl := vl, crpool := pool, crcnt := count } true (portIdBytes who)

/-- A link flit with the cumulative counts of every lane and pool, behind the identity (DESIGN CHOICE, log entry 59). -/
def countsFlit (counts : List Nat) (who : PortId) : List Byte :=
  flitBytes { link := true, len := 33 } true (portIdBytes who ++ counts.map (BitVec.ofNat 8))

/-! ### Guyline cells (R338) -/

/-- The 16 bytes of a cell whose bits [95:0] are given: CRC-32C over bytes 0 to 11. -/
def cellBytes (w : Nat) (good : Bool) : List Byte :=
  let a := leBytes 12 w
  a ++ leBytes 4 (Nat.xor (crc32c a) (b2n (!good)))

/-- A contribution or a verdict (Table 11-4). -/
def guyBytes (verdict : Bool) (g : GuyCell) : List Byte :=
  cellBytes ((if verdict then 0xC2 else 0xC1) + 2 ^ 8 * g.seq.toNat + 2 ^ 11 * b2n g.copy + 2 ^ 12 * g.flags.toNat
    + 2 ^ 16 * g.epoch.toNat + 2 ^ 48 * g.tseal.toNat) g.good

/-- A timing cell (Table 11-4). -/
def timeBytes (kind : Nat) (g : TimeCell) : List Byte :=
  cellBytes (0xC3 + kind % 3 + 2 ^ 8 * g.seq.toNat + 2 ^ 11 * b2n g.copy + 2 ^ 16 * (g.frac % 1024)
    + 2 ^ 26 * (g.tick % 2 ^ 64)) g.good

/-! ### The stream and its codewords (R330, R331) -/

/-- The units of an output on a port, each with whether it has to wait for the next codeword: the repeat copy of a cell does
(R337). -/
def Output.units (p : Nat) : Output → List (Bool × List Byte)
  | .send q vl _ ar esc hops intact h payload =>
    if q = p then (msgFlits vl ar esc hops intact h payload).map (fun b => (false, b)) else []
  | .guyline q verdict g => if q = p then [(g.copy, guyBytes verdict g)] else []
  | .timing q kind g => if q = p then [(g.copy, timeBytes kind g)] else []
  | .creditReturn q vl pool count who => if q = p then [(false, returnFlit vl pool count who)] else []
  | .credits q counts who => if q = p then [(false, countsFlit counts who)] else []
  | _ => []

/-- Bytes of stream in a codeword. -/
def cwBytes : Nat := 640

/-- Idle units up to the end of the codeword in hand. -/
def fillIdle (n : Nat) : List (List Byte) := List.replicate ((cwBytes - n % cwBytes) % cwBytes / 16) (List.replicate 16 0)

/-- Lays units out one after another, with idle units where one waits for the next codeword and at the end; `n` is how many
bytes stand before. -/
def layUnits : Nat → List (Bool × List Byte) → List (List Byte)
  | n, [] => fillIdle n
  | n, (next, b) :: us =>
    let idle := if next then fillIdle n else []
    idle ++ b :: layUnits (n + 16 * idle.length + b.length) us

/-- The offsets at which units begin. -/
def unitStarts : Nat → List (List Byte) → List Nat
  | _, [] => []
  | n, b :: us => n :: unitStarts (n + b.length) us

/-- A codeword before its parity: 640 bytes of stream, FIRST and the sequence number (R330). -/
structure Codeword where
  stream : List Byte
  first : Nat
  seq : Nat
  deriving DecidableEq, Repr

/-- The codewords that carry some units, numbered from `seq` on: FIRST is the first beat that begins a unit, or 63. -/
def codewords (seq : Nat) (us : List (List Byte)) : List Codeword :=
  let b := us.flatMap id
  let starts := unitStarts 0 us
  (List.range (b.length / cwBytes)).map (fun i =>
    { stream := (b.drop (cwBytes * i)).take cwBytes,
      first := ((List.range 40).find? (fun j => starts.contains (cwBytes * i + 16 * j))).getD 63,
      seq := (seq + i) % 16 })

/-- The codewords that have left on a port, from the first on, without those that held idle units alone (DESIGN CHOICE, log
entry 59 for the number of the first). -/
def State.portWire (s : State) (p : Nat) : List Codeword := codewords 0 (layUnits 0 (s.out.flatMap (Output.units p)))

/-- The 514 payload symbols of ten bits: the stream and then the control field, from bit 0 on (DEDUCED, log entry 59). -/
def Codeword.symbols (w : Codeword) : List Nat :=
  let n := leNat w.stream + 2 ^ 5120 * (w.first % 64 + 2 ^ 6 * (w.seq % 16))
  (List.range 514).map (fun k => n / 2 ^ (10 * k) % 1024)

/-- The 544 symbols of an RS(544,514) codeword; the parity is the standard's (R328, R330). -/
def Codeword.coded (w : Codeword) : List Nat := w.symbols ++ (List.range 30).map (Config.rsParity w.symbols)

/-- The symbols of a codeword that go on one of the active lanes of a port, in order: round robin from the lowest-numbered
active lane (R330). -/
def Codeword.onLane (w : Codeword) (lanes lane : Nat) : List Nat :=
  let act := (List.range 4).filter lanes.testBit
  ((List.range 544).filter (fun k => act.getD (k % act.length) 4 == lane)).map (fun k => w.coded.getD k 0)

/-! ### Receiving (R331, R334, R338) -/

/-- The bytes of a unit by its type in byte 0; none for a type that is not listed. -/
def unitLen (b : Byte) : Option Nat :=
  let t := b.toNat
  if t = 0 ∨ (0xC1 ≤ t ∧ t ≤ 0xC5) then some 16 else if t = 1 ∨ t = 2 then some 256 else none

/-- A receiver: the bytes of the unit it stands in, whether it knows where units begin, the units it has taken, and what it
has counted in FAB_PORT_FEC_UNCORR. -/
structure Rx where
  part : List Byte := []
  synced : Bool := false
  taken : List (List Byte) := []
  bad : Nat := 0
  deriving DecidableEq, Repr

/-- Takes whole units off the front of the bytes at hand; at a type that is not listed the receiver loses its place. -/
def Rx.takeUnits : Nat → Rx → Rx
  | 0, r => r
  | f + 1, r =>
    match r.part with
    | [] => r
    | b :: _ =>
      match unitLen b with
      | none => { r with part := [], synced := false, bad := r.bad + 1 }
      | some n =>
        if r.part.length < n then r
        else Rx.takeUnits f { r with part := r.part.drop n,
                                     taken := if b = 0 then r.taken else r.taken ++ [r.part.take n] }

/-- Receives a codeword, none where the FEC cannot correct it: every unit with a byte in it is lost, and the receiver goes on
at the FIRST boundary of the next good one. -/
def Rx.codeword (r : Rx) : Option Codeword → Rx
  | none => { r with part := [], synced := false, bad := r.bad + 1 }
  | some w =>
    if r.synced then Rx.takeUnits 41 { r with part := r.part ++ w.stream }
    else if w.first < 40 then Rx.takeUnits 41 { r with part := w.stream.drop (16 * w.first), synced := true }
    else r

/-- The command that a received guyline cell comes to (Table 11-4). -/
def cellCommand (p : Nat) (b : List Byte) : Option Instr :=
  let w := leNat (b.take 12)
  let good := crc32c (b.take 12) == leNat ((b.drop 12).take 4)
  let seq := BitVec.ofNat 3 (field w 10 8)
  let g : GuyCell := { seq := seq, copy := w.testBit 11, flags := BitVec.ofNat 4 (field w 15 12),
                       epoch := BitVec.ofNat 32 (field w 47 16), tseal := BitVec.ofNat 32 (field w 79 48), good := good }
  let t : TimeCell := { seq := seq, copy := w.testBit 11, tick := field w 89 26, frac := field w 25 16, good := good }
  match field w 7 0 with
  | 0xC1 => some (.guylineContribution p g)
  | 0xC2 => some (.guylineVerdict p g)
  | 0xC3 => some (.sync p t)
  | 0xC4 => some (.delayReq p t)
  | 0xC5 => some (.delayResp p t)
  | _ => none

/-- What a received flit says of itself. -/
def flitOf (b : List Byte) : Flit :=
  let f := flitHead (leNat (b.take 12))
  { som := f.som, eom := f.eom, len := f.len, crvl := f.crvl, crpool := f.crpool, crcnt := f.crcnt,
    good := crc32c (b.take 12 ++ b.drop 16) == leNat ((b.drop 12).take 4) }

/-- What the flits of one message on a lane say: the operands of the HEAD_FLIT_ROUTE that the port comes to with them. -/
structure WireMsg where
  vl : Nat
  ar : Bool
  esc : Bool
  hops : Nat
  flits : List Flit
  header : Hdr
  payload : List Byte
  deriving DecidableEq, Repr

/-- The message that some flits carry: the header and the payload are their valid payload bytes, end to end. -/
def wireMsg (fs : List (List Byte)) : WireMsg :=
  let f := flitHead (leNat ((fs.headD []).take 12))
  let bytes := fs.flatMap (fun x => (x.drop 16).take (flitOf x).len)
  { vl := f.vl, ar := f.ar, esc := f.esc, hops := f.hops, flits := fs.map flitOf,
    header := hdrOf ((List.range 16).map (fun i => leNat ((bytes.drop (4 * i)).take 4))), payload := bytes.drop 64 }

/-- The lane, pool and count that a link flit with a credit return carries (the operands of LINK_FLIT_RECEIVE). -/
def wireReturn (b : List Byte) : Nat × Nat × Nat :=
  let f := flitOf b
  (f.crvl, f.crpool, f.crcnt)

end Sys2Proof.Machine
end

