-- ==== Sys2Proof/Tests/Slice0.lean ====
section
/-! SUPPORT. Tests: ill-formed commands, states that meet the hypotheses of the statements, and results of single
commands. -/

namespace Sys2Proof.Tests

set_option Elab.async false

open Sys2Proof Sys2Proof.Machine

/-- A field of the next state, none where a command stops. -/
def get {α : Type} (o : Out) (f : State → α) : Option α :=
  match o with
  | .next t => some (f t)
  | .fault _ => none
  | .refused _ => none

/-- A module that runs. -/
def on : State := { State.reset with boot := { State.reset.boot with stage := .running } }

/-- A module that runs, with cell 0 as given. -/
def core (k : Cell) : State := { on with cells := [(0, k)] }

/-- A module with some registers set. -/
def regs (l : List (Nat × W32)) (s : State) : State := l.foldl (fun t p => t.setReg p.1 p.2) s

/-! ### Ill-formed commands (R13, R16, R20, R21, R435, R454) -/

theorem test_wf_cell : (Instr.add 512 {}).wf = false ∧ (Instr.run 512).wf = false ∧ (Instr.ld8 512 {}).wf = false
    ∧ (Instr.movi 512 {}).wf = false ∧ (Instr.plGet 512 {}).wf = false ∧ (Instr.vsAdd 512 {}).wf = false
    ∧ (Instr.mxMul 512 {}).wf = false ∧ (Instr.clAr 512 {}).wf = false ∧ (Instr.launchAt 512 {} 0).wf = false
    ∧ (Instr.xferComplete 512 0 0).wf = false ∧ (Instr.add 511 {}).wf = true := by decide
theorem test_wf_groundsheet : (Instr.gatherServe 12).wf = false ∧ (Instr.sliceUpdate 12).wf = false
    ∧ (Instr.scrubPass 12).wf = false ∧ (Instr.pageReclaim 12).wf = false ∧ (Instr.evictionStart 12).wf = false
    ∧ (Instr.retireCopyComplete 12 0).wf = false ∧ (Instr.gatherServe 11).wf = true := by decide
theorem test_wf_port : (Instr.portEnable 24).wf = false ∧ (Instr.sync 24 {}).wf = false
    ∧ (Instr.headFlitRoute 24 0 false false 0 [] {} {} []).wf = false ∧ (Instr.discProbe 24 0 {}).wf = false
    ∧ (Instr.guylineVerdict 24 {}).wf = false ∧ (Instr.portEnable 23).wf = true := by decide
theorem test_wf_queue : (Instr.queueEnable 64).wf = false ∧ (Instr.doorbell 64 0).wf = false
    ∧ (Instr.descNop 64 0).wf = false ∧ (Instr.queueEnable 63).wf = true := by decide
theorem test_wf_comparator : (Instr.analogTrip 20).wf = false ∧ (Instr.analogTrip 19).wf = true := by decide
theorem test_no_such_unit : exec (.run 512) on = .fault .noSuchUnit ∧ exec (.portEnable 24) on = .fault .noSuchUnit
    ∧ exec (.queueEnable 64) on = .fault .noSuchUnit ∧ exec (.analogTrip 20) on = .fault .noSuchUnit :=
  ⟨rfl, rfl, rfl, rfl⟩

/-! ### The scalar class -/

/-- A RUNNING cell with s1 = 13, s2 = 5, s4 = −1, a1 = 64 and p2 set. -/
def sc : Cell :=
  { run := .running, sreg := [(1, 13), (2, 5), (4, 0xFFFFFFFFFFFFFFFF)], areg := [(1, 64)], preg := 5 }
/-- Operands SD = s3, SA = s1, SB = s2. -/
def r312 : ROps := { sd := 3, sa := 1, sb := 2 }
/-- Operands SD = s3, SA = s4, SB = s4. -/
def r344 : ROps := { sd := 3, sa := 4, sb := 4 }
/-- Operands of format I: SD = s3, SA = s1, immediate −2. -/
def i31 : IOps := { sd := 3, sa := 1, imm := -2 }
/-- s3 after an instruction. -/
def s3 (i : Instr) (k : Cell) : Option Nat := get (exec i (core k)) (fun t => ((t.cell 0).s 3).toNat)

theorem witness_scalar_forms :
    (∀ i ∈ [Instr.add 0 r312, .sel 0 r312, .fadd 0 r312], Issues (core sc) 0 i false 0 [3, 1, 2])
      ∧ (∀ opc ∈ [0x00, 0x01, 0x02, 0x03, 0x04, 0x05, 0x06, 0x07, 0x08, 0x09, 0x0A, 0x0B, 0x0C, 0x0D, 0x0E, 0x0F, 0x48, 0x49],
          rLegal 0x01 opc r312 = true)
      ∧ rLegal 0x01 0x4A { r312 with sc := 4 } = true ∧ rLegal 0x01 0x4B { sd := 3, sa := 1, x := 69 } = true
      ∧ ((core sc).cell 0).pc.toNat < 4095 := by
  unfold Issues; decide
theorem witness_scalar_immediates :
    (∀ i ∈ [Instr.addi 0 i31, .srai 0 i31], Issues (core sc) 0 i false 0 [3, 1])
      ∧ (∀ opc ∈ [0x10, 0x11, 0x12, 0x13, 0x14, 0x15, 0x16], iLegal 0x01 opc i31 = true)
      ∧ Issues (core sc) 0 (.movhi 0 { sd := 3, imm := 7 }) false 0 [3] ∧ uLegal 0x18 { sd := 3, imm := -1 } = true
      ∧ uLegal 0x19 { sd := 3, imm := 0xFFFFFF } = true := by
  unfold Issues; decide
theorem witness_compares :
    Issues (core sc) 0 (.cmplt 0 { r312 with sd := 7 }) false 0 [1, 2] ∧ Issues (core sc) 0 (.pand 0 { r312 with sd := 0 }) false 0 []
      ∧ (∀ opc ∈ [0x20, 0x21, 0x22, 0x23, 0x24, 0x25], rLegal 0x01 opc { r312 with sd := 7 } = true)
      ∧ (∀ opc ∈ [0x28, 0x29, 0x2A], rLegal 0x01 opc { r312 with sd := 0 } = true)
      ∧ iLegal 0x01 0x26 { i31 with sd := 7 } = true ∧ iLegal 0x01 0x27 { i31 with sd := 7 } = true := by
  unfold Issues; decide
theorem witness_address_forms :
    Issues (core sc) 0 (.amov 0 { sa := 1, ax := 15 }) false 0 [1] ∧ Issues (core sc) 0 (.aaddi 0 { sd := 15, sa := 1 }) false 0 []
      ∧ Issues (core sc) 0 (.ard 0 { sd := 3, ax := 1 }) false 0 [3] ∧ rLegal 0x01 0x30 { sa := 1, ax := 15 } = true
      ∧ rLegal 0x01 0x32 { sd := 3, ax := 1 } = true ∧ iLegal 0x01 0x31 { sd := 15, sa := 1 } = true := by
  unfold Issues; decide

theorem test_arithmetic : s3 (.add 0 r312) sc = some 18 ∧ s3 (.sub 0 r312) sc = some 8 ∧ s3 (.mul 0 r312) sc = some 65
    ∧ s3 (.mulhu 0 r344) sc = some (2 ^ 64 - 2) ∧ s3 (.mulhs 0 r344) sc = some 0 := by decide
theorem test_logic : s3 (.and 0 r312) sc = some 5 ∧ s3 (.or 0 r312) sc = some 13 ∧ s3 (.xor 0 r312) sc = some 8
    ∧ s3 (.shl 0 r312) sc = some 416 ∧ s3 (.shr 0 { r312 with sa := 4 }) sc = some (2 ^ 59 - 1)
    ∧ s3 (.sra 0 { r312 with sa := 4 }) sc = some (2 ^ 64 - 1) := by decide
theorem test_selection : s3 (.min 0 { r312 with sb := 4 }) sc = some (2 ^ 64 - 1) ∧ s3 (.max 0 { r312 with sb := 4 }) sc = some 13
    ∧ s3 (.minu 0 { r312 with sb := 4 }) sc = some 13 ∧ s3 (.maxu 0 { r312 with sb := 4 }) sc = some (2 ^ 64 - 1)
    ∧ s3 (.sel 0 { r312 with x := 2 }) sc = some 13 ∧ s3 (.sel 0 { r312 with x := 1 }) sc = some 5 := by decide
theorem test_immediates : s3 (.addi 0 i31) sc = some 11 ∧ s3 (.andi 0 i31) sc = some 12 ∧ s3 (.ori 0 i31) sc = some (2 ^ 64 - 1)
    ∧ s3 (.xori 0 i31) sc = some (2 ^ 64 - 13) ∧ s3 (.shli 0 { i31 with imm := 4 }) sc = some 208
    ∧ s3 (.shri 0 { i31 with imm := 2 }) sc = some 3 ∧ s3 (.srai 0 { i31 with sa := 4, imm := 63 }) sc = some (2 ^ 64 - 1)
    ∧ s3 (.movi 0 { sd := 3, imm := -1 }) sc = some (2 ^ 64 - 1)
    ∧ s3 (.movhi 0 { sd := 3, imm := 0xABCDEF }) { sc with sreg := [(3, 0xFFFF)] } = some (2 ^ 40 * 0xABCDEF + 0xFFFF) := by
  decide
theorem test_s0_reads_zero : get (exec (.add 0 { r312 with sd := 0 }) (core sc)) (fun t => (t.cell 0).s 0) = some 0 := by decide
/-- 1.0 is 0x3FC00000 and 2.0 is 0x40000000 in W32; 1.5 is 0x3FE00000. -/
def fc : Cell := { sc with sreg := [(1, 0x3FC00000), (2, 0x3FC00000), (5, 0x40000000)] }
theorem test_floats : s3 (.fadd 0 r312) fc = some 0x40000000 ∧ s3 (.fmul 0 { r312 with sb := 5 }) fc = some 0x40000000
    ∧ s3 (.ffma 0 { r312 with sc := 1 }) fc = some 0x40000000 := by decide
/-- A predicate after an instruction. -/
def pAfter (i : Instr) (n : Nat) : Option Bool := get (exec i (core sc)) (fun t => (t.cell 0).p n)
theorem test_compares : pAfter (.cmpeq 0 { r312 with sd := 7 }) 7 = some false ∧ pAfter (.cmpne 0 { r312 with sd := 7 }) 7 = some true
    ∧ pAfter (.cmplt 0 { sd := 7, sa := 4, sb := 1 }) 7 = some true ∧ pAfter (.cmpltu 0 { sd := 7, sa := 4, sb := 1 }) 7 = some false
    ∧ pAfter (.cmpge 0 { r312 with sd := 7 }) 7 = some true ∧ pAfter (.cmpgeu 0 { sd := 7, sa := 1, sb := 4 }) 7 = some false
    ∧ pAfter (.cmpeqi 0 { sd := 7, sa := 1, imm := 13 }) 7 = some true ∧ pAfter (.cmplti 0 { sd := 7, sa := 1, imm := -1 }) 7 = some false
    ∧ pAfter (.pand 0 { sd := 7, sa := 2, sb := 0 }) 7 = some true ∧ pAfter (.por 0 { sd := 7, sa := 1, sb := 3 }) 7 = some false
    ∧ pAfter (.pxor 0 { sd := 7, sa := 2, sb := 0 }) 7 = some false ∧ pAfter (.cmpeq 0 { r312 with sd := 0 }) 0 = some true := by
  decide
theorem test_addresses : get (exec (.amov 0 { sa := 4, ax := 15 }) (core sc)) (fun t => (t.cell 0).a 15) = some 0xFFFFFFFF
    ∧ get (exec (.aaddi 0 { sd := 15, sa := 1, imm := -65 }) (core sc)) (fun t => (t.cell 0).a 15) = some 0xFFFFFFFF
    ∧ s3 (.ard 0 { sd := 3, ax := 1 }) sc = some 64 := by decide

/-! ### Loads, stores, branches, exceptions -/

/-- A module whose scratchpad holds 0x80, 0x01 at byte 64, with a cell as given. -/
def mem (k : Cell) : State := { core k with spad := [(64, 0x80), (65, 0x01)] }
/-- SD = s3, address a1. -/
def l31 : IOps := { sd := 3, sa := 1 }
/-- s3 after a load. -/
def ldAfter (i : Instr) : Option Nat := get (exec i (mem sc)) (fun t => ((t.cell 0).s 3).toNat)

theorem witness_loads : Issues (mem sc) 0 (.ld64 0 l31) false 0 [3] ∧ (64 : Nat) % 2 ^ 23 < 6291456 ∧ (64 : Nat) % 8 = 0
    ∧ (mem sc).spadErr = [] ∧ (mem sc).spadCe = []
    ∧ (∀ e ∈ (sc.stores : List StoreEntry), e.addr + e.bytes.length ≤ 64 ∨ 64 + 8 ≤ e.addr)
    ∧ (∀ opc ∈ [0x38, 0x39, 0x3A, 0x3B, 0x3C, 0x3D, 0x3E, 0x40, 0x41, 0x42, 0x43], iLegal 0x01 opc l31 = true) := by
  unfold Issues; decide
/-- A cell with one store buffered at byte 66. -/
def buffered : Cell := { sc with stores := [⟨66, [7]⟩] }
theorem witness_buffered_load : Issues (mem buffered) 0 (.ld64 0 l31) false 0 [3] ∧ iLegal 0x01 0x38 l31 = true
    ∧ (∃ e ∈ buffered.stores, e.addr < 64 + 8 ∧ 64 < e.addr + e.bytes.length) ∧ buffered.stores = [⟨66, [7]⟩] := by
  unfold Issues; decide
theorem witness_stores : Issues (mem sc) 0 (.st8 0 l31) false 0 [3] ∧ sc.stores.length < 8 := by unfold Issues; decide
theorem witness_bad_addresses : (6291456 : Nat) ≤ 6291456 % 2 ^ 23 ∧ (65 : Nat) % 2 ^ 23 < 6291456 ∧ (65 : Nat) % 2 ≠ 0
    ∧ Issues (mem sc) 0 (.st64 0 l31) false 0 [3] := by unfold Issues; decide

theorem test_loads : ldAfter (.ld64 0 l31) = some 0x180 ∧ ldAfter (.ld32 0 l31) = some 0x180 ∧ ldAfter (.ld16 0 l31) = some 0x180
    ∧ ldAfter (.ld8 0 l31) = some 0x80 ∧ ldAfter (.lds8 0 l31) = some (2 ^ 64 - 128) ∧ ldAfter (.lds16 0 l31) = some 0x180
    ∧ ldAfter (.lds32 0 l31) = some 0x180 := by decide
theorem test_buffered_load : get (exec (.ld64 0 l31) (mem buffered)) (fun t => ((t.cell 0).s 3, (t.cell 0).stores))
    = some (0x70180, []) := by decide
/-- What the store buffer holds after a store. -/
def stAfter (i : Instr) : Option (List StoreEntry) := get (exec i (mem sc)) (fun t => (t.cell 0).stores)
theorem test_stores : stAfter (.st64 0 { l31 with sd := 1 }) = some [⟨64, [13, 0, 0, 0, 0, 0, 0, 0]⟩]
    ∧ stAfter (.st32 0 { l31 with sd := 4 }) = some [⟨64, [255, 255, 255, 255]⟩] ∧ stAfter (.st16 0 { l31 with sd := 2 }) = some [⟨64, [5, 0]⟩]
    ∧ stAfter (.st8 0 { l31 with sd := 2 }) = some [⟨64, [5]⟩] := by decide
theorem test_alignment : get (exec (.ld16 0 { l31 with imm := 1 }) (mem sc)) (fun t => (t.cell 0).ecause) = some 0x000E8104
    ∧ get (exec (.st8 0 { l31 with imm := 6291456 }) (mem sc)) (fun t => (t.cell 0).ecause % 256) = some 3 := by decide

/-- A cell at word 100. -/
def at100 : Cell := { sc with pc := 100 }
theorem witness_branches : Issues (core at100) 0 (.br 0 { imm := -100 }) false 0 [] ∧ iLegal 0x02 0x00 { imm := -100 } = true
    ∧ iLegal 0x02 0x01 { sd := 3, imm := 3995 } = true ∧ iLegal 0x02 0x04 { sd := 1, imm := 5 } = true
    ∧ (0 : Int) ≤ 100 + (((-100 : BitVec 34).signExtend 64).toInt) ∧ (100 : Int) + (((3995 : BitVec 34).signExtend 64).toInt) ≤ 4095
    ∧ (100 : Int) + (((-101 : BitVec 34).signExtend 64).toInt) < 0 ∧ (4095 : Int) < 100 + (((3996 : BitVec 34).signExtend 64).toInt)
    ∧ Issues (core at100) 0 (.jmp 0 { sa := 1 }) false 0 [1] ∧ rLegal 0x02 0x02 { sa := 1 } = true
    ∧ rLegal 0x02 0x03 { sd := 3, sa := 1 } = true ∧ (sc.s 1).toNat ≤ 4095 ∧ 4095 < (sc.s 4).toNat
    ∧ at100.s 1 - 1 ≠ 0 ∧ ({ at100 with sreg := [(1, 1)] } : Cell).s 1 - 1 = 0 := by
  unfold Issues; decide
/-- The PC after an instruction of the cell at word 100. -/
def pcAfter (i : Instr) : Option (BitVec 12) := get (exec i (core at100)) (fun t => (t.cell 0).pc)
theorem test_branches : pcAfter (.br 0 { imm := -100 }) = some 0 ∧ pcAfter (.call 0 { sd := 3, imm := 3995 }) = some 4095
    ∧ pcAfter (.jmp 0 { sa := 1 }) = some 13 ∧ pcAfter (.callr 0 { sd := 3, sa := 2 }) = some 5
    ∧ pcAfter (.dbnz 0 { sd := 1, imm := 5 }) = some 105 ∧ s3 (.call 0 { sd := 3, imm := 5 }) at100 = some 101
    ∧ s3 (.callr 0 { sd := 3, sa := 2 }) at100 = some 101 := by decide
theorem test_branch_target : get (exec (.br 0 { imm := -101 }) (core at100)) (fun t => ((t.cell 0).ecause, (t.cell 0).epc, (t.cell 0).run))
    = some (0x205, 100, .faulted) := by decide

/-- A cell with a handler at word 7. -/
def handled : Cell := { at100 with evec := 7, evecEn := true }
theorem witness_exceptions : handled.evecEn = true ∧ handled.active = false ∧ at100.evecEn = false := by decide
theorem test_exception_entry : get (exec (.sysTrap 0 { x := 9 }) (core handled)) (fun t => ((t.cell 0).pc, (t.cell 0).epc,
    (t.cell 0).ecause, (t.cell 0).active, (t.cell 0).run)) = some (7, 100, 0x09014A06, true, .running) := by decide
theorem witness_guard : (core at100).canIssue 0 (.add 0 { r312 with gneg := true }) = true ∧ (at100.p 0 ^^ true) = false
    ∧ rLegal 0x01 0x00 { r312 with gneg := true } = true ∧ iLegal 0x01 0x40 { l31 with gp := 1 } = true
    ∧ iLegal 0x02 0x00 { gp := 1 } = true ∧ rLegal 0x03 0x03 {} = true ∧ rLegal 0x05 0x01 {} = true
    ∧ rLegal 0x06 0x08 { sd := 3, sa := 1 } = true ∧ rLegal 0x0A 0x05 {} = true ∧ rLegal 0x04 0x01 {} = true
    ∧ rLegal 0x07 0x00 {} = true ∧ rLegal 0x08 0x00 {} = true ∧ rLegal 0x09 0x00 {} = true := by decide
theorem test_guard : get (exec (.add 0 { r312 with gneg := true }) (core at100)) (fun t => ((t.cell 0).pc, (t.cell 0).s 3)) = some (101, 0) := by
  decide
theorem witness_illegal : rLegal 0x01 0x00 { sc := 1 } = false ∧ rLegal 0x01 0x4B { sb := 1 } = false
    ∧ iLegal 0x01 0x38 { sa := 16 } = false ∧ iLegal 0x02 0x00 { sd := 1 } = false ∧ uLegal 0x19 { imm := 0x1000000 } = false
    ∧ rLegal 0x0A 0x04 { x := 1 } = false := by decide
theorem test_illegal : get (exec (.add 0 { sc := 1 }) (core handled)) (fun t => (t.cell 0).ecause) = some 0x101 := by decide

theorem witness_system : (∀ x ∈ [Instr.nop 0 {}, .sysEret 0 {}, .sysHalt 0 {}, .sysTrap 0 { x := 255 }], Issues (core handled) 0 x false 0 [])
    ∧ rLegal 0x0A 0x00 {} = true ∧ rLegal 0x0A 0x01 { sd := 3, x := 0x15 } = true ∧ rLegal 0x0A 0x02 { sa := 1, x := 0x10 } = true
    ∧ rLegal 0x0A 0x02 { sa := 1, x := 0x12 } = true ∧ rLegal 0x0A 0x03 {} = true ∧ rLegal 0x0A 0x05 { x := 255 } = true
    ∧ ({ handled with active := true } : Cell).active = true := by
  unfold Issues; decide
theorem test_system : get (exec (.sysEret 0 {}) (core { handled with active := true, epc := 55 })) (fun t => ((t.cell 0).pc, (t.cell 0).active))
      = some (55, false)
    ∧ get (exec (.sysHalt 0 {}) (core handled)) (fun t => (t.cell 0).run) = some .done
    ∧ get (exec (.sysWr 0 { sa := 1, x := 0x14 }) (core handled)) (fun t => (t.cell 0).es0) = some 13
    ∧ s3 (.sysRd 0 { sd := 3, x := 0x14 }) { handled with es0 := 21 } = some 21
    ∧ get (exec (.nop 0 {}) (core handled)) (fun t => (t.cell 0).pc) = some 101 := by decide
theorem test_host_control : get (exec (.run 0) (core { sc with run := .done, active := true })) (fun t => ((t.cell 0).run, (t.cell 0).active))
      = some (.running, false)
    ∧ get (exec (.halt 0) (core sc)) (fun t => (t.cell 0).run) = some .halted
    ∧ get (exec (.clrlq 0) (core { sc with run := .done, lq := [{ target := 1, late := false, work := .srelease 0 }] })) (fun t => (t.cell 0).lq)
      = some [] := by decide

/-! ### Timed instructions, step marks, launch -/

/-- A module whose pitch count is 100, with a cell as given. -/
def p100 (k : Cell) : State := { core k with pitch := 100 }

theorem witness_tick : Issues (p100 sc) 0 (.tick 0 { sd := 3 }) false 0 [3] ∧ rLegal 0x08 0x03 { sd := 3 } = true
    ∧ Issues (p100 sc) 0 (.waitTick 0 { sa := 1 }) false 0 [1] ∧ rLegal 0x08 0x01 { sa := 1 } = true
    ∧ (sc.s 1).toNat ≤ (p100 sc).pitch ∧ (p100 sc).pitch < (sc.s 4).toNat ∧ (p100 sc).works = true
    ∧ ({ sc with stall := some (.waitTick 0 { sa := 1 }) } : Cell).stall = some (.waitTick 0 { sa := 1 }) := by
  unfold Issues; decide
theorem test_tick : get (exec (.tick 0 { sd := 3 }) (p100 sc)) (fun t => (t.cell 0).s 3) = some 100
    ∧ get (exec (.waitTick 0 { sa := 1 }) (p100 sc)) (fun t => ((t.cell 0).pc, (t.cell 0).stall)) = some (1, none)
    ∧ get (exec (.waitTick 0 { sa := 4 }) (p100 sc)) (fun t => (t.cell 0).pc) = some 0
    ∧ get (exec (.waitTickResume 0) (p100 { sc with stall := some (.waitTick 0 { sa := 1 }) })) (fun t => ((t.cell 0).pc, (t.cell 0).stall))
      = some (1, none) := by decide

/-- A module in a step that is OPEN. -/
def open0 (s : State) : State := { s with step := { s.step with mode := .opened } }
theorem witness_marks : Issues (p100 sc) 0 (.seal 0 { sa := 4 }) false 0 [4] ∧ rLegal 0x08 0x02 { sa := 4 } = true
    ∧ rLegal 0x08 0x04 {} = true ∧ rLegal 0x09 0x00 { x := 255 } = true ∧ rLegal 0x09 0x01 { x := 255, sa := 4 } = true
    ∧ (p100 sc).pitch < 101 ∧ (p100 sc).hintsOf 0 = []
    ∧ ((p100 sc).addHint 0 7 2000).hintsOf 0 = [(7, 2000)] ∧ (p100 sc).outranked 0 = false
    ∧ ({ p100 sc with pwr := { on.pwr with marks := [(0, (100, (p100 sc).markRank 5))] } } : State).outranked 4 = true := by
  unfold Issues; decide
theorem test_marks : get (exec (.phase 0 { x := 9 }) (p100 sc)) (fun t => (t.phaseOf 0, (t.phaseAcc 0).start)) = some (9, 100)
    ∧ get (exec (.hint 0 { x := 9, sa := 4 }) (p100 sc)) (fun t => t.hintsOf 0) = some [(9, 2 ^ 64 - 1)]
    ∧ get (exec (.syncAbort 0 {}) (open0 (p100 sc))) (fun t => t.step.flags) = some 8
    ∧ ((open0 (p100 sc)).markPhase 0 3).phaseOf 0 = 3 := by decide +kernel
/-- Sixteen hints ahead of tick 100. -/
def full16 : State := { p100 sc with pwr := { on.pwr with hints := [(0, (List.range 16).map (fun i => (i, 5000)))] } }
theorem witness_full_hints : (full16.hintsOf 0).length = 16 ∧ (20, 5000) ∉ full16.hintsOf 0 ∧ (3, 5000) ∈ full16.hintsOf 0 := by decide
theorem witness_flags : (open0 on).stepping = true ∧ (open0 on).pastSeal = false ∧ on.stepping = false
    ∧ ((open0 on).epoch + 1 ≠ (open0 on).epoch) ∧ ((open0 on).epoch + 2 ≠ (open0 on).epoch + 1)
    ∧ ({ open0 on with step := { (open0 on).step with mode := .sealed } } : State).stepping = true
    ∧ (open0 on).atVerdict = false ∧ ({ open0 on with step := { (open0 on).step with mode := .sealed, applyAt := some 0 } } : State).atVerdict = true := by decide
theorem test_flags : ((open0 on).raiseFlag 4 (open0 on).epoch).step.flags = 4
    ∧ ((open0 on).raiseFlag 4 ((open0 on).epoch + 1)).step.pend = 4
    ∧ ((open0 on).raiseFlag 4 ((open0 on).epoch + 2)).reg Reg.modFlagsDropped = 1 := by decide +kernel

/-- The word PHASE 9. -/
def phase9 : W64 := 0x2400000000000009#64
theorem witness_launch : Issues (p100 sc) 0 (.launchAt 0 { sa := 4 } phase9) false 0 (4 :: actionUses sc 0x09 0x00 (wordR phase9))
    ∧ sc.imemErr.contains (sc.pc.toNat + 1) = false ∧ sc.actionLegal phase9 = true
    ∧ sc.actionLegal 0x2400000000000100#64 = false ∧ rLegal 0x08 0x00 { sa := 4 } = true ∧ wordClass phase9 = 0x09 ∧ wordOpc phase9 = 0x00
    ∧ actionBad ((((p100 sc).fetchNext 0).fetched 0 0x08 0x00).cell 0) 0x09 0x00 (wordR phase9) = false
    ∧ ((((p100 sc).fetchNext 0).fetched 0 0x08 0x00).cell 0).lq.length < 16 ∧ (sc.s 4).toNat = 2 ^ 64 - 1
    ∧ (p100 sc).pitch < (sc.s 4).toNat ∧ (sc.s 1).toNat ≤ (p100 sc).pitch := by
  unfold Issues; decide
theorem test_launch : get (exec (.launchAt 0 { sa := 4 } phase9) (p100 sc)) (fun t => ((t.cell 0).lq, (t.cell 0).pc))
    = some ([{ target := 2 ^ 64 - 1, late := false, work := .phase 9 }], 2) := by decide
/-- A cell with one entry on time and one late, at tick 100. -/
def queued : Cell :=
  { sc with lq := [{ target := 90, late := true, work := .altready false }, { target := 100, late := false, work := .altready true }] }
theorem witness_launch_fire : (p100 queued).works = true
    ∧ pickLaunch 100 queued.lq = some { target := 100, late := false, work := .altready true }
    ∧ pickLaunch 100 [{ target := 90, late := true, work := .altready false }] = some { target := 90, late := true, work := .altready false }
    ∧ pickLaunch 100 ([{ target := 100, late := false, work := .altready true }] : List LaunchEntry) = some { target := 100, late := false, work := .altready true }
    ∧ (∀ x, pickLaunch 100 [] = some x → x.isLate 100 = false) :=
  ⟨by decide, by decide, by decide, by decide, by intro x h; cases h⟩
theorem test_launch_fire : get (exec (.launchFire 0) (p100 queued)) (fun t => ((t.cell 0).altReady, (t.cell 0).lq, t.reg Reg.pitLaunchLate)) = some (false, [], 1) := by
  decide +kernel

/-! ### Vector and matrix engines -/

/-- A cell with a vector instruction over one W32 element: control s10, streams s20 on, addresses a1, a2, a3. -/
def vec (op : Nat) : Cell :=
  { run := .running, areg := [(1, 0x100), (2, 0x40), (3, 0x44)],
    sreg := [(10, BitVec.ofNat 64 (1 + 2 ^ 24 * op)), (20, 5), (21, 5), (22, 5), (23, 5)] }
/-- Its operands. -/
def vops : ROps := { sd := 30, sa := 10, sb := 20, ax := 1, ay := 2, az := 3 }
/-- A module with 1.0 and 2.0 in W32 at bytes 0x40 and 0x44. -/
def vmem (k : Cell) : State := { core k with spad := [(0x42, 0xC0), (0x43, 0x3F), (0x47, 0x40)] }

theorem witness_vector : Issues (vmem (vec 0x20)) 0 (.vsAdd 0 vops) false 0 (vsUses vops ((vec 0x20).vsOp vops))
    ∧ rLegal 0x05 0x00 vops = true ∧ (vctl ((vec 0x20).vsOp vops).ctl).op = 0x20 ∧ (vctl ((vec 0x20).vsOp vops).ctl).rnd = 0
    ∧ (((vmem (vec 0x20)).fetched 0 0x05 0x00).cell 0).vsq.length < 8
    ∧ ((vmem (vec 0x20)).fetched 0 0x05 0x00).checkVs 0 true true ((vec 0x20).vsOp vops) = none
    ∧ (vmem (vec 0x20)).works = true ∧ (vec 0x20).vsq = [] ∧ (vec 0x20).mxq = [] ∧ ((vec 0x20).vsOp vops).handles = [] := by
  unfold Issues; decide
theorem witness_vector_refused : Issues (vmem { vec 0x20 with areg := [] }) 0 (.vsAdd 0 { vops with ax := 9 }) false 0 (vsUses vops ((vec 0x20).vsOp vops))
    ∧ ((vmem { vec 0x20 with areg := [(1, 1)] }).fetched 0 0x05 0x00).checkVs 0 true true (({ vec 0x20 with areg := [(1, 1)] } : Cell).vsOp vops) = some 0x24
    ∧ 8 ≤ ({ vec 0x20 with vsq := List.replicate 8 {} } : Cell).vsq.length := by
  unfold Issues; decide
theorem witness_vector_wait : rLegal 0x05 0x01 {} = true ∧ rLegal 0x05 0x02 { sd := 3, x := 1 } = true
    ∧ Issues (vmem (vec 0)) 0 (.vsStat 0 { sd := 3, x := 1 }) false 0 [3]
    ∧ (((vmem { vec 0 with vsq := [{}] }).fetched 0 0x05 0x01).cell 0).vsq ≠ [] := by
  unfold Issues; decide
/-- The result word after a vector instruction. -/
def vAfter (i : Instr) (op : Nat) : Option Nat := get (exec i (vmem (vec op))) (fun t => memNat t.spad 0x100 4)
theorem test_vector_float : vAfter (.vsAdd 0 vops) 0x20 = some 0x40200000 ∧ vAfter (.vsMul 0 vops) 0x22 = some 0x40000000
    ∧ vAfter (.vsMax 0 vops) 0x24 = some 0x40000000 := by decide +kernel
theorem test_vector_reduce : get (exec (.rsum 0 vops) (vmem (vec 0x50))) (fun t => (t.cell 0).s 30) = some 0x3FC00000 := by decide +kernel
theorem test_vector_refused : get (exec (.vsAdd 0 vops) (vmem { vec 0x20 with areg := [(1, 1)] })) (fun t => (t.cell 0).ecause % 256) = some 0x24 := by
  decide
theorem witness_element_rules : (7 : Nat) = 7 ∧ (2 ^ 31 - 1 : Int) < intOf 7 0x7FFFFFFF + intOf 7 1
    ∧ intOf 7 0x80000000 + intOf 7 0xFFFFFFFF < -(2 ^ 31) ∧ -(2 ^ 31) ≤ intOf 7 3 + intOf 7 4 ∧ intOf 8 65535 + intOf 8 0 ≤ 65535 := by decide
theorem test_element_rules : vsMain 0x08 7 7 7 0 0x7FFFFFFF 1 = (0x7FFFFFFF, true) ∧ vsMain 0x08 8 8 8 0 65535 1 = (65535, true)
    ∧ vsMain 0x09 8 8 8 0 1 2 = (0, true) ∧ vsMain 0x0D 7 7 7 0 0xFFFFFFFE 0 = (2, false)
    ∧ vsMain 0x10 5 5 5 0 0x3FC00000 0 = (0xBFC00000, false) ∧ vsMain 0x10 4 4 4 0 0xFFFF 0 = (0x7F80, false) := by decide

/-- The start word of a tile of one row and one column. -/
def start11 : W64 := 0x20101#64
/-- A cell with a start word in s1, an end word to scratchpad in s2, its address in a1. -/
def mxc : Cell := { run := .running, sreg := [(1, start11), (2, 1)], areg := [(1, 0x200)] }
/-- A tile of one element on handle 0. -/
def tile1 (p : TilePhase) : Tile := { h := 0, m := 1, n := 1, phase := p, elems := [0x3FC00000#32] }
theorem witness_matrix : Issues (core mxc) 0 (.mxStart 0 { sa := 1, ax := 1 }) false 0 [1] ∧ rLegal 0x04 0x00 { sa := 1, ax := 1 } = true
    ∧ ((core mxc).fetched 0 0x04 0x00).checkMx 0 true true (mxc.mxOp 0 0 { sa := 1, ax := 1 }) = none
    ∧ ((core mxc).fetched 0 0x04 0x00).checkMx 0 true true (mxc.mxOp 0 2 { sa := 2, ax := 1 }) = some 0x13
    ∧ rLegal 0x04 0x01 { sa := 1, sb := 2, sc := 3, ax := 1, ay := 2 } = true ∧ rLegal 0x04 0x02 { sa := 2, ax := 1 } = true
    ∧ rLegal 0x04 0x03 { sd := 3 } = true ∧ rLegal 0x04 0x04 { x := 1 } = true
    ∧ (∀ m ∈ mxc.mxq, m.handle ≠ 0) ∧ ({ mxc with mxq := [.fin 0 1 0] } : Cell).mxq.length < 8
    ∧ (core mxc).farNeed (.core 0) ((core mxc).checkPages (mxc.mxOp 0 0 { sa := 1, ax := 1 })) = []
    ∧ (core mxc).mxDone 0 true = true ∧ (core { mxc with mxq := [.fin 0 1 0] }).mxDone 0 true = false
    ∧ 8 ≤ ({ mxc with mxq := List.replicate 8 (.fin 0 1 0) } : Cell).mxq.length := by
  unfold Issues; decide
theorem test_matrix : get (exec (.mxStart 0 { sa := 1, ax := 1 }) (core mxc)) (fun t => (t.cell 0).tiles.map (fun x => (x.m, x.n, x.elems)))
      = some [(1, 1, [0])]
    ∧ get (exec (.mxTsw 0 { sd := 3 }) (core { mxc with tiles := [tile1 .live] })) (fun t => (t.cell 0).s 3) = some 0xFFFFFFFF00000000
    ∧ get (exec (.mxEnd 0 { sa := 2, ax := 1 }) (core { mxc with tiles := [tile1 .live] })) (fun t => (t.cell 0).tiles.map (·.phase))
      = some [.spad 0x200] := by decide
theorem witness_drain : (core { mxc with tiles := [tile1 (.spad 0x200)] }).works = true
    ∧ ({ mxc with tiles := [tile1 (.spad 0x200)] } : Cell).drained 0 = some (tile1 (.spad 0x200))
    ∧ 0x200 % 2 ^ 23 + 12 ≤ 6291456 ∧ (tile1 .live).null = false ∧ field 0x1 1 0 = 1
    ∧ ({ mxc with tiles := [tile1 (.spad 0x200)] } : Cell).mxReads = [] := by decide
theorem test_drain : get (exec (.mxDrainComplete 0 0) (core { mxc with tiles := [tile1 (.spad 0x200)] }))
    (fun t => (memNat t.spad 0x200 4, memNat t.spad 0x204 8, (t.cell 0).tiles)) = some (0x3FC00000, 0xFFFFFFFF00000000, []) := by decide

/-! ### Tile moves, transfers, streams -/

/-- A cell whose s5 holds a copy length of one unit, a1 = 0x1000, a2 = 0x2000. -/
def cpc : Cell := { run := .running, sreg := [(5, 1), (6, 2 ^ 24 - 1)], areg := [(1, 0x1000), (2, 0x2000)] }
theorem witness_copy : Issues (core cpc) 0 (.tmCopy 0 { sa := 5, ax := 1, ay := 2 }) false 0 [5] ∧ rLegal 0x03 0x02 { sa := 5, ax := 1, ay := 2 } = true
    ∧ 64 * ((cpc.s 5).toNat % 2 ^ 24) = 64 ∧ (0x1000 % 2 ^ 23 + 64 ≤ 6291456) ∧ ¬(0x1000 + 64 * (2 ^ 24 - 1) ≤ 6291456)
    ∧ (0x1000 + 64 ≤ 0x2000) := by
  unfold Issues; decide
theorem test_copy : get (exec (.tmCopy 0 { sa := 5, ax := 1, ay := 2 }) { core cpc with spad := [(0x1003, 9)] }) (fun t => t.spad) = some [(0x1003, 9), (0x2003, 9)]
    ∧ get (exec (.tmCopy 0 { sa := 6, ax := 1, ay := 2 }) (core cpc)) (fun t => (t.cell 0).ecause % 256) = some 0x31 := by decide

/-- A widen under way whose answer is `r`. -/
def wid (r : Option (Hdr × List Byte)) (f : Bool) : Widen := { src := 0x1000, dst := 0x2000, target := 2, word := 0, epoch := 0, sd := 3, resp := r, failed := f }
/-- A cell with that widen under handle 0, and s3 owed. -/
def widc (r : Option (Hdr × List Byte)) (f : Bool) : Cell := { cpc with widens := [(0, wid r f)], owed := [3] }
/-- A header with STALE set. -/
def staleHdr : Hdr := { flags := 16 }
theorem witness_tile_moves : rLegal 0x03 0x00 { sd := 3, sa := 5, sb := 6 } = true ∧ rLegal 0x03 0x01 { sd := 3, sa := 5, sb := 6, ax := 1, ay := 2 } = true
    ∧ ((core cpc).fetched 0 0x03 0x00).farNeed (.core 0) (((core cpc).fetched 0 0x03 0x00).layerPages 1) = []
    ∧ ((core (widc none true)).fetched 0 0x03 0x03 |>.cell 0).widens ≠ []
    ∧ { core cpc with spad := [(0x1001, 1)] }.checkWiden 0 0x1000 0x2000 2 = none ∧ (core cpc).nextTag = some 0
    ∧ (core cpc).checkWiden 0 0x1000 0x2000 3 = some 0x30 := by decide
theorem witness_widen_complete : (core (widc none true)).works = true ∧ alistGet (widc none true).widens 0 = some (wid none true)
    ∧ hdrFlag staleHdr 4 = true ∧ hdrFlag ({ fmt := 2 } : Hdr) 4 = false ∧ ({ fmt := 2 } : Hdr).fmt.toNat ≤ 8 := by decide
theorem test_widen_complete : get (exec (.widenComplete 0 0) (core (widc none true))) (fun t => ((t.cell 0).s 3, (t.cell 0).owed)) = some (2, [])
    ∧ get (exec (.widenComplete 0 0) (core (widc (some (staleHdr, [])) false))) (fun t => ((t.cell 0).s 3, (t.cell 0).widens)) = some (1, [])
    ∧ get (exec (.widenComplete 0 0) (core (widc (some ({ fmt := 4, dim0 := 32, dim1 := 1, len := 128 }, List.replicate 64 7)) false)))
      (fun t => ((t.cell 0).s 3, memNat t.spad 0x2040 1)) = some (0, 7) := by decide +kernel

/-- A cell with the address of page 5 in s1 and the word of a raw transfer of one unit in s2, a1 = 0x1000. -/
def xfc : Cell := { run := .running, sreg := [(1, BitVec.ofNat 64 (5 * pageBytes)), (2, 0x12), (3, 64), (4, 2)], areg := [(1, 0x1000)] }
/-- The operands of a transfer: SD = s7. -/
def xops : ROps := { sd := 7, sa := 1, sb := 2, ax := 1 }
/-- A transfer of that shape. -/
def xfer (k : XferKind) : Xfer := { kind := k, word := 0x12, addr := BitVec.ofNat 64 (5 * pageBytes), spad := 0x1000, cap := 1 }
/-- A module whose page 5 is resident at frame 3, with a byte in it. -/
def pool5 (k : Cell) : State :=
  { regs [(Reg.poolCtrl, 1)] (core k) with pool := { on.pool with dir := [(5, { loc := 3 })] }, hbm := [(3 * pageBytes + 2, 77)], spad := [(0x1001, 55)] }
theorem witness_transfers : Issues (core xfc) 0 (.plGet 0 xops) false 0 [7, 1, 2] ∧ rLegal 0x07 0x00 xops = true ∧ rLegal 0x07 0x01 xops = true
    ∧ rLegal 0x07 0x02 { xops with sc := 3 } = true ∧ ((core xfc).fetched 0 0x07 0x00 |>.cell 0).freeHandles ≠ []
    ∧ checkPool false 0 (xfc.s 1) 0x12 0x1000 = none ∧ checkPool true 0 (xfc.s 1) 0x12 0x1000 = none
    ∧ checkPool false 0 1 0x12 0x1000 = some 0x41 ∧ checkPool false 0 0 3 0x1000 = some 0x40 ∧ checkGather 0 0x100000000 0x1000 = none
    ∧ (core xfc).farNeed (.core 0) ((core xfc).gatherReads 0) = [] ∧ (core xfc).nextTag = some 0
    ∧ ({ xfc with xfers := (List.range 64).map (fun h => (h, {})) } : Cell).freeHandles = [] := by
  unfold Issues; decide
theorem test_transfers : get (exec (.plGet 0 xops) (core xfc)) (fun t => (t.cell 0).xfers.map (fun p => (p.2.kind, p.2.complete))) = some [(.get, false)]
    ∧ get (exec (.plPut 0 xops) (core xfc)) (fun t => (t.cell 0).xfers.map (fun p => (p.2.kind, p.2.spad))) = some [(.put, 0x1000)] := by
  decide
/-- A cell with one transfer under handle 2. -/
def xat (x : Xfer) : Cell := { xfc with xfers := [(2, x)] }
/-- A transfer that is complete, in format 4. -/
def xdone : Xfer := { xfer .get with complete := true, fmt := 4 }
theorem witness_wait : Issues (core (xat xdone)) 0 (.plWait 0 { sd := 7, sa := 4 }) false 0 [7, 4] ∧ rLegal 0x07 0x03 { sd := 7, sa := 4 } = true
    ∧ ((xat xdone).s 4).toNat = 2 ∧ alistGet (xat xdone).xfers 2 = some xdone ∧ xdone.fired = true ∧ (xfer .get).dlEn = false
    ∧ alistGet (xat xdone).xfers 3 = none ∧ 64 ≤ ((xat xdone).s 3).toNat := by
  unfold Issues; decide
theorem test_wait : get (exec (.plWait 0 { sd := 7, sa := 4 }) (core (xat xdone))) (fun t => ((t.cell 0).xfers, (t.cell 0).s 7 != 0)) = some ([], true)
    ∧ get (exec (.plWait 0 { sd := 7, sa := 4 }) (core (xat (xfer .get)))) (fun t => ((t.cell 0).pc, (t.cell 0).stall.isSome)) = some (0, true)
    ∧ get (exec (.plWait 0 { sd := 7, sa := 3 }) (core (xat xdone))) (fun t => (t.cell 0).ecause % 256) = some 0x43 := by decide
/-- A get whose deadline is tick 50, waited for. -/
def xlate : Xfer := { xfer .get with dlEn := true, deadline := 50 }
/-- The cell that waits for it. -/
def xlc : Cell := { xat xlate with stall := some (.plWait 0 { sd := 7, sa := 4 }) }
theorem witness_deadline : (p100 xlc).works = true ∧ xlc.run = .running ∧ (xlc.s 4).toNat < 64 ∧ xlate.deadline ≤ (100 : Int)
    ∧ xlate.missed = false ∧ (p100 xlc).onTime xlate = false ∧ (p100 xlc).fld (Reg.cellLateCtrl 0) 0 1 = 0 := by decide
theorem test_deadline : get (exec (.deadlineEdge 0) (p100 xlc)) (fun t => (t.reg (Reg.cellDeadlineMiss 0), (t.cell 0).stall.isSome)) = some (1, true) := by
  decide +kernel
theorem witness_xfer_complete : (pool5 (xat (xfer .get))).works = true ∧ alistGet (xat (xfer .get)).xfers 2 = some (xfer .get)
    ∧ (xfer .get).word.toNat % 8 = 2 ∧ (xat (xfer .get)).ordered (xfer .get) = false
    ∧ (∀ p ∈ pagesOf (5 * pageBytes) 64, (pool5 (xat (xfer .get))).pageOk p = true ∧ (pool5 (xat (xfer .get))).pageFar p = false)
    ∧ (pool5 (xat (xfer .get))).farAmong (pagesOf (5 * pageBytes) 64) = [] ∧ (xfer .get).fired = true ∧ (xfer .get).complete = false
    ∧ (pagesOf (5 * pageBytes) 64).find? (fun q => !(core (xat (xfer .get))).pageOk q) = some 5 := by decide
theorem test_xfer_complete : get (exec (.xferComplete 0 2 0) (pool5 (xat (xfer .get)))) (fun t => t.spad) = some [(0x1002, 77)]
    ∧ get (exec (.xferComplete 0 2 0) (pool5 (xat (xfer .put)))) (fun t => t.hbm) = some [(3 * pageBytes + 1, 55)]
    ∧ get (exec (.xferComplete 0 2 0) (core (xat (xfer .get)))) (fun t => (t.cell 0).xfers.map (fun p => (p.2.failed, p.2.reason)))
      = some [(true, 1)] := by decide +kernel

/-- A response to tag 5. -/
def resp5 : Hdr := { tag := 5, resp := true, src := 9, fmt := 4, len := 64, dstUnit := 0, kind := 2 }
/-- A transaction of transfer 2 of cell 0 under tag 5, sent to module 9. -/
def txn5 : Txn := { tag := 5, msg := { h := { dst := 9 }, vl := 1 }, owner := .xfer 0 2, sentAt := 0 }
/-- The gather that it serves. -/
def xg : Xfer := { xfer .gather with tag := some 5 }
/-- A module in which it is in flight. -/
def inflight : State := { core (xat xg) with fab := { on.fab with txns := [txn5] } }
theorem witness_gather_resp : inflight.up = true ∧ inflight.tripped = false ∧ inflight.txnOf resp5 = some txn5 ∧ (core sc).txnOf resp5 = none
    ∧ alistGet (inflight.cell 0).xfers 2 = some xg ∧ xg.tag = some txn5.tag ∧ hdrFlag resp5 4 = false ∧ max 64 resp5.len.toNat ≤ 64 * xg.cap
    ∧ hdrFlag ({ resp5 with flags := 16 } : Hdr) 4 = true := by decide
theorem test_gather_resp : get (exec (.gatherResp resp5 []) inflight) (fun t => ((t.cell 0).xfers.map (fun p => (p.2.complete, p.2.fmt)), t.fab.txns.length))
      = some ([(true, 4)], 0)
    ∧ get (exec (.gatherResp resp5 []) (core sc)) (fun t => t.reg Reg.fabLateResp) = some 1 := by decide +kernel

/-- A raw stream of two slots of one unit, at 0x3000, of four items listed at 0x2000, from the pool. -/
def strm : Stream := { kind := 0, slots := 2, count := 4, list := 0x2000, slotBase := 0x3000, slotSize := 1, issued := 2 }
/-- A cell that runs it as stream 1, its oldest item complete. -/
def stc : Cell := { xfc with streams := [(1, strm)], xfers := [(strm.key 1 0, xdone), (strm.key 1 1, xfer .get)] }
theorem witness_streams : rLegal 0x07 0x04 { ax := 1, x := 1 } = true ∧ rLegal 0x07 0x05 { sd := 7, x := 1 } = true ∧ rLegal 0x07 0x06 { x := 1 } = true
    ∧ rLegal 0x07 0x07 { x := 1 } = true ∧ rLegal 0x07 0x08 { x := 1 } = true ∧ Issues (core stc) 0 (.plSwait 0 { sd := 7, x := 1 }) false 0 [7]
    ∧ alignedOk 0 0x1000 64 true = true ∧ alignedOk 0 0x1020 64 true = false ∧ strm.listOk = true ∧ strm.ringOk 0 = true
    ∧ (core stc).streamOn 0 1 = true ∧ (core xfc).streamOn 0 1 = false ∧ (core xfc).checkRelease 0 1 = some 0x42
    ∧ (core { stc with streams := [(1, { strm with waited := 1, count := 2 })] }).checkRelease 0 1 = none
    ∧ strm.cancelled = false ∧ alistGet stc.xfers (strm.key 1 strm.released) = some xdone := by
  unfold Issues; decide
theorem test_streams : get (exec (.plSwait 0 { sd := 7, x := 1 }) (core stc)) (fun t => ((t.cell 0).streams.map (fun p => p.2.waited), (t.cell 0).pc)) = some ([1], 1)
    ∧ get (exec (.plScancel 0 { x := 1 }) (core stc)) (fun t => (t.cell 0).streams.map (fun p => p.2.cancelled)) = some [true]
    ∧ get (exec (.plAltready 0 { x := 1 }) (core xfc)) (fun t => (t.cell 0).altReady) = some true
    ∧ get (exec (.plStream 0 { ax := 1, x := 1 }) (core stc)) (fun t => (t.cell 0).ecause % 256) = some 0x42 := by decide +kernel

/-! ### The pool and the far tier -/

/-- A module whose pool is on, with registers and a pool as given. -/
def pl (l : List (Nat × W32)) (p : Pool) : State := { regs ((Reg.poolCtrl, 7) :: l) (core sc) with pool := p }
/-- A pool with one page, page 5, as given. -/
def pg (e : DirEntry) : Pool := { dir := [(5, e)], frames := if e.far then [] else [(3, .page 5)] }

theorem witness_free_frame : 0 < (pl [] {}).freeFrames 11 ∧ (∃ f u, (pl [] {}).takeFrame 11 (.page 0) = some (f, u)) :=
  ⟨by decide, _, _, rfl⟩
theorem witness_allocation : (0 : Nat) ≠ 3 ∧ (pl [] (pg {})).lowestPage = some 0 ∧ (pl [] { dir := [(0, {})] }).lowestPage = some 1
    ∧ (∃ f u, (pl [] {}).takeFrame 0 (.page 0) = some (f, u)) ∧ (11 : Nat) < 14 ∧ (14 : Nat) ≠ 15 :=
  ⟨by decide, by decide, by decide, ⟨_, _, rfl⟩, by decide, by decide⟩
theorem test_allocation : ((pl [] {}).allocPage .host 3 0).reg Reg.poolCmdStatus = 4
    ∧ ((pl [] {}).allocPage .host 0 12).reg Reg.poolCmdStatus = 4 := by decide +kernel
theorem witness_pool_commands : (pl [] {}).up = true ∧ (pl [] {}).fld Reg.poolCmdStatus 0 1 = 0 ∧ rLegal 0x07 0x10 { sd := 3, sa := 1 } = true
    ∧ rLegal 0x07 0x11 { sd := 3, sa := 1 } = true ∧ rLegal 0x07 0x12 { sd := 3, sa := 1 } = true ∧ rLegal 0x07 0x13 { sd := 3, sa := 1 } = true
    ∧ Issues (pl [] {}) 0 (.plFree 0 { sd := 3, sa := 1 }) false 0 [3, 1] := by
  unfold Issues; decide
theorem test_pool_commands : get (exec .poolCmdFree (pl [(Reg.poolCmdPage, 5)] (pg { loc := 3 }))) (fun t => (t.dir 5, t.pool.frames)) = some (none, [])
    ∧ get (exec .poolCmdPeg (pl [(Reg.poolCmdPage, 5)] (pg { loc := 3 }))) (fun t => (t.dir 5).map (·.peg)) = some (some true)
    ∧ get (exec .poolCmdUnpeg (pl [(Reg.poolCmdPage, 5)] (pg { loc := 3, peg := true }))) (fun t => (t.dir 5).map (·.peg)) = some (some false)
    ∧ get (exec .clearLost (pl [(Reg.poolCmdPage, 5)] (pg { loc := 3, lost := true }))) (fun t => (t.dir 5).map (·.lost)) = some (some false)
    ∧ get (exec .retire (pl [(Reg.poolCmdArg, 9)] {})) (fun t => t.pool.frames) = some [(9, .retired)] := by decide +kernel
theorem test_pool_core : get (exec (.plFree 0 { sd := 3, sa := 2 }) (pl [] (pg { loc := 3 }))) (fun t => ((t.cell 0).s 3, t.pool.dir)) = some (5, [])
    ∧ get (exec (.plPeg 0 { sd := 3, sa := 1 }) (pl [] (pg { loc := 3 }))) (fun t => (t.cell 0).s 3) = some (13 + 2 ^ 20 * 2)
    ∧ get (exec (.plUnpeg 0 { sd := 3, sa := 2 }) (pl [] (pg { loc := 3, peg := true }))) (fun t => (t.dir 5).map (·.peg)) = some (some false)
    ∧ get (exec (.plAlloc 0 { sd := 3, sa := 0 }) (pl [] {})) (fun t => (t.cell 0).s 3) = some 0 := by decide +kernel
theorem test_directory_reads : get (exec .readDir (pl [(Reg.poolCmdPage, 5)] (pg { loc := 3, home := 1 }))) (fun t => t.reg Reg.poolDirLo != 0) = some true
    ∧ get (exec .readFrame (pl [(Reg.poolCmdArg, 3)] (pg { loc := 3 }))) (fun t => t.reg Reg.poolDirLo != 0) = some true := by decide +kernel
theorem witness_retire_target : ∃ g u, (pl [] (pg { loc := 3 })).takeFrame 0 .copy = some (g, u) := by
  have seek : ∀ k, ∃ x, ({ pl [] (pg { loc := 3 }) with free := 1 } : State).seekFrame 0 2 k = some x := fun k => by
    have h : ∀ j, j ≠ 3 → ({ pl [] (pg { loc := 3 }) with free := 1 } : State).frameUse (frameNo 0 j) = none := fun j hj => by
      simp [State.frameUse, frameNo, pl, pg, alistGet]
      omega
    by_cases e : k % stackFrames = 3
    · have e' : (k + 1) % stackFrames ≠ 3 := by simp only [stackFrames] at e ⊢; omega
      exact ⟨(k+1) % stackFrames, by
        have u : ({ pl [] (pg { loc := 3 }) with free := 1 } : State).frameUse (frameNo 0 3) = some (.page 5) := rfl
        simp [State.seekFrame, e, h _ e', u]⟩
    · exact ⟨k % stackFrames, by simp [State.seekFrame, h _ e]⟩
  obtain ⟨x, hx⟩ := seek (Config.freeNat 0 % stackFrames)
  exact ⟨frameNo 0 x, _, by
    show (match ({ pl [] (pg { loc := 3 }) with free := 1 } : State).seekFrame 0 2 (Config.freeNat 0 % stackFrames) with
      | some x => some (frameNo 0 x, _) | none => none) = _
    rw [hx]⟩
/-- A get of page 5 that is under way. -/
def busy5 : State := { pl [] (pg { loc := 3 }) with cells := [(0, xat (xfer .get))] }
theorem witness_pages : busy5.pageBusy 5 = true ∧ (pl [] (pg { loc := 3, far := true })).dir 5 = some { loc := 3, far := true }
    ∧ (pl [] (pg { loc := 3 })).frameWaits 0 = false ∧ (pl [] (pg { loc := 3 })).dir 6 = none ∧ (pl [] (pg { loc := 3 })).dir 5 = some { loc := 3 }
    ∧ (pl [] (pg { loc := 3 })).pageBusy 5 = false ∧ (pl [] (pg { loc := 3, fly := true })).dir 5 = some { loc := 3, fly := true }
    ∧ (pl [] (pg { loc := 3, lost := true })).dir 5 = some { loc := 3, lost := true } := by decide
/-- The retirement copy of frame 3 to frame 8. -/
def retiring : Pool := { pg { loc := 3 } with retiring := [⟨0, 3, 8⟩], frames := [(3, .page 5), (8, .copy)] }
theorem witness_retire : (pl [] {}).retiredFrames 11 < 256 ∧ (pl [] {}).frameUse (24576 * 11 + 24575) = none
    ∧ (pl [] { frames := [(9, .retired)] }).frameUse 9 = some .retired
    ∧ 256 ≤ (pl [] { frames := (List.range 256).map (fun i => (i, .retired)) }).retiredFrames 0 ∧ (pl [] retiring).up = true
    ∧ (pl [] retiring).pool.retiring.find? (fun x => x.stack == 0 && x.frame == 3) = some ⟨0, 3, 8⟩
    ∧ (pl [] retiring).frameUse (24576 * 0 + 3) = some (.page 5) ∧ (8 : Nat) ≠ 24576 * 0 + 3 ∧ (pl [] (pg { loc := 3 })).frameUse 3 = some (.page 5)
    ∧ (pl [] (pg { loc := 3 })).frameWaits 0 = false ∧ (pl [] (pg { loc := 3 })).retiredFrames 0 < 256 := by decide +kernel
theorem test_retire : get (exec (.retireCopyComplete 0 3) { pl [] retiring with hbm := [(pageBytes * 3 + 1, 9)] })
    (fun t => (t.pool.frames, (t.dir 5).map (·.loc), memByte t.hbm (pageBytes * 8 + 1))) = some ([(3, .retired), (8, .page 5)], some 8, 9) := by
  decide +kernel
/-- An allocation of cell 0 waits for a frame of stack 0. -/
def allocWait : Pool := { waits := [.alloc (.cell 0 3) 0 1] }
theorem witness_alloc_wait : (pl [] allocWait).up = true ∧ (pl [] allocWait).lowestPage = some 0
    ∧ ∃ u, ({ pl [] allocWait with pool := { (pl [] allocWait).pool with waits := [] } } : State).allocNow 0 0 1 = some u := ⟨rfl, rfl, _, rfl⟩
theorem test_alloc_wait : get (exec .allocWaitEnd (pl [] allocWait)) (fun t => (t.pool.waits, (t.cell 0).s 3)) = some ([], 0) := by decide +kernel

/-- Page 5 on stack 0 and the eviction map in page 7, pegged; four slots at the start of far region 0. -/
def evPool : Pool := { dir := [(5, { loc := 3, cls := 1 }), (7, { loc := 4, peg := true })], frames := [(3, .page 5), (4, .page 7)] }
/-- A module that is to evict. -/
def evict : State :=
  { pl [(Reg.poolLowater, 24576), (Reg.farEvictSize, 4), (Reg.farEvictMap, 7), (Reg.farRegionSize 0, 4), (Reg.farCtrl, 1)] evPool with
    host := { on.host with cxl := true } }
theorem witness_eviction : evict.up = true ∧ evict.poolOn = true ∧ evict.fld Reg.poolCtrl 1 1 = 1 ∧ evict.evictReady = true
    ∧ evict.evictWanted 0 = true ∧ evict.evictingOn 0 < 4 ∧ evict.victim 0 = some (5, { loc := 3, cls := 1 }) ∧ evict.lowestSlot = some 0 := by
  decide +kernel
theorem witness_eviction_covered (u : State) (h1 : u.regs = evict.regs) (h2 : u.host = evict.host) :
    u.farCovers (u.slotAddr 0) 2097152 = some 0 := by
  have e : u.farCovers (u.slotAddr 0) 2097152 = evict.farCovers (evict.slotAddr 0) 2097152 := by
    simp [State.farCovers, State.farOn, State.farRegion, State.slotAddr, State.fld, State.reg, h1, h2]
  rw [e]
  decide +kernel
theorem test_eviction : get (exec (.evictionStart 0) evict) (fun t => ((t.dir 5).map (·.moving), t.pool.evicts)) = some (some true, [⟨5, 0, 0⟩]) := by
  decide +kernel
/-- The eviction of page 5 under way. -/
def evicting : State :=
  { evict with pool := { evPool with dir := [(5, { loc := 3, cls := 1, moving := true }), (7, { loc := 4, peg := true })], evicts := [⟨5, 2, 0⟩] } }
theorem witness_evicting : evicting.up = true ∧ evicting.poolOn = true ∧ evicting.hbmErr = [] ∧ 5 ≠ evicting.evictMap ∧ evicting.pool.evicts.find? (fun x => x.page == 5) = some ⟨5, 2, 0⟩
    ∧ evicting.dir 5 = some { loc := 3, cls := 1, moving := true } ∧ alistGet evicting.pool.merges 5 = none := by decide
theorem test_evicting : get (exec (.evictionComplete 5 0) evicting) (fun t => ((t.dir 5).map (fun e => (e.far, e.loc)), t.frameUse 3)) = some (some (true, 2), none)
    ∧ get (exec (.evictionComplete 5 3) evicting) (fun t => (t.dir 5).map (fun e => (e.far, e.moving))) = some (some (false, false)) := by
  decide +kernel
/-- The bring-up of page 5 into frame 8, whose bytes have come or whose read has failed. -/
def bringing (d : Nat × List Byte) : State :=
  pl [] { dir := [(5, { far := true, moving := true, loc := 2 })], frames := [(8, .bringup 5)], bringups := [⟨5, some 8, 0⟩],
          farReqs := [{ id := 0, write := false, owner := .bringup 5, start := 0, region := 0, len := 256, done := some d }] }
theorem witness_bringup : (bringing (0, [7])).up = true ∧ (bringing (0, [7])).poolOn = true
    ∧ (bringing (0, [7])).pool.bringups.find? (fun x => x.page == 5) = some ⟨5, some 8, 0⟩
    ∧ (bringing (0, [7])).farResult (.bringup 5) = some (0, fitBytes 256 [7]) ∧ (bringing (2, [])).farResult (.bringup 5) = some (2, []) ∧ (bringing (0, [7])).pool.hdmWaits = []
    ∧ (bringing (0, [7])).dir (bringing (0, [7])).evictMap = none := by decide +kernel
theorem test_bringup : get (exec (.bringupComplete 5) (bringing (0, [7]))) (fun t => ((t.dir 5).map (fun e => (e.far, e.loc)), t.frameUse 8, memByte t.hbm (pageBytes * 8)))
      = some (some (false, 8), some (.page 5), 7)
    ∧ get (exec (.bringupComplete 5) (bringing (2, []))) (fun t => ((t.dir 5).map (·.far), t.frameUse 8)) = some (some true, none) := by decide +kernel
/-- A far read of 64 bytes, or the far write of a put. -/
def far64 (w : Bool) : FarReq := { id := b2n w, write := w, owner := .xfer 0 2, start := 0, region := 0, len := 64 }
/-- A module in which both are outstanding since tick 0. -/
def farring : State :=
  { pl [(Reg.farTimeout, 1)] { farReqs := [far64 false, far64 true] } with
    pitch := 100, cells := [(0, xat (xfer .put))] }
theorem witness_far : farring.up = true ∧ farring.pool.farReqs.find? (fun x => x.id == 0 && x.readOut) = some (far64 false)
    ∧ 0 + farring.fld Reg.farTimeout 0 24 ≤ farring.pitch ∧ farring.pool.farReqs.find? (fun x => x.id == 1 && x.write && x.done.isNone) = some (far64 true)
    ∧ alistGet (farring.cell 0).xfers 2 = some (xfer .put) := by decide
theorem test_far : get (exec (.farReadCompletion 0 0 [1]) farring) (fun t => (t.farResult (.xfer 0 2), t.reg Reg.farReads)) = some (some (0, fitBytes 64 [1]), 1)
    ∧ get (exec (.farReadCompletion 0 4 []) farring) (fun t => t.farResult (.xfer 0 2)) = some (some (4, []))
    ∧ get (exec (.farReadTimeout 0) farring) (fun t => (t.farResult (.xfer 0 2), t.reg Reg.farFails)) = some (some (2, []), 1)
    ∧ get (exec (.farWriteTimeout 1) farring) (fun t => (t.cell 0).xfers.map (fun p => p.2.reason)) = some [2] := by decide +kernel
/-- Page 5 with a merge of one segment to do, its old version in frame 9. -/
def merging : State :=
  pl [] { pg { loc := 3 } with frames := [(3, .page 5), (9, .old 5), (10, .reclaim)], merges := [(5, ⟨9, 2 ^ 32 - 2⟩)] }
theorem witness_housekeeping : (pl [] {}).up = true ∧ (pl [] {}).fld Reg.poolCtrl 2 1 = 1 ∧ (pl [] {}).hbmErr = [] ∧ merging.works = true ∧ (pl [] {}).hbmCe = []
    ∧ alistGet merging.pool.merges 5 = some ⟨9, 2 ^ 32 - 2⟩ ∧ merging.dir 5 = some { loc := 3 } := by decide
theorem test_housekeeping : get (exec (.scrubPass 3) (pl [] { scrub := [(3, 24575)] })) (fun t => alistGet t.pool.scrub 3) = some (some 0)
    ∧ get (exec (.pageReclaim 0) merging) (fun t => t.pool.frames) = some [(3, .page 5), (9, .old 5)]
    ∧ get (exec (.flyMerge 5) { merging with hbm := [(pageBytes * 9 + 2, 6)] }) (fun t => (t.frameUse 9, t.pool.merges, memByte t.hbm (pageBytes * 3 + 2)))
      = some (none, [], 6) := by decide +kernel
/-- A module whose window of 256 MiB from host address 0 starts with page 5, resident at frame 3. -/
def window (onBit : W32) : State :=
  { pl [(Reg.poolHdmCtrl, onBit), (Reg.poolHdmPage0, 5), (Reg.hdmGlobal, 2), (Reg.hdmDecoder, 0x400), (Reg.hdmSizeLo, 0x10000000)] (pg { loc := 3 }) with host := { on.host with cxl := true }, hbm := [(pageBytes * 3 + 2, 6)] }
theorem witness_window : (window 1).memOn = true ∧ (window 1).inWindow 0 3 = true ∧ (window 1).inWindow (2 ^ 28) 1 = false
    ∧ (window 1).copying 5 = false ∧ (window 1).fld Reg.poolHdmCtrl 0 1 = 1 ∧ (window 1).poolOn = true
    ∧ (window 1).fld Reg.poolHdmCtrl 1 1 = 0 ∧ (window 0).fld Reg.poolHdmCtrl 0 1 = 0
    ∧ (window 1).dir ((2097152 * (window 1).fld Reg.poolHdmPage0 0 19 + 2097151) / 2097152) = some { loc := 3 } := by decide
theorem test_window : get (exec (.hdmRead 0 3) (window 1)) (fun t => t.out.getLast?) = some (some (.reply [0, 0, 6]))
    ∧ get (exec (.hdmWrite 1 [4]) (window 1)) (fun t => t.hbm) = some [(pageBytes * 3 + 1, 4), (pageBytes * 3 + 2, 6)]
    ∧ get (exec (.hdmRead 0 3) (window 0)) (fun t => (t.out.getLast?, t.reg Reg.poolHdmFaults)) = some (some (.reply [0, 0, 0]), 1)
    ∧ get (exec (.hdmRead (2 ^ 28) 1) (window 1)) (fun t => (t.out.getLast?, t.reg Reg.poolHdmFaults)) = some (some (.reply [0xFF]), 0) := by
  decide +kernel

/-! ### Collectives, pieces, gathers, updates -/

/-- Words of 32 bits at an address, as memory cells without the bytes that are 0. -/
def putW (a : Nat) (ws : List Nat) : List (Nat × Byte) :=
  ((ws.flatMap (leBytes 4)).zipIdx a).filterMap (fun p => if p.1 = 0 then none else some (p.2, p.1))
/-- A module, device address 3, whose pages 5 to 8 are resident: page 5 holds shard record 0 of groundsheet 0 (layer 0, unit 0,
2 rows of 32 columns), the group directory with one group of this module alone, layer 0, update group 0 and the placement of
layer 0; page 6 the masters, page 7 the momentum, page 8 the channel contexts, of which 0 is OPEN with peer 4. -/
def train (l : List (Nat × W32)) (k : Cell) : State :=
  { regs ([(Reg.poolCtrl, 1), (Reg.fabAddr, 0x80000003), (Reg.gsShardBase 0, 5), (Reg.gsShardCount 0, 1), (Reg.gsCtrl 0, 1),
      (Reg.modGroupBaseLo, 0xA10000), (Reg.modGroupCount, 1), (Reg.modLayerBaseLo, 0xA20000), (Reg.modLayerCount, 1),
      (Reg.modUgrpBaseLo, 0xA30000), (Reg.modUgrpCount, 1), (Reg.modPlaceBaseLo, 0xA40000), (Reg.fabChanBase, 8)] ++ l) (core k) with
    pool := { dir := [(5, { loc := 3 }), (6, { loc := 4 }), (7, { loc := 5 }), (8, { loc := 6 })] }
    hbm := putW 0x600000 [0, 0, 0x20000, 32, 6, 7] ++ putW 0x610000 [2 ^ 24] ++ putW 0x610040 [3] ++ putW 0x640000 [0, 0, 0, 0, 1]
      ++ putW 0xC00000 [0, 4, 2 ^ 24] ++ putW 0xC00034 [1] }
/-- A RUNNING cell with a collective word in s1 (64 bytes in W32, group 0, ID 9), a route of radix 2 in s2, a1 and a2. -/
def cl (op : Nat) : Cell :=
  { run := .running, sreg := [(1, BitVec.ofNat 64 (op + 0x150 + 2 ^ 48 * 9))], areg := [(1, 0x1000), (2, 0x2000)] }
/-- The operands of a collective. -/
def clOps : ROps := { sd := 3, sa := 1, ax := 1, ay := 2 }

theorem witness_collectives : (∀ op ∈ [0, 1, 2, 3, 4], rLegal 0x06 op clOps = true)
    ∧ Issues (train [] (cl 3)) 0 (.clBcast 0 clOps) false 0 (collUses clOps)
    ∧ (let u := (train [] (cl 3)).fetched 0 0x06 0x00
       u.farNeed (.core 0) (u.collPages ((cl 3).s 1)) = [] ∧ u.checkColl 3 ((cl 3).s 1) 0 0x1000 0x2000 = none
         ∧ u.checkColl 3 ((cl 2).s 1) 0 0x1000 0x2000 = some 0x50 ∧ u.checkColl 3 ((cl 3).s 1) 0 0x1001 0x2000 = some 0x54
         ∧ u.checkColl 3 ((cl 3).s 1) 0x10000 0x1000 0x2000 = some 0x52 ∧ u.checkColl 0 ((cl 0).s 1) 0 0x1000 0x2000 = none) := by
  unfold Issues; decide +kernel
theorem witness_collective_handle : ∃ h v, (((train [] (cl 3)).fetched 0 0x06 0x00).groupTouch 0 (collGroup ((cl 3).s 1))).takeColl 0 = some (h, v) := ⟨_, _, rfl⟩
/-- A cell all of whose collective handles are in use, 2 in each of the phases. -/
def colls (p : CollPhase) : Cell :=
  { cl 3 with sreg := [(1, (cl 3).s 1), (4, 2)],
              colls := (List.range 16).map (fun i => (i, { op := 3, word := (cl 3).s 1, src := 0x1000, dst := 0x2000, phase := p, members := [3] })) }
theorem witness_no_handle : (((train [] (colls .done)).fetched 0 0x06 0x00).groupTouch 0 (collGroup ((cl 3).s 1))).takeColl 0 = none := by decide +kernel
theorem witness_collective_wait : Issues (train [] (colls .done)) 0 (.clWait 0 { sd := 3, sa := 4 }) false 0 [3, 4]
    ∧ rLegal 0x06 0x08 { sd := 3, sa := 4 } = true ∧ rLegal 0x06 0x09 { sa := 4 } = true
    ∧ (alistGet (colls .running).colls 2).map (·.phase) = some .running ∧ (alistGet (colls (.failed 7)).colls 2).map (·.phase) = some (.failed 7)
    ∧ alistGet (cl 3).colls 2 = none := by
  unfold Issues; decide
theorem test_collective_wait : get (exec (.clWait 0 { sd := 3, sa := 4 }) (train [] (colls .done))) (fun t => ((t.cell 0).s 3, alistGet (t.cell 0).colls 2)) = some (1, none)
    ∧ get (exec (.clWait 0 { sd := 3, sa := 4 }) (train [] (colls (.failed 7)))) (fun t => (t.cell 0).s 3) = some 0x711
    ∧ get (exec (.clCancel 0 { sa := 4 }) (train [] (colls .done))) (fun t => alistGet (t.cell 0).colls 2) = some none := by decide +kernel
theorem witness_collective_completes : (train [] (colls .running)).works = true
    ∧ ∃ k, alistGet ((train [] (colls .running)).cell 0).colls 2 = some k ∧ k.phase = .running
        ∧ (train [] (colls .running)).allSent 0 2 = true ∧ ∃ bs, (train [] (colls .running)).collResult k = some bs := ⟨by decide, _, rfl, rfl, by decide, _, rfl⟩
theorem test_collective_completes : get (exec (.collectiveComplete 0 2) { train [] (colls .running) with spad := [(0x1005, 8)] }) (fun t => t.spad)
    = some [(0x1005, 8), (0x2005, 8)] := by decide +kernel

/-- A contribution of this module's own for layer 0, for the epoch `e`. -/
def ownContrib (e : W32) : Hdr := { kind := 4, fmt := 5, dim0 := 32, dim1 := 2, src := 3, epoch := e, len := 328, dst := 3, dstUnit := 0x4000 }
theorem witness_channel_messages : (train [] {}).up = true ∧ (train [] {}).farNeed (.cmd (.dwPiece {} [])) ((train [] {}).placePages 0) = []
    ∧ (∀ x, (train [] {}).ctx 1 = some x → x.cstate ≠ 1) := by
  have h : ((train [] {}).ctx 1).map (·.cstate) = some 0 := by decide +kernel
  refine ⟨by decide, by decide +kernel, fun x e => ?_⟩
  rw [e] at h
  simp at h
  omega
theorem witness_channel_open : ((train [] {}).ctx 0).map (·.cstate) = some 1 := by decide +kernel
theorem witness_contributions : (ownContrib 1).dstUnit.toNat = 0x4000 + 0 ∧ (ownContrib 1).src.toNat = (train [] {}).ownAddr
    ∧ (ownContrib 1).fmt.toNat ≤ 8
    ∧ (train [] {}).farNeed (.cmd (.contrib (ownContrib 1) [])) ((train [] {}).contribPages 0 (ownContrib 1)) = [] ∧ (train [] {}).fld (Reg.gsCtrl 0) 0 1 = 1
    ∧ (train [] {}).step.mode ≠ .diverged ∧ (ownContrib 1).epoch = (train [] {}).epoch + 1 := by decide +kernel
theorem test_channel_messages : get (exec (.coll { chan := 1 } []) (train [] {})) (fun t => t.reg Reg.fabChanReject) = some 1
    ∧ get (exec (.contrib (ownContrib 1) []) (train [] {})) (fun t => (t.gs 0).held.length) = some 1 := by decide +kernel

/-- A tile of one row of 32 ones that drains to RED, for layer 0, row 0, LC 1. -/
def redTile : Tile := { h := 5, m := 1, n := 32, phase := .red, elems := List.replicate 32 0x3FC00000 }
/-- A cell that drains it. -/
def reds : Cell := { cl 0 with tiles := [redTile] }
theorem witness_piece : (train [] reds).works = true ∧ reds.tiles.find? (fun t => t.h == 5 && t.phase == .red) = some redTile
    ∧ (let d := (train [] reds).redHdr 0 redTile
       (train [] reds).cuFull ((train [] reds).cuDie (hdrRow0 d) 0) d = false)
    ∧ (train [] reds).farNeed (.cmd (.dwPieceTake 0 5)) ((train [] reds).placePages 0) = [] := by decide +kernel
theorem test_piece : get (exec (.dwPieceTake 0 5) (train [] reds)) (fun t => (t.reg (Reg.cellMxPieces 0), (t.cell 0).tiles.map (·.phase))) = some (1, [.taken]) := by
  decide +kernel

/-- A gather request of cell 0 for the tile at row 0, column 0 of layer 0, in TN, of an epoch. -/
def greq (e : W32) : GatherReq := { h := { kind := 1, epoch := e, dstUnit := 0x4000, arg := 0 }, deadline := 0 }
/-- A module whose groundsheet 0 holds such a request. -/
def gathering (e : W32) : State := { train [] {} with gss := [(0, { reqs := [greq e] })] }
theorem witness_gathers : (greq 0).h.dstUnit.toNat = 0x4000 + 0 ∧ (gathering 0).up = true ∧ (gathering 0).works = true
    ∧ (gathering 0).fld (Reg.gsCtrl 0) 0 1 = 1 ∧ (gathering 0).pickGather 0 = some (greq 0) ∧ (gathering 1).pickGather 0 = some (greq 1)
    ∧ (gathering 9).pickGather 0 = some (greq 9) ∧ (gathering 0).step.mode ≠ .diverged ∧ (greq 1).h.epoch = (gathering 1).epoch + 1
    ∧ (greq 0).h.epoch = (gathering 0).epoch ∧ (greq 9).h.epoch ≠ (gathering 9).epoch ∧ (greq 9).h.epoch ≠ (gathering 9).epoch + 1
    ∧ (gathering 0).farNeed (.cmd (.gatherServe 0)) ((gathering 0).gatherPages 0 (gWord (greq 0).h.arg.toNat)) = [] := by decide +kernel
theorem test_gathers : get (exec (.gatherReq (greq 0).h) (train [] {})) (fun t => (t.gs 0).reqs.length) = some 1
    ∧ get (exec (.gatherServe 0) (gathering 1)) (fun t => (t.reg (Reg.gsGatherHeld 0), (t.gs 0).reqs.map (·.held))) = some (1, [true])
    ∧ get (exec (.gatherServe 0) (gathering 9)) (fun t => (t.gs 0).reqs.length) = some 0 := by decide +kernel
/-- A module whose groundsheet 0 has slice 0 of shard 0 ready; in `skip` its layer has DW_SKIP set. -/
def updating (skip : Bool) : State :=
  { train [] {} with
      gss := [(0, { ready := [{ shard := 0, slice := 0, layer := 0, epoch := 0, g := List.replicate 64 0 }] })],
      hbm := if skip then putW 0x600000 [0, 0, 0x20000, 32, 6, 7] ++ putW 0x620008 [0x100] else (train [] {}).hbm }
theorem witness_slices : (updating true).works = true ∧ (updating true).fld (Reg.gsCtrl 0) 0 1 = 1 ∧ ((train [] {}).gs 0).ready = []
    ∧ ((updating true).peekShard 0 0).map (fun x => (x.layer, (updating true).peekLayer x.layer |>.dwSkip)) = some (0, true)
    ∧ ((updating false).peekShard 0 0).map (fun x => ((updating false).peekLayer x.layer |>.dwSkip,
        (updating false).farNeed (.cmd (.sliceUpdate 0)) ((updating false).slicePages 0 { shard := 0, slice := 0, layer := 0, epoch := 0, g := List.replicate 64 0 }))) = some (false, []) := by
  decide +kernel
theorem witness_slice_records : (on.readShard 0 0).1.isNone = true
    ∧ (∀ b ∈ [true, false], (let q := (updating b).readShard 0 0
        q.1.map (fun y =>
          let k := q.2.groupConsts 0 y.group y.desc
          (k.2.readLayer 0x8000 (unitGs 0) y.layer).1.dwSkip)) = some b) := by decide +kernel
theorem test_slices : get (exec (.sliceUpdate 0) (updating true)) (fun t => (t.gs 0).ready.length) = some 0
    ∧ get (exec (.sliceUpdate 0) (train [] {})) (fun t => t.gss) = some [] := by decide +kernel

/-! ### Pitch counter and step machine -/

/-- A module in the guyline tree: parent port 2 and child port 4, both UP. -/
def tree (l : List (Nat × W32)) : State :=
  { regs ([(Reg.guyCtrl, 1), (Reg.guyUpport, 2), (Reg.guyDownmask, 0x10)] ++ l) on with
    pitch := 100
    fab := { on.fab with ports := [(2, { mode := .up }), (4, { mode := .up })] } }
/-- The root of a tree with one child port, 4. -/
def root4 (l : List (Nat × W32)) : State := tree ([(Reg.guyUpport, 31)] ++ l)

theorem witness_pitch : on.up = true ∧ on.isMaster = true ∧ (tree []).isMaster = false ∧ (tree []).up = true ∧ (root4 []).isMaster = true
    ∧ (root4 []).downPorts = [4] := by decide
theorem test_pitch_load : get (exec .pitCmdLoad (regs [(Reg.pitSetLo, 7), (Reg.pitSetHi, 1)] on)) (fun t => t.pitch) = some (2 ^ 32 + 7)
    ∧ exec .pitCmdLoad (tree []) = .next (tree []) := ⟨by decide, rfl⟩
theorem witness_timing_cells : (tree []).launches = 0 ∧ ((tree []).port 2).guyQ = [] ∧ ((tree []).port 4).guyQ = []
    ∧ ((tree []).port 2).guyRoom (tree []).pitch = true ∧ ((tree []).port 4).guyRoom (tree []).pitch = true
    ∧ ({ good := false } : TimeCell).good = false ∧ alistGet (tree []).step.seqIn 2 = none
    ∧ (2 : Nat) = (tree []).upPort ∧ (tree []).portUp 2 = true ∧ 4 ∈ (tree []).downPorts ∧ (tree []).portUp 4 = true := by
  decide
theorem test_timing_cells : get (exec (.sync 2 { tick := 3, frac := 1 }) (tree [])) (fun t => (t.pit.t1, t.out.length)) = some (some 3073, 2)
    ∧ get (exec (.delayReq 4 {}) (tree [])) (fun t => t.out.length) = some 2
    ∧ get (exec (.sync 2 { tick := 3, good := false }) (tree [])) (fun t => t.pit.t1) = some none := by decide +kernel
/-- A follower in the middle of an exchange in which t2 − t1 is 2,000 and `t3` departs. -/
def exchange (m : PitchMode) : State := { tree [] with pit := { mode := m, t1 := some 1000, t2 := 3000, t3 := some 4000, holdFrom := 90 } }
theorem witness_exchange : (exchange .locked).up = true ∧ (exchange .locked).pit.t1 = some 1000 ∧ (exchange .locked).pit.t3 = some 4000
    ∧ (pitOffset 1000 3000 4000 3952 0).natAbs ≤ 1024 ∧ 1024 ≤ pitOffset 1000 3000 4000 3952 0 ∧ pitOffset 1000 3000 4000 8048 0 ≤ -1024
    ∧ (exchange .locked).asymOf 2 = 0 := by decide
theorem test_offset : pitOffset 1000 3000 4000 5000 200 = 400
    ∧ get (exec (.delayResp 2 { tick := 3, frac := 880 }) (exchange .locked)) (fun t => t.pit.mode) = some .locked
    ∧ ((exchange .acquiring).exchangeDone (-1024)).pitch = 101 ∧ ((exchange .acquiring).exchangeDone 2048).pitch = 98 := by
  decide +kernel
theorem witness_missing : ({ exchange .locked with pit := { (exchange .locked).pit with missing := 4 } } : State).isMaster = false
    ∧ 1024 * (exchange .holdover).fld Reg.pitHoldLimit 0 16 ≤ ({ exchange .holdover with pitch := 2 ^ 27 } : State).pitch - 90 := by decide
theorem test_missing : get (exec .exchangeMissing { exchange .locked with pit := { (exchange .locked).pit with missing := 4 } }) (fun t => t.pit.mode) = some .holdover
    ∧ get (exec .holdoverLimit { exchange .holdover with pitch := 2 ^ 27 }) (fun t => t.pit.mode) = some .free := by decide

/-- A module in a step that is OPEN at tick 100, with T_seal as given. -/
def sealing (t : Option Nat) : State := { open0 (tree []) with step := { (tree []).step with mode := .opened, tseal := t } }
theorem witness_seal : (sealing none).step.mode = .opened ∧ (sealing none).pitch < 150 ∧ 100 ≤ (sealing none).pitch ∧ (sealing (some 150)).step.tseal = some 150
    ∧ (sealing (some 150)).pitch < 150 ∧ (151 : Nat) ≠ 150 ∧ (sealing none).up = true := by decide
theorem test_seal : ((sealing none).sealAt 0 150).step.tseal = some 150 ∧ ((sealing none).sealAt 0 100).step.flags = 8
    ∧ get (exec .stepCmdSeal { sealing none with regs := (regs [(Reg.modStepSealtLo, 120)] (sealing none)).regs }) (fun t => t.step.tseal) = some (some 120)
    ∧ get (exec .stepCmdAbort (sealing none)) (fun t => t.step.flags) = some 8 := by decide
/-- A module whose step machine is as given. -/
def stepAt (m : StepMode) : State := { tree [] with step := { (tree []).step with mode := m } }
theorem witness_steps : on.step.mode = .idle ∧ (stepAt .opened).step.mode ≠ .idle ∧ (stepAt .diverged).step.mode = .diverged ∧ (stepAt .sealed).stepping = true
    ∧ (stepAt .diverged).stepping = false ∧ (stepAt .diverged).up = true := by decide
theorem test_steps : get (exec .stepEnable on) (fun t => t.step.mode) = some .opened
    ∧ get (exec .clearDiverge (stepAt .diverged)) (fun t => t.step.mode) = some .opened
    ∧ get (exec .stepDisable (stepAt .opened)) (fun t => t.step.mode) = some .idle
    ∧ get (exec (.modEpochWrite 5) on) (fun t => t.epoch) = some 5
    ∧ get (exec (.modEpochWrite 5) (stepAt .opened)) (fun t => t.epoch) = some 0 := by decide +kernel
/-- A contribution cell of the epoch 0 for T_seal 150. -/
def guy (f : BitVec 4) (n : BitVec 3) : GuyCell := { seq := n, flags := f, epoch := 0, tseal := 150 }
/-- A SEALED module that awaits its verdict. -/
def awaits (v : Option (BitVec 4)) : State :=
  { tree [] with step := { (tree []).step with mode := .sealed, tseal := some 90, applyAt := some 100, own := some (guy 0 0), verdict := v } }
theorem witness_guyline : (guy 0 1).good = true ∧ (guy 0 1).copy = false ∧ 4 ∈ (awaits none).downPorts ∧ (awaits none).downPorts = [4]
    ∧ (awaits none).step.own = some (guy 0 0) ∧ (awaits none).step.forwarded = false ∧ (awaits none).step.children = []
    ∧ (stepAt .opened).step.own = none ∧ (awaits none).guyOn = true ∧ 2 = (awaits none).upPort ∧ (awaits none).isMaster = false := by decide
theorem test_guyline : get (exec (.guylineContribution 4 (guy 2 1)) (awaits none)) (fun t => t.out.length) = some 2
    ∧ get (exec (.guylineContribution 4 { guy 2 1 with good := false }) (awaits none)) (fun t => t.out) = some []
    ∧ get (exec (.guylineVerdict 2 { guy 2 1 with tseal := 90 }) (awaits none)) (fun t => t.step.verdict) = some (some 2) := by decide
theorem witness_verdicts : (awaits none).stepping = true ∧ (guy 0 1).epoch = (awaits none).epoch ∧ (sealing (some 150)).step.tseal = some 150
    ∧ (guy 0 1).tseal = BitVec.ofNat 32 150 ∧ ({ guy 0 1 with epoch := 3 }).epoch ≠ (awaits none).epoch := by decide
theorem witness_seal_reached : 90 ≤ (sealing (some 90)).pitch ∧ (sealing (some 90)).step.tseal = some 90 ∧ (awaits none).step.applyAt = some 100
    ∧ 100 ≤ (awaits none).pitch ∧ (awaits (some 4)).step.verdict = some 4 ∧ (4 : BitVec 4) ≠ 0 := by decide
theorem test_verdict : get (exec .tSealReached (sealing (some 90))) (fun t => t.step.mode) = some .sealed
    ∧ get (exec .verdictApply (awaits (some 0))) (fun t => (t.step.mode, t.epoch)) = some (.opened, 1)
    ∧ get (exec .verdictApply (awaits (some 4))) (fun t => (t.step.mode, t.epoch)) = some (.opened, 0)
    ∧ get (exec .verdictApply (awaits none)) (fun t => (t.step.mode, t.step.struck)) = some (.diverged, 0) := by decide +kernel
/-- GSCALE from 2^`a` to 2^`b`. -/
def scale (a b : Nat) : State := regs [(Reg.modGscaleCtrl, BitVec.ofNat 32 (1000 + 2 ^ 16 * a + 2 ^ 24 * b))] on
theorem witness_gscale : (scale 3 62).fld Reg.modGscaleCtrl 16 6 = 3 ∧ (scale 3 62).fld Reg.modGscaleCtrl 24 6 = 62
    ∧ (BitVec.ofNat 32 (2 ^ 22 * (3 + 255))).toNat = 2 ^ 22 * (3 + 255) ∧ (scale 0 0).gscaleExp = 0
    ∧ 0 < (BitVec.ofNat 32 (1 + 2 ^ 16 * 4 + 2 ^ 24 * 4)).toNat % 2 ^ 16 := by decide
theorem test_gscale : get (exec (.modGscaleWrite (BitVec.ofNat 32 (2 ^ 22 * 260))) (scale 3 20)) (fun t => t.gscaleExp) = some 5
    ∧ get (exec (.modGscaleWrite 0) (scale 3 20)) (fun t => t.gscaleExp) = some 3
    ∧ get (exec (.modGscaleCtrlWrite (BitVec.ofNat 32 (1000 + 2 ^ 16 * 4 + 2 ^ 24 * 9))) (scale 0 20)) (fun t => t.gscaleExp) = some 4 := by decide +kernel

/-! ### Channels, routing, ports, discovery -/

/-- `train` at tick 5,000 with word `v` at byte `o` of channel context 0 (TX_SEQ at 40, ACKED 44, RX_SEQ 48, state 52), and its
other part as given. -/
def chan0 (ws : List Nat) (k : Chan) : State :=
  { train [] {} with
    pitch := 5000
    fab := { on.fab with chans := [(0, k)] }
    hbm := putW 0xC00000 ([0, 4, 2 ^ 24, 2 ^ 25 + 32] ++ List.replicate 6 0 ++ ws) }
/-- A message sent on channel 0. -/
def sentMsg (n : Nat) : Msg := { h := { kind := 4, tag := BitVec.ofNat 15 n, len := 64, dst := 4 } }
/-- An acknowledgement of channel 0 up to a number. -/
def ackOf (n : Nat) : Hdr := { kind := 8, chan := 0, arg := BitVec.ofNat 128 n }
theorem witness_contexts : (chan0 [] {}).up = true ∧ (∀ e ∈ (chan0 [] {}).pool.evicts, e.page ≠ (chan0 [] {}).chanAddr 0 / pageBytes) ∧ (chan0 [] {}).chanOk 0 = true ∧ (chan0 [] {}).farAmong [(chan0 [] {}).chanAddr 0 / pageBytes] = [] ∧ nthWord ((chan0 [] {}).chanWords 0) 0 = nthWord ((chan0 [] {}).chanWords 0) 15
    ∧ unitOk (wfield ((chan0 [] {}).chanWords 0) 1 17 15) = true
    ∧ nthWord ((chan0 [0, 0, 0, 0, 0, 7] {}).chanWords 0) 0 ≠ nthWord ((chan0 [0, 0, 0, 0, 0, 7] {}).chanWords 0) 15 := by decide +kernel
theorem test_contexts : get (exec (.chanOpen 0) (chan0 [5, 5, 5, 2] {})) (fun t => (t.ctx 0).map (fun x => (x.tx, x.acked, x.rx, x.cstate))) = some (some (0, 0, 0, 1))
    ∧ get (exec (.chanClose 0) (chan0 [5, 5, 5, 1] {})) (fun t => (t.ctx 0).map (fun x => (x.tx, x.cstate))) = some (some (5, 0))
    ∧ get (exec (.chanOpen 0) (chan0 [5, 5, 5, 2, 0, 7] {})) (fun t => (t.reg Reg.fabChanStatus, (t.ctx 0).map (·.cstate))) = some (2, some 2)
    ∧ get (exec (.chanReset 0) (chan0 [5, 5, 5, 2] { unacked := [sentMsg 0] })) (fun t => (t.chan 0).unacked) = some [] := by decide +kernel
/-- Two messages sent and not acknowledged, with retransmissions done so far. -/
def two (st r : Nat) : State := chan0 [7, 5, 3, st] { unacked := [sentMsg 5, sentMsg 6], ackFrom := some 4968, progress := 4968, retx := r }
theorem witness_acks : ((two 1 0).ctx 0).map (fun x => (x.tx, x.acked, x.cstate, x.rto, x.retries)) = some (7, 5, 1, 32, 2) ∧ (two 1 0).up = true
    ∧ (∀ e ∈ (two 1 0).pool.evicts, e.page ≠ (two 1 0).chanAddr 0 / pageBytes)
    ∧ (ackOf 6).chan.toNat = 0 ∧ ((two 1 0).cu 0).outbox = [] ∧ (two 1 0).cus = [] ∧ ((two 2 0).ctx 0).map (·.cstate) = some 2
    ∧ ((two 1 0).chan 0).ackFrom = some 4968 ∧ 4968 + 32 ≤ (two 1 0).pitch ∧ ((two 1 0).chan 0).unacked ≠ []
    ∧ ((two 1 0).chan 0).progress + 32 ≤ (two 1 0).pitch ∧ ((two 1 1).chan 0).retx < 2 ∧ 2 ≤ ((two 1 2).chan 0).retx := by decide +kernel
theorem test_acks : get (exec (.ack (ackOf 6)) (two 1 0)) (fun t => ((t.ctx 0).map (·.acked), (t.chan 0).unacked.map (·.h.tag))) = some (some 6, [6])
    ∧ get (exec (.ackDelay 0) (two 1 0)) (fun t => ((t.chan 0).ackFrom, (t.chan 0).told)) = some (none, 3) := by decide +kernel
theorem test_rto : get (exec (.channelRto 0) (two 1 1)) (fun t => ((t.chan 0).retx, t.reg Reg.fabChanRetx)) = some (2, 1)
    ∧ get (exec (.channelRto 0) (two 1 2)) (fun t => (t.ctx 0).map (·.cstate)) = some (some 2) := by decide +kernel

/-- A module, device address 3, whose fabric is on, with ports as given and entry 9 of the route table for port 7. -/
def fabric (l : List (Nat × W32)) (ps : List (Nat × Port)) : State :=
  { regs ([(Reg.fabCtrl, 1), (Reg.fabAddr, 0x80000003), (Reg.fabRt 9, 0x80002007)] ++ l) on with
    pitch := 0x3B9ACA12
    fab := { on.fab with ports := ps } }
/-- An UP port with some lanes and flits queued for lane 0. -/
def upPort (lanes n : Nat) : Port :=
  { mode := .up, lanes := lanes, queue := if n = 0 then [] else [{ msg := {}, pool := 0, left := n }] }
/-- A message of lane 0 to a device. -/
def msgTo (d : BitVec 17) (hops : Nat) : Msg := { h := { kind := 1, len := 64, dst := d, dstUnit := 5 }, hops := hops }
/-- The three ports of the worked example. -/
def example3 (m : PortMode) : State := fabric [] [(7, { upPort 15 40 with mode := m }), (8, upPort 3 12), (19, upPort 15 24)]
theorem witness_routes : (example3 .up).up = true ∧ ((example3 .up).port 7).mode = .up ∧ isDisc (msgTo 9 4).h = false ∧ (example3 .up).fabOn = true
    ∧ (msgTo 3 4).h.dst.toNat = (example3 .up).ownAddr ∧ kindOk (msgTo 3 4).h.kind.toNat = true ∧ unitOk (msgTo 3 4).h.dstUnit.toNat = true
    ∧ (msgTo 9 4).h.dst.toNat ≠ (example3 .up).ownAddr ∧ (msgTo 9 0).hops = 0 ∧ ((example3 .up).reg (Reg.fabRt 10)).toNat.testBit 31 = false
    ∧ ((example3 .up).reg (Reg.fabRt 9)).toNat.testBit 31 = true ∧ ((example3 .up).reg (Reg.fabRt 9)).toNat % 32 = 7 ∧ (example3 .up).portUp 7 = true := by
  decide +kernel
theorem witness_worked_example : (example3 .up).pitch = 0x3B9ACA12 ∧ (example3 .up).portUp 8 = true ∧ (example3 .up).portUp 19 = true
    ∧ ((example3 .up).port 8).laneCount = 2 ∧ ((example3 .up).port 19).laneCount = 4 ∧ ((example3 .up).port 7).laneCount = 4
    ∧ ((example3 .up).port 8).queued 0 = 12 ∧ ((example3 .up).port 19).queued 0 = 24 ∧ ((example3 .up).port 7).queued 0 = 40
    ∧ 0 < ((example3 .up).port 8).credit 0 0 ∧ 0 < ((example3 .up).port 19).credit 0 0 ∧ (example3 .train).portUp 7 = false := by decide +kernel
theorem test_routes : get (exec (.headFlitRoute 7 0 false false 4 [{ len := 64 }] {} (msgTo 3 4).h []) (fabric [] [(7, upPort 15 0)])) (fun t => t.out.getLast?)
      = some (some (.deliver (msgTo 3 4).h []))
    ∧ get (exec (.headFlitRoute 7 0 false false 4 [{ len := 64 }] {} (msgTo 10 4).h []) (fabric [] [(7, upPort 15 0)])) (fun t => t.reg Reg.fabUnroutable) = some 1
    ∧ get (exec (.headFlitRoute 7 0 false false 0 [{ len := 64 }] {} (msgTo 9 4).h []) (fabric [] [(7, upPort 15 0)])) (fun t => t.reg Reg.fabTtlDrop) = some 1
    ∧ get (exec (.headFlitRoute 7 0 false false 4 [{ som := false, len := 64 }] {} (msgTo 3 4).h []) (fabric [] [(7, upPort 15 0)])) (fun t => t.reg Reg.fabIncomplete) = some 1
    ∧ get (exec (.routeEntryWrite 9 4) on) (fun t => t.reg (Reg.fabRt 9)) = some 4 := by decide +kernel
/-- A port with 250 flits used and sent on lane 2, pool 1, of which the last return said 246. -/
def lent : Port := { mode := .up, used := [(7, 20)], sent := [(7, 250)], returned := [(7, 246)], received := [(7, 300)] }
theorem witness_credits : (fabric [] [(7, lent)]).up = true ∧ ((fabric [] [(7, lent)]).port 7).receives = true
    ∧ ((fabric [] [(7, lent)]).port 7).queue = [] := by decide
/-- A port on four lanes, of which none may have more than 8 symbol errors in an interval. -/
def port15 : State := fabric [(Reg.fabLaneLimit, 8)] [(7, upPort 15 0)]
theorem witness_lane_limit : (port15.port 7).lanes.testBit 1 = true ∧ port15.fld Reg.fabLaneLimit 0 24 < (port15.symbolsNow 7 { symbols := [0, 9] }).getD 1 0
    ∧ ¬ port15.fld Reg.fabLaneLimit 0 24 < (port15.symbolsNow 7 { symbols := [0, 9] }).getD 0 0 := by decide +kernel
theorem test_credits : get (exec (.linkFlitReceive 7 2 1 4 {}) (fabric [] [(7, lent)])) (fun t => countAt (t.port 7).used 7) = some 6
    ∧ get (exec (.creditReport 7 (List.replicate 7 0 ++ [247])) (fabric [] [(7, lent)])) (fun t => (countAt (t.port 7).used 7, t.reg (Reg.fabPortFlitsLost 7)))
      = some (17, 3)
    ∧ get (exec (.codewordUncorrectable 7) (fabric [] [(7, lent)])) (fun t => t.reg (Reg.fabPortFecUncorr 7)) = some 1
    ∧ ((port15.fecTake 7 { symbols := [0, 9] }).port 7).failed = 2 := by decide +kernel
/-- A transaction of widen 0 of cell 0, sent at `t`, with retries done. -/
def flying (t r : Nat) : State :=
  { fabric [] [] with fab := { on.fab with txns := [{ tag := 6, msg := msgTo 9 4, owner := .widen 0 0, sentAt := t, retries := r }] } }
theorem witness_transactions : (flying 5 0).up = true
    ∧ (flying 5 0).fab.txns.find? (fun y => y.tag == 6) = some { tag := 6, msg := msgTo 9 4, owner := .widen 0 0, sentAt := 5, retries := 0 }
    ∧ 5 + (flying 5 0).txnTimeout ≤ (flying 5 0).pitch ∧ (flying 5 0).pitch < 0x3B9ACA12 + (flying 0x3B9ACA12 0).txnTimeout
    ∧ 0 < (flying 5 0).fld Reg.fabTxnRetries 0 4 ∧ (flying 5 15).fld Reg.fabTxnRetries 0 4 ≤ 15 := by decide
theorem test_transactions : get (exec (.txnTimeout 6) (flying 5 0)) (fun t => t.fab.txns.map (fun x => (x.retries, x.msg.h.flags))) = some [(1, 0x100)]
    ∧ get (exec (.txnTimeout 6) (flying 5 15)) (fun t => (t.fab.txns.length, t.reg Reg.fabTxnFail)) = some (0, 1) := by decide +kernel
/-- A module whose port 7 is as given. -/
def port7 (q : Port) : State := fabric [] [(7, q)]
theorem witness_ports : (port7 {}).up = true ∧ ((port7 {}).port 7).mode = .disabled ∧ ((port7 { mode := .train }).port 7).failed % 16 = 0
    ∧ (port7 {}).fld (Reg.fabPortCtrl 7) 1 1 = 0 ∧ (regs [(Reg.fabPortCtrl 7, 3)] (port7 {})).fld (Reg.fabPortCtrl 7) 1 1 = 1
    ∧ (1 : Nat) % 4 ≠ 0 ∧ (1 : Nat) / 4 % 4 = 0 ∧ (5 : Nat) / 4 % 4 ≠ 0 ∧ ((port7 { mode := .fenced, recorded := some 8 }).port 7).recorded ≠ some 9
    ∧ (15 : Nat).testBit 3 = true := by decide
theorem test_ports : get (exec (.portEnable 7) (port7 { failed := 3 })) (fun t => ((t.port 7).mode, (t.port 7).failed)) = some (.train, 0)
    ∧ get (exec (.portDisable 7) (port7 (upPort 15 0))) (fun t => ((t.port 7).mode, (t.port 7).lanes)) = some (.disabled, 0)
    ∧ get (exec (.trainComplete 7 true true true) (port7 { mode := .train, failed := 1 })) (fun t => ((t.port 7).mode, (t.port 7).lanes)) = some (.align, 12)
    ∧ get (exec (.alignComplete 7) (port7 { mode := .align })) (fun t => (t.port 7).mode) = some .ident
    ∧ get (exec (.alignTimeout 7) (port7 { mode := .align, lanes := 3 })) (fun t => ((t.port 7).mode, (t.port 7).lanes)) = some (.train, 0) := by decide +kernel
theorem test_port_peers : get (exec (.identComplete 7 8 0 false 1 []) (port7 { mode := .ident, lanes := 15 })) (fun t => ((t.port 7).mode, (t.port 7).recorded)) = some (.up, some 8)
    ∧ get (exec (.identComplete 7 8 0 false 1 []) (port7 { mode := .ident, recorded := some 9 })) (fun t => ((t.port 7).mode, (t.port 7).recorded)) = some (.fenced, some 9)
    ∧ get (exec (.unfence 7) (port7 { mode := .fenced, lanes := 15, recorded := some 9, peerSerial := 8 })) (fun t => ((t.port 7).mode, (t.port 7).recorded)) = some (.up, some 8)
    ∧ get (exec (.laneFault 7 3) (port7 (upPort 15 0))) (fun t => ((t.port 7).mode, (t.port 7).failed)) = some (.train, 8)
    ∧ get (exec (.laneFault 7 4) (port7 (upPort 15 0))) (fun t => ((t.port 7).mode, (t.port 7).failed)) = some (.train, 0) := by decide +kernel

/-- A probe of discovery whose route leads through port 7, at hop `i`. -/
def probe (i : Nat) : Hdr := { kind := 0x0A, arg := routeArg [7] i, tag := 5 }
/-- A root in the middle of discovery: it has probed its port 7 under tag 5, and knows serials 0 and 77. -/
def finding : State :=
  { fabric [(Reg.fabDiscNext, 4)] [(7, upPort 15 0)] with
    fab := { on.fab with ports := [(7, upPort 15 0)], txns := [{ tag := 5, msg := { h := probe 0 }, owner := .disc, sentAt := 0 }],
                         disc := { mode := .running, seen := [0, 77], queue := [{ addr := 3, serial := 0, depth := 0, route := [], ports := [7] }] } } }
theorem witness_discovery : on.fab.disc.mode ≠ .running ∧ (List.range 24).filter on.portUp = [] ∧ (List.range 24).filter (port7 (upPort 15 0)).portUp = [7]
    ∧ (port7 (upPort 15 0)).nextTag = some 0 ∧ finding.fab.disc.mode = .running ∧ routeDone (probe 1) = true ∧ routeDone (probe 0) = false := by
  decide +kernel
theorem witness_identities : finding.fld Reg.fabAddr 31 1 = 1
    ∧ finding.discTxnOf { ({ probe 0 with kind := 0x0B, dst := 3 } : Hdr) with resp := true } = some { tag := 5, msg := { h := probe 0 }, owner := .disc, sentAt := 0 }
    ∧ finding.fab.disc.queue = [{ addr := 3, serial := 0, depth := 0, route := [], ports := [7] }] ∧ 9 ∉ finding.fab.disc.seen ∧ 77 ∈ finding.fab.disc.seen
    ∧ on.step.mode = .idle ∧ (stepAt .opened).step.mode ≠ .idle ∧ (stepAt .opened).ownAddr ≠ leNat [6, 0, 0, 0] % 2 ^ 17
    ∧ routeDone { probe 1 with kind := 0x0C } = true := by decide +kernel
theorem test_discovery : get (exec .discStart on) (fun t => (t.fab.disc.mode, t.fab.disc.found)) = some (.done, 1)
    ∧ get (exec .discStart (port7 (upPort 15 0))) (fun t => t.fab.txns.map (·.tag)) = some [0]
    ∧ get (exec .discAbort finding) (fun t => (t.fab.disc.mode, t.fab.txns.length)) = some (.failed, 0)
    ∧ get (exec (.discIdent 7 3 { probe 0 with kind := 0x0B, dst := 3 } { serial := 9 }) finding) (fun t => (t.fab.disc.seen, t.fab.disc.addr)) = some ([0, 77, 9], 4)
    ∧ get (exec (.discAssign 7 3 { probe 1 with kind := 0x0C } [6, 0, 0, 0]) on) (fun t => t.ownAddr) = some 6 := by decide +kernel

/-- The check value of CRC-32C that its catalogue entry gives; Tables 11-2 and 11-4 by hand; R331. -/
theorem test_wire : crc32c [0x31, 0x32, 0x33, 0x34, 0x35, 0x36, 0x37, 0x38, 0x39] = 0xE3069283
    ∧ ({ vl := 3, ar := true, som := true, dst := 0x10005, src := 0x401, hops := 31, len := 240 } : FlitHead).bits = 0x18F07C080300051B01
    ∧ (guyBytes true { seq := 5, copy := true, flags := 9 }).take 2 = [0xC2, 0x9D] := by decide +kernel
theorem test_wire_reads_back :
    let g : GuyCell := { seq := 5, copy := true, flags := 9, epoch := 0x12345678, tseal := 0x9ABCDEF0 }
    let t : TimeCell := { seq := 2, tick := 0x123456789ABCDEF0, frac := 77 }
    cellCommand 3 (guyBytes true g) = some (.guylineVerdict 3 g) ∧ cellCommand 4 (timeBytes 1 t) = some (.delayReq 4 t) := by decide +kernel
theorem test_receiver_resumes_at_first :
    let w : Codeword := ⟨List.replicate 16 0xFF ++ guyBytes false {} ++ List.replicate 608 0, 1, 0⟩
    let r := (({} : Rx).codeword none).codeword (some w)
    r.taken = [guyBytes false {}] ∧ r.bad = 1 := by decide +kernel

/-! ### Power, air and heat -/

/-- A module at tick 5,000 with registers and the power part as given. -/
def pw (l : List (Nat × W32)) (p : Pwr) : State := { regs l on with pwr := p, pitch := 5000 }
theorem witness_supply : (pw [] {}).alive = true ∧ (pw [] {}).up = true ∧ State.reset.up = false ∧ (pw [] { shed := true }).pwr.shed = true
    ∧ (pw [] { shed := true, warned := true }).tripped = false ∧ (pw [(Reg.pwrWarnCtrl, 0x100)] { warned := true, clearedAt := some 3976 }).pwr.warned = true
    ∧ 3976 + 1024 * (pw [(Reg.pwrWarnCtrl, 0x100)] {}).fld Reg.pwrWarnCtrl 8 16 ≤ (pw [] {}).pitch := by decide
theorem test_supply : get (exec (.psuWarnAssert 50) (pw [] {})) (fun t => (t.pwrMode, t.pwr.divider, t.reg Reg.pwrSheds)) = some (1, true, 1)
    ∧ get (exec .vinLow (pw [] {})) (fun t => (t.pwrMode, t.pwr.shedInput)) = some (1, true)
    ∧ ((pw [] { shed := true }).shareCap 600).pwr.issueLimit = false
    ∧ get (exec (.psuWarnClear false) (pw [] { warned := true, warnPin := true })) (fun t => t.pwr.clearedAt) = some (some 5000)
    ∧ get (exec .warnHoldExpiry (pw [(Reg.pwrWarnCtrl, 0x100)] { warned := true, clearedAt := some 3976 })) (fun t => t.pwrMode) = some 0 := by decide +kernel
theorem witness_power_loss : (pw [] {}).pwr.off = false ∧ (pw [] { off := true }).pwr.off = true := by decide
theorem test_power_loss : get (exec .vinCutoff { on with hbm := [(5, 1)], boot := { on.boot with fuseSvn := 3 } }) (fun t => (t.alive, t.hbm, t.boot.fuseSvn))
      = some (false, [], 3)
    ∧ get (exec .powerReturn (pw [(Reg.pwrCap, 700)] { off := true })) (fun t => (t.boot.stage, t.rst.cause, t.reg Reg.pwrCap)) = some (.rom, 4, resetWord Reg.pwrCap) := by
  decide +kernel
theorem test_shares : waterFill 10 [4, 9, 2] = [4, 4, 2] ∧ waterFill 20 [4, 9, 2] = [4, 9, 2] := by decide
theorem witness_caps : (pw [] {}).pwrMode = 0 ∧ (pw [] { excFrom := some 0 }).pwr.excFrom = some 0
    ∧ 0 + 1000000 ≤ ({ pw [] { excFrom := some 0 } with pitch := 1000000 } : State).pitch := by decide
theorem test_caps : (pw [(Reg.pwrCap, 900)] { hsValid := true }).capEff.1 = 900 ∧ (pw [(Reg.pwrCap, 5)] { hsValid := true }).capEff.1 = 600
    ∧ ({ pw [] { excFrom := some 0 } with pitch := 1000000 } : State).excursionOver = true
    ∧ ({ pw [] { excFrom := some 0 } with pitch := 1000000 } : State).endExcursion.pwr.excNotBefore = 2000000 := by
  decide +kernel
/-- A module with the heatsink curve of the worked examples. -/
def heat (l : List (Nat × W32)) : State :=
  pw ([(Reg.thmAir, 0x3840000), (Reg.thmTjTarget, 95)] ++ l) { hsValid := true, curve := [(800, 360), (1000, 300), (1200, 260)] }
/-- A heatsink memory whose bytes add up to 0 modulo 256. -/
def hsMemory : List Byte := [1, 0] ++ List.replicate 61 0 ++ [255]
theorem witness_air : (heat []).up = true ∧ (heat []).pwr.hsValid = true ∧ (heat []).pwr.curve = [(800, 360), (1000, 300), (1200, 260)]
    ∧ (heat []).fld Reg.thmAir 16 16 = 900 ∧ (heat []).fld Reg.thmTjTarget 0 8 = 95 ∧ (299 : Nat) < 300
    ∧ ((heat [(Reg.thmSlope, 10)]).fld Reg.thmSlope 0 16 : Int) < 11 ∧ slopeExcess 2 [12800, 12700] 11 = some 9765614
        ∧ (heat [(Reg.pwrCtrl, 4)]).fld Reg.pwrCtrl 2 1 = 1 ∧ (heat [(Reg.thmCtrl, 1)]).fld Reg.thmCtrl 0 1 = 1
    ∧ (heat []).pwr.airStop = false ∧ (heat [(Reg.thmCtrl, 0)]).fld Reg.thmCtrl 0 1 = 0 ∧ cableOk hsMemory = true ∧ cableOk [1, 0] = false := by
  decide +kernel
/-- A module with a window of two samples, of which it has kept one; AIR_STOP is not enabled. -/
def warming2 : State :=
  let s := heat [(Reg.thmSlope, 10), (Reg.thmSlopeWin, 2), (Reg.thmCtrl, 0)]
  { s with pwr := { s.pwr with temps := [12700] } }
theorem test_air : get (exec (.airflowEstimate 1900 7680 11520) (heat [])) (fun t => (t.fld Reg.thmAir 0 16, t.pwr.airCap)) = some (1056, some 2250)
    ∧ get (exec (.junctionSample [12800] 11) warming2) (fun t => (t.pwr.temps, t.pwr.hotSlope, t.reg (Reg.thmTj 0))) = some ([12800, 12700], true, 12800)
    ∧ get (exec (.reread hsMemory) (pw [] {})) (fun t => t.pwr.hsValid) = some true := by decide +kernel
/-- A module that a comparator of die 3 has tripped, with the hottest junction as given. -/
def tripped (tj : W32) : State := { pw [(Reg.thmTjMax, tj)] { trip := 8 } with cells := [(0, sc)] }
theorem witness_trip : (pw [] {}).tripped = false ∧ (tripped 0).tripped = true ∧ (tripped 0).up = true ∧ (∀ k ∈ (tripped 0).cells, k.1 < 512)
    ∧ (((tripped 23041).reg Reg.thmTjMax).extractLsb' 0 16).toInt > 23040 ∧ (((tripped 23040).reg Reg.thmTjMax).extractLsb' 0 16).toInt ≤ 23040 := by decide
theorem test_trip : get (exec (.analogTrip 3) { pw [] {} with cells := [(0, sc)] }) (fun t => (t.pwr.trip, t.pwrMode, (t.cell 0).run)) = some (8, 3, .halted)
    ∧ get (exec .tripClear (tripped 23040)) (fun t => (t.pwr.trip, t.pwrMode)) = some (0, 2) := by decide +kernel
theorem test_pmbus : get (exec .capability on) (fun t => t.out) = some [.reply [0xA0, on.readPec 0x19 [0xA0]]] ∧ get (exec .pmbusRevision on) (fun t => t.out) = some [.reply [0x33, on.readPec 0x98 [0x33]]]
    ∧ get (exec .statusByte (pw [] { cml := true })) (fun t => t.out) = some [.reply [2, on.readPec 0x78 [2]]]
    ∧ get (exec .budgetRead (pw [] { budget := 0x384 })) (fun t => t.out) = some [.reply [0x84, 3, on.readPec 0xD0 [0x84, 3]]] := by decide +kernel
theorem test_pmbus_writes : get (exec (.budgetWrite 900 none) on) (fun t => (t.pwr.budget, t.reg Reg.pwrBudget)) = some (900, 0x80000384)
    ∧ get (exec (.budgetWrite 5 none) on) (fun t => (t.reg Reg.pwrBudget, t.reg Reg.bootClamps)) = some (0x80000258, 1)
    ∧ get (exec (.pmbusUnsupported 1) on) (fun t => t.pwr.cml) = some true ∧ (1 : Nat) ∉ [0x19, 0x78, 0x88, 0x89, 0x97, 0x98, 0xD0, 0xD1] := by decide +kernel

/-! ### The host link and its queues -/

/-- A module at tick 5,000 whose queue 5 has 16 slots, and is as given, its link being up. -/
def hq (l : List (Nat × W32)) (q : Queue) : State :=
  { regs ([(Reg.hqQctrl 5, 0x141), (Reg.hqQcbaseLo 5, 0x800), (Reg.msixTable 23, 0), (Reg.poolCtrl, 1), (Reg.poolHdmCtrl, 0)] ++ l) on with
    pitch := 5000
    host := { on.host with queues := [(5, q)], width := 16, rate := 6, cxl := true, ide := [(2, { keys := true, active := true })] }
    pool := { dir := [(5, { loc := 3 })] }
    hbm := [(3 * pageBytes + 1, 7)] }
/-- A started descriptor of slot 3 with words 1 (its kind in the low byte) and 3 to 9. -/
def dsc (k : Nat) (ws : List Nat) (b s : Bool) : Started :=
  { slot := 3, words := ([0, k, 99] ++ ws).map (BitVec.ofNat 32), begun := b, sent := s }
/-- Queue 5 with one started descriptor. -/
def hqd (d : Started) : State := hq [] { mode := .running, started := [d] }

theorem witness_link : (hq [] {}).alive = true ∧ (hq [] {}).rst.busy = false ∧ (hq [] {}).boot.stage ≠ .rom ∧ (hq [] {}).host.cxl = true
    ∧ ideKey 2 false = some 2 ∧ ideKey 8 false = some 8 ∧ ideKey 0 true = some 256 ∧ ((hq [] {}).ide 2).active = true ∧ ((hq [] {}).ide 3).active = false
    ∧ ({ hq [] {} with rst := { busy := true } } : State).rst.busy = true := by decide
theorem test_link : get (exec .hotReset (hq [] {})) (fun t => (t.host.width, t.rst.busy, t.rst.cause)) = some (0, true, 2)
    ∧ get (exec (.linkLoss 999) (hq [] {})) (fun t => (t.host.width, t.rst.busy)) = some (16, false)
    ∧ get (exec (.linkLoss 1000) (hq [] {})) (fun t => (t.host.width, t.rst.cause)) = some (0, 3)
    ∧ get (exec (.hostLinkTrained 8 5 true) on) (fun t => (t.host.width, t.host.rate, t.host.cxl)) = some (8, 5, true)
    ∧ get (exec (.snoop 0) (hq [] {})) (fun t => t.out) = some [.linkResp 0] ∧ get (exec (.uioRequest 0) on) (fun t => t.out) = some [.linkResp 1]
    ∧ get (exec (.ideIntegrityFailure 2 false) (hq [] {})) (fun t => t.ide 2) = some { keys := true, insecure := true } := by decide +kernel
/-- A module whose stream of a key is insecure. -/
def insec (k : Nat) : State := { hq [] {} with host := { (hq [] {}).host with ide := [(k, { insecure := true })] } }
theorem witness_insecure : (insec 256).insecure 256 = true ∧ (insec 256).insecure 0 = false ∧ (insec 0).insecure 0 = true
    ∧ (hq [] {}).insecure 256 = false ∧ (hq [] {}).insecure 0 = false ∧ (insec 256).alive = true := by decide
theorem test_insecure : get (exec (.snoop 0) (insec 256)) (fun t => t.out) = some []
    ∧ get (exec (.uioRequest 0) (insec 0)) (fun t => (t.out, t.host.held)) = some ([], [.linkResp 1]) := by decide +kernel
/-- A module that has taken two images and has sessions 1, established, and 2. -/
def attest (n : Nat) : State :=
  { hq [] {} with boot := { on.boot with fw := some { payloadDigest := 5 }, uc := some { payloadDigest := 6 }, nextSession := 3, sessions := [(1, true), (2, false)].take n } }
theorem witness_doe : (attest 2).barOn = true ∧ (attest 2).boot.fw = some { payloadDigest := 5 } ∧ (attest 2).boot.uc = some { payloadDigest := 6 } := by decide
theorem test_doe : get (exec .getVersion (attest 2)) (fun t => t.out.length) = some 1 := rfl
theorem witness_sessions : (attest 2).up = true ∧ (attest 1).boot.sessions.length < 2 ∧ 2 ≤ (attest 2).boot.sessions.length ∧ (2, false) ∈ (attest 2).boot.sessions
    ∧ (1, true) ∈ (attest 2).boot.sessions ∧ (2, true) ∉ (attest 2).boot.sessions := by decide
theorem test_sessions : get (exec (.keyExchange 0) (attest 1)) (fun t => t.boot.sessions) = some [(1, true), (3, false)]
    ∧ get (exec (.finish 2 true) (attest 2)) (fun t => t.inSession 2) = some true ∧ get (exec (.finish 2 false) (attest 2)) (fun t => t.boot.sessions) = some [(1, true)]
    ∧ get (exec (.endSession 1) (attest 2)) (fun t => t.boot.sessions) = some [(2, false)] := by decide +kernel
theorem test_keys : get (exec (.keyProg 1 3 false) (attest 2)) (fun t => t.ide 3) = some { keys := true }
    ∧ get (exec (.kSetGo 1 2 false) (attest 2)) (fun t => (t.ide 2).active) = some true
    ∧ get (exec (.kSetStop 1 2 false) (attest 2)) (fun t => (t.ide 2).active) = some false
    ∧ get (exec (.kSetStop 2 2 false) (attest 2)) (fun t => (t.ide 2).active) = some true := by decide +kernel

/-- Queue 5 RUNNING with descriptors up to slot 7 to fetch. -/
def fetching (k : Queue) : State := hq [(Reg.hqQtail 5, 7)] { k with mode := .running }
theorem witness_queues : ((hq [] {}).queue 5).mode = .disabled ∧ ((hqd (dsc 0 [] false false)).queue 5).mode ≠ .disabled
    ∧ ((hqd (dsc 0 [] false false)).queue 5).started ≠ [] ∧ ((fetching {}).queue 5).started = [] ∧ (fetching {}).queueReady 5 = true
    ∧ (fetching {}).queueSize 5 = 16 ∧ arbiter 64 (fetching {}).pitch (fetching {}).queueReady = some 5
    ∧ wfield [0, 0x100] 1 8 1 = 1 ∧ wfield [0, 4] 1 8 1 = 0 ∧ wfield [0, 4] 1 0 8 ≤ 4 ∧ hqItems [0, 4] = [] := by decide +kernel
theorem test_queues : get (exec (.queueEnable 5) (hq [] {})) (fun t => (t.queue 5).mode) = some .running
    ∧ get (exec (.queueDisable 5) (fetching {})) (fun t => ((t.queue 5).mode, t.fld (Reg.hqQtail 5) 0 16)) = some (.disabled, 0)
    ∧ get (exec (.queueDisable 5) (hqd (dsc 0 [] false false))) (fun t => (t.queue 5).draining) = some true
    ∧ get (exec (.doorbell 5 99) (hq [] {})) (fun t => t.fld (Reg.hqQtail 5) 0 16) = some 15 := by decide +kernel
theorem test_fetches : get (exec (.hqFetchTimeout 5) (fetching {})) (fun t => ((t.queue 5).mode, (t.queue 5).fault)) = some (.stopped, 3)
    ∧ get (exec (.descriptorFetch 1 []) (fetching {})) (fun t => ((t.queue 5).mode, (t.queue 5).fault, t.reg Reg.hqHostErr)) = some (.stopped, 1, 1)
    ∧ get (exec (.descriptorFetch 0 [0, 4]) (fetching { head := 6 })) (fun t => ((t.queue 5).head, (t.queue 5).started.map (·.slot))) = some (7, [6])
    ∧ get (exec (.descriptorFetch 0 [0, 0x100]) (fetching { started := [dsc 4 [] true false] })) (fun t => ((t.queue 5).head, (t.queue 5).fenced)) = some (0, true) := by
  decide +kernel
theorem witness_completion : dsc 0 [] false false ∈ ((hqd (dsc 0 [] false false)).queue 5).started ∧ wfield (dsc 0x200 [] false false).ws 1 9 1 = 1
    ∧ (hqd (dsc 0x200 [] false false)).fld (Reg.hqQctrl 5) 8 1 = 1 ∧ ((hqd (dsc 0x200 [] false false)).reg (Reg.msixTable 23)).getLsbD 0 = false
    ∧ ((hqd (dsc 0 [] false false)).queue 5).draining = false
    ∧ ((hq [] { mode := .running, draining := true, started := [dsc 0 [] false false] }).queue 5).started = [dsc 0 [] false false] := by decide
theorem test_completion : ((hq [] { mode := .running, completed := 17, started := [dsc 0x200 [] false false] }).complete 5 (dsc 0x200 [] false false) 2 9).out
    = [.hostWrite 0x820 [5000, BitVec.ofNat 64 (99 + 2 ^ 32 * 3 + 2 ^ 48 * 2), 9, 0], .msix 5] := by decide +kernel
theorem witness_descriptors : (hqd (dsc 0 [] false false)).startedAt 5 3 0 = some (dsc 0 [] false false) ∧ (hqd (dsc 4 [5000] false false)).startedAt 5 3 4 = some (dsc 4 [5000] false false)
    ∧ (hqd (dsc 4 [5000] false false)).waitDue (dsc 4 [5000] false false) = true ∧ (hqd (dsc 4 [5001] false false)).waitDue (dsc 4 [5001] false false) = false
    ∧ (hqd (dsc 4 [5000] true false)).begunAt 5 3 4 = some (dsc 4 [5000] true false) ∧ (dsc 4 [] false false).begun = false
    ∧ (hqd (dsc 2 [0] false false)).startedAt 5 3 2 = some (dsc 2 [0] false false) ∧ (open0 (hqd (dsc 2 [0] false false))).stepping = true
    ∧ (hqd (dsc 2 [0] false false)).stepping = false ∧ (hqd (dsc 2 [0] false false)).epoch.toNat = nthWord (dsc 2 [0] false false).ws 3
    ∧ wfield (dsc 2 [0] false false).ws 6 0 1 = 0 ∧ (hqd (dsc 2 [9] false false)).epoch.toNat ≠ nthWord (dsc 2 [9] false false).ws 3
    ∧ 6000 = nthWord (dsc 2 [0, 6000] false false).ws 4 + 2 ^ 32 * nthWord (dsc 2 [0, 6000] false false).ws 5 := by decide +kernel
theorem test_descriptors : get (exec (.descNop 5 3) (hqd (dsc 0 [] false false))) (fun t => ((t.queue 5).started.length, t.out.length)) = some (0, 1)
    ∧ get (exec (.wait 5 3) (hqd (dsc 4 [5001] false false))) (fun t => (t.queue 5).started.map (·.begun)) = some [true]
    ∧ get (exec (.waitComplete 5 3) (hqd (dsc 4 [5000] true false))) (fun t => (t.queue 5).started) = some []
    ∧ get (exec (.step 5 3) (open0 (hqd (dsc 2 [0, 6000] false false)))) (fun t => (t.step.tseal, (t.queue 5).started.map (·.begun))) = some (some 6000, [true]) := by
  decide +kernel
/-- PROGRAM of two words from word 4 of cells 1 and 2, which starts them at word 4 at tick `t` where `b` is 1. -/
def prog (b t : Nat) : Started := dsc 1 [0, 0, 4 + 2 ^ 12 * 2, 1 + 2 ^ 9 * 2, b + 2 * 4, t] false false
theorem witness_program : (hqd (prog 1 5000)).startedAt 5 3 1 = some (prog 1 5000) ∧ (hqd (prog 1 5000)).progOverlaps (progCellList (prog 1 5000).ws) = false
    ∧ progCellList (prog 1 5000).ws = [1, 2] ∧ (∀ c ∈ [1, 2], ((hqd (prog 1 5000)).cell c).run ≠ .running)
    ∧ (∃ c ∈ [1, 2], (({ hqd (prog 1 5000) with cells := [(1, sc)] } : State).cell c).run = .running) ∧ (hqd (prog 1 5000)).progDue (prog 1 5000) = true
    ∧ (hqd (prog 1 5001)).progDue (prog 1 5001) = false ∧ (hqd { prog 1 5000 with begun := true }).begunAt 5 3 1 = some { prog 1 5000 with begun := true } := by
  decide +kernel
theorem test_program : get (exec (.program 5 3 [8, 9]) (hqd (prog 1 5000))) (fun t => ((t.cell 2).imem, (t.cell 2).pc, (t.cell 2).run)) = some ([(4, 8), (5, 9)], 4, .running)
    ∧ get (exec (.program 5 3 [8, 9]) (hqd (prog 0 0))) (fun t => ((t.cell 1).imem, (t.cell 1).run, (t.queue 5).started)) = some ([(4, 8), (5, 9)], .halted, [])
    ∧ get (exec (.programStart 5 3) (hqd { prog 1 5000 with begun := true })) (fun t => ((t.cell 1).run, (t.queue 5).started)) = some (.running, []) := by decide +kernel
/-- COPY of 64 bytes between host address 0x1000 and page 5; to the host where `dir` is 1. -/
def cp (dir : Nat) (b s : Bool) : Started := dsc 3 [0x1000, 0, 0xA00000, 0, 1 + 2 ^ 31 * dir] b s
theorem witness_copy_descriptor : (hqd (cp 0 false false)).startedAt 5 3 3 = some (cp 0 false false) ∧ copyPoolOk (cp 0 false false).ws = true
    ∧ copyPoolOk (dsc 3 [0, 0, 1] false false).ws = false ∧ (∀ p ∈ copyPages (cp 0 false false).ws, (hqd (cp 0 false false)).pageOk p = true ∧ (hqd (cp 0 false false)).pageFar p = false)
    ∧ (∃ p l, copyPages (cp 0 false false).ws = p :: l ∧ on.pageOk p = false) ∧ (hqd (cp 1 true true)).begunAt 5 3 3 = some (cp 1 true true)
    ∧ (hqd (cp 0 true true)).begunAt 5 3 3 = some (cp 0 true true) ∧ (List.replicate 64 (1 : Byte)).length = 64 * wfield (cp 0 true true).ws 7 0 24 :=
  ⟨by decide, by decide, by decide, by decide +kernel, ⟨5, [], by decide +kernel, by decide⟩, by decide, by decide, by decide⟩
theorem witness_copy_near : (let v := (hqd (cp 0 false false)).putStarted 5 (cp 0 false false) (cp 0 true false)
      v.farNeed (.cmd (.copy 5 3)) (copyPages (cp 0 false false).ws) = [])
    ∧ (hqd (cp 0 true true)).farNeed (.cmd (.copyComplete 5 3 0 (List.replicate 64 1))) (copyPages (cp 0 true true).ws) = [] := by
  decide +kernel
theorem test_copy_descriptor : get (exec (.copy 5 3) (hqd (cp 0 false false))) (fun t => t.out) = some [.hostRead 0x1000 64]
    ∧ get (exec (.copy 5 3) (hqd (cp 1 false false))) (fun t => t.out) = some [.hostData 0x1000 ([0, 7] ++ List.replicate 62 0)]
    ∧ get (exec (.copyComplete 5 3 0 (List.replicate 64 1)) (hqd (cp 0 true true))) (fun t => (memByte t.hbm (3 * pageBytes + 63), memByte t.hbm (3 * pageBytes + 64))) = some (1, 0)
    ∧ get (exec (.copyComplete 5 3 1 []) (hqd (cp 0 true true))) (fun t => (t.reg Reg.hqHostErr, (t.queue 5).started)) = some (1, []) := by decide +kernel
/-- A module with records held, lost and signalled as given, in both rings, which are of 16 slots at 0x4000. -/
def rings (c : W32) (g : Ring) : State :=
  { hq [(Reg.evtCtrl, c), (Reg.bootCringCtrl, c), (Reg.evtBaseLo, 0x4000), (Reg.bootCringBaseLo, 0x4000), (Reg.msixTable 259, 0), (Reg.msixTable 263, 0)] {} with
    host := { on.host with evt := g, clamp := g } }
theorem witness_rings : (rings 0x40 {}).ringOn evtRing = false ∧ (rings 0x40 {}).ringOn clampRing = false ∧ (rings 0x41 {}).ringOn evtRing = true ∧ (rings 0x41 {}).ringOn clampRing = true
    ∧ (rings 0x40 {}).host.evt.held.length < evtRing.hold ∧ evtRing.hold ≤ (rings 0x40 { held := List.replicate 256 {} }).host.evt.held.length
    ∧ clampRing.hold ≤ (rings 0x40 { held := List.replicate 64 {} }).host.clamp.held.length ∧ (rings 0x41 {}).ringFull evtRing = false
    ∧ ((rings 0x41 {}).setReg Reg.evtTail 15).ringFull evtRing = true ∧ (rings 0x40 {}).barOn = true
    ∧ (rings 0x241 { firstTick := some 100 }).irqDue evtRing ((rings 0x241 {}).fld Reg.evtIrqDelay 0 16) = true
    ∧ (rings 0x241 { firstTick := some 4900 }).irqDue clampRing 100 = true ∧ ((rings 0x241 {}).reg (Reg.msixTable 259)).getLsbD 0 = false
    ∧ (rings 0x10241 {}).fld evtRing.ctrl 9 1 = 1 ∧ (rings 0x10241 {}).fld evtRing.ctrl 16 8 ≤ 1 ∧ (rings 0x41 {}).insecure 0 = false
    ∧ ((regs [(Reg.msixTable 263, 1)] on).reg (Reg.msixTable 263)).getLsbD 0 = true := by decide +kernel
theorem test_rings : ((rings 0x41 {}).ringPut evtRing { q0 := 1, q1 := 2 }).2.out = [.hostWrite 0x4000 [1, 2, 0, 0x8000000000000000]]
    ∧ ((rings 0x40 {}).ringPut clampRing { q0 := 1 }).2.host.clamp.held = [{ q0 := 1 }]
    ∧ get (exec .eventRingEnable (rings 0x40 { held := [{ q0 := 3 }] })) (fun t => (t.out.length, t.host.evt.held)) = some (1, [])
    ∧ get (exec .clampRingEnable (rings 0x40 { held := [{ q0 := 3 }] })) (fun t => t.out.length) = some 1
    ∧ get (exec .eventIrqDelay (rings 0x241 { firstTick := some 100 })) (fun t => t.out) = some [.msix 64]
    ∧ get (exec .clampIrqDelay (rings 0x241 { firstTick := some 4900 })) (fun t => t.out) = some [.msix 65] := by decide +kernel

/-! ### Boot, pairing, resets, registers -/

/-- Firmware that passes every check, and the microcode it lists as tested. -/
def fwImg : Image :=
  { magic := 0x54444C48, type := 1, hdrver := 1, version := 0x03040000, svn := 2, hwMax := 5, plMin := 5, plMax := 7,
    tested := [0x02030000], sigOk := true, hashOk := true, payloadLen := 16777216 }
/-- Microcode that passes every check. -/
def ucImg : Image :=
  { magic := 0x54444C48, type := 2, hdrver := 1, version := 0x02030000, svn := 1, hwMax := 4, plMin := 4, plMax := 6,
    sigOk := true, hashOk := true, payloadLen := 4194304 }
/-- A module before its ROM has run, with four flash slots. -/
def flash (l : List (Option Image)) : State := { State.reset with boot := { State.reset.boot with slots := l } }
/-- A module in a stage, its two images taken. -/
def booted (st : Stage) : State :=
  { flash [some fwImg, none, some ucImg, none] with boot := { (flash [some fwImg, none, some ucImg, none]).boot with stage := st, fw := some fwImg, uc := some ucImg } }
theorem witness_boot : (flash [none, none, none, none]).alive = true ∧ (flash []).boot.stage = .rom ∧ (flash []).boot.starting = false
    ∧ (flash [none, none, none, none]).imageFault false ((flash [none, none, none, none]).boot.slot 0 0) ≠ 0
    ∧ (flash [none, none, none, none]).imageFault false ((flash [none, none, none, none]).boot.slot 0 1) ≠ 0
    ∧ (flash [some fwImg, none, none, none]).imageFault false ((flash [some fwImg, none, none, none]).boot.slot 0 0) = 0
    ∧ (flash [none, some fwImg, some ucImg, none]).boot.slot 0 1 = some fwImg ∧ (flash [none, some fwImg, some ucImg, none]).imageFault true (some ucImg) = 0
    ∧ (flash [none, some fwImg, some ucImg, none]).boot.selFw = 0 ∧ evalPair 0 false fwImg ucImg = ⟨0, 6, false⟩ := by decide
theorem test_boot : get (exec (.coldBoot 0 [] []) (flash [none, none, none, none])) (fun t => (t.boot.stage, t.boot.reason)) = some (.recovery, 4)
    ∧ get (exec (.coldBoot 5 [] []) (flash [none, some fwImg, some ucImg, none])) (fun t => (t.boot.starting, t.boot.level, t.boot.fallback, t.boot.straps)) = some (true, 6, true, 5)
    ∧ get (exec (.coldBoot 0 [] []) (flash [some fwImg, none, some { ucImg with plMin := 8, plMax := 8 }, none])) (fun t => (t.boot.stage, t.boot.reason)) = some (.held, 2)
    ∧ get (exec .firmwareStart { booted .rom with boot := { (booted .rom).boot with starting := true } }) (fun t => (t.boot.stage, t.boot.starting)) = some (.running, false) := by
  decide +kernel
theorem witness_pairs : fwImg.version = 0x03040000 ∧ (booted .held).barOn = true ∧ (booted .held).boot.load = none ∧ (booted .held).boot.fw = some fwImg
    ∧ (booted .held).boot.uc = some ucImg ∧ (booted .running).boot.stage ≠ .held := by decide
/-- The images of the worked example of R475. -/
def exampleFw : Image := { fwImg with hwMin := 3, tested := [0x02010000, 0x02020000] }
theorem test_pairs : evalPair 4 false exampleFw { ucImg with hwMin := 4, tested := [0x03020000, 0x03030000] } = ⟨1, 0, false⟩
    ∧ evalPair 4 true exampleFw { ucImg with hwMin := 4 } = ⟨0, 6, true⟩ ∧ evalPair 5 true exampleFw ucImg = ⟨3, 0, false⟩
    ∧ get (exec .pair (booted .held)) (fun t => (t.boot.result, t.boot.starting)) = some (0, true)
    ∧ get (exec .pair (booted .running)) (fun t => t.boot.result) = some 8 := by decide +kernel
/-- A load of an image under way. -/
def loading (uc : Bool) : State := { booted .running with boot := { (booted .running).boot with load := some ⟨uc⟩ } }
theorem witness_image_loads : (booted .recovery).barOn = true ∧ (loading true).boot.load = some ⟨true⟩ ∧ (loading true).boot.resetAfterLoad = false
    ∧ (loading false).imageFault false (some fwImg) = 0 ∧ (loading false).imageFault false (some { fwImg with sigOk := false }) = 3
    ∧ (booted .running).boot.loadedFw = none ∧ ({ (booted .running).boot with loadedUc := some 1 } : Boot).loadedUc = some 1 := by decide
theorem test_image_checks : State.reset.imageFault false (some { fwImg with type := 2 }) = 2 ∧ State.reset.imageFault false (some { fwImg with key := 4 }) = 4
    ∧ State.reset.imageFault false (some { fwImg with payloadLen := 16777217 }) = 2 ∧ State.reset.imageFault true (some { ucImg with hashOk := false }) = 6
    ∧ ({ State.reset with boot := { State.reset.boot with fuseSvn := 2 } } : State).imageFault true (some ucImg) = 5 := by decide
theorem test_image_loads : get (exec .loadFw (regs [(Reg.bootLoadLen, 640)] (booted .recovery))) (fun t => (t.boot.load, t.out)) = some (some ⟨false⟩, [.hostRead 0 640])
    ∧ get (exec .loadUc (booted .running)) (fun t => t.boot.load) = some (some ⟨true⟩)
    ∧ get (exec (.loadComplete (some { ucImg with version := 9 }) true) (loading true)) (fun t => (t.boot.result, t.boot.loadedUc, (t.boot.slot 1 1).map (·.version), (t.boot.slot 1 0).map (·.version)))
      = some (0, some 1, some 9, some 0x02030000)
    ∧ get (exec (.loadComplete (some fwImg) false) (loading false)) (fun t => (t.boot.result, t.boot.slot 0 1)) = some (9, none)
    ∧ get (exec .activateUc { booted .running with boot := { (booted .running).boot with loadedUc := some 1 } }) (fun t => (t.boot.selUc, t.boot.result)) = some (1, 0)
    ∧ get (exec .activateFw (booted .running)) (fun t => t.boot.result) = some 7 := by decide +kernel
theorem test_fuses : get (exec (.commitSvn true) (booted .running)) (fun t => t.boot.fuseSvn) = some 1
    ∧ get (exec (.commitSvn true) (booted .held)) (fun t => (t.boot.fuseSvn, t.boot.result)) = some (0, 8)
    ∧ get (exec (.persistPolicy true) (regs [(Reg.bootFwpolicy, 1)] (booted .held))) (fun t => t.boot.policy) = some true
    ∧ get (exec .coldReset { booted .running with pitch := 9 }) (fun t => (t.boot.stage, t.rst.cause, t.pitch, t.boot.slot 0 0)) = some (.rom, 5, 0, some fwImg)
    ∧ get (exec .coldReset (loading true)) (fun t => t.boot.resetAfterLoad) = some true := by decide +kernel
theorem witness_fuses : (booted .running).barOn = true ∧ (booted .running).boot.load = none ∧ (loading true).boot.load ≠ none ∧ (booted .held).boot.stage ≠ .running
    ∧ (booted .recovery).boot.stage = .recovery := by decide
/-- A module in the middle of a warm reset. -/
def warming : State := { booted .held with rst := { cause := 1, busy := true } }
theorem witness_warm_reset : (booted .running).barOn = true ∧ (booted .held).barOn = true ∧ warming.rst.busy = true ∧ warming.alive = true := by decide
theorem test_warm_reset : get (exec .warmReset (regs [(Reg.fabAddr, 0x80000009), (Reg.fabCtrl, 1)] { booted .running with pitch := 9, spad := [(1, 1)], hbm := [(2, 1)] }))
      (fun t => (t.pitch, t.spad, t.hbm, t.rst.busy)) = some (9, [], [(2, 1)], true)
    ∧ get (exec .warmReset warming) (fun t => t.rst.cause) = some 1
    ∧ get (exec .warmResetComplete warming) (fun t => (t.rst.busy, t.host.evt.held.map (·.q1))) = some (false, [BitVec.ofNat 64 (0x7FFF0720 + 2 ^ 32)]) := by
  decide +kernel
theorem witness_pins : on.pwr.off = false ∧ on.pwr.rstLow = false ∧ on.pwr.clockLost = false ∧ (pw [] { rstLow := true }).pwr.rstLow = true := by decide
theorem test_pins : get (exec (.rstNAssert 100000) on) (fun t => (t.alive, t.rst.cause)) = some (false, 6) ∧ get (exec (.rstNAssert 999) on) (fun t => t.alive) = some true
    ∧ get (exec .rstNRelease (pw [] { rstLow := true })) (fun t => t.alive) = some true ∧ get (exec .refclkLoss on) (fun t => t.alive) = some false := by decide +kernel
theorem witness_registers : (0x64 : Nat) % 2 ^ 24 = 100 ∧ (99 : Nat) % 2 ^ 24 < 100 ∧ fieldsAt 0x8 = [] ∧ (2 : Nat) % 4 ≠ 0 ∧ hiLatch Reg.fabAddr = none ∧ on.insecure 0 = false
    ∧ (∃ f ∈ fieldsAt Reg.fabTxnTimeout, f.own = false ∧ on.fieldFixed Reg.fabTxnTimeout f = false ∧ f.acc = .rw ∧ f.count = false
        ∧ on.fieldClamp Reg.fabTxnTimeout f 100 = 100 ∧ on.fieldClamp Reg.fabTxnTimeout f 99 ≠ 99) := by decide +kernel
theorem test_registers : get (exec (.registerWrite Reg.fabTxnTimeout 4 99) on) (fun t => (t.txnTimeout, t.reg Reg.bootClamps)) = some (100, 1)
    ∧ get (exec (.registerWrite Reg.poolUe 4 7) on) (fun t => t.reg Reg.poolUe) = some 7
    ∧ get (exec (.loReadLatch Reg.fabAddr 4) (regs [(Reg.fabAddr, 9)] on)) (fun t => t.out) = some [.regRead Reg.fabAddr 9]
    ∧ get (exec (.loReadLatch (Reg.fabAddr + 1) 1) (regs [(Reg.fabAddr, 0x900)] on)) (fun t => t.out) = some [.regRead (Reg.fabAddr + 1) 9] := by decide +kernel
theorem test_counters : get (exec (.freeze true) (regs [(Reg.poolUe, 7)] on)) (fun t => t.frozen.isSome) = some true
    ∧ get (exec .clearAll (regs [(Reg.poolUe, 7)] on)) (fun t => t.reg Reg.poolUe) = some 0 := by decide +kernel

/-! ### The machine as a whole -/

theorem witness_step : ({ on with pending := [.exchangeMissing] } : State).pending = [.exchangeMissing] ∧ on.pending = [] ∧ (pw [] { off := true }).alive = false := by decide
theorem test_step : get (step { open0 on with pending := [.stepCmdAbort, .clearAll] }) (fun t => (t.step.flags, t.pending)) = some (8, [.clearAll])
    ∧ get (step on) (fun t => t.pitch) = some 1 := by decide +kernel
theorem witness_boot_safe : (booted .running).imageFault false (booted .running).boot.fw = 0 ∧ imageOnHw fwImg 0 = true ∧ pairTested fwImg ucImg = true
    ∧ min fwImg.plMax ucImg.plMax = 6 ∧ max fwImg.plMin ucImg.plMin ≤ 6 := by decide
/-- A state that runs and is boot safe. -/
def safeOn : State := { booted .running with boot := { (booted .running).boot with level := 6 } }
theorem witness_safe_step : safeOn.bootSafe ∧ step safeOn = .next safeOn.tick :=
  ⟨⟨fun _ => ⟨by decide, by decide⟩, fun _ => ⟨fwImg, ucImg, rfl, rfl, by decide, by decide, by decide, by decide, .inl (by decide)⟩⟩, rfl⟩
theorem witness_other_commands : bootCommand .clearAll = false ∧ ∃ t, exec .clearAll on = .next t := ⟨rfl, _, rfl⟩
theorem witness_memory : Memory.wf [(3, 1), (9, 2)] = true ∧ Memory.wf [(9, 2), (3, 1)] = false ∧ Memory.wf [(3, 0)] = false
    ∧ memWrite [(3, 1), (9, 2)] 9 [0, 4] = [(3, 1), (10, 4)] := by decide
theorem witness_units : (Instr.run 511).wf = true ∧ (Instr.run 512).wf = false := by decide

end Sys2Proof.Tests
end

section
/-! PROOF. Memories in canonical form: what a sparse table in canonical form holds fixes the table. -/

namespace Sys2Proof.Machine

variable {V : Type}

@[simp] theorem tabGet_head (d : Nat → V) (i : Nat) (u : V) (m : List (Nat × V)) : tabGet d ((i, u) :: m) i = u := if_pos rfl

/-- A sparse table whose keys rise above a bound holds the default at and below it. -/
theorem tabGet_of_le_bound (d : Nat → V) {b k : Nat} (hk : k ≤ b) :
    ∀ m : List (Nat × V), tabSorted (some b) m = true → tabGet d m k = d k
  | [], _ => rfl
  | (j, v) :: m, h => by
    simp only [tabSorted, Bool.and_eq_true, decide_eq_true_eq] at h
    rw [tabGet, if_neg (by omega)]
    exact tabGet_of_le_bound d (by omega) m h.2

/-- What a table in canonical form with an entry at its head comes to: the entry is no default, and the tail is in
canonical form and holds the defaults up to the head's key. -/
theorem tabWf_cons [DecidableEq V] {d : Nat → V} {j : Nat} {v : V} {m : List (Nat × V)} (h : tabWf d ((j, v) :: m) = true) :
    v ≠ d j ∧ tabWf d m = true ∧ ∀ k ≤ j, tabGet d m k = d k := by
  simp only [tabWf, tabSorted, List.all_cons, Bool.and_eq_true, decide_eq_true_eq] at h
  obtain ⟨hs, hv, hm⟩ := h
  refine ⟨hv, ?_, fun k hk => tabGet_of_le_bound d hk m hs⟩
  rw [tabWf, hm, Bool.and_true]
  cases m with
  | nil => rfl
  | cons q m => exact (Bool.and_eq_true_iff.mp hs).2

/-- A table in canonical form that reads as another with an entry at its head lists no lower key. -/
theorem tabWf_head_le [DecidableEq V] {d : Nat → V} {i j : Nat} {u v : V} {m n : List (Nat × V)}
    (hm : tabWf d ((i, u) :: m) = true) (hn : tabWf d ((j, v) :: n) = true)
    (h : ∀ k, tabGet d ((i, u) :: m) k = tabGet d ((j, v) :: n) k) : j ≤ i := by
  obtain ⟨hu, -, -⟩ := tabWf_cons hm
  obtain ⟨-, -, hlow⟩ := tabWf_cons hn
  by_contra hij
  have hi := h i
  rw [tabGet_head, tabGet, if_neg (by omega), hlow i (by omega)] at hi
  exact hu hi

/-- Tables in canonical form that read alike at every key are the same list. -/
theorem tabWf_ext [DecidableEq V] {d : Nat → V} : ∀ m n : List (Nat × V), tabWf d m = true → tabWf d n = true →
    (∀ k, tabGet d m k = tabGet d n k) → m = n
  | [], [], _, _, _ => rfl
  | [], (j, v) :: n, _, hn, h =>
    absurd (tabGet_head d j v n ▸ h j).symm (tabWf_cons hn).1
  | (i, u) :: m, [], hm, _, h =>
    absurd (tabGet_head d i u m ▸ h i) (tabWf_cons hm).1
  | (i, u) :: m, (j, v) :: n, hm, hn, h => by
    obtain rfl : i = j := Nat.le_antisymm (tabWf_head_le hn hm fun k => (h k).symm) (tabWf_head_le hm hn h)
    obtain ⟨-, hm', hmlow⟩ := tabWf_cons hm
    obtain ⟨-, hn', hnlow⟩ := tabWf_cons hn
    have huv : u = v := by simpa [tabGet] using h i
    have htail : ∀ k, tabGet d m k = tabGet d n k := by
      intro k
      by_cases hk : k = i
      · rw [hmlow k (by omega), hnlow k (by omega)]
      · simpa [tabGet, hk] using h k
    rw [huv, tabWf_ext m n hm' hn' htail]

/-- Settles O59: a write keeps the form byte by byte, and the form is fixed by what the memory reads. -/
theorem memoryIsCanonical : Obligations.MemoryIsCanonical :=
  fun m n hm => ⟨fun a bs => memWrite_wf a bs hm, fun hn h => tabWf_ext m n hm hn h⟩

end Sys2Proof.Machine
end

section
/-! PROOF. The header of a message as words and as bytes (R3, R339, Table 11-5). -/

namespace Sys2Proof.Machine

/-- Every word of a header is a word of 32 bits. -/
theorem hdrWords_lt (h : Hdr) : ∀ w ∈ hdrWords h, w < 2 ^ 32 := by
  obtain ⟨kind, fmt, blk, mittens, scaleLoc, dim0, dim1, layer, mb, flags, epoch, deadline, src, srcUnit, tag, resp, chan,
    len, arg, dst, dstUnit⟩ := h
  have hresp : b2n resp ≤ 1 := by cases resp <;> decide
  simp only [hdrWords, field, List.forall_mem_cons, List.not_mem_nil, false_implies, implies_true, and_true]
  refine ⟨?_, ?_, ?_, ?_, ?_, ?_, ?_, ?_, ?_, ?_, ?_, ?_, ?_, ?_, ?_, ?_⟩ <;> omega

@[simp] theorem hdrWords_length (h : Hdr) : (hdrWords h).length = 16 := rfl

theorem field_eq_div (n hi lo : Nat) : field n hi lo = n / 2 ^ lo % 2 ^ (hi + 1 - lo) := by
  rw [field, Nat.shiftRight_eq_div_pow]

/-- The sixteen words of a header give back each of its fields. -/
theorem hdrOf_hdrWords (h : Hdr) : hdrOf (hdrWords h) = h := by
  obtain ⟨kind, fmt, blk, mittens, scaleLoc, dim0, dim1, layer, mb, flags, epoch, deadline, src, srcUnit, tag, resp, chan,
    len, arg, dst, dstUnit⟩ := h
  have hresp : (tag.toNat + 2 ^ 15 * b2n resp + 2 ^ 16 * chan.toNat).testBit 15 = resp := by
    rw [Nat.testBit_eq_decide_div_mod_eq]
    cases resp <;> simp [b2n] <;> omega
  have hresp1 : b2n resp ≤ 1 := by cases resp <;> decide
  simp only [hdrOf, hdrWords, nthWord, List.getD_cons_zero, List.getD_cons_succ, field_eq_div, hresp, Hdr.mk.injEq,
    true_and, ← BitVec.toNat_inj, BitVec.toNat_ofNat]
  refine ⟨?_, ?_, ?_, ?_, ?_, ?_, ?_, ?_, ?_, ?_, ?_, ?_, ?_, ?_, ?_, ?_, ?_, ?_, ?_, ?_⟩ <;> omega

/-- Word `i` of a list written four bytes a word stands at byte `4 * i`. -/
theorem take_drop_flatMap_leBytes : ∀ (ws : List Nat) (i : Nat) (hi : i < ws.length),
    ((ws.flatMap (leBytes 4)).drop (4 * i)).take 4 = leBytes 4 ws[i]
  | w :: ws, 0, _ => by
    rw [List.flatMap_cons, Nat.mul_zero, List.drop_zero, List.take_left' (leBytes_length 4 w)]
    rfl
  | w :: ws, i + 1, hi => by
    have hlen : 4 * (i + 1) = (leBytes 4 w).length + 4 * i := by rw [leBytes_length]; omega
    rw [List.flatMap_cons, hlen, List.drop_length_add_append, List.getElem_cons_succ]
    exact take_drop_flatMap_leBytes ws i (Nat.lt_of_succ_lt_succ hi)

/-- The 64 bytes of a header give back its words. -/
theorem hdrBytes_words (h : Hdr) :
    (List.range 16).map (fun i => leNat (((hdrBytes h).drop (4 * i)).take 4)) = hdrWords h := by
  refine List.ext_getElem (by simp) fun i h1 h2 => ?_
  rw [List.getElem_map, List.getElem_range, hdrBytes, take_drop_flatMap_leBytes (hdrWords h) i h2, leNat_leBytes]
  exact Nat.mod_eq_of_lt (hdrWords_lt h _ (List.getElem_mem h2))

@[simp] theorem hdrBytes_length (h : Hdr) : (hdrBytes h).length = 64 := rfl

/-- Settles O58: the bytes give back the words, and the words give back the fields. -/
theorem headersReadBackAsWritten : Obligations.HeadersReadBackAsWritten :=
  fun h => ⟨hdrOf_hdrWords h, by rw [hdrFrom, hdrBytes_words, hdrOf_hdrWords], hdrBytes_length h⟩

end Sys2Proof.Machine
end

section
/-! PROOF. The registers that a report and a clamp record leave alone (R464, R489, R490). -/

namespace Sys2Proof.Machine

/-- The registers that records put into a ring may change: its tail, its lost count and the pending bits of its vector. -/
def RingRegs.written (r : RingRegs) : List Nat := [r.tail, r.lost, Reg.msixPending (r.vector / 32)]

theorem State.reg_setFld_of_ne (s : State) (o lo w v : Nat) {off : Nat} (h : off ≠ o) :
    (s.setFld o lo w v).reg off = s.reg off := by
  rw [State.reg_setFld, if_neg h]

theorem State.reg_bump_of_ne (s : State) (o : Nat) {off : Nat} (h : off ≠ o) : (s.bump o).reg off = s.reg off := by
  rw [State.reg_bump, if_neg h]

@[simp] theorem State.reg_setRing (s : State) (r : RingRegs) (v : Ring) (off : Nat) : (s.setRing r v).reg off = s.reg off := by
  unfold State.setRing; split <;> rfl

@[simp] theorem State.reg_toHost (s : State) (o : Output) (off : Nat) : (s.toHost o).reg off = s.reg off := by
  unfold State.toHost; split <;> rfl

theorem State.reg_msix (s : State) (v : Nat) {off : Nat} (h : off ≠ Reg.msixPending (v / 32)) :
    (s.msix v).reg off = s.reg off := by
  unfold State.msix
  split
  · exact s.reg_setFld_of_ne _ _ _ _ h
  · exact s.reg_toHost _ _

section
variable {r : RingRegs} {off : Nat} (h : off ∉ r.written)
include h

theorem RingRegs.ne_of_not_written : off ≠ r.tail ∧ off ≠ r.lost ∧ off ≠ Reg.msixPending (r.vector / 32) := by
  simpa [RingRegs.written] using h

theorem State.reg_ringWrite (s : State) (x : RingRec) : (s.ringWrite r x).reg off = s.reg off := by
  obtain ⟨htail, -, hpend⟩ := RingRegs.ne_of_not_written h
  unfold State.ringWrite
  dsimp only
  split
  · rw [State.reg_msix _ _ hpend, State.reg_setRing, State.reg_setFld_of_ne _ _ _ _ _ htail, State.reg_toHost]
  · rw [State.reg_setRing, State.reg_setFld_of_ne _ _ _ _ _ htail, State.reg_toHost]

theorem State.reg_ringLose (s : State) : (s.ringLose r).reg off = s.reg off := by
  obtain ⟨-, hlost, -⟩ := RingRegs.ne_of_not_written h
  rw [State.ringLose, State.reg_setRing, State.reg_bump_of_ne _ _ hlost]

theorem State.reg_ringHeld : ∀ (n : Nat) (s : State), (State.ringHeld r n s).reg off = s.reg off
  | 0, _ => rfl
  | n + 1, s => by
    unfold State.ringHeld
    dsimp only
    split
    · rfl
    · split
      · rfl
      · rw [State.reg_ringHeld n, State.reg_ringWrite h, State.reg_setRing]

theorem State.reg_ringDrain (s : State) : (s.ringDrain r).2.reg off = s.reg off := by
  unfold State.ringDrain
  dsimp only
  split
  · split
    · rw [State.reg_ringWrite h, State.reg_setRing, State.reg_ringHeld h]
    · exact State.reg_ringHeld h _ s
  · rfl

theorem State.reg_ringPut (s : State) (x : RingRec) : (s.ringPut r x).2.reg off = s.reg off := by
  unfold State.ringPut
  dsimp only
  split
  · split
    · rw [State.reg_ringLose h, State.reg_ringDrain h]
    · rw [State.reg_ringWrite h, State.reg_ringDrain h]
  · split
    · rw [State.reg_setRing]
    · exact State.reg_ringLose h s

end

theorem State.reg_report {off : Nat} (h : off ∉ evtRing.written) (s : State) (code unit data : Nat) :
    (s.report code unit data).reg off = s.reg off := State.reg_ringPut h s _

theorem State.reg_clampPut {off : Nat} (h : off ∉ clampRing.written) (he : off ∉ evtRing.written) (s : State) (x : RingRec) :
    (s.clampPut x).reg off = s.reg off := by
  unfold State.clampPut
  dsimp only
  split
  · rw [State.reg_report he, State.reg_ringPut h]
  · exact State.reg_ringPut h s x

/-- The record of a clamp changes the clamp count and the registers of the two rings only. -/
theorem State.reg_clampReg {off : Nat} (h : off ∉ Reg.bootClamps :: clampRing.written ++ evtRing.written)
    (s : State) (o bit written applied : Nat) : (s.clampReg o bit written applied).reg off = s.reg off := by
  simp only [List.cons_append, List.mem_cons, List.mem_append, not_or] at h
  obtain ⟨hcount, hclamp, hevt⟩ := h
  rw [State.clampReg, State.reg_clampPut hclamp hevt, State.countItem, if_neg Bool.false_ne_true,
    State.reg_bump_of_ne _ _ hcount]

/-- The record of a clamp counts it in BOOT_CLAMPS (R489). -/
theorem State.bootClamps_clampReg (s : State) (o bit written applied : Nat) :
    ((s.clampReg o bit written applied).reg Reg.bootClamps).toNat = min ((s.reg Reg.bootClamps).toNat + 1) 0xFFFFFFFF := by
  rw [State.clampReg, State.reg_clampPut (by decide) (by decide), State.countItem, if_neg Bool.false_ne_true,
    State.reg_bump, if_pos rfl, BitVec.toNat_ofNat, Nat.mod_eq_of_lt (by omega)]

end Sys2Proof.Machine
end

section
/-! PROOF. The gradient scale stays a power of two in its range (R275, Table 9-8). -/

namespace Sys2Proof.Machine

/-- The exponents of W32 patterns of powers of two fit in a register. -/
theorem powW32_lt {k : Nat} (h : k ≤ 62) : powW32 k < 2 ^ 31 := by
  rw [powW32]; omega

theorem toNat_ofNat_powW32 {k : Nat} (h : k ≤ 62) : (BitVec.ofNat 32 (powW32 k)).toNat = powW32 k := by
  rw [BitVec.toNat_ofNat]; exact Nat.mod_eq_of_lt (Nat.lt_trans (powW32_lt h) (by decide))

theorem holdTo_of_mem {lo hi v : Nat} (hlo : lo ≤ v) (hhi : v ≤ hi) : holdTo lo hi v = v := by
  rw [holdTo, if_neg (by omega), if_neg (by omega)]

theorem holdTo_of_lt {lo hi v : Nat} (h : v < lo) : holdTo lo hi v = lo := if_pos h

theorem holdTo_of_gt {lo hi v : Nat} (hle : lo ≤ hi) (h : hi < v) : holdTo lo hi v = hi := by
  rw [holdTo, if_neg (by omega), if_pos h]

theorem le_holdTo {lo hi v : Nat} (hle : lo ≤ hi) : lo ≤ holdTo lo hi v := by
  unfold holdTo; split_ifs <;> omega

theorem holdTo_le {lo hi v : Nat} (hle : lo ≤ hi) : holdTo lo hi v ≤ hi := by
  unfold holdTo; split_ifs <;> omega

/-- A power of two in the range goes to its own exponent. -/
theorem gscaleNear_powW32 {lo hi k : Nat} (hlo : lo ≤ k) (hhi : k ≤ hi) (h62 : hi ≤ 62) :
    gscaleNear lo hi (powW32 k) = k := by
  have hsign : ¬((powW32 k).testBit 31 = true ∨ powW32 k = 0) := by
    rw [Nat.testBit_lt_two_pow (powW32_lt (by omega)), powW32]
    simp
  have hexp : powW32 k / 2 ^ 22 % 2 ^ 9 = k + 255 := by rw [powW32]; omega
  have hfrac : powW32 k % 2 ^ 22 = 0 := by rw [powW32]; omega
  simp only [gscaleNear, hexp, hfrac]
  rw [if_neg hsign, if_neg (by omega), if_neg (by omega), if_pos (by decide), Nat.add_sub_cancel, holdTo_of_mem hlo hhi]

/-- Zero and negative values go to the least exponent. -/
theorem gscaleNear_of_nonpos {lo hi v : Nat} (h : v.testBit 31 = true ∨ v = 0) : gscaleNear lo hi v = lo := if_pos h

/-- Every value goes to an exponent of the range. -/
theorem gscaleNear_mem {lo hi : Nat} (h : lo ≤ hi) (v : Nat) : lo ≤ gscaleNear lo hi v ∧ gscaleNear lo hi v ≤ hi := by
  unfold gscaleNear
  dsimp only
  split_ifs
  · exact ⟨le_rfl, h⟩
  · exact ⟨h, le_rfl⟩
  · exact ⟨le_rfl, h⟩
  · exact ⟨le_rfl, h⟩
  · exact ⟨le_holdTo h, holdTo_le h⟩
  · exact ⟨le_holdTo h, holdTo_le h⟩

theorem exec_modGscaleWrite_eq (v : W32) (s : State) : exec (.modGscaleWrite v) s = execModGscaleWrite v s := by rfl

theorem exec_modGscaleCtrlWrite_eq (v : W32) (s : State) :
    exec (.modGscaleCtrlWrite v) s = execModGscaleCtrlWrite v s := by rfl

section
variable {s : State} (hup : s.up = true)
include hup

/-- A write of a power of two in the range stores it. -/
theorem exec_modGscaleWrite_powW32 {v : W32} {k : Nat} (hlo : s.fld Reg.modGscaleCtrl 16 6 ≤ k)
    (hhi : k ≤ s.fld Reg.modGscaleCtrl 24 6) (h62 : s.fld Reg.modGscaleCtrl 24 6 ≤ 62) (hv : v.toNat = powW32 k) :
    exec (.modGscaleWrite v) s = .next (s.setReg Reg.modGscale v) := by
  have hw : BitVec.ofNat 32 v.toNat = v := by simp
  rw [exec_modGscaleWrite_eq, execModGscaleWrite, hup, whenOk_true]
  rw [hv, gscaleNear_powW32 hlo hhi h62, if_pos rfl, ← hv, hw]

/-- A write of MOD_GSCALE leaves the power of two nearest to what is written. -/
theorem exec_modGscaleWrite_reg (v : W32) (h : s.fld Reg.modGscaleCtrl 16 6 ≤ s.fld Reg.modGscaleCtrl 24 6)
    (h62 : s.fld Reg.modGscaleCtrl 24 6 ≤ 62) :
    ∃ t, exec (.modGscaleWrite v) s = .next t ∧ (t.reg Reg.modGscale).toNat
      = powW32 (gscaleNear (s.fld Reg.modGscaleCtrl 16 6) (s.fld Reg.modGscaleCtrl 24 6) v.toNat) := by
  have hk := (gscaleNear_mem h v.toNat).2.trans h62
  rw [exec_modGscaleWrite_eq, execModGscaleWrite, hup, whenOk_true]
  refine ⟨_, rfl, ?_⟩
  dsimp only
  split
  · rw [State.reg_setReg, if_pos rfl, toNat_ofNat_powW32 hk]
  · rw [State.reg_clampReg (by decide), State.reg_setReg, if_pos rfl, toNat_ofNat_powW32 hk]

end

theorem State.ctrlClamp_self (s : State) (bit x : Nat) : s.ctrlClamp bit x x = s := if_pos rfl

/-- MOD_GSCALE_CTRL as a write of GROW, MIN_EXP and MAX_EXP leaves it. -/
def gscaleCtrlWord (grow lo hi : Nat) : W32 := BitVec.ofNat 32 (grow + 2 ^ 16 * lo + 2 ^ 24 * hi)

/-- A state after a write of a range in order to MOD_GSCALE_CTRL: the range is stored, and GSCALE is moved into it and the
move recorded as a clamp where it lay outside. -/
def State.gscaleRange (s : State) (grow lo hi : Nat) : State :=
  let s1 := s.setReg Reg.modGscaleCtrl (gscaleCtrlWord grow lo hi)
  let k := holdTo lo hi s.gscaleExp
  if k = s.gscaleExp then s1
  else (s1.setReg Reg.modGscale (BitVec.ofNat 32 (powW32 k))).clampReg Reg.modGscale 0 (s.reg Reg.modGscale).toNat (powW32 k)

theorem exec_modGscaleCtrlWrite {s : State} (hup : s.up = true) {v : W32} (hgrow : 0 < v.toNat % 2 ^ 16)
    (hle : v.toNat / 2 ^ 16 % 2 ^ 6 ≤ v.toNat / 2 ^ 24 % 2 ^ 6) (h62 : v.toNat / 2 ^ 24 % 2 ^ 6 ≤ 62) :
    exec (.modGscaleCtrlWrite v) s = .next
      (s.gscaleRange (v.toNat % 2 ^ 16) (v.toNat / 2 ^ 16 % 2 ^ 6) (v.toNat / 2 ^ 24 % 2 ^ 6)) := by
  rw [exec_modGscaleCtrlWrite_eq, execModGscaleCtrlWrite, hup, whenOk_true]
  simp only [Nat.max_eq_right (Nat.succ_le_of_lt hgrow), Nat.min_eq_left h62,
    Nat.min_eq_left hle, State.ctrlClamp_self]
  rfl

theorem State.gscaleRange_ctrl (s : State) (grow lo hi : Nat) :
    (s.gscaleRange grow lo hi).reg Reg.modGscaleCtrl = gscaleCtrlWord grow lo hi := by
  unfold State.gscaleRange
  dsimp only
  split
  · rw [State.reg_setReg, if_pos rfl]
  · rw [State.reg_clampReg (by decide), State.reg_setReg, if_neg (by decide), State.reg_setReg, if_pos rfl]

theorem State.gscaleRange_gscale_of_mem {s : State} {grow lo hi : Nat} (hlo : lo ≤ s.gscaleExp) (hhi : s.gscaleExp ≤ hi) :
    (s.gscaleRange grow lo hi).reg Reg.modGscale = s.reg Reg.modGscale := by
  unfold State.gscaleRange
  dsimp only
  rw [if_pos (holdTo_of_mem hlo hhi), State.reg_setReg, if_neg (by decide)]

theorem State.gscaleRange_gscale_of_moved {s : State} {grow lo hi k : Nat} (hk : holdTo lo hi s.gscaleExp = k)
    (hne : k ≠ s.gscaleExp) (h62 : k ≤ 62) : ((s.gscaleRange grow lo hi).reg Reg.modGscale).toNat = powW32 k := by
  unfold State.gscaleRange
  dsimp only
  rw [hk, if_neg hne, State.reg_clampReg (by decide), State.reg_setReg, if_pos rfl, toNat_ofNat_powW32 h62]

/-- Settles O27: the value written goes to the nearest exponent of the range, and a new range moves GSCALE into it. -/
theorem gradientScaleStaysInRange : Obligations.GradientScaleStaysInRange := by
  intro s v hup
  refine ⟨fun k hlo hhi h62 hv => exec_modGscaleWrite_powW32 hup hlo hhi h62 hv, fun hle h62 => ?_, fun hgrow hle h62 => ?_⟩
  · obtain ⟨t, ht, hreg⟩ := exec_modGscaleWrite_reg hup v hle h62
    obtain ⟨hlo, hhi⟩ := gscaleNear_mem hle v.toNat
    refine ⟨t, _, ht, hlo, hhi, hreg, fun hv => gscaleNear_of_nonpos ?_⟩
    rcases hv with rfl | hv
    · exact .inr rfl
    · exact .inl hv
  · refine ⟨_, exec_modGscaleCtrlWrite hup hgrow hle h62, ?_, State.gscaleRange_gscale_of_mem, fun h => ?_, fun h => ?_⟩
    · rw [State.gscaleRange_ctrl, gscaleCtrlWord, BitVec.toNat_ofNat]
      exact Nat.mod_eq_of_lt (by omega)
    · exact State.gscaleRange_gscale_of_moved (holdTo_of_lt h) (by omega) (by omega)
    · exact State.gscaleRange_gscale_of_moved (holdTo_of_gt hle h) (by omega) h62

end Sys2Proof.Machine
end

section
/-! PROOF. Fields of registers: what a field reads after it, or another field of its register, has been stored (R2). -/

namespace Sys2Proof.Machine

/-- A stored field as a number: the bits below it, the new value, the bits above it. -/
theorem putField_eq (old lo w v : Nat) :
    putField old lo w v = 2 ^ lo * (2 ^ w * (old / 2 ^ lo / 2 ^ w) + v % 2 ^ w) + old % 2 ^ lo := by
  have hold : old = 2 ^ lo * (old / 2 ^ lo) + old % 2 ^ lo := (Nat.div_add_mod ..).symm
  have hq : old / 2 ^ lo = 2 ^ w * (old / 2 ^ lo / 2 ^ w) + old / 2 ^ lo % 2 ^ w := (Nat.div_add_mod ..).symm
  rw [putField]
  generalize old / 2 ^ lo % 2 ^ w = r at hq ⊢
  generalize old / 2 ^ lo / 2 ^ w = c at hq ⊢
  generalize old % 2 ^ lo = a at hold ⊢
  rw [hq] at hold
  rw [hold, show 2 ^ lo * (2 ^ w * c + r) + a = (2 ^ lo * (2 ^ w * c) + a) + r * 2 ^ lo by ring, Nat.add_sub_cancel]
  ring

/-- The bits of a word with one field replaced. -/
theorem testBit_putField (old lo w v i : Nat) :
    (putField old lo w v).testBit i = if lo ≤ i ∧ i < lo + w then v.testBit (i - lo) else old.testBit i := by
  rw [putField_eq, Nat.testBit_two_pow_mul_add _ (Nat.mod_lt _ (Nat.two_pow_pos lo)),
    Nat.testBit_two_pow_mul_add _ (Nat.mod_lt _ (Nat.two_pow_pos w)), Nat.testBit_mod_two_pow, Nat.testBit_mod_two_pow,
    Nat.testBit_div_two_pow, Nat.testBit_div_two_pow]
  by_cases h1 : i < lo
  · rw [if_pos h1, if_neg (by omega), decide_eq_true h1, Bool.true_and]
  · rw [if_neg h1]
    by_cases h2 : i - lo < w
    · rw [if_pos h2, if_pos (by omega), decide_eq_true h2, Bool.true_and]
    · rw [if_neg h2, if_neg (by omega), show i - lo - w + w + lo = i by omega]

/-- The bits of a field. -/
theorem State.testBit_fld (s : State) (o lo w i : Nat) :
    (s.fld o lo w).testBit i = (decide (i < w) && (s.reg o).getLsbD (i + lo)) := by
  rw [State.fld, Nat.testBit_mod_two_pow, Nat.testBit_div_two_pow, BitVec.getLsbD]

/-- The bits of a register after one of its fields is stored. -/
theorem State.getLsbD_reg_setFld (s : State) (o lo w v i : Nat) :
    ((s.setFld o lo w v).reg o).getLsbD i =
      if lo ≤ i ∧ i < lo + w then decide (i < 32) && v.testBit (i - lo) else (s.reg o).getLsbD i := by
  rw [State.reg_setFld, if_pos rfl, BitVec.getLsbD_ofNat, testBit_putField]
  split
  · rfl
  · by_cases hi : i < 32
    · rw [decide_eq_true hi, Bool.true_and, BitVec.getLsbD]
    · rw [decide_eq_false hi, Bool.false_and, BitVec.getLsbD_of_ge _ _ (by omega)]

/-- A field reads as stored. -/
theorem State.fld_setFld_self (s : State) (o : Nat) {lo w : Nat} (v : Nat) (h : lo + w ≤ 32) :
    (s.setFld o lo w v).fld o lo w = v % 2 ^ w := by
  refine Nat.eq_of_testBit_eq fun i => ?_
  rw [State.testBit_fld, State.getLsbD_reg_setFld, Nat.testBit_mod_two_pow]
  by_cases hi : i < w
  · rw [if_pos (by omega), decide_eq_true (by omega : i + lo < 32), Bool.true_and, Nat.add_sub_cancel]
  · rw [decide_eq_false hi, Bool.false_and, Bool.false_and]

/-- A field reads as before after one beside it is stored. -/
theorem State.fld_setFld_beside (s : State) (o : Nat) {lo w lo' w' : Nat} (v : Nat) (h : lo' + w' ≤ lo ∨ lo + w ≤ lo') :
    (s.setFld o lo w v).fld o lo' w' = s.fld o lo' w' := by
  refine Nat.eq_of_testBit_eq fun i => ?_
  rw [State.testBit_fld, State.testBit_fld, State.getLsbD_reg_setFld]
  by_cases hi : i < w'
  · rw [if_neg (by omega)]
  · rw [decide_eq_false hi, Bool.false_and, Bool.false_and]

/-- A field 32 bits wide is its register. -/
theorem State.fld_word (s : State) (o : Nat) : s.fld o 0 32 = (s.reg o).toNat := by
  rw [State.fld, Nat.pow_zero, Nat.div_one, Nat.mod_eq_of_lt (s.reg o).isLt]

end Sys2Proof.Machine
end

section
/-! PROOF. What a write of one field does, by its access code (R6, R8, R9). -/

namespace Sys2Proof.Machine

section
variable {s : State} {off : Nat} {f : FieldRow} (x : Nat)

theorem State.writeField_readOnly (hacc : f.acc = .ro ∨ f.acc = .wo) : s.writeField off x f = s := by
  unfold State.writeField
  rcases hacc with hacc | hacc <;> rw [hacc] <;> exact ite_self s

variable (hown : f.own = false) (hfix : s.fieldFixed off f = false)
include hown hfix

theorem State.writeField_w1c (hacc : f.acc = .w1c) : s.writeField off x f = s.setFld off f.lo f.width
    (s.fld off f.lo f.width - (s.fld off f.lo f.width &&& x / 2 ^ f.lo % 2 ^ f.width)) := by
  unfold State.writeField
  rw [hown, hfix, hacc]
  rfl

theorem State.writeField_rw (hacc : f.acc = .rw ∨ f.acc = .rws) :
    let y := x / 2 ^ f.lo % 2 ^ f.width
    let z := s.fieldClamp off f y
    let t := if z = y then s.setFld off f.lo f.width z else (s.setFld off f.lo f.width z).clampReg off f.lo y z
    s.writeField off x f = if f.count ∧ z = 0 then t.clearFrozen off f else t := by
  unfold State.writeField
  rcases hacc with hacc | hacc <;> rw [hown, hfix, hacc] <;> rfl

theorem State.writeField_inRange (hacc : f.acc = .rw ∨ f.acc = .rws) (hcount : f.count = false)
    (hy : s.fieldClamp off f (x / 2 ^ f.lo % 2 ^ f.width) = x / 2 ^ f.lo % 2 ^ f.width) :
    s.writeField off x f = s.setFld off f.lo f.width (x / 2 ^ f.lo % 2 ^ f.width) := by
  rw [State.writeField_rw x hown hfix hacc, hcount, if_neg (fun h => Bool.false_ne_true h.1), if_pos hy, hy]

theorem State.writeField_clamped (hacc : f.acc = .rw ∨ f.acc = .rws) (hcount : f.count = false)
    (hy : s.fieldClamp off f (x / 2 ^ f.lo % 2 ^ f.width) ≠ x / 2 ^ f.lo % 2 ^ f.width) :
    s.writeField off x f = (s.setFld off f.lo f.width (s.fieldClamp off f (x / 2 ^ f.lo % 2 ^ f.width))).clampReg off f.lo
      (x / 2 ^ f.lo % 2 ^ f.width) (s.fieldClamp off f (x / 2 ^ f.lo % 2 ^ f.width)) := by
  rw [State.writeField_rw x hown hfix hacc, hcount, if_neg (fun h => Bool.false_ne_true h.1), if_neg hy]

end

@[simp] theorem State.clearFrozen_reg (s : State) (off : Nat) (f : FieldRow) (o : Nat) :
    (s.clearFrozen off f).reg o = s.reg o := by
  unfold State.clearFrozen; split <;> rfl

/-- A write of a write-1-to-clear field leaves the fields beside it. -/
theorem State.fld_writeField_w1c_beside (s : State) (off x : Nat) {f : FieldRow} {lo w : Nat} (hacc : f.acc = .w1c)
    (h : lo + w ≤ f.lo) : (s.writeField off x f).fld off lo w = s.fld off lo w := by
  unfold State.writeField
  dsimp only
  rw [hacc]
  split
  · rfl
  · exact s.fld_setFld_beside off _ (.inl h)

theorem State.fld_writeFields_w1c_beside (off x : Nat) {lo w : Nat} : ∀ (l : List FieldRow) (s : State),
    (∀ f ∈ l, f.acc = .w1c ∧ lo + w ≤ f.lo) → (l.foldl (State.writeField off x) s).fld off lo w = s.fld off lo w
  | [], _, _ => rfl
  | f :: l, s, h => by
    obtain ⟨hf, hl⟩ := List.forall_mem_cons.mp h
    rw [List.foldl_cons, State.fld_writeFields_w1c_beside off x l _ hl, s.fld_writeField_w1c_beside off x hf.1 hf.2]

/-- Fields of a register outside the queues and the HDM decoder may always be written. -/
theorem State.fieldFixed_of_outside (s : State) {off : Nat} (f : FieldRow) (hq : ¬(Reg.hqQbaseLo 0 ≤ off ∧ off < Reg.hqQbaseLo 64))
    (hd : ¬(Reg.hdmBaseLo ≤ off ∧ off < Reg.hdmDecoder + 12)) : s.fieldFixed off f = false := by
  have hq' : (decide (Reg.hqQbaseLo 0 ≤ off) && decide (off < Reg.hqQbaseLo 64)) = false := by
    rw [← Bool.decide_and, decide_eq_false hq]
  have hd' : (decide (Reg.hdmBaseLo ≤ off) && decide (off < Reg.hdmDecoder + 12)) = false := by
    rw [← Bool.decide_and, decide_eq_false hd]
  simp only [State.fieldFixed, hq', hd', Bool.false_and, Bool.or_false]

/-- The registers whose fields have a range of their own, beside the range of the table. -/
def ownRange : List Nat := [Reg.guyUpport, Reg.guyDownmask, Reg.poolHiwater, Reg.poolCmdArg, Reg.pwrPeak]

/-- Every other field is held to the range of the table (R9). -/
theorem State.fieldClamp_of_table (s : State) {off : Nat} (f : FieldRow) (v : Nat) (h : off ∉ ownRange) :
    s.fieldClamp off f v = holdTo f.min f.max v := by
  simp only [ownRange, List.mem_cons, List.not_mem_nil, or_false, not_or] at h
  obtain ⟨h1, h2, h3, h4, h5⟩ := h
  rw [State.fieldClamp, if_neg h1, if_neg h2, if_neg h3, if_neg (fun hc => h4 hc.1), if_neg h5]

end Sys2Proof.Machine
end

section
/-! PROOF. Where registers lie: an offset at which a write does more than store fields holds a register (R10, Table 15-2). -/

namespace Sys2Proof.Machine

/-- A table finds a row at each dword that one of its rows covers. -/
theorem exists_findRow {rows : List RegRow} {r : RegRow} {off : Nat} (hr : r ∈ rows) (hlo : r.base ≤ off)
    (hhi : off < r.base + r.stride * (r.n - 1) + 4) (hmod : (off - r.base) % Nat.max r.stride 4 = 0) :
    ∃ r' ∈ rows, findRow rows off = some r' := by
  cases h : findRow rows off with
  | some r' => exact ⟨r', List.mem_of_find?_eq_some h, rfl⟩
  | none =>
    have hnone := List.find?_eq_none.mp h r hr
    simp [hlo, hhi, hmod] at hnone

theorem fieldsAt_of_cellRow {off : Nat} {r : RegRow} (hlo : 0x2000000 ≤ off) (hhi : off < 0x4000000)
    (h : findRow cellRows (off % 0x10000) = some r) : fieldsAt off = r.fields := by
  simp only [fieldsAt, if_pos (And.intro hlo hhi), h]

theorem fieldsAt_of_gsRow {off : Nat} {r : RegRow} (hlo : 0x1000000 ≤ off) (hhi : off < 0x1C00000)
    (h : findRow gsRows (off % 0x100000) = some r) : fieldsAt off = r.fields := by
  simp only [fieldsAt, if_neg (show ¬(0x2000000 ≤ off ∧ off < 0x4000000) by omega), if_pos (And.intro hlo hhi), h]

theorem fieldsAt_of_modRow {off : Nat} {r : RegRow} (hhi : off < 0x1000000)
    (h : findRow modRows off = some r) : fieldsAt off = r.fields := by
  simp only [fieldsAt, if_neg (show ¬(0x2000000 ≤ off ∧ off < 0x4000000) by omega),
    if_neg (show ¬(0x1000000 ≤ off ∧ off < 0x1C00000) by omega), if_pos hhi, h]

theorem cellRows_fields_ne_nil : ∀ r ∈ cellRows, r.fields ≠ [] := by decide +kernel

theorem modRows_fields_ne_nil : ∀ r ∈ modRows, r.fields ≠ [] := by decide +kernel

/-- The offsets of the core's PC and of its instruction memory, whose writes go to the core. -/
abbrev coreOffset (off : Nat) : Prop :=
  0x2000000 ≤ off ∧ off < 0x4000000 ∧ (off % 0x10000 = 0x104 ∨ 0x8000 ≤ off % 0x10000)

/-- The single registers a write of which brings about more than its fields. -/
def actingRegs : List Nat :=
  [Reg.guyCtrl, Reg.guyUpport, Reg.guyDownmask, Reg.evtCtrl, Reg.bootCringCtrl, Reg.evtHead, Reg.bootCringHead,
   Reg.hdmDecoder, Reg.pwrRotCtrl, Reg.pwrRotEpoch0]

/-- The offsets of the MSI-X table. -/
abbrev msixOffset (off : Nat) : Prop := Reg.msixTable 0 ≤ off ∧ off < Reg.msixTable 264

/-- The control registers of the groundsheets. -/
abbrev gsCtrlOffset (off : Nat) : Prop := 0x1000000 ≤ off ∧ off < 0x1C00000 ∧ off % 0x100000 = 0

/-- The offsets at which a write does no more than store fields. -/
abbrev plainOffset (off : Nat) : Prop := ¬coreOffset off ∧ off ∉ actingRegs ∧ ¬msixOffset off ∧ ¬gsCtrlOffset off

theorem fieldsAt_coreOffset {off : Nat} (h : coreOffset off) (h4 : off % 4 = 0) : fieldsAt off ≠ [] := by
  obtain ⟨hlo, hhi, h | h⟩ := h
  · rw [fieldsAt_of_cellRow hlo hhi (by rw [h]; rfl)]
    exact List.cons_ne_nil _ _
  · obtain ⟨r, hr, hfind⟩ := exists_findRow (rows := cellRows) (off := off % 0x10000)
      (r := ⟨0x8000, 4, 8192, [⟨0, 32, .rw, 0, 0, 4294967295, false, false⟩]⟩) (by decide +kernel) h
      (by dsimp only; omega) (show (off % 0x10000 - 0x8000) % 4 = 0 by omega)
    rw [fieldsAt_of_cellRow hlo hhi hfind]
    exact cellRows_fields_ne_nil r hr

theorem fieldsAt_actingRegs : ∀ off ∈ actingRegs, fieldsAt off ≠ [] := by decide +kernel

theorem fieldsAt_msixOffset {off : Nat} (h : msixOffset off) (h4 : off % 4 = 0) : fieldsAt off ≠ [] := by
  obtain ⟨hlo, hhi⟩ : 0x38000 ≤ off ∧ off < 0x38420 := h
  obtain ⟨r, hr, hfind⟩ := exists_findRow (rows := modRows) (off := off)
    (r := ⟨0x38000, 4, 264, [⟨0, 32, .rw, 0, 0, 4294967295, false, false⟩]⟩) (by decide +kernel) hlo
    (by dsimp only; omega) (show (off - 0x38000) % 4 = 0 by omega)
  rw [fieldsAt_of_modRow (by omega) hfind]
  exact modRows_fields_ne_nil r hr

theorem fieldsAt_gsCtrlOffset {off : Nat} (h : gsCtrlOffset off) : fieldsAt off ≠ [] := by
  obtain ⟨hlo, hhi, h⟩ := h
  rw [fieldsAt_of_gsRow hlo hhi (by rw [h]; rfl)]
  exact List.cons_ne_nil _ _

end Sys2Proof.Machine
end

section
/-! PROOF. Reads and writes of registers by the host on a module that runs (R6 to R10, R58, R446). -/

namespace Sys2Proof.Machine

theorem exec_registerWrite_eq (off bytes : Nat) (v : W64) (s : State) :
    exec (.registerWrite off bytes v) s = execRegisterWrite off bytes v s := by rfl

theorem exec_loReadLatch_eq (off bytes : Nat) (s : State) :
    exec (.loReadLatch off bytes) s = execLoReadLatch off bytes s := by rfl

theorem bar0Size_eq : bar0Size = 0x4000000 := by decide

/-- A write outside BAR0 changes nothing. -/
theorem exec_registerWrite_outside {off : Nat} (hoff : ¬off < 0x4000000) (n : Nat) (v : W64) (s : State) :
    exec (.registerWrite off n v) s = .next s := by
  rw [exec_registerWrite_eq, execRegisterWrite, bar0Size_eq, decide_eq_false hoff, Bool.and_false, whenOk_false]

/-- A write brings about no more than its fields at an offset that is none of the acting registers. -/
theorem State.afterWrite_of_plain (s old : State) {off : Nat} (v : Nat) (hreg : off ∉ actingRegs) (hmsix : ¬msixOffset off)
    (hgs : ¬(gsCtrlOffset off ∧ old.fld off 0 1 = 0 ∧ s.fld off 0 1 = 1)) : s.afterWrite old off v = s := by
  simp only [actingRegs, List.mem_cons, List.not_mem_nil, or_false, not_or] at hreg
  obtain ⟨h1, h2, h3, h4, h5, h6, h7, h8, h9, h10⟩ := hreg
  rw [State.afterWrite, if_neg (by simp only [h1, h2, h3, or_self, not_false_eq_true]), if_neg h4, if_neg h5, if_neg h6,
    if_neg h7, if_neg h8, if_neg (by simp only [h9, h10, or_self, not_false_eq_true])]
  exact (if_neg hmsix).trans (if_neg fun ⟨hlo, hhi, hmod, hold, hnew⟩ => hgs ⟨⟨hlo, hhi, hmod⟩, hold, hnew⟩)

section
variable {s : State} (hup : s.up = true)
include hup

/-- A module that runs is alive, in stage RUNNING, and in no warm reset. -/
theorem State.up_parts : s.alive = true ∧ s.boot.stage = .running ∧ s.rst.busy = false := by
  simpa [State.up, and_assoc] using hup

theorem State.barOn_of_up : s.barOn = true := by
  obtain ⟨halive, hstage, hbusy⟩ := State.up_parts hup
  rw [State.barOn, halive, hstage, hbusy]
  rfl

theorem State.regServed_of_up (off : Nat) : s.regServed off = true := by
  obtain ⟨-, hstage, -⟩ := State.up_parts hup
  rw [State.regServed, hstage]
  rfl

theorem State.dword_of_up (off : Nat) : s.dword off = s.readReg off := by
  obtain ⟨-, -, hbusy⟩ := State.up_parts hup
  rw [State.dword, hbusy, State.regServed_of_up hup, if_neg Bool.false_ne_true, if_neg Bool.noConfusion]

theorem State.latchHi_of_up (off : Nat) : s.latchHi off =
    { s with free := s.free + 1,
             latched := (hiLatch off).elim s.latched (fun hi => tabSet resetWord s.latched hi (s.liveHi hi)) } := by
  obtain ⟨-, -, hbusy⟩ := State.up_parts hup
  rw [State.latchHi, hbusy, State.regServed_of_up hup, if_neg (by decide)]
  cases hiLatch off <;> rfl

/-- A read of bytes of a dword answers with them and latches the high half of a pair. -/
theorem State.readBytes_of_up (off n : Nat) : s.readBytes off n =
    { s with
      out := s.out ++ [.regRead off (BitVec.ofNat 32 ((s.readReg (off / 4 * 4)).toNat / 2 ^ (8 * (off % 4)) % 2 ^ (8 * n)))]
      free := s.free + 1
      latched := (hiLatch (off / 4 * 4)).elim s.latched (fun hi => tabSet resetWord s.latched hi (s.liveHi hi)) } := by
  rw [State.readBytes, State.dword_of_up hup, State.latchHi_of_up (s := s.emit _) hup]
  rfl

/-- A write of a dword writes its fields, and brings about what hangs on the register. -/
theorem State.writeReg_of_fields {off : Nat} (hcore : ¬coreOffset off) (v : Nat) :
    s.writeReg off v = ((fieldsAt off).foldl (State.writeField off v) s).afterWrite s off v := by
  rw [State.writeReg, State.regServed_of_up hup, if_neg Bool.noConfusion]
  exact if_neg hcore

/-- A write of a dword that no register holds changes nothing (R10). -/
theorem State.writeReg_of_no_fields {off : Nat} (h4 : off % 4 = 0) (h : fieldsAt off = []) (v : Nat) : s.writeReg off v = s := by
  rw [State.writeReg_of_fields hup (fun hc => fieldsAt_coreOffset hc h4 h), h, List.foldl_nil]
  exact s.afterWrite_of_plain s v (fun hr => fieldsAt_actingRegs off hr h) (fun hm => fieldsAt_msixOffset hm h4 h)
    (fun hg => fieldsAt_gsCtrlOffset hg.1 h)

/-- A write of a dword of a register that does no more than hold its fields. -/
theorem State.writeReg_of_plain {off : Nat} (h : plainOffset off) (v : Nat) :
    s.writeReg off v = (fieldsAt off).foldl (State.writeField off v) s := by
  obtain ⟨hcore, hreg, hmsix, hgs⟩ := h
  rw [State.writeReg_of_fields hup hcore, State.afterWrite_of_plain _ _ _ hreg hmsix (fun h => hgs h.1)]

section
variable (hide : s.insecure 0 = false) (v : W64)
include hide

/-- REGISTER_WRITE inside BAR0: an aligned dword, an aligned qword, and nothing else. -/
theorem exec_registerWrite_inside {off : Nat} (hoff : off < 0x4000000) (n : Nat) : exec (.registerWrite off n v) s = .next
    (if n = 4 ∧ off % 4 = 0 then s.writeReg off (v.toNat % 2 ^ 32)
     else if n = 8 ∧ off % 8 = 0 then (s.writeReg off (v.toNat % 2 ^ 32)).writeReg (off + 4) (v.toNat / 2 ^ 32)
     else s) := by
  rw [exec_registerWrite_eq, execRegisterWrite, State.barOn_of_up hup, hide, bar0Size_eq, decide_eq_true hoff]
  rfl

theorem exec_registerWrite_dword {off : Nat} (hoff : off < 0x4000000) (h4 : off % 4 = 0) :
    exec (.registerWrite off 4 v) s = .next (s.writeReg off (v.toNat % 2 ^ 32)) := by
  rw [exec_registerWrite_inside hup hide v hoff, if_pos ⟨rfl, h4⟩]

theorem exec_registerWrite_qword {off : Nat} (hoff : off < 0x4000000) (h8 : off % 8 = 0) : exec (.registerWrite off 8 v) s
    = .next ((s.writeReg off (v.toNat % 2 ^ 32)).writeReg (off + 4) (v.toNat / 2 ^ 32)) := by
  rw [exec_registerWrite_inside hup hide v hoff, if_neg (fun h => absurd h.1 (by decide)), if_pos ⟨rfl, h8⟩]

/-- A write of fewer than four bytes changes nothing (R6). -/
theorem exec_registerWrite_short (off : Nat) {n : Nat} (hn : n < 4) : exec (.registerWrite off n v) s = .next s := by
  by_cases hoff : off < 0x4000000
  · rw [exec_registerWrite_inside hup hide v hoff, if_neg (by omega), if_neg (by omega)]
  · exact exec_registerWrite_outside hoff n v s

/-- A write at an offset without a register changes nothing (R10). -/
theorem exec_registerWrite_no_fields {off : Nat} (h : fieldsAt off = []) : exec (.registerWrite off 4 v) s = .next s := by
  by_cases hoff : off < 0x4000000
  · by_cases h4 : off % 4 = 0
    · rw [exec_registerWrite_dword hup hide v hoff h4, State.writeReg_of_no_fields hup h4 h]
    · rw [exec_registerWrite_inside hup hide v hoff, if_neg (by omega), if_neg (by omega)]
  · exact exec_registerWrite_outside hoff 4 v s

end

section
variable (hide : s.insecure 0 = false) {off : Nat} (hoff : off < 0x4000000)
include hide hoff

theorem exec_loReadLatch_qword (h8 : off % 8 = 0) :
    exec (.loReadLatch off 8) s = .next ((s.readBytes off 4).readBytes (off + 4) 4) := by
  obtain ⟨halive, hstage, -⟩ := State.up_parts hup
  rw [exec_loReadLatch_eq, execLoReadLatch, halive, hstage, hide, bar0Size_eq, decide_eq_true hoff, if_pos ⟨rfl, h8⟩]
  rfl

theorem exec_loReadLatch_bytes {n : Nat} (hn : n = 1 ∨ n = 2 ∨ n = 4) (hfit : off % 4 + n ≤ 4) :
    exec (.loReadLatch off n) s = .next (s.readBytes off n) := by
  obtain ⟨halive, hstage, -⟩ := State.up_parts hup
  rw [exec_loReadLatch_eq, execLoReadLatch, halive, hstage, hide, bar0Size_eq, decide_eq_true hoff, if_neg (by omega),
    if_pos ⟨by omega, hfit⟩]
  rfl

end

end

/-- An offset without a register reads as 0 (R10). -/
theorem State.readReg_of_no_fields (s : State) {off : Nat} (h : fieldsAt off = []) : s.readReg off = 0 := by
  rw [State.readReg, h]; rfl

theorem State.readReg_pitCountLo (s : State) : s.readReg Reg.pitCountLo = BitVec.ofNat 32 (s.pitch % 2 ^ 32) := by
  have hrow : (fieldsAt Reg.pitCountLo).isEmpty = false := by decide +kernel
  have hnolatch : ¬(4 ≤ Reg.pitCountLo ∧ (hiLatch (Reg.pitCountLo - 4)).isSome = true) := by decide
  rw [State.readReg, hrow, if_neg Bool.false_ne_true, if_neg hnolatch]
  rfl

/-- PIT_COUNT_HI reads what was latched (R58). -/
theorem State.readReg_pitCountHi (s : State) : s.readReg Reg.pitCountHi = tabGet resetWord s.latched Reg.pitCountHi := by
  have hrow : (fieldsAt Reg.pitCountHi).isEmpty = false := by decide +kernel
  rw [State.readReg, hrow, if_neg Bool.false_ne_true, if_pos (by decide)]

theorem ofNat_toNat_dword (w : W32) : BitVec.ofNat 32 (w.toNat / 2 ^ (8 * 0) % 2 ^ (8 * 4)) = w := by
  rw [Nat.mul_zero, Nat.pow_zero, Nat.div_one, Nat.mod_eq_of_lt w.isLt, BitVec.ofNat_toNat, BitVec.setWidth_eq]

/-- A read of an aligned dword answers with the register. -/
theorem exec_loReadLatch_dword {s : State} (hup : s.up = true) (hide : s.insecure 0 = false) {off : Nat}
    (hoff : off < 0x4000000) (h4 : off % 4 = 0) : exec (.loReadLatch off 4) s = .next
      { s with
        out := s.out ++ [.regRead off (s.readReg off)]
        free := s.free + 1
        latched := (hiLatch off).elim s.latched (fun hi => tabSet resetWord s.latched hi (s.liveHi hi)) } := by
  rw [exec_loReadLatch_bytes hup hide hoff (.inr (.inr rfl)) (by omega), State.readBytes_of_up hup,
    show off / 4 * 4 = off by omega, h4, ofNat_toNat_dword]

/-! ### Single registers -/

/-- The field of POOL_UE, a count of 32 bits. -/
def poolUeField : FieldRow := ⟨0, 32, .rw, 0, 0, 4294967295, false, true⟩

/-- The field of FAB_TXN_TIMEOUT, of at least 100 ticks. -/
def txnTimeoutField : FieldRow := ⟨0, 24, .rw, 10000, 100, 16777215, false, false⟩

theorem fieldsAt_poolUe : fieldsAt Reg.poolUe = [poolUeField] := by decide +kernel

theorem fieldsAt_fabTxnTimeout : fieldsAt Reg.fabTxnTimeout = [txnTimeoutField] := by decide +kernel

/-- CELL_NUM_STATUS has its lowest bit as a write-1-to-clear field, and others of the kind above it. -/
theorem fieldsAt_cellNumStatus : ∃ f l, fieldsAt (Reg.cellNumStatus 0) = f :: l ∧ f.lo = 0 ∧ f.width = 1 ∧ f.acc = .w1c
    ∧ f.own = false ∧ ∀ g ∈ l, g.acc = .w1c ∧ 0 + 1 ≤ g.lo :=
  ⟨_, _, rfl, by decide +kernel⟩

theorem fieldsAt_bootStatus : ∀ f ∈ fieldsAt Reg.bootStatus, f.acc = .ro ∨ f.acc = .wo := by decide +kernel

/-- A write of read-only fields changes nothing. -/
theorem State.writeFields_readOnly (off x : Nat) (s : State) : ∀ l : List FieldRow, (∀ f ∈ l, f.acc = .ro ∨ f.acc = .wo) →
    l.foldl (State.writeField off x) s = s
  | [], _ => rfl
  | f :: l, h => by
    obtain ⟨hf, hl⟩ := List.forall_mem_cons.mp h
    rw [List.foldl_cons, State.writeField_readOnly x hf, State.writeFields_readOnly off x s l hl]

theorem State.fieldFixed_fabTxnTimeout (s : State) : s.fieldFixed Reg.fabTxnTimeout txnTimeoutField = false :=
  s.fieldFixed_of_outside _ (by decide) (by decide)

theorem State.fieldClamp_fabTxnTimeout (s : State) (y : Nat) :
    s.fieldClamp Reg.fabTxnTimeout txnTimeoutField y = holdTo 100 16777215 y := s.fieldClamp_of_table _ _ (by decide)

theorem txnTimeoutField_value (x : Nat) : x / 2 ^ txnTimeoutField.lo % 2 ^ txnTimeoutField.width = x % 2 ^ 24 :=
  congrArg (· % 2 ^ 24) (Nat.div_one x)

/-- FAB_TXN_TIMEOUT as its field is stored. -/
theorem State.txnTimeout_setFld (s : State) {y : Nat} (hy : y < 2 ^ 24) :
    (s.setFld Reg.fabTxnTimeout 0 24 y).txnTimeout = y := by
  rw [State.txnTimeout, s.fld_setFld_self _ _ (by decide), Nat.mod_eq_of_lt hy]

theorem State.txnTimeout_clampReg (s : State) (o bit written applied : Nat) :
    (s.clampReg o bit written applied).txnTimeout = s.txnTimeout := by
  rw [State.txnTimeout, State.txnTimeout, State.fld, State.fld, State.reg_clampReg (by decide)]

/-- A bit cleared by the 1 written to it. -/
theorem clearBit_eq {b : Nat} (hb : b < 2) (x : Nat) : (b - (b &&& x % 2 ^ 1)) % 2 ^ 1 = if x % 2 = 1 then 0 else b := by
  have hx : x % 2 < 2 := Nat.mod_lt _ (by decide)
  rw [Nat.pow_one]
  generalize x % 2 = y at hx ⊢
  interval_cases b <;> interval_cases y <;> rfl

section
variable {s : State} (hup : s.up = true) (hide : s.insecure 0 = false)
include hup hide

theorem exec_registerWrite_bootStatus (v : W64) : exec (.registerWrite Reg.bootStatus 4 v) s = .next s := by
  rw [exec_registerWrite_dword hup hide v (by decide) (by decide),
    State.writeReg_of_plain hup (by decide),
    State.writeFields_readOnly _ _ _ _ fieldsAt_bootStatus]

/-- A counter of 32 bits is stored as written. -/
theorem exec_registerWrite_poolUe (v : W64) :
    ∃ t, exec (.registerWrite Reg.poolUe 4 v) s = .next t ∧ (t.reg Reg.poolUe).toNat = v.toNat % 2 ^ 32 := by
  refine ⟨_, exec_registerWrite_dword hup hide v (by decide) (by decide), ?_⟩
  have hfix := s.fieldFixed_of_outside (off := Reg.poolUe) poolUeField (by decide) (by decide)
  have hval : v.toNat % 2 ^ 32 / 2 ^ poolUeField.lo % 2 ^ poolUeField.width = v.toNat % 2 ^ 32 := by
    show v.toNat % 2 ^ 32 / 2 ^ 0 % 2 ^ 32 = _; omega
  have hclamp : s.fieldClamp Reg.poolUe poolUeField (v.toNat % 2 ^ 32) = v.toNat % 2 ^ 32 := by
    rw [s.fieldClamp_of_table _ _ (by decide)]
    exact holdTo_of_mem (Nat.zero_le _) (show v.toNat % 2 ^ 32 ≤ 4294967295 by omega)
  have hstored : ((s.setFld Reg.poolUe 0 32 (v.toNat % 2 ^ 32)).reg Reg.poolUe).toNat = v.toNat % 2 ^ 32 := by
    rw [← State.fld_word, s.fld_setFld_self _ _ (by decide), Nat.mod_mod]
  rw [State.writeReg_of_plain hup (by decide), fieldsAt_poolUe, List.foldl_cons,
    List.foldl_nil, State.writeField_rw _ rfl hfix (.inl rfl)]
  rw [hval, hclamp, if_pos rfl]
  split
  · rw [State.clearFrozen_reg]; exact hstored
  · exact hstored

/-- A write of FAB_TXN_TIMEOUT writes its field. -/
theorem exec_registerWrite_fabTxnTimeout (v : W64) : exec (.registerWrite Reg.fabTxnTimeout 4 v) s
    = .next (s.writeField Reg.fabTxnTimeout (v.toNat % 2 ^ 32) txnTimeoutField) := by
  rw [exec_registerWrite_dword hup hide v (by decide) (by decide),
    State.writeReg_of_plain hup (by decide), fieldsAt_fabTxnTimeout, List.foldl_cons,
    List.foldl_nil]

/-- A timeout of 100 ticks or more is stored. -/
theorem exec_registerWrite_fabTxnTimeout_inRange (v : W64) (h : 100 ≤ v.toNat % 2 ^ 32 % 2 ^ 24) :
    ∃ t, exec (.registerWrite Reg.fabTxnTimeout 4 v) s = .next t ∧ t.txnTimeout = v.toNat % 2 ^ 32 % 2 ^ 24
      ∧ t.reg Reg.bootClamps = s.reg Reg.bootClamps := by
  refine ⟨_, exec_registerWrite_fabTxnTimeout hup hide v, ?_⟩
  have hval := txnTimeoutField_value (v.toNat % 2 ^ 32)
  have hclamp : s.fieldClamp Reg.fabTxnTimeout txnTimeoutField (v.toNat % 2 ^ 32 % 2 ^ 24) = v.toNat % 2 ^ 32 % 2 ^ 24 := by
    rw [State.fieldClamp_fabTxnTimeout, holdTo_of_mem h (by omega)]
  rw [State.writeField_inRange _ rfl s.fieldFixed_fabTxnTimeout (.inl rfl) rfl (by rw [hval, hclamp]), hval]
  exact ⟨State.txnTimeout_setFld s (by omega), s.reg_setFld_of_ne _ _ _ _ (by decide)⟩

/-- A timeout below 100 ticks is stored as 100 and counted as a clamp (R9). -/
theorem exec_registerWrite_fabTxnTimeout_clamped (v : W64) (h : v.toNat % 2 ^ 32 % 2 ^ 24 < 100) :
    ∃ t, exec (.registerWrite Reg.fabTxnTimeout 4 v) s = .next t ∧ t.txnTimeout = 100
      ∧ (t.reg Reg.bootClamps).toNat = min ((s.reg Reg.bootClamps).toNat + 1) 0xFFFFFFFF := by
  refine ⟨_, exec_registerWrite_fabTxnTimeout hup hide v, ?_⟩
  have hval := txnTimeoutField_value (v.toNat % 2 ^ 32)
  have hclamp : s.fieldClamp Reg.fabTxnTimeout txnTimeoutField (v.toNat % 2 ^ 32 % 2 ^ 24) = 100 := by
    rw [State.fieldClamp_fabTxnTimeout, holdTo_of_lt h]
  rw [State.writeField_clamped _ rfl s.fieldFixed_fabTxnTimeout (.inl rfl) rfl (by rw [hval, hclamp]; omega), hval, hclamp]
  constructor
  · rw [State.txnTimeout_clampReg]; exact State.txnTimeout_setFld s (by decide)
  · rw [State.bootClamps_clampReg, s.reg_setFld_of_ne _ _ _ _ (by decide)]

/-- A 1 written to a bit of CELL_NUM_STATUS clears it, a 0 leaves it. -/
theorem exec_registerWrite_cellNumStatus (v : W64) :
    ∃ t, exec (.registerWrite (Reg.cellNumStatus 0) 4 v) s = .next t ∧ t.fld (Reg.cellNumStatus 0) 0 1
      = if v.toNat % 2 ^ 32 % 2 = 1 then 0 else s.fld (Reg.cellNumStatus 0) 0 1 := by
  refine ⟨_, exec_registerWrite_dword hup hide v (by decide) (by decide), ?_⟩
  obtain ⟨f, l, hfields, hlo, hwidth, hacc, hown, hl⟩ := fieldsAt_cellNumStatus
  have hfix := s.fieldFixed_of_outside (off := Reg.cellNumStatus 0) f (by decide) (by decide)
  rw [State.writeReg_of_plain hup (by decide), hfields, List.foldl_cons, State.fld_writeFields_w1c_beside _ _ l _ hl,
    State.writeField_w1c _ hown hfix hacc, hlo, hwidth, State.fld_setFld_self _ _ _ (by decide), Nat.pow_zero, Nat.div_one]
  exact clearBit_eq (Nat.mod_lt _ (by decide)) _

/-- A read of PIT_COUNT_LO answers with the count and holds its high half for the read of PIT_COUNT_HI (R58). -/
theorem exec_loReadLatch_pitCountLo : ∃ t, exec (.loReadLatch Reg.pitCountLo 4) s = .next t
    ∧ t.out = s.out ++ [.regRead Reg.pitCountLo (BitVec.ofNat 32 (s.pitch % 2 ^ 32))]
    ∧ ∀ u : State, u.latched = t.latched → u.readReg Reg.pitCountHi = BitVec.ofNat 32 (s.pitch / 2 ^ 32) := by
  have hhi : hiLatch Reg.pitCountLo = some Reg.pitCountHi := by decide
  have hlive : s.liveHi Reg.pitCountHi = BitVec.ofNat 32 (s.pitch / 2 ^ 32) := if_pos rfl
  refine ⟨_, exec_loReadLatch_dword hup hide (by decide) (by decide), by rw [State.readReg_pitCountLo], fun u hu => ?_⟩
  rw [State.readReg_pitCountHi, hu, hhi]
  dsimp only [Option.elim]
  rw [tabGet_tabSet, if_pos rfl, hlive]

end

/-- Settles O50, clause by clause from the rules of a write and of a read. -/
theorem registersAreReadAndWritten : Obligations.RegistersAreReadAndWritten := by
  intro s v hup hide
  refine ⟨?_, exec_registerWrite_bootStatus hup hide v, fun off h => ⟨exec_registerWrite_no_fields hup hide v h, ?_⟩,
    fun off n hn => exec_registerWrite_short hup hide v off hn, fun off hoff => ⟨fun h4 => ?_, fun h8 => ?_, fun h8 => ?_, ?_⟩,
    fun off x f hown hfix => ⟨?_, ?_, ?_⟩, exec_loReadLatch_pitCountLo hup hide⟩
  · rintro x - rfl
    exact ⟨exec_registerWrite_poolUe hup hide v, exec_registerWrite_fabTxnTimeout_inRange hup hide v,
      exec_registerWrite_fabTxnTimeout_clamped hup hide v, exec_registerWrite_cellNumStatus hup hide v⟩
  · intro h4 hoff
    exact ⟨_, exec_loReadLatch_dword hup hide hoff h4, by rw [s.readReg_of_no_fields h], rfl⟩
  · exact exec_registerWrite_dword hup hide v hoff h4
  · exact exec_registerWrite_qword hup hide v hoff h8
  · exact exec_loReadLatch_qword hup hide hoff h8
  · intro n hn hfit
    refine ⟨exec_loReadLatch_bytes hup hide hoff hn hfit, ?_⟩
    rw [State.readBytes_of_up hup]
    exact ⟨rfl, rfl, rfl, rfl, rfl, fun _ => rfl, fun _ => rfl⟩
  · exact State.writeField_readOnly x
  · exact State.writeField_w1c x hown hfix
  · exact fun hacc hcount => ⟨fun hy => State.writeField_inRange x hown hfix hacc hcount hy,
      fun hy => State.writeField_clamped x hown hfix hacc hcount hy⟩

end Sys2Proof.Machine
end

section
/-! PROOF. Every command is answered by the units it names: it leaves a next state, or is a fault where the package lacks
a unit. -/

namespace Sys2Proof.Machine

/-- The outcome that a command owes whose units the package has where `ok`: a next state, or the fault of a missing unit. -/
def Answers (ok : Bool) (o : Out) : Prop := (ok = true → ∃ t, o = .next t) ∧ (ok = false → o = .fault .noSuchUnit)

theorem answers_next (t : State) : Answers true (.next t) := ⟨fun _ => ⟨t, rfl⟩, nofun⟩

theorem answers_onUnit (ok : Bool) (t : State) : Answers ok (onUnit ok t) :=
  ⟨fun h => ⟨t, if_pos h⟩, fun h => if_neg (by simp [h])⟩

theorem answers_ite {ok : Bool} {p : Prop} [Decidable p] {x y : Out} (hx : Answers ok x) (hy : Answers ok y) :
    Answers ok (if p then x else y) := by
  split
  · exact hx
  · exact hy

/-- A message of the data object exchange is always answered. -/
theorem answers_doeServe (s t : State) : Answers true (doeServe s t) := answers_next _

/-- A vector instruction names its cell, whether its control word holds its own operation or another (log entry 1). -/
theorem answers_vsRow (op c : Nat) (i : Instr) (o : ROps) (s : State) : Answers (decide (c < 512)) (vsRow op c i o s) :=
  answers_ite (answers_onUnit _ _) (answers_onUnit _ _)

/-- A key command is answered, with an error where it has no session or names no stream (R485). -/
theorem answers_ideKm (session stream : Nat) (cm : Bool) (s : State) (act : Ide → Ide) :
    Answers true (ideKm session stream cm s act) := by
  unfold ideKm
  split
  · exact answers_doeServe _ _
  · exact answers_ite (answers_doeServe _ _) (answers_doeServe _ _)

theorem answers_execPair (s : State) : Answers true (execPair s) := by
  unfold execPair
  split
  · exact answers_ite (answers_next _) (answers_next _)
  · exact answers_next _

/-- A command is judged by the unit that it names, a cell (R16), a groundsheet (R20), a port (R21), a queue (R454) or a
comparator (R435): the vector instructions in the first case, the others in the last. The cases between are the commands
of the module as a whole, which name no unit. -/
theorem exec_answers (s : State) (i : Instr) : Answers i.wf (exec i s) := by
  cases i with
  | vsAnd | vsOr | vsXor | vsNot | vsShl | vsShr | vsSra | iadd | isub | imul | imin | imax | iabs | iota | abs | neg
  | mov | expo | vsAdd | vsSub | vsMul | fma | vsMax | vsMin | vsCmpeq | vsCmpne | vsCmplt | vsCmple | vsCmpgt
  | vsCmpge | vsSel | cvt | scale | expf | logf | rcp | sqrt | rsqrt | sigmoid | tanh | softplus | gelu | silu | dRelu
  | dLrelu | dSigmoid | dTanh | dSoftplus | dElu | dExp | dGelu | dSilu | rsum | rprod | rmax | rmin | rargmax
  | rargmin | rcnt | rmean | compress | expand => exact answers_vsRow _ _ _ _ _
  | registerWrite | loReadLatch | pitCmdLoad | timingExchange | exchangeMissing | holdoverLimit | tSealReached
  | verdictApply | flyMerge | stepEnable | stepDisable | modEpochWrite | stepCmdSeal | stepCmdAbort | clearDiverge
  | modGscaleWrite | modGscaleCtrlWrite | gatherReq | gatherResp | contrib | dwPiece | coll | exch | ack
  | ackDelay | channelRto | chanOpen | chanClose | chanReset | txnTimeout | routeEntryWrite | discStart
  | discAbort | allocWaitEnd | poolCmdAlloc | poolCmdFree | poolCmdPeg | poolCmdUnpeg | clearLost | retire
  | readDir | readFrame | evictionComplete | bringupComplete | farReadCompletion | farReadTimeout | psuWarnAssert
  | vinLow | shedComplete | psuWarnClear | warnHoldExpiry | vinCutoff | powerReturn | controlPeriod
  | excursionTimeout | airflowEstimate | junctionSample | tripClear | reread | capability | statusByte | readVin
  | readIin | readPin | pmbusRevision | budgetWrite | budgetRead | capEff | pmbusUnsupported | hotReset | linkLoss
  | hostLinkTrained | snoop | hdmRead | hdmWrite | uioRequest | ideIntegrityFailure | doeDiscovery
  | cxlTableAccess | getVersion | getCapabilities | negotiateAlgorithms | getDigests | challenge | heartbeat
  | keyUpdate | query | descriptorFetch | eventRingEnable | eventIrqDelay | clampRingEnable | clampIrqDelay
  | loadFw | loadUc | loadComplete | activateFw | activateUc | coldReset | commitSvn | persistPolicy | coldBoot
  | firmwareStart | warmReset | warmResetComplete | rstNAssert | rstNRelease | refclkLoss | freeze | clearAll
  | farWriteTimeout =>
    exact answers_next _
  | getCertificate | getMeasurements | keyExchange | finish | endSession =>
    exact answers_ite (answers_doeServe _ _) (answers_doeServe _ _)
  | keyProg n m cm => exact answers_ideKm n m cm s fun k => { k with keys := true, insecure := false }
  | kSetGo n m cm => exact answers_ideKm n m cm s fun k => { k with active := k.keys }
  | kSetStop n m cm => exact answers_ideKm n m cm s fun k => { k with active := false }
  | pair => exact answers_execPair s
  | _ => exact answers_onUnit _ _

/-- Settles O60: the units that a command names decide how it is answered. -/
theorem commandsActOnUnitsOfThePackage : Obligations.CommandsActOnUnitsOfThePackage := fun s i => exec_answers s i

end Sys2Proof.Machine
end

section
/-! PROOF. Groundsheets serve gather requests by their epoch and update the oldest ready slice (R26, R227, R232, R250 to
R252). -/

namespace Sys2Proof.Machine

/-! ### The epoch of arriving work -/

section
variable {s : State} {e : W32}

theorem State.classify_of_stale (h : s.step.mode = .diverged ∨ (e ≠ s.epoch ∧ e ≠ s.epoch + 1)) :
    s.classify e = .stale := by
  unfold State.classify
  rcases h with h | ⟨hcur, hnext⟩
  · exact if_pos h
  · rw [if_neg hcur, nextEpoch, if_neg hnext, ite_self]

theorem State.classify_of_current (hmode : s.step.mode ≠ .diverged) (h : e = s.epoch) : s.classify e = .current := by
  rw [State.classify, if_neg hmode, if_pos h]

theorem State.classify_of_next (hmode : s.step.mode ≠ .diverged) (h : e = s.epoch + 1) : s.classify e = .next := by
  have hne : e ≠ s.epoch := by
    rw [h]
    intro h1
    bv_omega
  rw [State.classify, if_neg hmode, if_neg hne, nextEpoch, if_pos h]

theorem State.classify_eq_next : s.classify e = .next ↔ s.step.mode ≠ .diverged ∧ e = s.epoch + 1 := by
  constructor
  · unfold State.classify
    split_ifs with hmode _ hnext
    · nofun
    · nofun
    · exact fun _ => ⟨hmode, hnext⟩
    · nofun
  · exact fun ⟨hmode, hnext⟩ => State.classify_of_next hmode hnext

end

/-- A request of the next epoch that is not held yet is held, and counted (R26). -/
theorem State.holdReq_of_next {s : State} {r : GatherReq} (n : Nat) (hheld : r.held = false)
    (h : s.classify r.h.epoch = .next) : s.holdReq n r = ({ r with held := true }, s.bump (Reg.gsGatherHeld n)) := by
  rw [State.holdReq, hheld, h]
  rfl

/-- A request of another epoch stays as it is. -/
theorem State.holdReq_of_not_next {s : State} {r : GatherReq} (n : Nat) (h : s.classify r.h.epoch ≠ .next) :
    s.holdReq n r = (r, s) := by
  rw [State.holdReq, if_neg (by simp [h])]

/-! ### The request that is served next -/

/-- The request picked is one that waits, and none that is held for the next epoch (R26, R252). -/
theorem State.pickGather_mem {s : State} {n : Nat} {r : GatherReq} (h : s.pickGather n = some r) :
    r ∈ (s.gs n).reqs.filter (fun r => !(r.held && s.classify r.h.epoch == .next)) := by
  unfold State.pickGather at h
  generalize List.filter _ (s.gs n).reqs = l at h ⊢
  refine List.foldlRecOn (motive := fun b => ∀ r, b = some r → r ∈ l) l _ ?_ (fun b hb a ha r h => ?_) r h
  · nofun
  · cases b with
    | none =>
      cases h
      exact ha
    | some x =>
      dsimp only at h
      split at h
      · cases h
        exact ha
      · exact hb r h

/-- A request of the next epoch that is picked has not been held before. -/
theorem State.pickGather_not_held {s : State} {n : Nat} {r : GatherReq} (h : s.pickGather n = some r)
    (hnext : s.classify r.h.epoch = .next) : r.held = false := by
  simpa [hnext] using (List.mem_filter.1 (State.pickGather_mem h)).2

/-! ### Commands that need pages -/

theorem State.withPages_of_here {s : State} {i : Instr} {ps : List Nat} (h : s.farNeed (.cmd i) ps = [])
    (act : State → State) : s.withPages i ps act = act (s.goOn (.cmd i)) := by
  rw [State.withPages, h]
  rfl

/-! ### GATHER_REQ (R26, R51) -/

theorem exec_gatherReq_eq (h : Hdr) (s : State) : exec (.gatherReq h) s = execGatherReq h s := by rfl

/-- A request as it arrives: its deadline is counted from its stamp (R5, R51). -/
def State.arrivedReq (s : State) (h : Hdr) : GatherReq := ⟨h, fullTime (s.stampOf h) h.deadline, false⟩

/-- A request appended to those that wait at a groundsheet. -/
def State.addReq (s : State) (n : Nat) (r : GatherReq) : State :=
  s.setGs n { s.gs n with reqs := (s.gs n).reqs ++ [r] }

theorem gsUnitOk_of_unit {h : Hdr} {n : Nat} (hn : n < 12) (hunit : h.dstUnit.toNat = 0x4000 + n) :
    gsUnitOk h = true := by
  rw [gsUnitOk, hunit, Bool.and_eq_true]
  exact ⟨decide_eq_true (by omega), decide_eq_true (by omega)⟩

/-- A request that reaches its groundsheet waits there, held where R26 holds it. -/
theorem exec_gatherReq {s : State} {h : Hdr} {n : Nat} (hn : n < 12) (hunit : h.dstUnit.toNat = 0x4000 + n)
    (hup : s.up = true) : exec (.gatherReq h) s = .next
      (((s.unstamp h).holdReq n (s.arrivedReq h)).2.addReq n ((s.unstamp h).holdReq n (s.arrivedReq h)).1) := by
  rw [exec_gatherReq_eq, execGatherReq, hup, gsUnitOk_of_unit hn hunit, Bool.and_true, whenOk_true, hunit,
    Nat.add_sub_cancel_left]
  rfl

/-! ### GATHER_SERVE (R250 to R252) -/

theorem exec_gatherServe_eq (n : Nat) (s : State) : exec (.gatherServe n) s = execGatherServe n s := by rfl

theorem exec_gatherServe {s : State} {n : Nat} (hn : n < 12) (hworks : s.works = true)
    (hen : s.fld (Reg.gsCtrl n) 0 1 = 1) : exec (.gatherServe n) s = .next (s.serveGather n) := by
  rw [exec_gatherServe_eq, execGatherServe, decide_eq_true hn, hworks, hen]
  rfl

section
variable {s : State} {n : Nat} {r : GatherReq} (hpick : s.pickGather n = some r)
include hpick

theorem State.serveGather_of_stale (h : s.classify r.h.epoch = .stale) : s.serveGather n =
    (s.setGs n { s.gs n with reqs := (s.gs n).reqs.erase r }).answerStale n r.h := by
  rw [State.serveGather, hpick]
  dsimp only
  rw [h]

theorem State.serveGather_of_next (h : s.classify r.h.epoch = .next) : s.serveGather n =
    (s.bump (Reg.gsGatherHeld n)).setGs n { s.gs n with reqs := (s.gs n).reqs.replace r { r with held := true } } := by
  rw [State.serveGather, hpick]
  dsimp only
  rw [h, State.holdReq_of_next n (State.pickGather_not_held hpick h) h]

theorem State.serveGather_of_current (h : s.classify r.h.epoch = .current)
    (hpages : s.farNeed (.cmd (.gatherServe n)) (s.gatherPages n (gWord r.h.arg.toNat)) = []) : s.serveGather n =
      ((s.goOn (.cmd (.gatherServe n))).setGs n { s.gs n with reqs := (s.gs n).reqs.erase r }).serveTile n r.h := by
  rw [State.serveGather, hpick]
  dsimp only
  rw [h]
  exact State.withPages_of_here hpages _

end

/-! ### SLICE_UPDATE (R227, R232, R235) -/

theorem exec_sliceUpdate_eq (n : Nat) (s : State) : exec (.sliceUpdate n) s = execSliceUpdate n s := by rfl

theorem exec_sliceUpdate {s : State} {n : Nat} (hn : n < 12) (hworks : s.works = true)
    (hen : s.fld (Reg.gsCtrl n) 0 1 = 1) : exec (.sliceUpdate n) s = .next (s.takeSlice n) := by
  rw [exec_sliceUpdate_eq, execSliceUpdate, decide_eq_true hn, hworks, hen]
  rfl

theorem State.takeSlice_of_none {s : State} {n : Nat} (h : (s.gs n).ready = []) : s.takeSlice n = s := by
  rw [State.takeSlice, h]

theorem State.takeSlice_of_oldest {s : State} {n : Nat} {r : ReadySlice} {l : List ReadySlice}
    (h : (s.gs n).ready = r :: l) (hpages : s.farNeed (.cmd (.sliceUpdate n)) (s.slicePages n r) = []) :
    s.takeSlice n = (s.goOn (.cmd (.sliceUpdate n))).readSlice n r := by
  rw [State.takeSlice, h]
  exact State.withPages_of_here hpages _

theorem State.readSlice_of_no_record {s : State} {n : Nat} {r : ReadySlice} (h : (s.readShard n r.shard).1 = none) :
    s.readSlice n r = ((s.readShard n r.shard).2.dropReady n r).raiseFlag 8 r.epoch := by
  unfold State.readSlice
  generalize s.readShard n r.shard = q at h
  obtain ⟨_, t⟩ := q
  cases h
  rfl

/-- A slice whose record stands: DW_SKIP of its layer decides whether it is updated (R235). -/
theorem State.readSlice_of_record {s : State} {n : Nat} {r : ReadySlice} {y : Shard}
    (h : (s.readShard n r.shard).1 = some y) :
    let k := (s.readShard n r.shard).2.groupConsts n y.group y.desc
    let x := { y with desc := k.1.1 }
    let l := k.2.readLayer (0x8000 + n) (unitGs n) x.layer
    s.readSlice n r = if l.1.dwSkip then l.2.dropReady n r
      else l.2.updateSlice n x k.1.2 r (s.readyRows n x r).1 (s.readyRows n x r).2 := by
  unfold State.readSlice
  generalize s.readShard n r.shard = q at h
  obtain ⟨_, t⟩ := q
  cases h
  rfl

/-! ### The ready list -/

theorem State.ready_dropReady (s : State) (n : Nat) (r : ReadySlice) :
    ((s.dropReady n r).gs n).ready = (s.gs n).ready.erase r := by
  rw [State.dropReady, State.gs_setGs, if_pos rfl]

theorem State.gs_dropReady_of_ne (s : State) {n m : Nat} (r : ReadySlice) (h : m ≠ n) :
    (s.dropReady n r).gs m = s.gs m := by
  rw [State.dropReady, State.gs_setGs, if_neg h]

/-- Settles O22: the epoch of a request, and the record and the layer of a slice, choose among the outcomes. -/
theorem groundsheetsServeAndUpdate : Obligations.GroundsheetsServeAndUpdate := by
  refine ⟨⟨fun s h n hn hunit hup => ⟨fun ⟨hmode, hnext⟩ => ?_, fun hahead => ?_⟩, ?_⟩,
    fun s n hn hworks hen => ⟨fun hempty => ?_, fun r l hready hpages => ?_⟩,
    fun s n r => ⟨State.readSlice_of_no_record, fun y hy => ⟨fun hskip => ?_, fun hskip => ?_⟩⟩,
    fun s n r => ⟨s.ready_dropReady n r, fun m => s.gs_dropReady_of_ne r, fun _ => rfl, fun _ => rfl⟩⟩
  · rw [exec_gatherReq hn hunit hup,
      State.holdReq_of_next (s := s.unstamp h) (r := s.arrivedReq h) n rfl (State.classify_of_next hmode hnext)]
    rfl
  · rw [exec_gatherReq hn hunit hup,
      State.holdReq_of_not_next (s := s.unstamp h) (r := s.arrivedReq h) n (mt State.classify_eq_next.1 hahead)]
    rfl
  · intro s n r k rest hn hworks hen hpick
    rw [exec_gatherServe hn hworks hen]
    refine ⟨fun hstale => ?_, fun hmode hnext => ?_, fun hmode hcur hpages => ?_⟩
    · rw [State.serveGather_of_stale hpick (State.classify_of_stale hstale)]
    · rw [State.serveGather_of_next hpick (State.classify_of_next hmode hnext)]
    · rw [State.serveGather_of_current hpick (State.classify_of_current hmode hcur) hpages]
  · rw [exec_sliceUpdate hn hworks hen, State.takeSlice_of_none hempty]
  · rw [exec_sliceUpdate hn hworks hen, State.takeSlice_of_oldest hready hpages]
  · exact (State.readSlice_of_record hy).trans (if_pos hskip)
  · exact (State.readSlice_of_record hy).trans (if_neg (ne_true_of_eq_false hskip))

end Sys2Proof.Machine
end

section
/-! PROOF. What reports, clamp records and reads of descriptors leave alone: they change registers, the two rings, what
waits for the host, and the output, and nothing else (R464 to R466, R487 to R490, R521). -/

namespace Sys2Proof.Machine

/-- `t` is `s` but for registers, the output, the rings, what waits for the host, and what reports remember of earlier
ones. -/
def Reported (s t : State) : Prop :=
  ∃ regs out rate held evt clamp seen, t = { s with
    regs := regs, out := out, rate := rate,
    host := { s.host with held := held, evt := evt, clamp := clamp, seen := seen } }

namespace Reported

theorem refl (s : State) : Reported s s := ⟨_, _, _, _, _, _, _, rfl⟩

theorem trans {s t u : State} : Reported s t → Reported t u → Reported s u := by
  rintro ⟨_, _, _, _, _, _, _, rfl⟩ ⟨_, _, _, _, _, _, _, rfl⟩
  exact ⟨_, _, _, _, _, _, _, rfl⟩

theorem ite {s t u : State} {p : Prop} [Decidable p] (ht : Reported s t) (hu : Reported s u) :
    Reported s (if p then t else u) := iteInduction (fun _ => ht) (fun _ => hu)

theorem setFld (s : State) (o lo w v : Nat) : Reported s (s.setFld o lo w v) := ⟨_, _, _, _, _, _, _, rfl⟩

theorem bump (s : State) (o : Nat) : Reported s (s.bump o) := ⟨_, _, _, _, _, _, _, rfl⟩

theorem emit (s : State) (o : Output) : Reported s (s.emit o) := ⟨_, _, _, _, _, _, _, rfl⟩

theorem toHost (s : State) (o : Output) : Reported s (s.toHost o) :=
  .ite ⟨_, _, _, _, _, _, _, rfl⟩ (emit s o)

theorem msix (s : State) (v : Nat) : Reported s (s.msix v) := .ite (setFld ..) (toHost ..)

theorem setRing (s : State) (r : RingRegs) (g : Ring) : Reported s (s.setRing r g) :=
  .ite ⟨_, _, _, _, _, _, _, rfl⟩ ⟨_, _, _, _, _, _, _, rfl⟩

theorem ringWrite (s : State) (r : RingRegs) (x : RingRec) : Reported s (s.ringWrite r x) :=
  (toHost ..).trans ((setFld ..).trans (.ite ((setRing ..).trans (msix ..)) (setRing ..)))

theorem ringLose (s : State) (r : RingRegs) : Reported s (s.ringLose r) := (bump ..).trans (setRing ..)

theorem ringHeld (r : RingRegs) : ∀ (n : Nat) (s : State), Reported s (State.ringHeld r n s)
  | 0, s => refl s
  | n + 1, s => by
    unfold State.ringHeld
    dsimp only
    split
    · exact refl s
    · exact .ite (refl s) (((setRing ..).trans (ringWrite ..)).trans (ringHeld r n _))

theorem ringDrain (s : State) (r : RingRegs) : Reported s (s.ringDrain r).2 := by
  unfold State.ringDrain
  dsimp only
  split
  · split
    · exact (ringHeld ..).trans ((setRing ..).trans (ringWrite ..))
    · exact ringHeld ..
  · exact refl s

theorem ringPut (s : State) (r : RingRegs) (x : RingRec) : Reported s (s.ringPut r x).2 := by
  unfold State.ringPut
  dsimp only
  split
  · split
    · exact (ringDrain ..).trans (ringLose ..)
    · exact (ringDrain ..).trans (ringWrite ..)
  · split
    · exact setRing ..
    · exact ringLose ..

theorem report (s : State) (code unit data : Nat) : Reported s (s.report code unit data) := ringPut ..

theorem reportLim (s : State) (code source unit data : Nat) : Reported s (s.reportLim code source unit data) :=
  .ite (refl s) (.trans ⟨_, _, _, _, _, _, _, rfl⟩ (report ..))

theorem clampPut (s : State) (x : RingRec) : Reported s (s.clampPut x) :=
  (ringPut ..).trans (.ite (report ..) (refl _))

theorem clampReg (s : State) (o bit written applied : Nat) : Reported s (s.clampReg o bit written applied) :=
  (bump ..).trans (clampPut ..)

theorem foldl {α : Type} {f : State → α → State} (hf : ∀ s a, Reported s (f s a)) :
    ∀ (l : List α) (s : State), Reported s (l.foldl f s)
  | [], s => refl s
  | a :: l, s => (hf s a).trans (foldl hf l (f s a))

theorem clampRead (s : State) (kind ident head tail source : Nat) (items : List ClampItem) :
    Reported s (s.clampRead kind ident head tail source items) := by
  unfold State.clampRead
  dsimp only
  split
  · exact refl s
  · have hcount : Reported s (items.foldl State.countItem
        (if head != tail then (s.bump Reg.bootTorn).reportLim 0x0710 0 source (kind % 256 + 256 * (ident % 2 ^ 24))
         else s)) :=
      .trans (.ite ((bump ..).trans (reportLim ..)) (refl s)) (foldl (fun t i => bump t _) items _)
    refine hcount.trans (.ite (refl _) (.trans ?_ (foldl (fun t i => clampPut t _) items _)))
    exact .ite (.trans ⟨_, _, _, _, _, _, _, rfl⟩ (clampPut ..)) ⟨_, _, _, _, _, _, _, rfl⟩

section
variable {s t : State} (h : Reported s t)
include h

theorem pitch : t.pitch = s.pitch := by obtain ⟨_, _, _, _, _, _, _, rfl⟩ := h; rfl

theorem pit : t.pit = s.pit := by obtain ⟨_, _, _, _, _, _, _, rfl⟩ := h; rfl

theorem step : t.step = s.step := by obtain ⟨_, _, _, _, _, _, _, rfl⟩ := h; rfl

theorem cells : t.cells = s.cells := by obtain ⟨_, _, _, _, _, _, _, rfl⟩ := h; rfl

theorem cell (c : Nat) : t.cell c = s.cell c := by rw [State.cell, h.cells, State.cell]

theorem spad : t.spad = s.spad := by obtain ⟨_, _, _, _, _, _, _, rfl⟩ := h; rfl

theorem hbm : t.hbm = s.hbm := by obtain ⟨_, _, _, _, _, _, _, rfl⟩ := h; rfl

theorem pwr : t.pwr = s.pwr := by obtain ⟨_, _, _, _, _, _, _, rfl⟩ := h; rfl

theorem queues : t.host.queues = s.host.queues := by obtain ⟨_, _, _, _, _, _, _, rfl⟩ := h; rfl

theorem queue (q : Nat) : t.queue q = s.queue q := by rw [State.queue, h.queues, State.queue]

theorem sameMemory : SameMemory s t := ⟨fun a => by rw [h.spad], fun a => by rw [h.hbm]⟩

end

end Reported

end Sys2Proof.Machine
end

section
/-! PROOF. The machine right after reset (R36, R495, R498, R500). -/

namespace Sys2Proof.Machine

/-- No register is listed after reset, so each holds its reset word. -/
theorem State.reset_reg (off : Nat) : State.reset.reg off = resetWord off := rfl

theorem State.reset_cell (c : Nat) : State.reset.cell c = {} := rfl

theorem State.reset_port (p : Nat) : State.reset.port p = {} := rfl

/-- MOD_EPOCH is 0 after reset. -/
theorem State.reset_epoch : State.reset.epoch = 0 := by
  rw [State.epoch, State.reset_reg]
  decide +kernel

/-- The ROM has not run after reset, so the module does not work yet. -/
theorem State.reset_works : State.reset.works = false := rfl

/-- Settles O53: nothing is listed after reset, so every part of the state reads its reset value. -/
theorem resetLeavesTheResetValues : Obligations.ResetLeavesTheResetValues := by
  obtain ⟨hspad, hhbm⟩ := reset_memWf
  exact ⟨State.reset_reg, rfl, rfl, rfl, rfl, rfl, rfl, rfl, fun _ => ⟨rfl, rfl⟩, hspad, hhbm, State.reset_cell,
    fun p => congrArg Port.mode (State.reset_port p), State.reset_epoch, rfl, State.reset_works⟩

end Sys2Proof.Machine
end

section
/-! PROOF. The instructions of the timed and sync class: TICK, WAIT.TICK, SEAL, SYNC.ABORT, PHASE and HINT (R49, R266,
R395, R422, R424). -/

namespace Sys2Proof.Machine

/-! ### The state in which the effect of an instruction is computed -/

@[simp] theorem State.fetchCe_pitch (s : State) (c : Nat) : (s.fetchCe c).pitch = s.pitch := by rw [State.fetchCe_eq]

@[simp] theorem State.fetchCe_epoch (s : State) (c : Nat) : (s.fetchCe c).epoch = s.epoch :=
  s.fetchCe_reg c _ (by unfold Reg.modEpoch Reg.cellImemCe; omega)

/-- Outside the classes that wait for the store buffer an effect starts from the fetched word. -/
theorem State.fetched_eq_fetchCe (s : State) (c : Nat) {cls opc : Nat} (h : waitsStores cls opc = false) :
    s.fetched c cls opc = s.fetchCe c := by
  rw [State.fetched, h, if_neg Bool.false_ne_true]

theorem State.countInsn_eq (s : State) (c : Nat) :
    s.countInsn c = { s with cells := (s.countInsn c).cells, regs := (s.countInsn c).regs } := by
  unfold State.countInsn
  dsimp only
  split
  · rfl
  · rfl

theorem State.countInsn_reg (s : State) {c off : Nat} (h : off ≠ Reg.cellCoreInsns c) :
    (s.countInsn c).reg off = s.reg off := by
  unfold State.countInsn
  dsimp only
  split
  · rw [State.reg_bump_of_ne _ _ h]; rfl
  · rfl

/-- Counting an instruction changes nothing of a cell but its count. -/
theorem State.countInsn_cell (s : State) (c d : Nat) :
    (s.countInsn c).cell d = if d = c then { s.cell c with insns := ((s.countInsn c).cell c).insns } else s.cell d := by
  unfold State.countInsn
  dsimp only
  split
  · simp only [State.cell_bump, State.cell_setCell, if_true]
  · simp only [State.cell_setCell, if_true]

/-- A core that goes on from where it stands changes its PC, ends its stall, and is counted. -/
theorem State.goesOn_coreGoes (s : State) (c : Nat) (pc : BitVec 12) :
    CoreGoes s (s.goesOn c pc) c ((s.cell c).goTo (pc + 1)) := by
  have hpc : BitVec.ofNat 12 (pc.toNat + 1) = pc + 1 := BitVec.eq_of_toNat_eq (by simp)
  unfold State.goesOn State.setPc
  rw [hpc]
  refine ⟨(State.countInsn_eq ..).trans rfl, fun d hd => ?_, fun off hoff _ => (State.countInsn_reg _ hoff).trans rfl, ?_⟩
  · rw [State.countInsn_cell, if_neg hd, State.cell_setCell, if_neg hd]
  · rw [State.countInsn_cell, if_pos rfl, State.cell_setCell, if_pos rfl]
    rfl

/-- The fetch of its word counts among what an instruction that only moves on may change. -/
theorem CoreGoes.of_fetchCe {s t : State} {c : Nat} {k : Cell} (h : CoreGoes (s.fetchCe c) t c k) : CoreGoes s t c k := by
  obtain ⟨hrest, hcells, hregs, hcell⟩ := h
  refine ⟨?_, fun d hd => ?_, fun off hinsns hce => ?_, hcell⟩
  · rw [State.fetchCe_eq] at hrest; exact hrest
  · rw [hcells d hd, State.fetchCe_cell, if_neg hd]
  · rw [hregs off hinsns hce, State.fetchCe_reg s c off hce]

/-- An instruction whose effect changes nothing leaves its cell at the next word. -/
theorem RLeaves.completes {s : State} {c : Nat} {i : Instr} {o : ROps} {cls opc : Nat} {uses : List Nat}
    (h : RLeaves s c i o cls opc uses (s.fetchCe c)) : RCompletes s c i o cls opc uses (s.cell c) := by
  intro hissues hlegal hpc
  have hgoes := ((s.fetchCe c).goesOn_coreGoes c (s.cell c).pc).of_fetchCe
  refine ⟨_, h hissues hlegal hpc, hgoes.congr ?_⟩
  rw [SameCore, State.fetchCe_cell_self, Cell.goTo, Cell.goTo]

/-! ### TICK and WAIT.TICK (R49, R395) -/

theorem exec_tick_eq (c : Nat) (o : ROps) (s : State) : exec (.tick c o) s = coreR c (.tick c o) o 0x08 0x03 [o.sd.toNat]
    (fun t => effS c o.sd.toNat (BitVec.ofNat 64 t.pitch) t) s := by rfl

theorem exec_waitTick_eq (c : Nat) (o : ROps) (s : State) : exec (.waitTick c o) s = coreR c (.waitTick c o) o 0x08 0x01
    [o.sa.toNat] (fun t => if t.pitch < waitTarget (t.cell c) o then .stall else .done t) s := by rfl

theorem exec_waitTickResume_eq (c : Nat) (s : State) : exec (.waitTickResume c) s = execWaitTickResume c s := by rfl

theorem exec_tick_completes (s : State) (c : Nat) (o : ROps) : RCompletes s c (.tick c o) o 0x08 0x03 [o.sd.toNat]
    ((s.cell c).setS o.sd.toNat (BitVec.ofNat 64 s.pitch)) :=
  rCompletes_of (exec_tick_eq c o s) rfl (by rw [State.fetchCe_pitch]; exact effS_cell ..)

/-- The tick that WAIT.TICK waits for is read from the register as it stood. -/
theorem waitTarget_fetchCe (s : State) (c : Nat) (o : ROps) :
    waitTarget ((s.fetchCe c).cell c) o = ((s.cell c).s o.sa.toNat).toNat := by
  rw [waitTarget, fetchCe_s]

theorem exec_waitTick_completes {s : State} {c : Nat} {o : ROps} (h : ((s.cell c).s o.sa.toNat).toNat ≤ s.pitch) :
    RCompletes s c (.waitTick c o) o 0x08 0x01 [o.sa.toNat] (s.cell c) := by
  refine RLeaves.completes (rLeaves_of (exec_waitTick_eq c o s) ?_)
  rw [State.fetched_eq_fetchCe s c rfl, State.fetchCe_pitch, waitTarget_fetchCe, if_neg (Nat.not_lt.mpr h)]

theorem exec_waitTick_stalls {s : State} {c : Nat} {o : ROps} (h : s.pitch < ((s.cell c).s o.sa.toNat).toNat) :
    RStalls s c (.waitTick c o) o 0x08 0x01 [o.sa.toNat] := by
  refine rStalls_of (exec_waitTick_eq c o s) ?_
  rw [State.fetched_eq_fetchCe s c rfl, State.fetchCe_pitch, waitTarget_fetchCe, if_pos h]

section
variable {s : State} {c : Nat} {o : ROps} (hc : c < 512) (hstall : (s.cell c).stall = some (.waitTick c o))
include hc hstall

theorem exec_waitTickResume_goes (hworks : s.works = true) (hrun : (s.cell c).run = .running)
    (htick : ((s.cell c).s o.sa.toNat).toNat ≤ s.pitch) (hpc : (s.cell c).pc.toNat < 4095) :
    exec (.waitTickResume c) s = .next (s.goesOn c (s.cell c).pc) := by
  rw [exec_waitTickResume_eq, execWaitTickResume, decide_eq_true hc, onUnit_true, hstall, hworks, hrun]
  simp only [waitTarget, htick, beq_self_eq_true, Bool.and_self, decide_true, whenOk_true, State.finish]
  rw [if_pos (by omega)]
  rfl

theorem exec_waitTickResume_waits (htick : s.pitch < ((s.cell c).s o.sa.toNat).toNat) :
    exec (.waitTickResume c) s = .next s := by
  rw [exec_waitTickResume_eq, execWaitTickResume, decide_eq_true hc, onUnit_true, hstall]
  simp only [waitTarget, Nat.not_le.mpr htick, decide_false, Bool.and_false, whenOk_false]

end

/-! ### SEAL, SYNC.ABORT, PHASE and HINT -/

theorem exec_seal_leaves (s : State) (c : Nat) (o : ROps) : RLeaves s c (.seal c o) o 0x08 0x02 [o.sa.toNat]
    ((s.fetchCe c).cellSeal c ((s.cell c).s o.sa.toNat).toNat) :=
  rLeaves_of (eff := fun t => .done (t.cellSeal c ((t.cell c).s o.sa.toNat).toNat)) rfl
    (by rw [State.fetched_eq_fetchCe s c rfl, fetchCe_s])

theorem exec_syncAbort_leaves (s : State) (c : Nat) (o : ROps) : RLeaves s c (.syncAbort c o) o 0x08 0x04 []
    ((s.fetchCe c).raiseFlag 8 s.epoch) :=
  rLeaves_of (eff := fun t => .done (t.raiseFlag flagAbort t.epoch)) rfl
    (by rw [State.fetched_eq_fetchCe s c rfl, State.fetchCe_epoch, flagAbort])

theorem exec_phase_leaves (s : State) (c : Nat) (o : ROps) : RLeaves s c (.phase c o) o 0x09 0x00 []
    ((s.fetchCe c).markPhase c (o.x.toNat % 256)) :=
  rLeaves_of (eff := fun t => .done (t.markPhase c (o.x.toNat % 256))) rfl (by rw [State.fetched_eq_fetchCe s c rfl])

theorem exec_hint_leaves (s : State) (c : Nat) (o : ROps) : RLeaves s c (.hint c o) o 0x09 0x01 [o.sa.toNat]
    ((s.fetchCe c).addHint (c / 64) (o.x.toNat % 256) ((s.cell c).s o.sa.toNat).toNat) :=
  rLeaves_of (eff := fun t => .done (t.addHint (dieOf c) (o.x.toNat % 256) ((t.cell c).s o.sa.toNat).toNat)) rfl
    (by rw [State.fetched_eq_fetchCe s c rfl, fetchCe_s, dieOf])

end Sys2Proof.Machine
end

section
/-! PROOF. Marks of a phase and hints of one: the sample, the current phase and the hint queue of a die (R422 to R424). -/

namespace Sys2Proof.Machine

/-! ### Samples and hints of a die -/

/-- The records of samples lie above the registers that say which phase a die is in. -/
theorem State.reg_closeSample (s : State) (d n : Nat) (a : PhaseAcc) {off : Nat} (h : off < 0x21000) :
    (s.closeSample d n a).reg off = s.reg off := by
  have hbase : 0x21000 ≤ if a.locked then Reg.pwrPhl (4 * n) else Reg.pwrPhDur n := by
    unfold Reg.pwrPhl Reg.pwrPhDur
    split <;> omega
  unfold State.closeSample
  split
  · rfl
  · dsimp only
    simp only [State.reg_setFld]
    rw [if_neg (by omega), if_neg (by omega), if_neg (by omega), if_neg (by omega), if_neg (by omega)]

/-- Closing a sample writes registers, as a report may. -/
theorem Reported.closeSample (s : State) (d n : Nat) (a : PhaseAcc) : Reported s (s.closeSample d n a) := by
  unfold State.closeSample
  split
  · exact refl s
  · dsimp only
    exact (setFld ..).trans ((setFld ..).trans ((setFld ..).trans ((setFld ..).trans (setFld ..))))

section
variable (s : State) (d n : Nat) (a : PhaseAcc)

theorem State.hintsOf_closeSample (e : Nat) : (s.closeSample d n a).hintsOf e = s.hintsOf e := by
  rw [State.hintsOf, (Reported.closeSample s d n a).pwr, State.hintsOf]

theorem State.phaseAcc_closeSample (e : Nat) : (s.closeSample d n a).phaseAcc e = s.phaseAcc e := by
  rw [State.phaseAcc, (Reported.closeSample s d n a).pwr, State.phaseAcc]

theorem State.phaseOf_closeSample (hd : d < 8) : (s.closeSample d n a).phaseOf d = s.phaseOf d := by
  rw [State.phaseOf, State.fld, State.reg_closeSample s d n a (by unfold Reg.pwrPhase; omega)]
  rfl

end

/-- The hint queue of a die is stored beside its current phase. -/
@[simp] theorem State.phaseOf_setHints (s : State) (d : Nat) (l : List (Nat × Nat)) :
    (s.setHints d l).phaseOf d = s.phaseOf d :=
  State.fld_setFld_beside _ _ _ (by omega)

@[simp] theorem State.phaseAcc_setHints (s : State) (d e : Nat) (l : List (Nat × Nat)) :
    (s.setHints d l).phaseAcc e = s.phaseAcc e := rfl

@[simp] theorem State.hintsOf_setHints (s : State) (d : Nat) (l : List (Nat × Nat)) : (s.setHints d l).hintsOf d = l :=
  (tabGet_tabSet ..).trans (if_pos rfl)

/-! ### A mark of a phase (R422) -/

/-- The hints that a mark of phase `n` at a tick leaves: those of other phases, and those 1,024 ticks or more away. -/
def keptHints (pitch n : Nat) (l : List (Nat × Nat)) : List (Nat × Nat) :=
  l.filter (fun h => !(h.1 == n && h.2 ≤ pitch + 1024 && pitch < h.2 + 1024))

/-- The rank of the mark that a die has got at the present count is kept. -/
def State.setMark (s : State) (d rank : Nat) : State :=
  { s with pwr := { s.pwr with marks := tabSet (fun _ => (0, 0)) s.pwr.marks d (s.pitch, rank) } }

/-- The present phase of the die of a cell ends: its sample is closed and phase `n` stored. -/
def State.nextPhase (s : State) (c n : Nat) : State :=
  (s.closeSample (dieOf c) (s.phaseOf (dieOf c)) (s.phaseAcc (dieOf c))).setFld (Reg.pwrPhase (dieOf c)) 0 8 n

/-- The die of a cell goes on in phase `n`, whose sample begins now. -/
def State.enterPhase (s : State) (c n : Nat) : State :=
  ((s.nextPhase c n).setPhaseAcc (dieOf c) (s.nextPhase c n).newSample).setMark (dieOf c) (s.markRank c)

@[simp] theorem State.phaseOf_setMark (s : State) (d r e : Nat) : (s.setMark d r).phaseOf e = s.phaseOf e := rfl

@[simp] theorem State.phaseAcc_setMark (s : State) (d r e : Nat) : (s.setMark d r).phaseAcc e = s.phaseAcc e := rfl

@[simp] theorem State.hintsOf_setMark (s : State) (d r e : Nat) : (s.setMark d r).hintsOf e = s.hintsOf e := rfl

@[simp] theorem State.phaseOf_setPhaseAcc (s : State) (d e : Nat) (a : PhaseAcc) :
    (s.setPhaseAcc d a).phaseOf e = s.phaseOf e := rfl

@[simp] theorem State.phaseAcc_setPhaseAcc (s : State) (d : Nat) (a : PhaseAcc) : (s.setPhaseAcc d a).phaseAcc d = a :=
  (tabGet_tabSet ..).trans (if_pos rfl)

@[simp] theorem State.hintsOf_setPhaseAcc (s : State) (d e : Nat) (a : PhaseAcc) :
    (s.setPhaseAcc d a).hintsOf e = s.hintsOf e := rfl

theorem Reported.nextPhase (s : State) (c n : Nat) : Reported s (s.nextPhase c n) := (closeSample ..).trans (setFld ..)

theorem State.hintsOf_enterPhase (s : State) (c n d : Nat) : (s.enterPhase c n).hintsOf d = s.hintsOf d := by
  rw [State.enterPhase, State.hintsOf_setMark, State.hintsOf_setPhaseAcc, State.hintsOf, (Reported.nextPhase s c n).pwr,
    State.hintsOf]

theorem State.phaseOf_enterPhase (s : State) (c : Nat) {n : Nat} (hn : n < 256) :
    (s.enterPhase c n).phaseOf (dieOf c) = n := by
  rw [State.enterPhase, State.phaseOf_setMark, State.phaseOf_setPhaseAcc, State.nextPhase, State.phaseOf,
    State.fld_setFld_self _ _ _ (by omega)]
  exact Nat.mod_eq_of_lt hn

theorem State.phaseAcc_enterPhase (s : State) (c n : Nat) : ((s.enterPhase c n).phaseAcc (dieOf c)).start = s.pitch := by
  rw [State.enterPhase, State.phaseAcc_setMark, State.phaseAcc_setPhaseAcc]
  exact (Reported.nextPhase s c n).pitch

theorem State.sameMemory_enterPhase (s : State) (c n : Nat) : SameMemory s (s.enterPhase c n) :=
  (Reported.nextPhase s c n).sameMemory

section
variable {s : State} {c : Nat} (n : Nat)

theorem State.markPhase_of_outranked (h : s.outranked c = true) : s.markPhase c n =
    (s.closeSample (dieOf c) n s.newSample).setHints (dieOf c) (keptHints s.pitch n (s.hintsOf (dieOf c))) := by
  rw [State.markPhase, if_pos h, State.hintsOf_closeSample, keptHints]

theorem State.markPhase_of_not_outranked (h : s.outranked c = false) : s.markPhase c n =
    (s.enterPhase c n).setHints (dieOf c) (keptHints s.pitch n (s.hintsOf (dieOf c))) := by
  rw [State.markPhase, if_neg (ne_true_of_eq_false h), ← s.hintsOf_enterPhase c n, keptHints,
    ← (Reported.nextPhase s c n).pitch]
  rfl

end

/-- A mark leaves the memories alone and drops the hints of its phase, whether it is outranked or not. -/
theorem State.markPhase_hints (s : State) (c n : Nat) : SameMemory s (s.markPhase c n)
    ∧ (s.markPhase c n).hintsOf (dieOf c) = keptHints s.pitch n (s.hintsOf (dieOf c)) := by
  cases h : s.outranked c with
  | true =>
    rw [State.markPhase_of_outranked n h]
    exact ⟨(Reported.closeSample ..).sameMemory, State.hintsOf_setHints ..⟩
  | false =>
    rw [State.markPhase_of_not_outranked n h]
    exact ⟨s.sameMemory_enterPhase c n, State.hintsOf_setHints ..⟩

/-! ### A hint (R424) -/

section
variable {s : State} {d n t : Nat}

theorem State.addHint_of_stale (h : t ≤ s.pitch ∨ (n, t) ∈ s.hintsOf d) : s.addHint d n t = s := by
  rw [State.addHint, if_pos (by simpa using h)]

theorem State.addHint_of_fresh (hahead : s.pitch < t) (hnew : (n, t) ∉ s.hintsOf d) : s.addHint d n t =
    if 16 ≤ (s.hintsOf d).length then s.bump Reg.pwrHintDrop else s.setHints d (s.hintsOf d ++ [(n, t)]) := by
  rw [State.addHint, if_neg (by simpa [hnew] using hahead)]

end

end Sys2Proof.Machine
end

section
/-! PROOF. The step that a flag belongs to (R259, R271), and with it what the timed and sync class does. -/

namespace Sys2Proof.Machine

section
variable {s : State} (f : BitVec 4) {e : W32}

theorem epoch_ne_next (e : W32) : e + 1 ≠ e := by bv_omega

theorem State.raiseFlag_of_dropped (h : s.stepping = false ∨ (e ≠ s.epoch ∧ e ≠ s.epoch + 1)) :
    s.raiseFlag f e = s.bump Reg.modFlagsDropped := by
  unfold State.raiseFlag nextEpoch
  rcases h with hidle | ⟨hcur, hnext⟩
  · rw [if_neg (ne_true_of_eq_false hidle)]
  · simp only [hcur, hnext, and_false, if_false, ite_self]

variable (hstep : s.stepping = true)
include hstep

theorem State.raiseFlag_in_application_tick (happly : s.atVerdict = true) (he : e = s.epoch ∨ e = s.epoch + 1) :
    s.raiseFlag f e = { s with step :=
      if e = s.epoch then { s.step with early := s.step.early ||| f }
      else { s.step with earlyNext := s.step.earlyNext ||| f } } := by
  unfold State.raiseFlag nextEpoch
  rw [if_pos hstep]
  rcases he with rfl | rfl
  · rw [if_pos ⟨happly, rfl⟩, if_pos rfl]
  · rw [if_neg (fun h => epoch_ne_next _ h.2), if_pos ⟨happly, rfl⟩, if_neg (epoch_ne_next _)]

theorem State.raiseFlag_of_current (happly : ¬s.atVerdict = true) (he : e = s.epoch) :
    s.raiseFlag f e = { s with step :=
      if s.step.mode = .opened ∧ s.pastSeal = false then { s.step with flags := s.step.flags ||| f }
      else { s.step with pend := s.step.pend ||| f } } := by
  unfold State.raiseFlag
  rw [if_pos hstep, if_neg (fun h => happly h.1), if_neg (fun h => happly h.1), if_pos he]
  by_cases hnow : s.step.mode = .opened ∧ s.pastSeal = false
  · rw [if_pos hnow, if_pos (by simpa using hnow)]
  · rw [if_neg hnow, if_neg (by simpa using hnow)]

theorem State.raiseFlag_of_next (happly : ¬s.atVerdict = true) (he : e = s.epoch + 1) :
    s.raiseFlag f e = { s with step := { s.step with pend := s.step.pend ||| f } } := by
  unfold State.raiseFlag nextEpoch
  rw [if_pos hstep, if_neg (fun h => happly h.1), if_neg (fun h => happly h.1), if_neg (he ▸ epoch_ne_next _), if_pos he]

end

/-- Settles O6: each instruction by its effect, a mark by its place in the order of R53, a hint by its age, a flag by its
epoch. -/
theorem tickSealAndMarksAct : Obligations.TickSealAndMarksAct := by
  refine ⟨fun s c o => ⟨exec_tick_completes s c o, exec_waitTick_completes, exec_waitTick_stalls,
      fun hc hworks hrun hstall htick hpc =>
        ⟨_, exec_waitTickResume_goes hc hstall hworks hrun htick hpc, s.goesOn_coreGoes c _⟩,
      fun hstall htick hc => exec_waitTickResume_waits hc hstall htick⟩,
    ⟨fun s c o => ⟨exec_seal_leaves s c o, exec_syncAbort_leaves s c o, exec_phase_leaves s c o, exec_hint_leaves s c o⟩,
      fun s c n hc hn => ?_,
      fun s d n t => ⟨State.addHint_of_stale, fun hahead hnew hroom => ?_, fun hahead hnew hfull => ?_⟩⟩,
    fun s f e => ⟨fun hstep he happly hnow => ?_, fun hstep he happly hnow => ?_, fun hstep he happly => ?_,
      fun hstep he happly => ?_, fun hstep he happly => ?_, fun h => ?_⟩⟩
  · obtain ⟨hmem, hhints⟩ := s.markPhase_hints c n
    refine ⟨fun h => ?_, fun h => ?_, hmem, hhints⟩
    · rw [State.markPhase_of_not_outranked n h]
      exact ⟨(State.phaseOf_setHints ..).trans (s.phaseOf_enterPhase c hn), s.phaseAcc_enterPhase c n⟩
    · rw [State.markPhase_of_outranked n h]
      exact ⟨(State.phaseOf_setHints ..).trans (State.phaseOf_closeSample s _ n _ (Nat.div_lt_of_lt_mul hc)),
        (State.phaseAcc_setHints ..).trans (State.phaseAcc_closeSample ..)⟩
  · rw [State.addHint_of_fresh hahead hnew, if_neg (Nat.not_le.mpr hroom), State.hintsOf_setHints]
  · rw [State.addHint_of_fresh hahead hnew, if_pos hfull]
  · rw [State.raiseFlag_of_current f hstep happly he, if_pos hnow]
  · rw [State.raiseFlag_of_current f hstep happly he, if_neg hnow]
  · rw [State.raiseFlag_of_next f hstep happly he]
  · rw [State.raiseFlag_in_application_tick f hstep happly (.inl he), if_pos he]
  · rw [State.raiseFlag_in_application_tick f hstep happly (.inr he), if_neg (he ▸ epoch_ne_next _)]
  · rw [State.raiseFlag_of_dropped f h, State.reg_bump, if_pos rfl, BitVec.toNat_ofNat, Nat.mod_eq_of_lt (by omega)]
    exact ⟨rfl, rfl⟩

end Sys2Proof.Machine
end

section
/-! PROOF. Timed launch: LAUNCH.AT queues its action, and LAUNCH_FIRE hands the next due entry to its unit (R45 to R48,
R398, R399). -/

namespace Sys2Proof.Machine

/-! ### The state in which LAUNCH.AT queues its action: both its words fetched, the store buffer written out -/

theorem State.raceRegs_pitch (hit : Nat → List Nat) (s : State) (c : Nat) : (State.raceRegs hit s c).pitch = s.pitch := by
  unfold State.raceRegs
  dsimp only
  split
  · split
    · split
      · rfl
      · rfl
    · rfl
  · rfl

theorem State.raceRegs_fold_pitch (hit : Nat → List Nat) : ∀ (l : List Nat) (s : State),
    (l.foldl (State.raceRegs hit) s).pitch = s.pitch
  | [], _ => rfl
  | c :: l, s => (raceRegs_fold_pitch hit l _).trans (raceRegs_pitch hit s c)

theorem State.spadWrite_pitch (s : State) (a : Nat) (bs : List Byte) : (s.spadWrite a bs).pitch = s.pitch := by
  show (s.raceWrite a bs.length).pitch = s.pitch
  unfold State.raceWrite
  split
  · rfl
  · exact State.raceRegs_fold_pitch _ _ s

theorem State.spadWrites_pitch : ∀ (l : List StoreEntry) (s : State),
    (l.foldl (fun t e => t.spadWrite e.addr e.bytes) s).pitch = s.pitch
  | [], _ => rfl
  | e :: l, s => (spadWrites_pitch l _).trans (s.spadWrite_pitch e.addr e.bytes)

theorem State.fetched_pitch (s : State) (c cls opc : Nat) : (s.fetched c cls opc).pitch = s.pitch := by
  unfold State.fetched State.drainStores
  dsimp only
  split
  · split
    · exact s.fetchCe_pitch c
    · exact (State.spadWrites_pitch _ _).trans (s.fetchCe_pitch c)
  · exact s.fetchCe_pitch c

theorem State.fetched_imemErr (s : State) (c cls opc : Nat) :
    ((s.fetched c cls opc).cell c).imemErr = (s.cell c).imemErr := by
  have hfetch : ((s.fetchCe c).cell c).imemErr = (s.cell c).imemErr := by rw [State.fetchCe_cell_self]
  unfold State.fetched
  split
  · obtain ⟨r, t, w, h⟩ := drainStores_cell (s.fetchCe c) c c
    rw [h]; exact hfetch
  · exact hfetch

theorem State.fetchNext_cell_self (s : State) (c : Nat) :
    (s.fetchNext c).cell c = { s.cell c with imemCe := ((s.fetchNext c).cell c).imemCe } := by
  have h := s.correctWord_cell c ((s.cell c).pc.toNat + 1) c
  rwa [if_pos rfl] at h

theorem State.fetchNext_eq (s : State) (c : Nat) :
    s.fetchNext c = { s with cells := (s.fetchNext c).cells, regs := (s.fetchNext c).regs } :=
  s.correctWord_eq c _

theorem State.fetchNext_pitch (s : State) (c : Nat) : (s.fetchNext c).pitch = s.pitch := by rw [State.fetchNext_eq]

/-- An instruction issues all the same when the word after it is fetched with it. -/
theorem Issues.fetchNext {s : State} {c : Nat} {i : Instr} {gneg : Bool} {gp : BitVec 3} {uses : List Nat}
    (h : Issues s c i gneg gp uses) : Issues (s.fetchNext c) c i gneg gp uses := by
  have hworks : (s.fetchNext c).works = s.works := by rw [State.fetchNext_eq]; rfl
  unfold Issues State.canIssue at h ⊢
  rw [State.fetchNext_cell_self, hworks]
  exact h

/-- The state in which a LAUNCH.AT on cell `c` queues its action. -/
def State.launchState (s : State) (c : Nat) : State := (s.fetchNext c).fetched c 0x08 0x00

section
variable (s : State) (c : Nat)

theorem State.launchState_pitch : (s.launchState c).pitch = s.pitch :=
  (State.fetched_pitch ..).trans (s.fetchNext_pitch c)

theorem State.launchState_pc : ((s.launchState c).cell c).pc = (s.cell c).pc :=
  (fetched_pc ..).trans (by rw [State.fetchNext_cell_self])

theorem State.launchState_imemErr : ((s.launchState c).cell c).imemErr = (s.cell c).imemErr :=
  (State.fetched_imemErr ..).trans (by rw [State.fetchNext_cell_self])

theorem State.launchState_s (n : Nat) : ((s.launchState c).cell c).s n = (s.cell c).s n :=
  (fetched_s ..).trans (by rw [State.fetchNext_cell_self]; rfl)

end

/-! ### LAUNCH.AT (R45, R46, R398, R399) -/

/-- What LAUNCH.AT does once it issues: its checks in their order, then the action goes to the launch queue. -/
def launchEff (c : Nat) (o : ROps) (w : W64) (t : State) : Eff :=
  let k := t.cell c
  if k.pc = 4095 then .exc excBrTarget 0
  else if k.imemErr.contains (k.pc.toNat + 1) then .exc excImemUncorr 0
  else if actionBad k (wordClass w) (wordOpc w) (wordR w) then .exc excIllegalAction 0
  else if launchRoom ≤ k.lq.length then .stall
  else queueAction c (k.s o.sa.toNat).toNat (wordClass w) (wordOpc w) (wordR w) t

theorem exec_launchAt_eq (c : Nat) (o : ROps) (w : W64) (s : State) : exec (.launchAt c o w) s =
    onUnit (c < 512) (whenOk (s.canIssue c (.launchAt c o w)) s
      ((s.fetchNext c).issue c (.launchAt c o w) o.gneg o.gp 0x08 0x00 2
        (rLegal 0x08 0x00 o && (((s.cell c).pc.toNat == 4095 || (s.cell c).imemErr.contains ((s.cell c).pc.toNat + 1))
          || (s.cell c).actionLegal w))
        (o.sa.toNat :: actionUses (s.cell c) (wordClass w) (wordOpc w) (wordR w)) (launchEff c o w))) := by rfl

section
variable {s : State} {c : Nat} {o : ROps} {w : W64}

/-- Where the action may be one and the queue has room, LAUNCH.AT comes to the queueing of its action. -/
theorem launchEff_launchState (hpc : (s.cell c).pc.toNat < 4094)
    (herr : (s.cell c).imemErr.contains ((s.cell c).pc.toNat + 1) = false)
    (hbad : actionBad ((s.launchState c).cell c) (wordClass w) (wordOpc w) (wordR w) = false)
    (hroom : ((s.launchState c).cell c).lq.length < 16) : launchEff c o w (s.launchState c) =
      queueAction c ((s.cell c).s o.sa.toNat).toNat (wordClass w) (wordOpc w) (wordR w) (s.launchState c) := by
  have hlast : (s.cell c).pc ≠ 4095 := by rintro h; rw [h] at hpc; exact absurd hpc (by decide)
  unfold launchEff
  dsimp only
  rw [State.launchState_pc, State.launchState_imemErr, State.launchState_s, if_neg hlast, herr, hbad,
    if_neg Bool.false_ne_true, if_neg Bool.false_ne_true, launchRoom, if_neg (Nat.not_le.mpr hroom)]

/-- LAUNCH.AT that issues with a legal action word goes on after that word once its effect is done. -/
theorem exec_launchAt_done {t : State}
    (hissues : Issues s c (.launchAt c o w) o.gneg o.gp
      (o.sa.toNat :: actionUses (s.cell c) (wordClass w) (wordOpc w) (wordR w)))
    (hlegal : rLegal 0x08 0x00 o = true) (haction : (s.cell c).actionLegal w = true) (hpc : (s.cell c).pc.toNat < 4094)
    (heff : launchEff c o w (s.launchState c) = .done t) :
    exec (.launchAt c o w) s = .next ((t.setPc c ((s.cell c).pc.toNat + 2)).countInsn c) := by
  have hnext := coreStep_issues hissues.fetchNext 0x08 0x00 2 (launchEff c o w)
  obtain ⟨-, hcan', -⟩ := hissues.fetchNext
  obtain ⟨hc, hcan, -⟩ := hissues
  rw [coreStep, decide_eq_true hc, onUnit_true, hcan', whenOk_true] at hnext
  rw [exec_launchAt_eq, hlegal, haction, Bool.or_true, Bool.true_and, decide_eq_true hc, onUnit_true, hcan, whenOk_true,
    hnext, ← State.launchState, heff, State.finish, State.launchState_pc, if_pos (by omega)]

end

/-! ### PHASE as an action (R47) -/

/-- The launch queue of a cell with an action for a tick put behind its entries; one for a tick that is not ahead is
late. -/
def State.withLaunch (s : State) (c target : Nat) (w : Work) : State :=
  s.setCell c { s.cell c with lq := (s.cell c).lq ++ [(⟨target, decide (target ≤ s.pitch), w⟩ : LaunchEntry)] }

theorem queueAction_phase (c target : Nat) (o : ROps) (s : State) :
    queueAction c target 0x09 0x00 o s = .done (s.queueWork c target (.phase (o.x.toNat % 256))) := rfl

theorem State.queueWork_of_ahead {s : State} {target : Nat} (c : Nat) (w : Work) (h : s.pitch < target) :
    s.queueWork c target w = s.withLaunch c target w :=
  if_neg (Nat.not_le.mpr h)

theorem State.queueWork_of_late {s : State} {target : Nat} (c : Nat) (w : Work) (h : target ≤ s.pitch) :
    s.queueWork c target w = State.fireLate c ((s.cell c).lq.length + 1) (s.withLaunch c target w) :=
  if_pos h

/-! ### LAUNCH_FIRE (R47, R48) -/

theorem exec_launchFire_eq (c : Nat) (s : State) : exec (.launchFire c) s = execLaunchFire c s := by rfl

section
variable {s : State} {c : Nat} {e : LaunchEntry} (hc : c < 512) (hworks : s.works = true)
  (hpick : pickLaunch s.pitch (s.cell c).lq = some e)
include hc hworks hpick

theorem exec_launchFire_of_pick : exec (.launchFire c) s =
    .next (State.fireLate c ((s.fireEntry c e).cell c).lq.length (s.fireEntry c e)) := by
  rw [exec_launchFire_eq, execLaunchFire, decide_eq_true hc, onUnit_true, hpick, hworks]
  rfl

end

/-- Nothing fires late on a cell whose next due entry, if it has one, is on time. -/
theorem State.fireLate_of_none_late {s : State} {c : Nat}
    (h : ∀ x, pickLaunch s.pitch (s.cell c).lq = some x → x.isLate s.pitch = false) : ∀ n, State.fireLate c n s = s
  | 0 => rfl
  | n + 1 => by
    unfold State.fireLate
    cases hpick : pickLaunch s.pitch (s.cell c).lq with
    | none => rfl
    | some x =>
      dsimp only
      rw [h x hpick]
      rfl

theorem State.fireWork_altready (s : State) (c : Nat) (b : Bool) :
    s.fireWork c (.altready b) = s.setCell c { s.cell c with altReady := b } := rfl

/-- A state with an entry taken off the launch queue of a cell, and counted where it is late. -/
def State.takeLaunch (s : State) (c : Nat) (e : LaunchEntry) : State :=
  let u := s.setCell c { s.cell c with lq := (s.cell c).lq.erase e }
  if e.isLate s.pitch then (u.bump (Reg.cellLaunchLate c)).bump Reg.pitLaunchLate else u

/-- The two counters of late launches are registers. -/
theorem Reported.takeLaunch (s : State) (c : Nat) (e : LaunchEntry) :
    Reported (s.setCell c { s.cell c with lq := (s.cell c).lq.erase e }) (s.takeLaunch c e) :=
  .ite ((bump ..).trans (bump ..)) (refl _)

theorem State.takeLaunch_cell (s : State) (c : Nat) (e : LaunchEntry) (d : Nat) :
    (s.takeLaunch c e).cell d = if d = c then { s.cell c with lq := (s.cell c).lq.erase e } else s.cell d := by
  rw [(Reported.takeLaunch s c e).cell, State.cell_setCell]

theorem State.fireEntry_eq (s : State) (c : Nat) (e : LaunchEntry) :
    s.fireEntry c e = (s.takeLaunch c e).fireWork c e.work := rfl

/-- What the firing of PL.ALTREADY leaves: the entry is gone from its queue, ALTREADY stored, and nothing but the cell and,
for a late entry, two counters has changed. -/
theorem State.fireEntry_altready (s : State) (c : Nat) {e : LaunchEntry} {b : Bool} (he : e.work = .altready b) :
    let t := s.fireEntry c e
    t.cell c = { s.cell c with lq := (s.cell c).lq.erase e, altReady := b } ∧ OtherCells s t c
      ∧ t.pitch = s.pitch ∧ t.spad = s.spad ∧ t.hbm = s.hbm := by
  have htake := Reported.takeLaunch s c e
  rw [State.fireEntry_eq, he, State.fireWork_altready]
  refine ⟨?_, fun d hd => ?_, htake.pitch, htake.spad, htake.hbm⟩
  · rw [State.cell_setCell, if_pos rfl, State.takeLaunch_cell, if_pos rfl]
  · rw [State.cell_setCell, if_neg hd, State.takeLaunch_cell, if_neg hd]

/-- An entry that is due on time in the tick goes before any that is not. -/
theorem pickLaunch_of_on_time {pitch : Nat} {l : List LaunchEntry} {e x : LaunchEntry} (hx : x ∈ l)
    (htarget : x.target = pitch) (hlate : x.late = false) (hpick : pickLaunch pitch l = some e) : e.target = pitch ∧ e.late = false := by
  unfold pickLaunch at hpick
  cases hfind : l.find? (fun e => e.target == pitch && !e.late) with
  | none =>
    have hnone := List.find?_eq_none.mp hfind x hx
    simp [htarget, hlate] at hnone
  | some y =>
    rw [hfind] at hpick
    cases hpick
    simpa using List.find?_some hfind

/-- Settles O7: the queueing by the checks of LAUNCH.AT, the firing by the entry picked. -/
theorem launchQueuesAndFires : Obligations.LaunchQueuesAndFires := by
  refine ⟨fun s c o w hissues hlegal haction hpc herr hbad hroom => ?_,
    fun s c e hc hworks hpick => ⟨?_, fun b hb hnext => ?_⟩, fun pitch l e x => pickLaunch_of_on_time⟩
  · have heff := launchEff_launchState (o := o) hpc herr hbad hroom
    refine ⟨fun t ht => exec_launchAt_done hissues hlegal haction hpc (heff.trans ht), fun hcls hopc => ?_⟩
    rw [hcls, hopc, queueAction_phase] at heff
    have hpitch := s.launchState_pitch c
    refine ⟨fun hahead => ?_, fun hlate => ?_⟩
    · rw [State.queueWork_of_ahead c _ (hpitch.symm ▸ hahead), State.withLaunch, hpitch] at heff
      exact exec_launchAt_done hissues hlegal haction hpc heff
    · rw [State.queueWork_of_late c _ (hpitch.symm ▸ hlate), State.withLaunch, hpitch] at heff
      exact exec_launchAt_done hissues hlegal haction hpc heff
  · exact exec_launchFire_of_pick hc hworks hpick
  · obtain ⟨hcell, hother, hpitch, hspad, hhbm⟩ := s.fireEntry_altready c hb
    have hlate : ∀ x, pickLaunch (s.fireEntry c e).pitch ((s.fireEntry c e).cell c).lq = some x →
        x.isLate (s.fireEntry c e).pitch = false := by
      rw [hcell, hpitch]; exact hnext
    refine ⟨s.fireEntry c e, ?_, ?_, ?_, hother, hspad, hhbm⟩
    · rw [exec_launchFire_of_pick hc hworks hpick, State.fireLate_of_none_late hlate]
    · rw [hcell]
    · rw [hcell]

end Sys2Proof.Machine
end

section
/-! PROOF. Command queues: enabling, draining, doorbells, and the fetch of the descriptor at the head (R53, R454,
R455). -/

namespace Sys2Proof.Machine

theorem exec_queueEnable_eq (q : Nat) (s : State) : exec (.queueEnable q) s = execQueueEnable q s := by rfl

theorem exec_queueDisable_eq (q : Nat) (s : State) : exec (.queueDisable q) s = execQueueDisable q s := by rfl

theorem exec_doorbell_eq (q tail : Nat) (s : State) : exec (.doorbell q tail) s = execDoorbell q tail s := by rfl

theorem exec_hqFetchTimeout_eq (q : Nat) (s : State) : exec (.hqFetchTimeout q) s = execHqFetchTimeout q s := by rfl

theorem exec_descriptorFetch_eq (st : Nat) (words : List W32) (s : State) :
    exec (.descriptorFetch st words) s = execDescriptorFetch st words s := by rfl

/-! ### Enabling, draining and the doorbell (R455) -/

theorem State.queueSettle_of_drained {s : State} {q : Nat} (hdrain : (s.queue q).draining = true)
    (hempty : (s.queue q).started = []) : s.queueSettle q = (s.setQueue q {}).setFld (Reg.hqQtail q) 0 16 0 :=
  if_pos ⟨hdrain, by rw [hempty]; rfl⟩

theorem State.queueSettle_of_started {s : State} {q : Nat} (h : (s.queue q).started ≠ []) : s.queueSettle q = s :=
  if_neg (fun hd => h (List.isEmpty_iff.mp hd.2))

/-- Of the two registers of a queue, one keeps its fields while the other is written. -/
theorem State.fld_qctrl_setFld_qtail (s : State) (q lo w v lo' w' : Nat) :
    (s.setFld (Reg.hqQtail q) lo w v).fld (Reg.hqQctrl q) lo' w' = s.fld (Reg.hqQctrl q) lo' w' := by
  rw [State.fld, State.reg_setFld_of_ne _ _ _ _ _ (by unfold Reg.hqQctrl Reg.hqQtail; omega), State.fld]

/-- A ring has at most 2^15 slots, so every index of it is a value of HQ_QTAIL. -/
theorem State.queueSize_le (s : State) (q : Nat) : s.queueSize q ≤ 2 ^ 15 :=
  Nat.pow_le_pow_right (by decide) (Nat.le_of_lt_succ (Nat.mod_lt _ (by decide)))

section
variable {s : State} {q : Nat} (hq : q < 64) (hup : s.up = true)
include hq hup

theorem exec_queueEnable_of_disabled (h : (s.queue q).mode = .disabled) : exec (.queueEnable q) s =
    .next ((s.setFld (Reg.hqQctrl q) 0 1 1).setQueue q { mode := .running }) := by
  rw [exec_queueEnable_eq, execQueueEnable, decide_eq_true hq, onUnit_true, hup, whenOk_true, if_pos h]

/-- EN = 0 lets the started descriptors of a queue run out. -/
theorem exec_queueDisable_of_enabled (h : (s.queue q).mode ≠ .disabled) : exec (.queueDisable q) s =
    .next (((s.setFld (Reg.hqQctrl q) 0 1 0).setQueue q { s.queue q with draining := true }).queueSettle q) := by
  rw [exec_queueDisable_eq, execQueueDisable, decide_eq_true hq, onUnit_true, hup, whenOk_true, if_neg h]

theorem exec_queueDisable_of_idle (h : (s.queue q).mode ≠ .disabled) (hidle : (s.queue q).started = []) :
    ∃ t, exec (.queueDisable q) s = .next t ∧ t.queue q = {} ∧ t.fld (Reg.hqQctrl q) 0 1 = 0
      ∧ t.fld (Reg.hqQtail q) 0 16 = 0 := by
  refine ⟨_, exec_queueDisable_of_enabled hq hup h, ?_⟩
  rw [State.queueSettle_of_drained (by rw [State.queue_setQueue, if_pos rfl])
    (by rw [State.queue_setQueue, if_pos rfl, hidle])]
  refine ⟨?_, ?_, State.fld_setFld_self _ _ _ (by omega)⟩
  · rw [State.queue_setFld, State.queue_setQueue, if_pos rfl]
  · rw [State.fld_qctrl_setFld_qtail, State.fld_setQueue, State.fld_setQueue,
      State.fld_setFld_self _ _ _ (by omega), Nat.zero_mod]

theorem exec_queueDisable_of_busy (h : (s.queue q).mode ≠ .disabled) (hbusy : (s.queue q).started ≠ []) :
    ∃ t, exec (.queueDisable q) s = .next t ∧ t.queue q = { s.queue q with draining := true }
      ∧ t.fld (Reg.hqQctrl q) 0 1 = 0 := by
  refine ⟨_, exec_queueDisable_of_enabled hq hup h, ?_⟩
  rw [State.queueSettle_of_started (by rw [State.queue_setQueue, if_pos rfl]; exact hbusy)]
  refine ⟨by rw [State.queue_setQueue, if_pos rfl], ?_⟩
  rw [State.fld_setQueue, State.fld_setFld_self _ _ _ (by omega), Nat.zero_mod]

omit hq hup in
/-- A doorbell stores the tail, and counts a clamp where it lies beyond the queue. -/
theorem Reported.ringDoorbell (s : State) (q tail : Nat) : Reported s (s.ringDoorbell q tail) :=
  (setFld ..).trans (.ite (refl _) (clampReg ..))

omit hup in
theorem State.fld_ringDoorbell (s : State) (tail : Nat) :
    (s.ringDoorbell q tail).fld (Reg.hqQtail q) 0 16 = min tail (s.queueSize q - 1) := by
  have hsize := s.queueSize_le q
  have hstored : (s.setFld (Reg.hqQtail q) 0 16 (min tail (s.queueSize q - 1))).fld (Reg.hqQtail q) 0 16
      = min tail (s.queueSize q - 1) := by
    rw [State.fld_setFld_self _ _ _ (by omega)]
    exact Nat.mod_eq_of_lt (by omega)
  have hring : Reg.hqQtail q ∉ Reg.bootClamps :: clampRing.written ++ evtRing.written := by
    simp only [RingRegs.written, clampRing, evtRing, List.cons_append, List.nil_append, List.mem_cons, List.not_mem_nil,
      or_false, not_or, Reg.hqQtail, Reg.bootClamps, Reg.bootCringTail, Reg.bootCringLost, Reg.msixPending, Reg.evtTail,
      Reg.evtLost]
    omega
  unfold State.ringDoorbell
  dsimp only
  split
  · exact hstored
  · rw [State.fld, State.reg_clampReg hring]
    exact hstored

theorem exec_doorbell_tail {tail : Nat} (h : tail < 65536) :
    exec (.doorbell q tail) s = .next (s.ringDoorbell q tail) := by
  rw [exec_doorbell_eq, execDoorbell, decide_eq_true hq, onUnit_true, hup, whenOk_true,
    Nat.mod_eq_of_lt (b := 2 ^ 16) h]

end

/-! ### Fetching (R454, R455) -/

@[simp] theorem State.queue_readDesc (s : State) (q p : Nat) : (s.readDesc q).queue p = s.queue p := rfl

/-- A queue whose read fails stops with the fault of the read. -/
theorem State.queue_fetchFailed (s : State) (q fault : Nat) :
    (s.fetchFailed q fault).queue q = { s.queue q with mode := .stopped, fault := fault } := by
  rw [State.fetchFailed, (Reported.report ..).queue, State.queue_bump, State.queue_setQueue, if_pos rfl]

/-- A read that fails is counted in HQ_HOST_ERR. -/
theorem State.hostErr_fetchFailed (s : State) (q fault : Nat) :
    ((s.fetchFailed q fault).reg Reg.hqHostErr).toNat = min ((s.reg Reg.hqHostErr).toNat + 1) 0xFFFFFFFF := by
  rw [State.fetchFailed, State.reg_report (by decide), State.reg_bump, if_pos rfl, State.reg_setQueue, BitVec.toNat_ofNat,
    Nat.mod_eq_of_lt (by omega)]

/-- The words of a descriptor that needs no clamp are applied as read. -/
theorem hqApplied_of_no_items {words : List W32} (h : hqItems (words.map BitVec.toNat) = []) :
    (hqApplied (words.map BitVec.toNat)).map (BitVec.ofNat 32) = words := by
  rw [hqApplied, h, List.foldl_nil, List.map_map]
  exact (List.map_congr_left fun w _ => (BitVec.ofNat_toNat 32 w).trans (BitVec.setWidth_eq w)).trans (List.map_id words)

/-- A descriptor of a known kind that needs no clamp joins the started ones, and the head goes on. -/
theorem State.queue_startDesc (s : State) (q : Nat) {words : List W32} (hkind : wfield (words.map BitVec.toNat) 1 0 8 ≤ 4)
    (hitems : hqItems (words.map BitVec.toNat) = []) :
    (s.startDesc q (words.map BitVec.toNat)).queue q = { s.queue q with
      head := ((s.queue q).head + 1) % s.queueSize q,
      started := (s.queue q).started ++ [{ slot := (s.queue q).head, words := words }], fenced := false } := by
  unfold State.startDesc
  dsimp only
  rw [if_pos hkind, State.queue_setQueue, if_pos rfl, (Reported.clampRead ..).queue, hqApplied_of_no_items hitems]

section
variable {s : State} {q : Nat} (hup : s.up = true)
include hup

theorem exec_hqFetchTimeout_of_ready (hq : q < 64) (hready : s.queueReady q = true) :
    exec (.hqFetchTimeout q) s = .next ((s.readDesc q).fetchFailed q 3) := by
  rw [exec_hqFetchTimeout_eq, execHqFetchTimeout, decide_eq_true hq, onUnit_true, hup, hready, Bool.and_self, whenOk_true]

/-- A fetch serves the queue that the arbiter picks: its read fails, its fence waits, or its descriptor starts. -/
theorem exec_descriptorFetch_of_pick (hpick : arbiter 64 s.pitch s.queueReady = some q) (st : Nat) (words : List W32) :
    exec (.descriptorFetch st words) s = .next
      (if st ≠ 0 then (s.readDesc q).fetchFailed q (min st 3)
       else if wfield (words.map BitVec.toNat) 1 8 1 = 1 ∧ (s.queue q).started ≠ [] then
         (s.readDesc q).setQueue q { s.queue q with fenced := true }
       else (s.readDesc q).startDesc q (words.map BitVec.toNat)) := by
  rw [exec_descriptorFetch_eq, execDescriptorFetch, hup, whenOk_true, hpick]
  simp only [State.queue_readDesc, List.isEmpty_eq_false_iff]

end

/-- Settles O39: each command on a queue that is there comes to its case, and a fetch to the queue picked. -/
theorem queuesFetchInOrder : Obligations.QueuesFetchInOrder := by
  intro s q hq hup
  refine ⟨fun h => ⟨_, exec_queueEnable_of_disabled hq hup h, ?_, ?_⟩, exec_queueDisable_of_idle hq hup,
    exec_queueDisable_of_busy hq hup, fun tail htail => ⟨_, exec_doorbell_tail hq hup htail,
      (Reported.ringDoorbell s q tail).queues, s.fld_ringDoorbell hq tail⟩,
    fun hready => ⟨_, exec_hqFetchTimeout_of_ready hup hq hready, State.queue_fetchFailed ..⟩,
    fun hpick words => ⟨fun st hst => ⟨_, exec_descriptorFetch_of_pick hup hpick st words, ?_⟩, fun hfence hbusy => ?_,
      fun hfence hkind hitems => ⟨_, exec_descriptorFetch_of_pick hup hpick 0 words, ?_⟩⟩⟩
  · rw [State.queue_setQueue, if_pos rfl]
  · rw [State.fld_setQueue, State.fld_setFld_self _ _ _ (by omega)]
    rfl
  · rw [if_pos hst]
    exact ⟨State.queue_fetchFailed .., State.hostErr_fetchFailed ..⟩
  · rw [exec_descriptorFetch_of_pick hup hpick, if_neg (fun h => h rfl), if_pos ⟨hfence, hbusy⟩]
  · have hgo : ¬(wfield (words.map BitVec.toNat) 1 8 1 = 1 ∧ (s.queue q).started ≠ []) := by
      rintro ⟨h1, hbusy⟩
      rcases hfence with h0 | hidle
      · omega
      · exact hbusy hidle
    rw [if_neg (fun h => h rfl), if_neg hgo, State.queue_startDesc _ q hkind hitems]
    rfl

end Sys2Proof.Machine
end

section
/-! PROOF. Moving the pitch counter where no launch waits or the count does not go forward (R36, R38, R47). -/

namespace Sys2Proof.Machine

theorem sumNat_eq_sum (l : List Nat) : sumNat l = l.sum := List.sum_eq_foldl.symm

/-- No launch waits where every launch queue is empty. -/
theorem State.launches_eq_zero {s : State} : s.launches = 0 ↔ ∀ p ∈ s.cells, p.2.lq = [] := by
  rw [State.launches, sumNat_eq_sum, List.sum_eq_zero_iff_forall_eq_nat, List.forall_mem_map]
  simp only [List.length_eq_zero_iff]

/-- Marking the entries that the count passes over does not put any into a queue. -/
theorem State.launches_mapCells_passLaunches {s : State} (old new : Nat) (h : s.launches = 0) :
    (s.mapCells (Cell.passLaunches old new)).launches = 0 := by
  rw [State.launches_eq_zero] at h ⊢
  intro p hp
  obtain ⟨r, hr, rfl⟩ := List.mem_map.mp (List.mem_of_mem_filter hp)
  show (r.2.lq.map _) = []
  rw [h r hr, List.map_nil]

/-- A step of the count that passes no launch over moves the count, marks cells, and reports. -/
theorem State.setCount_of_quiet {s : State} {new : Nat} (h : new ≤ s.pitch ∨ s.launches = 0) : ∃ cells, s.setCount new =
    State.report { s with pitch := new, cells := cells } 0x0104 unitMgmt (((new : Int) - s.pitch) % 2 ^ 32).toNat := by
  by_cases hlt : s.pitch < new
  · have hzero := State.launches_mapCells_passLaunches (s := { s with pitch := new }) s.pitch new
      (h.resolve_left (Nat.not_le.mpr hlt))
    refine ⟨(({ s with pitch := new } : State).mapCells (Cell.passLaunches s.pitch new)).cells, ?_⟩
    unfold State.setCount
    dsimp only
    rw [if_pos hlt, State.launches, (Reported.report ..).cells, ← State.launches, hzero]
    exact ite_self _
  · refine ⟨s.cells, ?_⟩
    unfold State.setCount
    dsimp only
    rw [if_neg hlt, if_neg (fun hw => hlt hw.1)]

section
variable {s : State} {new : Nat} (h : new ≤ s.pitch ∨ s.launches = 0)
include h

theorem State.setCount_pitch : (s.setCount new).pitch = new := by
  obtain ⟨cells, e⟩ := State.setCount_of_quiet h
  rw [e, (Reported.report ..).pitch]

theorem State.setCount_pit : (s.setCount new).pit = s.pit := by
  obtain ⟨cells, e⟩ := State.setCount_of_quiet h
  rw [e, (Reported.report ..).pit]

theorem State.setCount_step : (s.setCount new).step = s.step := by
  obtain ⟨cells, e⟩ := State.setCount_of_quiet h
  rw [e, (Reported.report ..).step]

theorem State.setCount_reg {off : Nat} (hoff : off ∉ evtRing.written) : (s.setCount new).reg off = s.reg off := by
  obtain ⟨cells, e⟩ := State.setCount_of_quiet h
  rw [e, State.reg_report hoff]
  rfl

theorem State.sameMemory_setCount : SameMemory s (s.setCount new) := by
  obtain ⟨cells, e⟩ := State.setCount_of_quiet h
  rw [e]
  exact (Reported.report { s with pitch := new, cells := cells } ..).sameMemory

end

theorem exec_pitCmdLoad_eq (s : State) : exec .pitCmdLoad s = execPitCmdLoad s := by rfl

theorem exec_pitCmdLoad_up {s : State} (hup : s.up = true) : exec .pitCmdLoad s =
    .next (if s.isMaster then s.setCount (s.reg64 Reg.pitSetLo Reg.pitSetHi) else s) := by
  rw [exec_pitCmdLoad_eq, execPitCmdLoad, hup, Bool.true_and]
  rfl

end Sys2Proof.Machine
end

section
/-! PROOF. Guyline and timing cells that leave on a port (R40, R337, R338). -/

namespace Sys2Proof.Machine

/-- The count stands, and of the alignment at most t3 has changed, which is the departure of a DELAY_REQ. -/
def PitKept (s t : State) : Prop := t.pitch = s.pitch ∧ t.pit = { s.pit with t3 := t.pit.t3 }

namespace PitKept

theorem refl (s : State) : PitKept s s := ⟨rfl, rfl⟩

theorem trans {s t u : State} (h : PitKept s t) (g : PitKept t u) : PitKept s u := by
  obtain ⟨hpitch, hpit⟩ := h
  obtain ⟨gpitch, gpit⟩ := g
  exact ⟨gpitch.trans hpitch, by rw [gpit, hpit]⟩

theorem of_reported {s t : State} (h : Reported s t) : PitKept s t := ⟨h.pitch, by rw [h.pit]⟩

theorem foldl {f : State → Nat → State} (hf : ∀ s p, PitKept s (f s p)) :
    ∀ (l : List Nat) (s : State), PitKept s (l.foldl f s)
  | [], s => refl s
  | p :: l, s => (hf s p).trans (foldl hf l (f s p))

theorem setPort (s : State) (p : Nat) (q : Port) : PitKept s (s.setPort p q) := ⟨rfl, rfl⟩

/-- Both copies of a cell leave under the next number of the port. -/
theorem send (s : State) (p : Nat) (a b : Output) : PitKept s (((s.takeSeq p).2.emit a).emit b) := ⟨rfl, rfl⟩

theorem setT3 (s : State) (x : Option Nat) : PitKept s { s with pit := { s.pit with t3 := x } } := ⟨rfl, rfl⟩

theorem stampNow (s : State) : PitKept s s.stampNow.2 := ⟨rfl, rfl⟩

theorem emitGuy (s : State) (p : Nat) : ∀ g : GuyOut, PitKept s (s.emitGuy p g)
  | .cell _ _ => send ..
  | .time kind t4 => by
    have hstamp : PitKept s (if kind = 2 then (t4, s) else s.stampNow).2 := by
      split
      · exact refl s
      · exact stampNow s
    exact (hstamp.trans (iteInduction (fun _ => setT3 ..) (fun _ => refl _))).trans (send ..)

theorem pumpGuy (p : Nat) : ∀ (n : Nat) (s : State), PitKept s (State.pumpGuy p n s)
  | 0, s => refl s
  | n + 1, s => by
    unfold State.pumpGuy
    dsimp only
    split
    · exact refl s
    · split
      · exact ((setPort ..).trans (emitGuy ..)).trans (pumpGuy p n _)
      · exact refl s

theorem queueCell (s : State) (p : Nat) (g : GuyOut) : PitKept s (s.queueCell p g) := by
  unfold State.queueCell
  split
  · exact (setPort ..).trans (pumpGuy ..)
  · exact refl s

theorem guyMissed (s : State) (p : Nat) : PitKept s (s.guyMissed p) := by
  unfold State.guyMissed
  dsimp only
  split
  · split
    · exact (setPort ..).trans (of_reported (.report ..))
    · exact setPort ..
  · exact refl s

end PitKept

/-- The only cell that waits on a port leaves where the port has room for one. -/
theorem State.pumpGuy_one {s : State} {p : Nat} {g : GuyOut} (hq : (s.port p).guyQ = [g])
    (hroom : (s.port p).guyRoom s.pitch = true) :
    ∃ fab, State.pumpGuy p 1 s = State.emitGuy { s with fab := fab } p g := by
  unfold State.pumpGuy
  dsimp only
  rw [hq]
  dsimp only
  rw [if_pos hroom]
  exact ⟨_, rfl⟩

/-- A cell that is ready on an UP port with nothing before it and room for one leaves at once. -/
theorem State.queueCell_at_once {s : State} {p : Nat} (g : GuyOut) (hup : s.portUp p = true) (hq : (s.port p).guyQ = [])
    (hroom : (s.port p).guyRoom s.pitch = true) : ∃ fab, s.queueCell p g = State.emitGuy { s with fab := fab } p g := by
  have hport : (s.setPort p { s.port p with guyQ := [g] }).port p = { s.port p with guyQ := [g] } := by
    rw [State.port_setPort, if_pos rfl]
  have hpump : s.queueCell p g = State.pumpGuy p 1 (s.setPort p { s.port p with guyQ := [g] }) := by
    unfold State.queueCell
    rw [if_pos hup]
    dsimp only
    rw [hq]
    rfl
  obtain ⟨fab, hsent⟩ := State.pumpGuy_one (s := s.setPort p { s.port p with guyQ := [g] }) (by rw [hport])
    (by rw [hport]; exact hroom)
  exact ⟨fab, hpump.trans hsent⟩

/-- What has left the block once a timing cell has gone out in its two copies. -/
def State.outTwice (s : State) (p kind : Nat) (g : TimeCell) : List Output :=
  s.out ++ [.timing p kind g, .timing p kind { g with copy := true }]

/-- The timing cell that carries a stamp. -/
def stampCell (n : BitVec 3) (x : Nat) : TimeCell := { seq := n, tick := x / 1024, frac := x % 1024 }

theorem stampCell_eq (n : BitVec 3) (tick : Nat) {y : Nat} (hy : y < 1024) :
    stampCell n (1024 * tick + y) = { seq := n, tick := tick, frac := y } := by
  rw [stampCell, show (1024 * tick + y) / 1024 = tick by omega, show (1024 * tick + y) % 1024 = y by omega]

/-- A DELAY_REQ is stamped as it leaves, and its stamp is t3 (R40). -/
theorem State.emitGuy_delayReq (s : State) (p : Nat) : ∃ n y, y < 1024
    ∧ (s.emitGuy p (.time 1 0)).pit.t3 = some (1024 * s.pitch + y)
    ∧ (s.emitGuy p (.time 1 0)).out = s.outTwice p 1 { seq := n, tick := s.pitch, frac := y } := by
  have hy : Config.freeNat s.free % 1024 < 1024 := Nat.mod_lt _ (by decide)
  refine ⟨tabGet (fun _ => 0) s.step.seqOut p, _, hy, rfl, ?_⟩
  rw [← stampCell_eq _ _ hy]
  exact List.append_assoc ..

/-- A DELAY_RESP carries the stamp that it answers (R40). -/
theorem State.emitGuy_delayResp (s : State) (p : Nat) {tick y : Nat} (hy : y < 1024) : ∃ n,
    (s.emitGuy p (.time 2 (1024 * tick + y))).out = s.outTwice p 2 { seq := n, tick := tick, frac := y } := by
  refine ⟨tabGet (fun _ => 0) s.step.seqOut p, ?_⟩
  rw [← stampCell_eq _ _ hy]
  exact List.append_assoc ..

section
variable {s : State} {p : Nat} (hup : s.portUp p = true) (hq : (s.port p).guyQ = [])
  (hroom : (s.port p).guyRoom s.pitch = true)
include hup hq hroom

theorem State.queueCell_delayReq : ∃ n y, y < 1024 ∧ (s.queueCell p (.time 1 0)).pit.t3 = some (1024 * s.pitch + y)
    ∧ (s.queueCell p (.time 1 0)).out = s.outTwice p 1 { seq := n, tick := s.pitch, frac := y } := by
  obtain ⟨fab, hsent⟩ := State.queueCell_at_once (.time 1 0) hup hq hroom
  rw [hsent]
  exact State.emitGuy_delayReq { s with fab := fab } p

theorem State.queueCell_delayResp {tick y : Nat} (hy : y < 1024) : ∃ n,
    (s.queueCell p (.time 2 (1024 * tick + y))).out = s.outTwice p 2 { seq := n, tick := tick, frac := y } := by
  obtain ⟨fab, hsent⟩ := State.queueCell_at_once (.time 2 (1024 * tick + y)) hup hq hroom
  rw [hsent]
  exact State.emitGuy_delayResp { s with fab := fab } p hy

end

end Sys2Proof.Machine
end

section
/-! PROOF. Timing cells taken off the line, and the answers to SYNC and DELAY_REQ (R40, R337, R338). -/

namespace Sys2Proof.Machine

/-! ### A cell taken off the line -/

/-- A cell of a port under a number is left aside: it is damaged, or the second copy of the last one. -/
abbrev State.aside (s : State) (port : Nat) (g : TimeCell) : Prop :=
  g.good = false ∨ (g.copy = true ∧ alistGet s.step.seqIn port = some g.seq)

/-- A state in which a port has taken a cell under a number. -/
def State.heard (s : State) (port : Nat) (n : BitVec 3) : State :=
  ({ s with step := { s.step with seqIn := tabPut port n s.step.seqIn } } : State).guyHear port

theorem State.guyTake_of_aside {s : State} {port : Nat} {g : TimeCell} (h : s.aside port g) :
    s.guyTake port g.seq g.copy g.good = none := if_pos h

theorem State.guyTake_of_not_aside {s : State} {port : Nat} {g : TimeCell} (h : ¬s.aside port g) :
    s.guyTake port g.seq g.copy g.good = some (s.heard port g.seq) := if_neg h

/-- Taking a cell off the line changes what its port has heard and the numbers received. -/
theorem State.heard_eq (s : State) (port : Nat) (n : BitVec 3) :
    ∃ step fab, s.heard port n = { s with step := step, fab := fab } := by
  unfold State.heard State.guyHear
  split
  · exact ⟨_, _, rfl⟩
  · exact ⟨_, _, rfl⟩

theorem State.heard_port (s : State) (port : Nat) (n : BitVec 3) : ∃ heard miss,
    (s.heard port n).port port = { s.port port with guyHeard := heard, guyMiss := miss } := by
  unfold State.heard State.guyHear
  split
  · rw [State.port_setPort, if_pos rfl]
    exact ⟨_, _, rfl⟩
  · exact ⟨_, _, rfl⟩

section
variable (s : State) (port : Nat) (n : BitVec 3)

theorem State.heard_pitch : (s.heard port n).pitch = s.pitch := by
  obtain ⟨_, _, h⟩ := s.heard_eq port n
  rw [h]

theorem State.heard_pit : (s.heard port n).pit = s.pit := by
  obtain ⟨_, _, h⟩ := s.heard_eq port n
  rw [h]

theorem State.heard_out : (s.heard port n).out = s.out := by
  obtain ⟨_, _, h⟩ := s.heard_eq port n
  rw [h]

theorem State.heard_reg (off : Nat) : (s.heard port n).reg off = s.reg off := by
  obtain ⟨_, _, h⟩ := s.heard_eq port n
  rw [h]; rfl

theorem State.heard_launches : (s.heard port n).launches = s.launches := by
  obtain ⟨_, _, h⟩ := s.heard_eq port n
  rw [h]; rfl

theorem State.heard_fromParent (p : Nat) : (s.heard port n).fromParent p = s.fromParent p := by
  obtain ⟨_, _, h⟩ := s.heard_eq port n
  rw [h]; rfl

theorem State.heard_outTwice (p kind : Nat) (g : TimeCell) :
    (s.heard port n).outTwice p kind g = s.outTwice p kind g := by
  rw [State.outTwice, State.heard_out, State.outTwice]

theorem State.heard_downPorts : (s.heard port n).downPorts = s.downPorts := by
  obtain ⟨_, _, h⟩ := s.heard_eq port n
  rw [h]; rfl

theorem State.heard_asymOf (p : Nat) : (s.heard port n).asymOf p = s.asymOf p := by
  obtain ⟨_, _, h⟩ := s.heard_eq port n
  rw [h]; rfl

end

/-- A port that has taken a cell sends as before. -/
theorem State.heard_sends {s : State} {port : Nat} (n : BitVec 3) (hup : s.portUp port = true)
    (hq : (s.port port).guyQ = []) (hroom : (s.port port).guyRoom s.pitch = true) :
    (s.heard port n).portUp port = true ∧ ((s.heard port n).port port).guyQ = []
      ∧ ((s.heard port n).port port).guyRoom (s.heard port n).pitch = true := by
  obtain ⟨_, _, hport⟩ := s.heard_port port n
  rw [State.portUp, hport, State.heard_pitch]
  exact ⟨hup, hq, hroom⟩

/-! ### SYNC and DELAY_REQ (R40) -/

theorem exec_sync_eq (port : Nat) (g : TimeCell) (s : State) : exec (.sync port g) s = execSync port g s := by rfl

theorem exec_delayReq_eq (port : Nat) (g : TimeCell) (s : State) :
    exec (.delayReq port g) s = execDelayReq port g s := by rfl

theorem exec_delayResp_eq (port : Nat) (g : TimeCell) (s : State) :
    exec (.delayResp port g) s = execDelayResp port g s := by rfl

theorem State.fromParent_upPort {s : State} (h : s.isMaster = false) : s.fromParent s.upPort = true := by
  rw [State.fromParent, h, beq_self_eq_true]
  rfl

/-- A follower that has received SYNC: it keeps what the cell carries as t1 and the stamp of its receipt as t2. -/
def State.syncReceived (s : State) (g : TimeCell) : State :=
  { s.stampNow.2 with pit := { s.pit with t1 := some (cellStamp g), t2 := s.stampNow.1, t3 := none } }

/-- The stamps of a received SYNC stand, whatever leaves afterwards. -/
theorem State.syncReceived_queueCell (s : State) (g : TimeCell) (p : Nat) (c : GuyOut) :
    ((s.syncReceived g).queueCell p c).pit.t1 = some (cellStamp g)
      ∧ ((s.syncReceived g).queueCell p c).pit.t2 = s.stampNow.1 := by
  obtain ⟨-, hpit⟩ := PitKept.queueCell (s.syncReceived g) p c
  rw [hpit]
  exact ⟨rfl, rfl⟩

section
variable {s : State} {p : Nat} (hup : s.portUp p = true) (hq : (s.port p).guyQ = [])
  (hroom : (s.port p).guyRoom s.pitch = true)
include hup hq hroom

/-- SYNC is answered at once where its port is free. -/
theorem State.syncReceived_answers (g : TimeCell) : ∃ n y, y < 1024
    ∧ ((s.syncReceived g).queueCell p (.time 1 0)).pit.t3 = some (1024 * s.pitch + y)
    ∧ ((s.syncReceived g).queueCell p (.time 1 0)).out = s.outTwice p 1 { seq := n, tick := s.pitch, frac := y } :=
  State.queueCell_delayReq (s := s.syncReceived g) hup hq hroom

/-- So is DELAY_REQ, with the stamp of its receipt. -/
theorem State.stampNow_answers : ∃ n y, y < 1024 ∧ (s.stampNow.2.queueCell p (.time 2 s.stampNow.1)).out
    = s.outTwice p 2 { seq := n, tick := s.pitch, frac := y } := by
  obtain ⟨n, hout⟩ := State.queueCell_delayResp (s := s.stampNow.2) hup hq hroom (tick := s.pitch)
    (Nat.mod_lt (Config.freeNat s.free) (y := 1024) (by decide))
  exact ⟨n, _, Nat.mod_lt _ (by decide), hout⟩

end

section
variable {s : State} {port : Nat} {g : TimeCell} (hport : port < 24) (hup : s.up = true)
include hport hup

theorem exec_timing_aside (h : s.aside port g) : exec (.sync port g) s = .next s ∧ exec (.delayReq port g) s = .next s
    ∧ exec (.delayResp port g) s = .next s := by
  rw [exec_sync_eq, exec_delayReq_eq, exec_delayResp_eq, execSync, execDelayReq, execDelayResp, State.guyTake_of_aside h,
    decide_eq_true hport, hup]
  exact ⟨rfl, rfl, rfl⟩

theorem exec_sync_fromParent (h : ¬s.aside port g) (hfrom : s.fromParent port = true) : exec (.sync port g) s =
    .next (((s.heard port g.seq).syncReceived g).queueCell port (.time 1 0)) := by
  rw [exec_sync_eq, execSync, State.guyTake_of_not_aside h, decide_eq_true hport, hup]
  dsimp only
  rw [State.heard_fromParent, if_pos hfrom]
  rfl

theorem exec_delayReq_fromChild (h : ¬s.aside port g) (hchild : port ∈ s.downPorts) : exec (.delayReq port g) s =
    .next ((s.heard port g.seq).stampNow.2.queueCell port (.time 2 (s.heard port g.seq).stampNow.1)) := by
  rw [exec_delayReq_eq, execDelayReq, State.guyTake_of_not_aside h, decide_eq_true hport, hup]
  dsimp only
  rw [State.heard_downPorts, if_pos (List.contains_iff_mem.mpr hchild)]
  rfl

theorem exec_delayResp_fromParent {t1 t3 : Nat} (h : ¬s.aside port g) (hfrom : s.fromParent port = true)
    (h1 : s.pit.t1 = some t1) (h3 : s.pit.t3 = some t3) : exec (.delayResp port g) s =
    .next ((s.heard port g.seq).exchange port t1 t3 (cellStamp g)) := by
  rw [exec_delayResp_eq, execDelayResp, State.guyTake_of_not_aside h, decide_eq_true hport, hup]
  dsimp only
  rw [State.heard_pit, h1, h3]
  dsimp only
  rw [State.heard_fromParent, if_pos hfrom, onUnit_true, whenOk_true]

/-- The stamps of a SYNC, and the DELAY_REQ that answers it at once where the port is free. -/
theorem exec_sync_stamps (h : ¬s.aside port g) (hfrom : s.fromParent port = true) : ∃ t x, exec (.sync port g) s = .next t
    ∧ t.pit.t1 = some (cellStamp g) ∧ t.pit.t2 = 1024 * s.pitch + x ∧ x < 1024
    ∧ (s.portUp port = true → (s.port port).guyQ = [] → (s.port port).guyRoom s.pitch = true → ∃ y, y < 1024
        ∧ t.pit.t3 = some (1024 * s.pitch + y)
        ∧ ∃ n, t.out = s.outTwice port 1 { seq := n, tick := s.pitch, frac := y }) := by
  obtain ⟨ht1, ht2⟩ := (s.heard port g.seq).syncReceived_queueCell g port (.time 1 0)
  rw [State.stampNow, State.heard_pitch] at ht2
  refine ⟨_, _, exec_sync_fromParent hport hup h hfrom, ht1, ht2, Nat.mod_lt _ (by decide), fun hportUp hq hroom => ?_⟩
  obtain ⟨hportUp', hq', hroom'⟩ := State.heard_sends g.seq hportUp hq hroom
  obtain ⟨n, y, hy, ht3, hout⟩ := State.syncReceived_answers hportUp' hq' hroom' g
  rw [State.heard_pitch] at ht3
  rw [State.heard_pitch, State.heard_outTwice] at hout
  exact ⟨y, hy, ht3, n, hout⟩

/-- The DELAY_RESP that answers a DELAY_REQ at once where the port is free. -/
theorem exec_delayReq_answers (h : ¬s.aside port g) (hchild : port ∈ s.downPorts) (hportUp : s.portUp port = true)
    (hq : (s.port port).guyQ = []) (hroom : (s.port port).guyRoom s.pitch = true) : ∃ t y,
    exec (.delayReq port g) s = .next t ∧ y < 1024
      ∧ ∃ n, t.out = s.outTwice port 2 { seq := n, tick := s.pitch, frac := y } := by
  obtain ⟨hportUp', hq', hroom'⟩ := State.heard_sends g.seq hportUp hq hroom
  obtain ⟨n, y, hy, hout⟩ := State.stampNow_answers hportUp' hq' hroom'
  rw [State.heard_pitch, State.heard_outTwice] at hout
  exact ⟨_, y, exec_delayReq_fromChild hport hup h hchild, hy, n, hout⟩

end

end Sys2Proof.Machine
end

section
/-! PROOF. The alignment of a follower: exchanges that begin, complete or go missing, and what an offset does (R38 to R41, Table
2-2). -/

namespace Sys2Proof.Machine

/-! ### An exchange begins, or goes missing (R40, R41) -/

theorem exec_timingExchange_eq (s : State) : exec .timingExchange s = execTimingExchange s := by rfl

theorem exec_exchangeMissing_eq (s : State) : exec .exchangeMissing s = execExchangeMissing s := by rfl

theorem exec_holdoverLimit_eq (s : State) : exec .holdoverLimit s = execHoldoverLimit s := by rfl

/-- A state in which the interval has been counted on the ports of the tree, and SYNC sent to the children. -/
def State.exchangeBegun (s : State) : State :=
  s.downPorts.foldl State.sendSync ((List.range 24).foldl State.guyMissed s)

theorem PitKept.exchangeBegun (s : State) : PitKept s s.exchangeBegun :=
  (foldl guyMissed _ s).trans (foldl (fun t p => queueCell t p _) _ _)

section
variable {s : State} (hup : s.up = true)
include hup

theorem exec_timingExchange_of_master (h : s.isMaster = true) : exec .timingExchange s = .next s.exchangeBegun := by
  rw [exec_timingExchange_eq, execTimingExchange, hup, whenOk_true, if_pos h]
  rfl

theorem exec_timingExchange_of_follower (h : s.isMaster = false) : ∃ t, exec .timingExchange s = .next t
    ∧ t.pit.t1 = none ∧ t.pit.t3 = none ∧ t.pit.missing = s.pit.missing + 1 ∧ t.pit.mode = s.pit.mode
    ∧ t.pitch = s.pitch := by
  obtain ⟨hpitch, hpit⟩ := PitKept.exchangeBegun s
  rw [exec_timingExchange_eq, execTimingExchange, hup, whenOk_true, if_neg (ne_true_of_eq_false h)]
  refine ⟨_, rfl, rfl, rfl, ?_, ?_, hpitch⟩
  · show s.exchangeBegun.pit.missing + 1 = _
    rw [hpit]
  · show s.exchangeBegun.pit.mode = _
    rw [hpit]

theorem exec_exchangeMissing_enters_holdover (hfollow : s.isMaster = false) (hmode : s.pit.mode = .locked)
    (hmissing : 4 ≤ s.pit.missing) : ∃ t, exec .exchangeMissing s = .next t
      ∧ t.pit = { s.pit with mode := .holdover, holdFrom := s.pitch } ∧ t.pitch = s.pitch := by
  have hreport := Reported.report { s with pit := { s.pit with mode := .holdover, holdFrom := s.pitch } } 0x0102 unitMgmt
    s.upPort
  refine ⟨_, ?_, hreport.pit, hreport.pitch⟩
  rw [exec_exchangeMissing_eq, execExchangeMissing, hup, hfollow, hmode, decide_eq_true hmissing]
  rfl

theorem exec_holdoverLimit_enters_free (hmode : s.pit.mode = .holdover)
    (hspent : 1024 * s.fld Reg.pitHoldLimit 0 16 ≤ s.pitch - s.pit.holdFrom) : ∃ t, exec .holdoverLimit s = .next t
      ∧ t.pit = { s.pit with mode := .free } ∧ t.pitch = s.pitch := by
  have hreport := Reported.report { s with pit := { s.pit with mode := .free } } 0x0103 unitMgmt
    (s.pitch - s.pit.holdFrom)
  refine ⟨_, ?_, hreport.pit, hreport.pitch⟩
  rw [exec_holdoverLimit_eq, execHoldoverLimit, hup, hmode, decide_eq_true hspent]
  rfl

end

/-! ### What an offset does (R38, R40, Table 2-2) -/

/-- Of the alignment, `t` differs from `s` in the mode and the run of good exchanges only, and its PIT_OFFSET is that
of `s`. -/
def Aligned (s t : State) : Prop :=
  t.pit = { s.pit with mode := t.pit.mode, good := t.pit.good } ∧ t.reg Reg.pitOffset = s.reg Reg.pitOffset

namespace Aligned

theorem trans {s t u : State} (h : Aligned s t) (g : Aligned t u) : Aligned s u := by
  obtain ⟨hpit, hreg⟩ := h
  obtain ⟨gpit, greg⟩ := g
  exact ⟨by rw [gpit, hpit], greg.trans hreg⟩

theorem refl (s : State) : Aligned s s := ⟨rfl, rfl⟩

theorem setPit (s : State) (m : PitchMode) (n : Nat) : Aligned s { s with pit := { s.pit with mode := m, good := n } } :=
  ⟨rfl, rfl⟩

theorem slew (s : State) (o : Int) : Aligned s (s.slew o) :=
  ⟨rfl, (State.reg_setReg ..).trans (if_neg (by decide))⟩

theorem report (s : State) (code unit data : Nat) : Aligned s (s.report code unit data) :=
  ⟨by rw [(Reported.report ..).pit], State.reg_report (by decide) ..⟩

theorem setCount {s : State} {new : Nat} (h : new ≤ s.pitch ∨ s.launches = 0) : Aligned s (s.setCount new) :=
  ⟨by rw [State.setCount_pit h], State.setCount_reg h (by decide)⟩

theorem enterLocked (s : State) (o : Int) : Aligned s (s.enterLocked o) := (setPit s .locked s.pit.good).trans (report ..)

end Aligned

section
variable {s : State} {o : Int}

/-- The count that a step by the whole ticks of an offset leads to (Table 2-2). -/
def steppedCount (pitch : Nat) (o : Int) : Nat :=
  ((pitch : Int) - if o < 0 then -((o.natAbs / 1024 : Nat) : Int) else ((o.natAbs / 1024 : Nat) : Int)).toNat

theorem steppedCount_of_ahead {pitch : Nat} (h : 0 ≤ o) : steppedCount pitch o = pitch - o.toNat / 1024 := by
  rw [steppedCount, if_neg (by omega)]
  omega

theorem steppedCount_of_behind {pitch : Nat} (h : o < 0) : steppedCount pitch o = pitch + (-o).toNat / 1024 := by
  rw [steppedCount, if_pos h]
  omega

/-- A follower that begins to acquire anew. -/
def State.reacquiring (s : State) : State := { s with pit := { s.pit with mode := .acquiring, good := 0 } }

/-- An offset of a tick or more: the follower is in ACQUIRING, and its count steps. -/
theorem State.acquire_of_far (h : 1024 ≤ o.natAbs) :
    ∃ r, s.acquire o = (s.reacquiring.setCount (steppedCount s.pitch o)).slew r := by
  unfold State.acquire
  rw [if_pos h]
  exact ⟨_, rfl⟩

theorem State.acquire_of_near (h : ¬1024 ≤ o.natAbs) : Aligned s (s.acquire o) := by
  unfold State.acquire
  rw [if_neg h]
  exact ((Aligned.setPit s .acquiring (if o.natAbs ≤ 25 then s.pit.good + 1 else 0)).trans (.slew _ o)).trans
    (iteInduction (fun _ => .enterLocked ..) (fun _ => .refl _))

/-- A step back passes nothing over. -/
theorem State.reacquiring_quiet (h : -1024 < o ∨ s.launches = 0) (hfar : 1024 ≤ o.natAbs) :
    steppedCount s.pitch o ≤ s.reacquiring.pitch ∨ s.reacquiring.launches = 0 := by
  refine h.imp_left fun hlt => ?_
  rw [steppedCount_of_ahead (by omega)]
  exact Nat.sub_le ..

section
variable (hquiet : -1024 < o ∨ s.launches = 0)
include hquiet

theorem State.acquire_aligned : Aligned s (s.acquire o) := by
  by_cases hfar : 1024 ≤ o.natAbs
  · obtain ⟨r, hstep⟩ := s.acquire_of_far hfar
    rw [hstep]
    exact (Aligned.setPit s .acquiring 0).trans
      ((Aligned.setCount (State.reacquiring_quiet hquiet hfar)).trans (.slew ..))
  · exact State.acquire_of_near hfar

/-- An offset of a tick or more steps the count by its whole ticks, and leaves the follower in ACQUIRING. -/
theorem State.acquire_steps (hfar : 1024 ≤ o.natAbs) :
    (s.acquire o).pit.mode = .acquiring ∧ (s.acquire o).pitch = steppedCount s.pitch o := by
  obtain ⟨r, hstep⟩ := s.acquire_of_far hfar
  have hq := State.reacquiring_quiet hquiet hfar
  rw [hstep]
  exact ⟨congrArg Pit.mode (State.setCount_pit hq), State.setCount_pitch hq⟩

/-- An offset moves the mode, the run of good exchanges, the rate and the count, and leaves the rest of the alignment. -/
theorem State.exchangeDone_aligned : Aligned s (s.exchangeDone o) := by
  have hfirst : Aligned s (State.acquire { s with pit := { s.pit with good := 0 } } o) :=
    (Aligned.setPit s s.pit.mode 0).trans (State.acquire_aligned hquiet)
  unfold State.exchangeDone
  dsimp only
  split
  · exact hfirst
  · exact State.acquire_aligned hquiet
  · split
    · exact hfirst
    · exact .slew s o
  · split
    · exact hfirst
    · exact (Aligned.slew s o).trans (.enterLocked ..)

end

theorem State.exchangeDone_of_locked (hmode : s.pit.mode = .locked) (ho : o.natAbs ≤ 1024) :
    s.exchangeDone o = s.slew o := by
  unfold State.exchangeDone
  rw [hmode]
  exact if_neg (Nat.not_lt.mpr ho)

theorem State.exchangeDone_of_holdover (hmode : s.pit.mode = .holdover) (ho : o.natAbs ≤ 1024) :
    s.exchangeDone o = (s.slew o).enterLocked o := by
  unfold State.exchangeDone
  rw [hmode]
  exact if_neg (Nat.not_lt.mpr ho)

theorem State.exchangeDone_of_acquiring (hmode : s.pit.mode = .acquiring) : s.exchangeDone o = s.acquire o := by
  unfold State.exchangeDone
  rw [hmode]

/-- Within a tick a LOCKED follower stays LOCKED, and one in HOLDOVER is LOCKED again; the count stands. -/
theorem State.exchangeDone_locks (hmode : s.pit.mode = .locked ∨ s.pit.mode = .holdover) (ho : o.natAbs ≤ 1024) :
    (s.exchangeDone o).pit.mode = .locked ∧ (s.exchangeDone o).pitch = s.pitch := by
  rcases hmode with hmode | hmode
  · rw [State.exchangeDone_of_locked hmode ho]
    exact ⟨hmode, rfl⟩
  · rw [State.exchangeDone_of_holdover hmode ho, State.enterLocked, (Reported.report ..).pit, (Reported.report ..).pitch]
    exact ⟨rfl, rfl⟩

end

/-! ### A completed exchange (R40, R41) -/

/-- What a completed exchange records before its offset acts: that it is over, PIT_OFFSET, the delay of the link, and
LINKS. -/
def State.measured (s : State) (port t1 t3 t4 : Nat) : State :=
  let ended : State := { s with pit := { s.pit with t1 := none, t3 := none, missing := 0 } }
  ((ended.setReg Reg.pitOffset (BitVec.ofInt 32 (pitOffset t1 s.pit.t2 t3 t4 (s.asymOf port)))).linkDelay port
    (pitDelay t1 s.pit.t2 t3 t4)).learnLinks

theorem State.exchange_eq (s : State) (port t1 t3 t4 : Nat) : s.exchange port t1 t3 t4 =
    (s.measured port t1 t3 t4).exchangeDone (pitOffset t1 s.pit.t2 t3 t4 (s.asymOf port)) := by
  rw [State.exchange, State.measured]

theorem Reported.linkDelay (s : State) (p delay : Nat) : Reported s (s.linkDelay p delay) := by
  unfold State.linkDelay
  exact (setFld ..).trans (.ite (report ..) (refl _))

theorem State.reg_linkDelay (s : State) (p delay : Nat) {off : Nat} (hdelay : off ≠ Reg.guyDelayMax)
    (hring : off ∉ evtRing.written) : (s.linkDelay p delay).reg off = s.reg off := by
  unfold State.linkDelay
  dsimp only
  split
  · rw [State.reg_report hring, State.reg_setFld_of_ne _ _ _ _ _ hdelay]
  · exact State.reg_setFld_of_ne _ _ _ _ _ hdelay

theorem State.reg_learnLinks (s : State) {off : Nat} (h : off ≠ Reg.pitStatus) : s.learnLinks.reg off = s.reg off :=
  State.reg_setFld_of_ne _ _ _ _ _ h

theorem State.learnLinks_pit (s : State) : s.learnLinks.pit = s.pit := rfl

theorem State.learnLinks_pitch (s : State) : s.learnLinks.pitch = s.pitch := rfl

theorem State.learnLinks_cells (s : State) : s.learnLinks.cells = s.cells := rfl

section
variable (s : State) (port t1 t3 t4 : Nat)

theorem State.measured_pit : (s.measured port t1 t3 t4).pit = { s.pit with t1 := none, t3 := none, missing := 0 } := by
  rw [State.measured, State.learnLinks_pit, (Reported.linkDelay ..).pit, State.setReg_pit]

theorem State.measured_pitch : (s.measured port t1 t3 t4).pitch = s.pitch := by
  rw [State.measured, State.learnLinks_pitch, (Reported.linkDelay ..).pitch, State.setReg_pitch]

theorem State.measured_launches : (s.measured port t1 t3 t4).launches = s.launches := by
  rw [State.launches, State.measured, State.learnLinks_cells, (Reported.linkDelay ..).cells, State.setReg_cells,
    State.launches]

theorem State.measured_offset : (s.measured port t1 t3 t4).reg Reg.pitOffset =
    BitVec.ofInt 32 (pitOffset t1 s.pit.t2 t3 t4 (s.asymOf port)) := by
  unfold State.measured
  rw [State.reg_learnLinks _ (by decide), State.reg_linkDelay _ _ _ (by decide) (by decide), State.reg_setReg, if_pos rfl]

theorem State.measured_rate : (s.measured port t1 t3 t4).reg Reg.pitRate = s.reg Reg.pitRate := by
  unfold State.measured
  rw [State.reg_learnLinks _ (by decide), State.reg_linkDelay _ _ _ (by decide) (by decide), State.reg_setReg,
    if_neg (by decide)]
  rfl

/-- A change of the rate goes with the offset, by at most 50 ppm, and stays within 250 ppm (R38, R40). -/
theorem State.slew_rate (s : State) (o : Int) : (s.slew o).reg Reg.pitRate = BitVec.ofInt 32
    (max (-1073741) (min 1073741 ((s.reg Reg.pitRate).toInt + max (-214748) (min 214748 (-(4096 * o)))))) :=
  (State.reg_setReg ..).trans (if_pos rfl)

end

/-- What a completed exchange leaves, by the state of the follower and its offset (R40, Table 2-2). -/
theorem State.exchange_outcome {s : State} {port t1 t3 t4 : Nat} {o : Int}
    (ho : o = pitOffset t1 s.pit.t2 t3 t4 (s.asymOf port)) (hquiet : -1024 < o ∨ s.launches = 0) :
    let t := s.exchange port t1 t3 t4
    t.reg Reg.pitOffset = BitVec.ofInt 32 o ∧ t.pit.missing = 0 ∧ t.pit.t1 = none ∧ t.pit.t3 = none
      ∧ (s.pit.mode = .locked ∨ s.pit.mode = .holdover → o.natAbs ≤ 1024 → t.pit.mode = .locked ∧ t.pitch = s.pitch)
      ∧ (s.pit.mode = .locked → o.natAbs ≤ 1024 → t.reg Reg.pitRate = BitVec.ofInt 32
          (max (-1073741) (min 1073741 ((s.reg Reg.pitRate).toInt + max (-214748) (min 214748 (-(4096 * o)))))))
      ∧ (s.pit.mode = .acquiring → 1024 ≤ o → t.pit.mode = .acquiring ∧ t.pitch = s.pitch - o.toNat / 1024)
      ∧ (s.pit.mode = .acquiring → o ≤ -1024 → t.pitch = s.pitch + (-o).toNat / 1024) := by
  rw [State.exchange_eq, ← ho]
  have hpit := s.measured_pit port t1 t3 t4
  have hmode : (s.measured port t1 t3 t4).pit.mode = s.pit.mode := by rw [hpit]
  have hpitch := s.measured_pitch port t1 t3 t4
  have hq : -1024 < o ∨ (s.measured port t1 t3 t4).launches = 0 := by rwa [State.measured_launches]
  obtain ⟨hdone, hoffset⟩ := State.exchangeDone_aligned hq
  refine ⟨by rw [hoffset, State.measured_offset, ho], by rw [hdone, hpit], by rw [hdone, hpit], by rw [hdone, hpit],
    fun hm hnear => ?_, fun hm hnear => ?_, fun hm hfar => ?_, fun hm hfar => ?_⟩
  · rw [← hpitch]
    exact State.exchangeDone_locks (hmode.symm ▸ hm) hnear
  · rw [State.exchangeDone_of_locked (hmode.trans hm) hnear, State.slew_rate, State.measured_rate]
  · obtain ⟨hacq, hstep⟩ := State.acquire_steps hq (by omega)
    rw [State.exchangeDone_of_acquiring (hmode.trans hm), hstep, steppedCount_of_ahead (by omega), hpitch]
    exact ⟨hacq, rfl⟩
  · obtain ⟨-, hstep⟩ := State.acquire_steps hq (by omega)
    rw [State.exchangeDone_of_acquiring (hmode.trans hm), hstep, steppedCount_of_behind (by omega), hpitch]

/-- Settles O23: each command by what it does to the count and the alignment, an exchange by its offset. -/
theorem pitchIsAligned : Obligations.PitchIsAligned := by
  refine ⟨fun s hup => ⟨fun hmaster => ⟨?_, fun hquiet => ?_⟩, fun hfollow => ?_⟩,
    ⟨fun s hup => ⟨exec_timingExchange_of_master hup, exec_timingExchange_of_follower hup⟩,
      fun s port g hport hup => ⟨exec_timing_aside hport hup, fun hkept hfollow hparent => ?_,
        fun hkept hchild hportUp hq hroom => exec_delayReq_answers hport hup hkept hchild hportUp hq hroom⟩⟩,
    fun s t1 t3 g hup hfollow hport h1 h3 hgood hnew hquiet => ?_,
    fun s hup => ⟨exec_exchangeMissing_enters_holdover hup, exec_holdoverLimit_enters_free hup⟩⟩
  · rw [exec_pitCmdLoad_up hup, if_pos hmaster]
  · exact ⟨State.setCount_pitch (.inr hquiet), State.sameMemory_setCount (.inr hquiet), State.setCount_step (.inr hquiet)⟩
  · rw [exec_pitCmdLoad_up hup, if_neg (ne_true_of_eq_false hfollow)]
  · subst hparent
    exact exec_sync_stamps hport hup hkept (State.fromParent_upPort hfollow)
  · have hkept : ¬s.aside s.upPort g := by
      rintro (hbad | ⟨hcopy, hseen⟩)
      · exact ne_true_of_eq_false hbad hgood
      · exact hnew hcopy hseen
    have hout := State.exchange_outcome (s := s.heard s.upPort g.seq) (port := s.upPort) (t1 := t1) (t3 := t3)
      (t4 := cellStamp g) rfl (by rw [State.heard_pit, State.heard_asymOf, State.heard_launches]; exact hquiet)
    rw [State.heard_pit, State.heard_pitch, State.heard_asymOf, State.heard_reg] at hout
    exact ⟨_, exec_delayResp_fromParent hport hup hkept (State.fromParent_upPort hfollow) h1 h3, hout⟩

end Sys2Proof.Machine
end

section
/-! PROOF. The matrix class: what a cell's core issues into the matrix queue, MX.TSW and MX.FENCE (R150 to R152, R154, R301). -/

namespace Sys2Proof.Machine

/-! ### What the writes of a store buffer leave: the registers below those of the cells -/

section
variable {off : Nat} (hoff : off < 0x2000000)
include hoff

theorem State.raceRegs_reg_below (hit : Nat → List Nat) (s : State) (c : Nat) :
    (State.raceRegs hit s c).reg off = s.reg off := by
  have hne : ∀ b, 0x2000000 ≤ b → off ≠ b + 0x10000 * c := by omega
  unfold State.raceRegs State.setReg64
  dsimp only
  split
  · split
    · split
      · rw [State.reg_setReg, if_neg (hne _ (by decide)), State.reg_setReg, if_neg (hne _ (by decide)), State.reg_setReg,
          if_neg (hne _ (by decide))]
      · rw [State.reg_setReg, if_neg (hne _ (by decide))]
    · rw [State.reg_setReg, if_neg (hne _ (by decide))]
  · rfl

theorem State.raceRegs_fold_reg_below (hit : Nat → List Nat) : ∀ (l : List Nat) (s : State),
    (l.foldl (State.raceRegs hit) s).reg off = s.reg off
  | [], _ => rfl
  | c :: l, s => (raceRegs_fold_reg_below hit l _).trans (raceRegs_reg_below hoff hit s c)

theorem State.spadWrite_reg_below (s : State) (a : Nat) (bs : List Byte) : (s.spadWrite a bs).reg off = s.reg off := by
  show (s.raceWrite a bs.length).reg off = s.reg off
  unfold State.raceWrite
  split
  · rfl
  · exact State.raceRegs_fold_reg_below hoff _ _ s

theorem State.spadWrites_reg_below : ∀ (l : List StoreEntry) (s : State),
    (l.foldl (fun t e => t.spadWrite e.addr e.bytes) s).reg off = s.reg off
  | [], _ => rfl
  | e :: l, s => (spadWrites_reg_below l _).trans (State.spadWrite_reg_below hoff s e.addr e.bytes)

theorem State.drainStores_reg_below (s : State) (c : Nat) : (s.drainStores c).reg off = s.reg off := by
  unfold State.drainStores
  dsimp only
  split
  · rfl
  · exact State.spadWrites_reg_below hoff _ s

theorem State.fetched_reg_below (s : State) (c cls opc : Nat) : (s.fetched c cls opc).reg off = s.reg off := by
  have hfetch : (s.fetchCe c).reg off = s.reg off := s.fetchCe_reg c off (by unfold Reg.cellImemCe; omega)
  unfold State.fetched
  split
  · exact (State.drainStores_reg_below hoff _ c).trans hfetch
  · exact hfetch

end

theorem State.fetched_epoch (s : State) (c cls opc : Nat) : (s.fetched c cls opc).epoch = s.epoch :=
  State.fetched_reg_below (by decide) s c cls opc

/-- The operands of a matrix instruction are the registers as they stood before its word was fetched. -/
theorem fetched_mxOp (s : State) (c cls opc : Nat) (e : W32) (n : Nat) (o : ROps) :
    ((s.fetched c cls opc).cell c).mxOp e n o = (s.cell c).mxOp e n o := by
  unfold Cell.mxOp Cell.aPair
  simp only [fetched_s, fetched_a]

/-- The store buffer is written out before every matrix instruction. -/
theorem State.fetched_matrix (s : State) (c opc : Nat) : s.fetched c 0x04 opc = s.fetched c 0x04 0x00 := rfl

/-! ### Issue into the matrix queue (R152, R154, R301) -/

/-- One whose effect raises a cause after it has read pages takes the exception in the state in which their wait has
ended. -/
theorem rTrapsIn_of {s t : State} {c : Nat} {i : Instr} {o : ROps} {cls opc cause : Nat} {uses : List Nat}
    {eff : State → Eff} (hx : exec i s = coreR c i o cls opc uses eff s)
    (he : eff (s.fetched c cls opc) = .excRead t cause) : RTrapsIn s c i o cls opc uses t cause := by
  intro h hl
  rw [coreR_issues hx h hl, he]
  rfl

theorem mxEffect_of_full {c : Nat} {u : State} (hfull : 8 ≤ (u.cell c).mxq.length) (opc : Nat) (o : ROps) :
    mxEffect c opc o u = .stall := if_pos hfull

section
variable {c opc : Nat} {o : ROps} {u : State} {m : MxOp} (hm : (u.cell c).mxOp u.epoch opc o = m)
  (hroom : (u.cell c).mxq.length < 8) (hhere : u.farNeed (.core c) (u.checkPages m) = [])
include hm hroom hhere

theorem mxEffect_of_passed (hok : (u.goOn (.core c)).checkMx c true true m = none) :
    mxEffect c opc o u = .done (((u.goOn (.core c)).mxPush c m).runEngines c) := by
  have hopen : ¬queueRoom ≤ (u.cell c).mxq.length := Nat.not_le.mpr hroom
  simp only [mxEffect, hm, if_neg hopen, hhere, List.isEmpty_nil, if_true, hok]

theorem mxEffect_of_refused {e : Nat} (hbad : (u.goOn (.core c)).checkMx c true true m = some e) :
    mxEffect c opc o u = .excRead (u.goOn (.core c)) e := by
  have hopen : ¬queueRoom ≤ (u.cell c).mxq.length := Nat.not_le.mpr hroom
  simp only [mxEffect, hm, if_neg hopen, hhere, List.isEmpty_nil, if_true, hbad]

end

/-- A matrix instruction joins its queue, raises the cause of the check that refuses it, or waits for room. -/
theorem mx_queues {s u : State} {c opc : Nat} {o : ROps} {i : Instr} {uses : List Nat} {m : MxOp}
    (hx : exec i s = coreR c i o 0x04 opc uses (mxEffect c opc o) s) (hu : s.fetched c 0x04 opc = u)
    (hm : (s.cell c).mxOp s.epoch opc o = m) :
    let near := (u.cell c).mxq.length < 8 ∧ u.farNeed (.core c) (u.checkPages m) = []
    let g := u.goOn (.core c)
    (near → g.checkMx c true true m = none → RLeaves s c i o 0x04 opc uses ((g.mxPush c m).runEngines c))
      ∧ (∀ e, near → g.checkMx c true true m = some e → RTrapsIn s c i o 0x04 opc uses g e)
      ∧ (8 ≤ (u.cell c).mxq.length → RStalls s c i o 0x04 opc uses) := by
  subst hu
  have hop : ((s.fetched c 0x04 opc).cell c).mxOp (s.fetched c 0x04 opc).epoch opc o = m := by
    rw [fetched_mxOp, State.fetched_epoch, hm]
  exact ⟨fun ⟨hroom, hhere⟩ hok => rLeaves_of hx (mxEffect_of_passed hop hroom hhere hok),
    fun e ⟨hroom, hhere⟩ hbad => rTrapsIn_of hx (mxEffect_of_refused hop hroom hhere hbad),
    fun hfull => rStalls_of hx (mxEffect_of_full hfull opc o)⟩

theorem exec_mxStart_eq (c : Nat) (o : ROps) (s : State) : exec (.mxStart c o) s =
    coreR c (.mxStart c o) o 0x04 0x00 [o.sa.toNat] (mxEffect c 0 o) s := by rfl

theorem exec_mxMul_eq (c : Nat) (o : ROps) (s : State) : exec (.mxMul c o) s =
    coreR c (.mxMul c o) o 0x04 0x01 [o.sa.toNat, o.sb.toNat, o.sc.toNat] (mxEffect c 1 o) s := by rfl

theorem exec_mxEnd_eq (c : Nat) (o : ROps) (s : State) : exec (.mxEnd c o) s =
    coreR c (.mxEnd c o) o 0x04 0x02 [o.sa.toNat] (mxEffect c 2 o) s := by rfl

/-! ### MX.TSW and MX.FENCE (R150, R151) -/

/-- What MX.TSW does once it issues: it waits while an instruction on its handle is queued. -/
def tswEff (c : Nat) (o : ROps) (t : State) : Eff :=
  let h := o.x.toNat % 4
  if (t.cell c).mxq.any (fun m => m.handle == h) then .stall
  else .done (t.setCell c (((t.cell c).settle (· == h)).setS o.sd.toNat ((t.cell c).tswOf h)))

/-- What MX.FENCE does once it issues: it waits for its condition. -/
def fenceEff (c : Nat) (o : ROps) (t : State) : Eff :=
  if t.mxDone c (o.x.toNat % 2 == 1) then .done (t.setCell c ((t.cell c).settle (fun _ => true))) else .stall

theorem exec_mxTsw_eq (c : Nat) (o : ROps) (s : State) : exec (.mxTsw c o) s =
    coreR c (.mxTsw c o) o 0x04 0x03 [o.sd.toNat] (tswEff c o) s := by rfl

theorem exec_mxFence_eq (c : Nat) (o : ROps) (s : State) : exec (.mxFence c o) s =
    coreR c (.mxFence c o) o 0x04 0x04 [] (fenceEff c o) s := by rfl

section
variable {s u : State} {c : Nat} {o : ROps}

theorem exec_mxTsw_leaves (hu : s.fetched c 0x04 0x03 = u) (h : ∀ m ∈ (u.cell c).mxq, m.handle ≠ o.x.toNat % 4) :
    RLeaves s c (.mxTsw c o) o 0x04 0x03 [o.sd.toNat] (u.setCell c
      (((u.cell c).settle (· == o.x.toNat % 4)).setS o.sd.toNat ((u.cell c).tswOf (o.x.toNat % 4)))) :=
  rLeaves_of (exec_mxTsw_eq c o s) (by rw [hu]; exact if_neg (by simpa using h))

theorem exec_mxTsw_stalls (hu : s.fetched c 0x04 0x03 = u) (h : ∃ m ∈ (u.cell c).mxq, m.handle = o.x.toNat % 4) :
    RStalls s c (.mxTsw c o) o 0x04 0x03 [o.sd.toNat] :=
  rStalls_of (exec_mxTsw_eq c o s) (by rw [hu]; exact if_pos (by simpa using h))

theorem exec_mxFence_leaves (hu : s.fetched c 0x04 0x04 = u) (h : u.mxDone c (o.x.toNat % 2 == 1) = true) :
    RLeaves s c (.mxFence c o) o 0x04 0x04 [] (u.setCell c ((u.cell c).settle (fun _ => true))) :=
  rLeaves_of (exec_mxFence_eq c o s) (by rw [hu]; exact if_pos h)

theorem exec_mxFence_stalls (hu : s.fetched c 0x04 0x04 = u) (h : u.mxDone c (o.x.toNat % 2 == 1) = false) :
    RStalls s c (.mxFence c o) o 0x04 0x04 [] :=
  rStalls_of (exec_mxFence_eq c o s) (by rw [hu]; exact if_neg (ne_true_of_eq_false h))

end

end Sys2Proof.Machine
end

section
/-! PROOF. The end of a matrix tile: its drain to scratchpad, and MX.END on the live tile (R116, R146, R147, R153). -/

namespace Sys2Proof.Machine

/-! ### The end of a drain to scratchpad (R146, R147, R153) -/

theorem exec_mxDrainComplete_eq (c h : Nat) (s : State) : exec (.mxDrainComplete c h) s = execMxDrainComplete c h s := by rfl

theorem State.runEngines_of_idle {s : State} {c : Nat} (hmx : (s.cell c).mxq = []) (hvs : (s.cell c).vsq = []) :
    s.runEngines c = s := by
  unfold State.runEngines
  rw [hmx, hvs]
  exact ite_self s

/-- Of a cell, a write of scratchpad changes its tiles, the status words of its ended tiles and the mark of R153 at most. -/
theorem spadWrite_cell_rest (s : State) (a c : Nat) (bs : List Byte) : ∃ r t w,
    (s.spadWrite a bs).cell c = { s.cell c with mxRaced := r, tiles := t, lastTsw := w } := by
  obtain ⟨f, hs, h⟩ := spadWrite_cell s a c bs
  exact ⟨_, _, _, h.trans (raced_same f hs _)⟩

/-- Where the operands of every matrix instruction are known to be read, a write of scratchpad leaves the cells alone. -/
theorem spadWrite_cell_of_read {s : State} (h : ∀ p ∈ s.cells, p.2.mxReads = []) (a c : Nat) (bs : List Byte) :
    (s.spadWrite a bs).cell c = s.cell c := by
  have hall : s.cells.all (fun p => p.2.mxReads.isEmpty) = true :=
    List.all_eq_true.mpr fun p hp => List.isEmpty_iff.mpr (h p hp)
  show (s.raceWrite a bs.length).cell c = s.cell c
  rw [State.raceWrite, if_pos hall]

/-- A cell whose tile on a handle, in a phase of its drain, has drained: the tile is gone, and its operands are known to be
read. -/
def Cell.drops (k : Cell) (h : Nat) (p : TilePhase) : Cell :=
  { k with tiles := k.tiles.filter (fun x => !(x.h == h && x.phase == p)) }.settle (· == h)

theorem Cell.drops_tiles {k : Cell} {h : Nat} {p : TilePhase} {y : Tile} (hy : y ∈ (k.drops h p).tiles) :
    ¬(y.h = h ∧ y.phase = p) := by
  rintro ⟨rfl, rfl⟩
  have hkept := (List.mem_filter.mp hy).2
  simp at hkept

theorem State.endDrain_spad {s : State} {c h a : Nat} {tile : Tile} (hphase : tile.phase = .spad a)
    (hmx : (s.cell c).mxq = []) (hvs : (s.cell c).vsq = []) (hfits : a % 2 ^ 23 + (drainBytes tile).length ≤ sliceBytes) :
    s.endDrain c h tile = (s.spadWrite a (drainBytes tile)).setCell c
      (((s.spadWrite a (drainBytes tile)).cell c).drops h (.spad a)) := by
  have htake : (drainBytes tile).take (spadRoom a) = drainBytes tile :=
    List.take_of_length_le (by unfold spadRoom; omega)
  obtain ⟨r, t, w, hcell⟩ := spadWrite_cell_rest s a c (drainBytes tile)
  unfold State.endDrain
  simp only [hphase, htake]
  refine State.runEngines_of_idle ?_ ?_
  · rw [State.cell_setCell, if_pos rfl, hcell]
    exact hmx
  · rw [State.cell_setCell, if_pos rfl, hcell]
    exact hvs

theorem exec_mxDrainComplete_next {s : State} {c h : Nat} {tile : Tile} (hc : c < 512) (hworks : s.works = true)
    (htile : (s.cell c).drained h = some tile) : exec (.mxDrainComplete c h) s = .next (s.endDrain c h tile) := by
  rw [exec_mxDrainComplete_eq, execMxDrainComplete, decide_eq_true hc, onUnit_true, htile, hworks]
  rfl

section
variable (s : State) (c h a : Nat) (bs : List Byte)

/-- What a drain leaves: its bytes at their address and the tile gone; the scalar registers stay, and so do the status words
of ended tiles where no operands are left to be read. -/
theorem State.drain_leaves (phase : TilePhase) :
    let t := (s.spadWrite a bs).setCell c (((s.spadWrite a bs).cell c).drops h phase)
    t.hbm = s.hbm ∧ (∀ j, j < bs.length → memByte t.spad (a + j) = bs.getD j 0) ∧ OtherBytes s t a bs.length
      ∧ (∀ y ∈ (t.cell c).tiles, ¬(y.h = h ∧ y.phase = phase))
      ∧ (t.cell c).sreg = (s.cell c).sreg
      ∧ ((∀ p ∈ s.cells, p.2.mxReads = []) → (t.cell c).lastTsw = (s.cell c).lastTsw) := by
  dsimp only
  rw [State.cell_setCell, if_pos rfl]
  refine ⟨spadWrite_hbm s a bs, fun j => spadWrite_inside s a j bs, spadWrite_other s a bs,
    fun y hy => Cell.drops_tiles hy, ?_, fun hread => ?_⟩
  · obtain ⟨r, t, w, hcell⟩ := spadWrite_cell_rest s a c bs
    rw [hcell]
    rfl
  · rw [spadWrite_cell_of_read hread]
    rfl

end

/-! ### MX.END on a live tile (R116, R146) -/

theorem alistGet_tabPut_self {V : Type} (k : Nat) (v : V) (m : List (Nat × V)) : alistGet (tabPut k v m) k = some v := by
  induction m with
  | nil => exact if_pos rfl
  | cons p m ih =>
    unfold tabPut
    split
    · exact if_pos rfl
    · split
      · exact if_pos rfl
      · next hne => exact (if_neg hne).trans ih

theorem State.reg_reportLim {off : Nat} (h : off ∉ evtRing.written) (s : State) (code source unit data : Nat) :
    (s.reportLim code source unit data).reg off = s.reg off := by
  unfold State.reportLim
  dsimp only
  split
  · rfl
  · exact State.reg_report h _ ..

/-- The tile that MX.END makes of a live one: it drains where its end word says. -/
def Tile.ended (t : Tile) (w : W64) (dst : W32) (mb : Nat) : Tile :=
  let dest := field w.toNat 1 0
  { t with phase := if dest = 0 then .vec else if dest = 1 then .spad dst.toNat else .red, endw := w, mb := mb }

/-- The cell whose live tile MX.END has ended: the tile drains, or is gone where its destination is none, and its status
word is kept. -/
def Cell.ends (k : Cell) (t : Tile) (w : W64) (dst : W32) (mb : Nat) : Cell :=
  let rest := k.tiles.filter (fun x => !(x.h == t.h && x.phase == .live))
  { k with tiles := if field w.toNat 1 0 = 3 then rest else rest ++ [t.ended w dst mb],
           lastTsw := tabPut t.h (tswWord t.tsw) k.lastTsw, tswLastH := some t.h }

section
variable {k : Cell} {t : Tile} {w : W64} {dst : W32} {mb : Nat}

theorem Tile.ended_not_live : (t.ended w dst mb).phase ≠ .live := by
  unfold Tile.ended
  dsimp only
  split
  · exact TilePhase.noConfusion
  · split
    · exact TilePhase.noConfusion
    · exact TilePhase.noConfusion

theorem Cell.ends_not_live {x : Tile} (hx : x ∈ (k.ends t w dst mb).tiles) : ¬(x.h = t.h ∧ x.phase = .live) := by
  rintro ⟨hhandle, hlive⟩
  have hrest : x ∉ k.tiles.filter (fun x => !(x.h == t.h && x.phase == .live)) := by
    simp [hhandle, hlive]
  unfold Cell.ends at hx
  dsimp only at hx
  split at hx
  · exact hrest hx
  · rcases List.mem_append.mp hx with hx | hx
    · exact hrest hx
    · rw [List.mem_singleton.mp hx] at hlive
      exact Tile.ended_not_live hlive

variable (hspad : field w.toNat 1 0 = 1)
include hspad

theorem Tile.ended_phase_of_spad : (t.ended w dst mb).phase = .spad dst.toNat := by
  simp [Tile.ended, hspad]

theorem Cell.ends_drains : t.ended w dst mb ∈ (k.ends t w dst mb).tiles := by
  unfold Cell.ends
  dsimp only
  rw [if_neg (by omega)]
  exact List.mem_append_right _ (List.mem_singleton_self _)

end

/-- MX.END on a live tile, before a status word with NaN or overflow is counted and reported. -/
def State.endTile (s : State) (c : Nat) (t : Tile) (w : W64) (dst : W32) : State :=
  (s.setCell c ((s.cell c).ends t w dst (s.fld (Reg.cellRedMb c) 0 4))).setReg64 (Reg.cellTswLastLo c) (Reg.cellTswLastHi c)
    (tswWord t.tsw).toNat

section
variable {s : State} {c : Nat} {t : Tile} {w : W64} {dst : W32}

theorem State.execFinOn_eq (hnull : t.null = false) : s.execFinOn c t w dst =
    if t.tsw.nan || t.tsw.ovf then
      ((s.endTile c t w dst).bump (Reg.cellNfTiles c)).reportLim 0x0502 c (unitCell c)
        (c + 2 ^ 16 * b2n t.tsw.nan + 2 ^ 17 * b2n t.tsw.ovf + 2 ^ 18 * b2n t.tsw.first.isSome
          + 2 ^ 20 * (t.layer % 2 ^ 12))
    else s.endTile c t w dst := by
  unfold State.execFinOn
  simp only [if_neg (ne_true_of_eq_false hnull)]
  rfl

theorem Reported.execFinOn (hnull : t.null = false) : Reported (s.endTile c t w dst) (s.execFinOn c t w dst) := by
  rw [State.execFinOn_eq hnull]
  exact .ite ((Reported.bump ..).trans (Reported.reportLim ..)) (Reported.refl _)

theorem State.execFinOn_reg (hnull : t.null = false) {off : Nat} (hcount : off ≠ Reg.cellNfTiles c)
    (hring : off ∉ evtRing.written) : (s.execFinOn c t w dst).reg off = (s.endTile c t w dst).reg off := by
  rw [State.execFinOn_eq hnull]
  split
  · rw [State.reg_reportLim hring, State.reg_bump_of_ne _ _ hcount]
  · rfl

theorem State.execFinOn_cell (hnull : t.null = false) :
    (s.execFinOn c t w dst).cell c = (s.cell c).ends t w dst (s.fld (Reg.cellRedMb c) 0 4) := by
  rw [(Reported.execFinOn hnull).cell, State.endTile, State.cell_setReg64, State.cell_setCell, if_pos rfl]

/-- The registers of cells are none that a ring of records writes. -/
theorem evtRing_not_cell {off : Nat} (h : 0x2000000 ≤ off) : off ∉ evtRing.written := by
  intro hring
  have hlow : ∀ o ∈ evtRing.written, o < 0x2000000 := by decide
  exact absurd (hlow off hring) (Nat.not_lt.mpr h)

theorem State.execFinOn_tswLast (hnull : t.null = false) :
    (s.execFinOn c t w dst).reg (Reg.cellTswLastLo c) = BitVec.ofNat 32 (tswWord t.tsw).toNat
      ∧ (s.execFinOn c t w dst).reg (Reg.cellTswLastHi c) = BitVec.ofNat 32 ((tswWord t.tsw).toNat / 2 ^ 32) := by
  constructor
  · rw [State.execFinOn_reg hnull (by unfold Reg.cellTswLastLo Reg.cellNfTiles; omega)
      (evtRing_not_cell (by unfold Reg.cellTswLastLo; omega)), State.endTile, State.setReg64, State.reg_setReg,
      if_neg (by unfold Reg.cellTswLastLo Reg.cellTswLastHi; omega), State.reg_setReg, if_pos rfl]
  · rw [State.execFinOn_reg hnull (by unfold Reg.cellTswLastHi Reg.cellNfTiles; omega)
      (evtRing_not_cell (by unfold Reg.cellTswLastHi; omega)), State.endTile, State.setReg64, State.reg_setReg, if_pos rfl]

end

/-- Settles O10: the queueing by room and checks, a drain by its write of scratchpad, MX.END by the cell it leaves. -/
theorem matrixInstructionsQueueAndDrain : Obligations.MatrixInstructionsQueueAndDrain := by
  refine ⟨fun s c o => ?_, fun s c h a tile hc hworks htile hphase hmx hvs hfits => ?_,
    fun s c tile w dst hc hnull => ?_⟩
  · have hu := State.fetched_matrix s c
    exact ⟨mx_queues (exec_mxStart_eq c o s) (hu 0) rfl, mx_queues (exec_mxMul_eq c o s) (hu 1) rfl,
      mx_queues (exec_mxEnd_eq c o s) (hu 2) rfl, exec_mxTsw_leaves (hu 3), exec_mxTsw_stalls (hu 3),
      exec_mxFence_leaves (hu 4), exec_mxFence_stalls (hu 4)⟩
  · refine ⟨_, exec_mxDrainComplete_next hc hworks htile, ?_⟩
    rw [State.endDrain_spad hphase hmx hvs hfits]
    exact s.drain_leaves c h a (drainBytes tile) (.spad a)
  · obtain ⟨hlo, hhi⟩ := State.execFinOn_tswLast (s := s) (c := c) (w := w) (dst := dst) hnull
    rw [State.execFinOn_cell hnull]
    exact ⟨alistGet_tabPut_self .., hlo, hhi, fun _ => Cell.ends_not_live,
      fun hspad => ⟨_, Cell.ends_drains hspad, rfl, Tile.ended_phase_of_spad hspad, rfl⟩,
      (Reported.execFinOn hnull).sameMemory⟩

end Sys2Proof.Machine
end

section
/-! PROOF. The vector class: what a cell's core issues into the vector queue, VS.FENCE and VS.STAT (R183 to R186). -/

namespace Sys2Proof.Machine

/-! ### Issue into the vector queue (R183, R186) -/

/-- The operands of a vector instruction are the registers as they stood before its word was fetched. -/
theorem fetched_vsOp (s : State) (c cls opc : Nat) (o : ROps) :
    ((s.fetched c cls opc).cell c).vsOp o = (s.cell c).vsOp o := by
  simp only [Cell.vsOp, Cell.aRun, fetched_s, fetched_a]

/-- The store buffer is written out before every vector instruction. -/
theorem State.fetched_vector (s : State) (c opc : Nat) : s.fetched c 0x05 opc = s.fetched c 0x05 0x00 := rfl

theorem vsRunBad_of_inside {k : Cell} {o : ROps} (h : ¬((vctl (k.vsOp o).ctl).rnd = 1 ∧ 61 < o.sa.toNat)) :
    k.vsRunBad o = false := by
  rcases not_and_or.mp h with hrnd | hrun
  · exact Bool.and_eq_false_imp.mpr fun hat => absurd (beq_iff_eq.mp (Bool.and_eq_true_iff.mp hat).2) hrnd
  · rw [Cell.vsRunBad, decide_eq_false hrun, Bool.and_false]

section
variable {s : State} {c op : Nat} {o : ROps} {i : Instr} (hx : exec i s = vsRow op c i o s)
  (hop : (vctl ((s.cell c).vsOp o).ctl).op = op) (hrun : ¬((vctl ((s.cell c).vsOp o).ctl).rnd = 1 ∧ 61 < o.sa.toNat))
include hx hop hrun

/-- A vector operation whose control word holds it issues as every instruction of format R does. -/
theorem exec_vsRow_eq : exec i s =
    coreR c i o 0x05 0x00 (vsUses o ((s.cell c).vsOp o)) (vsEffect c o) s := by
  rw [hx, vsRow, hop, if_neg fun h => h.2 rfl, vsRunBad_of_inside hrun, Bool.not_false, Bool.and_true]
  rfl

theorem vsRow_leaves (hroom : ((s.fetched c 0x05 0x00).cell c).vsq.length < 8)
    (hok : (s.fetched c 0x05 0x00).checkVs c true true ((s.cell c).vsOp o) = none) :
    RLeaves s c i o 0x05 0x00 (vsUses o ((s.cell c).vsOp o))
      (((s.fetched c 0x05 0x00).vsPush c ((s.cell c).vsOp o)).runEngines c) := by
  refine rLeaves_of (exec_vsRow_eq hx hop hrun) ?_
  rw [vsEffect, fetched_vsOp, queueRoom, if_neg (Nat.not_le.mpr hroom), hok]

theorem vsRow_traps {e : Nat} (hroom : ((s.fetched c 0x05 0x00).cell c).vsq.length < 8)
    (hbad : (s.fetched c 0x05 0x00).checkVs c true true ((s.cell c).vsOp o) = some e) :
    RTraps s c i o 0x05 0x00 (vsUses o ((s.cell c).vsOp o)) e := by
  refine rTraps_of (exec_vsRow_eq hx hop hrun) ?_
  rw [vsEffect, fetched_vsOp, queueRoom, if_neg (Nat.not_le.mpr hroom), hbad]

theorem vsRow_stalls (hfull : 8 ≤ ((s.fetched c 0x05 0x00).cell c).vsq.length) :
    RStalls s c i o 0x05 0x00 (vsUses o ((s.cell c).vsOp o)) :=
  rStalls_of (exec_vsRow_eq hx hop hrun) (if_pos hfull)

end

/-! ### VS.FENCE and VS.STAT (R184, R185) -/

/-- What VS.STAT does once the queue of its cell is empty. -/
def statDone (c : Nat) (o : ROps) (t : State) : State :=
  let u := if o.x.toNat % 2 = 1 then t.setReg (Reg.cellVsStatus c) 0 else t
  let w := u.setCell c (u.cell c).vsKnown
  w.setCell c ((w.cell c).setS o.sd.toNat ((t.reg (Reg.cellVsStatus c)).setWidth 64))

theorem exec_vsFence_eq (c : Nat) (o : ROps) (s : State) : exec (.vsFence c o) s =
    coreR c (.vsFence c o) o 0x05 0x01 []
      (fun t => if (t.cell c).vsq.isEmpty then .done (t.setCell c (t.cell c).vsKnown) else .stall) s := by rfl

theorem exec_vsStat_eq (c : Nat) (o : ROps) (s : State) : exec (.vsStat c o) s =
    coreR c (.vsStat c o) o 0x05 0x02 [o.sd.toNat]
      (fun t => if (t.cell c).vsq.isEmpty then .done (statDone c o t) else .stall) s := by rfl

section
variable {s : State} {c : Nat} (o : ROps)

theorem exec_vsFence_leaves (h : ((s.fetched c 0x05 0x00).cell c).vsq = []) : RLeaves s c (.vsFence c o) o 0x05 0x01 []
    ((s.fetched c 0x05 0x00).setCell c ((s.fetched c 0x05 0x00).cell c).vsKnown) :=
  rLeaves_of (exec_vsFence_eq c o s) (by rw [State.fetched_vector]; exact if_pos (List.isEmpty_iff.mpr h))

theorem exec_vsFence_stalls (h : ((s.fetched c 0x05 0x00).cell c).vsq ≠ []) : RStalls s c (.vsFence c o) o 0x05 0x01 [] :=
  rStalls_of (exec_vsFence_eq c o s) (by rw [State.fetched_vector]; exact if_neg (mt List.isEmpty_iff.mp h))

theorem exec_vsStat_leaves (h : ((s.fetched c 0x05 0x00).cell c).vsq = []) :
    RLeaves s c (.vsStat c o) o 0x05 0x02 [o.sd.toNat] (statDone c o (s.fetched c 0x05 0x00)) :=
  rLeaves_of (exec_vsStat_eq c o s) (by rw [State.fetched_vector]; exact if_pos (List.isEmpty_iff.mpr h))

theorem exec_vsStat_stalls (h : ((s.fetched c 0x05 0x00).cell c).vsq ≠ []) :
    RStalls s c (.vsStat c o) o 0x05 0x02 [o.sd.toNat] :=
  rStalls_of (exec_vsStat_eq c o s) (by rw [State.fetched_vector]; exact if_neg (mt List.isEmpty_iff.mp h))

end

/-- Settles O8: every row of Table 6-4 issues alike, by the room in its queue and the first check that fails. -/
theorem vectorInstructionsAreQueuedOrRefused : Obligations.VectorInstructionsAreQueuedOrRefused := by
  refine ⟨fun s c o => ?_, fun s c o e hop hrun => ⟨vsRow_traps rfl hop hrun, vsRow_stalls rfl hop hrun⟩⟩
  iterate 62 refine ⟨vsRow_leaves rfl, ?_⟩
  exact ⟨fun h => ⟨exec_vsFence_leaves o h, exec_vsStat_leaves o h⟩,
    fun h => ⟨exec_vsFence_stalls o h, exec_vsStat_stalls o h⟩⟩

end Sys2Proof.Machine
end

section
/-! PROOF. What flags, reports and word errors leave alone: every cell, and scratchpad and pool memory (R271, R290, R464). -/

namespace Sys2Proof.Machine

/-- Every cell and both memories are as before. -/
def Flagged (s t : State) : Prop := t.cells = s.cells ∧ t.spad = s.spad ∧ t.hbm = s.hbm

namespace Flagged

theorem refl (s : State) : Flagged s s := ⟨rfl, rfl, rfl⟩

theorem trans {s t u : State} (h : Flagged s t) (g : Flagged t u) : Flagged s u := by
  obtain ⟨hcells, hspad, hhbm⟩ := h
  obtain ⟨gcells, gspad, ghbm⟩ := g
  exact ⟨gcells.trans hcells, gspad.trans hspad, ghbm.trans hhbm⟩

theorem ite {s t u : State} {p : Prop} [Decidable p] (ht : Flagged s t) (hu : Flagged s u) :
    Flagged s (if p then t else u) := iteInduction (fun _ => ht) (fun _ => hu)

theorem foldl {α : Type} {f : State → α → State} (hf : ∀ s a, Flagged s (f s a)) (l : List α) (s : State) :
    Flagged s (l.foldl f s) := l.foldlRecOn f (refl s) fun t h a _ => h.trans (hf t a)

theorem of_reported {s t : State} (h : Reported s t) : Flagged s t := ⟨h.cells, h.spad, h.hbm⟩

theorem setReg (s : State) (off : Nat) (v : W32) : Flagged s (s.setReg off v) := ⟨rfl, rfl, rfl⟩

theorem setStep (s : State) (k : StepSt) : Flagged s { s with step := k } := ⟨rfl, rfl, rfl⟩

theorem setFree (s : State) (n : Nat) : Flagged s { s with free := n } := ⟨rfl, rfl, rfl⟩

theorem bumpUnits (s : State) (off n : Nat) : Flagged s (s.bumpUnits off n) := ⟨rfl, rfl, rfl⟩

theorem raiseFlag (s : State) (f : BitVec 4) (e : W32) : Flagged s (s.raiseFlag f e) :=
  .ite (.ite (setStep ..) (.ite (setStep ..) (.ite (.ite (setStep ..) (setStep ..)) (.ite (setStep ..) (setReg ..)))))
    (setReg ..)

theorem report (s : State) (code unit data : Nat) : Flagged s (s.report code unit data) := of_reported (.report ..)

theorem spadUe (s : State) (i : Nat) : Flagged s (s.spadUe i) := by
  have hcount := (of_reported (.bump s (Reg.cellSpadUe (spadCell (i * 8))))).trans (report _ 0x0305
    (unitCell (spadCell (i * 8))) (spadCell (i * 8) + 2 ^ 16 * b2n s.stepping))
  exact .ite (hcount.trans (raiseFlag ..)) hcount

theorem spadCorrect (s : State) (i : Nat) : Flagged s (s.spadCorrect i) := ⟨rfl, rfl, rfl⟩

theorem spadTouch (s : State) (a n : Nat) : Flagged s (s.spadTouch a n) :=
  .ite (refl s) ((foldl spadCorrect ..).trans (foldl spadUe ..))

theorem spadTouchAll (s : State) (l : List (Nat × Nat)) : Flagged s (s.spadTouchAll l) :=
  .ite (refl s) ((foldl spadCorrect ..).trans (foldl spadUe ..))

theorem clampRule (s : State) (c written applied : Nat) : Flagged s (s.clampRule c written applied) :=
  of_reported ((Reported.bump ..).trans (.clampPut ..))

theorem vsFlags (s : State) (c : Nat) (f : NFlags) : Flagged s (s.vsFlags c f) := ⟨rfl, rfl, rfl⟩

theorem loss (s : State) (c op code : Nat) : Flagged s (s.loss c op code) := by
  have hlatched : Flagged s ((s.setReg (Reg.cellVsLoss c) (BitVec.ofNat 32 code)).setReg (Reg.cellVsLossEpoch c) s.epoch) :=
    (setReg ..).trans (setReg ..)
  exact .ite (hlatched.trans ((raiseFlag ..).trans (report ..))) hlatched

theorem nanDropped (s : State) (c op : Nat) : Flagged s (s.nanDropped c op) :=
  .ite ((raiseFlag ..).trans (of_reported (.reportLim ..))) (refl s)

section
variable {s t : State} (h : Flagged s t)
include h

theorem cell (d : Nat) : t.cell d = s.cell d := by
  obtain ⟨hcells, -, -⟩ := h
  rw [State.cell, hcells, State.cell]

theorem openByte {x : Nat} : t.openByte x ↔ s.openByte x := by
  obtain ⟨hcells, -, -⟩ := h
  rw [State.openByte, hcells, State.openByte]

end

end Flagged

end Sys2Proof.Machine
end

section
/-! PROOF. The bytes that R153 leaves open: what notes of vector results add to them, and that a write adds none. -/

namespace Sys2Proof.Machine

/-- A byte that a vector instruction of this cell has made of a tile whose operands are not known to be read. -/
def Cell.opens (k : Cell) (x : Nat) : Prop := ∃ r ∈ k.mxDerived, r.2.1 ≤ x ∧ x < r.2.1 + r.2.2

theorem State.openByte_iff (s : State) (x : Nat) : s.openByte x ↔ ∃ p ∈ s.cells, p.2.opens x := Iff.rfl

theorem tabGet_default_or_mem {V : Type} (d : Nat → V) (k : Nat) :
    ∀ m : List (Nat × V), tabGet d m k = d k ∨ (k, tabGet d m k) ∈ m
  | [] => .inl rfl
  | (j, v) :: m => by
    unfold tabGet
    split
    · next h => exact .inr (h ▸ List.mem_cons_self)
    · exact (tabGet_default_or_mem d k m).imp_right (List.mem_cons_of_mem _)

theorem mem_tabSet {V : Type} [DecidableEq V] {d : Nat → V} {m : List (Nat × V)} {k : Nat} {v : V} {p : Nat × V}
    (h : p ∈ tabSet d m k v) : p = (k, v) ∨ p ∈ m := by
  unfold tabSet at h
  split at h
  · exact .inr (List.mem_of_mem_filter h)
  · exact mem_tabPut k v m p h

section
variable {s : State} {x : Nat}

/-- A cell that opens a byte holds some state, so the byte is open. -/
theorem State.openByte_of_cell {c : Nat} (h : (s.cell c).opens x) : s.openByte x := by
  rcases tabGet_default_or_mem (fun _ => ({} : Cell)) c s.cells with hdef | hmem
  · rw [State.cell, hdef] at h
    obtain ⟨r, hr, -⟩ := h
    exact absurd hr List.not_mem_nil
  · exact ⟨_, hmem, h⟩

theorem State.openByte_setCell {c : Nat} {k : Cell} (h : (s.setCell c k).openByte x) : k.opens x ∨ s.openByte x := by
  obtain ⟨p, hp, hopen⟩ := (State.openByte_iff ..).mp h
  have hset : p ∈ tabSet (fun _ => {}) s.cells c k := hp
  rcases mem_tabSet hset with rfl | hp
  · exact .inl hopen
  · exact .inr ⟨p, hp, hopen⟩

/-- Notes of a vector instruction open bytes of its writes only. -/
theorem State.openByte_derive {c : Nat} {hs : List Nat} {ws : List (Nat × List Byte)}
    (h : (s.derive c hs ws).openByte x) : s.openByte x ∨ ∃ w ∈ ws, w.1 ≤ x ∧ x < w.1 + w.2.length := by
  unfold State.derive at h
  dsimp only at h
  split at h
  · exact .inl h
  · rcases State.openByte_setCell h with ⟨r, hr, hlo, hhi⟩ | hopen
    · rcases List.mem_append.mp hr with hr | hr
      · exact .inl (State.openByte_of_cell ⟨r, hr, hlo, hhi⟩)
      · obtain ⟨g, -, hr⟩ := List.mem_flatMap.mp hr
        obtain ⟨p, hp, rfl⟩ := List.mem_map.mp hr
        rcases List.mem_cons.mp hp with rfl | hp
        · exact absurd hhi (Nat.not_lt.mpr hlo)
        · obtain ⟨w, hw, rfl⟩ := List.mem_map.mp hp
          exact .inr ⟨w, hw, hlo, hhi⟩
    · exact .inl hopen

/-- What a write makes undefined of a cell (R153) opens no byte of it, and closes none. -/
theorem Cell.opens_raced {f : Nat} {hs : List Nat} {k : Cell} : (k.raced f hs).opens x ↔ k.opens x := by
  rw [raced_same]
  exact Iff.rfl

/-- A write of scratchpad opens no byte. -/
theorem State.openByte_spadWrite {a : Nat} {bs : List Byte} (h : (s.spadWrite a bs).openByte x) : s.openByte x := by
  have hrace : (s.raceWrite a bs.length).openByte x := h
  unfold State.raceWrite at hrace
  split at hrace
  · exact hrace
  · obtain ⟨p, hp, hopen⟩ := (State.openByte_iff ..).mp hrace
    obtain ⟨q, hq, rfl⟩ := List.mem_map.mp hp
    exact (State.openByte_iff ..).mpr ⟨q, hq, Cell.opens_raced.mp hopen⟩

end

end Sys2Proof.Machine
end

section
/-! PROOF. Execution of a vector instruction: what it writes and what it leaves alone (R163, R170, R175). -/

namespace Sys2Proof.Machine

/-! ### What a part of an execution spares -/

/-- The scalar, address and predicate registers of a core are as before. -/
def SameRegs (k k' : Cell) : Prop := k'.sreg = k.sreg ∧ k'.areg = k.areg ∧ k'.preg = k.preg

/-- The pool, the registers of every core and the scratchpad bytes of a set are as before. -/
def Spares (P : Nat → Prop) (s t : State) : Prop :=
  t.hbm = s.hbm ∧ (∀ d, SameRegs (s.cell d) (t.cell d)) ∧ ∀ a, P a → memByte t.spad a = memByte s.spad a

namespace Spares

variable {P : Nat → Prop}

theorem of_flagged {s t : State} (h : Flagged s t) : Spares P s t := by
  have hcell := h.cell
  obtain ⟨-, hspad, hhbm⟩ := h
  exact ⟨hhbm, fun d => by rw [hcell]; exact ⟨rfl, rfl, rfl⟩, fun a _ => by rw [hspad]⟩

theorem refl (s : State) : Spares P s s := of_flagged (.refl s)

theorem trans {s t u : State} (h : Spares P s t) (g : Spares P t u) : Spares P s u := by
  obtain ⟨hhbm, hregs, hspad⟩ := h
  obtain ⟨ghbm, gregs, gspad⟩ := g
  refine ⟨ghbm.trans hhbm, fun d => ?_, fun a ha => (gspad a ha).trans (hspad a ha)⟩
  obtain ⟨hs, ha, hp⟩ := hregs d
  obtain ⟨gs, ga, gp⟩ := gregs d
  exact ⟨gs.trans hs, ga.trans ha, gp.trans hp⟩

theorem ite {s t u : State} {p : Prop} [Decidable p] (ht : Spares P s t) (hu : Spares P s u) :
    Spares P s (if p then t else u) := iteInduction (fun _ => ht) (fun _ => hu)

theorem foldl {α : Type} {f : State → α → State} (hf : ∀ s a, Spares P s (f s a)) (l : List α) (s : State) :
    Spares P s (l.foldl f s) := l.foldlRecOn f (refl s) fun t h a _ => h.trans (hf t a)

/-- A cell stored with the registers that it had. -/
theorem setCell {s : State} {c : Nat} {k : Cell} (h : SameRegs (s.cell c) k) : Spares P s (s.setCell c k) := by
  refine ⟨rfl, fun d => ?_, fun _ _ => rfl⟩
  rw [State.cell_setCell]
  split
  · next hd => rwa [hd]
  · exact ⟨rfl, rfl, rfl⟩

theorem spadWrite {s : State} {b : Nat} {bs : List Byte}
    (h : ∀ a, P a → (a < b ∨ b + bs.length ≤ a) ∧ ¬s.openByte a) : Spares P s (s.spadWrite b bs) := by
  refine ⟨spadWrite_hbm s b bs, fun d => ?_, fun a ha => ?_⟩
  · obtain ⟨r, t, w, hcell⟩ := spadWrite_cell_rest s b d bs
    rw [hcell]
    exact ⟨rfl, rfl, rfl⟩
  · obtain ⟨hout, hclosed⟩ := h a ha
    exact spadWrite_other s b bs a hout hclosed

/-- Writes of scratchpad spare the bytes outside them that are not open. -/
theorem spadWrites : ∀ (ws : List (Nat × List Byte)) (s : State),
    (∀ a, P a → (∀ w ∈ ws, a < w.1 ∨ w.1 + w.2.length ≤ a) ∧ ¬s.openByte a) →
      Spares P s (ws.foldl (fun t w => t.spadWrite w.1 w.2) s)
  | [], s, _ => refl s
  | w :: ws, s, h => by
    refine (spadWrite fun a ha => ?_).trans (spadWrites ws _ fun a ha => ?_)
    · obtain ⟨hout, hclosed⟩ := h a ha
      exact ⟨hout w List.mem_cons_self, hclosed⟩
    · obtain ⟨hout, hclosed⟩ := h a ha
      exact ⟨fun v hv => hout v (List.mem_cons_of_mem _ hv), mt State.openByte_spadWrite hclosed⟩

theorem derive (s : State) (c : Nat) (hs : List Nat) (ws : List (Nat × List Byte)) : Spares P s (s.derive c hs ws) :=
  .ite (refl s) (setCell ⟨rfl, rfl, rfl⟩)

theorem tileSat (n c : Nat) (s : State) (h : Nat) : Spares P s (State.tileSat n c s h) := by
  unfold State.tileSat
  dsimp only
  split
  · exact refl s
  · exact setCell ⟨rfl, rfl, rfl⟩

theorem freeTiles (s : State) (c : Nat) (hs : List Nat) : Spares P s (s.freeTiles c hs) := setCell ⟨rfl, rfl, rfl⟩

theorem vsActive (s : State) (c n : Nat) (fn : Bool) : Spares P s (s.vsActive c n fn) := by
  unfold State.vsActive
  extract_lets k t f
  refine .trans (.setCell ?_) (.of_flagged (.trans (.bumpUnits ..) (.bumpUnits ..)))
  exact ⟨rfl, rfl, rfl⟩

end Spares

/-! ### The execution of one instruction -/

theorem VsOp.stored_length (o : VsOp) (rl free : Nat) (w : VWrite) : (o.stored rl free w).length = w.bytes.length := by
  unfold VsOp.stored
  split
  · rw [List.length_map, List.length_range]
  · rfl

/-- What a vector instruction of a cell comes to on the state as it stands. -/
def State.vsResult (s : State) (c : Nat) (o : VsOp) : VRun := s.vRun c o (o.rowLen (s.cell c).vecShape) (s.vActive o)

/-- A scratchpad byte that the execution of a vector instruction leaves alone: it lies in none of its results, and R153 does
not leave it undefined. -/
def State.vsSpared (s : State) (c : Nat) (o : VsOp) (a : Nat) : Prop :=
  (∀ w ∈ (s.vsResult c o).writes, a < w.addr ∨ w.addr + w.bytes.length ≤ a) ∧ ¬s.openByte a

/-- The bytes that an instruction stores lie where its results do. -/
theorem State.outside_stored {s : State} {c : Nat} {o : VsOp} {a : Nat} (h : s.vsSpared c o a) (rl free : Nat) :
    ∀ w ∈ (s.vsResult c o).writes.map (fun w => (w.addr, o.stored rl free w)), a < w.1 ∨ w.1 + w.2.length ≤ a := by
  obtain ⟨hout, -⟩ := h
  intro x hx
  obtain ⟨w, hw, rfl⟩ := List.mem_map.mp hx
  rw [VsOp.stored_length]
  exact hout w hw

/-- Execution writes the bytes of its results, and its scalar result where it has one; the rest of it changes flags,
counters, tiles and reports only. -/
theorem State.vsExecOn_spares (s : State) (c : Nat) (o : VsOp) : ∃ t, Spares (s.vsSpared c o) s t
    ∧ s.vsExecOn c o = if (vctl o.ctl).writesSd then t.writeSd c o.sd (s.vsResult c o).sd else t := by
  unfold State.vsExecOn
  extract_lets k rl act r inv raw fl bytes s1 s2 s3 s4 s5 s6 s7 s8 s9
  refine ⟨s9, ?_, by rw [State.vsResult]⟩
  have hread : Flagged (s.derive c o.handles bytes) s1 := .spadTouchAll ..
  have h1 : Spares (s.vsSpared c o) s s1 := .trans (.derive ..) (.of_flagged hread)
  have h2 : Spares (s.vsSpared c o) s1 s2 := by
    refine .trans (.of_flagged (.setFree ..)) (.spadWrites bytes _ fun a ha => ?_)
    have hout := State.outside_stored ha rl (s.free + 2 ^ 32)
    obtain ⟨-, hclosed⟩ := ha
    refine ⟨hout, fun hopen => ?_⟩
    rcases State.openByte_derive (hread.openByte.mp hopen) with hopen | ⟨w, hw, hlo, hhi⟩
    · exact hclosed hopen
    · have := hout w hw
      omega
  have h3 : Spares (s.vsSpared c o) s2 s3 := .ite (.of_flagged (.clampRule ..)) (.refl _)
  have h4 : Spares (s.vsSpared c o) s3 s4 := .of_flagged (.trans (.vsFlags ..) (.bumpUnits ..))
  have h5 : Spares (s.vsSpared c o) s4 s5 := .ite (.foldl (.tileSat _ c) ..) (.refl _)
  have h6 : Spares (s.vsSpared c o) s5 s6 := .of_flagged (.trans (.bumpUnits ..) (.bumpUnits ..))
  have h7 : Spares (s.vsSpared c o) s6 s7 := .ite (.of_flagged (.loss ..)) (.refl _)
  have h8 : Spares (s.vsSpared c o) s7 s8 := .ite (.of_flagged (.nanDropped ..)) (.refl _)
  have h9 : Spares (s.vsSpared c o) s8 s9 := .trans (.freeTiles ..) (.vsActive ..)
  exact h1.trans (h2.trans (h3.trans (h4.trans (h5.trans (h6.trans (h7.trans (h8.trans h9)))))))

theorem Cell.s_of_sameRegs {k k' : Cell} (h : SameRegs k k') (n : Nat) : k'.s n = k.s n := by
  obtain ⟨hs, -, -⟩ := h
  rw [Cell.s, hs, Cell.s]

section
variable (s : State) (c sd v : Nat)

theorem State.writeSd_cell_of_ne {d : Nat} (h : d ≠ c) : (s.writeSd c sd v).cell d = s.cell d :=
  (State.cell_setCell ..).trans (if_neg h)

theorem State.writeSd_cell_self : (s.writeSd c sd v).cell c =
    ({ s.cell c with owed := (s.cell c).owed.filter (· != sd) } : Cell).setS sd (BitVec.ofNat 64 v) :=
  (State.cell_setCell ..).trans (if_pos rfl)

/-- The scalar destination takes its value, and no other register changes. -/
theorem State.writeSd_s (n : Nat) : ((s.writeSd c sd v).cell c).s n =
    if n = sd ∧ n ≠ 0 then BitVec.ofNat 64 v else (s.cell c).s n := by
  rw [State.writeSd_cell_self, Cell.s_setS]
  exact if_congr (and_congr_right fun h => by rw [h]) rfl rfl

end

/-- What the execution of a vector instruction leaves: its scalar result in SD where it has one, and the rest of the
registers, the pool and the bytes outside its results as they were. -/
theorem State.vsExecOn_leaves (s : State) (c : Nat) (v : VsOp) :
    let t := s.vsExecOn c v
    let w := (vctl v.ctl).writesSd
    (∀ a, s.vsSpared c v a → memByte t.spad a = memByte s.spad a)
      ∧ t.hbm = s.hbm ∧ (t.cell c).areg = (s.cell c).areg ∧ (t.cell c).preg = (s.cell c).preg
      ∧ (∀ d, d ≠ c → SameRegs (s.cell d) (t.cell d))
      ∧ (w = true → ∀ n, (t.cell c).s n = if n = v.sd ∧ n ≠ 0 then BitVec.ofNat 64 (s.vsResult c v).sd else (s.cell c).s n)
      ∧ (w = false → (t.cell c).sreg = (s.cell c).sreg) := by
  obtain ⟨u, ⟨hhbm, hregs, hspad⟩, hexec⟩ := s.vsExecOn_spares c v
  obtain ⟨hs, ha, hp⟩ := hregs c
  dsimp only
  rw [hexec]
  cases hw : (vctl v.ctl).writesSd with
  | true =>
    rw [if_pos rfl]
    refine ⟨hspad, hhbm, ?_, ?_, fun d hd => ?_, fun _ n => ?_, nofun⟩
    · rw [State.writeSd_cell_self, Cell.setS_areg, ha]
    · rw [State.writeSd_cell_self, Cell.setS_preg, hp]
    · rw [State.writeSd_cell_of_ne _ _ _ _ hd]
      exact hregs d
    · rw [State.writeSd_s, Cell.s_of_sameRegs (hregs c)]
  | false =>
    rw [if_neg Bool.false_ne_true]
    exact ⟨hspad, hhbm, ha, hp, fun d _ => hregs d, nofun, fun _ => hs⟩

/-! ### An idle engine (R183) -/

/-- The head of a vector queue that reads no accumulator tile executes. -/
theorem State.vsStep_of_no_tiles {s : State} {c : Nat} {v : VsOp} {rest : List VsOp} (hq : (s.cell c).vsq = v :: rest)
    (hacc : v.handles = []) : s.vsStep c = some ((s.setCell c { s.cell c with vsq := rest }).vsExecOn c v) := by
  have hfits : v.misfit c (s.cell c).vecShape = false := by
    rw [VsOp.misfit, VsOp.shapeOff, hacc]
    rfl
  rw [State.vsStep, hq]
  dsimp only
  rw [hacc, hfits]
  rfl

/-- Engines whose only work is one such instruction execute it, and nothing is left to run. -/
theorem State.runEngines_of_single {s : State} {c : Nat} {v : VsOp} (hworks : s.works = true) (hmx : (s.cell c).mxq = [])
    (hq : (s.cell c).vsq = [v]) (hacc : v.handles = []) :
    s.runEngines c = (s.setCell c { s.cell c with vsq := [] }).vsExecOn c v := by
  have hmatrix : s.mxStep c = none := by rw [State.mxStep, hmx]
  rw [State.runEngines, if_pos hworks, hmx, hq]
  show State.engineLoop 1 c s = _
  rw [State.engineLoop, hmatrix]
  dsimp only
  rw [State.vsStep_of_no_tiles hq hacc]
  rfl

theorem State.vsPush_cell (s : State) (c : Nat) (v : VsOp) : (s.vsPush c v).cell c =
    { s.cell c with vsq := (s.cell c).vsq ++ [v],
                    owed := if (vctl v.ctl).writesSd && v.sd != 0 then (s.cell c).owed ++ [v.sd] else (s.cell c).owed } :=
  (State.cell_setCell ..).trans (if_pos rfl)

theorem State.runEngines_vsPush {s : State} {c : Nat} {v : VsOp} (hworks : s.works = true) (hvs : (s.cell c).vsq = [])
    (hmx : (s.cell c).mxq = []) (hacc : v.handles = []) : (s.vsPush c v).runEngines c =
      ((s.vsPush c v).setCell c { (s.vsPush c v).cell c with vsq := [] }).vsExecOn c v := by
  refine State.runEngines_of_single hworks ?_ ?_ hacc
  · rw [State.vsPush_cell]
    exact hmx
  · rw [State.vsPush_cell, hvs]
    rfl

end Sys2Proof.Machine
end

section
/-! PROOF. Elements of the main path: saturation, bitwise operations and the sign (R122, R173, Table 6-4). -/

namespace Sys2Proof.Machine

/-- The least integer of I32 or U16. -/
def intLo (f : Nat) : Int := if f = 7 then -(2 ^ 31) else 0

/-- The greatest integer of I32 or U16. -/
def intHi (f : Nat) : Int := if f = 7 then 2 ^ 31 - 1 else 65535

section
variable {f : Nat} {i : Int}

theorem intLo_le_intHi (f : Nat) : intLo f ≤ intHi f := by
  unfold intLo intHi
  split
  · decide
  · decide

/-- An integer clipped to the range, and whether it was moved (R173). -/
theorem satInt_eq (f : Nat) (i : Int) : satInt f i =
    (i32Bits (if i < intLo f then intLo f else if intHi f < i then intHi f else i),
      decide ((if i < intLo f then intLo f else if intHi f < i then intHi f else i) ≠ i)) := rfl

theorem satInt_of_held (hlo : intLo f ≤ i) (hhi : i ≤ intHi f) : satInt f i = (i32Bits i, false) := by
  rw [satInt_eq, if_neg (Int.not_lt.mpr hlo), if_neg (Int.not_lt.mpr hhi), decide_eq_false fun h => h rfl]

theorem satInt_of_above (h : intHi f < i) : satInt f i = (i32Bits (intHi f), true) := by
  have hlo := intLo_le_intHi f
  rw [satInt_eq, if_neg (by omega), if_pos h, decide_eq_true (ne_of_lt h)]

theorem satInt_of_below (h : i < intLo f) : satInt f i = (i32Bits (intLo f), true) := by
  rw [satInt_eq, if_pos h, decide_eq_true (ne_of_gt h)]

end

section
variable {op fa fb fd i a b : Nat} {r : Int} (h : vsMain op fa fb fd i a b = satInt fd r)
include h

/-- An integer operation whose exact result its destination format holds gives it, and saturates nothing. -/
theorem vsMain_of_held (hlo : intLo fd ≤ r) (hhi : r ≤ intHi fd) : vsMain op fa fb fd i a b = (i32Bits r, false) :=
  h.trans (satInt_of_held hlo hhi)

theorem vsMain_of_above (hhi : intHi fd < r) : vsMain op fa fb fd i a b = (i32Bits (intHi fd), true) :=
  h.trans (satInt_of_above hhi)

theorem vsMain_of_below (hlo : r < intLo fd) : vsMain op fa fb fd i a b = (i32Bits (intLo fd), true) :=
  h.trans (satInt_of_below hlo)

end

/-- NEG of an H16 code: the canonical NaN for a NaN, else the sign bit flipped (R122). -/
theorem vsSign_neg_h16 (a : Nat) : vsSign 0x10 4 a = if isNanVal (decH16 a) then 0x7F80 else a ^^^ 0x8000 := by
  cases h : isNanVal (decH16 a) with
  | true => simp [vsSign, passCode, h]
  | false => simp [vsSign, h]

/-- NEG of a W32 code. -/
theorem vsSign_neg_w32 (a : Nat) : vsSign 0x10 5 a =
    if isNanVal (decW32 (BitVec.ofNat 32 a)) then 0x7FE00000 else a ^^^ 0x80000000 := by
  cases h : isNanVal (decW32 (BitVec.ofNat 32 a)) with
  | true => simp [vsSign, passCode, h]
  | false => simp [vsSign, h]

/-- Settles O9: an execution by what each part of it spares, an element by the range of its format. -/
theorem vectorExecutionFollowsItsRules : Obligations.VectorExecutionFollowsItsRules := by
  refine ⟨fun s c v => State.runEngines_vsPush, fun s c v => ?_, fun fa fb fd i a b _ _ => ?_, fun fb fd i a b => ?_⟩
  · obtain ⟨hspad, hrest⟩ := s.vsExecOn_leaves c v
    exact ⟨fun a hout hclosed => hspad a ⟨hout, hclosed⟩, hrest⟩
  · exact ⟨vsMain_of_held rfl, vsMain_of_held rfl, vsMain_of_held rfl, vsMain_of_held rfl, vsMain_of_held rfl,
      vsMain_of_held rfl, vsMain_of_above rfl, vsMain_of_below rfl, rfl, rfl, rfl⟩
  · exact ⟨congrArg (·, false) (vsSign_neg_h16 a), congrArg (·, false) (vsSign_neg_w32 a)⟩

end Sys2Proof.Machine
end

section
/-! PROOF. The tile move class: copies, the fence, the repeat check, and widens (R170, R204, R207 to R209, R397). -/

namespace Sys2Proof.Machine

/-! ### TM.COPY (R170, R397) -/

theorem exec_tmCopy_eq (c : Nat) (o : ROps) (s : State) : exec (.tmCopy c o) s =
    coreR c (.tmCopy c o) o 0x03 0x02 [o.sa.toNat] (fun t =>
      let k := t.cell c
      let n := copyLen (k.s o.sa.toNat)
      let src := (k.a o.ax.toNat).toNat
      let dst := (k.a o.ay.toNat).toNat
      if copyOk n src dst then .done (t.copySpad n src dst) else .exc excTmAddr 0) s := by rfl

/-- The operands of a copy from two address registers are in order where R397 says so. -/
theorem copyOk_iff (n : Nat) (src dst : W32) : copyOk n src.toNat dst.toNat = true ↔
    n ≠ 0 ∧ src.toNat % 64 = 0 ∧ dst.toNat % 64 = 0 ∧ src.toNat % 2 ^ 23 + n ≤ 6291456 ∧ dst.toNat % 2 ^ 23 + n ≤ 6291456 := by
  have hsrc := src.isLt
  have hdst := dst.isLt
  simp only [copyOk, spadIn, Bool.and_eq_true, bne_iff_ne, beq_iff_eq, decide_eq_true_eq, hsrc, hdst, true_and, and_assoc]
  exact Iff.rfl

section
variable {s : State} {c : Nat} {o : ROps}

theorem exec_tmCopy_leaves (h : copyOk (copyLen ((s.cell c).s o.sa.toNat)) ((s.cell c).a o.ax.toNat).toNat
    ((s.cell c).a o.ay.toNat).toNat = true) : RLeaves s c (.tmCopy c o) o 0x03 0x02 [o.sa.toNat]
      ((s.fetched c 0x03 0x02).copySpad (copyLen ((s.cell c).s o.sa.toNat)) ((s.cell c).a o.ax.toNat).toNat
        ((s.cell c).a o.ay.toNat).toNat) :=
  rLeaves_of (exec_tmCopy_eq c o s) (by simp only [fetched_s, fetched_a]; exact if_pos h)

theorem exec_tmCopy_traps (h : ¬copyOk (copyLen ((s.cell c).s o.sa.toNat)) ((s.cell c).a o.ax.toNat).toNat
    ((s.cell c).a o.ay.toNat).toNat = true) : RTraps s c (.tmCopy c o) o 0x03 0x02 [o.sa.toNat] 0x31 :=
  rTraps_of (exec_tmCopy_eq c o s) (by simp only [fetched_s, fetched_a]; exact if_neg h)

end

/-- A byte whose source the copy does not write, or is the same byte, takes that source as it was. -/
theorem copyByte_of_closed {m : List (Nat × Byte)} {free n src dst i : Nat}
    (h : src = dst ∨ src + i < dst ∨ dst + n ≤ src + i) : ∀ f, copyByte m free n src dst f i = memByte m (src + i)
  | 0 => rfl
  | f + 1 => by
    have hclosed : copyOpen n src dst i = false := by
      simp only [copyOpen, Bool.and_eq_false_iff, bne_eq_false_iff_eq, decide_eq_false_iff_not, Nat.not_le, Nat.not_lt]
      omega
    rw [copyByte, hclosed, if_neg (fun h => Bool.false_ne_true h.1)]

/-- What a copy leaves: its bytes at the destination, the other bytes of scratchpad and the pool as they were. -/
theorem State.copySpad_leaves (s : State) (n src dst : Nat) :
    let t := s.copySpad n src dst
    (∀ j, j < n → src = dst ∨ src + j < dst ∨ dst + n ≤ src + j → memByte t.spad (dst + j) = memByte s.spad (src + j))
      ∧ OtherBytes s t dst n ∧ t.hbm = s.hbm := by
  have htouch : Flagged s { s.spadTouch src n with free := (s.spadTouch src n).free + n } :=
    (Flagged.spadTouch ..).trans (.setFree ..)
  obtain ⟨-, hspad, hhbm⟩ := Flagged.spadTouch s src n
  unfold State.copySpad
  extract_lets s1 bs
  have hlen : bs.length = n := by rw [List.length_map, List.length_range]
  refine ⟨fun j hj hclosed => ?_, fun x hx hopen => ?_, (spadWrite_hbm ..).trans hhbm⟩
  · rw [spadWrite_inside _ _ _ _ (hlen.symm ▸ hj), List.getD_eq_getElem _ _ (hlen.symm ▸ hj), List.getElem_map,
      List.getElem_range, copyByte_of_closed hclosed, hspad]
  · rw [spadWrite_other _ dst bs x (hlen.symm ▸ hx) (mt htouch.openByte.mp hopen)]
    exact congrArg (memByte · x) hspad

/-! ### TM.FENCE and TM.RCHK (R204, R301) -/

/-- The store buffer is written out before every tile move. -/
theorem State.fetched_tileMove (s : State) (c opc : Nat) : s.fetched c 0x03 opc = s.fetched c 0x03 0x00 := rfl

theorem exec_tmFence_eq (c : Nat) (o : ROps) (s : State) : exec (.tmFence c o) s =
    coreR c (.tmFence c o) o 0x03 0x03 [] (fun t => if (t.cell c).widens.isEmpty then .done t else .stall) s := by rfl

theorem exec_tmRchk_eq (c : Nat) (o : ROps) (s : State) : exec (.tmRchk c o) s =
    coreR c (.tmRchk c o) o 0x03 0x00 [o.sd.toNat, o.sa.toNat, o.sb.toNat] (fun t =>
      t.pagesFirst c (t.layerPages (field ((t.cell c).s o.sb.toNat).toNat 19 0)) (fun u =>
        let r := u.rchk c ((t.cell c).s o.sa.toNat) ((t.cell c).s o.sb.toNat)
        effS c o.sd.toNat r.1 r.2)) s := by rfl

/-- An instruction whose pages are at hand has its effect once the wait for them has ended. -/
theorem State.pagesFirst_of_here {s : State} {c : Nat} {ps : List Nat} (h : s.farNeed (.core c) ps = [])
    (eff : State → Eff) : s.pagesFirst c ps eff = (eff (s.goOn (.core c))).from (s.goOn (.core c)) := by
  rw [State.pagesFirst, h]
  rfl

section
variable {s : State} {c : Nat} {o : ROps}

theorem exec_tmFence_leaves (h : ((s.fetched c 0x03 0x00).cell c).widens = []) :
    RLeaves s c (.tmFence c o) o 0x03 0x03 [] (s.fetched c 0x03 0x00) :=
  rLeaves_of (exec_tmFence_eq c o s) (by rw [State.fetched_tileMove]; exact if_pos (List.isEmpty_iff.mpr h))

theorem exec_tmFence_stalls (h : ((s.fetched c 0x03 0x00).cell c).widens ≠ []) :
    RStalls s c (.tmFence c o) o 0x03 0x03 [] :=
  rStalls_of (exec_tmFence_eq c o s) (by rw [State.fetched_tileMove]; exact if_neg (mt List.isEmpty_iff.mp h))

theorem exec_tmRchk_leaves (h : (s.fetched c 0x03 0x00).farNeed (.core c)
      ((s.fetched c 0x03 0x00).layerPages (((s.cell c).s o.sb.toNat).toNat % 2 ^ 20)) = []) :
    let r := ((s.fetched c 0x03 0x00).goOn (.core c)).rchk c ((s.cell c).s o.sa.toNat) ((s.cell c).s o.sb.toNat)
    RLeaves s c (.tmRchk c o) o 0x03 0x00 [o.sd.toNat, o.sa.toNat, o.sb.toNat]
      (r.2.setCell c ((r.2.cell c).setS o.sd.toNat r.1)) := by
  refine rLeaves_of (exec_tmRchk_eq c o s) ?_
  have hlayer : field ((s.cell c).s o.sb.toNat).toNat 19 0 = ((s.cell c).s o.sb.toNat).toNat % 2 ^ 20 := by
    rw [field_eq_div, Nat.pow_zero, Nat.div_one]
  simp only [fetched_s, hlayer]
  rw [State.pagesFirst_of_here h]
  rfl

end

/-! ### TM.WIDEN (R207) -/

/-- What TM.WIDEN does once it issues: its checks, then a tag for its fetch. -/
def widenEff (c : Nat) (o : ROps) (t : State) : Eff :=
  let k := t.cell c
  let src := (k.a o.ax.toNat).toNat
  let dst := (k.a o.ay.toNat).toNat
  match t.checkWiden c src dst (k.s o.sb.toNat) with
  | some e => .exc e 0
  | none => match t.nextTag with
    | none => t.tagWait c (.tmWiden c o)
    | some tag => .done (t.startWiden c tag src dst o.sd.toNat (k.s o.sa.toNat) (k.s o.sb.toNat))

theorem exec_tmWiden_eq (c : Nat) (o : ROps) (s : State) : exec (.tmWiden c o) s =
    coreR c (.tmWiden c o) o 0x03 0x01 [o.sd.toNat, o.sa.toNat, o.sb.toNat] (widenEff c o) s := by rfl

section
variable {s : State} {c : Nat} {o : ROps}

theorem exec_tmWiden_leaves {tag : Nat} (hok : (s.fetched c 0x03 0x00).checkWiden c ((s.cell c).a o.ax.toNat).toNat
      ((s.cell c).a o.ay.toNat).toNat ((s.cell c).s o.sb.toNat) = none) (htag : (s.fetched c 0x03 0x00).nextTag = some tag) :
    RLeaves s c (.tmWiden c o) o 0x03 0x01 [o.sd.toNat, o.sa.toNat, o.sb.toNat]
      ((s.fetched c 0x03 0x00).startWiden c tag ((s.cell c).a o.ax.toNat).toNat ((s.cell c).a o.ay.toNat).toNat o.sd.toNat
        ((s.cell c).s o.sa.toNat) ((s.cell c).s o.sb.toNat)) := by
  refine rLeaves_of (exec_tmWiden_eq c o s) ?_
  rw [State.fetched_tileMove, widenEff]
  simp only [fetched_s, fetched_a, hok, htag]

theorem exec_tmWiden_traps {e : Nat} (hbad : (s.fetched c 0x03 0x00).checkWiden c ((s.cell c).a o.ax.toNat).toNat
      ((s.cell c).a o.ay.toNat).toNat ((s.cell c).s o.sb.toNat) = some e) :
    RTraps s c (.tmWiden c o) o 0x03 0x01 [o.sd.toNat, o.sa.toNat, o.sb.toNat] e := by
  refine rTraps_of (exec_tmWiden_eq c o s) ?_
  rw [State.fetched_tileMove, widenEff]
  simp only [fetched_s, fetched_a, hbad]

end

/-! ### WIDEN_COMPLETE (R208, R209) -/

theorem exec_widenComplete_eq (c w : Nat) (s : State) : exec (.widenComplete c w) s = execWidenComplete c w s := by rfl

theorem alistGet_tabDel_self {V : Type} (k : Nat) (m : List (Nat × V)) : alistGet (tabDel k m) k = none := by
  unfold tabDel
  induction m with
  | nil => rfl
  | cons p m ih =>
    by_cases hp : p.1 = k
    · rwa [List.filter_cons_of_neg (by simp [hp])]
    · rw [List.filter_cons_of_pos (by simp [hp]), alistGet, if_neg (fun h => hp h.symm)]
      exact ih

/-- A widen of a cell has ended with a result code: SD takes it and is owed no longer, the widen is gone, and the pool's bytes
stay. -/
def WidenEnds (s t : State) (c w sd v : Nat) : Prop :=
  (∀ n, (t.cell c).s n = if n = sd ∧ n ≠ 0 then BitVec.ofNat 64 v else (s.cell c).s n)
    ∧ (t.cell c).owed = (s.cell c).owed.erase sd ∧ alistGet (t.cell c).widens w = none ∧ t.hbm = s.hbm

theorem State.endWiden_ends (s : State) (c w sd v : Nat) : WidenEnds s (s.endWiden c w sd v) c w sd v := by
  have hcell : (s.endWiden c w sd v).cell c = { (s.cell c).setS sd (BitVec.ofNat 64 v) with
      widens := tabDel w (s.cell c).widens, owed := (s.cell c).owed.erase sd } := (State.cell_setCell ..).trans (if_pos rfl)
  unfold WidenEnds
  rw [hcell]
  refine ⟨fun n => ?_, rfl, alistGet_tabDel_self .., rfl⟩
  show ((s.cell c).setS sd (BitVec.ofNat 64 v)).s n = _
  rw [Cell.s_setS]
  exact if_congr (and_congr_right fun h => by rw [h]) rfl rfl

/-- Of a cell, what a widen has fetched changes its tiles, the status words of its ended tiles and the mark of R153 at most,
as every write of scratchpad does; the pool's bytes stay. -/
theorem State.writeWiden_rest (s : State) (x : Widen) (h : Hdr) (bs : List Byte) (c : Nat) :
    (∃ r t w, (s.writeWiden x h bs).cell c = { s.cell c with mxRaced := r, tiles := t, lastTsw := w })
      ∧ (s.writeWiden x h bs).hbm = s.hbm := by
  have htwice : ∀ a b l m, (∃ r t w, ((s.spadWrite a l).spadWrite b m).cell c
      = { s.cell c with mxRaced := r, tiles := t, lastTsw := w }) ∧ ((s.spadWrite a l).spadWrite b m).hbm = s.hbm := by
    intro a b l m
    obtain ⟨r, t, w, hfirst⟩ := spadWrite_cell_rest s a c l
    obtain ⟨r', t', w', hsecond⟩ := spadWrite_cell_rest (s.spadWrite a l) b c m
    exact ⟨⟨r', t', w', by rw [hsecond, hfirst]⟩, by rw [spadWrite_hbm, spadWrite_hbm]⟩
  unfold State.writeWiden State.putObject State.spadPut
  dsimp only
  split
  · exact htwice ..
  · exact htwice ..

theorem State.writeWiden_ends (s : State) (c w v : Nat) (x : Widen) (h : Hdr) (bs : List Byte) :
    WidenEnds s ((s.writeWiden x h bs).endWiden c w x.sd v) c w x.sd v := by
  obtain ⟨⟨r, t, l, hcell⟩, hhbm⟩ := s.writeWiden_rest x h bs c
  have hends := (s.writeWiden x h bs).endWiden_ends c w x.sd v
  unfold WidenEnds at hends
  rw [hcell, hhbm] at hends
  exact hends

section
variable {s : State} {c w : Nat} {x : Widen} (hc : c < 512) (hworks : s.works = true)
  (hx : alistGet (s.cell c).widens w = some x)
include hc hworks hx

theorem exec_widenComplete_stale {h : Hdr} {bs : List Byte} (hresp : x.resp = some (h, bs)) (hflag : hdrFlag h 4 = true) :
    exec (.widenComplete c w) s = .next (s.endWiden c w x.sd 1) := by
  rw [exec_widenComplete_eq, execWidenComplete, decide_eq_true hc, onUnit_true, hx]
  dsimp only
  rw [hworks, whenOk_true, hresp]
  dsimp only
  rw [hflag, if_pos rfl]

theorem exec_widenComplete_came {h : Hdr} {bs : List Byte} (hresp : x.resp = some (h, bs)) (hflag : hdrFlag h 4 = false)
    (hfmt : h.fmt.toNat ≤ 8) :
    exec (.widenComplete c w) s = .next ((s.writeWiden x h bs).endWiden c w x.sd 0) := by
  have hknown : ¬fmtReserved h.fmt.toNat = true := by simpa [fmtReserved] using Nat.lt_succ_of_le hfmt
  rw [exec_widenComplete_eq, execWidenComplete, decide_eq_true hc, onUnit_true, hx]
  dsimp only
  rw [hworks, whenOk_true, hresp]
  dsimp only
  rw [hflag, if_neg Bool.false_ne_true, if_neg hknown]

theorem exec_widenComplete_failed (hresp : x.resp = none) (hfail : x.failed = true) :
    exec (.widenComplete c w) s = .next (s.endWiden c w x.sd 2) := by
  rw [exec_widenComplete_eq, execWidenComplete, decide_eq_true hc, onUnit_true, hx]
  dsimp only
  rw [hworks, whenOk_true, hresp]
  dsimp only
  rw [hfail, if_pos rfl]

end

/-- Settles O11: a copy by the source of each byte, a widen by its checks and by the answer to its fetch. -/
theorem tileMovesCopyAndWiden : Obligations.TileMovesCopyAndWiden := by
  refine ⟨⟨fun s c o => ⟨fun hok => exec_tmCopy_leaves ((copyOk_iff ..).mpr hok),
      fun hbad => exec_tmCopy_traps (mt (copyOk_iff ..).mp hbad)⟩, State.copySpad_leaves⟩,
    fun s c o => ⟨exec_tmFence_leaves, exec_tmFence_stalls, exec_tmRchk_leaves, fun tag => exec_tmWiden_leaves,
      fun e => exec_tmWiden_traps⟩,
    fun s c w x hc hworks hx => ⟨fun h bs hresp hflag => ?_, fun h bs hresp hflag hfmt => ?_, fun hresp hfail => ?_⟩⟩
  · exact ⟨_, exec_widenComplete_stale hc hworks hx hresp hflag, s.endWiden_ends c w x.sd 1⟩
  · exact ⟨_, exec_widenComplete_came hc hworks hx hresp hflag hfmt, s.writeWiden_ends c w 0 x h bs⟩
  · exact ⟨_, exec_widenComplete_failed hc hworks hx hresp hfail, s.endWiden_ends c w x.sd 2⟩

end Sys2Proof.Machine
end

section
/-! PROOF. The course of the step machine: what reports, flags, and reads and writes of pages leave of it (R258 to
R272). -/

namespace Sys2Proof.Machine

/-- The registers that the course of a step goes by; no unit writes one. -/
def stepRegs : List Nat := [Reg.modStepCtrl, Reg.modEpoch, Reg.guyBound]

/-- The course of the step machine: all of it but its flags, the cells of a round, and the verdict held. -/
def StepSt.course (k : StepSt) : StepSt :=
  { k with flags := 0, pend := 0, early := 0, earlyNext := 0, lateSeen := false, lateOr := 0, children := [],
           forwarded := false, verdict := none, seqOut := [] }

/-- The step machine is on its course as before, under the same registers; fly versions and scratchpad are the same. -/
def StepKept (s t : State) : Prop :=
  t.step.course = s.step.course ∧ (∀ off ∈ stepRegs, t.reg off = s.reg off) ∧ t.pool.flies = s.pool.flies
    ∧ t.spad = s.spad

/-- Registers of units lie above those that a step goes by. -/
theorem add_not_mem_stepRegs {base : Nat} (h : Reg.guyBound < base) (n : Nat) : base + n ∉ stepRegs := by
  have hall : ∀ off ∈ stepRegs, off ≤ Reg.guyBound := by decide
  exact fun hmem => Nat.not_le.mpr (Nat.lt_add_right n h) (hall _ hmem)

theorem stepRegs_not_written : ∀ off ∈ stepRegs, off ∉ evtRing.written ∧ off ∉ clampRing.written := by decide

theorem Reported.pool {s t : State} (h : Reported s t) : t.pool = s.pool := by
  obtain ⟨_, _, _, _, _, _, _, rfl⟩ := h
  rfl

namespace StepKept

theorem refl (s : State) : StepKept s s := ⟨rfl, fun _ _ => rfl, rfl, rfl⟩

theorem trans {s t u : State} (h : StepKept s t) (g : StepKept t u) : StepKept s u := by
  obtain ⟨hcourse, hregs, hflies, hspad⟩ := h
  obtain ⟨gcourse, gregs, gflies, gspad⟩ := g
  exact ⟨gcourse.trans hcourse, fun off ho => (gregs off ho).trans (hregs off ho), gflies.trans hflies,
    gspad.trans hspad⟩

theorem of_eq {s t : State} (hcourse : t.step.course = s.step.course) (hregs : t.regs = s.regs)
    (hflies : t.pool.flies = s.pool.flies) (hspad : t.spad = s.spad) : StepKept s t :=
  ⟨hcourse, fun off _ => congrArg (tabGet resetWord · off) hregs, hflies, hspad⟩

theorem setPool (s : State) (p : Pool) (h : p.flies = s.pool.flies) : StepKept s { s with pool := p } := of_eq rfl rfl h rfl

theorem setStep (s : State) (k : StepSt) (h : k.course = s.step.course) : StepKept s { s with step := k } :=
  of_eq h rfl rfl rfl

theorem of_reported {s t : State} (h : Reported s t) (hregs : ∀ off ∈ stepRegs, t.reg off = s.reg off) : StepKept s t :=
  ⟨by rw [h.step], hregs, by rw [h.pool], h.spad⟩

theorem of_pair {α : Type} {s t : State} {q : α × State} {x : α} (hq : StepKept s q.2) (h : q = (x, t)) :
    StepKept s t := by
  rwa [h] at hq

theorem ite {s t u : State} {p : Prop} [Decidable p] (ht : StepKept s t) (hu : StepKept s u) :
    StepKept s (if p then t else u) := iteInduction (fun _ => ht) (fun _ => hu)

theorem foldl {α : Type} {f : State → α → State} (hf : ∀ s a, StepKept s (f s a)) (l : List α) (s : State) :
    StepKept s (l.foldl f s) := l.foldlRecOn f (refl s) fun t h a _ => h.trans (hf t a)

/-! ### Registers, flags and reports -/

theorem setReg (s : State) {off : Nat} (v : W32) (h : off ∉ stepRegs) : StepKept s (s.setReg off v) :=
  ⟨rfl, fun o ho => by rw [State.reg_setReg, if_neg (ne_of_mem_of_not_mem ho h)], rfl, rfl⟩

theorem setFld (s : State) {off : Nat} (lo w v : Nat) (h : off ∉ stepRegs) : StepKept s (s.setFld off lo w v) :=
  setReg s _ h

theorem bumpBy (s : State) {off : Nat} (n : Nat) (h : off ∉ stepRegs) : StepKept s (s.bumpBy off n) := setReg s _ h

theorem bump (s : State) {off : Nat} (h : off ∉ stepRegs) : StepKept s (s.bump off) := bumpBy s 1 h

theorem bumpUnits (s : State) {off : Nat} (n : Nat) (h : off ∉ stepRegs) : StepKept s (s.bumpUnits off n) := by
  unfold State.bumpUnits
  split
  · exact refl s
  · exact bumpBy s n h

theorem raiseFlag (s : State) (f : BitVec 4) (e : W32) : StepKept s (s.raiseFlag f e) :=
  .ite (.ite (.of_eq rfl rfl rfl rfl) (.ite (.of_eq rfl rfl rfl rfl)
    (.ite (.ite (.of_eq rfl rfl rfl rfl) (.of_eq rfl rfl rfl rfl)) (.ite (.of_eq rfl rfl rfl rfl) (bump s (by decide))))))
    (bump s (by decide))

theorem toHost (s : State) (o : Output) : StepKept s (s.toHost o) := .ite (.of_eq rfl rfl rfl rfl) (.of_eq rfl rfl rfl rfl)

theorem msix (s : State) (v : Nat) : StepKept s (s.msix v) :=
  .ite (setFld s _ _ _ (add_not_mem_stepRegs (by decide) _)) (toHost ..)

theorem report (s : State) (code unit data : Nat) : StepKept s (s.report code unit data) :=
  of_reported (.report ..) fun off ho => State.reg_report (stepRegs_not_written off ho).1 ..

theorem reportLim (s : State) (code source unit data : Nat) : StepKept s (s.reportLim code source unit data) :=
  .ite (refl s) (.trans (.of_eq rfl rfl rfl rfl) (report ..))

theorem clampPut (s : State) (x : RingRec) : StepKept s (s.clampPut x) :=
  of_reported (.clampPut ..) fun off ho =>
    State.reg_clampPut (stepRegs_not_written off ho).2 (stepRegs_not_written off ho).1 ..

theorem countItem (s : State) (i : ClampItem) : StepKept s (s.countItem i) := by
  unfold State.countItem
  split
  · exact bump s (by decide)
  · exact bump s (by decide)

theorem clampRead (s : State) (kind ident head tail source : Nat) (items : List ClampItem) :
    StepKept s (s.clampRead kind ident head tail source items) := by
  unfold State.clampRead
  dsimp only
  split
  · exact refl s
  · have hcount : StepKept s (items.foldl State.countItem
        (if head != tail then (s.bump Reg.bootTorn).reportLim 0x0710 0 source (kind % 256 + 256 * (ident % 2 ^ 24))
         else s)) :=
      .trans (.ite ((bump s (by decide)).trans (reportLim ..)) (refl s)) (foldl countItem ..)
    refine hcount.trans (.ite (refl _) (.trans ?_ (foldl (fun t i => clampPut t _) ..)))
    exact .ite (.trans (.of_eq rfl rfl rfl rfl) (clampPut ..)) (.of_eq rfl rfl rfl rfl)

/-! ### Reads of pages and descriptors -/

theorem hbmCorrect (s : State) (i : Nat) : StepKept s (s.hbmCorrect i) := by
  have hcount : ∀ words (p : Pool), p.flies = s.pool.flies →
      StepKept s { s.bump Reg.poolCe with hbmCe := words, pool := p } := fun _ _ hp =>
    (bump s (off := Reg.poolCe) (by decide)).trans (.of_eq rfl rfl hp rfl)
  unfold State.hbmCorrect
  dsimp only
  split
  · refine .trans ?_ (reportLim ..)
    exact hcount _ _ rfl
  · exact hcount _ _ rfl

theorem setDir (s : State) (p : Nat) (e : DirEntry) : StepKept s (s.setDir p e) := .of_eq rfl rfl rfl rfl

theorem loseShard (s : State) (n p : Nat) : StepKept s (s.loseShard n p) := by
  unfold State.loseShard
  split
  · exact (setDir ..).trans (report ..)
  · exact refl s

theorem hbmUe (scrub : Bool) (committed : Option Nat) (s : State) (i : Nat) : StepKept s (s.hbmUe scrub committed i) := by
  unfold State.hbmUe
  extract_lets f n flag s1 s2
  have hread : StepKept s s2 := ((bump s (by decide)).trans (report ..)).trans (.ite (raiseFlag ..) (refl s1))
  split
  · exact hread.trans (.ite (.trans (.ite (refl s2) (.ite (refl s2) (raiseFlag ..))) (loseShard ..)) (refl s2))
  · exact hread

theorem pageTouch (s : State) (fly : Bool) (p : Nat) (e : DirEntry) (off n : Nat) :
    StepKept s (s.pageTouch fly p e off n) :=
  .ite (refl s) ((foldl hbmCorrect ..).trans (foldl (fun t _ => hbmUe false _ t _) ..))

theorem lostTouch (s : State) (e : DirEntry) : StepKept s (s.lostTouch e) := .ite (raiseFlag ..) (refl s)

theorem usePage (s : State) (p : Nat) : StepKept s (s.usePage p) := by
  unfold State.usePage
  split
  · exact setDir ..
  · exact refl s

theorem poolTouch (s : State) (a n : Nat) : StepKept s (s.poolTouch a n) := by
  refine foldl (fun t p => ?_) ..
  split
  · exact ((pageTouch ..).trans (lostTouch ..)).trans (usePage ..)
  · exact refl t

theorem notServed (s : State) (code p : Nat) : StepKept s (s.notServed code p) := .ite (refl s) (reportLim ..)

theorem unitRead (s : State) (code : Nat) (fly : Bool) (a n : Nat) : StepKept s (s.unitRead code fly a n).2 := by
  unfold State.unitRead
  dsimp only
  split
  · split
    · exact ((pageTouch ..).trans (lostTouch ..)).trans (usePage ..)
    · exact .ite (refl s) (reportLim ..)
  · exact reportLim ..

theorem unitPool (s : State) (code a n : Nat) : StepKept s (s.unitPool code a n).2 := by
  unfold State.unitPool
  split
  · exact notServed ..
  · exact poolTouch ..

theorem unitWords (s : State) (code a : Nat) : StepKept s (s.unitWords code a).2 := unitRead ..

theorem readLayer (s : State) (code source l : Nat) : StepKept s (s.readLayer code source l).2 := by
  have hwords := unitWords s code (s.layerAddr l)
  unfold State.readLayer
  split
  · exact reportLim ..
  · split
    · next h => exact (hwords.of_pair h).trans (reportLim ..)
    · next h => exact (hwords.of_pair h).trans ((clampRead ..).trans (.ite (reportLim ..) (refl _)))

theorem readGroup (s : State) (code source g : Nat) : StepKept s (s.readGroup code source g).2 := by
  have hwords := unitWords s code (s.groupAddr g)
  unfold State.readGroup
  split
  · exact refl s
  · split
    · next h => exact hwords.of_pair h
    · next h => exact (hwords.of_pair h).trans (clampRead ..)

theorem groupNow (s : State) (n g : Nat) : StepKept s (s.groupNow n g).2 := by
  unfold State.groupNow
  split
  · exact refl s
  · exact readGroup ..

theorem groupConsts (s : State) (n g : Nat) (d : UDesc) : StepKept s (s.groupConsts n g d).2 := by
  unfold State.groupConsts
  split
  · exact refl s
  · exact .ite (.of_eq rfl rfl rfl rfl) (refl s)

theorem probeTouch (s : State) (n key : Nat) : StepKept s (s.probeTouch n key) := foldl (fun t _ => poolTouch t ..) ..

theorem readShard (s : State) (n i : Nat) : StepKept s (s.readShard n i).2 := by
  have hwords := unitWords s (0x8000 + n) (s.shardAddr n i)
  unfold State.readShard
  dsimp only
  split
  · next h => exact hwords.of_pair h
  · next h => exact (hwords.of_pair h).trans ((groupNow ..).trans (clampRead ..))

theorem shardUnknown (s : State) (n : Nat) (gather : Bool) (layer : Nat) : StepKept s (s.shardUnknown n gather layer) :=
  (bump s (add_not_mem_stepRegs (by decide) _)).trans (reportLim ..)

theorem lookupShard (s : State) (n : Nat) (gather : Bool) (layer unit : Nat) :
    StepKept s (s.lookupShard n gather layer unit).2 := by
  unfold State.lookupShard
  dsimp only
  split
  · exact (notServed ..).trans (shardUnknown ..)
  · split
    · exact (probeTouch ..).trans (shardUnknown ..)
    · next i _ =>
      have hread := (probeTouch s n (2 ^ 16 * layer + unit)).trans (readShard _ n i)
      split
      · next h => exact (hread.of_pair h).trans (shardUnknown ..)
      · next h => exact hread.of_pair h

theorem groupTouch (s : State) (code g : Nat) : StepKept s (s.groupTouch code g) := by
  unfold State.groupTouch
  split
  · exact refl s
  · split
    · exact notServed ..
    · exact (poolTouch ..).trans (poolTouch ..)

theorem readPlace (s : State) (d l : Nat) : StepKept s (s.readPlace d l).2 := by
  have hwords := unitWords s (0xA000 + d) (s.placeAddr l)
  unfold State.readPlace
  split
  · exact refl s
  · split
    · next h => exact hwords.of_pair h
    · next h => exact (hwords.of_pair h).trans ((groupTouch ..).trans (clampRead ..))

/-! ### Writes of pages -/

theorem partialTouch (s : State) (p : Nat) (e : DirEntry) (off n : Nat) : StepKept s (s.partialTouch p e off n) := by
  unfold State.partialTouch State.partTouch
  dsimp only
  split
  · exact refl s
  · have hfirst : StepKept s (if off % 32 = 0 then s else s.pageTouch false p e off 1) := .ite (refl s) (pageTouch ..)
    exact hfirst.trans (.ite (refl _) (pageTouch ..))

theorem frameWrite (s : State) (f off : Nat) (bs : List Byte) : StepKept s (s.frameWrite f off bs) := .of_eq rfl rfl rfl rfl

theorem setSlot (s : State) (i : Nat) (b : Bool) : StepKept s (s.setSlot i b) := by
  unfold State.setSlot
  dsimp only
  split
  · exact ((partialTouch ..).trans (frameWrite ..)).trans (usePage ..)
  · exact refl s

theorem dropEviction (s : State) (p : Nat) : StepKept s (s.dropEviction p) := by
  unfold State.dropEviction
  split
  · exact refl s
  · dsimp only
    split
    · refine .trans (.trans ?_ (setSlot ..)) (setDir ..)
      exact .of_eq rfl rfl rfl rfl
    · refine .trans ?_ (setSlot ..)
      exact .of_eq rfl rfl rfl rfl

theorem cancelEviction (s : State) (p : Nat) : StepKept s (s.cancelEviction p) :=
  .ite ((dropEviction ..).trans (bump _ (by decide))) (refl s)

theorem writeSegs (p : Nat) (e : DirEntry) : ∀ (f off : Nat) (bs : List Byte) (s : State),
    StepKept s (State.writeSegs p e f off bs s)
  | 0, _, _, s => refl s
  | f + 1, _, _, s => .ite (refl s) ((frameWrite ..).trans (writeSegs p e f ..))

theorem pageWrite (s : State) (p off : Nat) (bs : List Byte) : StepKept s (s.pageWrite p off bs) := by
  refine (cancelEviction s p).trans ?_
  unfold State.pageWrite
  dsimp only
  split
  · exact refl _
  · exact ((partialTouch ..).trans (writeSegs ..)).trans (usePage ..)

theorem poolWriteAt : ∀ (f a : Nat) (bs : List Byte) (s : State), StepKept s (State.poolWriteAt f a bs s)
  | 0, _, _, s => refl s
  | f + 1, _, _, s => .ite (refl s) ((pageWrite ..).trans (poolWriteAt f ..))

theorem poolWrite (s : State) (a : Nat) (bs : List Byte) : StepKept s (s.poolWrite a bs) := poolWriteAt ..

end StepKept

end Sys2Proof.Machine
end

section
/-! PROOF. The course of the step machine: what messages, contributions and partials leave of it (R229 to R235, R250,
R341 to R379). -/

namespace Sys2Proof.Machine

namespace StepKept

/-! ### Units and what leaves the block -/

theorem setGs (s : State) (n : Nat) (v : Gs) : StepKept s (s.setGs n v) := .of_eq rfl rfl rfl rfl

theorem setCu (s : State) (d : Nat) (v : Cu) : StepKept s (s.setCu d v) := .of_eq rfl rfl rfl rfl

theorem setPort (s : State) (p : Nat) (v : Port) : StepKept s (s.setPort p v) := .of_eq rfl rfl rfl rfl

theorem emit (s : State) (o : Output) : StepKept s (s.emit o) := .of_eq rfl rfl rfl rfl

/-! ### Messages and channels -/

theorem giveBack (s : State) (m : Msg) (n : Nat) : StepKept s (s.giveBack m n) := by
  unfold State.giveBack
  split
  · exact refl s
  · exact (setPort ..).trans (emit ..)

theorem sendFlits (s : State) (p : Nat) (x : Queued) (n : Nat) : StepKept s (s.sendFlits p x n) := by
  have hspent : ∀ q k, StepKept s (((s.setPort p q).bumpUnits (Reg.fabPortTxFlits p) k).giveBack x.msg n) := fun q k =>
    ((setPort ..).trans (bumpUnits _ _ (add_not_mem_stepRegs (by decide) _))).trans (giveBack ..)
  exact .ite ((hspent _ _).trans (emit ..)) (hspent _ _)

theorem pumpPort (p : Nat) : ∀ (n : Nat) (s : State), StepKept s (State.pumpPort p n s)
  | 0, s => refl s
  | n + 1, s => by
    unfold State.pumpPort
    dsimp only
    split
    · exact refl s
    · split
      · exact refl s
      · split
        · exact refl s
        · exact (sendFlits ..).trans (pumpPort p n _)

theorem enqueue (s : State) (p pool : Nat) (m : Msg) : StepKept s (s.enqueue p pool m) :=
  (setPort ..).trans (pumpPort ..)

theorem deliver (s : State) (m : Msg) : StepKept s (s.deliver m) :=
  (giveBack s m m.flits).trans
    (.ite (bump _ (by decide)) (.ite (bump _ (by decide)) (.of_eq rfl rfl rfl rfl)))

theorem noRoute (s : State) (m : Msg) : StepKept s (s.noRoute m) :=
  (giveBack s m m.flits).trans ((bump _ (by decide)).trans (reportLim ..))

theorem ttlDrop (s : State) (m : Msg) : StepKept s (s.ttlDrop m) :=
  (giveBack s m m.flits).trans ((bump _ (by decide)).trans (reportLim ..))

theorem routeBy (s : State) (arr : Option Nat) (m : Msg) (e : Nat) : StepKept s (s.routeBy arr m e) := by
  unfold State.routeBy
  dsimp only
  split
  · exact .ite (enqueue ..) (enqueue ..)
  · split
    · exact (enqueue ..).trans (bump _ (by decide))
    · exact noRoute ..

theorem route (s : State) (arr : Option Nat) (m : Msg) : StepKept s (s.route arr m) :=
  .ite (deliver ..) (.ite (ttlDrop ..) (.ite (noRoute ..) (routeBy ..)))

theorem issueMsg (s : State) (h : Hdr) (payload : List Byte) (vl : Nat) (ar : Bool) :
    StepKept s (s.issueMsg h payload vl ar) := .ite (route ..) (refl s)

theorem issueResp (s : State) (h : Hdr) (payload : List Byte) : StepKept s (s.issueResp h payload) :=
  .ite (issueMsg ..) (.trans (t := { s with free := s.free + 1 }) (.of_eq rfl rfl rfl rfl) (issueMsg ..))

theorem chanPush (s : State) (c : Nat) (x : Ctx) (m : Msg) : StepKept s (s.chanPush c x m) := by
  refine .trans (.trans ?_ (poolWrite ..)) (issueMsg ..)
  exact .of_eq rfl rfl rfl rfl

theorem chanSend (s : State) (c : Nat) (h : Hdr) (payload : List Byte) : StepKept s (s.chanSend c h payload) := by
  unfold State.chanSend
  split
  · exact notServed ..
  · exact .ite (chanPush ..) (refl s)

theorem pumpOut (d : Nat) : ∀ (n : Nat) (s : State), StepKept s (State.pumpOut d n s)
  | 0, s => refl s
  | n + 1, s => by
    unfold State.pumpOut
    split
    · exact refl s
    · exact .ite (refl s) (((setCu ..).trans (chanSend ..)).trans (pumpOut d n _))

theorem cuSend (s : State) (d : Nat) (m : OutMsg) : StepKept s (s.cuSend d m) := (setCu ..).trans (pumpOut ..)

/-! ### Completion of descriptors -/

theorem queueSettle (s : State) (q : Nat) : StepKept s (s.queueSettle q) :=
  .ite (.trans (t := s.setQueue q {}) (.of_eq rfl rfl rfl rfl)
    (setFld _ _ _ _ (add_not_mem_stepRegs (by decide) _))) (refl s)

theorem complete (s : State) (q : Nat) (d : Started) (status result : Nat) : StepKept s (s.complete q d status result) := by
  have hrecord : ∀ o k, StepKept s ((s.toHost o).setQueue q k) := fun o k => (toHost s o).trans (.of_eq rfl rfl rfl rfl)
  exact ((hrecord _ _).trans (.ite (msix ..) (refl _))).trans (queueSettle ..)

theorem completeSteps (s : State) (e : W32) : StepKept s (s.completeSteps e) :=
  foldl (fun t _ => .ite (complete ..) (refl t)) ..

/-! ### Contributions to groundsheets -/

theorem staleIn (s : State) : StepKept s s.staleIn := bump s (by decide)

theorem gsReserved (s : State) (n code layer : Nat) (e : W32) : StepKept s (s.gsReserved n code layer e) :=
  (reportLim ..).trans (raiseFlag ..)

theorem dropPiece (s : State) (n kind : Nat) (h : Hdr) : StepKept s (s.dropPiece n kind h) :=
  ((bump s (add_not_mem_stepRegs (by decide) _)).trans (reportLim ..)).trans (raiseFlag ..)

theorem accumulate (s : State) (n : Nat) (first : Bool) (a : Nat) (g : List W32) (e : W32) :
    StepKept s (s.accumulate n first a g e) := by
  have hpool := unitPool s (0x8000 + n) a (4 * g.length)
  unfold State.accumulate
  dsimp only
  split
  · split
    · exact (notServed ..).trans (raiseFlag ..)
    · exact poolWrite ..
  · split
    · next h => exact (hpool.of_pair h).trans (raiseFlag ..)
    · next h => exact (hpool.of_pair h).trans (poolWrite ..)

theorem addReady (n : Nat) (x : Shard) (slice r0 rows : Nat) (e : W32) : ∀ (f : Nat) (s : State),
    StepKept s (State.addReady n x slice r0 rows e f s)
  | 0, s => refl s
  | f + 1, s => by
    unfold State.addReady
    dsimp only
    split
    · refine .trans ?_ (addReady n x slice r0 rows e f _)
      refine .trans (.trans (setGs ..) (.ite (refl _) (accumulate ..))) (.ite (setGs ..) (refl _))
    · exact refl s

theorem contribDone (s : State) (n : Nat) (x : Shard) (t : SliceSt) (h : Hdr) (r0 rows : Nat) :
    StepKept s (s.contribDone n x t h r0 rows) := by
  unfold State.contribDone
  dsimp only
  refine .trans (.ite (raiseFlag ..) (refl s)) (.ite ?_ (addReady ..))
  have hfrozen : ∀ u v, StepKept u ((State.setGs u n v).bump (Reg.gsFrozenHits n)) := fun u v =>
    (setGs ..).trans (bump _ (add_not_mem_stepRegs (by decide) _))
  exact .ite ((hfrozen _ _).trans (reportLim ..)) (hfrozen _ _)

theorem takePiece (s : State) (n : Nat) (x : Shard) (h : Hdr) (payload : List Byte) :
    StepKept s (s.takePiece n x h payload) := by
  unfold State.takePiece
  dsimp only
  refine .ite (dropPiece ..) (.ite (dropPiece ..) (.ite (dropPiece ..) ?_))
  exact .ite ((setGs ..).trans (contribDone ..)) (setGs ..)

theorem takeCurrent (s : State) (n : Nat) (h : Hdr) (payload : List Byte) : StepKept s (s.takeCurrent n h payload) := by
  have hfound := lookupShard s n false h.layer.toNat (hdrRow0 h / s.unitRows n)
  unfold State.takeCurrent
  split
  · next hq => exact (hfound.of_pair hq).trans (raiseFlag ..)
  · next hq => exact (hfound.of_pair hq).trans ((groupConsts ..).trans (takePiece ..))

theorem takeContrib (s : State) (n : Nat) (h : Hdr) (payload : List Byte) : StepKept s (s.takeContrib n h payload) := by
  unfold State.takeContrib
  dsimp only
  split
  · exact setGs ..
  · split
    · exact .ite (gsReserved ..) (takeCurrent ..)
    · exact .ite (gsReserved ..) (setGs ..)
    · exact .trans (.ite (reportLim ..) (refl s)) (staleIn _)

theorem retakeContribs (s : State) (n : Nat) : StepKept s (s.retakeContribs n) :=
  (setGs ..).trans (foldl (fun t _ => takeContrib t ..) ..)

theorem answerStale (s : State) (n : Nat) (h : Hdr) : StepKept s (s.answerStale n h) :=
  (bump s (add_not_mem_stepRegs (by decide) _)).trans (issueResp ..)

theorem staleHeld (s : State) (n : Nat) : StepKept s (s.staleHeld n) :=
  (setGs ..).trans (foldl (fun t _ => answerStale t ..) ..)

theorem freeHeld (s : State) (n : Nat) : StepKept s (s.freeHeld n) := setGs ..

theorem clearAcc (s : State) (n : Nat) : StepKept s (s.clearAcc n) := by
  refine foldl (fun t x => .ite (refl t) ?_) ..
  split
  · exact .ite (poolWrite ..) (refl t)
  · exact refl t

theorem verdictGs (s : State) (n : Nat) : StepKept s (s.verdictGs n) := (clearAcc s n).trans (setGs ..)

/-! ### Pieces and partials of the collective units -/

theorem cuReserved (s : State) (d code layer : Nat) (e : W32) : StepKept s (s.cuReserved d code layer e) :=
  (reportLim ..).trans (raiseFlag ..)

theorem pieceBad (s : State) (d layer : Nat) (e : W32) : StepKept s (s.pieceBad d layer e) :=
  ((bump s (add_not_mem_stepRegs (by decide) _)).trans (reportLim ..)).trans (raiseFlag ..)

theorem noPlace (s : State) (d layer : Nat) (e : W32) : StepKept s (s.noPlace d layer e) :=
  (reportLim ..).trans (raiseFlag ..)

theorem regionFor (s : State) (d layer : Nat) (e : W32) (mb row0 col0 m n : Nat) :
    StepKept s (s.regionFor d layer e mb row0 col0 m n).2 := by
  have hread := readPlace s d layer
  unfold State.regionFor
  split
  · exact refl s
  · split
    · next h => exact hread.of_pair h
    · next h => exact hread.of_pair h

theorem countAdds (s : State) (d n : Nat) : StepKept s (s.countAdds d n) :=
  (setCu ..).trans (bumpUnits _ _ (add_not_mem_stepRegs (by decide) _))

theorem regionPut (s : State) (d : Nat) (r : Region) : StepKept s (s.regionPut d r) := by
  unfold State.regionPut
  split
  · exact setCu ..
  · exact .trans ((setCu ..).trans (countAdds ..)) (.ite (issueMsg ..) (cuSend ..))

theorem takeTerm (s : State) (d : Nat) (r : Region) (h : Hdr) (payload : List Byte) :
    StepKept s (s.takeTerm d r h payload) :=
  .ite (.ite (pieceBad ..) (regionPut ..)) (.ite (pieceBad ..) (regionPut ..))

theorem takePartial (s : State) (d : Nat) (h : Hdr) (payload : List Byte) : StepKept s (s.takePartial d h payload) := by
  have hregion := regionFor s d h.layer.toNat h.epoch h.mb.toNat (hdrRow0 h) (hdrCol0 h) h.dim1.toNat h.dim0.toNat
  unfold State.takePartial
  dsimp only
  split
  · exact .trans (.ite (reportLim ..) (refl s)) (staleIn _)
  · exact .ite (cuReserved ..) (setCu ..)
  · refine .ite (cuReserved ..) ?_
    split
    · next hq => exact (hregion.of_pair hq).trans (noPlace ..)
    · next hq => exact (hregion.of_pair hq).trans (takeTerm ..)

theorem retakePartials (s : State) (d : Nat) : StepKept s (s.retakePartials d) :=
  (setCu ..).trans (foldl (fun t _ => takePartial t ..) ..)

theorem verdictCu (e : W32) (s : State) (d : Nat) : StepKept s (State.verdictCu e s d) :=
  ((setCu ..).trans (pumpOut ..)).trans (bumpUnits _ _ (add_not_mem_stepRegs (by decide) _))

end StepKept

end Sys2Proof.Machine
end

section
/-! PROOF. The course of the step machine: what a verdict does to the units, and what guyline cells leave of it (R212, R267 to
R276, R337). -/

namespace Sys2Proof.Machine

namespace StepKept

/-! ### The units at a verdict -/

theorem setFrame (s : State) (f : Nat) (u : FrameUse) : StepKept s (s.setFrame f u) := .of_eq rfl rfl rfl rfl

theorem quotaCheck (s old : State) (c : Nat) : StepKept s (s.quotaCheck old c) := .ite (reportLim ..) (refl s)

theorem copySeg (src dst : Nat) (s : State) (k : Nat) : StepKept s (State.copySeg src dst s k) := .of_eq rfl rfl rfl rfl

theorem mergePage (s : State) (p : Nat) (m : Merge) (e : DirEntry) : StepKept s (s.mergePage p m e) := by
  have hcopied : ∀ ks : List Nat, StepKept s (ks.foldl (State.copySeg m.frame (frameNo e.home e.loc))
      (ks.foldl (fun t k => t.pageTouch false p e (segBytes * k) segBytes) s)) := fun ks =>
    (foldl (fun t _ => pageTouch t ..) ks s).trans (foldl (copySeg _ _) ks _)
  exact (hcopied _).trans (.of_eq rfl rfl rfl rfl)

theorem stakePage (s : State) (x : Nat × FlyPage) : StepKept s (s.stakePage x) := by
  unfold State.stakePage
  extract_lets p s0
  have hmerged : StepKept s s0 := by
    unfold s0
    split
    · exact mergePage ..
    · exact refl s
  refine hmerged.trans ?_
  split
  · exact setFrame ..
  · refine .trans ((setFrame ..).trans (setDir ..)) (.ite (setFrame ..) ?_)
    exact ((setFrame ..).trans (quotaCheck ..)).trans (setPool _ _ rfl)

theorem strikePage (s : State) (x : Nat × FlyPage) : StepKept s (s.strikePage x) := by
  refine (setFrame s x.2.frame .reclaim).trans ?_
  unfold State.strikePage
  dsimp only
  split
  · exact refl _
  · exact setDir ..

/-- A verdict ends every fly version. -/
theorem verdictFly (s : State) (stake : Bool) :
    StepKept { s with pool := { s.pool with flies := [] } } (s.verdictFly stake) := by
  have hpages : StepKept s (s.pool.flies.foldl (fun t x => if stake then t.stakePage x else t.strikePage x) s) :=
    foldl (fun _ _ => .ite (stakePage ..) (strikePage ..)) ..
  obtain ⟨hcourse, hregs, -, hspad⟩ := hpages
  exact ⟨hcourse, hregs, rfl, hspad⟩

theorem endUnits (s : State) (stake : Bool) :
    StepKept { s with pool := { s.pool with flies := [] } } (s.endUnits stake) :=
  .trans (.trans (.trans (verdictFly s stake) (foldl verdictGs ..)) (foldl (verdictCu s.epoch) ..))
    ((setFld _ _ _ _ (by decide)).trans (setReg _ _ (by decide)))

theorem gscaleMove (s : State) (up : Bool) (e : W32) : StepKept s (s.gscaleMove up e) :=
  .ite (.ite (report ..) (setReg _ _ (by decide))) (.ite (report ..) (setReg _ _ (by decide)))

theorem autoscale (s : State) (stake : Bool) (e : W32) : StepKept s (s.autoscale stake e) :=
  .ite (refl s) (.ite (.ite (setFld _ _ _ _ (by decide)) ((setFld _ _ _ _ (by decide)).trans (gscaleMove ..)))
    ((setFld _ _ _ _ (by decide)).trans (gscaleMove ..)))

theorem afterVerdict (s : State) (stake : Bool) : StepKept s (s.afterVerdict stake) := by
  have hrot : StepKept s s.applyRot := .of_eq rfl rfl rfl rfl
  have hheld : ∀ t n, StepKept t ((if stake then State.freeHeld else State.staleHeld) t n) := by
    cases stake with
    | false => exact staleHeld
    | true => exact freeHeld
  exact .trans (hrot.trans (foldl hheld ..)) ((foldl retakeContribs ..).trans (foldl retakePartials ..))

/-! ### Sealing and the guyline tree -/

theorem sealRecord (n : Nat) (a : List (Nat × Nat) × State) (i : Nat) : StepKept a.2 (State.sealRecord n a i).2 := by
  have hread := readShard a.2 n i
  unfold State.sealRecord
  split
  · next h => exact hread.of_pair h
  · next h =>
    exact (hread.of_pair h).trans ((readLayer ..).trans (.ite (bump _ (add_not_mem_stepRegs (by decide) _)) (refl _)))

theorem sealGs (s : State) (n : Nat) : StepKept s (s.sealGs n) := by
  have hrecords : StepKept s ((List.range (s.shardCount n)).foldl (State.sealRecord n) ([], s)).2 :=
    List.foldlRecOn (motive := fun a => StepKept s a.2) _ _ (refl s) fun a h i _ => h.trans (sealRecord n a i)
  exact (hrecords.trans (setGs ..)).trans (.ite (.of_eq rfl rfl rfl rfl) (refl _))

theorem setPit (s : State) (x : Pit) : StepKept s { s with pit := x } := .of_eq rfl rfl rfl rfl

theorem emitTwice (s : State) (p : Nat) (a b : Output) : StepKept s (((s.takeSeq p).2.emit a).emit b) :=
  .of_eq rfl rfl rfl rfl

theorem emitGuy (s : State) (p : Nat) : ∀ g : GuyOut, StepKept s (s.emitGuy p g)
  | .cell _ _ => emitTwice ..
  | .time kind t4 => by
    have hstamp : StepKept s (if kind = 2 then (t4, s) else s.stampNow).2 := by
      split
      · exact refl s
      · exact .of_eq rfl rfl rfl rfl
    exact (hstamp.trans (.ite (setPit ..) (refl _))).trans (emitTwice ..)

theorem pumpGuy (p : Nat) : ∀ (n : Nat) (s : State), StepKept s (State.pumpGuy p n s)
  | 0, s => refl s
  | n + 1, s => by
    unfold State.pumpGuy
    dsimp only
    split
    · exact refl s
    · exact .ite (((setPort ..).trans (emitGuy ..)).trans (pumpGuy p n _)) (refl s)

theorem sendGuy (s : State) (p : Nat) (verdict : Bool) (g : GuyCell) : StepKept s (s.sendGuy p verdict g) :=
  .ite ((setPort ..).trans (pumpGuy ..)) (refl s)

theorem judgeVerdict (s : State) (g : GuyCell) : StepKept s (s.judgeVerdict g) :=
  .ite ((setStep _ _ rfl).trans (report ..)) (.ite (setStep _ _ rfl) ((bump s (by decide)).trans (reportLim ..)))

theorem takeVerdict (s : State) (g : GuyCell) : StepKept s (s.takeVerdict g) :=
  .trans (foldl (fun t p => sendGuy t p true g) ..) (judgeVerdict ..)

theorem guyRound (s : State) : StepKept s s.guyRound := by
  unfold State.guyRound
  split
  · exact refl s
  · dsimp only
    exact .ite (refl s) (.ite ((setStep _ _ rfl).trans (takeVerdict ..)) ((setStep _ _ rfl).trans (sendGuy ..)))

/-! ### What is the same on the same course -/

section
variable {s t : State} (h : StepKept s t)
include h

theorem course : t.step.course = s.step.course := by
  obtain ⟨hcourse, -⟩ := h
  exact hcourse

/-- What the course says of a step machine is the same. -/
theorem read {α : Type} (f : StepSt → α) (hf : ∀ k : StepSt, f k.course = f k) : f t.step = f s.step := by
  rw [← hf t.step, h.course, hf]

theorem mode : t.step.mode = s.step.mode := h.read StepSt.mode fun _ => rfl

theorem tseal : t.step.tseal = s.step.tseal := h.read StepSt.tseal fun _ => rfl

theorem applyAt : t.step.applyAt = s.step.applyAt := h.read StepSt.applyAt fun _ => rfl

theorem own : t.step.own = s.step.own := h.read StepSt.own fun _ => rfl

theorem lastOr : t.step.lastOr = s.step.lastOr := h.read StepSt.lastOr fun _ => rfl

theorem lastVerdict : t.step.lastVerdict = s.step.lastVerdict := h.read StepSt.lastVerdict fun _ => rfl

theorem struck : t.step.struck = s.step.struck := h.read StepSt.struck fun _ => rfl

theorem reg {off : Nat} (hoff : off ∈ stepRegs) : t.reg off = s.reg off := by
  obtain ⟨-, hregs, -⟩ := h
  exact hregs off hoff

theorem epoch : t.epoch = s.epoch := h.reg (by decide)

theorem flies : t.pool.flies = s.pool.flies := by
  obtain ⟨-, -, hflies, -⟩ := h
  exact hflies

theorem spad : t.spad = s.spad := by
  obtain ⟨-, -, -, hspad⟩ := h
  exact hspad

end

end StepKept

end Sys2Proof.Machine
end

section
/-! PROOF. T_seal and the application tick: SEALED with a contribution, then staked, struck, or DIVERGED (R267, R272, R280). -/

namespace Sys2Proof.Machine

theorem exec_tSealReached_eq (s : State) : exec .tSealReached s = execTSealReached s := by rfl

theorem exec_verdictApply_eq (s : State) : exec .verdictApply s = execVerdictApply s := by rfl

section
variable {s : State} {t : Nat} (hup : s.up = true) (ht : t ≤ s.pitch)
include hup ht

theorem exec_tSealReached (hmode : s.step.mode = .opened) (hseal : s.step.tseal = some t) :
    exec .tSealReached s = .next (s.sealEdge t) := by
  have hreached : s.reached (some t) = true := decide_eq_true ht
  rw [exec_tSealReached_eq, execTSealReached, hup, hmode, hseal, hreached]
  rfl

theorem exec_verdictApply (hmode : s.step.mode = .sealed) (happly : s.step.applyAt = some t) :
    exec .verdictApply s = .next s.applyVerdict := by
  have hreached : s.reached (some t) = true := decide_eq_true ht
  rw [exec_verdictApply_eq, execVerdictApply, hup, hmode, happly, hreached]
  rfl

end

/-- The edge of T_seal: SEALED, with the tick of the verdict and a contribution under the flags that stand once every
groundsheet has fixed its slices (R267). -/
theorem State.sealEdge_course (s : State) (t : Nat) : ∃ x, StepKept x (s.sealEdge t) ∧ x.step.mode = .sealed
    ∧ x.step.tseal = s.step.tseal ∧ x.epoch = s.epoch ∧ x.step.applyAt = some (t + s.fld Reg.guyBound 0 16)
    ∧ x.step.own = some { flags := ((List.range 12).foldl State.sealGs s).step.flags, epoch := s.epoch,
                          tseal := BitVec.ofNat 32 t } := by
  have hfixed : StepKept s ((List.range 12).foldl State.sealGs s) := .foldl .sealGs ..
  unfold State.sealEdge
  generalize (List.range 12).foldl State.sealGs s = s1 at hfixed ⊢
  dsimp only
  have hset := hfixed.trans (.setFld s1 0 10 (512 - s1.cells.countP (fun c => c.2.sealedMark)) (off := Reg.modStepUnsealed)
    (by decide))
  refine ⟨_, .guyRound _, rfl, hset.tseal, hset.epoch, ?_, ?_⟩
  · rw [State.fld, hset.reg (by decide), State.fld]
  · rw [hset.epoch, State.setFld_step]

/-! ### The application tick (R272, R280) -/

/-- The units at a verdict, and its counts, leave the epoch. -/
theorem State.epoch_counted (s : State) (stake : Bool) (e : W32) {off : Nat} (h : off ∉ stepRegs) :
    (((s.endUnits stake).autoscale stake e).bump off).epoch = s.epoch :=
  (((StepKept.endUnits s stake).trans (.autoscale ..)).trans (.bump _ h)).epoch

/-- A stake opens the step of the next epoch; what the units then take up does not change that. -/
theorem State.stake_course (s : State) (fl : BitVec 4) : ∃ x, StepKept x (s.stake fl) ∧ x.step.mode = .opened
    ∧ x.epoch = s.epoch + 1 ∧ x.step.lastVerdict = true := by
  unfold State.stake
  dsimp only
  generalize ((s.endUnits true).autoscale true s.epoch).bump Reg.modStakes = s1
  refine ⟨_, (StepKept.afterVerdict _ true).trans (.completeSteps _ s.epoch), rfl, ?_, rfl⟩
  exact (State.reg_setReg ..).trans (if_pos rfl)

/-- A strike by a verdict opens the step of the same epoch again. -/
theorem State.strike_course (s : State) (fl : BitVec 4) : ∃ x, StepKept x (s.strike fl false) ∧ x.step.mode = .opened
    ∧ x.epoch = s.epoch ∧ x.step.lastVerdict = false ∧ x.step.lastOr = fl := by
  have hepoch := s.epoch_counted false s.epoch (off := Reg.modStrikes) (by decide)
  unfold State.strike
  dsimp only
  generalize ((s.endUnits false).autoscale false s.epoch).bump Reg.modStrikes = s1 at hepoch ⊢
  rw [if_neg Bool.false_ne_true]
  refine ⟨_, (StepKept.afterVerdict _ false).trans (.completeSteps _ s.epoch), rfl, ?_, ?_, ?_⟩
  · exact (State.reg_report (by decide) ..).trans hepoch
  · exact congrArg StepSt.lastVerdict (Reported.report ..).step
  · exact congrArg StepSt.lastOr (Reported.report ..).step

/-- A local strike leaves the module DIVERGED over its epoch. -/
theorem State.strike_local_course (s : State) (fl : BitVec 4) : ∃ x, StepKept x (s.strike fl true) ∧ x.step.mode = .diverged
    ∧ x.epoch = s.epoch ∧ x.step.struck = s.epoch := by
  have hepoch := s.epoch_counted false s.epoch (off := Reg.modStrikes) (by decide)
  unfold State.strike
  dsimp only
  generalize ((s.endUnits false).autoscale false s.epoch).bump Reg.modStrikes = s1 at hepoch ⊢
  rw [if_pos rfl]
  have hreports : ∀ (u : State) (n data : Nat),
      StepKept u (((u.bumpBy Reg.modFlagsDropped n).bump Reg.modLocalStrikes).report 0x0602 unitMgmt data) := fun u n _ =>
    ((StepKept.bumpBy u n (by decide)).trans (.bump _ (by decide))).trans (.report ..)
  refine ⟨_, ((hreports _ _ _).trans (.afterVerdict _ false)).trans (.completeSteps _ s.epoch), rfl, ?_, rfl⟩
  exact (State.reg_report (by decide) ..).trans hepoch

section
variable {s : State}

theorem State.applyVerdict_of_clear (h : s.step.verdict = some 0) : s.applyVerdict = s.stake 0 := by
  rw [State.applyVerdict, h]
  rfl

theorem State.applyVerdict_of_flags {f : BitVec 4} (h : s.step.verdict = some f) (hf : f ≠ 0) :
    s.applyVerdict = s.strike f false := by
  rw [State.applyVerdict, h]
  exact if_neg hf

theorem State.applyVerdict_of_none (h : s.step.verdict = none) :
    s.applyVerdict = s.strike ((s.step.own.map (·.flags)).getD s.step.flags) true := by
  rw [State.applyVerdict, h]

end

/-- Settles O26: the course of the step machine at T_seal and at the application tick, by the verdict that is held. -/
theorem verdictStakesOrStrikes : Obligations.VerdictStakesOrStrikes := by
  refine fun s t hup ht => ⟨fun hmode hseal => ?_, fun hmode happly => ?_⟩
  · obtain ⟨x, hkept, hsealed, htseal, hepoch, hat, hown⟩ := s.sealEdge_course t
    exact ⟨_, exec_tSealReached hup ht hmode hseal, hkept.mode.trans hsealed, hkept.tseal.trans (htseal.trans hseal),
      hkept.epoch.trans hepoch, hkept.applyAt.trans hat, _, hkept.own.trans hown, rfl, rfl, rfl⟩
  · have hexec := exec_verdictApply hup ht hmode happly
    refine ⟨fun hverdict => ?_, fun f hverdict hf => ?_, fun hnone => ?_⟩
    · obtain ⟨x, hkept, hopen, hepoch, hlast⟩ := s.stake_course 0
      rw [State.applyVerdict_of_clear hverdict] at hexec
      exact ⟨_, hexec, hkept.mode.trans hopen, hkept.epoch.trans hepoch, hkept.lastVerdict.trans hlast,
        (StepKept.endUnits s true).flies⟩
    · obtain ⟨x, hkept, hopen, hepoch, hlast, hor⟩ := s.strike_course f
      rw [State.applyVerdict_of_flags hverdict hf] at hexec
      exact ⟨_, hexec, hkept.mode.trans hopen, hkept.epoch.trans hepoch, hkept.lastVerdict.trans hlast,
        hkept.lastOr.trans hor⟩
    · obtain ⟨x, hkept, hdiverged, hepoch, hstruck⟩ :=
        s.strike_local_course ((s.step.own.map (·.flags)).getD s.step.flags)
      rw [State.applyVerdict_of_none hnone] at hexec
      exact ⟨_, hexec, hkept.mode.trans hdiverged, hkept.epoch.trans hepoch, hkept.struck.trans hstruck⟩

end Sys2Proof.Machine
end

section
/-! PROOF. Sealing by Table 9-2, and the commands that open, close and clear steps and write MOD_EPOCH (R258, R260, R266, R271,
R286). -/

namespace Sys2Proof.Machine

/-! ### Sealing (R266, Table 9-2) -/

section
variable {s : State} (hopen : s.step.mode = .opened)
include hopen

theorem State.stepping_of_opened : s.stepping = true := by
  rw [State.stepping, hopen]
  rfl

theorem State.not_atVerdict_of_opened : ¬s.atVerdict = true := by
  rw [State.atVerdict, hopen]
  exact Bool.false_ne_true

/-- A flag raised before T_seal is one of the step. -/
theorem State.raiseFlag_of_opened (f : BitVec 4) (hpast : s.pastSeal = false) :
    s.raiseFlag f s.epoch = { s with step := { s.step with flags := s.step.flags ||| f } } := by
  rw [State.raiseFlag_of_current f (State.stepping_of_opened hopen) (State.not_atVerdict_of_opened hopen) rfl,
    if_pos ⟨hopen, hpast⟩]

variable (unit : Nat) {t : Nat}

theorem State.sealAt_ahead (hnone : s.step.tseal = none) (ht : s.pitch < t) : s.sealAt unit t = s.latchSeal t := by
  rw [State.sealAt, if_pos (State.stepping_of_opened hopen), hnone]
  exact if_pos ht

/-- A tick that has passed is replaced by the next one, with USER_ABORT. -/
theorem State.sealAt_passed (hnone : s.step.tseal = none) (ht : t ≤ s.pitch) :
    (s.sealAt unit t).step.tseal = some (s.pitch + 1) ∧ (s.sealAt unit t).step.flags = s.step.flags ||| 8 := by
  have hahead : (s.latchSeal (s.pitch + 1)).pastSeal = false := decide_eq_false (Nat.not_succ_le_self s.pitch)
  have hflag : (s.latchSeal (s.pitch + 1)).raiseFlag 8 s.epoch = _ :=
    State.raiseFlag_of_opened (s := s.latchSeal (s.pitch + 1)) hopen 8 hahead
  have hfault : s.sealAt unit t = ((s.latchSeal (s.pitch + 1)).raiseFlag 8 s.epoch).sealFault 1 unit := by
    rw [State.sealAt, if_pos (State.stepping_of_opened hopen), hnone]
    exact if_neg (Nat.not_lt.mpr ht)
  rw [hfault, State.sealFault, (Reported.reportLim ..).step, hflag]
  exact ⟨rfl, rfl⟩

variable {t0 : Nat} (hsome : s.step.tseal = some t0)
include hsome

/-- A second seal of another tick is reported, and raises USER_ABORT. -/
theorem State.sealAt_other (hahead : s.pitch < t0) (hne : t ≠ t0) :
    (s.sealAt unit t).step = { s.step with flags := s.step.flags ||| 8 } := by
  have hpast : s.pastSeal = false := by
    rw [State.pastSeal, hsome]
    exact decide_eq_false (Nat.not_le.mpr hahead)
  have hfault : s.sealAt unit t = (s.raiseFlag 8 s.epoch).sealFault 2 unit := by
    rw [State.sealAt, if_pos (State.stepping_of_opened hopen), hsome]
    exact if_neg hne
  rw [hfault, State.sealFault, (Reported.reportLim ..).step, State.raiseFlag_of_opened hopen 8 hpast]

theorem State.sealAt_same : s.sealAt unit t0 = s := by
  rw [State.sealAt, if_pos (State.stepping_of_opened hopen), hsome]
  exact if_pos rfl

end

/-! ### Commands (R258, R260, R266, R271, R286) -/

theorem exec_stepCmdSeal_eq (s : State) : exec .stepCmdSeal s = execStepCmdSeal s := by rfl

theorem exec_stepCmdAbort_eq (s : State) : exec .stepCmdAbort s = execStepCmdAbort s := by rfl

theorem exec_stepEnable_eq (s : State) : exec .stepEnable s = execStepEnable s := by rfl

theorem exec_stepDisable_eq (s : State) : exec .stepDisable s = execStepDisable s := by rfl

theorem exec_clearDiverge_eq (s : State) : exec .clearDiverge s = execClearDiverge s := by rfl

theorem exec_modEpochWrite_eq (v : W32) (s : State) : exec (.modEpochWrite v) s = execModEpochWrite v s := by rfl

/-- A module that ends a step is IDLE. -/
theorem State.endStep_mode (s : State) : s.endStep.step.mode = .idle := by
  unfold State.endStep
  dsimp only
  split
  · exact (StepKept.afterVerdict ..).mode
  · rfl

theorem State.reg_endStep_of_idle {s : State} (hidle : s.step.mode = .idle) (off : Nat) : s.endStep.reg off = s.reg off := by
  have hnot : s.stepping = false := by
    rw [State.stepping, hidle]
    rfl
  unfold State.endStep
  dsimp only
  rw [hnot]
  rfl

theorem State.epoch_setStepCtrl (s : State) (v : Nat) : (s.setFld Reg.modStepCtrl 0 1 v).epoch = s.epoch :=
  s.reg_setFld_of_ne _ _ _ _ (by decide)

section
variable {s : State} (hup : s.up = true)
include hup

theorem exec_stepCmdSeal :
    exec .stepCmdSeal s = .next (s.sealAt 0x7FFF (s.reg64 Reg.modStepSealtLo Reg.modStepSealtHi)) := by
  rw [exec_stepCmdSeal_eq, execStepCmdSeal, hup, whenOk_true]
  rfl

theorem exec_stepCmdAbort : exec .stepCmdAbort s = .next (s.raiseFlag 8 s.epoch) := by
  rw [exec_stepCmdAbort_eq, execStepCmdAbort, hup, whenOk_true]
  rfl

theorem exec_stepEnable_idle (hidle : s.step.mode = .idle) : exec .stepEnable s = .next (State.openStep
    { s.setFld Reg.modStepCtrl 0 1 1 with step := { s.step with children := [] } } 0) := by
  rw [exec_stepEnable_eq, execStepEnable, hup, whenOk_true, State.stepOn, if_pos hidle]
  rfl

theorem exec_stepEnable_not_idle (hmode : s.step.mode ≠ .idle) :
    exec .stepEnable s = .next (s.setFld Reg.modStepCtrl 0 1 1) := by
  rw [exec_stepEnable_eq, execStepEnable, hup, whenOk_true, State.stepOn, if_neg hmode]

theorem exec_clearDiverge (hmode : s.step.mode = .diverged) : exec .clearDiverge s =
    .next (({ s with step := { s.step with children := [] } } : State).openStep 0) := by
  rw [exec_clearDiverge_eq, execClearDiverge, hup, hmode]
  rfl

theorem exec_stepDisable : exec .stepDisable s = .next ((s.setFld Reg.modStepCtrl 0 1 0).endStep) := by
  rw [exec_stepDisable_eq, execStepDisable, hup, whenOk_true]

theorem exec_modEpochWrite_outside (v : W32) (hstep : s.stepping = false) :
    exec (.modEpochWrite v) s = .next (s.setReg Reg.modEpoch v) := by
  rw [exec_modEpochWrite_eq, execModEpochWrite, hup, hstep]
  rfl

theorem exec_modEpochWrite_within (v : W32) (hstep : s.stepping = true) :
    exec (.modEpochWrite v) s = .next (s.clampReg Reg.modEpoch 0 v.toNat s.epoch.toNat) := by
  rw [exec_modEpochWrite_eq, execModEpochWrite, hup, hstep]
  rfl

end

/-- Settles O24: a seal by the tick that it names and the one latched, a command by the state of the step machine. -/
theorem stepsOpenSealAndClose : Obligations.StepsOpenSealAndClose := by
  refine ⟨⟨fun s unit t hopen => ⟨fun hnone ht => ?_, State.sealAt_passed hopen unit,
      fun t0 hsome => State.sealAt_other hopen unit hsome, State.sealAt_same hopen unit⟩,
    fun s hup => ⟨exec_stepCmdSeal hup, exec_stepCmdAbort hup⟩⟩,
    fun s v hup => ⟨fun hidle => ?_, fun hmode => ⟨_, exec_stepEnable_not_idle hup hmode, rfl⟩, fun hmode => ?_,
      fun hidle => ?_, fun _ => ⟨exec_stepDisable hup, State.endStep_mode _⟩, exec_modEpochWrite_outside hup v,
      fun hstep => ?_⟩⟩
  · rw [State.sealAt_ahead hopen unit hnone ht, State.latchSeal]
  · exact ⟨_, exec_stepEnable_idle hup hidle, rfl, rfl, rfl, s.fld_setFld_self _ 1 (by decide), s.epoch_setStepCtrl 1,
      fun _ => rfl, fun _ => rfl⟩
  · exact ⟨_, exec_clearDiverge hup hmode, rfl, rfl, rfl, rfl⟩
  · have hregs := State.reg_endStep_of_idle (s := s.setFld Reg.modStepCtrl 0 1 0) hidle
    refine ⟨_, exec_stepDisable hup, State.endStep_mode _, ?_, (hregs _).trans (s.epoch_setStepCtrl 0)⟩
    rw [State.fld, hregs]
    exact s.fld_setFld_self _ 0 (by decide)
  · have hclamped := Reported.clampReg s Reg.modEpoch 0 v.toNat s.epoch.toNat
    exact ⟨exec_modEpochWrite_within hup v hstep, _, exec_modEpochWrite_within hup v hstep,
      State.reg_clampReg (by decide) .., hclamped.step⟩

end Sys2Proof.Machine
end

section
/-! PROOF. The guyline tree: contributions combined up the tree, verdicts sent down it and judged (R268, R269, R337). -/

namespace Sys2Proof.Machine

/-! ### A cell taken off the line -/

section
variable (s : State) (port : Nat) (n : BitVec 3)

theorem State.heard_step : (s.heard port n).step = { s.step with seqIn := tabPut port n s.step.seqIn } := by
  unfold State.heard State.guyHear
  split
  · rfl
  · rfl

theorem State.heard_fld (off lo w : Nat) : (s.heard port n).fld off lo w = s.fld off lo w := by
  rw [State.fld, State.heard_reg, State.fld]

theorem State.heard_guyOn : (s.heard port n).guyOn = s.guyOn := by rw [State.guyOn, State.heard_fld, State.guyOn]

theorem State.heard_upPort : (s.heard port n).upPort = s.upPort := s.heard_fld port n ..

theorem State.heard_isMaster : (s.heard port n).isMaster = s.isMaster := by
  rw [State.isMaster, State.heard_guyOn, State.heard_upPort, State.isMaster]

end

/-- A state in which the cell of a child port is kept behind those that wait. -/
def State.withChild (s : State) (port : Nat) (g : GuyCell) : State :=
  { s.heard port g.seq with step :=
    { (s.heard port g.seq).step with children := s.step.children ++ [(port, g)] } }

theorem exec_guylineContribution_eq (port : Nat) (g : GuyCell) (s : State) :
    exec (.guylineContribution port g) s = execGuylineContribution port g s := by rfl

theorem exec_guylineVerdict_eq (port : Nat) (g : GuyCell) (s : State) :
    exec (.guylineVerdict port g) s = execGuylineVerdict port g s := by rfl

section
variable {s : State} {port : Nat} {g : GuyCell} (hport : port < 24) (hup : s.up = true)
include hport hup

theorem exec_guyline_aside (h : g.good = false ∨ (g.copy = true ∧ alistGet s.step.seqIn port = some g.seq)) :
    exec (.guylineContribution port g) s = .next s ∧ exec (.guylineVerdict port g) s = .next s := by
  have htake : s.guyTake port g.seq g.copy g.good = none := if_pos h
  rw [exec_guylineContribution_eq, exec_guylineVerdict_eq, execGuylineContribution, execGuylineVerdict, htake,
    decide_eq_true hport, hup]
  exact ⟨rfl, rfl⟩

variable (hgood : g.good = true) (hfirst : g.copy = true → alistGet s.step.seqIn port ≠ some g.seq)
include hgood hfirst

omit hport hup in
theorem State.guyTake_first : s.guyTake port g.seq g.copy g.good = some (s.heard port g.seq) :=
  if_neg fun h => h.elim (fun hbad => Bool.false_ne_true (hbad.symm.trans hgood)) fun hcopy => hfirst hcopy.1 hcopy.2

theorem exec_guylineContribution_kept (hdown : port ∈ s.downPorts)
    (hfew : s.step.children.countP (fun x => x.1 == port) < 64) :
    exec (.guylineContribution port g) s = .next (s.withChild port g).guyRound := by
  have hchildren : (s.heard port g.seq).step.children = s.step.children := by rw [State.heard_step]
  rw [exec_guylineContribution_eq, execGuylineContribution, State.guyTake_first hgood hfirst, decide_eq_true hport, hup]
  dsimp only
  rw [State.heard_downPorts, hchildren, List.contains_iff_mem.mpr hdown, guyHold, decide_eq_true hfew]
  rfl

theorem exec_guylineVerdict_fromParent (hon : s.guyOn = true) (hparent : port = s.upPort) :
    exec (.guylineVerdict port g) s = .next ((s.downPorts.foldl (fun t p => t.sendGuy p true g)
      (s.heard port g.seq)).judgeVerdict g) := by
  rw [exec_guylineVerdict_eq, execGuylineVerdict, State.guyTake_first hgood hfirst, decide_eq_true hport, hup]
  dsimp only
  rw [State.heard_guyOn, State.heard_upPort, hon, ← hparent, beq_self_eq_true, onUnit_true, whenOk_true, Bool.and_self,
    if_pos rfl, State.takeVerdict, State.heard_downPorts]

end

/-! ### The round of a module (R268) -/

theorem State.guyRound_of_no_own {s : State} (h : s.step.own = none) : s.guyRound = s := by
  rw [State.guyRound, h]

/-- With one child, whose cell is there, the round ends with the OR of both flags, which goes to the parent. -/
theorem State.guyRound_of_one_child {s : State} {own g : GuyCell} {port : Nat} (hown : s.step.own = some own)
    (hports : s.downPorts = [port]) (hwaits : s.step.forwarded = false) (hchild : s.step.children = [(port, g)])
    (hfollows : s.isMaster = false) :
    s.guyRound = ({ s with step := { s.step with forwarded := true, children := [] } } : State).sendGuy s.upPort false
      { own with flags := own.flags ||| childFlags own g } := by
  unfold State.guyRound
  rw [hown, hports, hchild, hwaits, hfollows]
  have hfound : [(port, g)].find? (fun x => x.1 == port) = some (port, g) := by simp
  have htaken : takeOldest [(port, g)] [port] = [] := by simp [takeOldest]
  simp only [hfound, htaken, List.any_cons, List.any_nil, List.filterMap_cons, List.filterMap_nil, Option.map_some,
    List.foldl_cons, List.foldl_nil, Option.isNone_some, Bool.or_self, Bool.false_eq_true, or_self, if_false]

/-! ### A verdict that is judged (R269) -/

theorem State.judgeVerdict_of_sealed {s : State} {g : GuyCell} {t : Nat} (hstep : s.stepping = true)
    (hepoch : g.epoch = s.epoch) (hseal : s.step.tseal = some t) (htseal : g.tseal = BitVec.ofNat 32 t) :
    s.judgeVerdict g = { s with step := { s.step with verdict := some g.flags } } := by
  have hmode : s.step.mode ≠ .diverged := fun h => by simp [State.stepping, h] at hstep
  rw [State.judgeVerdict, if_neg (fun h => hmode h.1), if_pos ⟨hstep, hepoch, by rw [hseal, htseal]; rfl⟩]

theorem State.judgeVerdict_of_stray {s : State} {g : GuyCell} (hstep : s.stepping = true) (hepoch : g.epoch ≠ s.epoch) :
    s.judgeVerdict g = (s.bump Reg.modVerdictStray).reportLim 0x0608 0 unitMgmt g.epoch.toNat := by
  have hmode : s.step.mode ≠ .diverged := fun h => by simp [State.stepping, h] at hstep
  rw [State.judgeVerdict, if_neg (fun h => hmode h.1), if_neg (fun h => hepoch h.2.1)]

/-- One more in a 32-bit counter. -/
theorem State.toNat_reg_bump (s : State) (off : Nat) :
    ((s.bump off).reg off).toNat = min ((s.reg off).toNat + 1) 0xFFFFFFFF := by
  rw [State.reg_bump, if_pos rfl, BitVec.toNat_ofNat, Nat.mod_eq_of_lt (by omega)]

/-- Settles O25: a contribution by the cells at hand, a verdict by its port, its epoch and its T_seal. -/
theorem guylineCombinesAndJudges : Obligations.GuylineCombinesAndJudges := by
  refine ⟨?_, fun s g hstep => ⟨fun t hepoch hseal htseal => State.judgeVerdict_of_sealed hstep hepoch hseal htseal,
    fun hepoch => ?_⟩⟩
  · intro s port g seen few kept hport hup
    refine ⟨exec_guyline_aside hport hup, fun hgood hfirst => ?_⟩
    have hkept := exec_guylineContribution_kept hport hup hgood hfirst
    refine ⟨hkept, fun hdown hfew hnone => ?_, fun own hdown hports hown hwaits hempty hfollows => ?_,
      exec_guylineVerdict_fromParent hport hup hgood hfirst⟩
    · have hown : (s.withChild port g).step.own = none := (congrArg StepSt.own (s.heard_step port g.seq)).trans hnone
      rw [hkept hdown hfew, State.guyRound_of_no_own hown]
      rfl
    · have hfew : s.step.children.countP (fun x => x.1 == port) < 64 := by
        rw [hempty]
        exact Nat.zero_lt_succ 63
      have hround := State.guyRound_of_one_child (s := s.withChild port g) (g := g)
        ((congrArg StepSt.own (s.heard_step port g.seq)).trans hown) ((s.heard_downPorts port g.seq).trans hports)
        ((congrArg StepSt.forwarded (s.heard_step port g.seq)).trans hwaits) (by rw [State.withChild, hempty]; rfl)
        ((s.heard_isMaster port g.seq).trans hfollows)
      have hparent : (s.withChild port g).upPort = s.upPort := s.heard_upPort port g.seq
      rw [hkept hdown hfew, hround, hparent]
      rfl
  · rw [State.judgeVerdict_of_stray hstep hepoch, (Reported.reportLim ..).step, State.reg_reportLim (by decide),
      State.toNat_reg_bump]
    exact ⟨rfl, rfl⟩

end Sys2Proof.Machine
end

section
/-! PROOF. Far requests end with data, a failure or at their timeout; scrub, reclaim and merge (R273, R302 to R304, R320,
R451). -/

namespace Sys2Proof.Machine

/-! ### Failures of far requests (R304) -/

theorem exec_farReadCompletion_eq (id st : Nat) (data : List Byte) (s : State) :
    exec (.farReadCompletion id st data) s = execFarReadCompletion id st data s := by rfl

theorem exec_farReadTimeout_eq (id : Nat) (s : State) : exec (.farReadTimeout id) s = execFarReadTimeout id s := by rfl

theorem exec_farWriteTimeout_eq (id : Nat) (s : State) : exec (.farWriteTimeout id) s = execFarWriteTimeout id s := by rfl

/-- `t` is `s` with another step machine, or with one more flag counted as dropped. -/
def FlagPlaced (s t : State) : Prop := (∃ k, t = { s with step := k }) ∨ t = s.bump Reg.modFlagsDropped

namespace FlagPlaced

theorem setStep (s : State) (k : StepSt) : FlagPlaced s { s with step := k } := .inl ⟨k, rfl⟩

theorem ite {s t u : State} {p : Prop} [Decidable p] (ht : FlagPlaced s t) (hu : FlagPlaced s u) :
    FlagPlaced s (if p then t else u) := iteInduction (fun _ => ht) (fun _ => hu)

theorem raiseFlag (s : State) (f : BitVec 4) (e : W32) : FlagPlaced s (s.raiseFlag f e) :=
  .ite (.ite (setStep ..) (.ite (setStep ..) (.ite (.ite (setStep ..) (setStep ..)) (.ite (setStep ..) (.inr rfl)))))
    (.inr rfl)

end FlagPlaced

/-- A flag that is raised leaves the pool and every register but the count of dropped flags. -/
theorem State.raiseFlag_leaves (s : State) (f : BitVec 4) (e : W32) : (s.raiseFlag f e).pool = s.pool
    ∧ ∀ off, off ≠ Reg.modFlagsDropped → (s.raiseFlag f e).reg off = s.reg off := by
  obtain ⟨k, hflag⟩ | hflag := FlagPlaced.raiseFlag s f e
  · rw [hflag]
    exact ⟨rfl, fun _ _ => rfl⟩
  · rw [hflag]
    exact ⟨rfl, fun _ h => s.reg_bump_of_ne _ h⟩

/-- The effects of a failed far read leave the pool and count the failure. -/
theorem State.farReadFailed_leaves (s : State) (o : FarOwner) (region reason cell : Nat) :
    (s.farReadFailed o region reason cell).pool = s.pool
      ∧ ((s.farReadFailed o region reason cell).reg Reg.farFails).toNat = min ((s.reg Reg.farFails).toNat + 1) 0xFFFFFFFF := by
  unfold State.farReadFailed
  dsimp only
  generalize hreport : (s.bump Reg.farFails).report _ _ _ = u
  have hpool : u.pool = s.pool := by
    rw [← hreport]
    exact (Reported.report ..).pool
  have hfails : (u.reg Reg.farFails).toNat = min ((s.reg Reg.farFails).toNat + 1) 0xFFFFFFFF := by
    rw [← hreport, State.reg_report (by decide), State.toNat_reg_bump]
  split
  · obtain ⟨hflagPool, hflagReg⟩ := u.raiseFlag_leaves flagDeadline s.epoch
    rw [hflagPool, hflagReg _ (by decide)]
    exact ⟨hpool, hfails⟩
  · exact ⟨hpool, hfails⟩

/-- The effects of a failed far write leave the pool and every cell. -/
theorem State.farWriteFailed_leaves (s : State) (o : FarOwner) (region reason : Nat) :
    (s.farWriteFailed o region reason).pool = s.pool ∧ ∀ c, (s.farWriteFailed o region reason).cell c = s.cell c := by
  have hreported : Reported s (s.farWriteFailed o region reason) := (Reported.bump ..).trans (.report ..)
  exact ⟨hreported.pool, hreported.cell⟩

theorem FarReq.readOut_iff (r : FarReq) : r.readOut = true ↔ r.write = false ∧ r.sent = true ∧ r.done = none := by
  simp [FarReq.readOut, and_assoc]

/-- The first failure of a read ends it, and with it the other reads of its access. -/
theorem State.failReads_ends (s : State) {r : FarReq} (hr : r ∈ s.pool.farReqs) (hout : r.readOut = true) (reason : Nat) :
    (∃ x ∈ (s.failReads r.owner reason).pool.farReqs, x.id = r.id ∧ x.done = some (reason, []))
      ∧ ∀ y ∈ (s.failReads r.owner reason).pool.farReqs, y.write = false → y.owner = r.owner → y.done ≠ none := by
  obtain ⟨hread, -, hdone⟩ := r.readOut_iff.mp hout
  refine ⟨⟨{ r with done := some (reason, []) }, List.mem_map.mpr ⟨r, hr, ?_⟩, rfl, rfl⟩, fun y hy hwrite howner => ?_⟩
  · rw [hread, hdone, beq_self_eq_true]
    rfl
  · obtain ⟨q, -, rfl⟩ := List.mem_map.mp hy
    by_cases hq : (!q.write && q.owner == r.owner && q.done.isNone) = true
    · rw [if_pos hq]
      nofun
    · rw [if_neg hq] at hwrite howner ⊢
      intro hnone
      rw [hwrite, howner, hnone, beq_self_eq_true] at hq
      exact hq rfl

section
variable {s : State} {id : Nat} {r : FarReq} (hup : s.up = true)
include hup

section
variable (hfind : s.pool.farReqs.find? (fun x => x.id == id && x.readOut) = some r)
include hfind

omit hup in
theorem FarReq.found_readOut : r ∈ s.pool.farReqs ∧ r.id = id ∧ r.readOut = true := by
  have hid := List.find?_some hfind
  simp only [Bool.and_eq_true, beq_iff_eq] at hid
  exact ⟨List.mem_of_find?_eq_some hfind, hid⟩

theorem exec_farReadCompletion_data (data : List Byte) : exec (.farReadCompletion id 0 data) s =
    .next ((s.setFarDone id (0, data)).bumpBy Reg.farReads (ceilDiv r.len 64)).pumpFar := by
  rw [exec_farReadCompletion_eq, execFarReadCompletion, hfind]
  dsimp only
  rw [hup, whenOk_true, if_pos rfl]

theorem exec_farReadCompletion_failed {st : Nat} (hst : st ≠ 0) (data : List Byte) : exec (.farReadCompletion id st data) s =
    .next ((s.failReads r.owner (if st = 4 then 4 else 3)).farReadFailed r.owner r.region (if st = 4 then 4 else 3)
      (s.farReporter r.owner)) := by
  rw [exec_farReadCompletion_eq, execFarReadCompletion, hfind]
  dsimp only
  rw [hup, whenOk_true, if_neg hst]

theorem exec_farReadTimeout_expired (ht : r.start + s.fld Reg.farTimeout 0 24 ≤ s.pitch) : exec (.farReadTimeout id) s =
    .next ((s.failReads r.owner 2).farReadFailed r.owner r.region 2 (s.farReporter r.owner)) := by
  have hexpired : s.farExpired r = true := decide_eq_true ht
  rw [exec_farReadTimeout_eq, execFarReadTimeout, hfind]
  dsimp only
  rw [hup, hexpired, Bool.and_self, whenOk_true]

omit hup in
/-- What a failed far read comes to. -/
theorem State.farReadFailed_ends (reason cell : Nat) :
    let t := (s.failReads r.owner reason).farReadFailed r.owner r.region reason cell
    (∃ x ∈ t.pool.farReqs, x.id = id ∧ x.done = some (reason, []))
      ∧ (∀ y ∈ t.pool.farReqs, y.write = false → y.owner = r.owner → y.done ≠ none)
      ∧ (t.reg Reg.farFails).toNat = min ((s.reg Reg.farFails).toNat + 1) 0xFFFFFFFF := by
  intro t
  obtain ⟨hr, rfl, hout⟩ := FarReq.found_readOut hfind
  obtain ⟨hpool, hcount⟩ := (s.failReads r.owner reason).farReadFailed_leaves r.owner r.region reason cell
  obtain ⟨hended, hothers⟩ := s.failReads_ends hr hout reason
  rw [← hpool] at hended hothers
  exact ⟨hended, hothers, hcount⟩

end

/-- A far write that has waited FAR_TIMEOUT ticks ends its put with reason 2, and is gone. -/
theorem exec_farWriteTimeout_put {c h : Nat} {x : Xfer}
    (hfind : s.pool.farReqs.find? (fun x => x.id == id && x.write && x.done.isNone) = some r) (howner : r.owner = .xfer c h)
    (ht : r.start + s.fld Reg.farTimeout 0 24 ≤ s.pitch) (hx : alistGet (s.cell c).xfers h = some x) :
    ∃ t, exec (.farWriteTimeout id) s = .next t
      ∧ alistGet (t.cell c).xfers h = some { x with complete := true, failed := true, reason := 2 }
      ∧ ∀ y ∈ t.pool.farReqs, y.id ≠ r.id := by
  have hexpired : s.farExpired r = true := decide_eq_true ht
  have hput : alistGet ((s.dropFar r.id).cell c).xfers h = some x := hx
  obtain ⟨hpool, hcells⟩ := ((s.dropFar r.id).failXfer c h 2).farWriteFailed_leaves r.owner r.region 2
  refine ⟨((s.dropFar r.id).failXfer c h 2).farWriteFailed r.owner r.region 2, ?_, ?_, ?_⟩
  · rw [exec_farWriteTimeout_eq, execFarWriteTimeout, hfind]
    dsimp only
    rw [hup, hexpired, Bool.and_self, whenOk_true, State.farWriteDead, howner]
  · rw [hcells, State.failXfer, hput]
    dsimp only
    rw [State.cell_bump, State.cell_setCell, if_pos rfl, alistGet_tabPut_self]
  · rw [hpool, State.failXfer, hput]
    intro y hy
    simpa using (List.mem_filter.mp hy).2

end

/-! ### Scrub, reclaim, merge (R273, R320) -/

theorem exec_scrubPass_eq (n : Nat) (s : State) : exec (.scrubPass n) s = execScrubPass n s := by rfl

theorem exec_pageReclaim_eq (n : Nat) (s : State) : exec (.pageReclaim n) s = execPageReclaim n s := by rfl

theorem exec_flyMerge_eq (p : Nat) (s : State) : exec (.flyMerge p) s = execFlyMerge p s := by rfl

theorem State.readFrame_of_no_error {s : State} (hue : s.hbmErr = []) (hce : s.hbmCe = []) (scrub : Bool) (f : Nat) :
    s.readFrame scrub f = s := by
  unfold State.readFrame
  rw [hue, hce]
  rfl

theorem exec_scrubPass_clean {s : State} {n : Nat} (hn : n < 12) (hup : s.up = true) (hon : s.poolOn = true)
    (hscrub : s.fld Reg.poolCtrl 2 1 = 1) (hue : s.hbmErr = []) (hce : s.hbmCe = []) :
    exec (.scrubPass n) s = .next { s with pool := { s.pool with
      scrub := tabPut n (((alistGet s.pool.scrub n).getD 0 % 24576 + 1) % 24576) s.pool.scrub } } := by
  rw [exec_scrubPass_eq, execScrubPass, decide_eq_true hn, hup, hon, hscrub]
  dsimp only
  rw [State.readFrame_of_no_error hue hce]
  rfl

theorem exec_pageReclaim_frees {s : State} {n : Nat} (hn : n < 12) (hup : s.up = true) :
    ∃ t, exec (.pageReclaim n) s = .next t
      ∧ t = { s with pool := { s.pool with frames := t.pool.frames, evictOn := t.pool.evictOn } }
      ∧ ∀ x, x ∈ t.pool.frames ↔ x ∈ s.pool.frames ∧ ¬(x.1 / 24576 = n ∧ x.2 = .reclaim) := by
  refine ⟨State.noteFree { s with pool := { s.pool with
    frames := s.pool.frames.filter (fun f => !(frameStack f.1 == n && f.2 == .reclaim)) } } n, ?_, rfl, fun x => ?_⟩
  · rw [exec_pageReclaim_eq, execPageReclaim, decide_eq_true hn, hup]
    rfl
  · refine List.mem_filter.trans (and_congr_right fun _ => ?_)
    simp [frameStack, stackFrames, imp_iff_not_or]

theorem State.mergePage_ends (s : State) (p : Nat) (m : Merge) (e : DirEntry) :
    alistGet (s.mergePage p m e).pool.merges p = none ∧ (s.mergePage p m e).frameUse m.frame = none :=
  ⟨alistGet_tabDel_self .., alistGet_tabDel_self ..⟩

theorem exec_flyMerge_merges {s : State} {p : Nat} {m : Merge} {e : DirEntry} (hworks : s.works = true)
    (hm : alistGet s.pool.merges p = some m) (he : s.dir p = some e) : exec (.flyMerge p) s = .next (s.mergePage p m e) := by
  rw [exec_flyMerge_eq, execFlyMerge, hm, he]
  dsimp only
  rw [hworks, whenOk_true]

/-- Settles O18: a request by its answer or its timeout, and each command of upkeep by what it does to frames. -/
theorem farRequestsAndScrubEnd : Obligations.FarRequestsAndScrubEnd := by
  refine ⟨fun s id r hup => ⟨fun hfind => ⟨exec_farReadCompletion_data hup hfind,
      fun data st hst => ⟨_, exec_farReadCompletion_failed hup hfind hst data, State.farReadFailed_ends hfind ..⟩,
      fun ht => ⟨_, exec_farReadTimeout_expired hup hfind ht, State.farReadFailed_ends hfind ..⟩⟩,
    fun c h x => exec_farWriteTimeout_put hup⟩,
    fun s n hn => ⟨exec_scrubPass_clean hn, exec_pageReclaim_frees hn, fun p m e hworks hm he => ?_⟩⟩
  obtain ⟨hmerges, hfree⟩ := s.mergePage_ends p m e
  exact ⟨_, exec_flyMerge_merges hworks hm he, hmerges, hfree, rfl, (StepKept.mergePage s p m e).spad⟩

end Sys2Proof.Machine
end

section
/-! PROOF. COPY descriptors: the pages they wait for, the bytes they move, and the reasons they fail with (R295, R301,
R460). -/

namespace Sys2Proof.Machine

theorem exec_copy_eq (q slot : Nat) (s : State) : exec (.copy q slot) s = execCopy q slot s := by rfl

theorem exec_copyComplete_eq (q slot st : Nat) (data : List Byte) (s : State) :
    exec (.copyComplete q slot st data) s = execCopyComplete q slot st data s := by rfl

/-- What a waiter forgets as it goes on is in the pool. -/
theorem State.goOn_eq (s : State) (w : FarWaiter) : s.goOn w = { s with pool := { s.pool with
    waiters := (s.goOn w).pool.waiters, failed := (s.goOn w).pool.failed } } := by
  unfold State.goOn
  split <;> rfl

theorem State.goOn_poolRaw (s : State) (w : FarWaiter) (a n : Nat) : (s.goOn w).poolRaw a n = s.poolRaw a n := by
  rw [State.goOn_eq]
  rfl

theorem find?_not_of_forall {α : Type} {p : α → Bool} {l : List α} (h : ∀ x ∈ l, p x = true) :
    l.find? (fun x => !p x) = none :=
  List.find?_eq_none.mpr fun x hx => by simp [h x hx]

section
variable {s : State} {i : Instr} {q : Nat} {d : Started}

/-- A COPY acts once all its pages are served and at hand. -/
theorem State.overCopy_of_here (hserved : ∀ p ∈ copyPages d.ws, s.pageOk p = true)
    (hnear : s.farNeed (.cmd i) (copyPages d.ws) = []) (act : State → State) :
    s.overCopy i q d act = act (s.goOn (.cmd i)) := by
  unfold State.overCopy
  rw [find?_not_of_forall hserved]
  exact State.withPages_of_here hnear act

/-- A COPY fails at the first of its pages that is not served. -/
theorem State.overCopy_of_not_served {p : Nat} {l : List Nat} (hpages : copyPages d.ws = p :: l)
    (hbad : s.pageOk p = false) (act : State → State) :
    s.overCopy i q d act = (s.xferFault 0xFFFF p).complete q d 1 1 := by
  unfold State.overCopy
  rw [hpages, List.find?_cons_of_pos (by simp [hbad])]

end

section
variable {s : State} {q slot : Nat} {d : Started} (hq : q < 64) (hup : s.up = true)
include hq hup

/-- A COPY on its slot whose host access has not left. -/
theorem exec_copy_started (hslot : s.startedAt q slot 3 = some d) (hsent : d.sent = false) :
    exec (.copy q slot) s = .next (
      if copyPoolOk d.ws = false then s.complete q d 1 1
      else (s.putStarted q d { d with begun := true }).overCopy (.copy q slot) q { d with begun := true } (fun t =>
        let u := t.putStarted q { d with begun := true } { d with begun := true, sent := true }
        let n := 64 * wfield d.ws 7 0 24
        let host := nthWord d.ws 3 + 2 ^ 32 * nthWord d.ws 4
        if wfield d.ws 7 31 1 = 0 then u.toHost (.hostRead host n)
        else (u.poolTouch (copyPool d.ws) n).toHost (.hostData host (u.poolRaw (copyPool d.ws) n)))) := by
  rw [exec_copy_eq, execCopy, decide_eq_true hq, hslot]
  dsimp only
  rw [hup, hsent]
  rfl

theorem exec_copyComplete_begun (hslot : s.begunAt q slot 3 = some d) (hsent : d.sent = true) (st : Nat)
    (data : List Byte) : exec (.copyComplete q slot st data) s = .next (
      if st ≠ 0 then (s.bump Reg.hqHostErr).complete q d 1 8
      else if wfield d.ws 7 31 1 = 1 then s.complete q d 0 0
      else s.overCopy (.copyComplete q slot st data) q d (fun t => (t.poolWrite (copyPool d.ws)
        ((data ++ List.replicate (64 * wfield d.ws 7 0 24 - data.length) 0).take (64 * wfield d.ws 7 0 24))).complete
          q d 0 0)) := by
  rw [exec_copyComplete_eq, execCopyComplete, onBegun, decide_eq_true hq, hslot]
  dsimp only
  rw [hup, hsent]
  rfl

end

theorem take_append_replicate_of_length {data : List Byte} {n : Nat} (h : data.length = n) :
    (data ++ List.replicate (n - data.length) 0).take n = data := by
  rw [h, Nat.sub_self, List.replicate_zero, List.append_nil, ← h, List.take_length]

/-- Settles O42: a COPY by its pool address, its pages and its direction, its completion by the host access. -/
theorem copyMovesItsBytes : Obligations.CopyMovesItsBytes := by
  intro s q slot d hq hup a n host e v w u served
  refine ⟨fun hslot hsent => ?_, fun hslot hsent data => ?_⟩
  · rw [exec_copy_started hq hup hslot hsent]
    refine ⟨fun hbad => by rw [if_pos hbad], fun hok hserved hnear => ?_, fun p l hok hpages hbad => ?_⟩
    · rw [if_neg (by simp [hok]), State.overCopy_of_here (s := s.putStarted q d { d with begun := true })
        (d := { d with begun := true }) hserved hnear]
      refine ⟨fun hdir => by rw [if_pos hdir], fun hdir => ?_⟩
      rw [if_neg (by simp [hdir])]
      congr 3
      exact State.goOn_poolRaw v w a n
    · rw [if_neg (by simp [hok]), State.overCopy_of_not_served
        (s := s.putStarted q d { d with begun := true }) (d := { d with begun := true }) hpages hbad]
  · refine ⟨fun st hst => ?_, fun hdir => ?_, fun hdir hlen hserved hnear => ?_⟩
    · rw [exec_copyComplete_begun hq hup hslot hsent, if_pos hst]
    · rw [exec_copyComplete_begun hq hup hslot hsent, if_neg (by simp), if_pos hdir]
    · rw [exec_copyComplete_begun hq hup hslot hsent, if_neg (by simp), if_neg (by simp [hdir]),
        State.overCopy_of_here hserved hnear, take_append_replicate_of_length hlen]

end Sys2Proof.Machine
end

section
/-! PROOF. Pool commands: a retirement copy over a memory that lists a byte twice (R321). -/

namespace Sys2Proof.Machine

/-- Page 0 in frame 0, whose retirement copy to frame 1 is under way; the memory lists byte 0 twice, first with 1. -/
def copyOfByteListedTwice : State :=
  { boot := { stage := .running }, hbm := [(0, 1), (0, 2)],
    pool := { dir := [(0, {})], frames := [(0, .page 0), (1, .copy)], retiring := [⟨0, 0, 1⟩] } }

theorem memByte_copyOfByteListedTwice : memByte copyOfByteListedTwice.hbm 0 = 1 := by decide

/-- The copy writes both listed bytes in turn, so that the second stands, where a read takes the first. -/
theorem exec_retireCopyComplete_byteListedTwice (t : State)
    (ht : exec (.retireCopyComplete 0 0) copyOfByteListedTwice = .next t) : memByte t.hbm 2097152 = 2 := by
  have hbyte : (match exec (.retireCopyComplete 0 0) copyOfByteListedTwice with
      | .next u => memByte u.hbm 2097152 | _ => 0) = 2 := by decide +kernel
  rw [ht] at hbyte
  exact hbyte

/-- Refutes O16: the statement does not ask that the memory be in canonical form. Where HBM lists a byte twice, the
retirement copy leaves the byte listed last in the target frame, and the frame read as the one listed first. -/
theorem not_poolCommandsKeepTheDirectory : ¬ Obligations.PoolCommandsKeepTheDirectory := by
  rintro ⟨-, -, -, hcopy⟩
  obtain ⟨t, ht, -, -, -, hbytes⟩ := hcopy copyOfByteListedTwice 0 0 0 ⟨0, 0, 1⟩ {} (by decide) (by decide) (by decide)
    (by decide) (by decide) (by decide) (by decide) (by simp [copyOfByteListedTwice]) (by simp [copyOfByteListedTwice])
  have hread := hbytes 0 (by decide)
  rw [show 2097152 * (⟨0, 0, 1⟩ : Retiring).target + 0 = 2097152 from rfl,
    exec_retireCopyComplete_byteListedTwice t ht, show 2097152 * (24576 * 0 + 0) + 0 = 0 from rfl,
    memByte_copyOfByteListedTwice] at hread
  exact absurd hread (by decide)

end Sys2Proof.Machine
end

section
/-! PROOF. Bring-ups: a page whose slot number lies outside the slots of Table 10-3 (R301, R305). -/

namespace Sys2Proof.Machine

/-- Page 1 lies in the far tier under slot 2^24, past the 2^23 slots that the map of page 0 has bits for; its bring-up to
frame 1 has its one byte. -/
def bringupOfSlotPastTheMap : State :=
  { boot := { stage := .running }, regs := [(Reg.poolCtrl, 1)],
    pool := { dir := [(0, {}), (1, { far := true, loc := 2 ^ 24 })], frames := [(0, .page 0), (1, .bringup 1)],
              bringups := [⟨1, some 1, 0⟩],
              farReqs := [{ id := 0, write := false, owner := .bringup 1, start := 0, region := 0, len := 1,
                            done := some (0, [1]) }] } }

theorem evictMap_bringupOfSlotPastTheMap : bringupOfSlotPastTheMap.evictMap = 0 := by decide

/-- The map byte of slot 2^24 would be the first byte after the map's page, which is the first byte of frame 1: releasing
the slot clears the bit that has just come. -/
theorem exec_bringupComplete_slotPastTheMap (t : State)
    (ht : exec (.bringupComplete 1) bringupOfSlotPastTheMap = .next t) : memByte t.hbm 2097152 = 0 := by
  have hbyte : (match exec (.bringupComplete 1) bringupOfSlotPastTheMap with
      | .next u => memByte u.hbm 2097152 | _ => 1) = 0 := by decide +kernel
  rw [ht] at hbyte
  exact hbyte

/-- The page of the map lies in frame 0, so that none of its bytes is in the frame of the bring-up. -/
theorem committedFrame_bringupOfSlotPastTheMap (m : DirEntry)
    (hm : bringupOfSlotPastTheMap.dir bringupOfSlotPastTheMap.evictMap = some m) (o : Nat) :
    bringupOfSlotPastTheMap.committedFrame bringupOfSlotPastTheMap.evictMap m o ≠ 1 := by
  rw [evictMap_bringupOfSlotPastTheMap] at hm ⊢
  obtain rfl : ({} : DirEntry) = m := Option.some.inj hm
  exact show frameNo 0 0 ≠ 1 by decide

/-- Refutes O17: the statement does not ask that LOC of a far page be a slot of the map. With LOC 2^24 the release of the
slot writes the first byte of the frame after the map's, which is the bring-up's: the byte that came as 1 reads 0. -/
theorem not_pagesMoveToAndFromTheFarTier : ¬ Obligations.PagesMoveToAndFromTheFarTier := by
  rintro ⟨-, -, hbringup⟩
  obtain ⟨hread, -⟩ := hbringup bringupOfSlotPastTheMap 1 1 ⟨1, some 1, 0⟩ { far := true, loc := 2 ^ 24 } 0 [1]
    (by decide) (by decide) (by decide) (by decide) rfl (by decide) (by simp [bringupOfSlotPastTheMap])
    committedFrame_bringupOfSlotPastTheMap
  obtain ⟨t, ht, -, -, hbytes⟩ := hread rfl
  have hbyte := hbytes 0 (by decide)
  rw [show 2097152 * 1 + 0 = 2097152 from rfl, exec_bringupComplete_slotPastTheMap t ht] at hbyte
  exact absurd hbyte (by decide)

end Sys2Proof.Machine
end

section
/-! PROOF. Scalar loads and stores: the store buffer and the bytes of scratchpad (R389, R390). -/

namespace Sys2Proof.Machine

/-! ### What a load reads -/

theorem leNat_lt (l : List Byte) : leNat l < 256 ^ l.length := by
  induction l with
  | nil => exact Nat.one_pos
  | cons b l ih =>
    rw [leNat, List.length_cons, Nat.pow_succ]
    have hb := b.isLt
    omega

theorem memNat_lt (m : List (Nat × Byte)) (a n : Nat) : memNat m a n < 2 ^ (8 * n) := by
  have h := leNat_lt (memBytes m a n)
  rwa [memBytes_length, show (256 : Nat) = 2 ^ 8 from rfl, ← Nat.pow_mul] at h

/-- The signed value of a number of `w` bits, cut to 64, is its word of `w` bits sign-extended. -/
theorem ofInt_sub_two_pow_eq_signExtend {w v : Nat} (hw : 0 < w) (hv : v < 2 ^ w) :
    (if v.testBit (w - 1) then BitVec.ofInt 64 ((v : Int) - 2 ^ w) else BitVec.ofNat 64 v)
      = (BitVec.ofNat w v).signExtend 64 := by
  have hmsb : (BitVec.ofNat w v).msb = v.testBit (w - 1) := by
    rw [BitVec.msb_eq_getLsbD_last, BitVec.getLsbD_ofNat, decide_eq_true (by omega), Bool.true_and]
  rw [BitVec.signExtend, BitVec.toInt_eq_msb_cond, hmsb, BitVec.toNat_ofNat, Nat.mod_eq_of_lt hv]
  split
  · push_cast
    rfl
  · exact (BitVec.ofInt_natCast 64 v).symm

theorem State.spadTouch_of_no_error {s : State} (herr : s.spadErr = []) (hce : s.spadCe = []) (a n : Nat) :
    s.spadTouch a n = s := by
  rw [State.spadTouch, herr, hce]
  rfl

theorem memCheck_eq_none {a n : Nat} (hin : a % 2 ^ 23 < 6291456) (hal : a % n = 0) : memCheck a n = none := by
  rw [memCheck, if_neg (by simp only [sliceBytes]; omega), if_neg (by omega)]

theorem effAddr_fetchCe (s : State) (c : Nat) (o : IOps) : effAddr ((s.fetchCe c).cell c) o = effAddr (s.cell c) o := by
  rw [effAddr, fetchCe_a, ← effAddr]

theorem stores_fetchCe (s : State) (c : Nat) : ((s.fetchCe c).cell c).stores = (s.cell c).stores := by
  rw [State.fetchCe_cell_self]

theorem spad_fetchCe (s : State) (c : Nat) : (s.fetchCe c).spad = s.spad := by rw [State.fetchCe_eq]
theorem spadErr_fetchCe (s : State) (c : Nat) : (s.fetchCe c).spadErr = s.spadErr := by rw [State.fetchCe_eq]
theorem spadCe_fetchCe (s : State) (c : Nat) : (s.fetchCe c).spadCe = s.spadCe := by rw [State.fetchCe_eq]

/-! ### The store buffer written out -/

theorem State.raceRegs_eq (hit : Nat → List Nat) (s : State) (c : Nat) :
    State.raceRegs hit s c = { s with regs := (State.raceRegs hit s c).regs } := by
  unfold State.raceRegs
  dsimp only
  split
  · split
    · split <;> rfl
    · rfl
  · rfl

theorem State.raceRegs_foldl_eq (hit : Nat → List Nat) (l : List Nat) (s : State) :
    l.foldl (State.raceRegs hit) s = { s with regs := (l.foldl (State.raceRegs hit) s).regs } := by
  induction l generalizing s with
  | nil => rfl
  | cons c l ih =>
    rw [List.foldl_cons, ih, State.raceRegs_eq hit s c]

/-- Beside its bytes, a write of scratchpad changes cells, registers and free values at most (R153). -/
theorem State.raceWrite_eq (s : State) (a n : Nat) : s.raceWrite a n = { s with
    cells := (s.raceWrite a n).cells, regs := (s.raceWrite a n).regs, spad := (s.raceWrite a n).spad,
    free := (s.raceWrite a n).free } := by
  unfold State.raceWrite
  split
  · rfl
  · dsimp only
    rw [State.raceRegs_foldl_eq]

section
variable {s : State} (herr : s.spadErr = []) (hce : s.spadCe = [])
include herr hce

/-- Writes of scratchpad bring no word of it in error. -/
theorem State.spadWrites_no_error (l : List StoreEntry) :
    (l.foldl (fun t e => t.spadWrite e.addr e.bytes) s).spadErr = []
      ∧ (l.foldl (fun t e => t.spadWrite e.addr e.bytes) s).spadCe = [] := by
  induction l generalizing s with
  | nil => exact ⟨herr, hce⟩
  | cons e l ih =>
    refine ih (s := s.spadWrite e.addr e.bytes) ?_ ?_
    · show ((s.raceWrite e.addr e.bytes.length).spadErr).filter _ = []
      rw [State.raceWrite_eq, herr, List.filter_nil]
    · show ((s.raceWrite e.addr e.bytes.length).spadCe).filter _ = []
      rw [State.raceWrite_eq, hce, List.filter_nil]

theorem State.drainStores_no_error (c : Nat) : (s.drainStores c).spadErr = [] ∧ (s.drainStores c).spadCe = [] := by
  unfold State.drainStores
  dsimp only
  split
  · exact ⟨herr, hce⟩
  · exact State.spadWrites_no_error herr hce _

end

theorem State.drainStores_stores (s : State) (c : Nat) : ((s.drainStores c).cell c).stores = [] := by
  obtain ⟨r, t, w, h⟩ := drainStores_cell s c c
  rw [h, if_pos rfl]

/-- A buffer of one entry, written out. -/
theorem State.drainStores_singleton {s : State} {c : Nat} {e : StoreEntry} (h : (s.cell c).stores = [e]) :
    s.drainStores c = (s.spadWrite e.addr e.bytes).setCell c
      { (s.spadWrite e.addr e.bytes).cell c with stores := [] } := by
  rw [State.drainStores, h]
  rfl

/-! ### Loads -/

section
variable {s : State} {c : Nat} {i : Instr} {o : IOps} {opc n : Nat} {sext : Bool} {v : W64}
  (hx : exec i s = scalarLoad c i o opc n sext s) (hin : effAddr (s.cell c) o % 2 ^ 23 < 6291456)
  (hal : effAddr (s.cell c) o % n = 0) (herr : s.spadErr = []) (hce : s.spadCe = [])
include hx hin hal herr hce

/-- A load whose bytes no buffered store holds writes its register from memory. -/
theorem iCompletes_of_scalarLoad
    (hfree : ∀ e ∈ (s.cell c).stores, e.addr + e.bytes.length ≤ effAddr (s.cell c) o ∨ effAddr (s.cell c) o + n ≤ e.addr)
    (hv : (if sext && (memNat s.spad (effAddr (s.cell c) o) n).testBit (8 * n - 1) then
        BitVec.ofInt 64 ((memNat s.spad (effAddr (s.cell c) o) n : Int) - 2 ^ (8 * n))
      else BitVec.ofNat 64 (memNat s.spad (effAddr (s.cell c) o) n)) = v) :
    ICompletes s c i o 0x01 opc [o.sd.toNat] ((s.cell c).setS o.sd.toNat v) := by
  have hno : (s.cell c).stores.any (storeHits (effAddr (s.cell c) o) n) = false := by
    rw [List.any_eq_false]
    intro e he
    have := hfree e he
    simp only [storeHits, Bool.and_eq_true, decide_eq_true_eq]
    omega
  refine iCompletes_of hx rfl ?_
  dsimp only
  rw [effAddr_fetchCe, memCheck_eq_none hin hal, stores_fetchCe, hno]
  dsimp only
  rw [if_neg Bool.false_ne_true, State.spadTouch_of_no_error (by rwa [spadErr_fetchCe]) (by rwa [spadCe_fetchCe]),
    State.spadNat, spad_fetchCe, hv]
  exact effS_cell s c o.sd.toNat v

/-- A load of bytes that a buffered store holds reads them once the buffer is written out. -/
theorem exec_of_scalarLoad_forwarded (hiss : Issues s c i o.gneg o.gp [o.sd.toNat]) (hleg : iLegal 0x01 opc o = true)
    (hpc : (s.cell c).pc.toNat < 4095)
    (hhit : ∃ e ∈ (s.cell c).stores, e.addr < effAddr (s.cell c) o + n ∧ effAddr (s.cell c) o < e.addr + e.bytes.length)
    (hz : sext = false) :
    exec i s = .next ((((s.fetchCe c).drainStores c).setCell c ((((s.fetchCe c).drainStores c).cell c).setS o.sd.toNat
      (BitVec.ofNat 64 (memNat ((s.fetchCe c).drainStores c).spad (effAddr (s.cell c) o) n)))).goesOn c (s.cell c).pc) := by
  have hany : (s.cell c).stores.any (storeHits (effAddr (s.cell c) o) n) = true := by
    obtain ⟨e, he, h1, h2⟩ := hhit
    exact List.any_eq_true.mpr ⟨e, he, by simp [storeHits, h1, h2]⟩
  obtain ⟨herr', hce'⟩ := State.drainStores_no_error (s := s.fetchCe c) (by rwa [spadErr_fetchCe])
    (by rwa [spadCe_fetchCe]) c
  rw [hx, scalarLoad, coreI, hleg, coreStep_issues hiss, State.fetched_eq_fetchCe s c rfl, effAddr_fetchCe]
  dsimp only
  rw [memCheck_eq_none hin hal, stores_fetchCe, hany]
  dsimp only
  rw [if_pos rfl, State.spadTouch_of_no_error herr' hce', hz, effS]
  simp only [State.finish, fetchCe_pc]
  rw [if_pos (by omega)]
  rfl

end

/-- A store enters the buffer while it has room. -/
theorem iCompletes_of_scalarStore {s : State} {c : Nat} {i : Instr} {o : IOps} {opc n : Nat}
    (hx : exec i s = scalarStore c i o opc n s) (hin : effAddr (s.cell c) o % 2 ^ 23 < 6291456)
    (hal : effAddr (s.cell c) o % n = 0) (hroom : (s.cell c).stores.length < 8) :
    ICompletes s c i o 0x01 opc [o.sd.toNat] { s.cell c with
      stores := (s.cell c).stores ++ [⟨effAddr (s.cell c) o, leBytes n ((s.cell c).s o.sd.toNat).toNat⟩] } := by
  refine iCompletes_of hx rfl ?_
  dsimp only
  rw [effAddr_fetchCe, memCheck_eq_none hin hal, stores_fetchCe]
  dsimp only
  rw [if_neg (by omega), stores_fetchCe, fetchCe_s]
  exact ⟨_, rfl, rfl, by unfold SameCore; rw [State.fetchCe_cell_self]⟩

/-- Settles O2: loads by whether a buffered store meets their bytes, stores by their entry, and the buffer of one entry by
the write of scratchpad that it comes to. -/
theorem loadsAndStoresMoveTheirBytes : Obligations.LoadsAndStoresMoveTheirBytes := by
  refine ⟨fun s c o => ?_, ?_, fun s c o => ?_, fun s c e he => ?_⟩
  · intro k a ld w
    have hsigned : ∀ n : Nat, 0 < 8 * n → _ :=
      fun n hn => ofInt_sub_two_pow_eq_signExtend hn (memNat_lt s.spad a n)
    refine ⟨?_, ?_, ?_, ?_, ?_, ?_, ?_⟩ <;> intro hin hal herr hce hfree
    · exact iCompletes_of_scalarLoad (sext := false) rfl hin hal herr hce hfree rfl
    · exact iCompletes_of_scalarLoad (sext := false) rfl hin hal herr hce hfree rfl
    · exact iCompletes_of_scalarLoad (sext := false) rfl hin hal herr hce hfree rfl
    · exact iCompletes_of_scalarLoad (sext := false) rfl hin hal herr hce hfree rfl
    · exact iCompletes_of_scalarLoad (sext := true) rfl hin hal herr hce hfree (hsigned 4 (by decide))
    · exact iCompletes_of_scalarLoad (sext := true) rfl hin hal herr hce hfree (hsigned 2 (by decide))
    · exact iCompletes_of_scalarLoad (sext := true) rfl hin hal herr hce hfree (hsigned 1 (by decide))
  · intro s c o k a u hiss hleg hpc hin hal hhit herr hce
    exact ⟨exec_of_scalarLoad_forwarded (sext := false) rfl hin hal herr hce hiss hleg hpc hhit rfl,
      State.drainStores_stores _ c⟩
  · intro k a st
    refine ⟨?_, ?_, ?_, ?_⟩ <;> intro hin hal hroom <;> exact iCompletes_of_scalarStore rfl hin hal hroom
  · dsimp only
    rw [State.drainStores_singleton he]
    exact ⟨fun j hj => spadWrite_inside s e.addr j e.bytes hj, spadWrite_other s e.addr e.bytes,
      spadWrite_hbm s e.addr e.bytes, by simp⟩

end Sys2Proof.Machine
end

section
/-! PROOF. Allocation: the frame taken, the lowest free page, and the allocator's waits (R53, R294, R296). -/

namespace Sys2Proof.Machine

/-! ### Listed values at other keys -/

theorem alistGet_tabPut_of_ne {V : Type} {k j : Nat} (h : j ≠ k) (v : V) (m : List (Nat × V)) :
    alistGet (tabPut k v m) j = alistGet m j := by
  induction m with
  | nil => exact if_neg h
  | cons q m ih =>
    unfold tabPut
    split
    · exact if_neg h
    · split
      · next _ heq => exact (if_neg h).trans (if_neg (heq ▸ h)).symm
      · exact congrArg (fun x => if j = q.1 then some q.2 else x) ih

theorem exists_mem_of_alistGet_isSome {V : Type} {m : List (Nat × V)} {k : Nat} (h : (alistGet m k).isSome) :
    ∃ v, (k, v) ∈ m := by
  induction m with
  | nil => exact absurd h Bool.false_ne_true
  | cons q m ih =>
    rw [alistGet] at h
    split at h
    · next heq => exact ⟨q.2, heq ▸ List.mem_cons_self⟩
    · obtain ⟨v, hv⟩ := ih h
      exact ⟨v, List.mem_cons_of_mem _ hv⟩

/-! ### Free frames -/

/-- A search that ends without a frame has found every candidate used. -/
theorem State.seekFrame_eq_none {s : State} {n : Nat} : ∀ {f k : Nat}, s.seekFrame n f k = none →
    ∀ i, i < f → (s.frameUse (frameNo n ((k + i) % stackFrames))).isSome
  | 0, _, _, _, hi => absurd hi (Nat.not_lt_zero _)
  | f + 1, k, h, i, hi => by
    rw [State.seekFrame] at h
    split at h
    · exact absurd h (by simp)
    · next hused =>
      cases i with
      | zero => simpa [Option.isSome_iff_ne_none] using hused
      | succ i =>
        rw [← Nat.add_assoc, Nat.add_right_comm]
        exact State.seekFrame_eq_none h i (Nat.lt_of_succ_lt_succ hi)

theorem State.seekFrame_eq_some {s : State} {n x : Nat} : ∀ {f k : Nat}, s.seekFrame n f k = some x →
    x < stackFrames ∧ s.frameUse (frameNo n x) = none
  | f + 1, k, h => by
    rw [State.seekFrame] at h
    split at h
    · next hfree =>
      obtain rfl := Option.some.inj h
      exact ⟨Nat.mod_lt _ (by decide), Option.isNone_iff_eq_none.mp hfree⟩
    · exact State.seekFrame_eq_some h

theorem frameStack_frameNo (n : Nat) {x : Nat} (h : x < stackFrames) : frameStack (frameNo n x) = n := by
  simp only [frameStack, frameNo, stackFrames] at *
  omega

/-- Consecutive candidates of a stack, no more of them than it has frames, are distinct frames. -/
theorem nodup_candidates (n k : Nat) {m : Nat} (hm : m ≤ stackFrames) :
    ((List.range m).map fun i => frameNo n ((k + i) % stackFrames)).Nodup := by
  refine List.Nodup.map_on (fun i hi j hj h => ?_) List.nodup_range
  simp only [List.mem_range, frameNo, stackFrames] at *
  omega

/-- One candidate more than a stack has used frames leaves a free one among them. -/
theorem State.seekFrame_ne_none {s : State} {n : Nat} (h : 0 < s.freeFrames n) (k : Nat) :
    s.seekFrame n (s.usedFrames n + 1) k ≠ none := by
  intro hnone
  have hused := State.seekFrame_eq_none hnone
  have hm : s.usedFrames n + 1 ≤ stackFrames := by
    rw [State.freeFrames] at h
    omega
  have hsub : ((List.range (s.usedFrames n + 1)).map fun i => frameNo n ((k + i) % stackFrames))
      ⊆ (s.pool.frames.filter fun p => frameStack p.1 == n).map (·.1) := by
    intro f hf
    obtain ⟨i, hi, rfl⟩ := List.mem_map.mp hf
    obtain ⟨v, hv⟩ := exists_mem_of_alistGet_isSome (hused i (List.mem_range.mp hi))
    exact List.mem_map.mpr ⟨_, List.mem_filter.mpr ⟨hv, by simp [frameStack_frameNo n (Nat.mod_lt _ (by decide))]⟩, rfl⟩
  have hlen := ((nodup_candidates n k hm).subperm hsub).length_le
  rw [List.length_map, List.length_range, List.length_map, ← State.usedFrames] at hlen
  omega

/-- What taking a frame changes: the frames, what evicts, and the counter of free values. -/
theorem State.takeFrame_eq_some {s u : State} {n f : Nat} {v : FrameUse} (h : s.takeFrame n v = some (f, u)) :
    (∃ x, x < stackFrames ∧ f = frameNo n x) ∧ s.frameUse f = none
      ∧ ∃ free on, u = { s with free := free, pool := { s.pool with frames := tabPut f v s.pool.frames, evictOn := on } } := by
  unfold State.takeFrame at h
  split at h
  · exact absurd h (by simp)
  · dsimp only at h
    split at h
    · next x hx =>
      obtain ⟨hlt, hfree⟩ := State.seekFrame_eq_some hx
      obtain ⟨rfl, rfl⟩ := Prod.mk.inj (Option.some.inj h)
      exact ⟨⟨x, hlt, rfl⟩, hfree, _, _, rfl⟩
    · exact absurd h (by simp)

theorem State.exists_takeFrame {s : State} {n : Nat} (h : 0 < s.freeFrames n) (v : FrameUse) :
    ∃ f u, s.takeFrame n v = some (f, u) := by
  have hseek := State.seekFrame_ne_none (s := s.drawNat.2) h (s.drawNat.1 % stackFrames)
  obtain ⟨x, hx⟩ := Option.ne_none_iff_exists'.mp hseek
  refine ⟨frameNo n x, (s.drawNat.2.setFrame (frameNo n x) v).noteTaken n, ?_⟩
  rw [State.takeFrame, if_neg (by omega)]
  dsimp only
  rw [hx]

/-! ### The lowest free page -/

theorem State.seekPage_congr {s t : State} (h : t.pool.dir = s.pool.dir) : ∀ f p, t.seekPage f p = s.seekPage f p
  | 0, _ => rfl
  | f + 1, p => by
    have hdir : t.dir p = s.dir p := by rw [State.dir, h, ← State.dir]
    rw [State.seekPage, State.seekPage, hdir, State.seekPage_congr h f (p + 1)]

theorem State.lowestPage_congr {s t : State} (h : t.pool.dir = s.pool.dir) : t.lowestPage = s.lowestPage := by
  rw [State.lowestPage, h, State.seekPage_congr h, ← State.lowestPage]

theorem State.seekPage_eq_some {s : State} {p : Nat} : ∀ {f a : Nat}, s.seekPage f a = some p →
    p < poolPages ∧ s.dir p = none ∧ ∀ q, a ≤ q → q < p → (s.dir q).isSome
  | f + 1, a, h => by
    rw [State.seekPage] at h
    split at h
    · next hin =>
      split at h
      · next hfree =>
        obtain rfl := Option.some.inj h
        exact ⟨hin, Option.isNone_iff_eq_none.mp hfree, fun q hq hlt => absurd hq (Nat.not_le.mpr hlt)⟩
      · next hused =>
        obtain ⟨hp, hnone, hbelow⟩ := State.seekPage_eq_some h
        refine ⟨hp, hnone, fun q hq hlt => ?_⟩
        rcases Nat.eq_or_lt_of_le hq with rfl | hq
        · simpa [Option.isSome_iff_ne_none] using hused
        · exact hbelow q hq hlt
    · exact absurd h (by simp)

theorem State.lowestPage_eq_some {s : State} {p : Nat} (h : s.lowestPage = some p) :
    p < poolPages ∧ s.dir p = none ∧ ∀ q, q < p → (s.dir q).isSome := by
  obtain ⟨hp, hnone, hbelow⟩ := State.seekPage_eq_some h
  exact ⟨hp, hnone, fun q hq => hbelow q (Nat.zero_le q) hq⟩

/-! ### The answer of an allocation -/

theorem Reported.quotaCheck (s old : State) (c : Nat) : Reported s (s.quotaCheck old c) := .ite (reportLim ..) (refl s)

theorem State.allocDone_pool (s : State) (who : PoolClient) (p : Nat) : (s.allocDone who p).pool = s.pool := by
  cases who <;> rfl

theorem State.allocDone_hbm (s : State) (who : PoolClient) (p : Nat) : (s.allocDone who p).hbm = s.hbm := by
  cases who <;> rfl

theorem State.dir_of_pool {s t : State} (h : t.pool = s.pool) (p : Nat) : t.dir p = s.dir p := by
  rw [State.dir, h, ← State.dir]

/-- The word that an allocation answers a cell with is its page. -/
theorem poolWord_page {p : Nat} (h : p < poolPages) : poolWord p 0 = BitVec.ofNat 64 p := by
  rw [poolWord, Nat.mod_eq_of_lt (Nat.lt_trans h (by decide)), Nat.mul_zero, Nat.add_zero]

theorem State.allocDone_host {s : State} {p : Nat} (h : p < poolPages) :
    (s.allocDone .host p).fld Reg.poolCmdStatus 12 19 = p ∧ (s.allocDone .host p).fld Reg.poolCmdStatus 0 4 = 0 := by
  constructor
  · show ((s.setFld Reg.poolCmdStatus 12 19 p).setFld Reg.poolCmdStatus 0 4 (2 * 0)).fld Reg.poolCmdStatus 12 19 = p
    rw [State.fld_setFld_beside _ _ _ (by decide), State.fld_setFld_self _ _ _ (by decide),
      Nat.mod_eq_of_lt (Nat.lt_trans h (by decide))]
  · exact State.fld_setFld_self _ _ _ (by decide)

theorem State.allocDone_cell {s : State} {c sd p : Nat} (h : p < poolPages) (hsd : sd ≠ 0) :
    ((s.allocDone (.cell c sd) p).cell c).s sd = BitVec.ofNat 64 p
      ∧ ((s.allocDone (.cell c sd) p).cell c).owed = (s.cell c).owed.erase sd := by
  have hcell : (s.allocDone (.cell c sd) p).cell c
      = { (s.cell c).setS sd (poolWord p 0) with owed := (s.cell c).owed.erase sd } := by
    show (s.setCell c _).cell c = _
    rw [State.cell_setCell, if_pos rfl]
  refine ⟨?_, by rw [hcell]⟩
  rw [hcell, ← poolWord_page h]
  exact (Cell.s_setS ..).trans (if_pos ⟨rfl, hsd⟩)

/-! ### The page mapped -/

section
variable {s u : State} {p cls n f : Nat} (htake : s.takeFrame n (.page p) = some (f, u))
include htake

theorem State.allocNow_of_takeFrame : s.allocNow p cls n = some ((u.mapPage p cls n f).quotaCheck s cls) := by
  rw [State.allocNow, htake]

theorem State.mapPage_dir (hp : p < poolPages) : (u.mapPage p cls n f).dir p
      = some { cls := cls, home := n, loc := frameIdx f, lastuse := s.pitch / 2 ^ 14 % 2 ^ 28 }
    ∧ ∀ q, q ≠ p → (u.mapPage p cls n f).dir q = s.dir q := by
  obtain ⟨-, -, free, on, rfl⟩ := State.takeFrame_eq_some htake
  refine ⟨(if_pos hp).trans (alistGet_tabPut_self _ _ _), fun q hq => ?_⟩
  exact congrArg (fun x => if q < poolPages then x else none) (alistGet_tabPut_of_ne hq _ _)

theorem State.mapPage_frameUse : (u.mapPage p cls n f).frameUse f = some (.page p) := by
  obtain ⟨-, -, free, on, rfl⟩ := State.takeFrame_eq_some htake
  exact alistGet_tabPut_self _ _ _

end

/-- A page that is mapped reads 0. -/
theorem State.mapPage_hbm (u : State) (p cls n f : Nat) {off : Nat} (h : off < 2097152) :
    memByte (u.mapPage p cls n f).hbm (2097152 * f + off) = 0 := by
  show memByte (memClear u.hbm (pageBytes * f) (pageBytes * f + pageBytes)) _ = 0
  rw [memByte_memClear, if_pos (by simp only [pageBytes]; omega)]

/-! ### The allocator's order of service -/

theorem mem_served {n t : Nat} {index : Nat → Nat} {l : List Nat} {x : Nat} : x ∈ served n t index l ↔ x ∈ l := by
  cases h : ahead n t (index x) <;> simp [served, h]

section
variable {s : State} {c sd cls n : Nat} (hwaits : s.pool.waits = [.alloc (.cell c sd) cls n])
  (hup : s.pool.bringups = [])
include hwaits hup

theorem State.asks_of_one_wait {a : FrameAsk} (ha : a ∈ s.asks) : a = .cmd (.alloc (.cell c sd) cls n) := by
  obtain ⟨r, -, ha⟩ := List.mem_flatMap.mp ha
  simp only [State.asksOf, hwaits, hup] at ha
  split at ha
  · rcases List.mem_append.mp ha with ha | ha
    · obtain ⟨i, -, ha⟩ := List.mem_flatMap.mp ha
      obtain ⟨w, hw, rfl⟩ := List.mem_map.mp ha
      rw [List.mem_singleton.mp (List.mem_filter.mp hw).1]
    · split at ha
      · simp [waitClient] at ha
      · exact absurd ha List.not_mem_nil
  · simp at ha

theorem State.asks_ne_nil (hc : c < 512) : s.asks ≠ [] := by
  refine List.ne_nil_of_mem (a := .cmd (.alloc (.cell c sd) cls n)) (List.mem_flatMap.mpr
    ⟨c / 64, mem_served.mpr (List.mem_range.mpr (by omega)), ?_⟩)
  simp only [State.asksOf, hwaits, hup]
  rw [if_pos (by omega)]
  refine List.mem_append_left _ (List.mem_flatMap.mpr
    ⟨c % 64, mem_served.mpr (List.mem_range.mpr (Nat.mod_lt _ (by decide))), ?_⟩)
  rw [Nat.div_add_mod]
  simp [waitClient]

/-- An allocation that waits alone is answered once a frame is free. -/
theorem State.endAsk_of_one_wait (hc : c < 512) {p : Nat} {u : State} (hpage : s.lowestPage = some p)
    (hnow : ({ s with pool := { s.pool with waits := [] } }).allocNow p cls n = some u) :
    s.endAsk s.asks = u.allocDone (.cell c sd) p := by
  obtain ⟨a, l, hasks⟩ := List.exists_cons_of_ne_nil (State.asks_ne_nil hwaits hup hc)
  obtain rfl : a = _ := State.asks_of_one_wait hwaits hup (hasks ▸ List.mem_cons_self)
  have hlow := (State.lowestPage_congr (s := s) (t := { s with pool := { s.pool with waits := [] } }) rfl).trans hpage
  have htry : s.tryAsk (.cmd (.alloc (.cell c sd) cls n)) = some (u.allocDone (.cell c sd) p) := by
    simp only [State.tryAsk, hwaits, List.erase_cons_head, State.tryWait, hlow, hnow]
  rw [hasks, State.endAsk, htry, Option.getD_some]

end

/-- An allocation that finds its frame leaves the cells and the waits of the pool. -/
theorem State.allocNow_leaves {s u : State} {p cls n : Nat} (h : s.allocNow p cls n = some u) :
    u.cells = s.cells ∧ u.pool.waits = s.pool.waits := by
  unfold State.allocNow at h
  split at h
  · exact absurd h (by simp)
  · next f s1 htake =>
    obtain rfl := Option.some.inj h
    have hrep := Reported.quotaCheck (s1.mapPage p cls n f) s cls
    obtain ⟨-, -, free, on, rfl⟩ := State.takeFrame_eq_some htake
    exact ⟨hrep.cells, by rw [hrep.pool]; rfl⟩

/-- Settles O15: the frame by the number of candidates, the page by the search from 0, the waits by their order. -/
theorem allocationMapsTheLowestFreePage : Obligations.AllocationMapsTheLowestFreePage := by
  refine ⟨fun s n v hn hfree => ?_, ⟨?_, ?_, ?_⟩, ?_⟩
  · obtain ⟨f, u, htake⟩ := State.exists_takeFrame hfree v
    obtain ⟨⟨x, hx, rfl⟩, hnone, free, on, rfl⟩ := State.takeFrame_eq_some htake
    exact ⟨_, _, htake, frameStack_frameNo n hx, hnone, alistGet_tabPut_self _ _ _,
      fun g hg => alistGet_tabPut_of_ne hg _ _, rfl, rfl⟩
  · intro s who cls stack p f u hcls hstack hwaits hpage htake t
    have ht : t = ((u.mapPage p cls stack f).quotaCheck s cls).allocDone who p := by
      show s.allocPage who cls stack = _
      rw [State.allocPage, if_neg (by omega), if_neg (by omega), hpage]
      dsimp only
      rw [hwaits, State.allocNow_of_takeFrame htake]
      rfl
    have hrep := Reported.quotaCheck (u.mapPage p cls stack f) s cls
    have hpool : t.pool = (u.mapPage p cls stack f).pool := by rw [ht, State.allocDone_pool, hrep.pool]
    have hhbm : t.hbm = (u.mapPage p cls stack f).hbm := by rw [ht, State.allocDone_hbm, hrep.hbm]
    obtain ⟨hp, -, -⟩ := State.lowestPage_eq_some hpage
    obtain ⟨hdir, hother⟩ := State.mapPage_dir (cls := cls) htake hp
    refine ⟨(State.dir_of_pool hpool p).trans hdir, ?_, fun off hoff => ?_,
      fun q hq => (State.dir_of_pool hpool q).trans (hother q hq), ?_, ?_⟩
    · rw [State.frameUse, hpool]
      exact State.mapPage_frameUse htake
    · rw [hhbm]
      exact State.mapPage_hbm u p cls stack f hoff
    · rintro rfl
      rw [ht]
      exact State.allocDone_host hp
    · rintro c sd rfl hsd
      rw [ht]
      exact (State.allocDone_cell hp hsd).1
  · exact fun s who cls stack h => if_pos h
  · exact fun s p h => State.lowestPage_eq_some h
  · intro s hup
    have hexec : exec .allocWaitEnd s = .next (s.endAsk s.asks) := by
      show execAllocWaitEnd s = _
      rw [execAllocWaitEnd, hup, whenOk_true]
    refine ⟨hexec, fun c sd cls n p u hc hwaits hbring hpage hnow hsd => ?_⟩
    obtain ⟨hcells, hleft⟩ := State.allocNow_leaves hnow
    obtain ⟨hp, -, -⟩ := State.lowestPage_eq_some hpage
    obtain ⟨hs, howed⟩ := State.allocDone_cell (s := u) (c := c) hp hsd
    refine ⟨_, hexec.trans (congrArg _ (State.endAsk_of_one_wait hwaits hbring hc hpage hnow)), ?_, hs, ?_⟩
    · rw [State.allocDone_pool, hleft]
    · rw [howed, State.cell, hcells]
      rfl

end Sys2Proof.Machine
end

section
/-! PROOF. Streams: their start, the release of their items, and the wait for the oldest one (R311, R312, R314). -/

namespace Sys2Proof.Machine

/-! ### What the fetch of an instruction leaves of its cell -/

theorem State.fetched_xfers (s : State) (c cls opc : Nat) : ((s.fetched c cls opc).cell c).xfers = (s.cell c).xfers := by
  have hfetch : ((s.fetchCe c).cell c).xfers = (s.cell c).xfers := by rw [State.fetchCe_cell_self]
  unfold State.fetched
  split
  · obtain ⟨r, t, w, h⟩ := drainStores_cell (s.fetchCe c) c c
    rw [h]; exact hfetch
  · exact hfetch

theorem State.fetched_streams (s : State) (c cls opc : Nat) :
    ((s.fetched c cls opc).cell c).streams = (s.cell c).streams := by
  have hfetch : ((s.fetchCe c).cell c).streams = (s.cell c).streams := by rw [State.fetchCe_cell_self]
  unfold State.fetched
  split
  · obtain ⟨r, t, w, h⟩ := drainStores_cell (s.fetchCe c) c c
    rw [h]; exact hfetch
  · exact hfetch

/-- The store buffer is written out before every pool instruction. -/
theorem State.fetched_transfer (s : State) (c opc : Nat) : s.fetched c 0x07 opc = s.fetched c 0x07 0x00 := rfl

/-- A wait on a transfer that is complete returns its result word. -/
theorem State.waitFor_of_complete {s : State} {c h : Nat} {x : Xfer} (hx : alistGet (s.cell c).xfers h = some x)
    (hfired : x.fired = true) (hdone : x.complete = true) : s.waitFor c h = .ret x.result true s := by
  rw [State.waitFor, State.waitLoop, hx]
  dsimp only
  rw [hfired, if_neg Bool.noConfusion, hdone, if_pos rfl]

theorem exec_plStream_unaligned {s : State} {c : Nat} {o : ROps}
    (hal : alignedOk c ((s.cell c).a o.ax.toNat).toNat 64 true = false) :
    RTraps s c (.plStream c o) o 0x07 0x04 [] excPlAddr := by
  refine rTraps_of (by rfl) ?_
  simp only [fetched_a, hal]
  rfl

section
variable {s u : State} {c a : Nat} {o : ROps} (hu : s.fetched c 0x07 0x04 = u)
  (ha : ((s.cell c).a o.ax.toNat).toNat = a)
include hu ha

theorem exec_plStream_leaves (hal : alignedOk c a 64 true = true)
    (hoff : (State.settleStream c (o.x.toNat % 4) 9 u).streamOn c (o.x.toNat % 4) = false) {r : Stream × State}
    (hr : (State.settleStream c (o.x.toNat % 4) 9 u).readStream c (o.x.toNat % 4) a = r) (hlist : r.1.listOk = true)
    (hring : r.1.ringOk c = true)
    (hitems : (State.settleStream c (o.x.toNat % 4) 9 u).checkItems r.1 (List.range (min r.1.slots r.1.count)) = none) :
    RLeaves s c (.plStream c o) o 0x07 0x04 [] (r.2.startStream c (o.x.toNat % 4) r.1) := by
  subst hu
  refine rLeaves_of (by rfl) ?_
  simp only [fetched_a, ha, hal, hoff, hr, hlist, hring, hitems]
  rfl

theorem exec_plStream_running (hal : alignedOk c a 64 true = true)
    (hon : (State.settleStream c (o.x.toNat % 4) 9 u).streamOn c (o.x.toNat % 4) = true) :
    RTraps s c (.plStream c o) o 0x07 0x04 [] excPlBusy := by
  subst hu
  refine rTraps_of (by rfl) ?_
  simp only [fetched_a, ha, hal, hon]
  rfl

end

section
variable {s u : State} {c : Nat} {o : ROps} (hu : s.fetched c 0x07 0x04 = u)
include hu

theorem exec_plSrelease_leaves (hok : u.checkRelease c (o.x.toNat % 4) = none) :
    RLeaves s c (.plSrelease c o) o 0x07 0x06 [] (u.srelease c (o.x.toNat % 4)) := by
  refine rLeaves_of (by rfl) ?_
  rw [show s.fetched c 0x07 0x06 = u from hu, hok]

theorem exec_plSrelease_traps {e : Nat} (hbad : u.checkRelease c (o.x.toNat % 4) = some e) :
    RTraps s c (.plSrelease c o) o 0x07 0x06 [] e := by
  refine rTraps_of (by rfl) ?_
  rw [show s.fetched c 0x07 0x06 = u from hu, hbad]

theorem exec_plScancel_leaves :
    RLeaves s c (.plScancel c o) o 0x07 0x07 [] (u.cancelStream c (o.x.toNat % 4)) :=
  rLeaves_of (eff := fun t => .done (t.cancelStream c (o.x.toNat % 4))) (by rfl)
    (by rw [show s.fetched c 0x07 0x07 = u from hu])

theorem exec_plAltready_leaves : RLeaves s c (.plAltready c o) o 0x07 0x08 []
    (u.setCell c { u.cell c with altReady := o.x.toNat % 2 == 1 }) := by
  have hbit : o.x.getLsbD 0 = (o.x.toNat % 2 == 1) := by
    rw [BitVec.getLsbD, Nat.testBit_zero]
    exact decide_eq_decide.mpr Iff.rfl
  refine rLeaves_of (eff := fun t => .done (t.setCell c { t.cell c with altReady := o.x.getLsbD 0 })) (by rfl) ?_
  rw [show s.fetched c 0x07 0x08 = u from hu, hbit]

end

theorem exec_plSwait_leaves {s : State} {c : Nat} {o : ROps} {y : Stream} {x : Xfer}
    (hy : alistGet (s.cell c).streams (o.x.toNat % 4) = some y) (hon : y.cancelled = false)
    (hx : alistGet (s.cell c).xfers (y.key (o.x.toNat % 4) y.released) = some x) (hfired : x.fired = true)
    (hdone : x.complete = true) {v : State} (hv : (s.fetched c 0x07 0x05).putStream c (o.x.toNat % 4)
      { y with waited := max y.waited (y.released + 1) } = v) :
    RLeaves s c (.plSwait c o) o 0x07 0x05 [o.sd.toNat] (v.setCell c ((v.cell c).setS o.sd.toNat
      (BitVec.ofNat 64 (x.result + 2 ^ 16 * (y.released % y.slots))))) := by
  rw [← State.fetched_streams s c 0x07 0x05] at hy
  rw [← State.fetched_xfers s c 0x07 0x05] at hx
  refine rLeaves_of (eff := swaitEffect c o) (by rfl) ?_
  rw [swaitEffect, hy]
  dsimp only
  rw [hon, if_neg Bool.noConfusion, State.waitFor_of_complete hx hfired hdone]
  dsimp only
  rw [hy, ← hv]
  rfl

theorem exec_plSwait_none {s : State} {c : Nat} {o : ROps} (hy : alistGet (s.cell c).streams (o.x.toNat % 4) = none) :
    RTraps s c (.plSwait c o) o 0x07 0x05 [o.sd.toNat] excPlBusy := by
  refine rTraps_of (eff := swaitEffect c o) (by rfl) ?_
  rw [swaitEffect, State.fetched_streams, hy]

/-- Settles O14: the checks of each stream instruction, and a wait that finds its item complete. -/
theorem streamsReturnTheirItems : Obligations.StreamsReturnTheirItems := by
  constructor
  · intro s c o k u j a v r
    exact ⟨fun hal hoff => exec_plStream_leaves rfl rfl hal hoff rfl, exec_plStream_unaligned,
      exec_plStream_running rfl rfl, exec_plSrelease_leaves rfl, fun e => exec_plSrelease_traps rfl, exec_plScancel_leaves rfl,
      exec_plAltready_leaves rfl⟩
  · intro s c o k u j
    exact ⟨fun y x hy hon hx hfired hdone => exec_plSwait_leaves hy hon hx hfired hdone rfl, exec_plSwait_none⟩

end Sys2Proof.Machine
end

section
/-! PROOF. What reads of the pool, far requests and messages leave alone: every cell, and scratchpad and pool memory
(R297, R301, R304, R318, R319, R352). -/

namespace Sys2Proof.Machine

namespace Flagged

theorem of_eq {s t : State} (hcells : t.cells = s.cells) (hspad : t.spad = s.spad) (hhbm : t.hbm = s.hbm) : Flagged s t :=
  ⟨hcells, hspad, hhbm⟩

theorem spad {s t : State} (h : Flagged s t) : t.spad = s.spad := by
  obtain ⟨-, hspad, -⟩ := h
  exact hspad

theorem hbm {s t : State} (h : Flagged s t) : t.hbm = s.hbm := by
  obtain ⟨-, -, hhbm⟩ := h
  exact hhbm

theorem of_pair {α : Type} {s t : State} {q : α × State} {x : α} (hq : Flagged s q.2) (h : q = (x, t)) : Flagged s t := by
  rwa [h] at hq

/-! ### Reads of pages and descriptors -/

theorem setDir (s : State) (p : Nat) (e : DirEntry) : Flagged s (s.setDir p e) := ⟨rfl, rfl, rfl⟩

theorem reportLim (s : State) (code source unit data : Nat) : Flagged s (s.reportLim code source unit data) :=
  of_reported (.reportLim ..)

theorem hbmCorrect (s : State) (i : Nat) : Flagged s (s.hbmCorrect i) := by
  unfold State.hbmCorrect
  dsimp only
  split
  · exact .trans (of_eq rfl rfl rfl) (reportLim ..)
  · exact of_eq rfl rfl rfl

theorem loseShard (s : State) (n p : Nat) : Flagged s (s.loseShard n p) := by
  unfold State.loseShard
  split
  · exact (setDir ..).trans (report ..)
  · exact refl s

theorem hbmUe (scrub : Bool) (committed : Option Nat) (s : State) (i : Nat) : Flagged s (s.hbmUe scrub committed i) := by
  unfold State.hbmUe
  extract_lets f n flag s1 s2
  have hread : Flagged s s2 := ((setReg ..).trans (report ..)).trans (.ite (raiseFlag ..) (refl s1))
  split
  · exact hread.trans (.ite (.trans (.ite (refl s2) (.ite (refl s2) (raiseFlag ..))) (loseShard ..)) (refl s2))
  · exact hread

theorem pageTouch (s : State) (fly : Bool) (p : Nat) (e : DirEntry) (off n : Nat) :
    Flagged s (s.pageTouch fly p e off n) :=
  .ite (refl s) ((foldl hbmCorrect ..).trans (foldl (fun t _ => hbmUe false _ t _) ..))

theorem usePage (s : State) (p : Nat) : Flagged s (s.usePage p) := by
  unfold State.usePage
  split
  · exact setDir ..
  · exact refl s

/-- A page that is read: its word errors, its LOST mark and its time of use. -/
theorem pageRead (s : State) (fly : Bool) (p : Nat) (e : DirEntry) (off n : Nat) :
    Flagged s (((s.pageTouch fly p e off n).lostTouch e).usePage p) :=
  ((pageTouch ..).trans (.ite (raiseFlag ..) (refl _))).trans (usePage ..)

theorem poolTouch (s : State) (a n : Nat) : Flagged s (s.poolTouch a n) := by
  refine foldl (fun t p => ?_) ..
  split
  · exact pageRead ..
  · exact refl t

theorem unitRead (s : State) (code : Nat) (fly : Bool) (a n : Nat) : Flagged s (s.unitRead code fly a n).2 := by
  unfold State.unitRead
  dsimp only
  split
  · split
    · exact pageRead ..
    · exact .ite (refl s) (reportLim ..)
  · exact reportLim ..

theorem readLayer (s : State) (code source l : Nat) : Flagged s (s.readLayer code source l).2 := by
  have hwords : Flagged s (s.unitWords code (s.layerAddr l)).2 := unitRead ..
  unfold State.readLayer
  split
  · exact reportLim ..
  · split
    · next h => exact (hwords.of_pair h).trans (reportLim ..)
    · next h => exact (hwords.of_pair h).trans ((of_reported (.clampRead ..)).trans (.ite (reportLim ..) (refl _)))

theorem xferFault (s : State) (code p : Nat) : Flagged s (s.xferFault code p) := reportLim ..

/-! ### Far requests and bring-ups -/

theorem farReadFailed (s : State) (o : FarOwner) (region reason cell : Nat) :
    Flagged s (s.farReadFailed o region reason cell) :=
  have hcount := (setReg s Reg.farFails _).trans (report ..)
  .ite (hcount.trans (raiseFlag ..)) hcount

theorem farRead (s : State) (o : FarOwner) (a len cell : Nat) : Flagged s (s.farRead o a len cell) :=
  .ite (of_eq rfl rfl rfl) (.trans (t := s.addFar false o 0 len (some (5, []))) (of_eq rfl rfl rfl) (farReadFailed ..))

theorem takeFrame {s u : State} {n f : Nat} {v : FrameUse} (h : s.takeFrame n v = some (f, u)) : Flagged s u := by
  obtain ⟨-, -, free, on, rfl⟩ := State.takeFrame_eq_some h
  exact of_eq rfl rfl rfl

theorem bringupRead (s : State) (b : Bringup) : Flagged s (s.bringupRead b) := by
  unfold State.bringupRead
  split
  · exact refl s
  · split
    · exact refl s
    · next h => exact ((takeFrame h).trans ((farRead ..).trans (of_reported (.quotaCheck ..)))).trans (of_eq rfl rfl rfl)

theorem startBringup (s : State) (p cell : Nat) : Flagged s (s.startBringup p cell) := by
  unfold State.startBringup
  split
  · exact refl s
  · exact .ite (refl s) (.ite (of_eq rfl rfl rfl) (.trans (of_eq rfl rfl rfl) (bringupRead ..)))

theorem bringAll (s : State) (ps : List Nat) (cell : Nat) : Flagged s (s.bringAll ps cell) :=
  foldl (fun t p => startBringup t p cell) ..

/-! ### Messages -/

theorem giveBack (s : State) (m : Msg) (n : Nat) : Flagged s (s.giveBack m n) := by
  unfold State.giveBack
  split
  · exact refl s
  · exact of_eq rfl rfl rfl

theorem sendFlits (s : State) (p : Nat) (x : Queued) (n : Nat) : Flagged s (s.sendFlits p x n) := by
  have hspent : ∀ q k, Flagged s (((s.setPort p q).bumpUnits (Reg.fabPortTxFlits p) k).giveBack x.msg n) := fun q k =>
    .trans (of_eq rfl rfl rfl) (giveBack ..)
  exact .ite ((hspent _ _).trans (of_eq rfl rfl rfl)) (hspent _ _)

theorem pumpPort (p : Nat) : ∀ (n : Nat) (s : State), Flagged s (State.pumpPort p n s)
  | 0, s => refl s
  | n + 1, s => by
    unfold State.pumpPort
    dsimp only
    split
    · exact refl s
    · split
      · exact refl s
      · split
        · exact refl s
        · exact (sendFlits ..).trans (pumpPort p n _)

theorem enqueue (s : State) (p pool : Nat) (m : Msg) : Flagged s (s.enqueue p pool m) :=
  .trans (of_eq rfl rfl rfl) (pumpPort ..)

theorem deliver (s : State) (m : Msg) : Flagged s (s.deliver m) :=
  (giveBack s m m.flits).trans (.ite (setReg ..) (.ite (setReg ..) (of_eq rfl rfl rfl)))

/-- A message that is dropped. -/
theorem drop (s : State) (m : Msg) (off code source data : Nat) :
    Flagged s (((s.giveBack m m.flits).bump off).reportLim code source unitMgmt data) :=
  ((giveBack ..).trans (setReg ..)).trans (reportLim ..)

theorem routeBy (s : State) (arr : Option Nat) (m : Msg) (e : Nat) : Flagged s (s.routeBy arr m e) := by
  unfold State.routeBy
  dsimp only
  split
  · exact .ite (enqueue ..) (enqueue ..)
  · split
    · exact (enqueue ..).trans (setReg ..)
    · exact drop ..

theorem issueMsg (s : State) (h : Hdr) (payload : List Byte) (vl : Nat) (ar : Bool) :
    Flagged s (s.issueMsg h payload vl ar) :=
  .ite (.ite (deliver ..) (.ite (drop ..) (.ite (drop ..) (routeBy ..)))) (refl s)

theorem startTxn (s : State) (tag : Nat) (owner : TxnOwner) (h : Hdr) (vl : Nat) : Flagged s (s.startTxn tag owner h vl) :=
  .trans (of_eq rfl rfl rfl) (issueMsg ..)

end Flagged

end Sys2Proof.Machine
end

section
/-! PROOF. The end of raw pool transfers and of gathers (R295, R307, R309, R357). -/

namespace Sys2Proof.Machine

theorem State.spadWrite_fab (s : State) (a : Nat) (bs : List Byte) : (s.spadWrite a bs).fab = s.fab := by
  show (s.raceWrite a bs.length).fab = s.fab
  rw [State.raceWrite_eq]

theorem Reported.fab {s t : State} (h : Reported s t) : t.fab = s.fab := by
  obtain ⟨_, _, _, _, _, _, _, rfl⟩ := h
  rfl

theorem State.raiseFlag_fab (s : State) (f : BitVec 4) (e : W32) : (s.raiseFlag f e).fab = s.fab := by
  obtain ⟨k, hflag⟩ | hflag := FlagPlaced.raiseFlag s f e <;> rw [hflag]
  rfl

/-! ### A transfer stored, done or failed -/

section
variable (s : State) (c h : Nat) (x : Xfer)

theorem State.putXfer_get : alistGet ((s.putXfer c h x).cell c).xfers h = some x := by
  rw [State.putXfer, State.cell_setCell, if_pos rfl]
  exact alistGet_tabPut_self ..

theorem State.doneXfer_get : alistGet ((s.doneXfer c h x).cell c).xfers h = some { x with complete := true } :=
  State.putXfer_get ..

variable {s c h x} (hx : alistGet (s.cell c).xfers h = some x) (reason : Nat)
include hx

theorem State.failXfer_of_get : s.failXfer c h reason
    = (s.putXfer c h { x with complete := true, failed := true, reason := reason }).bump (Reg.cellXferFail c) := by
  rw [State.failXfer, hx]
  rfl

theorem State.failXfer_get : alistGet ((s.failXfer c h reason).cell c).xfers h
    = some { x with complete := true, failed := true, reason := reason } := by
  rw [State.failXfer_of_get hx]
  exact State.putXfer_get ..

end

/-- A failed transfer leaves both memories and the fabric. -/
theorem State.failXfer_leaves (s : State) (c h reason : Nat) : (s.failXfer c h reason).spad = s.spad
    ∧ (s.failXfer c h reason).hbm = s.hbm ∧ (s.failXfer c h reason).fab = s.fab := by
  unfold State.failXfer
  dsimp only
  split <;> exact ⟨rfl, rfl, rfl⟩

/-- Only the items of a stream settle it. -/
theorem State.settleKey_of_handle (s : State) (c : Nat) {h : Nat} (hh : h < 64) : s.settleKey c h = s := if_pos hh

/-! ### Raw pool transfers -/

/-- A transfer word of KIND raw and no FAR bit. -/
theorem xferKindOf_of_raw {w : W64} (h : w.toNat % 8 = 2) : xferKindOf w = 2 ∧ xferFar w = false := by
  constructor
  · simp only [xferKindOf, field]
    omega
  · rw [xferFar, BitVec.getLsbD, Nat.testBit_eq_decide_div_mod_eq]
    exact decide_eq_false (by omega)

section
variable {s : State} {c h : Nat} {x : Xfer} (hraw : x.word.toNat % 8 = 2)
include hraw

theorem exec_xferComplete_raw (hc : c < 512) (hh : h < 64) (hworks : s.works = true)
    (hx : alistGet (s.cell c).xfers h = some x) (hfired : x.fired = true) (hopen : x.complete = false)
    (hkind : x.kind = .get ∨ x.kind = .put) (hord : (s.cell c).ordered x = false) (st : Nat) :
    exec (.xferComplete c h st) s = .next (s.overPages c h (.xferComplete c h st) (pagesOf x.addr.toNat (64 * x.cap))
      (fun u => u.movePool c h x (64 * x.cap))) := by
  obtain ⟨hkindOf, hfar⟩ := xferKindOf_of_raw hraw
  have hgather : (x.kind != .gather) = true := by rcases hkind with hk | hk <;> rw [hk] <;> rfl
  have hend : s.endPool c h (.xferComplete c h st) x = s.overPages c h (.xferComplete c h st)
      (pagesOf x.addr.toNat (64 * x.cap)) (fun u => u.movePool c h x (64 * x.cap)) := by
    have hlen : s.poolLen x = some (64 * x.cap) := if_pos hkindOf
    rw [State.endPool, if_pos (.inl hkindOf)]
    dsimp only
    rw [hlen]
  show execXferComplete c h st s = _
  rw [execXferComplete, decide_eq_true hc, onUnit_true, hx]
  dsimp only
  rw [hworks, hfired, hopen, hgather, hfar, hord, hend, if_neg Bool.false_ne_true, if_neg Bool.false_ne_true,
    State.settleKey_of_handle _ _ hh]
  rfl

theorem State.movePool_get (hkind : x.kind = .get) : s.movePool c h x (64 * x.cap)
    = ((s.poolTouch x.addr.toNat (64 * x.cap)).spadWrite x.spad (s.poolRaw x.addr.toNat (64 * x.cap))).doneXfer c h x := by
  obtain ⟨hkindOf, -⟩ := xferKindOf_of_raw hraw
  rw [State.movePool, if_neg (by rw [hkind]; decide), State.landGet, if_neg (fun hobj => hobj.1 hkindOf)]

theorem State.movePool_put (hkind : x.kind = .put) : s.movePool c h x (64 * x.cap)
    = ((s.spadTouch x.spad (64 * x.cap)).poolWrite x.addr.toNat (memBytes s.spad x.spad (64 * x.cap))).doneXfer c h x := by
  obtain ⟨hkindOf, -⟩ := xferKindOf_of_raw hraw
  rw [State.movePool, if_pos hkind, State.putRead, if_pos hkindOf]
  rfl

end

section
variable {s : State} {c h : Nat} {i : Instr} {ps : List Nat}

theorem State.overPages_of_here (hok : ∀ p ∈ ps, s.pageOk p = true) (hnear : s.farAmong ps = []) (act : State → State) :
    s.overPages c h i ps act = act s := by
  rw [State.overPages, find?_not_of_forall hok, hnear]
  rfl

theorem State.overPages_of_not_served {p : Nat} (hbad : ps.find? (fun q => !s.pageOk q) = some p) (act : State → State) :
    s.overPages c h i ps act = ((s.raiseFlag 8 s.epoch).xferFault c p).failXfer c h 1 := by
  rw [State.overPages, hbad]
  rfl

end

@[simp] theorem State.poolRaw_length (s : State) (a n : Nat) : (s.poolRaw a n).length = n := by simp [State.poolRaw]

/-! ### Gather responses -/

/-- The report of a reserved format leaves pool memory and the fabric. -/
theorem State.cellReserved_leaves (s : State) (c code layer : Nat) (e : W32) :
    (s.cellReserved c code layer (some e)).hbm = s.hbm ∧ (s.cellReserved c code layer (some e)).fab = s.fab := by
  unfold State.cellReserved
  dsimp only
  rw [(Flagged.raiseFlag ..).hbm, State.raiseFlag_fab, (Reported.reportLim ..).hbm, (Reported.reportLim ..).fab,
    State.bumpFld_hbm, State.bumpFld_fab, State.setFld_hbm, State.setFld_fab]
  exact ⟨rfl, rfl⟩

theorem State.reservedObj_leaves (s : State) (c : Nat) (d : Hdr) :
    (s.reservedObj c d).hbm = s.hbm ∧ (s.reservedObj c d).fab = s.fab := by
  unfold State.reservedObj
  split
  · exact State.cellReserved_leaves ..
  · exact ⟨rfl, rfl⟩

/-- A gathered object lands in scratchpad, or its transfer fails: pool memory and the fabric stay. -/
theorem State.gatherLands_leaves (s : State) (c h : Nat) (x : Xfer) (d : Hdr) (payload : List Byte) :
    (s.gatherLands c h x d payload).hbm = s.hbm ∧ (s.gatherLands c h x d payload).fab = s.fab := by
  have hreserved := s.reservedObj_leaves c d
  have hfail : ∀ t : State, t.hbm = s.hbm ∧ t.fab = s.fab → (t.failXfer c h 6).hbm = s.hbm ∧ (t.failXfer c h 6).fab = s.fab := by
    rintro t ⟨hhbm, hfab⟩
    obtain ⟨-, fhbm, ffab⟩ := t.failXfer_leaves c h 6
    exact ⟨fhbm.trans hhbm, ffab.trans hfab⟩
  unfold State.gatherLands
  dsimp only
  split
  · exact ⟨spadWrite_hbm .., State.spadWrite_fab ..⟩
  · split
    · exact hfail _ hreserved
    · split
      · exact hfail _ ⟨rfl, rfl⟩
      · exact ⟨(spadWrite_hbm ..).trans (spadWrite_hbm ..), (State.spadWrite_fab ..).trans (State.spadWrite_fab ..)⟩

theorem State.gatherLands_fits (s : State) (c h : Nat) (x : Xfer) {d : Hdr} (payload : List Byte)
    (hflag : hdrFlag d 4 = false) (hfmt : d.fmt.toNat ≤ 8) (hfit : max 64 d.len.toNat ≤ 64 * x.cap) :
    alistGet ((s.gatherLands c h x d payload).cell c).xfers h = some { x with fmt := d.fmt.toNat, complete := true } := by
  have hreserved : ¬fmtReserved d.fmt.toNat = true := by
    rw [fmtReserved, decide_eq_true_eq]
    omega
  rw [State.gatherLands, if_neg (by rw [hflag]; decide), if_neg hreserved, if_neg (by omega)]
  exact State.doneXfer_get ..

theorem State.gatherLands_stale (s : State) (c h : Nat) (x : Xfer) {d : Hdr} (payload : List Byte)
    (hflag : hdrFlag d 4 = true) : alistGet ((s.gatherLands c h x d payload).cell c).xfers h
      = some { x with fmt := d.fmt.toNat, stale := true, complete := true } := by
  rw [State.gatherLands, if_pos hflag]
  exact State.doneXfer_get ..

section
variable {s : State} {d : Hdr} (hup : s.up = true) (htrip : s.tripped = false)
include hup htrip

theorem exec_gatherResp_unknown (hnone : s.txnOf d = none) (bs : List Byte) :
    exec (.gatherResp d bs) s = .next ((s.unstamp d).bump Reg.fabLateResp) := by
  show execGatherResp d bs s = _
  rw [execGatherResp, hup, whenOk_true, htrip, if_neg Bool.false_ne_true]
  dsimp only
  rw [show (s.unstamp d).txnOf d = none from hnone]

theorem exec_gatherResp_answers {m : Txn} (hm : s.txnOf d = some m) (bs : List Byte) :
    exec (.gatherResp d bs) s = .next (((s.unstamp d).endTxn m.tag).respFor (s.stampOf d) m d bs) := by
  show execGatherResp d bs s = _
  rw [execGatherResp, hup, whenOk_true, htrip, if_neg Bool.false_ne_true]
  dsimp only
  rw [show (s.unstamp d).txnOf d = some m from hm]

end

/-- A response in time for a transfer of a cell lands for it. -/
theorem State.respFor_lands {s : State} {m : Txn} {c j : Nat} {x : Xfer} (howner : m.owner = .xfer c j) (hj : j < 64)
    (hx : alistGet (s.cell c).xfers j = some x) (htag : x.tag = some m.tag) (hopen : x.complete = false) (at_ : Nat) (d : Hdr)
    (bs : List Byte) : s.respFor at_ m d bs = s.gatherLands c j x d bs := by
  rw [State.respFor, howner]
  dsimp only
  rw [hx]
  dsimp only
  rw [if_pos ⟨htag, hopen⟩, State.settleKey_of_handle _ _ hj]

/-- Settles O13: a raw transfer by its pages and its direction, a gather response by its transaction and its header. -/
theorem transfersMoveTheirBytes : Obligations.TransfersMoveTheirBytes := by
  refine ⟨?_, ?_, ?_⟩
  · intro s c h st x k a n hc hh hworks hx hfired hopen hkind hraw hord hok hnear
    have htouch : Flagged s (s.poolTouch a n) := .poolTouch ..
    have hlen : (s.poolRaw a n).length = n := State.poolRaw_length ..
    refine ⟨_, exec_xferComplete_raw hraw hc hh hworks hx hfired hopen (.inl hkind) hord st, ?_⟩
    rw [State.overPages_of_here hok hnear, State.movePool_get hraw hkind]
    refine ⟨fun j hj => spadWrite_inside _ _ j _ (by rwa [State.poolRaw_length]), fun y hy hclosed => ?_,
      (spadWrite_hbm ..).trans htouch.hbm, State.doneXfer_get ..⟩
    rw [← htouch.spad]
    exact spadWrite_other (s.poolTouch a n) x.spad (s.poolRaw a n) y (by rwa [hlen]) (mt htouch.openByte.mp hclosed)
  · intro s c h st x k a n hc hh hworks hx hfired hopen hraw hord
    refine ⟨fun hkind hok hnear => ?_, fun p hkind hbad => ?_⟩
    · rw [exec_xferComplete_raw hraw hc hh hworks hx hfired hopen (.inr hkind) hord st,
        State.overPages_of_here hok hnear, State.movePool_put hraw hkind]
    · have hfault : Flagged s ((s.raiseFlag 8 s.epoch).xferFault c p) := (Flagged.raiseFlag ..).trans (.xferFault ..)
      obtain ⟨hspad, hhbm, -⟩ := ((s.raiseFlag 8 s.epoch).xferFault c p).failXfer_leaves c h 1
      refine ⟨_, exec_xferComplete_raw hraw hc hh hworks hx hfired hopen hkind hord st, ?_⟩
      rw [State.overPages_of_not_served hbad]
      exact ⟨⟨fun y => by rw [hspad, hfault.spad], fun y => by rw [hhbm, hfault.hbm]⟩, rfl,
        State.failXfer_get (by rwa [hfault.cell]) 1⟩
  · intro s d bs hup htrip
    refine ⟨fun hnone => exec_gatherResp_unknown hup htrip hnone bs,
      fun m hm => exec_gatherResp_answers hup htrip hm bs, fun m c j x hm howner hj hx htag hopen => ?_⟩
    obtain ⟨hhbm, hfab⟩ := ((s.unstamp d).endTxn m.tag).gatherLands_leaves c j x d bs
    refine ⟨_, exec_gatherResp_answers hup htrip hm bs, ?_⟩
    rw [State.respFor_lands (s := (s.unstamp d).endTxn m.tag) howner hj hx htag hopen]
    refine ⟨fun y hy => ?_, hhbm, State.gatherLands_fits _ c j x bs, State.gatherLands_stale _ c j x bs⟩
    rw [hfab] at hy
    obtain ⟨-, hne⟩ := List.mem_filter.mp hy
    exact bne_iff_ne.mp hne

end Sys2Proof.Machine
end

section
/-! PROOF. Transfers issued: the handle taken and the transfer that is held under it (R301, R306, R307, R309). -/

namespace Sys2Proof.Machine

namespace Flagged

theorem putRead (s : State) (x : Xfer) : Flagged s (s.putRead x).2 := by
  unfold State.putRead
  dsimp only
  split
  · exact spadTouch ..
  · split
    · exact spadTouch ..
    · split
      · exact spadTouch ..
      · split
        · exact spadTouch ..
        · exact (spadTouch ..).trans (spadTouch ..)

theorem sendWrites (s : State) (id a : Nat) (bs : List Byte) : Flagged s (s.sendWrites id a bs) := by
  refine foldl (fun t p => ?_) ..
  exact of_eq rfl rfl rfl

theorem farWriteFailed (s : State) (o : FarOwner) (region reason : Nat) : Flagged s (s.farWriteFailed o region reason) :=
  of_reported ((Reported.bump ..).trans (.report ..))

theorem xferFarRead (s : State) (c h a n : Nat) : Flagged s (s.xferFarRead c h a n) :=
  .ite (of_eq rfl rfl rfl) (farRead ..)

theorem xferFarWrite (s : State) (c h : Nat) (x : Xfer) : Flagged s (s.xferFarWrite c h x) := by
  have hread := putRead s x
  unfold State.xferFarWrite
  split
  · next hp => exact (hread.of_pair hp).trans (of_eq rfl rfl rfl)
  · next hp =>
    refine (hread.of_pair hp).trans (.ite (of_eq rfl rfl rfl) ?_)
    split
    · exact .trans (of_eq rfl rfl rfl) (sendWrites ..)
    · exact .trans (of_eq rfl rfl rfl) (farWriteFailed ..)

theorem beginXfer (s : State) (c h : Nat) (x : Xfer) : Flagged s (s.beginXfer c h x) :=
  .ite (.ite (xferFarWrite ..) (xferFarRead ..)) (bringAll ..)

end Flagged

/-! ### The transfer held -/

/-- A transfer just begun, with its kind, its address, its place in scratchpad and its epoch. -/
def Xfer.Begun (x : Xfer) (kind : XferKind) (addr : W64) (dst : Nat) (e : W32) : Prop :=
  x.kind = kind ∧ x.addr = addr ∧ x.spad = dst ∧ x.complete = false ∧ x.epoch = e

/-- A cell holds a transfer just begun under a handle. -/
def State.HoldsBegun (s : State) (c h : Nat) (kind : XferKind) (addr : W64) (dst : Nat) (e : W32) : Prop :=
  ∃ x, alistGet (s.cell c).xfers h = some x ∧ x.Begun kind addr dst e

theorem State.issueXfer_get (s : State) (c h : Nat) (x : Xfer) :
    alistGet ((s.issueXfer c h x).cell c).xfers h = some { x with seq := (s.cell c).xferSeq } := by
  rw [State.issueXfer, State.cell_setCell, if_pos rfl]
  exact alistGet_tabPut_self ..

theorem State.startPool_holds (s : State) (c h : Nat) (put : Bool) (a w : W64) (dst : Nat) :
    (s.startPool c h put a w dst).HoldsBegun c h (if put then .put else .get) a dst s.epoch := by
  have hget := s.issueXfer_get c h (s.newXfer put a w dst)
  exact ⟨_, by rwa [State.startPool, (Flagged.beginXfer ..).cell], rfl, rfl, rfl, rfl, rfl⟩

theorem State.startGather_holds (s : State) (c h tag : Nat) (req owner dl : W64) (dst : Nat) :
    (s.startGather c h tag req owner dl dst).HoldsBegun c h .gather owner dst s.epoch :=
  ⟨_, (congrArg (fun k : Cell => alistGet k.xfers h) ((Flagged.startTxn ..).cell c)).trans (State.issueXfer_get ..),
    rfl, rfl, rfl, rfl, rfl⟩

/-! ### The handle taken -/

theorem State.takeHandle_of_full {s : State} {c : Nat} (h : (s.cell c).freeHandles = []) : s.takeHandle c = none := by
  rw [State.takeHandle, h]
  rfl

theorem State.takeHandle_of_free {s : State} {c : Nat} (h : (s.cell c).freeHandles ≠ []) :
    ∃ j ∈ (s.cell c).freeHandles, s.takeHandle c = some (j, s.drawNat.2) := by
  have hlt : s.drawNat.1 % (s.cell c).freeHandles.length < (s.cell c).freeHandles.length :=
    Nat.mod_lt _ (List.length_pos_iff.mpr h)
  refine ⟨_, List.getElem_mem hlt, ?_⟩
  rw [State.takeHandle]
  dsimp only
  rw [if_neg (mt List.isEmpty_iff.mp h), List.getD_eq_getElem _ _ hlt]

/-- What a transfer instruction that takes a handle comes to, in the words of the statement: the handle is in SD, and the
transfer is held under it. -/
def State.Takes (s u : State) (c : Nat) (i : Instr) (sd : Nat) (kind : XferKind) (addr : W64) (dst : Nat) : Prop :=
  ∃ (h : Nat) (t : State) (x : Xfer), exec i s = .next (t.goesOn c (s.cell c).pc) ∧ h ∈ (u.cell c).freeHandles
    ∧ (sd ≠ 0 → (t.cell c).s sd = BitVec.ofNat 64 h) ∧ alistGet (t.cell c).xfers h = some x ∧ x.kind = kind ∧ x.addr = addr
    ∧ x.spad = dst ∧ x.complete = false ∧ x.epoch = s.epoch

/-- An effect that takes a handle in a state `v` with the cells of the fetched one, and begins a transfer under it. -/
theorem takes_of_withHandle {s u v : State} {c : Nat} {i : Instr} {o : ROps} {opc : Nat} {uses : List Nat} {eff : State → Eff}
    {act : Nat → State → State} {kind : XferKind} {addr : W64} {dst : Nat}
    (hx : exec i s = coreR c i o 0x07 opc uses eff s) (hu : s.fetched c 0x07 0x00 = u)
    (hfree : (u.cell c).freeHandles ≠ []) (hv : v.cell c = u.cell c)
    (he : ∀ t, v.withHandle c o.sd.toNat act = .done t → eff u = .done t)
    (hact : ∀ h, (act h v.drawNat.2).HoldsBegun c h kind addr dst s.epoch) (hiss : Issues s c i o.gneg o.gp uses)
    (hleg : rLegal 0x07 opc o = true) (hpc : (s.cell c).pc.toNat < 4095) : s.Takes u c i o.sd.toNat kind addr dst := by
  obtain ⟨h, hmem, htake⟩ := State.takeHandle_of_free (s := v) (c := c) (by rwa [hv])
  obtain ⟨x, hget, hkind, haddr, hspad, hopen, hepoch⟩ := hact h
  have hdone := he _ (by rw [State.withHandle, htake])
  refine ⟨h, _, x, rLeaves_of hx (by rw [State.fetched_transfer, hu, hdone]) hiss hleg hpc, hv ▸ hmem, fun hsd => ?_, ?_, hkind, haddr, hspad, hopen, hepoch⟩
  · rw [State.cell_setCell, if_pos rfl, Cell.s_setS, if_pos ⟨rfl, hsd⟩]
  · rw [State.cell_setCell, if_pos rfl, ← hget]
    unfold Cell.setS
    split <;> rfl

/-! ### PL.GET and PL.PUT -/

section
variable {s : State} {c opc : Nat} {o : ROps} {i : Instr} {uses : List Nat} {put : Bool}
  (hx : exec i s = coreR c i o 0x07 opc uses (poolEffect put c o) s)
include hx

theorem poolEffect_takes
    (hok : checkPool put c ((s.cell c).s o.sa.toNat) ((s.cell c).s o.sb.toNat) ((s.cell c).a o.ax.toNat).toNat = none)
    (hiss : Issues s c i o.gneg o.gp uses) (hleg : rLegal 0x07 opc o = true) (hpc : (s.cell c).pc.toNat < 4095)
    (hfree : ((s.fetched c 0x07 0x00).cell c).freeHandles ≠ []) :
    s.Takes (s.fetched c 0x07 0x00) c i o.sd.toNat (if put then .put else .get) ((s.cell c).s o.sa.toNat)
      ((s.cell c).a o.ax.toNat).toNat := by
  refine takes_of_withHandle hx rfl hfree rfl (fun t ht => ?_) (fun h => ?_) hiss hleg hpc
    (act := fun h u => u.startPool c h put ((s.cell c).s o.sa.toNat) ((s.cell c).s o.sb.toNat)
      ((s.cell c).a o.ax.toNat).toNat)
  · rw [poolEffect, fetched_s, fetched_s, fetched_a, hok]
    exact ht
  · rw [← State.fetched_epoch s c 0x07 0x00]
    exact State.startPool_holds ..

theorem poolEffect_traps {e : Nat} (hbad : checkPool put c ((s.cell c).s o.sa.toNat) ((s.cell c).s o.sb.toNat)
    ((s.cell c).a o.ax.toNat).toNat = some e) : RTraps s c i o 0x07 opc uses e := by
  refine rTraps_of hx ?_
  rw [poolEffect, fetched_s, fetched_s, fetched_a, hbad]

theorem poolEffect_stalls (hfull : ((s.fetched c 0x07 0x00).cell c).freeHandles = [])
    (hok : checkPool put c ((s.cell c).s o.sa.toNat) ((s.cell c).s o.sb.toNat) ((s.cell c).a o.ax.toNat).toNat = none) :
    RStalls s c i o 0x07 opc uses := by
  refine rStalls_of hx ?_
  rw [poolEffect, fetched_s, fetched_s, fetched_a, hok]
  dsimp only
  rw [State.withHandle, State.fetched_transfer, State.takeHandle_of_full hfull]

end

/-! ### PL.GATHER -/

section
variable {s u : State} {c : Nat} {o : ROps} (hu : s.fetched c 0x07 0x00 = u)
include hu

theorem exec_plGather_takes {tag : Nat}
    (hok : checkGather c ((s.cell c).s o.sb.toNat) ((s.cell c).a o.ax.toNat).toNat = none) (htag : u.nextTag = some tag)
    (hnear : u.farNeed (.core c) (u.gatherReads ((s.cell c).s o.sa.toNat)) = [])
    (hiss : Issues s c (.plGather c o) o.gneg o.gp [o.sd.toNat, o.sa.toNat, o.sb.toNat, o.sc.toNat])
    (hleg : rLegal 0x07 0x02 o = true) (hpc : (s.cell c).pc.toNat < 4095) (hfree : (u.cell c).freeHandles ≠ []) :
    s.Takes u c (.plGather c o) o.sd.toNat .gather ((s.cell c).s o.sb.toNat) ((s.cell c).a o.ax.toNat).toNat := by
  have hgo := State.goOn_eq u (.core c)
  refine takes_of_withHandle (v := u.goOn (.core c)) (by rfl) hu hfree (by rw [hgo]; rfl) (fun t ht => ?_) (fun h => ?_)
    hiss hleg hpc (act := fun h v => v.startGather c h tag ((s.cell c).s o.sa.toNat) ((s.cell c).s o.sb.toNat)
      ((s.cell c).s o.sc.toNat) ((s.cell c).a o.ax.toNat).toNat)
  · subst hu
    simp only [fetched_s, fetched_a, hok, htag]
    rw [if_neg (mt List.isEmpty_iff.mp hfree), State.pagesFirst_of_here hnear, ht]
    rfl
  · have hepoch : (u.goOn (.core c)).drawNat.2.epoch = s.epoch := by
      rw [hgo, ← State.fetched_epoch s c 0x07 0x00, hu]
      rfl
    rw [← hepoch]
    exact State.startGather_holds ..

end

theorem exec_plGather_traps {s : State} {c : Nat} {o : ROps} {e : Nat}
    (hbad : checkGather c ((s.cell c).s o.sb.toNat) ((s.cell c).a o.ax.toNat).toNat = some e) :
    RTraps s c (.plGather c o) o 0x07 0x02 [o.sd.toNat, o.sa.toNat, o.sb.toNat, o.sc.toNat] e := by
  refine rTraps_of (by rfl) ?_
  simp only [fetched_s, fetched_a, hbad]

end Sys2Proof.Machine
end

section
/-! PROOF. Waits for transfers: PL.WAIT, and the deadline that a stalled core waits over (R51, R313, R314). -/

namespace Sys2Proof.Machine

/-! ### What the fetch of an instruction leaves of the fabric -/

theorem State.spadWrites_fab (l : List StoreEntry) (s : State) :
    (l.foldl (fun t e => t.spadWrite e.addr e.bytes) s).fab = s.fab := by
  induction l generalizing s with
  | nil => rfl
  | cons e l ih => exact (ih _).trans (State.spadWrite_fab ..)

theorem State.fetched_fab (s : State) (c cls opc : Nat) : (s.fetched c cls opc).fab = s.fab := by
  have hfetch : (s.fetchCe c).fab = s.fab := by rw [State.fetchCe_eq]
  unfold State.fetched State.drainStores
  dsimp only
  split
  · split
    · exact hfetch
    · exact (State.spadWrites_fab ..).trans hfetch
  · exact hfetch

theorem State.onTime_of_fab {s t : State} (h : t.fab = s.fab) (x : Xfer) : t.onTime x = s.onTime x := by
  unfold State.onTime State.txnOf
  rw [h]

/-! ### PL.WAIT -/

/-- An effect that goes on waiting in the state it was given stalls its core. -/
theorem rStalls_of_wait {s : State} {c : Nat} {i : Instr} {o : ROps} {cls opc : Nat} {uses : List Nat} {eff : State → Eff}
    (hx : exec i s = coreR c i o cls opc uses eff s) (he : eff (s.fetched c cls opc) = .wait (s.fetched c cls opc)) :
    RStalls s c i o cls opc uses := by
  intro h hl
  rw [coreR_issues hx h hl, he]
  rfl

/-- A wait on a transfer that is under way and not past its deadline goes on. -/
theorem State.waitFor_of_early {s : State} {c h : Nat} {x : Xfer} (hx : alistGet (s.cell c).xfers h = some x)
    (hopen : x.complete = false) (hearly : x.dlEn = false ∨ (s.pitch : Int) < x.deadline ∨ s.onTime x = true) :
    s.waitFor c h = .stay s := by
  rw [State.waitFor, State.waitLoop, hx]
  dsimp only
  rw [hopen, if_neg Bool.false_ne_true, if_pos hearly, ite_self]

section
variable {s : State} {c : Nat} {o : ROps}

theorem exec_plWait_traps (h : 64 ≤ ((s.cell c).s o.sa.toNat).toNat
    ∨ alistGet (s.cell c).xfers ((s.cell c).s o.sa.toNat).toNat = none) :
    RTraps s c (.plWait c o) o 0x07 0x03 [o.sd.toNat, o.sa.toNat] excPlHandle := by
  refine rTraps_of (eff := waitEffect c o) (by rfl) ?_
  rw [waitEffect, fetched_s, State.fetched_xfers]
  exact if_pos (h.imp_right fun hnone => by rw [hnone]; rfl)

variable {x : Xfer} (hlt : ((s.cell c).s o.sa.toNat).toNat < 64)
  (hx : alistGet (s.cell c).xfers ((s.cell c).s o.sa.toNat).toNat = some x)
include hlt hx

/-- PL.WAIT on a handle in use goes on where the wait does. -/
theorem waitEffect_of_stay {u : State} (hwait : s.waitFor c ((s.cell c).s o.sa.toNat).toNat = .stay u) :
    waitEffect c o s = .wait u := by
  rw [waitEffect]
  dsimp only
  rw [if_neg (by rw [hx]; simpa using hlt), hwait]

/-- One whose wait returns with the transfer complete writes the result word and frees the handle. -/
theorem waitEffect_of_done {u : State} {w : Nat}
    (hwait : s.waitFor c ((s.cell c).s o.sa.toNat).toNat = .ret w true u) :
    waitEffect c o s = .done (u.setCell c ({ u.cell c with
      xfers := tabDel ((s.cell c).s o.sa.toNat).toNat (u.cell c).xfers }.setS o.sd.toNat (BitVec.ofNat 64 w))) := by
  rw [waitEffect]
  dsimp only
  rw [if_neg (by rw [hx]; simpa using hlt), hwait]
  rfl

end

section
variable {s : State} {c h : Nat} {o : ROps} {x : Xfer} (hh : ((s.cell c).s o.sa.toNat).toNat = h) (hlt : h < 64)
  (hx : alistGet (s.cell c).xfers h = some x)
include hh hlt hx

theorem exec_plWait_leaves {u : State} (hu : s.fetched c 0x07 0x03 = u) (hfired : x.fired = true) (hdone : x.complete = true) :
    RLeaves s c (.plWait c o) o 0x07 0x03 [o.sd.toNat, o.sa.toNat]
      (u.setCell c ({ u.cell c with xfers := tabDel h (u.cell c).xfers }.setS o.sd.toNat (BitVec.ofNat 64 x.result))) := by
  subst hu hh
  rw [← State.fetched_xfers s c 0x07 0x03, ← fetched_s s c 0x07 0x03] at hx
  rw [← fetched_s s c 0x07 0x03] at hlt
  refine rLeaves_of (eff := waitEffect c o) (by rfl) ?_
  rw [waitEffect_of_done hlt hx (State.waitFor_of_complete hx hfired hdone), fetched_s]

theorem exec_plWait_stalls (hopen : x.complete = false)
    (hearly : x.dlEn = false ∨ (s.pitch : Int) < x.deadline ∨ s.onTime x = true) :
    RStalls s c (.plWait c o) o 0x07 0x03 [o.sd.toNat, o.sa.toNat] := by
  subst hh
  rw [← State.fetched_xfers s c 0x07 0x03, ← fetched_s s c 0x07 0x03] at hx
  rw [← fetched_s s c 0x07 0x03] at hlt
  rw [← State.fetched_pitch s c 0x07 0x03, ← State.onTime_of_fab (State.fetched_fab s c 0x07 0x03)] at hearly
  refine rStalls_of_wait (eff := waitEffect c o) (by rfl) ?_
  exact waitEffect_of_stay hlt hx (State.waitFor_of_early hx hopen hearly)

end

/-! ### The late policy for a get while switching is off -/

/-- `t` is `s` but for the transfers of one cell and what waits for pages of the pool. -/
def State.Reconsidered (s t : State) (c : Nat) : Prop :=
  (∃ cells pool, t = { s with cells := cells, pool := pool }) ∧ OtherCells s t c
    ∧ ∃ xs, t.cell c = { s.cell c with xfers := xs }

theorem State.Reconsidered.refl (s : State) (c : Nat) : s.Reconsidered s c := ⟨⟨_, _, rfl⟩, fun _ _ => rfl, _, rfl⟩

theorem State.Reconsidered.trans {s t u : State} {c : Nat} (h : s.Reconsidered t c) (g : t.Reconsidered u c) :
    s.Reconsidered u c := by
  obtain ⟨⟨cells, pool, rfl⟩, hother, xs, hcell⟩ := h
  obtain ⟨⟨cells', pool', rfl⟩, gother, xs', gcell⟩ := g
  exact ⟨⟨_, _, rfl⟩, fun d hd => (gother d hd).trans (hother d hd), xs', by rw [gcell, hcell]⟩

theorem State.Reconsidered.putXfer (s : State) (c h : Nat) (x : Xfer) : s.Reconsidered (s.putXfer c h x) c :=
  ⟨⟨_, _, rfl⟩, fun _ hd => (State.cell_setCell ..).trans (if_neg hd), _, (State.cell_setCell ..).trans (if_pos rfl)⟩

theorem State.Reconsidered.goOn (s : State) (w : FarWaiter) (c : Nat) : s.Reconsidered (s.goOn w) c := by
  rw [State.goOn_eq]
  exact ⟨⟨_, _, rfl⟩, fun _ _ => rfl, _, rfl⟩

/-- A transfer whose wait has gone through the late policy to its end. -/
def Xfer.markMissed (x : Xfer) : Xfer :=
  { x with switchTried := true, narrowTried := true, missed := true, flags := x.flags ||| 8 }

theorem Xfer.markMissed_of_tried {x : Xfer} (hsw : x.switchTried = true) (hnt : x.narrowTried = true) :
    x.markMissed = { x with missed := true, flags := x.flags ||| 8 } := by
  cases x
  simp_all [Xfer.markMissed]

/-- A get that is held under a handle, past its deadline and not yet marked as missed, in a cell with switching off. -/
structure State.Overdue (s : State) (c h : Nat) (x : Xfer) : Prop where
  held : alistGet (s.cell c).xfers h = some x
  fired : x.fired = true
  under : x.complete = false
  told : x.missed = false
  dlEn : x.dlEn = true
  past : x.deadline ≤ (s.pitch : Int)
  late : s.onTime x = false
  kind : x.kind = .get
  off : s.fld (Reg.cellLateCtrl c) 0 1 = 0

/-- The mark of a policy step that has been tried changes nothing that makes a get overdue. -/
theorem State.Overdue.marked {s t : State} {c h : Nat} {x : Xfer} (hx : s.Overdue c h x) (ht : s.Reconsidered t c)
    (sw nt : Bool) (hheld : alistGet (t.cell c).xfers h = some { x with switchTried := sw, narrowTried := nt }) :
    t.Overdue c h { x with switchTried := sw, narrowTried := nt } := by
  obtain ⟨⟨cells, pool, rfl⟩, -, -⟩ := ht
  exact ⟨hheld, hx.fired, hx.under, hx.told, hx.dlEn, hx.past, hx.late, hx.kind, hx.off⟩

/-- Narrowing is not for gets: its step marks it as tried. -/
theorem State.narrowStep_of_get {s : State} {x : Xfer} (hkind : x.kind = .get) (c h : Nat) :
    s.narrowStep c h x = ((s.goOn (.core c)).putXfer c h { x with narrowTried := true }, true) := by
  have hnone : s.farNeed (.core c) [] = [] := by
    rw [State.farNeed, State.farAmong]
    split <;> rfl
  unfold State.narrowStep State.narrowing
  rw [hkind]
  dsimp only
  rw [hnone]
  rfl

section
variable {s : State} {c h : Nat} {x : Xfer} (hx : s.Overdue c h x)
include hx

/-- One evaluation of the policy for an overdue get: the first of its steps that has not been tried. -/
theorem State.waitLoop_of_overdue (f : Nat) : State.waitLoop c h (f + 1) s =
    if x.switchTried = false then State.waitLoop c h f (s.putXfer c h { x with switchTried := true })
    else if x.narrowTried = false then
      State.waitLoop c h f ((s.goOn (.core c)).putXfer c h { x with narrowTried := true })
    else .stay ((s.putXfer c h { x with missed := true, flags := x.flags ||| 8 }).deadlineMiss c x.layer) := by
  have hlate : ¬(x.dlEn = false ∨ (s.pitch : Int) < x.deadline ∨ s.onTime x = true) := by
    simp [hx.dlEn, hx.late, hx.past]
  have hswitch : ¬(s.fld (Reg.cellLateCtrl c) 0 1 = 1 ∧ (s.cell c).altReady = true) := by
    simp [hx.off]
  rw [State.waitLoop, hx.held]
  dsimp only
  rw [if_neg (ne_false_of_eq_true hx.fired), if_neg (ne_true_of_eq_false hx.under), if_neg hlate, if_neg hswitch,
    State.narrowStep_of_get hx.kind, if_pos hx.told]
  rfl

/-- Switching and narrowing tried, the miss is marked and counted. -/
theorem State.waitLoop_of_tried (hsw : x.switchTried = true) (hnt : x.narrowTried = true) (f : Nat) :
    State.waitLoop c h (f + 1) s = .stay ((s.putXfer c h x.markMissed).deadlineMiss c x.layer) := by
  rw [State.waitLoop_of_overdue hx, if_neg (ne_false_of_eq_true hsw), if_neg (ne_false_of_eq_true hnt),
    Xfer.markMissed_of_tried hsw hnt]

theorem State.waitLoop_of_switchTried (hsw : x.switchTried = true) (f : Nat) : ∃ t, s.Reconsidered t c ∧
    State.waitLoop c h (f + 2) s = .stay ((t.putXfer c h x.markMissed).deadlineMiss c x.layer) := by
  cases hnt : x.narrowTried with
  | true => exact ⟨s, .refl s c, State.waitLoop_of_tried hx hsw hnt (f + 1)⟩
  | false =>
    have ht := (State.Reconsidered.goOn s (.core c) c).trans (.putXfer _ c h { x with narrowTried := true })
    refine ⟨_, ht, ?_⟩
    rw [State.waitLoop_of_overdue hx, if_neg (ne_false_of_eq_true hsw), if_pos hnt]
    exact State.waitLoop_of_tried (hx.marked ht x.switchTried true (State.putXfer_get ..)) hsw rfl f

/-- The wait for an overdue get goes on with the miss marked and counted. -/
theorem State.waitFor_of_overdue : ∃ t, s.Reconsidered t c ∧
    s.waitFor c h = .stay ((t.putXfer c h x.markMissed).deadlineMiss c x.layer) := by
  rw [State.waitFor]
  cases hsw : x.switchTried with
  | true => exact State.waitLoop_of_switchTried hx hsw 2
  | false =>
    have hput := State.Reconsidered.putXfer s c h { x with switchTried := true }
    obtain ⟨t, ht, hloop⟩ := State.waitLoop_of_switchTried (hx.marked hput true x.narrowTried (State.putXfer_get ..)) rfl 1
    refine ⟨t, hput.trans ht, ?_⟩
    rw [State.waitLoop_of_overdue hx, if_pos hsw]
    exact hloop

end

theorem Reported.deadlineMiss (s : State) (c layer : Nat) : Reported s (s.deadlineMiss c layer) :=
  (bump ..).trans (reportLim ..)

theorem State.deadlineMiss_reg (s : State) (c layer : Nat) : ((s.deadlineMiss c layer).reg (Reg.cellDeadlineMiss c)).toNat
    = min ((s.reg (Reg.cellDeadlineMiss c)).toNat + 1) 0xFFFFFFFF := by
  rw [State.deadlineMiss, State.reg_reportLim (evtRing_not_cell (by unfold Reg.cellDeadlineMiss; omega)), State.toNat_reg_bump]

section
variable {s : State} {c : Nat} {o : ROps} {x : Xfer} (hstall : (s.cell c).stall = some (.plWait c o))
  (hx : s.Overdue c ((s.cell c).s o.sa.toNat).toNat x)
include hstall hx

theorem State.edgeDue_of_overdue : s.edgeDue c = true := by
  have hkey : s.waitedKey c = some ((s.cell c).s o.sa.toNat).toNat := by
    rw [State.waitedKey, hstall]
  rw [State.edgeDue, hkey, Option.bind_some, hx.held]
  simp [hx.fired, hx.under, hx.told, hx.dlEn, hx.past, hx.late]

/-- The deadline of a get that PL.WAIT waits for: the wait is evaluated, and the core stays at it. -/
theorem exec_deadlineEdge_overdue (hc : c < 512) (hworks : s.works = true) (hrun : (s.cell c).run = .running)
    (hlt : ((s.cell c).s o.sa.toNat).toNat < 64) {u : State}
    (hwait : s.waitFor c ((s.cell c).s o.sa.toNat).toNat = .stay u) :
    exec (.deadlineEdge c) s = .next (u.setCell c { u.cell c with stall := some (.plWait c o) }) := by
  show execDeadlineEdge c s = _
  rw [execDeadlineEdge, decide_eq_true hc, onUnit_true, hworks, hrun, State.edgeDue_of_overdue hstall hx]
  dsimp only
  rw [hstall]
  dsimp only
  rw [waitEffect_of_stay hlt hx.held hwait]
  rfl

end

/-- Settles O12: issue by the checks and the handle taken, PL.WAIT by the transfer it names, and a deadline that passes by
the steps of the late policy that are left. -/
theorem transfersStartAndEnd : Obligations.TransfersStartAndEnd := by
  refine ⟨?_, ?_, ?_⟩
  · intro s c o k u a w dst uses takes
    exact ⟨poolEffect_takes (put := false) (by rfl), poolEffect_takes (put := true) (by rfl),
      fun tag => exec_plGather_takes rfl, fun e => poolEffect_traps (put := false) (by rfl),
      fun e => poolEffect_traps (put := true) (by rfl), fun e => exec_plGather_traps,
      poolEffect_stalls (put := false) (by rfl)⟩
  · intro s c o x k u h uses
    exact ⟨fun hlt hx => exec_plWait_leaves rfl hlt hx rfl, exec_plWait_stalls rfl, exec_plWait_traps⟩
  · intro s c o x k h hc hworks hrun hstall hlt hheld hfired hopen hmissed hdl hpast hlate hkind hoff
    have hx : s.Overdue c h x := ⟨hheld, hfired, hopen, hmissed, hdl, hpast, hlate, hkind, hoff⟩
    obtain ⟨v, hv, hwait⟩ := State.waitFor_of_overdue hx
    refine ⟨_, exec_deadlineEdge_overdue hstall hx hc hworks hrun hlt hwait, ?_⟩
    have hput := hv.trans (.putXfer v c h x.markMissed)
    have hget := State.putXfer_get v c h x.markMissed
    generalize v.putXfer c h x.markMissed = r at hput hget
    have hrep := Reported.deadlineMiss r c x.layer
    obtain ⟨⟨cells, pool, hr⟩, hother, xs, hcell⟩ := hput
    rw [State.cell_setCell, if_pos rfl, hrep.cell]
    refine ⟨hget, rfl, by rw [hcell], by rw [hcell], ?_, ?_, fun d hd => ?_⟩
    · exact (State.deadlineMiss_reg ..).trans (by rw [hr]; rfl)
    · exact ⟨fun j => by rw [State.setCell_spad, hrep.spad, hr], fun j => by rw [State.setCell_hbm, hrep.hbm, hr]⟩
    · rw [State.cell_setCell, if_neg hd, hrep.cell, hother d hd]

end Sys2Proof.Machine
end

section
/-! PROOF. What messages leave alone: most registers, the links of ports, and all but ports, rings and output (R336, R341,
R352). -/

namespace Sys2Proof.Machine

/-! ### Registers that work does not count in -/

/-- The registers in which reports, records, word errors, flags and messages are counted, those of ports apart. -/
def countingRegs : List Nat :=
  [Reg.poolCe, Reg.poolUe, Reg.modFlagsDropped, Reg.bootTorn, Reg.bootRejects, Reg.bootClamps, Reg.fabTagStall,
   Reg.fabIncomplete, Reg.fabBadKind, Reg.fabUnroutable, Reg.fabTtlDrop, Reg.fabFailover]
    ++ evtRing.written ++ clampRing.written

/-- A register below those of the cells in which no report, message or access to a page is counted. -/
structure Quiet (off : Nat) : Prop where
  below : off < 0x2000000
  count : off ∉ countingRegs
  flits : ∀ p, off ≠ Reg.fabPortTxFlits p

/-- The flit counts of ports lie at 0x24 of their 64 bytes. -/
theorem Quiet.of_place {off : Nat} (hbelow : off < 0x2000000) (hcount : off ∉ countingRegs)
    (hplace : off < 0x101000 ∨ off % 64 ≠ 0x24) : Quiet off :=
  ⟨hbelow, hcount, fun p => by unfold Reg.fabPortTxFlits; omega⟩

theorem Quiet.portCtrl {p : Nat} (hp : p < 24) : Quiet (Reg.fabPortCtrl p) := by
  unfold Reg.fabPortCtrl
  refine .of_place (by omega) ?_ (by omega)
  have hall : ∀ off ∈ countingRegs, off < 0x101000 ∨ 0x101600 ≤ off := by decide
  intro hmem
  have := hall _ hmem
  omega

namespace Quiet
variable {off : Nat} (h : Quiet off)
include h

theorem ne_of_mem {o : Nat} (ho : o ∈ countingRegs) : off ≠ o := (ne_of_mem_of_not_mem ho h.count).symm

theorem evt : off ∉ evtRing.written := fun he =>
  h.count (List.mem_append_left _ (List.mem_append_right _ he))

theorem clamp : off ∉ clampRing.written := fun hc => h.count (List.mem_append_right _ hc)

end Quiet

/-! ### Messages -/

/-- What a port keeps while it carries messages: its place in Table 11-7, its lanes and its peer. -/
def Port.link (q : Port) : Port :=
  { mode := q.mode, lanes := q.lanes, failed := q.failed, stuck := q.stuck, recorded := q.recorded,
    peerSerial := q.peerSerial, peerAddr := q.peerAddr, peerValid := q.peerValid, peerPort := q.peerPort,
    cableSerial := q.cableSerial }

section
variable {q r : Port} (h : q.link = r)
include h

theorem Port.mode_of_link : q.mode = r.mode := h ▸ rfl

theorem Port.lanes_of_link : q.lanes = r.lanes := h ▸ rfl

theorem Port.failed_of_link : q.failed = r.failed := h ▸ rfl

theorem Port.stuck_of_link : q.stuck = r.stuck := h ▸ rfl

theorem Port.recorded_of_link : q.recorded = r.recorded := h ▸ rfl

theorem Port.peerAddr_of_link : q.peerAddr = r.peerAddr := h ▸ rfl

end

/-- `t` is `s` but for messages on ports and messages handed to units, what reports leave, the output, and the counts of
such work. -/
structure Sent (s t : State) : Prop where
  rest : ∃ regs out rate held evt clamp seen ports arrived free, t = { s with
    regs := regs, out := out, rate := rate, free := free,
    host := { s.host with held := held, evt := evt, clamp := clamp, seen := seen },
    fab := { s.fab with ports := ports, arrived := arrived } }
  reg : ∀ off, Quiet off → t.reg off = s.reg off
  link : ∀ p, (t.port p).link = (s.port p).link

namespace Sent

theorem refl (s : State) : Sent s s := ⟨⟨_, _, _, _, _, _, _, _, _, _, rfl⟩, fun _ _ => rfl, fun _ => rfl⟩

theorem trans {s t u : State} (h : Sent s t) (g : Sent t u) : Sent s u := by
  obtain ⟨⟨_, _, _, _, _, _, _, _, _, _, hrest⟩, hreg, hlink⟩ := h
  obtain ⟨⟨_, _, _, _, _, _, _, _, _, _, grest⟩, greg, glink⟩ := g
  exact ⟨⟨_, _, _, _, _, _, _, _, _, _, by rw [grest, hrest]⟩, fun off ho => (greg off ho).trans (hreg off ho),
    fun p => (glink p).trans (hlink p)⟩

theorem ite {s t u : State} {p : Prop} [Decidable p] (ht : Sent s t) (hu : Sent s u) : Sent s (if p then t else u) :=
  iteInduction (fun _ => ht) (fun _ => hu)

theorem foldl {α : Type} {f : State → α → State} (hf : ∀ s a, Sent s (f s a)) (l : List α) (s : State) :
    Sent s (l.foldl f s) := l.foldlRecOn f (refl s) fun t h a _ => h.trans (hf t a)

theorem of_reported {s t : State} (h : Reported s t) (hreg : ∀ off, Quiet off → t.reg off = s.reg off) : Sent s t := by
  obtain ⟨_, _, _, _, _, _, _, rfl⟩ := h
  exact ⟨⟨_, _, _, _, _, _, _, _, _, _, rfl⟩, hreg, fun _ => rfl⟩

theorem report (s : State) (code unit data : Nat) : Sent s (s.report code unit data) :=
  of_reported (.report ..) fun _ ho => State.reg_report ho.evt ..

theorem reportLim (s : State) (code source unit data : Nat) : Sent s (s.reportLim code source unit data) :=
  of_reported (.reportLim ..) fun _ ho => State.reg_reportLim ho.evt ..

theorem toHost (s : State) (o : Output) : Sent s (s.toHost o) := of_reported (.toHost ..) fun _ _ => State.reg_toHost ..

theorem emit (s : State) (o : Output) : Sent s (s.emit o) := of_reported (.emit ..) fun _ _ => rfl

theorem bump (s : State) {off : Nat} (h : off ∈ countingRegs) : Sent s (s.bump off) :=
  of_reported (.bump ..) fun _ ho => State.reg_bump_of_ne _ _ (ho.ne_of_mem h)

theorem draw (s : State) (n : Nat) : Sent s { s with free := n } :=
  ⟨⟨_, _, _, _, _, _, _, _, _, _, rfl⟩, fun _ _ => rfl, fun _ => rfl⟩

theorem keepStamp (s : State) (h : Hdr) : Sent s (s.keepStamp h) :=
  ⟨⟨_, _, _, _, _, _, _, _, _, _, rfl⟩, fun _ _ => rfl, fun _ => rfl⟩

theorem unstamp (s : State) (h : Hdr) : Sent s (s.unstamp h) :=
  ⟨⟨_, _, _, _, _, _, _, _, _, _, rfl⟩, fun _ _ => rfl, fun _ => rfl⟩

theorem setPort (s : State) {p : Nat} {q : Port} (h : q.link = (s.port p).link) : Sent s (s.setPort p q) := by
  refine ⟨⟨_, _, _, _, _, _, _, _, _, _, rfl⟩, fun _ _ => rfl, fun r => ?_⟩
  rw [State.port_setPort]
  split
  · next hr => rw [hr, h]
  · rfl

theorem bumpUnits (s : State) {off : Nat} (n : Nat) (h : ∀ o, Quiet o → o ≠ off) : Sent s (s.bumpUnits off n) := by
  refine of_reported ⟨_, _, _, _, _, _, _, rfl⟩ fun o ho => ?_
  unfold State.bumpUnits
  split
  · rfl
  · exact (State.reg_bumpBy ..).trans (if_neg (h o ho))

theorem giveBack (s : State) (m : Msg) (n : Nat) : Sent s (s.giveBack m n) := by
  unfold State.giveBack
  split
  · exact refl s
  · exact (setPort s (by rfl)).trans (emit ..)

theorem sendFlits (s : State) (p : Nat) (x : Queued) (n : Nat) : Sent s (s.sendFlits p x n) := by
  have hspent : ∀ q k, q.link = (s.port p).link →
      Sent s (((s.setPort p q).bumpUnits (Reg.fabPortTxFlits p) k).giveBack x.msg n) := fun q k hq =>
    ((setPort s hq).trans (bumpUnits _ _ fun _ ho => ho.flits p)).trans (giveBack ..)
  exact .ite ((hspent _ _ (by rfl)).trans (emit ..)) (hspent _ _ (by rfl))

theorem pumpPort (p : Nat) : ∀ (n : Nat) (s : State), Sent s (State.pumpPort p n s)
  | 0, s => refl s
  | n + 1, s => by
    unfold State.pumpPort
    dsimp only
    split
    · exact refl s
    · split
      · exact refl s
      · split
        · exact refl s
        · exact (sendFlits ..).trans (pumpPort p n _)

theorem pump (s : State) (p : Nat) : Sent s (s.pump p) := pumpPort ..

theorem enqueue (s : State) (p pool : Nat) (m : Msg) : Sent s (s.enqueue p pool m) := (setPort s (by rfl)).trans (pump ..)

theorem deliver (s : State) (m : Msg) : Sent s (s.deliver m) :=
  (giveBack s m m.flits).trans
    (.ite (bump _ (by decide)) (.ite (bump _ (by decide)) ((keepStamp ..).trans (emit ..))))

theorem noRoute (s : State) (m : Msg) : Sent s (s.noRoute m) :=
  (giveBack s m m.flits).trans ((bump _ (by decide)).trans (reportLim ..))

theorem ttlDrop (s : State) (m : Msg) : Sent s (s.ttlDrop m) :=
  (giveBack s m m.flits).trans ((bump _ (by decide)).trans (reportLim ..))

theorem routeBy (s : State) (arr : Option Nat) (m : Msg) (e : Nat) : Sent s (s.routeBy arr m e) := by
  unfold State.routeBy
  dsimp only
  split
  · exact .ite (enqueue ..) (enqueue ..)
  · split
    · exact (enqueue ..).trans (bump _ (by decide))
    · exact noRoute ..

theorem route (s : State) (arr : Option Nat) (m : Msg) : Sent s (s.route arr m) :=
  .ite (deliver ..) (.ite (ttlDrop ..) (.ite (noRoute ..) (routeBy ..)))

theorem issueMsg (s : State) (h : Hdr) (payload : List Byte) (vl : Nat) (ar : Bool) :
    Sent s (s.issueMsg h payload vl ar) := .ite (route ..) (refl s)

theorem discOut (s : State) (p : Nat) (m : Msg) : Sent s (s.discOut p m) := .ite (enqueue ..) (giveBack ..)

theorem discIssue (s : State) (h : Hdr) (payload : List Byte) : Sent s (s.discIssue h payload) := discOut ..

section
variable {s t : State} (h : Sent s t)
include h

theorem pitch : t.pitch = s.pitch := by obtain ⟨⟨_, _, _, _, _, _, _, _, _, _, rfl⟩, -, -⟩ := h; rfl

theorem txns : t.fab.txns = s.fab.txns := by obtain ⟨⟨_, _, _, _, _, _, _, _, _, _, rfl⟩, -, -⟩ := h; rfl

theorem freed : t.fab.freed = s.fab.freed := by obtain ⟨⟨_, _, _, _, _, _, _, _, _, _, rfl⟩, -, -⟩ := h; rfl

theorem disc : t.fab.disc = s.fab.disc := by obtain ⟨⟨_, _, _, _, _, _, _, _, _, _, rfl⟩, -, -⟩ := h; rfl

theorem chans : t.fab.chans = s.fab.chans := by obtain ⟨⟨_, _, _, _, _, _, _, _, _, _, rfl⟩, -, -⟩ := h; rfl

theorem pool : t.pool = s.pool := by obtain ⟨⟨_, _, _, _, _, _, _, _, _, _, rfl⟩, -, -⟩ := h; rfl

theorem cus : t.cus = s.cus := by obtain ⟨⟨_, _, _, _, _, _, _, _, _, _, rfl⟩, -, -⟩ := h; rfl

theorem chan (c : Nat) : t.chan c = s.chan c := by rw [State.chan, h.chans, State.chan]

end

end Sent

end Sys2Proof.Machine
end

section
/-! PROOF. The states of a fabric port: by enable, training, alignment, identity, fencing and lane faults (R342 to R346,
Table 11-7). -/

namespace Sys2Proof.Machine

/-- A command on a unit of the package whose condition holds acts. -/
theorem onUnit_whenOk {unit ok : Bool} (hunit : unit = true) (hok : ok = true) (s t : State) :
    onUnit unit (whenOk ok s t) = .next t := by
  rw [hunit, hok]
  rfl

/-! ### Leaving UP and entering it (R342, R345) -/

theorem Sent.loseFlits (s : State) (p : Nat) : Sent s (s.loseFlits p) := by
  unfold State.loseFlits
  extract_lets lost s1
  have hlost : Sent s s1 := foldl (fun t x => giveBack t x.msg x.left) lost s
  exact hlost.trans (foldl (fun t _ => setPort t (by rfl)) _ s1)

theorem Sent.guyNote (s : State) (p : Nat) : Sent s (s.guyNote p) := by
  have hasym : Sent s (if s.fld (Reg.fabPortCable p) 0 16 = 0x8000 then s.report 0x0105 unitMgmt p else s) :=
    .ite (report ..) (refl s)
  exact .ite ((hasym.trans (draw ..)).trans (report ..)) hasym

/-- A port whose link has been changed, and what is reported of it then. -/
theorem Sent.link_of_setPort {s t : State} {p : Nat} {q : Port} (h : Sent (s.setPort p q) t) :
    (t.port p).link = q.link := by
  rw [h.link p, State.port_setPort, if_pos rfl]

/-- A port that leaves UP or FENCED loses its flits, and then only reports. -/
theorem State.portLeave_sent (s : State) (p : Nat) (m : PortMode) : ∃ u q, Sent s u ∧ Sent (u.setPort p q) (s.portLeave p m)
    ∧ q.link = { (u.port p).link with mode := m, stuck := false } := by
  unfold State.portLeave
  extract_lets q s1 q1 s2
  refine ⟨s1, _, .loseFlits s p, (?_ : Sent s2 _), rfl⟩
  split
  · exact (Sent.report s2 ..).trans (.ite (.report ..) (.refl _))
  · exact .refl s2

theorem State.portLeave_link (s : State) (p : Nat) (m : PortMode) :
    ((s.portLeave p m).port p).link = { (s.port p).link with mode := m, stuck := false } := by
  obtain ⟨u, q, hu, hsent, hq⟩ := s.portLeave_sent p m
  rw [hsent.link_of_setPort, hq, hu.link p]

theorem State.reg_portLeave (s : State) (p : Nat) (m : PortMode) {off : Nat} (h : Quiet off) :
    (s.portLeave p m).reg off = s.reg off := by
  obtain ⟨u, q, hu, hsent, -⟩ := s.portLeave_sent p m
  rw [hsent.reg off h, State.reg_setPort, hu.reg off h]

theorem State.enterTrain_link (s : State) (p : Nat) :
    ((s.enterTrain p).port p).link = { (s.port p).link with mode := .train, stuck := false, lanes := 0 } := by
  have hleft := s.portLeave_link p .train
  rw [State.enterTrain]
  dsimp only
  rw [State.port_bump, State.port_setPort, if_pos rfl]
  show { ((s.portLeave p .train).port p).link with lanes := 0 } = _
  rw [hleft]

theorem State.fld_enterTrain_portCtrl (s : State) {p : Nat} (hp : p < 24) (lo w : Nat) :
    (s.enterTrain p).fld (Reg.fabPortCtrl p) lo w = s.fld (Reg.fabPortCtrl p) lo w := by
  have hreg : (s.enterTrain p).reg (Reg.fabPortCtrl p) = s.reg (Reg.fabPortCtrl p) :=
    (State.reg_bump_of_ne _ _ (by unfold Reg.fabPortCtrl Reg.fabPortRetrains; omega)).trans
      (s.reg_portLeave p .train (.portCtrl hp))
  rw [State.fld, hreg, State.fld]

/-- A lane that goes down is marked, and its port trains (R343). -/
theorem State.laneDown_marks (s : State) (p lane : Nat) :
    ((s.laneDown p lane).port p).mode = .train ∧ ((s.laneDown p lane).port p).failed.testBit lane = true := by
  unfold State.laneDown
  extract_lets q
  have hlink := (s.setPort p { q with failed := putField q.failed lane 1 1 }).enterTrain_link p
  rw [State.port_setPort, if_pos rfl] at hlink
  refine ⟨Port.mode_of_link hlink, ?_⟩
  rw [Port.failed_of_link hlink]
  show (putField q.failed lane 1 1).testBit lane = true
  rw [testBit_putField, if_pos (by omega), Nat.sub_self]
  rfl

theorem State.enterUp_link (s : State) (p : Nat) :
    ((s.enterUp p).port p).link = { (s.port p).link with mode := .up } := by
  have hsent : Sent (s.setPort p { s.port p with mode := .up }) (s.enterUp p) := by
    unfold State.enterUp
    extract_lets q s1 s2
    have hreport : Sent (s.setPort p { q with mode := .up }) s1 := .report ..
    have hdegraded : Sent s1 s2 := .ite (.report ..) (.refl s1)
    exact ((hreport.trans hdegraded).trans (.ite (.guyNote ..) (.refl s2))).trans (.pump ..)
  rw [hsent.link_of_setPort]
  rfl

/-! ### Enabling and training (R343, R344) -/

section
variable {s : State} {p : Nat} (hp : p < 24) (hup : s.up = true)
include hp hup

theorem exec_portEnable : exec (.portEnable p) s = .next (if (s.port p).mode = .disabled then
    ((s.setFld (Reg.fabPortCtrl p) 0 1 1).setPort p { s.port p with failed := 0 }).enterTrain p
    else s.setFld (Reg.fabPortCtrl p) 0 1 1) :=
  onUnit_whenOk (decide_eq_true hp) hup ..

theorem exec_portDisable : exec (.portDisable p) s = .next
    (((s.setFld (Reg.fabPortCtrl p) 0 1 0).portLeave p .disabled).setPort p
      { ((s.setFld (Reg.fabPortCtrl p) 0 1 0).portLeave p .disabled).port p with lanes := 0 }) :=
  onUnit_whenOk (decide_eq_true hp) hup ..

theorem exec_trainComplete (hmode : (s.port p).mode = .train) {lanes : Nat} {four low high : Bool}
    (hlanes : trainLanes (s.port p).failed (s.fld (Reg.fabPortCtrl p) 1 1 == 1) four low high = lanes) (h0 : lanes ≠ 0) :
    exec (.trainComplete p four low high) s
      = .next (s.setPort p { s.port p with mode := .align, lanes := lanes, stuck := false }) := by
  refine (onUnit_whenOk (decide_eq_true hp) (by rw [hup, hmode]; rfl) ..).trans ?_
  dsimp only
  rw [hlanes, if_pos h0]

/-- With no usable lanes the port holds in TRAIN, and reports it once. -/
theorem exec_trainComplete_of_no_lanes (hmode : (s.port p).mode = .train) {four low high : Bool}
    (hlanes : trainLanes (s.port p).failed (s.fld (Reg.fabPortCtrl p) 1 1 == 1) four low high = 0) :
    exec (.trainComplete p four low high) s = .next (if (s.port p).stuck then s else
      (s.setPort p { s.port p with stuck := true }).report 0x0402 (unitPort p) (p + 2 ^ 5 * (s.port p).failed)) := by
  refine (onUnit_whenOk (decide_eq_true hp) (by rw [hup, hmode]; rfl) ..).trans ?_
  dsimp only
  rw [hlanes, if_neg (not_not_intro rfl)]

theorem trainComplete_aligns (hmode : (s.port p).mode = .train) {lanes : Nat} {four low high : Bool}
    (hlanes : trainLanes (s.port p).failed (s.fld (Reg.fabPortCtrl p) 1 1 == 1) four low high = lanes) (h0 : lanes ≠ 0) :
    ∃ t, exec (.trainComplete p four low high) s = .next t ∧ (t.port p).mode = .align ∧ (t.port p).lanes = lanes := by
  refine ⟨_, exec_trainComplete hp hup hmode hlanes h0, ?_⟩
  rw [State.port_setPort, if_pos rfl]
  exact ⟨rfl, rfl⟩

theorem trainComplete_holds (hmode : (s.port p).mode = .train) {four low high : Bool}
    (hlanes : trainLanes (s.port p).failed (s.fld (Reg.fabPortCtrl p) 1 1 == 1) four low high = 0) :
    ∃ t, exec (.trainComplete p four low high) s = .next t ∧ (t.port p).mode = .train ∧ (t.port p).stuck = true := by
  refine ⟨_, exec_trainComplete_of_no_lanes hp hup hmode hlanes, ?_⟩
  split
  · next hstuck => exact ⟨hmode, hstuck⟩
  · have hlink := (Sent.report (s.setPort p { s.port p with stuck := true }) 0x0402 (unitPort p)
      (p + 2 ^ 5 * (s.port p).failed)).link_of_setPort
    exact ⟨(Port.mode_of_link hlink).trans hmode, Port.stuck_of_link hlink⟩

/-! ### Alignment, identity and faults (R342, R343, R346) -/

theorem exec_alignComplete (hmode : (s.port p).mode = .align) :
    exec (.alignComplete p) s = .next (s.setPort p { s.port p with mode := .ident }) :=
  onUnit_whenOk (decide_eq_true hp) (by rw [hup, hmode]; rfl) ..

theorem exec_alignTimeout (hmode : (s.port p).mode = .align) : exec (.alignTimeout p) s = .next (s.enterTrain p) :=
  onUnit_whenOk (decide_eq_true hp) (by rw [hup, hmode]; rfl) ..

theorem exec_unfence (hmode : (s.port p).mode = .fenced) : exec (.unfence p) s = .next
    ((s.setPort p { s.port p with recorded := some (s.port p).peerSerial }).enterUp p) :=
  onUnit_whenOk (decide_eq_true hp) (by rw [hup, hmode]; rfl) ..

theorem exec_laneFault {lane : Nat} (hlane : lane < 4) (hused : (s.port p).lanes.testBit lane = true) :
    exec (.laneFault p lane) s = .next (s.laneDown p lane) := by
  refine (onUnit_whenOk (decide_eq_true hp) ?_ ..).trans (congrArg _ (if_pos hlane))
  rw [hup, if_pos hlane, hused, decide_eq_true (Nat.le_of_lt hlane)]
  rfl

theorem exec_laneFault_of_peer_lost (hused : (s.port p).lanes ≠ 0) :
    exec (.laneFault p 4) s = .next (s.enterTrain p) := by
  refine onUnit_whenOk (decide_eq_true hp) ?_ ..
  rw [hup, if_neg (by decide), bne_iff_ne.mpr hused]
  rfl

end

/-- The port as IDENT leaves it: its peer as exchanged, and no credits spent. -/
def Port.identified (q : Port) (serial : Nat) (addr : BitVec 17) (valid : Bool) (peerPort : Nat) : Port :=
  { q with peerSerial := serial, peerAddr := addr, peerValid := valid, peerPort := peerPort % 2 ^ 5,
           used := [], sent := [], returned := [], received := [], freed := [] }

theorem State.takeCable_link (s : State) (p : Nat) (b : List Byte) :
    ∃ serial, ((s.takeCable p b).port p).link = { (s.port p).link with cableSerial := serial } := by
  unfold State.takeCable
  extract_lets ok asym s1 q s2
  have hsent : Sent s2 (if ok = true then s2 else s2.report 0x0405 (unitPort p) p) := .ite (.refl s2) (.report ..)
  exact ⟨_, hsent.link_of_setPort⟩

theorem State.takeCable_recorded (s : State) (p : Nat) (b : List Byte) :
    ((s.takeCable p b).port p).recorded = (s.port p).recorded := by
  obtain ⟨serial, hlink⟩ := s.takeCable_link p b
  rw [Port.recorded_of_link hlink]
  rfl

section
variable {s : State} {p : Nat} (hp : p < 24) (hup : s.up = true) (hmode : (s.port p).mode = .ident) {serial : Nat}
  (hserial : serial < 2 ^ 64) (addr : BitVec 17) (valid : Bool) (pp : Nat) (cable : List Byte)
include hp hup hmode hserial

/-- A peer that is recorded, or the first, brings the port UP; another fences it (Table 11-7). -/
theorem exec_identComplete : exec (.identComplete p serial addr valid pp cable) s = .next
    (let s1 := s.takeCable p cable
     let q := (s1.port p).identified serial addr valid pp
     if (s.port p).recorded = none ∨ (s.port p).recorded = some serial then
       (s1.setPort p { q with recorded := some serial }).enterUp p
     else ((s1.setPort p { q with mode := .fenced }).report 0x0404 (unitPort p) p).pump p) := by
  refine (onUnit_whenOk (decide_eq_true hp) (by rw [hup, hmode]; rfl) ..).trans ?_
  dsimp only
  rw [Nat.mod_eq_of_lt hserial]
  exact congrArg _ (if_congr (by rw [s.takeCable_recorded]) rfl rfl)

theorem identComplete_enters_up (hpeer : (s.port p).recorded = none ∨ (s.port p).recorded = some serial) :
    ∃ t, exec (.identComplete p serial addr valid pp cable) s = .next t ∧ (t.port p).mode = .up
      ∧ (t.port p).recorded = some serial ∧ (t.port p).peerAddr = addr := by
  refine ⟨_, (exec_identComplete hp hup hmode hserial ..).trans (congrArg _ (if_pos hpeer)), ?_⟩
  have hlink := State.enterUp_link ((s.takeCable p cable).setPort p
    { ((s.takeCable p cable).port p).identified serial addr valid pp with recorded := some serial }) p
  rw [State.port_setPort, if_pos rfl] at hlink
  exact ⟨Port.mode_of_link hlink, Port.recorded_of_link hlink, Port.peerAddr_of_link hlink⟩

theorem identComplete_fences (hpeer : ¬((s.port p).recorded = none ∨ (s.port p).recorded = some serial)) :
    ∃ t, exec (.identComplete p serial addr valid pp cable) s = .next t ∧ (t.port p).mode = .fenced
      ∧ (t.port p).recorded = (s.port p).recorded := by
  refine ⟨_, (exec_identComplete hp hup hmode hserial ..).trans (congrArg _ (if_neg hpeer)), ?_⟩
  have hlink := ((Sent.report ((s.takeCable p cable).setPort p
    { ((s.takeCable p cable).port p).identified serial addr valid pp with mode := .fenced }) 0x0404 (unitPort p) p).trans
      (.pump _ p)).link_of_setPort
  exact ⟨Port.mode_of_link hlink, (Port.recorded_of_link hlink).trans (s.takeCable_recorded p cable)⟩

end

/-- Settles O31: each command of Table 11-7 by the link that it leaves the port. -/
theorem portsFollowTheirStates : Obligations.PortsFollowTheirStates := by
  intro s p hp hup
  dsimp only
  refine ⟨fun hmode => ?_, fun hmode => ?_, ?_, fun hmode four low high => ⟨?_, ?_, ?_, ?_⟩, fun hmode => ⟨?_, ?_⟩,
    fun hmode serial addr valid pp cable hserial => ?_, fun hmode => ?_, fun lane hlane hused => ?_, fun hused => ?_⟩
  · -- PORT_ENABLE of a disabled port
    refine ⟨_, (exec_portEnable hp hup).trans (by rw [if_pos hmode]), ?_⟩
    have hlink := ((s.setFld (Reg.fabPortCtrl p) 0 1 1).setPort p { s.port p with failed := 0 }).enterTrain_link p
    rw [State.port_setPort, if_pos rfl] at hlink
    refine ⟨Port.mode_of_link hlink, Port.failed_of_link hlink, Port.lanes_of_link hlink, ?_⟩
    rw [State.fld_enterTrain_portCtrl _ hp]
    exact s.fld_setFld_self _ 1 (by decide)
  · exact (exec_portEnable hp hup).trans (by rw [if_neg hmode])
  · -- PORT_DISABLE
    refine ⟨_, exec_portDisable hp hup, ?_⟩
    have hlink := (s.setFld (Reg.fabPortCtrl p) 0 1 0).portLeave_link p .disabled
    rw [State.port_setPort, if_pos rfl]
    refine ⟨Port.mode_of_link hlink, rfl, ?_⟩
    rw [State.fld, State.reg_setPort, State.reg_portLeave _ p .disabled (.portCtrl hp)]
    exact s.fld_setFld_self _ 0 (by decide)
  · intro hfailed hlanes2 hfour
    exact trainComplete_aligns hp hup hmode (by simp [trainLanes, hfailed, hlanes2, hfour]) (by decide)
  · intro hfailed hlanes2 hfour
    have hlow : (s.port p).failed % 4 = 0 := by omega
    exact trainComplete_aligns hp hup hmode (by simp [trainLanes, hlow, hlanes2, hfour]) (by decide)
  · intro hlow hhigh hoffered
    have hfailed : (s.port p).failed % 16 ≠ 0 := by omega
    exact trainComplete_aligns hp hup hmode (by simp [trainLanes, hfailed, hlow, hhigh, hoffered]) (by decide)
  · intro hlow hhigh
    have hfailed : (s.port p).failed % 16 ≠ 0 := by omega
    exact trainComplete_holds hp hup hmode (by simp [trainLanes, hfailed, hlow, hhigh])
  · exact exec_alignComplete hp hup hmode
  · have hlink := s.enterTrain_link p
    exact ⟨_, exec_alignTimeout hp hup hmode, Port.mode_of_link hlink, Port.lanes_of_link hlink⟩
  · exact ⟨identComplete_enters_up hp hup hmode hserial addr valid pp cable, fun hfirst hother =>
      identComplete_fences hp hup hmode hserial addr valid pp cable (not_or.mpr ⟨hfirst, hother⟩)⟩
  · have hlink := (s.setPort p { s.port p with recorded := some (s.port p).peerSerial }).enterUp_link p
    rw [State.port_setPort, if_pos rfl] at hlink
    exact ⟨_, exec_unfence hp hup hmode, Port.mode_of_link hlink, Port.recorded_of_link hlink⟩
  · exact ⟨_, exec_laneFault hp hup hlane hused, s.laneDown_marks p lane⟩
  · have hlink := s.enterTrain_link p
    exact ⟨_, exec_laneFault_of_peer_lost hp hup hused, Port.mode_of_link hlink, (Port.failed_of_link hlink :)⟩

end Sys2Proof.Machine
end

section
/-! PROOF. Messages that come in on a port: delivered, dropped, or routed by the table, the worked example among them (R334,
R351, R352, R355). -/

namespace Sys2Proof.Machine

/-! ### Ports with nothing to send, and the count of flits received -/

theorem Port.ready_of_empty {q : Port} (h : q.queue = []) (vl : Nat) : q.ready vl = none := by
  rw [Port.ready, h]
  rfl

theorem State.pump_of_empty {s : State} {p : Nat} (h : (s.port p).queue = []) : s.pump p = s := by
  rw [State.pump, h]
  show State.pumpPort p 1 s = s
  unfold State.pumpPort
  dsimp only
  split
  · rfl
  · split
    · rfl
    · rw [Port.ready_of_empty h]

theorem State.reg_bumpUnits_of_ne (s : State) {off o : Nat} (n : Nat) (h : o ≠ off) :
    (s.bumpUnits off n).reg o = s.reg o := by
  unfold State.bumpUnits
  split
  · rfl
  · exact (State.reg_bumpBy ..).trans (if_neg h)

theorem State.reg_countRx (s : State) (p n : Nat) {off : Nat} (h : off ≠ Reg.fabPortRxFlits p) :
    (s.countRx p n).reg off = s.reg off := State.reg_bumpUnits_of_ne _ _ h

theorem State.port_countRx (s : State) (p n d : Nat) : (s.countRx p n).port d =
    if d = p then { s.port p with rxRest := ((s.port p).rxRest + n) % 1024 } else s.port d := State.port_setPort ..

/-! ### Arrival (R334, R347) -/

/-- Messages are accepted as long as FAB_CTRL and FAB_ADDR stand as they do (R347). -/
theorem State.fabOn_of_reg {s t : State} (hctrl : t.reg Reg.fabCtrl = s.reg Reg.fabCtrl)
    (haddr : t.reg Reg.fabAddr = s.reg Reg.fabAddr) : t.fabOn = s.fabOn := by
  rw [State.fabOn, State.fld, State.fld, hctrl, haddr, State.fabOn, State.fld, State.fld]

theorem State.arrive_of_on {s : State} {m : Msg} (hdisc : isDisc m.h = false) (hon : m.vl < 6 → s.fabOn = true) (p : Nat) :
    s.arrive p m = s.route (some p) m := by
  rw [State.arrive, if_neg (by rw [hdisc]; decide)]
  refine if_neg ?_
  rintro ⟨hvl, hoff⟩
  exact absurd (hon hvl) (by rw [hoff]; decide)

theorem State.arrivalPool_fabOn (s : State) (ar esc : Bool) : (s.arrivalPool ar esc).2.fabOn = s.fabOn := by
  unfold State.arrivalPool
  split <;> rfl

theorem State.countRx_fabOn (s : State) {p : Nat} (hp : p < 24) (n : Nat) : (s.countRx p n).fabOn = s.fabOn :=
  State.fabOn_of_reg (s.reg_countRx p n (by unfold Reg.fabPortRxFlits Reg.fabCtrl; omega))
    (s.reg_countRx p n (by unfold Reg.fabPortRxFlits Reg.fabAddr; omega))

section
variable {s : State} {p vl : Nat} (hp : p < 24) (hvl : vl < 7) (hup : s.up = true) (hmode : (s.port p).mode = .up)
include hp hvl hup hmode

theorem exec_headFlitRoute (ar esc : Bool) (hops : Nat) (fl : List Flit) (fec : Fec) (h : Hdr) (bs : List Byte)
    {u : State} (hu : (let r := s.arrivalPool ar esc
      let n := fl.length
      let s1 := r.2.countRx p n
      let q := fl.foldl (fun k f => k.takeCredit f.crvl f.crpool f.crcnt) (s1.port p)
      let i := laneIdx vl r.1
      let s2 := s1.setPort p { q with received := setCount q.received i (countAt q.received i + n) }
      let m : Msg := { h := h, payload := bs, vl := vl, ar := ar, esc := esc, hops := hops % 64,
                       intact := flitsWhole h fl, got := some n, back := some (p, r.1) }
      if fl.head?.map (·.som) = some true then s2.arrive p m else (s2.giveBack m n).bump Reg.fabIncomplete) = u) :
    exec (.headFlitRoute p vl ar esc hops fl fec h bs) s = .next ((u.pump p).fecTake p fec) := by
  subst hu
  refine onUnit_whenOk (decide_eq_true hp) ?_ ..
  rw [hup, hmode, decide_eq_true hvl]
  rfl

end

/-! ### Delivery, and messages that are dropped (R341, R352, R355) -/

theorem State.reg_giveBack (s : State) (m : Msg) (n off : Nat) : (s.giveBack m n).reg off = s.reg off := by
  unfold State.giveBack
  split <;> rfl

/-- What is dropped is counted, whatever is reported of it. -/
theorem State.toNat_reg_dropped (s : State) (m : Msg) (n code source unit data : Nat) {off : Nat}
    (h : off ∉ evtRing.written) : ((((s.giveBack m n).bump off).reportLim code source unit data).reg off).toNat =
      min ((s.reg off).toNat + 1) 0xFFFFFFFF := by
  rw [State.reg_reportLim h, State.toNat_reg_bump, State.reg_giveBack]

theorem State.deliver_out {s : State} {m : Msg} (hwhole : m.intact = true) (hkind : kindOk m.h.kind.toNat = true)
    (hunit : unitOk m.h.dstUnit.toNat = true) : (s.deliver m).out.getLast? = some (.deliver m.h m.payload) := by
  rw [State.deliver, if_neg (by rw [hwhole]; decide), if_neg (by rw [hkind, hunit]; decide)]
  exact List.getLast?_concat

section
variable {s : State} {m : Msg} (p : Nat) (hdst : m.h.dst.toNat ≠ s.ownAddr)
include hdst

theorem State.route_of_spent (hhops : m.hops = 0) : s.route (some p) m = s.ttlDrop m := by
  rw [State.route, if_neg hdst, if_pos ⟨rfl, hhops⟩]

theorem State.route_of_hops (hhops : 0 < m.hops) : s.route (some p) m =
    let e := (s.reg (Reg.fabRt m.h.dst.toNat)).toNat
    let n := { m with hops := m.hops - 1 }
    if e.testBit 31 = false ∨ 24 ≤ e % 32 then s.noRoute n else s.routeBy (some p) n e := by
  rw [State.route, if_neg hdst, if_neg (fun hspent => by omega)]
  rfl

end

/-! ### The ports that an entry names (R352) -/

/-- May a message leave on a port by its entry: on the primary one while it is UP, or on an alternate with credit? -/
def State.routeCand (s : State) (arr : Option Nat) (m : Msg) (e p : Nat) : Bool :=
  (p == e % 32 && s.portUp p)
    || (m.ar && e.testBit 30 && e.testBit (p + 5) && s.portUp p && arr != some p && 0 < (s.port p).credit m.vl 0)

/-- The ports from the one that the count points at on. -/
def State.routeOrder (s : State) : List Nat := (List.range 24).map (fun i => (s.pitch + i) % 24)

section
variable {s : State} {arr : Option Nat} {m : Msg} {e : Nat}

theorem State.routeBy_eq : s.routeBy arr m e =
    match (s.routeOrder.filter (s.routeCand arr m e)).foldl (s.cheaper m.vl) none with
    | some p => if p = e % 32 then s.enqueue p (1 + b2n m.esc) { m with esc := m.esc || e.testBit 29 }
      else s.enqueue p 0 m
    | none => match (List.range 24).find? (fun p => e.testBit (p + 5) && s.portUp p && arr != some p) with
      | some f => (s.enqueue f (1 + b2n m.esc) m).bump Reg.fabFailover
      | none => s.noRoute m := rfl

theorem State.routeBy_of_best {p : Nat}
    (h : (s.routeOrder.filter (s.routeCand arr m e)).foldl (s.cheaper m.vl) none = some p) :
    s.routeBy arr m e = if p = e % 32 then s.enqueue p (1 + b2n m.esc) { m with esc := m.esc || e.testBit 29 }
      else s.enqueue p 0 m := by
  rw [State.routeBy_eq, h]

theorem State.routeBy_of_failover {f : Nat} (h : s.routeOrder.filter (s.routeCand arr m e) = [])
    (hf : (List.range 24).find? (fun p => e.testBit (p + 5) && s.portUp p && arr != some p) = some f) :
    s.routeBy arr m e = (s.enqueue f (1 + b2n m.esc) m).bump Reg.fabFailover := by
  rw [State.routeBy_eq, h, hf]
  rfl

/-- Without AR the primary port is the only candidate. -/
theorem State.routeCand_of_not_adaptive (har : m.ar = false) (p : Nat) :
    s.routeCand arr m e p = (p == e % 32 && s.portUp p) := by
  rw [State.routeCand, har]
  simp

theorem State.cheaper_self (s : State) (vl p : Nat) : s.cheaper vl (some p) p = some p :=
  if_neg (Nat.lt_irrefl _)

/-- Among candidates that are all the same port, that port is the one of least cost. -/
theorem State.foldl_cheaper_of_all (s : State) (vl : Nat) {p : Nat} : ∀ {l : List Nat}, l ≠ [] → (∀ x ∈ l, x = p) →
    l.foldl (s.cheaper vl) none = some p
  | [], h, _ => absurd rfl h
  | x :: l, _, h => by
    obtain rfl : x = p := h x List.mem_cons_self
    show l.foldl (s.cheaper vl) (some x) = some x
    refine l.foldlRecOn (motive := (· = some x)) _ rfl fun b hb y hy => ?_
    rw [hb, h y (List.mem_cons_of_mem _ hy), State.cheaper_self]

theorem State.mem_routeOrder (s : State) {p : Nat} (hp : p < 24) : p ∈ s.routeOrder :=
  List.mem_map.mpr ⟨(p + 24 - s.pitch % 24) % 24, List.mem_range.mpr (by omega), by omega⟩

/-- Without AR a message waits on the primary port while that is UP. -/
theorem State.routeBy_primary (har : m.ar = false) (hprim : e % 32 < 24) (hup : s.portUp (e % 32) = true) :
    s.routeBy arr m e = s.enqueue (e % 32) (1 + b2n m.esc) { m with esc := m.esc || e.testBit 29 } := by
  refine (State.routeBy_of_best (p := e % 32) ?_).trans (if_pos rfl)
  refine State.foldl_cheaper_of_all s m.vl (List.ne_nil_of_mem (a := e % 32) ?_) fun x hx => ?_
  · rw [List.mem_filter, State.routeCand_of_not_adaptive har, hup]
    exact ⟨s.mem_routeOrder hprim, by simp⟩
  · rw [List.mem_filter, State.routeCand_of_not_adaptive har, Bool.and_eq_true] at hx
    exact eq_of_beq hx.2.1

end

/-! ### The worked example of R352 -/

/-- The entry of the example: primary port 7, alternates 8 and 19. -/
theorem exampleEntry_alternates : ∀ p, p < 24 → (0xC1002007 : Nat).testBit (p + 5) = (p == 8 || p == 19) := by decide

section
variable {s : State} {m : Msg}

theorem State.routeBy_example_adaptive (hvl : m.vl = 0) (hpitch : s.pitch = 0x3B9ACA12) (har : m.ar = true)
    (h7 : s.portUp 7 = true) (h8 : s.portUp 8 = true) (h19 : s.portUp 19 = true) (hlanes7 : (s.port 7).laneCount = 4)
    (hlanes8 : (s.port 8).laneCount = 2) (hlanes19 : (s.port 19).laneCount = 4) (hq7 : (s.port 7).queued 0 = 40)
    (hq8 : (s.port 8).queued 0 = 12) (hq19 : (s.port 19).queued 0 = 24) (hc8 : 0 < (s.port 8).credit 0 0)
    (hc19 : 0 < (s.port 19).credit 0 0) : s.routeBy (some 2) m 0xC1002007 = s.enqueue 19 0 m := by
  have horder : s.routeOrder = [10, 11, 12, 13, 14, 15, 16, 17, 18, 19, 20, 21, 22, 23, 0, 1, 2, 3, 4, 5, 6, 7, 8, 9] := by
    rw [State.routeOrder, hpitch]
    decide
  have hcand : ∀ p ∈ s.routeOrder, s.routeCand (some 2) m 0xC1002007 p = (p == 7 || p == 8 || p == 19) := by
    intro p hp
    obtain ⟨i, -, rfl⟩ := List.mem_map.mp hp
    have hlt : (s.pitch + i) % 24 < 24 := Nat.mod_lt _ (by decide)
    generalize (s.pitch + i) % 24 = p at hlt
    rw [State.routeCand, exampleEntry_alternates p hlt, har, hvl, show Nat.testBit 0xC1002007 30 = true by decide]
    by_cases e7 : p = 7
    · simp [e7, h7]
    by_cases e8 : p = 8
    · simp [e8, h8, hc8]
    by_cases e19 : p = 19
    · simp [e19, h19, hc19]
    rw [beq_false_of_ne e7, beq_false_of_ne e8, beq_false_of_ne e19]
    simp
  have hcost : s.portCost 0 7 = 40 ∧ s.portCost 0 8 = 24 ∧ s.portCost 0 19 = 24 := by
    simp [State.portCost, hlanes7, hlanes8, hlanes19, hq7, hq8, hq19]
  obtain ⟨hcost7, hcost8, hcost19⟩ := hcost
  refine (State.routeBy_of_best (p := 19) ?_).trans (if_neg (by decide))
  rw [List.filter_congr hcand, horder, hvl]
  show s.cheaper 0 (s.cheaper 0 (s.cheaper 0 none 19) 7) 8 = some 19
  simp [State.cheaper, hcost7, hcost8, hcost19]

theorem State.routeBy_example_primary (hesc : m.esc = false) (har : m.ar = false) (h7 : s.portUp 7 = true) :
    s.routeBy (some 2) m 0xC1002007 = s.enqueue 7 1 m := by
  refine (State.routeBy_primary har (by decide) h7).trans ?_
  rw [show (m.esc || Nat.testBit 0xC1002007 29) = m.esc by rw [hesc]; decide, show b2n m.esc = 0 by rw [hesc]; rfl]

theorem State.routeBy_example_failover (hesc : m.esc = false) (har : m.ar = false) (h7 : s.portUp 7 = false)
    (h8 : s.portUp 8 = true) : s.routeBy (some 2) m 0xC1002007 = (s.enqueue 8 1 m).bump Reg.fabFailover := by
  refine (State.routeBy_of_failover (f := 8) ?_ ?_).trans (by rw [hesc]; rfl)
  · refine List.filter_eq_nil_iff.mpr fun p _ => ?_
    rw [State.routeCand_of_not_adaptive har]
    by_cases e7 : p = 7
    · simp [e7, h7]
    · simp [e7]
  · rw [List.find?_range_eq_some]
    refine ⟨by rw [h8]; rfl, by simp, fun j hj => ?_⟩
    rw [exampleEntry_alternates j (by omega)]
    simp
    omega

end

end Sys2Proof.Machine
end

section
/-! PROOF. Credits of a port: returned by link flits, restored by reports, sent to the other end; errors of its lanes; then
messages and credits together (R331, R336, R343). -/

namespace Sys2Proof.Machine

/-! ### Counts of lanes and pools -/

theorem countAt_setCount (m : List (Nat × Nat)) (i j v : Nat) :
    countAt (setCount m i v) j = if j = i then v else countAt m j :=
  tabGet_tabSet ..

/-! ### Credits that come back (R336) -/

section
variable {q : Port} {vl pool : Nat} (n : Nat) (hvl : vl < 7) (hpool : pool < 3)
include hvl hpool

theorem Port.takeCredit_used (j : Nat) : countAt (q.takeCredit vl pool n).used j = if j = laneIdx vl pool then
    countAt q.used j - (n % 256 + 256 - countAt q.returned j % 256) % 256 else countAt q.used j := by
  rw [Port.takeCredit, if_neg (by omega)]
  refine (countAt_setCount ..).trans ?_
  split
  · next hj => rw [hj]
  · rfl

theorem Port.takeCredit_returned : countAt (q.takeCredit vl pool n).returned (laneIdx vl pool) = n % 256 := by
  rw [Port.takeCredit, if_neg (by omega)]
  exact (countAt_setCount ..).trans (if_pos rfl)

end

theorem Port.takeCredit_queue (q : Port) (vl pool n : Nat) : (q.takeCredit vl pool n).queue = q.queue := by
  unfold Port.takeCredit
  split <;> rfl

/-- A port with nothing to send takes a return and sends nothing for it. -/
theorem State.linkFlit_of_empty {s : State} {p : Nat} (hqueue : (s.port p).queue = []) (vl pool n : Nat) :
    ((s.countRx p 1).setPort p (((s.countRx p 1).port p).takeCredit vl pool n)).pump p =
      (s.countRx p 1).setPort p (((s.countRx p 1).port p).takeCredit vl pool n) := by
  refine State.pump_of_empty ?_
  rw [State.port_setPort, if_pos rfl, Port.takeCredit_queue, State.port_countRx, if_pos rfl]
  exact hqueue

theorem State.linkFlit_credits {s : State} {p vl pool : Nat} (n : Nat) (hvl : vl < 7) (hpool : pool < 3)
    (hqueue : (s.port p).queue = []) :
    let t := ((s.countRx p 1).setPort p (((s.countRx p 1).port p).takeCredit vl pool n)).pump p
    let i := laneIdx vl pool
    countAt (t.port p).used i = countAt (s.port p).used i - (n % 256 + 256 - countAt (s.port p).returned i % 256) % 256
      ∧ countAt (t.port p).returned i = n % 256
      ∧ (∀ j, j ≠ i → countAt (t.port p).used j = countAt (s.port p).used j)
      ∧ ∀ d, d ≠ p → t.port d = s.port d := by
  dsimp only
  rw [State.linkFlit_of_empty hqueue, State.port_setPort, if_pos rfl, State.port_countRx, if_pos rfl]
  refine ⟨?_, Port.takeCredit_returned n hvl hpool, fun j hj => ?_, fun d hd => ?_⟩
  · rw [Port.takeCredit_used n hvl hpool, if_pos rfl]
  · rw [Port.takeCredit_used n hvl hpool, if_neg hj]
  · rw [State.port_setPort, if_neg hd, State.port_countRx, if_neg hd]

/-! ### Credits restored (R336) -/

theorem restoreAt_used (counts : List Nat) (q : Port) (i j : Nat) : countAt (restoreAt counts q i).used j =
    if j = i then countAt q.used i - q.lostAt counts i else countAt q.used j := countAt_setCount ..

theorem restoreAt_lostAt (counts : List Nat) (q : Port) {i j : Nat} (h : j ≠ i) :
    (restoreAt counts q i).lostAt counts j = q.lostAt counts j := by
  have hsent : countAt (restoreAt counts q i).sent j = countAt q.sent j := (countAt_setCount ..).trans (if_neg h)
  rw [Port.lostAt, hsent, Port.lostAt]

theorem foldl_restoreAt_queue (counts : List Nat) (l : List Nat) (q : Port) :
    (l.foldl (restoreAt counts) q).queue = q.queue :=
  l.foldlRecOn (motive := fun r : Port => r.queue = q.queue) _ rfl fun _ h _ _ => h

/-- Each lane and pool is restored once, by what it has lost. -/
theorem foldl_restoreAt_used (counts : List Nat) : ∀ (l : List Nat) (q : Port), l.Nodup → ∀ j,
    countAt (l.foldl (restoreAt counts) q).used j =
      if j ∈ l then countAt q.used j - q.lostAt counts j else countAt q.used j
  | [], _, _, j => (if_neg (List.not_mem_nil)).symm
  | i :: l, q, hnodup, j => by
    obtain ⟨hi, hl⟩ := List.nodup_cons.mp hnodup
    rw [List.foldl_cons, foldl_restoreAt_used counts l _ hl j, restoreAt_used]
    by_cases hj : j = i
    · subst hj
      rw [if_neg hi, if_pos rfl, if_pos List.mem_cons_self]
    · rw [if_neg hj, restoreAt_lostAt _ _ hj]
      exact if_congr (by simp [hj]) rfl rfl

section
variable {s : State} {p : Nat} (hp : p < 24) (hup : s.up = true) (hreceives : (s.port p).receives = true)
include hp hup hreceives

theorem exec_linkFlitReceive (vl pool n : Nat) (fec : Fec) : exec (.linkFlitReceive p vl pool n fec) s = .next
    ((((s.countRx p 1).setPort p (((s.countRx p 1).port p).takeCredit vl pool n)).pump p).fecTake p fec) :=
  onUnit_whenOk (decide_eq_true hp) (by rw [hup, hreceives]; rfl) ..

theorem exec_codewordUncorrectable :
    exec (.codewordUncorrectable p) s = .next (s.bump (Reg.fabPortFecUncorr p)) :=
  onUnit_whenOk (decide_eq_true hp) (by rw [hup, hreceives, Bool.or_true]; rfl) ..

theorem exec_creditReport (counts : List Nat) (hqueue : (s.port p).queue = []) : exec (.creditReport p counts) s = .next
    (((s.setPort p ((List.range 21).foldl (restoreAt counts) (s.port p))).bumpBy (Reg.fabPortFlitsLost p)
      (sumNat ((List.range 21).map ((s.port p).lostAt counts)))).countRx p 1) := by
  refine (onUnit_whenOk (decide_eq_true hp) (by rw [hup, hreceives]; rfl) ..).trans (congrArg _ (State.pump_of_empty ?_))
  rw [State.port_countRx, if_pos rfl, State.port_bumpBy, State.port_setPort, if_pos rfl]
  exact (foldl_restoreAt_queue ..).trans hqueue

theorem creditReport_restores (counts : List Nat) (hqueue : (s.port p).queue = []) :
    ∃ t, exec (.creditReport p counts) s = .next t
      ∧ (∀ i, i < 21 → countAt (t.port p).used i = countAt (s.port p).used i - (s.port p).lostAt counts i)
      ∧ (t.reg (Reg.fabPortFlitsLost p)).toNat = min ((s.reg (Reg.fabPortFlitsLost p)).toNat
          + sumNat ((List.range 21).map ((s.port p).lostAt counts))) 0xFFFFFFFF := by
  refine ⟨_, exec_creditReport hp hup hreceives counts hqueue, fun i hi => ?_, ?_⟩
  · rw [State.port_countRx, if_pos rfl, State.port_bumpBy, State.port_setPort, if_pos rfl]
    exact (foldl_restoreAt_used _ _ _ List.nodup_range i).trans (if_pos (List.mem_range.mpr hi))
  · rw [State.reg_countRx _ _ _ (by unfold Reg.fabPortFlitsLost Reg.fabPortRxFlits; omega), State.reg_bumpBy, if_pos rfl,
      State.reg_setPort, BitVec.toNat_ofNat, Nat.mod_eq_of_lt (by omega)]

end

theorem State.sendCredits_out {s : State} {p : Nat} (hreceives : (s.port p).receives = true) : (s.sendCredits p).out =
    s.out ++ [.credits p ((List.range 21).map (fun i => countAt (s.port p).received i % 256)) (s.portId p)] := by
  rw [State.sendCredits, hreceives]
  rfl

/-! ### Lanes with too many symbol errors (R343) -/

/-- Does a lane in use pass FAB_LANE_LIMIT in its interval, with the errors of a report added? -/
def State.laneBad (s : State) (p : Nat) (f : Fec) (i : Nat) : Bool :=
  (s.port p).lanes.testBit i && s.fld Reg.fabLaneLimit 0 24 < (s.symbolsNow p f).getD i 0

theorem State.laneBad_iff (s : State) (p : Nat) (f : Fec) (i : Nat) : s.laneBad p f i = true ↔
    (s.port p).lanes.testBit i = true ∧ s.fld Reg.fabLaneLimit 0 24 < (s.symbolsNow p f).getD i 0 := by
  rw [State.laneBad, Bool.and_eq_true, decide_eq_true_iff]

/-- The first such lane goes down. -/
theorem State.fecTake_of_bad {s : State} {p : Nat} {f : Fec} {i : Nat} (hi : i < 4) (hbad : s.laneBad p f i = true)
    (hfirst : ∀ j, j < i → s.laneBad p f j = false) : ∃ u, s.fecTake p f = State.laneDown u p i := by
  have hfind : (List.range 4).find? (s.laneBad p f) = some i := by
    rw [List.find?_range_eq_some]
    exact ⟨hbad, List.mem_range.mpr hi, fun j hj => by rw [hfirst j hj]; rfl⟩
  unfold State.fecTake
  extract_lets l q s1
  split
  · next j hj =>
    obtain rfl : i = j := Option.some.inj (hfind ▸ hj)
    exact ⟨s1, rfl⟩
  · next hnone => exact nomatch (hfind ▸ hnone : some i = none)

/-! ### Messages and credits -/

/-- A whole message without SOM at its start is dropped, and one with it goes by `route`. -/
theorem headFlitRoute_routes {s : State} {p vl : Nat} (hp : p < 24) (hvl : vl < 7) (hup : s.up = true)
    (hmode : (s.port p).mode = .up) {h : Hdr} (hdisc : isDisc h = false) (hon : vl < 6 → s.fabOn = true) (ar esc : Bool)
    (hops : Nat) (fl : List Flit) (fec : Fec) (bs : List Byte) :
    let r := s.arrivalPool ar esc
    let n := fl.length
    let u := r.2.countRx p n
    let q := fl.foldl (fun k f => k.takeCredit f.crvl f.crpool f.crcnt) (u.port p)
    let i := laneIdx vl r.1
    let w := u.setPort p { q with received := setCount q.received i (countAt q.received i + n) }
    let m : Msg := { h := h, payload := bs, vl := vl, ar := ar, esc := esc, hops := hops % 64,
                     intact := flitsWhole h fl, got := some n, back := some (p, r.1) }
    let done := fun t : State =>
      exec (.headFlitRoute p vl ar esc hops fl fec h bs) s = .next ((t.pump p).fecTake p fec)
    (fl.head?.map (·.som) = some true → done (w.route (some p) m))
      ∧ (fl.head?.map (·.som) ≠ some true → done ((w.giveBack m n).bump Reg.fabIncomplete)) := by
  intro r n u q i w m done
  refine ⟨fun hsom => exec_headFlitRoute hp hvl hup hmode ar esc hops fl fec h bs ((if_pos hsom).trans ?_),
    fun hsom => exec_headFlitRoute hp hvl hup hmode ar esc hops fl fec h bs (if_neg hsom)⟩
  refine State.arrive_of_on hdisc (fun hlow => ?_) p
  have hfab : u.fabOn = s.fabOn := (r.2.countRx_fabOn hp n).trans (s.arrivalPool_fabOn ar esc)
  exact hfab.trans (hon hlow)

/-- Settles O29: arrival, routing, the worked example and the table; then credits and lanes. -/
theorem messagesFollowRoutesAndCredits : Obligations.MessagesFollowRoutesAndCredits := by
  refine ⟨⟨?_, fun s p m => ⟨?_, ?_, ?_, ?_⟩, ?_, ?_⟩, fun s p hp hup hreceives => ⟨?_, ?_, ?_, ?_, ?_⟩⟩
  · intro s p vl hops ar esc fl fec h bs hp hvl hup hmode hdisc hon
    exact headFlitRoute_routes hp hvl hup hmode hdisc hon ar esc hops fl fec bs
  · intro hdst hwhole hkind hunit
    rw [State.route, if_pos hdst]
    exact State.deliver_out hwhole hkind hunit
  · intro hdst hhops
    rw [State.route_of_spent p hdst hhops]
    exact s.toNat_reg_dropped m _ _ _ _ _ (by decide)
  · intro hdst hhops hvalid
    rw [State.route_of_hops p hdst hhops]
    dsimp only
    rw [if_pos (.inl hvalid)]
    exact s.toNat_reg_dropped { m with hops := m.hops - 1 } _ _ _ _ _ (by decide)
  · intro hdst hhops hvalid hport har hprim
    rw [State.route_of_hops p hdst hhops]
    dsimp only
    rw [if_neg (by rw [hvalid, Bool.true_eq_false, false_or]; omega),
      State.routeBy_primary (m := { m with hops := m.hops - 1 }) har hport hprim]
  · intro s m hpitch hvl hesc h8 h19 hlanes8 hlanes19 hq8 hq19 hc8 hc19
    exact ⟨fun h7 hlanes7 hq7 => ⟨fun har => State.routeBy_example_adaptive hvl hpitch har h7 h8 h19 hlanes7 hlanes8
        hlanes19 hq7 hq8 hq19 hc8 hc19, fun har => State.routeBy_example_primary hesc har h7⟩,
      fun h7 har => State.routeBy_example_failover hesc har h7 h8⟩
  · intro s a v hup ha
    exact onUnit_whenOk rfl (by rw [hup, decide_eq_true (by omega)]; rfl) ..
  · exact fun vl pool n fec => ⟨exec_linkFlitReceive hp hup hreceives vl pool n fec, fun hvl hpool hqueue =>
      State.linkFlit_credits n hvl hpool hqueue⟩
  · exact creditReport_restores hp hup hreceives
  · exact State.sendCredits_out hreceives
  · intro f i hi tooMany hbad hfirst
    obtain ⟨u, hu⟩ := State.fecTake_of_bad hi ((s.laneBad_iff p f i).mpr hbad) fun j hj =>
      Bool.eq_false_iff.mpr (mt (s.laneBad_iff p f j).mp (hfirst j hj))
    rw [hu]
    exact u.laneDown_marks p i
  · exact exec_codewordUncorrectable hp hup hreceives

end Sys2Proof.Machine
end

section
/-! PROOF. Discovery at the root, its transactions and those of units, to their ends (R348 to R350, R356, R357). -/

namespace Sys2Proof.Machine

/-! ### Tags (R356) -/

theorem Quiet.fabTxnTimeout : Quiet Reg.fabTxnTimeout := .of_place (by decide) (by decide) (.inl (by decide))

theorem Quiet.fabTxnFail : Quiet Reg.fabTxnFail := .of_place (by decide) (by decide) (.inl (by decide))

theorem Quiet.fabDiscNext : Quiet Reg.fabDiscNext := .of_place (by decide) (by decide) (.inl (by decide))

theorem Quiet.fabAddr : Quiet Reg.fabAddr := .of_place (by decide) (by decide) (.inl (by decide))

theorem State.tagFree_of_seekTag {s : State} {g : Nat} : ∀ {f t : Nat}, s.seekTag f t = some g → s.tagFree g = true
  | 0, _, h => nomatch h
  | f + 1, t, h => by
    rw [State.seekTag] at h
    split at h
    · exact nomatch h
    · split at h
      · next hfree => exact Option.some.inj h ▸ hfree
      · exact State.tagFree_of_seekTag h

/-- A tag that has just been freed is not free. -/
theorem State.tagFree_endTxn (s : State) (tag : Nat) : (s.endTxn tag).tagFree tag = false := by
  have hfreed : alistGet (s.endTxn tag).fab.freed tag = some s.pitch := alistGet_tabPut_self ..
  have hrecent : ¬s.pitch + 2 * (s.endTxn tag).txnTimeout < (s.endTxn tag).pitch :=
    Nat.not_lt.mpr (Nat.le_add_right s.pitch _)
  rw [State.tagFree, hfreed]
  dsimp only
  rw [decide_eq_false hrecent, Bool.and_false]

theorem State.seekTag_congr {s t : State} (h : ∀ g, t.tagFree g = s.tagFree g) : ∀ f g, t.seekTag f g = s.seekTag f g
  | 0, _ => rfl
  | f + 1, g => by rw [State.seekTag, h, State.seekTag_congr h f, State.seekTag]

theorem State.nextTag_congr {s t : State} (htxns : t.fab.txns = s.fab.txns) (hfreed : t.fab.freed = s.fab.freed)
    (hpitch : t.pitch = s.pitch) (hreg : t.reg Reg.fabTxnTimeout = s.reg Reg.fabTxnTimeout) : t.nextTag = s.nextTag := by
  rw [State.nextTag, htxns, hfreed]
  refine State.seekTag_congr (fun g => ?_) _ _
  rw [State.tagFree, htxns, hfreed, hpitch, State.txnTimeout, State.fld, hreg, State.tagFree, State.txnTimeout, State.fld]

/-! ### What a step of discovery keeps -/

/-- `t` is `s` but for what discovery has in hand and what work reports and counts: the modules seen, the address last
taken and the transactions are the same. -/
structure Discussed (s t : State) : Prop where
  seen : t.fab.disc.seen = s.fab.disc.seen
  found : t.fab.disc.found = s.fab.disc.found
  addr : t.fab.disc.addr = s.fab.disc.addr
  txns : t.fab.txns = s.fab.txns
  freed : t.fab.freed = s.fab.freed
  pitch : t.pitch = s.pitch
  reg : ∀ off, Quiet off → t.reg off = s.reg off

theorem Sent.discussed {s t : State} (h : Sent s t) : Discussed s t :=
  ⟨by rw [h.disc], by rw [h.disc], by rw [h.disc], h.txns, h.freed, h.pitch, h.reg⟩

namespace Discussed

theorem refl (s : State) : Discussed s s := (Sent.refl s).discussed

theorem trans {s t u : State} (h : Discussed s t) (g : Discussed t u) : Discussed s u :=
  ⟨g.seen.trans h.seen, g.found.trans h.found, g.addr.trans h.addr, g.txns.trans h.txns, g.freed.trans h.freed,
    g.pitch.trans h.pitch, fun off ho => (g.reg off ho).trans (h.reg off ho)⟩

/-- Discovery's own record, but for the modules it has seen and the address it has taken. -/
theorem setDisc (s : State) {d : Disc} (hseen : d.seen = s.fab.disc.seen) (hfound : d.found = s.fab.disc.found)
    (haddr : d.addr = s.fab.disc.addr) : Discussed s { s with fab := { s.fab with disc := d } } :=
  ⟨hseen, hfound, haddr, rfl, rfl, rfl, fun _ _ => rfl⟩

theorem discRecord (s : State) (n : DiscNode) (port : Nat) (peer : Option Ident) (addr status : Nat) :
    Discussed s (s.discRecord n port peer addr status) := by
  unfold State.discRecord
  extract_lets d base fits s1 rest
  have hsent : Sent s s1 := .ite (.toHost ..) (.refl s)
  exact hsent.discussed.trans (setDisc s1 (by rw [hsent.disc]) (by rw [hsent.disc]) (by rw [hsent.disc]))

theorem discEnd (s : State) (m : DiscMode) (code : Nat) : Discussed s (s.discEnd m code) :=
  (setDisc s (d := { s.fab.disc with mode := m, queue := [], peer := none }) rfl rfl rfl).trans (Sent.report ..).discussed

theorem raiseFlag (s : State) (f : BitVec 4) (e : W32) : Discussed s (s.raiseFlag f e) := by
  have hfab := s.raiseFlag_fab f e
  refine ⟨by rw [hfab], by rw [hfab], by rw [hfab], by rw [hfab], by rw [hfab], ?_, fun off ho =>
    (s.raiseFlag_leaves f e).2 off (ho.ne_of_mem (by decide))⟩
  obtain ⟨k, hflag⟩ | hflag := FlagPlaced.raiseFlag s f e <;> rw [hflag]
  rfl

theorem nextTag {s t : State} (h : Discussed s t) : t.nextTag = s.nextTag :=
  State.nextTag_congr h.txns h.freed h.pitch (h.reg _ .fabTxnTimeout)

end Discussed

/-- `t` is `s` but for a step of discovery: what it keeps, and at most transactions with the tag that `s` gives next. -/
structure Probed (s t : State) : Prop where
  seen : t.fab.disc.seen = s.fab.disc.seen
  found : t.fab.disc.found = s.fab.disc.found
  addr : t.fab.disc.addr = s.fab.disc.addr
  txns : ∀ x ∈ t.fab.txns, x ∈ s.fab.txns ∨ s.nextTag = some x.tag
  reg : ∀ off, Quiet off → t.reg off = s.reg off

namespace Probed

theorem refl (s : State) : Probed s s := ⟨rfl, rfl, rfl, fun _ hx => .inl hx, fun _ _ => rfl⟩

theorem of_discussed {s t u : State} (h : Discussed s t) (g : Probed t u) : Probed s u :=
  ⟨g.seen.trans h.seen, g.found.trans h.found, g.addr.trans h.addr, fun x hx => by
    rw [← h.txns, ← h.nextTag]
    exact g.txns x hx, fun off ho => (g.reg off ho).trans (h.reg off ho)⟩

theorem of_unchanged {s t : State} (h : Discussed s t) : Probed s t := of_discussed h (refl t)

theorem discTxn (s : State) (kind : BitVec 8) (route : List Nat) (payload : List Byte) :
    Probed s (s.discTxn kind route payload) := by
  unfold State.discTxn
  extract_lets d
  split
  · split
    · exact refl s
    · refine of_unchanged (.trans ?_ (Sent.bump _ (by decide)).discussed)
      exact .setDisc s rfl rfl rfl
  · next tag htag =>
    extract_lets h x
    have hsent := Sent.discIssue
      { s with fab := { s.fab with txns := s.fab.txns ++ [x], disc := { d with stalled := false } } } h payload
    refine ⟨by rw [hsent.disc], by rw [hsent.disc], by rw [hsent.disc], fun y hy => ?_, hsent.reg⟩
    rw [hsent.txns, List.mem_append, List.mem_singleton] at hy
    exact hy.imp_right fun hyx => by rw [htag, hyx]

theorem discGo : ∀ (f : Nat) (s : State), Probed s (State.discGo f s)
  | 0, s => refl s
  | f + 1, s => by
    rw [State.discGo]
    extract_lets d
    split
    · exact refl s
    split
    · exact of_unchanged (.discEnd ..)
    split
    · refine of_discussed ?_ (discGo f _)
      exact .setDisc s rfl rfl rfl
    extract_lets route
    split
    · exact discTxn ..
    split
    · refine of_discussed ?_ (discGo f _)
      refine .trans ?_ (.discRecord ..)
      exact .setDisc s rfl rfl rfl
    · exact discTxn ..

theorem discNext (s : State) : Probed s s.discNext := discGo ..

theorem discDead (s : State) : Probed s s.discDead := by
  unfold State.discDead
  extract_lets d
  split
  · exact refl s
  split
  · exact refl s
  · exact of_discussed (.discRecord ..) (discNext _)

end Probed

/-! ### The end of a unit's transaction -/

/-- `t` is `s` but for cells and for registers of cells. -/
structure CellsMoved (s t : State) : Prop where
  fab : t.fab = s.fab
  reg : ∀ off, Quiet off → t.reg off = s.reg off

namespace CellsMoved

theorem refl (s : State) : CellsMoved s s := ⟨rfl, fun _ _ => rfl⟩

theorem trans {s t u : State} (h : CellsMoved s t) (g : CellsMoved t u) : CellsMoved s u :=
  ⟨g.fab.trans h.fab, fun off ho => (g.reg off ho).trans (h.reg off ho)⟩

theorem setCell (s : State) (c : Nat) (k : Cell) : CellsMoved s (s.setCell c k) := ⟨rfl, fun _ _ => rfl⟩

theorem ite {s t u : State} {p : Prop} [Decidable p] (ht : CellsMoved s t) (hu : CellsMoved s u) :
    CellsMoved s (if p then t else u) := iteInduction (fun _ => ht) (fun _ => hu)

theorem failXfer (s : State) (c h reason : Nat) : CellsMoved s (s.failXfer c h reason) := by
  unfold State.failXfer
  extract_lets k
  split
  · refine (setCell ..).trans ⟨rfl, fun off ho => State.reg_bump_of_ne _ _ ?_⟩
    have hbelow := ho.below
    unfold Reg.cellXferFail
    omega
  · exact refl s

theorem releaseItem (s : State) (c k : Nat) (t : Stream) : CellsMoved s (s.releaseItem c k t) :=
  .ite (setCell ..) (setCell ..)

theorem settleStream (c k : Nat) : ∀ (f : Nat) (s : State), CellsMoved s (State.settleStream c k f s)
  | 0, s => refl s
  | f + 1, s => by
    rw [State.settleStream]
    split
    · exact refl s
    · exact .ite (refl s) (.ite (setCell ..) (.ite ((releaseItem ..).trans (settleStream c k f _)) (refl s)))

theorem settleKey (s : State) (c h : Nat) : CellsMoved s (s.settleKey c h) := .ite (refl s) (settleStream ..)

theorem probed {s t : State} (h : CellsMoved s t) : Probed s t :=
  ⟨by rw [h.fab], by rw [h.fab], by rw [h.fab], fun x hx => .inl (by rwa [h.fab] at hx), h.reg⟩

theorem txnDead (s : State) (x : Txn) : CellsMoved s (s.txnDead x) := by
  unfold State.txnDead
  split
  · split
    · exact .ite ((failXfer ..).trans (settleKey ..)) (refl s)
    · exact refl s
  · extract_lets k
    split
    · exact setCell ..
    · exact refl s
  · exact refl s

end CellsMoved

/-! ### A request without a response (R357) -/

section
variable {s : State} {tag : Nat} {x : Txn} (hx : s.fab.txns.find? (fun y => y.tag == tag) = some x)
include hx

theorem exec_txnTimeout (hup : s.up = true) : exec (.txnTimeout tag) s = .next (if x.sentAt + s.txnTimeout ≤ s.pitch then
    (if x.retries < s.fld Reg.fabTxnRetries 0 4 then s.retryTxn x else s.failTxn x) else s) := by
  have harm : exec (.txnTimeout tag) s = .next (match s.fab.txns.find? (fun x => x.tag == tag) with
    | none => s
    | some t => whenOk (s.up && t.sentAt + s.txnTimeout ≤ s.pitch) s
        (if t.retries < s.fld Reg.fabTxnRetries 0 4 then s.retryTxn t else s.failTxn t)) := rfl
  rw [harm, hx]
  dsimp only
  rw [hup, Bool.true_and, whenOk]
  by_cases hdue : x.sentAt + s.txnTimeout ≤ s.pitch <;> simp [hdue]

theorem State.retryTxn_mem : ∃ y, y ∈ (s.retryTxn x).fab.txns ∧ y.tag = tag ∧ y.owner = x.owner
    ∧ y.retries = x.retries + 1 ∧ y.sentAt = s.pitch ∧ y.msg.h = setHdrFlag x.msg.h 8 true := by
  have htag : x.tag = tag := eq_of_beq (List.find?_some hx :)
  unfold State.retryTxn
  extract_lets h m y fab s1
  refine ⟨y, ?_, htag, rfl, rfl, rfl, rfl⟩
  have hmem : y ∈ s1.fab.txns := List.mem_map.mpr ⟨x, List.mem_of_find?_eq_some hx, if_pos rfl⟩
  split
  · rwa [(Sent.discIssue ..).txns]
  · rwa [State.issueReq, (Sent.issueMsg ..).txns]
  · rwa [State.issueReq, (Sent.issueMsg ..).txns]

end

/-- What a transaction leaves that fails: it has ended, is counted and reported, and its epoch has a flag. -/
theorem State.failTxn_eq (s : State) (x : Txn) : ∃ u : State, s.failTxn x =
      (match x.owner with | .disc => u.discDead | .xfer _ _ => u.txnDead x | .widen _ _ => u.txnDead x)
    ∧ Discussed ((s.endTxn x.tag).bump Reg.fabTxnFail) u := by
  unfold State.failTxn
  extract_lets unit s1 s2
  have hreported : Discussed ((s.endTxn x.tag).bump Reg.fabTxnFail) s1 := (Sent.reportLim ..).discussed
  exact ⟨s2, rfl, hreported.trans (iteInduction (fun _ => .raiseFlag ..) fun _ => .refl s1)⟩

/-- A transaction that fails ends: its tag was freed at this tick, so that not even discovery takes it again. -/
theorem State.failTxn_ends (s : State) (x : Txn) : (∀ y ∈ (s.failTxn x).fab.txns, y.tag ≠ x.tag)
    ∧ (s.failTxn x).reg Reg.fabTxnFail = (s.bump Reg.fabTxnFail).reg Reg.fabTxnFail := by
  obtain ⟨u, hfail, hu⟩ := s.failTxn_eq x
  have hended : ∀ y ∈ u.fab.txns, y.tag ≠ x.tag := fun y hy => by
    rw [hu.txns] at hy
    exact bne_iff_ne.mp (List.mem_filter.mp hy).2
  have hnext : ∀ g, u.nextTag = some g → g ≠ x.tag := by
    rintro g hg rfl
    have hcounted : ((s.endTxn x.tag).bump Reg.fabTxnFail).nextTag = (s.endTxn x.tag).nextTag :=
      State.nextTag_congr rfl rfl rfl (State.reg_bump_of_ne _ _ (by decide))
    rw [hu.nextTag, hcounted] at hg
    have hfree := State.tagFree_of_seekTag hg
    rw [State.tagFree_endTxn] at hfree
    exact Bool.false_ne_true hfree
  have hdone : ∀ t, Probed u t → (∀ y ∈ t.fab.txns, y.tag ≠ x.tag)
      ∧ t.reg Reg.fabTxnFail = (s.bump Reg.fabTxnFail).reg Reg.fabTxnFail := fun t ht =>
    ⟨fun y hy => (ht.txns y hy).elim (hended y) (hnext _), (ht.reg _ .fabTxnFail).trans (hu.reg _ .fabTxnFail)⟩
  rw [hfail]
  split
  · exact hdone _ (.discDead u)
  · exact hdone _ (CellsMoved.txnDead u x).probed
  · exact hdone _ (CellsMoved.txnDead u x).probed

/-- Settles O30: the transaction is sent again with one retry more, or ends with its tag freed at this tick. -/
theorem transactionsRetryAndFail : Obligations.TransactionsRetryAndFail := by
  intro s tag x hup hx _
  have hexec := exec_txnTimeout hx hup
  refine ⟨fun hearly => ?_, fun hdue => ⟨fun hretry => ?_, fun hspent => ?_⟩⟩
  · rw [hexec, if_neg (by omega)]
  · obtain ⟨y, hy⟩ := State.retryTxn_mem hx
    exact ⟨_, y, by rw [hexec, if_pos hdue, if_pos hretry], hy⟩
  · obtain rfl : x.tag = tag := eq_of_beq (List.find?_some hx :)
    obtain ⟨htags, hcount⟩ := s.failTxn_ends x
    exact ⟨_, by rw [hexec, if_pos hdue, if_neg (by omega)], htags, by rw [hcount, State.toNat_reg_bump]⟩

end Sys2Proof.Machine
end

section
/-! PROOF. Discovery: starting and aborting it, probes, new modules and assigned addresses (R348 to R350). -/

namespace Sys2Proof.Machine

/-! ### Starting and aborting discovery (R348, R364) -/

theorem State.recordPeers_ports (s : State) : ∃ ports, s.recordPeers = { s with fab := { s.fab with ports := ports } } := by
  refine (List.range 24).foldlRecOn (motive := fun t : State => ∃ ports, t = { s with fab := { s.fab with ports := ports } })
    _ ⟨_, rfl⟩ ?_
  rintro _ ⟨ports, rfl⟩ p -
  dsimp only
  split <;> exact ⟨_, rfl⟩

theorem State.reg_recordPeers (s : State) (off : Nat) : s.recordPeers.reg off = s.reg off := by
  obtain ⟨ports, hports⟩ := s.recordPeers_ports
  rw [hports]
  rfl

theorem State.discNext_eq (s : State) :
    s.discNext = State.discGo (sumNat (s.fab.disc.queue.map (fun n => n.ports.length + 1)) + 1) s := rfl

section
variable {s : State} (hmode : s.fab.disc.mode = .running) (hnone : s.fab.txns.any (fun x => x.owner == .disc) = false)
include hmode hnone

/-- With its last module done with, discovery is done. -/
theorem State.discGo_of_last (f : Nat) {n : DiscNode} (hqueue : s.fab.disc.queue = [n]) (hports : n.ports = []) :
    State.discGo (f + 1 + 1) s =
      ({ s with fab := { s.fab with disc := { s.fab.disc with queue := [] } } } : State).discEnd .done 2 := by
  rw [State.discGo]
  dsimp only
  rw [if_neg (by rw [hmode, hnone]; decide), hqueue]
  dsimp only
  rw [hports]
  dsimp only
  rw [State.discGo]
  dsimp only
  rw [if_neg (by rw [hmode, hnone]; decide)]

/-- The first port of the root that is not probed yet. -/
theorem State.discGo_of_root (f : Nat) {n : DiscNode} {ns : List DiscNode} {p : Nat} {ps : List Nat}
    (hqueue : s.fab.disc.queue = n :: ns) (hports : n.ports = p :: ps) (hroute : n.route = [])
    (hpeer : s.fab.disc.peer = none) : State.discGo (f + 1) s = s.discTxn 0x0A [p] [] := by
  rw [State.discGo]
  dsimp only
  rw [if_neg (by rw [hmode, hnone]; decide), hqueue]
  dsimp only
  rw [hports]
  dsimp only
  rw [hpeer, hroute]
  rfl

end

/-- A request of discovery that finds a tag is a transaction. -/
theorem State.discTxn_of_tag {s : State} {tag : Nat} (htag : s.nextTag = some tag) (kind : BitVec 8) (route : List Nat)
    (payload : List Byte) : ∃ h x d, s.discTxn kind route payload =
      ({ s with fab := { s.fab with txns := s.fab.txns ++ [x], disc := d } } : State).discIssue h payload
    ∧ d.mode = s.fab.disc.mode ∧ x.owner = .disc ∧ x.tag = tag ∧ x.msg.h.kind = kind ∧ x.msg.h.arg = routeArg route 0 := by
  rw [State.discTxn, htag]
  exact ⟨_, _, _, rfl, rfl, rfl, rfl, rfl, rfl⟩

/-- Discovery goes on as it was. -/
theorem State.discTxn_starts {s : State} {tag : Nat} (htag : s.nextTag = some tag) (kind : BitVec 8) (route : List Nat)
    (payload : List Byte) : (s.discTxn kind route payload).fab.disc.mode = s.fab.disc.mode
      ∧ ∃ x ∈ (s.discTxn kind route payload).fab.txns, x.owner = .disc ∧ x.tag = tag ∧ x.msg.h.kind = kind
        ∧ x.msg.h.arg = routeArg route 0 := by
  obtain ⟨h, x, d, heq, hmode, hx⟩ := State.discTxn_of_tag htag kind route payload
  have hsent := Sent.discIssue { s with fab := { s.fab with txns := s.fab.txns ++ [x], disc := d } } h payload
  rw [heq, hsent.disc, hsent.txns]
  exact ⟨hmode, x, List.mem_append_right _ List.mem_cons_self, hx⟩

/-- Transactions that are ended one by one are gone. -/
theorem mem_foldl_endTxn {y : Txn} : ∀ {l : List Txn} {s : State},
    y ∈ (l.foldl (fun (t : State) (x : Txn) => t.endTxn x.tag) s).fab.txns → y ∈ s.fab.txns ∧ ∀ x ∈ l, y.tag ≠ x.tag
  | [], _, h => ⟨h, fun _ hx => absurd hx List.not_mem_nil⟩
  | x :: l, s, h => by
    obtain ⟨hmem, hl⟩ := mem_foldl_endTxn (s := s.endTxn x.tag) h
    obtain ⟨hs, hx⟩ := List.mem_filter.mp hmem
    exact ⟨hs, List.forall_mem_cons.mpr ⟨bne_iff_ne.mp hx, hl⟩⟩

/-- The root as discovery starts: itself at depth 0, with its ports that are UP. -/
def State.rootDisc (s : State) : Disc :=
  { mode := .running, queue := [⟨s.ownAddr, s.fab.serial, 0, [], (List.range 24).filter s.portUp⟩], seen := [s.fab.serial],
    found := 1 }

/-- A module at the start of discovery, with the peers of its ports recorded. -/
def State.rooted (s : State) (ports : List (Nat × Port)) : State :=
  { s with fab := { s.fab with ports := ports, disc := s.rootDisc } }

section
variable {s : State} (hup : s.up = true)
include hup

theorem exec_discStart (hmode : s.fab.disc.mode ≠ .running) : ∃ ports,
    exec .discStart s = .next (s.rooted ports).discNext := by
  obtain ⟨ports, hports⟩ := s.recordPeers_ports
  refine ⟨ports, (onUnit_whenOk (unit := true) rfl (by rw [hup, bne_iff_ne.mpr hmode]; rfl) ..).trans ?_⟩
  rw [hports]
  rfl

theorem discStart_without_ports (hmode : s.fab.disc.mode ≠ .running) (hnone : ∀ x ∈ s.fab.txns, x.owner ≠ .disc)
    (hports : (List.range 24).filter s.portUp = []) : ∃ t, exec .discStart s = .next t ∧ t.fab.disc.mode = .done
      ∧ t.fab.disc.found = 1 ∧ t.fab.disc.records = 0 := by
  obtain ⟨ports, hexec⟩ := exec_discStart hup hmode
  have hany : s.fab.txns.any (fun x => x.owner == .disc) = false :=
    List.any_eq_false.mpr fun x hx => mt eq_of_beq (hnone x hx)
  refine ⟨_, hexec, ?_⟩
  have hfuel : sumNat ((s.rooted ports).fab.disc.queue.map (fun n => n.ports.length + 1)) = 0 + 1 := by
    show sumNat [((List.range 24).filter s.portUp).length + 1] = 1
    rw [hports]
    rfl
  rw [State.discNext_eq, hfuel, State.discGo_of_last (s := s.rooted ports) rfl hany 0 rfl hports, State.discEnd,
    (Sent.report ..).disc]
  exact ⟨rfl, rfl, rfl⟩

theorem discStart_with_port (hmode : s.fab.disc.mode ≠ .running) (hnone : ∀ x ∈ s.fab.txns, x.owner ≠ .disc)
    {p tag : Nat} {ps : List Nat} (hports : (List.range 24).filter s.portUp = p :: ps) (htag : s.nextTag = some tag) :
    ∃ t x, exec .discStart s = .next t ∧ t.fab.disc.mode = .running ∧ x ∈ t.fab.txns ∧ x.owner = .disc
      ∧ x.tag = tag ∧ x.msg.h.kind = 0x0A ∧ x.msg.h.arg = routeArg [p] 0 := by
  obtain ⟨ports, hexec⟩ := exec_discStart hup hmode
  have hany : s.fab.txns.any (fun x => x.owner == .disc) = false :=
    List.any_eq_false.mpr fun x hx => mt eq_of_beq (hnone x hx)
  rw [State.discNext_eq, State.discGo_of_root (s := s.rooted ports) rfl hany _ rfl hports rfl rfl] at hexec
  have hnext : (s.rooted ports).nextTag = some tag :=
    (State.nextTag_congr (s := s) (t := s.rooted ports) rfl rfl rfl rfl).trans htag
  obtain ⟨hrunning, x, hx, hrest⟩ := State.discTxn_starts hnext 0x0A [p] []
  exact ⟨_, x, hexec, hrunning, hx, hrest⟩

theorem discAbort_ends (hmode : s.fab.disc.mode = .running) : ∃ t, exec .discAbort s = .next t
    ∧ t.fab.disc.mode = .failed ∧ ∀ x ∈ t.fab.txns, x.owner ≠ .disc := by
  refine ⟨_, onUnit_whenOk (unit := true) rfl (by rw [hup, hmode]; rfl) .., ?_, fun x hx howner => ?_⟩
  · rw [State.discEnd, (Sent.report ..).disc]
  · rw [(Discussed.discEnd ..).txns] at hx
    obtain ⟨hmem, hended⟩ := mem_foldl_endTxn hx
    exact hended x (List.mem_filter.mpr ⟨hmem, beq_iff_eq.mpr howner⟩) rfl

/-! ### Probes and what answers them (R348, R349) -/

theorem exec_discProbe {p : Nat} (hp : p < 24) (hops : Nat) {h : Hdr} (hkind : h.kind = 0x0A) (hresp : h.resp = false) :
    exec (.discProbe p hops h) s = .next (if routeDone h = true then s.discAnswer p h 0x0B (identBytes (s.ident p))
      else s.discForward p (discMsg hops h [])) := by
  refine (onUnit_whenOk (decide_eq_true hp) (by rw [hup, hkind]; rfl) ..).trans ?_
  rw [State.discHere, hresp]
  rfl

/-- An answer at the root ends its transaction, and the peer it names is taken. -/
theorem exec_discIdent {p : Nat} (hp : p < 24) (hops : Nat) {h : Hdr} (peer : Ident) {x : Txn} (hkind : h.kind = 0x0B)
    (hvalid : s.fld Reg.fabAddr 31 1 = 1) (hdst : h.dst.toNat = s.ownAddr) (hx : s.discTxnOf h = some x) :
    exec (.discIdent p hops h peer) s = .next ((s.endTxn x.tag).discFound peer).discNext := by
  refine (onUnit_whenOk (decide_eq_true hp) (by rw [hup, hkind]; rfl) ..).trans ?_
  have hhere : s.discHere { h with resp := true } = true := by
    rw [State.discHere, if_pos rfl, hvalid, beq_iff_eq.mpr hdst]
    rfl
  rw [if_pos hhere, hx]

end

section
variable {s : State} {n : DiscNode} {ns : List DiscNode} {p : Nat} {ps : List Nat} (hqueue : s.fab.disc.queue = n :: ns)
  (hports : n.ports = p :: ps) (peer : Ident)
include hqueue hports

theorem State.discFound_of_seen (hseen : peer.serial ∈ s.fab.disc.seen) :
    s.discFound peer = s.discRecord n p (some peer) peer.addr.toNat 1 := by
  rw [State.discFound]
  dsimp only
  rw [hqueue]
  dsimp only
  rw [hports]
  exact if_pos (List.contains_iff_mem.mpr hseen)

/-- A new module takes FAB_DISC_NEXT, which goes up by one. -/
theorem State.discFound_of_new (hnew : peer.serial ∉ s.fab.disc.seen) : s.discFound peer =
    ({ s with fab := { s.fab with disc := { s.fab.disc with
        seen := s.fab.disc.seen ++ [peer.serial], found := s.fab.disc.found + 1, peer := some peer,
        addr := s.fld Reg.fabDiscNext 0 17 } } } : State).setFld Reg.fabDiscNext 0 17
      ((s.fld Reg.fabDiscNext 0 17 + 1) % 2 ^ 17) := by
  rw [State.discFound]
  dsimp only
  rw [hqueue]
  dsimp only
  rw [hports]
  exact if_neg (mt List.contains_iff_mem.mp hnew)

end

/-! ### Addresses that are assigned (R350) -/

/-- A module that answers keeps its registers. -/
theorem Sent.discAnswer (s : State) (p : Nat) (h : Hdr) (kind : BitVec 8) (payload : List Byte) {off : Nat} (ho : Quiet off) :
    (s.discAnswer p h kind payload).reg off = s.reg off := (Sent.discOut ..).reg off ho

theorem exec_discAssign {s : State} {p : Nat} (hup : s.up = true) (hp : p < 24) (hops : Nat) {h : Hdr} (bs : List Byte)
    (hkind : h.kind = 0x0C) (hresp : h.resp = false) (hdone : routeDone h = true) :
    exec (.discAssign p hops h bs) s = .next
      (let r := s.takeAddr h (leNat (bs.take 4) % 2 ^ 17)
       r.2.discAnswer p h 0x0C (leBytes 4 r.2.ownAddr ++ leBytes 4 r.1 ++ List.replicate 56 0)) := by
  refine (onUnit_whenOk (decide_eq_true hp) (by rw [hup, hkind]; rfl) ..).trans ?_
  have hhere : s.discHere h = true := by rw [State.discHere, hresp, if_neg Bool.false_ne_true, hdone]
  rw [hhere, if_neg (by decide), if_neg (by rw [hresp]; decide)]

theorem State.takeAddr_of_idle {s : State} (hidle : s.step.mode = .idle) (h : Hdr) {a : Nat} (ha : a < 2 ^ 17) :
    (s.takeAddr h a).2.ownAddr = a ∧ (s.takeAddr h a).2.fld Reg.fabAddr 31 1 = 1 := by
  unfold State.takeAddr
  extract_lets had s1
  split
  · next hsame =>
    obtain ⟨hvalid, haddr, -⟩ := hsame
    exact ⟨haddr, eq_of_beq hvalid⟩
  · have hreg : (s1.recordPeers.report 0x040A unitMgmt (a + 2 ^ 17 * b2n had)).reg Reg.fabAddr = s1.reg Reg.fabAddr :=
      ((Sent.report ..).reg _ .fabAddr).trans (s1.reg_recordPeers _)
    have haddr : s1.fld Reg.fabAddr 0 17 = a := by
      rw [State.fld_setFld_beside _ _ _ (by decide), State.fld_setFld_self _ _ _ (by decide), Nat.mod_eq_of_lt ha]
    have hvalid : s1.fld Reg.fabAddr 31 1 = 1 := State.fld_setFld_self _ _ _ (by decide)
    rw [State.ownAddr, State.fld, State.fld, hreg]
    exact ⟨haddr, hvalid⟩

theorem State.takeAddr_of_step {s : State} (hstep : s.step.mode ≠ .idle) (h : Hdr) {a : Nat} (hother : s.ownAddr ≠ a) :
    (s.takeAddr h a).2 = s := by
  unfold State.takeAddr
  extract_lets had s1
  rw [if_neg fun hsame => hother hsame.2.1, if_neg hstep]

/-- Settles O32: starting and aborting, then each kind of discovery message where it ends. -/
theorem discoveryProbesAndAssigns : Obligations.DiscoveryProbesAndAssigns := by
  intro s hup
  refine ⟨fun hmode hnone => ⟨discStart_without_ports hup hmode hnone, fun p ps tag hports htag =>
    discStart_with_port hup hmode hnone hports htag⟩, discAbort_ends hup, fun p hops h hp hkind hresp => ?_,
    fun p hops h peer x n ns a as hp hkind hvalid hdst hx hqueue hports => ?_,
    fun p hops h bs hp hkind hresp hdone => ?_⟩
  · have hexec := exec_discProbe hup hp hops hkind hresp
    exact ⟨fun hdone => by rw [hexec, if_pos hdone], fun hdone => by rw [hexec, if_neg (by rw [hdone]; decide)]⟩
  · have hexec := exec_discIdent hup hp hops peer hkind hvalid hdst hx
    refine ⟨fun hnew => ⟨_, hexec, ?_⟩, fun hseen => ⟨_, hexec, ?_⟩⟩
    · have hnext := Probed.discNext ((s.endTxn x.tag).discFound peer)
      rw [State.discFound_of_new (s := s.endTxn x.tag) hqueue hports peer hnew] at hnext ⊢
      refine ⟨hnext.seen, hnext.found, hnext.addr, ?_⟩
      rw [State.fld, hnext.reg _ .fabDiscNext]
      refine (State.fld_setFld_self _ _ _ (by decide)).trans (Nat.mod_mod ..)
    · have hnext := Probed.of_discussed (.discRecord (s.endTxn x.tag) n a (some peer) peer.addr.toNat 1) (.discNext _)
      rw [State.discFound_of_seen (s := s.endTxn x.tag) hqueue hports peer hseen]
      refine ⟨hnext.seen, ?_⟩
      rw [State.fld, hnext.reg _ .fabDiscNext]
      rfl
  · have hexec := exec_discAssign hup hp hops bs hkind hresp hdone
    refine ⟨fun hidle => ⟨_, hexec, ?_⟩, fun hstep hother => ⟨_, hexec, ?_⟩⟩
    · dsimp only
      rw [State.ownAddr, State.fld, State.fld, Sent.discAnswer _ _ _ _ _ .fabAddr]
      exact State.takeAddr_of_idle hidle h (Nat.mod_lt _ (by decide))
    · dsimp only
      rw [Sent.discAnswer _ _ _ _ _ .fabAddr, State.takeAddr_of_step hstep h hother]

end Sys2Proof.Machine
end

section
/-! PROOF. What touches, reads and writes of the pool leave of channel contexts, and a context's words after one of them is
written (R297, R318, R359). -/

namespace Sys2Proof.Machine

/-! ### What leaves channel contexts where they are -/

/-- A page's entry without its LOST mark and its time of use. -/
def DirEntry.placed (e : DirEntry) : DirEntry := { e with lost := false, lastuse := 0 }

/-- `t` is `s` as far as channel contexts are concerned, but for the bytes of HBM: the pages and the registers that they are
reached by, what is beside their records, and the messages that wait for them. -/
structure CtxKept (s t : State) : Prop where
  pitch : t.pitch = s.pitch
  chan : ∀ c, t.chan c = s.chan c
  outbox : ∀ d, (t.cu d).outbox = (s.cu d).outbox
  merges : t.pool.merges = s.pool.merges
  evicts : t.pool.evicts = s.pool.evicts
  entry : ∀ p, (t.dir p).map DirEntry.placed = (s.dir p).map DirEntry.placed
  reg : ∀ off, Quiet off → t.reg off = s.reg off

namespace CtxKept

theorem refl (s : State) : CtxKept s s :=
  ⟨rfl, fun _ => rfl, fun _ => rfl, rfl, rfl, fun _ => rfl, fun _ _ => rfl⟩

theorem trans {s t u : State} (h : CtxKept s t) (g : CtxKept t u) : CtxKept s u :=
  ⟨g.pitch.trans h.pitch, fun c => (g.chan c).trans (h.chan c), fun d => (g.outbox d).trans (h.outbox d),
    g.merges.trans h.merges, g.evicts.trans h.evicts, fun p => (g.entry p).trans (h.entry p),
    fun off ho => (g.reg off ho).trans (h.reg off ho)⟩

theorem ite {s t u : State} {p : Prop} [Decidable p] (ht : CtxKept s t) (hu : CtxKept s u) :
    CtxKept s (if p then t else u) := iteInduction (fun _ => ht) (fun _ => hu)

theorem foldl {α : Type} {f : State → α → State} (hf : ∀ s a, CtxKept s (f s a)) (l : List α) (s : State) :
    CtxKept s (l.foldl f s) := l.foldlRecOn f (refl s) fun t h a _ => h.trans (hf t a)

/-- The parts of a state that channel contexts do not lie in. -/
theorem of_eq {s t : State} (hpitch : t.pitch = s.pitch) (hchans : t.fab.chans = s.fab.chans) (hcus : t.cus = s.cus)
    (hmerges : t.pool.merges = s.pool.merges) (hevicts : t.pool.evicts = s.pool.evicts) (hdir : t.pool.dir = s.pool.dir)
    (hreg : ∀ off, Quiet off → t.reg off = s.reg off) : CtxKept s t :=
  ⟨hpitch, fun c => by rw [State.chan, hchans, State.chan], fun d => by rw [State.cu, hcus, State.cu], hmerges, hevicts,
    fun p => by rw [State.dir, hdir, State.dir], hreg⟩

theorem of_sent {s t : State} (h : Sent s t) : CtxKept s t :=
  of_eq h.pitch (by rw [h.chans]) h.cus (by rw [h.pool]) (by rw [h.pool]) (by rw [h.pool]) h.reg

theorem setCell (s : State) (c : Nat) (k : Cell) : CtxKept s (s.setCell c k) :=
  of_eq rfl rfl rfl rfl rfl rfl fun _ _ => rfl

theorem raiseFlag (s : State) (f : BitVec 4) (e : W32) : CtxKept s (s.raiseFlag f e) := by
  obtain ⟨k, hflag⟩ | hflag := FlagPlaced.raiseFlag s f e <;> rw [hflag]
  · exact of_eq rfl rfl rfl rfl rfl rfl fun _ _ => rfl
  · exact of_sent (.bump s (by decide))

theorem clampPut (s : State) (x : RingRec) : CtxKept s (s.clampPut x) :=
  of_sent (.of_reported (.clampPut s x) fun _ ho => State.reg_clampPut ho.clamp ho.evt ..)

theorem countItem (s : State) (i : ClampItem) : CtxKept s (s.countItem i) := by
  unfold State.countItem
  split
  · exact of_sent (.bump s (by decide))
  · exact of_sent (.bump s (by decide))

theorem clampRead (s : State) (kind ident head tail source : Nat) (items : List ClampItem) :
    CtxKept s (s.clampRead kind ident head tail source items) := by
  unfold State.clampRead
  extract_lets torn s1 s2 key
  have hcount : CtxKept s s2 :=
    .trans (.ite (of_sent ((Sent.bump _ (by decide)).trans (.reportLim ..))) (refl s)) (foldl countItem ..)
  refine .ite (refl s) (hcount.trans (.ite (refl s2) (.trans ?_ (foldl (fun t i => clampPut t _) ..))))
  have hkey : ∀ seen, CtxKept s2 { s2 with host := { s2.host with seen := seen } } := fun _ =>
    of_eq rfl rfl rfl rfl rfl rfl fun _ _ => rfl
  refine .ite (.trans ?_ (clampPut ..)) ?_
  · exact hkey _
  · exact hkey _

/-! ### Reads of pages -/

/-- A page whose LOST mark or time of use is written again. -/
theorem setDir {s : State} {p : Nat} {e : DirEntry} (hdir : s.dir p = some e) {e' : DirEntry} (he : e'.placed = e.placed) :
    CtxKept s (s.setDir p e') := by
  refine ⟨rfl, fun _ => rfl, fun _ => rfl, rfl, rfl, fun q => ?_, fun _ _ => rfl⟩
  have hp : p < poolPages := by
    by_contra hnot
    rw [State.dir, if_neg hnot] at hdir
    exact nomatch hdir
  by_cases hq : q = p
  · subst hq
    have hnew : (s.setDir q e').dir q = some e' := (if_pos hp).trans (alistGet_tabPut_self ..)
    rw [hnew, hdir]
    exact congrArg some he
  · have hother : (s.setDir p e').dir q = s.dir q := if_congr Iff.rfl (alistGet_tabPut_of_ne hq ..) rfl
    rw [hother]

theorem usePage (s : State) (p : Nat) : CtxKept s (s.usePage p) := by
  unfold State.usePage
  split
  · next e hdir => exact setDir hdir rfl
  · exact refl s

theorem hbmCorrect (s : State) (i : Nat) : CtxKept s (s.hbmCorrect i) := by
  have hcount : ∀ words (p : Pool), p.merges = s.pool.merges → p.evicts = s.pool.evicts → p.dir = s.pool.dir →
      CtxKept s { s.bump Reg.poolCe with hbmCe := words, pool := p } := fun _ _ hmerges hevicts hdir =>
    (of_sent (.bump s (off := Reg.poolCe) (by decide))).trans (of_eq rfl rfl rfl hmerges hevicts hdir fun _ _ => rfl)
  unfold State.hbmCorrect
  dsimp only
  split
  · refine .trans ?_ (of_sent (.reportLim ..))
    exact hcount _ _ rfl rfl rfl
  · exact hcount _ _ rfl rfl rfl

theorem loseShard (s : State) (n p : Nat) : CtxKept s (s.loseShard n p) := by
  unfold State.loseShard
  split
  · next e hdir =>
    refine .trans ?_ (of_sent (.report ..))
    exact setDir hdir rfl
  · exact refl s

theorem hbmUe (scrub : Bool) (committed : Option Nat) (s : State) (i : Nat) : CtxKept s (s.hbmUe scrub committed i) := by
  unfold State.hbmUe
  extract_lets f n flag s1 s2
  have hread : CtxKept s s2 :=
    (of_sent ((Sent.bump s (by decide)).trans (.report ..))).trans (.ite (raiseFlag ..) (refl s1))
  split
  · exact hread.trans (.ite (.trans (.ite (refl s2) (.ite (refl s2) (raiseFlag ..))) (loseShard ..)) (refl s2))
  · exact hread

theorem pageTouch (s : State) (fly : Bool) (p : Nat) (e : DirEntry) (off n : Nat) :
    CtxKept s (s.pageTouch fly p e off n) :=
  .ite (refl s) ((foldl hbmCorrect ..).trans (foldl (fun t _ => hbmUe false _ t _) ..))

theorem lostTouch (s : State) (e : DirEntry) : CtxKept s (s.lostTouch e) := .ite (raiseFlag ..) (refl s)

theorem unitRead (s : State) (code : Nat) (fly : Bool) (a n : Nat) : CtxKept s (s.unitRead code fly a n).2 := by
  unfold State.unitRead
  dsimp only
  split
  · split
    · exact ((pageTouch ..).trans (lostTouch ..)).trans (usePage ..)
    · exact .ite (refl s) (of_sent (.reportLim ..))
  · exact of_sent (.reportLim ..)

theorem partialTouch (s : State) (p : Nat) (e : DirEntry) (off n : Nat) : CtxKept s (s.partialTouch p e off n) := by
  refine .ite (refl s) ?_
  have hfirst : CtxKept s (if off % 32 = 0 then s else s.pageTouch false p e off 1) := .ite (refl s) (pageTouch ..)
  exact .ite hfirst (hfirst.trans (pageTouch ..))

theorem frameWrite (s : State) (f off : Nat) (bs : List Byte) : CtxKept s (s.frameWrite f off bs) :=
  of_eq rfl rfl rfl rfl rfl rfl fun _ _ => rfl

theorem spadWrite (s : State) (a : Nat) (bs : List Byte) : CtxKept s (s.spadWrite a bs) := by
  have hregs : ∀ off, Quiet off → (s.spadWrite a bs).reg off = s.reg off := fun off ho =>
    State.spadWrite_reg_below ho.below s a bs
  unfold State.spadWrite at hregs ⊢
  extract_lets t keep
  have hrace : t = _ := s.raceWrite_eq a bs.length
  exact of_eq (by rw [hrace]) (by rw [hrace]) (by rw [hrace]) (by rw [hrace]) (by rw [hrace]) (by rw [hrace]) hregs

end CtxKept

/-! ### Contexts as they stand -/

/-- The pages of contexts are the same, and in the same frames. -/
structure CtxPlaced (s t : State) : Prop where
  base : t.reg Reg.fabChanBase = s.reg Reg.fabChanBase
  ctrl : t.reg Reg.poolCtrl = s.reg Reg.poolCtrl
  merges : t.pool.merges = s.pool.merges
  entry : ∀ p, (t.dir p).map DirEntry.placed = (s.dir p).map DirEntry.placed

theorem CtxKept.placed {s t : State} (h : CtxKept s t) : CtxPlaced s t :=
  ⟨h.reg _ (.of_place (by decide) (by decide) (.inl (by decide))),
    h.reg _ (.of_place (by decide) (by decide) (.inr (by decide))), h.merges, h.entry⟩

namespace CtxPlaced

theorem setChan (s : State) (c : Nat) (k : Chan) : CtxPlaced s (s.setChan c k) := ⟨rfl, rfl, rfl, fun _ => rfl⟩

theorem chanResult (s : State) (r : Nat) : CtxPlaced s (s.chanResult r) :=
  ⟨(State.reg_setReg ..).trans (if_neg (by decide)), (State.reg_setReg ..).trans (if_neg (by decide)), rfl, fun _ => rfl⟩

section
variable {s t : State} (h : CtxPlaced s t)
include h

theorem chanAddr (c : Nat) : t.chanAddr c = s.chanAddr c := by
  rw [State.chanAddr, State.fld, h.base, State.chanAddr, State.fld]

theorem poolOn : t.poolOn = s.poolOn := by rw [State.poolOn, State.fld, h.ctrl, State.poolOn, State.fld]

theorem dir_of_some {p : Nat} {e : DirEntry} (hdir : s.dir p = some e) :
    ∃ e', t.dir p = some e' ∧ e'.placed = e.placed := by
  have hentry := h.entry p
  rw [hdir] at hentry
  exact Option.map_eq_some_iff.mp hentry

theorem dir_of_none {p : Nat} (hdir : s.dir p = none) : t.dir p = none := by
  have hentry := h.entry p
  rw [hdir] at hentry
  exact Option.map_eq_none_iff.mp hentry

theorem pageHere (p : Nat) : t.pageHere p = s.pageHere p := by
  rw [State.pageHere, State.pageOk, State.pageFar, State.pageHere, State.pageOk, State.pageFar, h.poolOn]
  cases hdir : s.dir p with
  | none => rw [h.dir_of_none hdir]
  | some e =>
    obtain ⟨e', hdir', he⟩ := h.dir_of_some hdir
    have hfar : e'.far = e.far := (congrArg DirEntry.far he :)
    rw [hdir']
    dsimp only
    rw [hfar]
    rfl

theorem chanOk (c : Nat) : t.chanOk c = s.chanOk c := by rw [State.chanOk, h.chanAddr, h.pageHere, State.chanOk]

theorem committedFrame (p off : Nat) {e e' : DirEntry} (he : e'.placed = e.placed) :
    t.committedFrame p e' off = s.committedFrame p e off := by
  have hhome : e'.home = e.home := (congrArg DirEntry.home he :)
  have hloc : e'.loc = e.loc := (congrArg DirEntry.loc he :)
  rw [State.committedFrame, h.merges, hhome, hloc, State.committedFrame]

variable (hhbm : t.hbm = s.hbm)
include hhbm

theorem poolRaw (a n : Nat) : t.poolRaw a n = s.poolRaw a n := by
  refine List.map_congr_left fun i _ => ?_
  cases hdir : s.dir ((a + i) / pageBytes) with
  | none => rw [h.dir_of_none hdir]
  | some e =>
    obtain ⟨e', hdir', he⟩ := h.dir_of_some hdir
    have hfar : e'.far = e.far := (congrArg DirEntry.far he :)
    have hframe := h.committedFrame ((a + i) / pageBytes) ((a + i) % pageBytes) he
    rw [hdir']
    dsimp only
    rw [hfar, State.pageByte, State.pageByte, if_neg Bool.false_ne_true, if_neg Bool.false_ne_true, hframe, hhbm]

theorem chanWords (c : Nat) : t.chanWords c = s.chanWords c := by
  rw [State.chanWords, h.chanAddr]
  exact List.map_congr_left fun i _ => congrArg leNat (h.poolRaw hhbm ..)

theorem ctx (c : Nat) : t.ctx c = s.ctx c := by rw [State.ctx, h.chanOk, h.chanWords hhbm, State.ctx]

end

end CtxPlaced

/-! ### Where a context lies -/

/-- The address in HBM of a context whose page has an entry. -/
def State.ctxBase (s : State) (c : Nat) (e : DirEntry) : Nat :=
  pageBytes * s.committedFrame (s.chanAddr c / pageBytes) e (s.chanAddr c % pageBytes) + s.chanAddr c % pageBytes

/-- Sixty-four bytes at a multiple of sixty-four lie in one segment of one page. -/
theorem State.chanAddr_inside (s : State) (c : Nat) {k : Nat} (hk : k < 64) :
    (s.chanAddr c + k) / pageBytes = s.chanAddr c / pageBytes
      ∧ (s.chanAddr c + k) % pageBytes = s.chanAddr c % pageBytes + k
      ∧ (s.chanAddr c + k) % pageBytes / segBytes = s.chanAddr c % pageBytes / segBytes
      ∧ (s.chanAddr c + k) % pageBytes % segBytes = s.chanAddr c % pageBytes % segBytes + k := by
  unfold State.chanAddr pageBytes segBytes
  omega

theorem State.committedFrame_inside (s : State) (c : Nat) (e : DirEntry) {k : Nat} (hk : k < 64) :
    s.committedFrame (s.chanAddr c / pageBytes) e ((s.chanAddr c + k) % pageBytes)
      = s.committedFrame (s.chanAddr c / pageBytes) e (s.chanAddr c % pageBytes) := by
  obtain ⟨-, -, hseg, -⟩ := s.chanAddr_inside c hk
  rw [State.committedFrame, hseg, State.committedFrame]

theorem State.chanWords_of_dir {s : State} {c : Nat} {e : DirEntry} (hdir : s.dir (s.chanAddr c / pageBytes) = some e)
    (hfar : e.far = false) : s.chanWords c = (List.range 16).map (fun i =>
      leNat ((List.range 4).map (fun j => memByte s.hbm (s.ctxBase c e + (4 * i + j))))) := by
  refine List.map_congr_left fun i hi => congrArg leNat (List.map_congr_left fun j hj => ?_)
  have hk : 4 * i + j < 64 := by
    have := List.mem_range.mp hi
    have := List.mem_range.mp hj
    omega
  obtain ⟨hpage, hoff, -, -⟩ := s.chanAddr_inside c hk
  rw [Nat.add_assoc, hpage, hdir]
  dsimp only
  rw [hfar, if_neg Bool.false_ne_true, State.pageByte, if_neg Bool.false_ne_true, s.committedFrame_inside c e hk, hoff,
    State.ctxBase, Nat.add_assoc]

/-! ### Writing a word of a context -/

theorem State.poolWrite_in_page (s : State) {a : Nat} {bs : List Byte} (hbs : bs ≠ [])
    (hpage : a % pageBytes + bs.length ≤ pageBytes) (hshort : bs.length < pageBytes) : s.poolWrite a bs = s.pageWrite (a / pageBytes) (a % pageBytes) bs := by
  have hempty : bs.isEmpty = false := List.isEmpty_eq_false_iff.mpr hbs
  have hall : bs.length ≤ pageBytes - a % pageBytes := by omega
  rw [State.poolWrite, Nat.div_eq_of_lt hshort, State.poolWriteAt, hempty, if_neg Bool.false_ne_true]
  dsimp only
  rw [List.take_of_length_le hall, List.drop_eq_nil_of_le hall, State.poolWriteAt]
  rfl

theorem State.writeSegs_in_segment (s : State) (p : Nat) (e : DirEntry) (f : Nat) {off : Nat} {bs : List Byte}
    (hbs : bs ≠ []) (hseg : off % segBytes + bs.length ≤ segBytes) :
    State.writeSegs p e (f + 1 + 1) off bs s = s.frameWrite (s.committedFrame p e off) off bs := by
  have hempty : bs.isEmpty = false := List.isEmpty_eq_false_iff.mpr hbs
  have hall : bs.length ≤ segBytes - off % segBytes := by omega
  rw [State.writeSegs, hempty, if_neg Bool.false_ne_true]
  dsimp only
  rw [List.take_of_length_le hall, List.drop_eq_nil_of_le hall, State.writeSegs]
  rfl

/-- A context whose page is served and not being evicted. -/
structure State.CtxFree (s : State) (c : Nat) : Prop where
  ok : s.chanOk c = true
  free : ∀ e ∈ s.pool.evicts, e.page ≠ s.chanAddr c / pageBytes

theorem State.CtxFree.of_placed {s t : State} {c : Nat} (h : s.CtxFree c) (hplaced : CtxPlaced s t)
    (hevicts : t.pool.evicts = s.pool.evicts) : t.CtxFree c :=
  ⟨(hplaced.chanOk c).trans h.ok, by rw [hevicts, hplaced.chanAddr]; exact h.free⟩

theorem State.CtxFree.of_kept {s t : State} {c : Nat} (h : s.CtxFree c) (hkept : CtxKept s t) : t.CtxFree c :=
  h.of_placed hkept.placed hkept.evicts

theorem State.partialTouch_hbm (s : State) (p : Nat) (e : DirEntry) (off n : Nat) :
    (s.partialTouch p e off n).hbm = s.hbm := by
  have hfirst : Flagged s (if off % 32 = 0 then s else s.pageTouch false p e off 1) := .ite (.refl s) (.pageTouch ..)
  have htouch : Flagged s (s.partialTouch p e off n) := .ite (.refl s) (.ite hfirst (hfirst.trans (.pageTouch ..)))
  exact htouch.hbm

section
variable {s : State} {c : Nat} (h : s.CtxFree c)
include h

theorem State.CtxFree.dir : ∃ e, s.dir (s.chanAddr c / pageBytes) = some e ∧ e.far = false ∧ s.poolOn = true := by
  have hok := h.ok
  rw [State.chanOk, State.pageHere, State.pageOk, State.pageFar] at hok
  cases hdir : s.dir (s.chanAddr c / pageBytes) with
  | none => simp [hdir] at hok
  | some e =>
    simp [hdir] at hok
    exact ⟨e, rfl, hok.2, hok.1⟩

theorem State.CtxFree.cancelEviction : s.cancelEviction (s.chanAddr c / pageBytes) = s := by
  refine if_neg fun hany => ?_
  obtain ⟨e, he, hpage⟩ := List.any_eq_true.mp hany
  exact h.free e he (eq_of_beq hpage)

variable {w : Nat} (hw : w < 16) (v : Nat)
include hw

theorem State.CtxFree.setCtxWord_eq {e : DirEntry} (hdir : s.dir (s.chanAddr c / pageBytes) = some e) :
    let p := s.chanAddr c / pageBytes
    let off := s.chanAddr c % pageBytes + 4 * w
    let t := s.partialTouch p e off 4
    s.setCtxWord c w v = (t.frameWrite (t.committedFrame p e off) off (leBytes 4 v)).usePage p := by
  intro p off t
  obtain ⟨hpage, hoff, -, hseg⟩ := s.chanAddr_inside c (k := 4 * w) (by omega)
  obtain ⟨-, hlast, -, hlastSeg⟩ := s.chanAddr_inside c (k := 63) (by decide)
  have hlen : (leBytes 4 v).length = 4 := leBytes_length ..
  have hbytes : leBytes 4 v ≠ [] := List.ne_nil_of_length_pos (by omega)
  have hinPage : (s.chanAddr c + 63) % pageBytes < pageBytes := Nat.mod_lt _ (by decide)
  have hinSeg : (s.chanAddr c + 63) % pageBytes % segBytes < segBytes := Nat.mod_lt _ (by decide)
  rw [State.setCtxWord, s.poolWrite_in_page hbytes (by omega) (by rw [hlen]; decide), hpage, State.pageWrite,
    h.cancelEviction, hdir]
  dsimp only
  rw [State.writeSegs_in_segment _ _ _ 31 hbytes (by omega), hlen, hoff]

theorem State.CtxFree.setCtxWord_kept : CtxKept s (s.setCtxWord c w v) := by
  obtain ⟨e, hdir, -, -⟩ := h.dir
  rw [h.setCtxWord_eq hw v hdir]
  exact ((CtxKept.partialTouch ..).trans (.frameWrite ..)).trans (.usePage ..)

theorem State.CtxFree.setCtxWord_hbm {e : DirEntry} (hdir : s.dir (s.chanAddr c / pageBytes) = some e) :
    (s.setCtxWord c w v).hbm = memWrite s.hbm (s.ctxBase c e + 4 * w) (leBytes 4 v) := by
  obtain ⟨-, hoff, -, -⟩ := s.chanAddr_inside c (k := 4 * w) (by omega)
  rw [h.setCtxWord_eq hw v hdir, (Flagged.usePage ..).hbm]
  have htouch := CtxKept.partialTouch s (s.chanAddr c / pageBytes) e (s.chanAddr c % pageBytes + 4 * w) 4
  have hframe := htouch.placed.committedFrame (s.chanAddr c / pageBytes) (s.chanAddr c % pageBytes + 4 * w) (e := e) rfl
  have hinside := s.committedFrame_inside c e (k := 4 * w) (by omega)
  rw [hoff] at hinside
  rw [hframe, hinside, State.frameWrite, State.partialTouch_hbm]
  exact congrArg (memWrite s.hbm · _) (Nat.add_assoc ..).symm

/-- A word of a context that is written reads as written, and the others as before. -/
theorem State.CtxFree.chanWords_setCtxWord :
    (s.setCtxWord c w v).chanWords c = (s.chanWords c).set w (v % 2 ^ 32) := by
  obtain ⟨e, hdir, hfar, -⟩ := h.dir
  have hplaced := (h.setCtxWord_kept hw v).placed
  obtain ⟨e', hdir', he⟩ := hplaced.dir_of_some hdir
  have hbase : (s.setCtxWord c w v).ctxBase c e' = s.ctxBase c e := by
    rw [State.ctxBase, hplaced.chanAddr, hplaced.committedFrame _ _ he, State.ctxBase]
  have hfar' : e'.far = false := (congrArg DirEntry.far he :).trans hfar
  rw [State.chanWords_of_dir (by rw [hplaced.chanAddr]; exact hdir') hfar', State.chanWords_of_dir hdir hfar, hbase,
    h.setCtxWord_hbm hw v hdir]
  refine List.ext_getElem (by simp) fun i hi _ => ?_
  have hi16 : i < 16 := by simpa using hi
  rw [List.getElem_map, List.getElem_range, List.getElem_set, List.getElem_map, List.getElem_range]
  split
  · next hwi =>
    subst hwi
    have hbytes : (List.range 4).map (fun j => memByte (memWrite s.hbm (s.ctxBase c e + 4 * w) (leBytes 4 v))
        (s.ctxBase c e + (4 * w + j))) = leBytes 4 v := by
      refine List.ext_getElem (by simp) fun j hj hj' => ?_
      have hj4 : j < 4 := by simpa using hj
      rw [List.getElem_map, List.getElem_range, memByte_memWrite, if_pos (by rw [leBytes_length]; omega),
        show s.ctxBase c e + (4 * w + j) - (s.ctxBase c e + 4 * w) = j by omega, List.getD_eq_getElem _ _ hj']
    exact (congrArg leNat hbytes).trans (leNat_leBytes ..)
  · next hwi =>
    refine congrArg leNat (List.map_congr_left fun j hj => ?_)
    have hj4 := List.mem_range.mp hj
    exact memByte_outside _ _ _ _ (by rw [leBytes_length]; omega)

end

end Sys2Proof.Machine
end

section
/-! PROOF. Channel contexts: opened, closed, acknowledged, sent again and failed (R359 to R362). -/

namespace Sys2Proof.Machine

/-! ### The words of a context and what they say (Table 11-11) -/

theorem nthWord_set (ws : List Nat) (i j v : Nat) :
    nthWord (ws.set i v) j = if i = j ∧ i < ws.length then v else nthWord ws j := by
  rw [nthWord, List.getD_eq_getElem?_getD, List.getElem?_set, nthWord, List.getD_eq_getElem?_getD]
  by_cases hij : i = j
  · subst hij
    by_cases hlen : i < ws.length <;> simp [hlen]
  · simp [hij]

theorem State.chanWords_length (s : State) (c : Nat) : (s.chanWords c).length = 16 := by
  rw [State.chanWords, State.poolWords, List.length_map, List.length_range]

section
variable {ws : List Nat} (hlen : ws.length = 16) (v : Nat)
include hlen

theorem ctxOf_set_tx : ctxOf (ws.set 10 v) = { ctxOf ws with tx := v } := by
  simp [ctxOf, wfield, nthWord_set, hlen]

theorem ctxOf_set_acked : ctxOf (ws.set 11 v) = { ctxOf ws with acked := v } := by
  simp [ctxOf, wfield, nthWord_set, hlen]

theorem ctxOf_set_rx : ctxOf (ws.set 12 v) = { ctxOf ws with rx := v } := by
  simp [ctxOf, wfield, nthWord_set, hlen]

/-- CSTATE is the low two bits of word 13. -/
theorem ctxOf_set_cstate :
    ctxOf (ws.set 13 (putField (nthWord ws 13) 0 2 v % 2 ^ 32)) = { ctxOf ws with cstate := v % 4 } := by
  have hstate : putField (nthWord ws 13) 0 2 v % 4 = v % 4 := by
    unfold putField
    omega
  simp [ctxOf, wfield, nthWord_set, hlen, hstate]

end

theorem itemsOk_append (l m : List ClampItem) : itemsOk (l ++ m) = (itemsOk l && itemsOk m) := List.all_append

theorem itemsOk_ckField (ws : List Nat) (w lo width applied : Nat) : itemsOk (ckField ws w lo width applied) = true := by
  unfold ckField
  extract_lets v
  split <;> rfl

theorem itemsOk_ckWords (ws : List Nat) (lo hi : Nat) : itemsOk (ckWords ws lo hi) = true := by
  refine List.all_eq_true.mpr fun i hi => ?_
  obtain ⟨w, -, hw⟩ := List.mem_flatMap.mp hi
  exact List.all_eq_true.mp (itemsOk_ckField ws (lo + w) 0 32 0) i hw

/-- A PEER_UNIT out of range is all that the check of a context rejects. -/
theorem itemsOk_ctxItems (ws : List Nat) : itemsOk (ctxItems ws) = unitOk (wfield ws 1 17 15) := by
  have hrj : ∀ w lo width ok, itemsOk (rjField ws w lo width ok) = ok := fun _ _ _ ok => by cases ok <;> rfl
  rw [ctxItems]
  simp only [itemsOk_append, itemsOk_ckField, itemsOk_ckWords, hrj, Bool.and_true]

theorem State.chan_setChan_self (s : State) (c : Nat) (k : Chan) : (s.setChan c k).chan c = k :=
  (tabGet_tabSet ..).trans (if_pos rfl)

theorem State.chan_chanResult (s : State) (r c : Nat) : (s.chanResult r).chan c = s.chan c := rfl

theorem State.cu_chanResult (s : State) (r d : Nat) : (s.chanResult r).cu d = s.cu d := rfl

theorem State.reg_chanResult (s : State) (r : Nat) : (s.chanResult r).reg Reg.fabChanStatus = BitVec.ofNat 32 (r * 2) :=
  (State.reg_setReg ..).trans (if_pos rfl)

theorem State.chan_bump (s : State) (off c : Nat) : (s.bump off).chan c = s.chan c := rfl

theorem State.pumpUnits_of_empty {s : State} (h : ∀ d, (s.cu d).outbox = []) : s.pumpUnits = s :=
  (List.range 8).foldlRecOn (motive := (· = s)) _ rfl fun t ht d _ => by
    rw [ht, h]
    rfl

/-! ### Reads and writes of a context whose page is there -/

section
variable {s : State} {c : Nat} (h : s.CtxFree c)
include h

theorem State.CtxFree.ctx_eq : s.ctx c = some (ctxOf (s.chanWords c)) := if_pos h.ok

theorem State.CtxFree.setCtxWord {w : Nat} (hw : w < 16) (v : Nat) : (s.setCtxWord c w v).CtxFree c :=
  h.of_kept (h.setCtxWord_kept hw v)

theorem State.CtxFree.setChan (k : Chan) : (s.setChan c k).CtxFree c := h.of_placed (.setChan ..) rfl

theorem State.CtxFree.setCstate (v : Nat) : CtxKept s (s.setCstate c v) ∧ (s.setCstate c v).chanWords c =
    (s.chanWords c).set 13 (putField (nthWord (s.chanWords c) 13) 0 2 v % 2 ^ 32) :=
  ⟨h.setCtxWord_kept (by decide) _, h.chanWords_setCtxWord (by decide) _⟩

theorem State.CtxFree.unitRead (code : Nat) : (s.unitRead code false (s.chanAddr c) 64).1.map (fun b =>
    (List.range 16).map (fun i => leNat ((b.drop (4 * i)).take 4))) = some (s.chanWords c) := by
  obtain ⟨e, hdir, hfar, hon⟩ := h.dir
  rw [State.unitRead, hdir]
  dsimp only
  rw [if_pos (by rw [hon, hfar]; rfl), Option.map_some, State.chanWords_of_dir hdir hfar]
  refine congrArg some (List.map_congr_left fun i hi => congrArg leNat ?_)
  have hi16 := List.mem_range.mp hi
  refine List.ext_getElem (by simp [State.pageData]; omega) fun j hj _ => ?_
  have hj4 : j < 4 := by simp at hj; omega
  obtain ⟨-, hoff, -, -⟩ := s.chanAddr_inside c (k := 4 * i + j) (by omega)
  have hframe := s.committedFrame_inside c e (k := 4 * i + j) (by omega)
  rw [hoff] at hframe
  rw [List.getElem_take, List.getElem_drop, List.getElem_map, List.getElem_range]
  simp only [State.pageData, List.getElem_map, List.getElem_range]
  rw [State.pageByte, if_neg Bool.false_ne_true, hframe, State.ctxBase, Nat.add_assoc]

/-- OPEN reads the context and checks it (R360). -/
theorem State.CtxFree.openChan_eq : ∃ t, CtxKept s t ∧ t.hbm = s.hbm ∧ s.openChan c =
    if itemsOk (ctxItems (s.chanWords c)) = false ∨ nthWord (s.chanWords c) 0 ≠ nthWord (s.chanWords c) 15 then t.chanResult 1
    else (((((t.setChan c {}).setCtxWord c 10 0).setCtxWord c 11 0).setCtxWord c 12 0).setCstate c 1).chanResult 0 := by
  have hwords : s.unitWords 0xFFFF (s.chanAddr c) = (some (s.chanWords c), (s.unitRead 0xFFFF false (s.chanAddr c) 64).2) :=
    Prod.ext (h.unitRead 0xFFFF) rfl
  rw [State.openChan, hwords]
  refine ⟨_, (CtxKept.unitRead s 0xFFFF false (s.chanAddr c) 64).trans (.clampRead _ 0x05 c (nthWord (s.chanWords c) 0)
    (nthWord (s.chanWords c) 15) unitMgmt (ctxItems (s.chanWords c))), ?_, rfl⟩
  rw [(Reported.clampRead ..).hbm, (Flagged.unitRead ..).hbm]

/-- The words that OPEN writes. -/
theorem State.CtxFree.restarted : let t := (((s.setCtxWord c 10 0).setCtxWord c 11 0).setCtxWord c 12 0).setCstate c 1
    CtxKept s t ∧ t.ctx c = some { ctxOf (s.chanWords c) with tx := 0, acked := 0, rx := 0, cstate := 1 } := by
  intro t
  have h1 := h.setCtxWord (w := 10) (by decide) 0
  have h2 := h1.setCtxWord (w := 11) (by decide) 0
  have h3 := h2.setCtxWord (w := 12) (by decide) 0
  obtain ⟨hkept, hwords⟩ := h3.setCstate 1
  refine ⟨(((h.setCtxWord_kept (by decide) 0).trans (h1.setCtxWord_kept (by decide) 0)).trans
    (h2.setCtxWord_kept (by decide) 0)).trans hkept, ?_⟩
  rw [(h3.of_kept hkept).ctx_eq, hwords, ctxOf_set_cstate (State.chanWords_length ..),
    h2.chanWords_setCtxWord (by decide), ctxOf_set_rx (State.chanWords_length ..),
    h1.chanWords_setCtxWord (by decide), ctxOf_set_acked (State.chanWords_length ..),
    h.chanWords_setCtxWord (by decide), ctxOf_set_tx (State.chanWords_length ..)]
  rfl

theorem State.CtxFree.openChan_opens (hends : nthWord (s.chanWords c) 0 = nthWord (s.chanWords c) 15)
    (hunit : unitOk (wfield (s.chanWords c) 1 17 15) = true) : (s.openChan c).chan c = {}
      ∧ (s.openChan c).reg Reg.fabChanStatus = 0
      ∧ (s.openChan c).ctx c = some { ctxOf (s.chanWords c) with tx := 0, acked := 0, rx := 0, cstate := 1 } := by
  obtain ⟨t, hkept, hhbm, heq⟩ := h.openChan_eq
  rw [if_neg (by rw [itemsOk_ctxItems, hunit]; simp [hends])] at heq
  obtain ⟨hkept', hctx⟩ := ((h.of_kept hkept).setChan {}).restarted
  have hwords : (t.setChan c {}).chanWords c = s.chanWords c :=
    ((CtxPlaced.setChan ..).chanWords rfl c).trans (hkept.placed.chanWords hhbm c)
  rw [heq]
  refine ⟨?_, State.reg_chanResult .., ?_⟩
  · rw [State.chan_chanResult, hkept'.chan, State.chan_setChan_self]
  · rw [(CtxPlaced.chanResult ..).ctx rfl, hctx, hwords]

theorem State.CtxFree.openChan_refuses (hbad : nthWord (s.chanWords c) 0 ≠ nthWord (s.chanWords c) 15
    ∨ unitOk (wfield (s.chanWords c) 1 17 15) = false) : (s.openChan c).reg Reg.fabChanStatus = 2
      ∧ (s.openChan c).ctx c = s.ctx c ∧ (s.openChan c).chan c = s.chan c := by
  obtain ⟨t, hkept, hhbm, heq⟩ := h.openChan_eq
  rw [if_pos (by rw [itemsOk_ctxItems]; exact hbad.symm)] at heq
  rw [heq]
  refine ⟨State.reg_chanResult .., ?_, ?_⟩
  · rw [(CtxPlaced.chanResult ..).ctx rfl, hkept.placed.ctx hhbm]
  · rw [State.chan_chanResult, hkept.chan]

variable (hempty : ∀ d, (s.cu d).outbox = [])
include hempty

/-- CLOSE writes one word, with no message to go on. -/
theorem State.CtxFree.closeChan_eq : s.closeChan c = ((s.setChan c {}).setCstate c 0).chanResult 0 := by
  obtain ⟨hkept, -⟩ := (h.setChan {}).setCstate 0
  rw [State.closeChan, if_pos h.ok, State.pumpUnits_of_empty fun d => ?_]
  rw [State.cu_chanResult, hkept.outbox]
  exact hempty d

theorem State.CtxFree.closeChan : (s.closeChan c).CtxFree c := by
  obtain ⟨hkept, -⟩ := (h.setChan {}).setCstate 0
  rw [h.closeChan_eq hempty]
  exact ((h.setChan {}).of_kept hkept).of_placed (.chanResult ..) rfl

theorem State.CtxFree.closeChan_words : (s.closeChan c).chanWords c =
    (s.chanWords c).set 13 (putField (nthWord (s.chanWords c) 13) 0 2 0 % 2 ^ 32) := by
  obtain ⟨-, hwords⟩ := (h.setChan {}).setCstate 0
  rw [h.closeChan_eq hempty, (CtxPlaced.chanResult ..).chanWords rfl, hwords, (CtxPlaced.setChan ..).chanWords rfl]

theorem State.CtxFree.closeChan_closes : (s.closeChan c).chan c = {} ∧ (s.closeChan c).reg Reg.fabChanStatus = 0
    ∧ (s.closeChan c).ctx c = some { ctxOf (s.chanWords c) with cstate := 0 } := by
  obtain ⟨hkept, -⟩ := (h.setChan {}).setCstate 0
  have hctx : (s.closeChan c).ctx c = some { ctxOf (s.chanWords c) with cstate := 0 } := by
    rw [(h.closeChan hempty).ctx_eq, h.closeChan_words hempty, ctxOf_set_cstate (s.chanWords_length c)]
  refine ⟨?_, ?_, hctx⟩
  · rw [h.closeChan_eq hempty]
    rw [State.chan_chanResult, hkept.chan, State.chan_setChan_self]
  · rw [h.closeChan_eq hempty]
    exact State.reg_chanResult ..

/-- CLOSE and then OPEN. -/
theorem State.CtxFree.closeChan_openChan (hends : nthWord (s.chanWords c) 0 = nthWord (s.chanWords c) 15)
    (hunit : unitOk (wfield (s.chanWords c) 1 17 15) = true) : ((s.closeChan c).openChan c).chan c = {}
      ∧ ((s.closeChan c).openChan c).reg Reg.fabChanStatus = 0
      ∧ ((s.closeChan c).openChan c).ctx c = some { ctxOf (s.chanWords c) with tx := 0, acked := 0, rx := 0, cstate := 1 } := by
  have hwords := h.closeChan_words hempty
  have hnth : ∀ i, i ≠ 13 → nthWord ((s.closeChan c).chanWords c) i = nthWord (s.chanWords c) i := fun i hi => by
    rw [hwords, nthWord_set, if_neg fun hsame => hi hsame.1.symm]
  obtain ⟨hchan, hreg, hctx⟩ := (h.closeChan hempty).openChan_opens
    (by rw [hnth 0 (by decide), hnth 15 (by decide), hends]) (by rw [wfield, hnth 1 (by decide)]; exact hunit)
  refine ⟨hchan, hreg, ?_⟩
  rw [hctx, hwords, ctxOf_set_cstate (s.chanWords_length c)]

end

/-! ### Commands on a context (R360) -/

theorem State.farNeed_of_farAmong {s : State} {ps : List Nat} (h : s.farAmong ps = []) (w : FarWaiter) :
    s.farNeed w ps = [] := by
  rw [State.farNeed, h]
  rfl

/-- What a waiter forgets leaves contexts and HBM alone. -/
theorem CtxKept.goOn (s : State) (w : FarWaiter) : CtxKept s (s.goOn w) := by
  rw [State.goOn_eq]
  exact of_eq rfl rfl rfl rfl rfl rfl fun _ _ => rfl

theorem State.goOn_hbm (s : State) (w : FarWaiter) : (s.goOn w).hbm = s.hbm := by rw [State.goOn_eq]

theorem State.goOn_chanWords (s : State) (w : FarWaiter) (c : Nat) : (s.goOn w).chanWords c = s.chanWords c :=
  (CtxKept.goOn ..).placed.chanWords (s.goOn_hbm w) c

theorem chanCmd_of_here {s : State} {c : Nat} (hup : s.up = true) (hc : c < 65536)
    (hfar : s.farAmong [s.chanAddr c / pageBytes] = []) (i : Instr) (act : State → State) :
    chanCmd i c act s = .next (act (s.goOn (.cmd i))) := by
  have hneed := State.farNeed_of_farAmong hfar (.cmd i)
  rw [chanCmd, hup, decide_eq_true hc, hneed, if_pos (by rfl), State.withPages_of_here hneed]
  rfl

/-! ### Collectives on a context that fails (R383) -/

section
variable {s : State} (hempty : ∀ d, (s.cu d).outbox = [])
include hempty

theorem State.dropOut_of_empty (c h : Nat) : CtxKept s (s.dropOut c h) ∧ (s.dropOut c h).hbm = s.hbm := by
  have hdrop : s.dropOut c h = s.setCu (dieOf c) { s.cu (dieOf c) with outbox := [] } := by
    unfold State.dropOut
    extract_lets u s1
    have houtbox : u.outbox = [] := hempty _
    simp only [s1, houtbox]
    rfl
  rw [hdrop]
  refine ⟨⟨rfl, fun _ => rfl, fun d => ?_, rfl, rfl, fun _ => rfl, fun _ _ => rfl⟩, rfl⟩
  rw [State.cu_setCu, hempty]
  split
  · rfl
  · exact hempty d

theorem State.collFail_kept (c h : Nat) (k : Coll) : CtxKept s (s.collFail c h k) ∧ (s.collFail c h k).hbm = s.hbm := by
  obtain ⟨hkept, hhbm⟩ := State.dropOut_of_empty hempty c h
  unfold State.collFail State.collUndefined
  refine ⟨(((hkept.trans (.of_sent (.draw ..))).trans (.spadWrite ..)).trans (.setCell ..)).trans
    (.of_sent (.report ..)), ?_⟩
  rw [(Reported.report ..).hbm]
  exact (spadWrite_hbm ..).trans hhbm

theorem State.collsFail_kept (ctx : Nat) : CtxKept s (s.collsFail ctx) ∧ (s.collsFail ctx).hbm = s.hbm := by
  refine List.foldlRecOn (motive := fun t : State => CtxKept s t ∧ t.hbm = s.hbm) _ _ ⟨.refl s, rfl⟩ ?_
  rintro t ⟨hkept, hhbm⟩ x -
  split
  · obtain ⟨hfail, hfailHbm⟩ := State.collFail_kept (s := t) (fun d => (hkept.outbox d).trans (hempty d)) x.1 x.2.1 x.2.2
    exact ⟨hkept.trans hfail, hfailHbm.trans hhbm⟩
  · exact ⟨hkept, hhbm⟩

end

/-! ### Acknowledgements and timeouts (R361, R362) -/

theorem State.chanReject_counts (s : State) (c : Nat) : (s.chanReject c).chan c = s.chan c ∧ SameMemory s (s.chanReject c)
    ∧ ((s.chanReject c).reg Reg.fabChanReject).toNat = min ((s.reg Reg.fabChanReject).toNat + 1) 0xFFFFFFFF := by
  have hreported : Reported s (s.chanReject c) := (Reported.bump ..).trans (.reportLim ..)
  refine ⟨by rw [State.chan, hreported.fab, State.chan], hreported.sameMemory, ?_⟩
  rw [State.chanReject, State.reg_reportLim (by decide), State.toNat_reg_bump]

section
variable {s : State} {c : Nat} (h : s.CtxFree c)
include h

omit h in
/-- An acknowledgement of what has been sent and not acknowledged before. -/
theorem State.takeAck_of_new {x : Ctx} {v : Nat} (hnew : 0 < (v + 2 ^ 32 - x.acked) % 2 ^ 32)
    (hsent : (v + 2 ^ 32 - x.acked) % 2 ^ 32 ≤ (x.tx + 2 ^ 32 - x.acked) % 2 ^ 32) : s.takeAck c x v =
      ((s.setChan c { s.chan c with unacked := (s.chan c).unacked.drop ((v + 2 ^ 32 - x.acked) % 2 ^ 32),
                                    progress := s.pitch, retx := 0 }).setCtxWord c 11 v).pumpUnits :=
  if_neg fun hold => by omega

/-- ACKED moves, with what is beside the record, where no unit waits. -/
theorem State.CtxFree.acked_moves (hempty : ∀ d, (s.cu d).outbox = []) {v : Nat} (hv : v < 2 ^ 32) (k : Chan) :
    (((s.setChan c k).setCtxWord c 11 v).pumpUnits).ctx c = some { ctxOf (s.chanWords c) with acked := v }
      ∧ (((s.setChan c k).setCtxWord c 11 v).pumpUnits).chan c = k := by
  have hset := h.setChan k
  have hkept := hset.setCtxWord_kept (w := 11) (by decide) v
  rw [State.pumpUnits_of_empty fun d => (hkept.outbox d).trans (hempty d)]
  refine ⟨?_, (hkept.chan c).trans (State.chan_setChan_self ..)⟩
  rw [(hset.of_kept hkept).ctx_eq, hset.chanWords_setCtxWord (by decide), Nat.mod_eq_of_lt hv,
    (CtxPlaced.setChan ..).chanWords rfl, ctxOf_set_acked (s.chanWords_length c)]

theorem State.CtxFree.resendChan_counts (x : Ctx) : (s.resendChan c x).chan c =
      { s.chan c with progress := s.pitch, retx := (s.chan c).retx + 1 }
    ∧ ((s.resendChan c x).reg Reg.fabChanRetx).toNat = min ((s.reg Reg.fabChanRetx).toNat + 1) 0xFFFFFFFF := by
  unfold State.resendChan
  extract_lets k w s1
  have hkept : CtxKept (s.setChan c { k with progress := s.pitch, retx := k.retx + 1 }) s1 :=
    (h.setChan _).setCtxWord_kept (by decide) _
  have hsent : Sent (s1.bump Reg.fabChanRetx)
      (k.unacked.foldl (fun t m => t.issueMsg m.h m.payload x.vl x.ar) (s1.bump Reg.fabChanRetx)) :=
    .foldl (fun t (m : Msg) => .issueMsg t m.h m.payload x.vl x.ar) ..
  have hquiet : Quiet Reg.fabChanRetx := .of_place (by decide) (by decide) (.inl (by decide))
  refine ⟨?_, ?_⟩
  · rw [hsent.chan, State.chan_bump, hkept.chan, State.chan_setChan_self]
  · rw [hsent.reg _ hquiet, State.toNat_reg_bump, hkept.reg _ hquiet]
    rfl

theorem State.CtxFree.failChan_fails (hempty : ∀ d, (s.cu d).outbox = []) : (s.failChan c).chan c = {}
    ∧ (s.failChan c).ctx c = some { ctxOf (s.chanWords c) with cstate := 2 } := by
  have hset := h.setChan {}
  obtain ⟨hkept, hwords⟩ := hset.setCstate 2
  unfold State.failChan
  generalize hreport : ((s.setChan c {}).setCstate c 2).reportLim 0x0409 (2 * c) unitMgmt c = t
  have hreported : CtxKept ((s.setChan c {}).setCstate c 2) t := hreport ▸ .of_sent (.reportLim ..)
  have hhbm : t.hbm = ((s.setChan c {}).setCstate c 2).hbm := by rw [← hreport, (Reported.reportLim ..).hbm]
  have ht : CtxKept (s.setChan c {}) t := hkept.trans hreported
  obtain ⟨hcolls, hcollsHbm⟩ := State.collsFail_kept (s := t) (fun d => (ht.outbox d).trans (hempty d)) c
  have hall := ht.trans hcolls
  rw [State.pumpUnits_of_empty fun d => (hall.outbox d).trans (hempty d)]
  refine ⟨(hall.chan c).trans (State.chan_setChan_self ..), ?_⟩
  rw [hcolls.placed.ctx hcollsHbm, hreported.placed.ctx hhbm, (hset.of_kept hkept).ctx_eq, hwords,
    (CtxPlaced.setChan ..).chanWords rfl, ctxOf_set_cstate (s.chanWords_length c)]

end

/-- ACK of a served page is taken at once. -/
theorem exec_ack {s : State} {c : Nat} (hup : s.up = true) (hfar : s.farAmong [s.chanAddr c / pageBytes] = []) {h : Hdr}
    (hc : h.chan.toNat = c) {x : Ctx} (hx : s.ctx c = some x) : exec (.ack h) s = .next
      (let t := (s.goOn (.cmd (.ack h))).unstamp h
       if x.cstate = 1 then t.takeAck c x (h.arg.toNat % 2 ^ 32) else t.chanReject c) := by
  have hneed := State.farNeed_of_farAmong hfar (.cmd (.ack h))
  have hkept : CtxKept s ((s.goOn (.cmd (.ack h))).unstamp h) := (CtxKept.goOn ..).trans (.of_sent (.unstamp ..))
  have hctx : ((s.goOn (.cmd (.ack h))).unstamp h).ctx c = some x :=
    (hkept.placed.ctx (s.goOn_hbm _) c).trans hx
  refine (onUnit_whenOk (unit := true) rfl hup ..).trans ?_
  rw [hc, State.withPages_of_here hneed]
  dsimp only
  rw [hctx]

theorem exec_ackDelay {s : State} {c : Nat} (hup : s.up = true) {b : Nat} (hfrom : (s.chan c).ackFrom = some b) :
    exec (.ackDelay c) s = .next (if b + 32 ≤ s.pitch then s.chanAck c else s) := by
  have hdue : s.ackDue c = decide (b + 32 ≤ s.pitch) := by rw [State.ackDue, hfrom]; rfl
  have harm : exec (.ackDelay c) s = .next (whenOk (s.up && s.ackDue c) s (s.chanAck c)) := rfl
  rw [harm, hup, hdue, whenOk]
  by_cases hlate : b + 32 ≤ s.pitch <;> simp [hlate]

theorem State.chanAck_tells {s : State} {c : Nat} {x : Ctx} (hx : s.ctx c = some x) :
    (s.chanAck c).chan c = { s.chan c with ackFrom := none, told := x.rx } := by
  rw [State.chanAck, hx]
  dsimp only
  rw [(Sent.issueMsg ..).chan, State.chan_setChan_self]

theorem exec_channelRto {s : State} {c : Nat} (hup : s.up = true) {x : Ctx} (hx : s.ctx c = some x) (hopen : x.cstate = 1)
    (hunacked : (s.chan c).unacked ≠ []) : exec (.channelRto c) s = .next (if (s.chan c).progress + x.rto ≤ s.pitch then
      (if (s.chan c).retx < x.retries then s.resendChan c x else s.failChan c) else s) := by
  have hdue : s.rtoDue c = decide ((s.chan c).progress + x.rto ≤ s.pitch) := by
    rw [State.rtoDue, hx]
    simp [hopen, hunacked]
  have harm : exec (.channelRto c) s = .next (whenOk (s.up && s.rtoDue c) s (match s.ctx c with
      | some x => if (s.chan c).retx < x.retries then s.resendChan c x else s.failChan c
      | none => s)) := rfl
  rw [harm, hup, hdue, hx, whenOk]
  by_cases hlate : (s.chan c).progress + x.rto ≤ s.pitch <;> simp [hlate]

/-- What ACK finds, once its page is there, is the same context. -/
theorem CtxKept.ackTaken (s : State) (h : Hdr) : CtxKept s ((s.goOn (.cmd (.ack h))).unstamp h) :=
  (CtxKept.goOn ..).trans (.of_sent (.unstamp ..))

theorem SameMemory.ackTaken (s : State) (h : Hdr) : SameMemory s ((s.goOn (.cmd (.ack h))).unstamp h) := by
  rw [State.goOn_eq]
  exact ⟨fun _ => rfl, fun _ => rfl⟩

section
variable {s : State} {c : Nat} (hup : s.up = true) (hfree : s.CtxFree c)
  (hfar : s.farAmong [s.chanAddr c / pageBytes] = [])
include hup hfree hfar

/-- OPEN, RESET and CLOSE by what they find (R360). -/
theorem chanCommands (hc : c < 65536) (hempty : ∀ d, (s.cu d).outbox = []) : let ws := s.chanWords c
    (nthWord ws 0 = nthWord ws 15 → unitOk (wfield ws 1 17 15) = true →
        ∀ i ∈ [Instr.chanOpen c, Instr.chanReset c], ∃ t, exec i s = .next t ∧ t.chan c = {}
          ∧ t.reg Reg.fabChanStatus = 0
          ∧ t.ctx c = some { ctxOf ws with tx := 0, acked := 0, rx := 0, cstate := 1 })
      ∧ (nthWord ws 0 ≠ nthWord ws 15 ∨ unitOk (wfield ws 1 17 15) = false →
          ∃ t, exec (.chanOpen c) s = .next t ∧ t.reg Reg.fabChanStatus = 2 ∧ t.ctx c = s.ctx c ∧ t.chan c = s.chan c)
      ∧ ∃ t, exec (.chanClose c) s = .next t ∧ t.chan c = {} ∧ t.reg Reg.fabChanStatus = 0
          ∧ t.ctx c = some { ctxOf ws with cstate := 0 } := by
  intro ws
  have hgo : ∀ i, (s.goOn (.cmd i)).CtxFree c := fun i => hfree.of_kept (.goOn ..)
  have hwords : ∀ i, (s.goOn (.cmd i)).chanWords c = ws := fun i => s.goOn_chanWords ..
  have hempty' : ∀ i d, ((s.goOn (.cmd i)).cu d).outbox = [] := fun i d =>
    ((CtxKept.goOn s (.cmd i)).outbox d).trans (hempty d)
  refine ⟨fun hends hunit i hi => ?_, fun hbad => ?_, ?_⟩
  · rw [← hwords i] at hends hunit ⊢
    obtain rfl | hi := List.mem_cons.mp hi
    · exact ⟨_, chanCmd_of_here hup hc hfar _ _, (hgo _).openChan_opens hends hunit⟩
    · obtain rfl := List.mem_singleton.mp hi
      refine ⟨_, chanCmd_of_here hup hc hfar _ _, ?_⟩
      rw [if_pos (hgo _).ok]
      exact (hgo _).closeChan_openChan (hempty' _) hends hunit
  · rw [← hwords (.chanOpen c)] at hbad
    obtain ⟨hreg, hctx, hchan⟩ := (hgo (.chanOpen c)).openChan_refuses hbad
    have hkept := CtxKept.goOn s (.cmd (.chanOpen c))
    exact ⟨_, chanCmd_of_here hup hc hfar _ _, hreg, hctx.trans (hkept.placed.ctx (s.goOn_hbm _) c),
      hchan.trans (hkept.chan c)⟩
  · rw [← hwords (.chanClose c)]
    exact ⟨_, chanCmd_of_here hup hc hfar _ _, (hgo _).closeChan_closes (hempty' _)⟩

variable {h : Hdr} (hc : h.chan.toNat = c)
include hc

theorem ack_of_open (hopen : (ctxOf (s.chanWords c)).cstate = 1) (hempty : ∀ d, (s.cu d).outbox = []) :
    let x := ctxOf (s.chanWords c)
    let v := h.arg.toNat % 2 ^ 32
    let n := (v + 2 ^ 32 - x.acked) % 2 ^ 32
    (0 < n → n ≤ (x.tx + 2 ^ 32 - x.acked) % 2 ^ 32 → ∃ t, exec (.ack h) s = .next t
        ∧ t.ctx c = some { x with acked := v } ∧ (t.chan c).unacked = (s.chan c).unacked.drop n ∧ (t.chan c).retx = 0)
      ∧ ((x.tx + 2 ^ 32 - x.acked) % 2 ^ 32 < n ∨ n = 0 →
          exec (.ack h) s = .next ((s.goOn (.cmd (.ack h))).unstamp h)) := by
  intro x v n
  have hexec := exec_ack hup hfar hc hfree.ctx_eq
  rw [if_pos hopen] at hexec
  refine ⟨fun hnew hsent => ?_, fun hold => hexec.trans (congrArg _ (if_pos hold.symm))⟩
  have hkept := CtxKept.ackTaken s h
  rw [State.takeAck_of_new hnew hsent] at hexec
  obtain ⟨hctx, hchan⟩ := (hfree.of_kept hkept).acked_moves (fun d => (hkept.outbox d).trans (hempty d))
    (v := v) (Nat.mod_lt _ (by decide)) { s.chan c with unacked := (s.chan c).unacked.drop n, progress := s.pitch, retx := 0 }
  rw [hkept.chan, hkept.pitch] at hexec
  refine ⟨_, hexec, ?_, by rw [hchan], by rw [hchan]⟩
  rw [hctx, hkept.placed.chanWords (s.goOn_hbm _)]

theorem ack_of_closed (hclosed : (ctxOf (s.chanWords c)).cstate ≠ 1) : ∃ t, exec (.ack h) s = .next t ∧ SameMemory s t
    ∧ t.chan c = s.chan c
    ∧ (t.reg Reg.fabChanReject).toNat = min ((s.reg Reg.fabChanReject).toNat + 1) 0xFFFFFFFF := by
  have hexec := exec_ack hup hfar hc hfree.ctx_eq
  rw [if_neg hclosed] at hexec
  have hkept := CtxKept.ackTaken s h
  obtain ⟨hspad, hhbm⟩ := SameMemory.ackTaken s h
  obtain ⟨hchan, ⟨hspad', hhbm'⟩, hcount⟩ := State.chanReject_counts ((s.goOn (.cmd (.ack h))).unstamp h) c
  refine ⟨_, hexec, ⟨fun a => (hspad' a).trans (hspad a), fun a => (hhbm' a).trans (hhbm a)⟩,
    hchan.trans (hkept.chan c), ?_⟩
  rw [hcount, hkept.reg _ (.of_place (by decide) (by decide) (.inl (by decide)))]

end

/-- Settles O28: the commands on a context, then acknowledgements and timeouts. -/
theorem channelsSequenceAndRetransmit : Obligations.ChannelsSequenceAndRetransmit := by
  refine ⟨fun s c hup hc hok hevicts hfar hempty => chanCommands hup ⟨hok, hevicts⟩ hfar hc hempty,
    fun s c x hup hx hevicts hfar hempty => ?_⟩
  have hok : s.chanOk c = true := by
    by_contra hnot
    rw [State.ctx, if_neg hnot] at hx
    exact nomatch hx
  have hfree : s.CtxFree c := ⟨hok, hevicts⟩
  obtain rfl : ctxOf (s.chanWords c) = x := Option.some.inj (hfree.ctx_eq.symm.trans hx)
  refine ⟨fun h hc hopen => ack_of_open hup hfree hfar hc hopen hempty,
    fun h hc hclosed => ack_of_closed hup hfree hfar hc hclosed, fun b hfrom => ?_, fun hopen hunacked => ?_⟩
  · have hexec := exec_ackDelay hup hfrom
    exact ⟨fun hlate => ⟨_, by rw [hexec, if_pos hlate], State.chanAck_tells hx⟩,
      fun hearly => by rw [hexec, if_neg (by omega)]⟩
  · have hexec := exec_channelRto hup hx hopen hunacked
    refine ⟨fun hearly => ?_, fun hlate => ⟨fun hretry => ?_, fun hspent => ?_⟩⟩
    · rw [hexec, if_neg (Nat.not_le.mpr hearly)]
    · obtain ⟨hchan, hcount⟩ := hfree.resendChan_counts (ctxOf (s.chanWords c))
      exact ⟨_, by rw [hexec, if_pos hlate, if_pos hretry], by rw [hchan], by rw [hchan], hcount⟩
    · exact ⟨_, by rw [hexec, if_pos hlate, if_neg (Nat.not_lt.mpr hspent)], hfree.failChan_fails hempty⟩

end Sys2Proof.Machine
end

section
/-! PROOF. Messages that come through channels, contributions and dW pieces, up to the unit that takes them (R361, R362,
R373, R375, R378, R382). -/

namespace Sys2Proof.Machine

/-! ### Messages for a context that is not OPEN (R362) -/

/-- A message for a context that is not OPEN is rejected, and no unit has it. -/
theorem State.chanArrive_of_closed {s : State} {h : Hdr} (hclosed : ∀ x, s.ctx h.chan.toNat = some x → x.cstate ≠ 1)
    (bs : List Byte) : s.chanArrive h bs = s.chanReject h.chan.toNat := by
  have hreceive : s.chanReceive h bs = ([], s.chanReject h.chan.toNat) := by
    rw [State.chanReceive]
    dsimp only
    split
    · rfl
    · next x hx => rw [if_pos (hclosed x hx)]
  have hnew : s.chanNew h = false := by
    rw [State.chanNew]
    split
    · next x hx => rw [beq_false_of_ne (hclosed x hx), Bool.false_and, Bool.false_and]
    · rfl
  rw [State.chanArrive, hnew, if_neg Bool.false_ne_true]
  dsimp only
  rw [hreceive]
  rfl

/-! ### What a command finds that goes on -/

theorem State.goOn_cell (s : State) (w : FarWaiter) (c : Nat) : (s.goOn w).cell c = s.cell c := by rw [State.goOn_eq]; rfl

section
variable (s : State) (w : FarWaiter) (h : Hdr)

theorem State.goOn_unstamp_reg (off : Nat) : ((s.goOn w).unstamp h).reg off = s.reg off := by rw [State.goOn_eq]; rfl

theorem State.goOn_unstamp_step : ((s.goOn w).unstamp h).step = s.step := by rw [State.goOn_eq]; rfl

theorem State.goOn_unstamp_ownAddr : ((s.goOn w).unstamp h).ownAddr = s.ownAddr := by
  rw [State.ownAddr, State.fld, State.goOn_unstamp_reg, State.ownAddr, State.fld]

end

/-! ### Contributions (Table 9-6) -/

/-- A groundsheet that is on holds what is of the next epoch, in a format that is not reserved. -/
theorem State.takeContrib_of_next {s : State} {n : Nat} {h : Hdr} (bs : List Byte) (hon : s.fld (Reg.gsCtrl n) 0 1 = 1)
    (hmode : s.step.mode ≠ .diverged) (hepoch : h.epoch = s.epoch + 1) (hfmt : h.fmt.toNat ≤ 8) :
    s.takeContrib n h bs = s.setGs n { s.gs n with held := (s.gs n).held ++ [(h, bs)] } := by
  have hclass : s.classify h.epoch = .next := State.classify_of_next hmode hepoch
  have hgood : fmtReserved h.fmt.toNat = false := decide_eq_false (by omega)
  rw [State.takeContrib]
  dsimp only
  rw [if_neg (by omega), hclass, hgood]
  rfl

section
variable {s : State} (h : Hdr) (bs : List Byte) (hup : s.up = true)
include hup

theorem exec_coll : exec (.coll h bs) s = .next ((s.unstamp h).chanArrive { h with kind := 5 } bs) :=
  onUnit_whenOk (unit := true) rfl hup ..

theorem exec_exch : exec (.exch h bs) s = .next ((s.unstamp h).chanArrive { h with kind := 6 } bs) :=
  onUnit_whenOk (unit := true) rfl hup ..

theorem exec_dwPiece (hhere : s.farNeed (.cmd (.dwPiece h bs)) (s.placePages h.layer.toNat) = []) :
    exec (.dwPiece h bs) s =
      .next (((s.goOn (.cmd (.dwPiece h bs))).unstamp h).chanArrive { h with kind := 3 } bs) :=
  (onUnit_whenOk (unit := true) rfl hup ..).trans (congrArg _ (State.withPages_of_here hhere _))

theorem exec_contrib {n : Nat} (hn : n < 12) (hunit : h.dstUnit.toNat = 0x4000 + n)
    (hhere : s.farNeed (.cmd (.contrib h bs)) (s.contribPages n h) = []) : exec (.contrib h bs) s = .next
      (let u := (s.goOn (.cmd (.contrib h bs))).unstamp h
       if h.src.toNat = s.ownAddr then u.takeContrib n { h with kind := 4 } bs
       else u.chanArrive { h with kind := 4 } bs) := by
  have hgs : h.dstUnit.toNat - 0x4000 = n := by omega
  refine (onUnit_whenOk (unit := true) rfl (by rw [hup, gsUnitOk_of_unit hn hunit]; rfl) ..).trans (congrArg _ ?_)
  rw [hgs, State.withPages_of_here hhere]
  dsimp only
  rw [State.goOn_unstamp_ownAddr]

end

/-! ### Pieces of tiles that drain to RED (R373, R378) -/

theorem exec_dwPieceTake {s : State} {c h : Nat} {tile : Tile} (hc : c < 512) (hworks : s.works = true)
    (htile : (s.cell c).tiles.find? (fun t => t.h == h && t.phase == .red) = some tile)
    (hroom : s.cuFull (s.cuDie (hdrRow0 (s.redHdr c tile)) tile.layer) (s.redHdr c tile) = false)
    (hhere : s.farNeed (.cmd (.dwPieceTake c h)) (s.placePages tile.layer) = []) : exec (.dwPieceTake c h) s = .next
      ((((s.goOn (.cmd (.dwPieceTake c h))).setCell c { s.cell c with
          tiles := (s.cell c).tiles.map (fun x => if x = tile then { x with phase := .taken } else x) }).bump
            (Reg.cellMxPieces c)).takePartial (s.cuDie (hdrRow0 (s.redHdr c tile)) tile.layer) (s.redHdr c tile)
              (drainBytes tile)) := by
  have harm : exec (.dwPieceTake c h) s = onUnit (c < 512)
      (match (s.cell c).tiles.find? (fun t => t.h == h && t.phase == .red) with
    | none => s
    | some t =>
      let d := s.redHdr c t
      let die := s.cuDie (hdrRow0 d) t.layer
      whenOk (s.works && !s.cuFull die d) s
        (s.withPages (.dwPieceTake c h) (s.placePages t.layer)
          (fun u =>
            let k := u.cell c
            let u1 := u.setCell c { k with tiles := k.tiles.map (fun x => if x = t then { x with phase := .taken } else x) }
            (u1.bump (Reg.cellMxPieces c)).takePartial die d (drainBytes t)))) := rfl
  rw [harm, htile]
  refine (onUnit_whenOk (decide_eq_true hc) (by rw [hworks, hroom]; rfl) ..).trans ?_
  rw [State.withPages_of_here hhere]
  dsimp only
  rw [State.goOn_cell]

/-- Settles O21: each kind of message up to its unit, and the piece of a tile up to the collective unit. -/
theorem channelMessagesReachTheirUnit : Obligations.ChannelMessagesReachTheirUnit := by
  refine ⟨fun s h bs hup => ⟨exec_coll h bs hup, exec_exch h bs hup, exec_dwPiece h bs hup, fun hclosed => ?_,
    fun n hn hunit hhere => ?_⟩, fun s c h tile hc hworks htile => ?_⟩
  · rw [State.chanArrive_of_closed hclosed]
    obtain ⟨-, hmem, hcount⟩ := State.chanReject_counts s h.chan.toNat
    have hreported : Reported s (s.chanReject h.chan.toNat) := (Reported.bump ..).trans (.reportLim ..)
    exact ⟨hmem, hcount, hreported.cells⟩
  · intro u
    have hexec := exec_contrib h bs hup hn hunit hhere
    refine ⟨fun hown => by rw [hexec, if_pos hown], fun hother => by rw [hexec, if_neg hother],
      fun hown hon hmode hepoch hfmt => ?_⟩
    have hheld := State.takeContrib_of_next (s := u) (n := n) (h := { h with kind := 4 }) bs
      (by rw [State.fld, State.goOn_unstamp_reg]; exact hon) (by rw [State.goOn_unstamp_step]; exact hmode)
      (by rw [State.epoch, State.goOn_unstamp_reg]; exact hepoch) hfmt
    rw [hexec, if_pos hown]
    exact congrArg _ hheld
  · intro d die k g u hroom hhere
    exact exec_dwPieceTake hc hworks htile hroom hhere

end Sys2Proof.Machine
end

section
/-! PROOF. Collectives: the handle taken, CL.WAIT and CL.CANCEL, and the end of one whose data is all there (R380, R381, R383,
R384). -/

namespace Sys2Proof.Machine

/-! ### The handle taken (R380) -/

/-- A collective's handle is taken from those not in use. -/
theorem State.takeColl_mem {s v : State} {c h : Nat} (ht : s.takeColl c = some (h, v)) : h ∈ (s.cell c).freeColls := by
  rw [State.takeColl] at ht
  dsimp only at ht
  split at ht
  · cases ht
  · next hfree =>
    obtain ⟨rfl, -⟩ := Prod.mk.inj (Option.some.inj ht)
    have hlt : s.drawNat.1 % (s.cell c).freeColls.length < (s.cell c).freeColls.length :=
      Nat.mod_lt _ (List.length_pos_iff.mpr (mt List.isEmpty_iff.mpr hfree))
    rw [List.getD_eq_getElem _ _ hlt]
    exact List.getElem_mem hlt

/-! ### What a collective instruction comes to (R380, R384, Table 12-6) -/

/-- The store buffer is written out before every collective. -/
theorem State.fetched_collective (s : State) (c opc : Nat) : s.fetched c 0x06 opc = s.fetched c 0x06 0x00 := rfl

section
variable {u : State} {c op : Nat} {o : ROps} {w r : W64} {src dst : Nat}
  (hw : (u.cell c).s o.sa.toNat = w) (hr : (u.cell c).s (o.sa.toNat + 1) = r)
  (hsrc : ((u.cell c).a o.ax.toNat).toNat = src) (hdst : ((u.cell c).a o.ay.toNat).toNat = dst)
  (hhere : u.farNeed (.core c) (u.collPages w) = [])
include hw hr hsrc hdst hhere

theorem collEffect_of_refused {e : Nat} (hbad : (u.goOn (.core c)).checkColl op w r src dst = some e) :
    collEffect c op o u = .excRead (if e = excClOp ∨ e = excClFmt then u.goOn (.core c)
      else (u.goOn (.core c)).groupTouch c (collGroup w)) e := by
  subst hw hr hsrc hdst
  rw [collEffect, State.pagesFirst_of_here hhere, hbad]
  dsimp only
  split <;> rfl

variable (hok : (u.goOn (.core c)).checkColl op w r src dst = none)
include hok

theorem collEffect_of_full (hfull : ((u.goOn (.core c)).groupTouch c (collGroup w)).takeColl c = none) :
    collEffect c op o u = .stall := by
  subst hw hr hsrc hdst
  rw [collEffect, State.pagesFirst_of_here hhere, hok]
  dsimp only
  rw [hfull]
  rfl

theorem collEffect_of_taken {h : Nat} {v : State}
    (htake : ((u.goOn (.core c)).groupTouch c (collGroup w)).takeColl c = some (h, v)) :
    let t := v.startColl c h (v.newColl op w r src dst)
    collEffect c op o u = .done (t.setCell c ((t.cell c).setS o.sd.toNat (BitVec.ofNat 64 h))) := by
  subst hw hr hsrc hdst
  rw [collEffect, State.pagesFirst_of_here hhere, hok]
  dsimp only
  rw [htake]
  rfl

end

/-- A collective instruction starts under a free handle, waits for one, or raises the cause of the check that refuses it. -/
theorem coll_starts {s u : State} {c op : Nat} {o : ROps} {i : Instr} {w r : W64} {src dst : Nat}
    (hx : exec i s = coreR c i o 0x06 op (collUses o) (collEffect c op o) s) (hu : s.fetched c 0x06 0x00 = u)
    (hw : (s.cell c).s o.sa.toNat = w) (hr : (s.cell c).s (o.sa.toNat + 1) = r)
    (hsrc : ((s.cell c).a o.ax.toNat).toNat = src) (hdst : ((s.cell c).a o.ay.toNat).toNat = dst)
    (hhere : u.farNeed (.core c) (u.collPages w) = []) :
    let g := u.goOn (.core c)
    let read := g.groupTouch c (collGroup w)
    (∀ h v, g.checkColl op w r src dst = none → read.takeColl c = some (h, v) → h ∈ (read.cell c).freeColls ∧
        let t := v.startColl c h (v.newColl op w r src dst)
        RLeaves s c i o 0x06 op (collUses o) (t.setCell c ((t.cell c).setS o.sd.toNat (BitVec.ofNat 64 h))))
      ∧ (g.checkColl op w r src dst = none → read.takeColl c = none → RStalls s c i o 0x06 op (collUses o))
      ∧ ∀ e, g.checkColl op w r src dst = some e →
          RTrapsIn s c i o 0x06 op (collUses o) (if e = excClOp ∨ e = excClFmt then g else read) e := by
  rw [← State.fetched_collective s c op] at hu
  subst hu
  rw [← fetched_s s c 0x06 op] at hw hr
  rw [← fetched_a s c 0x06 op] at hsrc hdst
  exact ⟨fun h v hok htake =>
      ⟨State.takeColl_mem htake, rLeaves_of hx (collEffect_of_taken hw hr hsrc hdst hhere hok htake)⟩,
    fun hok hfull => rStalls_of hx (collEffect_of_full hw hr hsrc hdst hhere hok hfull),
    fun e hbad => rTrapsIn_of hx (collEffect_of_refused hw hr hsrc hdst hhere hbad)⟩

/-! ### CL.WAIT and CL.CANCEL (R383) -/

theorem State.fetched_colls (s : State) (c cls opc : Nat) : ((s.fetched c cls opc).cell c).colls = (s.cell c).colls := by
  have hfetch : ((s.fetchCe c).cell c).colls = (s.cell c).colls := by rw [State.fetchCe_cell_self]
  unfold State.fetched
  split
  · obtain ⟨r, t, w, h⟩ := drainStores_cell (s.fetchCe c) c c
    rw [h]; exact hfetch
  · exact hfetch

theorem Coll.waitWord_of_failed {x : Coll} {r : Nat} (hr : r < 16) (h : x.phase = .failed r) :
    x.waitWord = some (BitVec.ofNat 64 (0x11 + 2 ^ 8 * r)) := by
  rw [Coll.waitWord, h]
  dsimp only
  rw [Nat.mod_eq_of_lt hr]
  rfl

/-- What CL.WAIT does once it issues. -/
def clWaitEff (c : Nat) (o : ROps) (t : State) : Eff :=
  let k := t.cell c
  let h := (k.s o.sa.toNat).toNat
  match alistGet k.colls h with
  | none => .exc excClHandle 0
  | some x => match x.waitWord with
    | none => .stall
    | some w => .done (t.setCell c ({ k with colls := tabDel h k.colls }.setS o.sd.toNat w))

/-- What CL.CANCEL does once it issues. -/
def clCancelEff (c : Nat) (o : ROps) (t : State) : Eff :=
  let h := ((t.cell c).s o.sa.toNat).toNat
  match alistGet (t.cell c).colls h with
  | none => .exc excClHandle 0
  | some k => .done (t.cancelColl c h k)

theorem exec_clWait_eq (c : Nat) (o : ROps) (s : State) : exec (.clWait c o) s =
    coreR c (.clWait c o) o 0x06 0x08 [o.sd.toNat, o.sa.toNat] (clWaitEff c o) s := by rfl

theorem exec_clCancel_eq (c : Nat) (o : ROps) (s : State) : exec (.clCancel c o) s =
    coreR c (.clCancel c o) o 0x06 0x09 [o.sa.toNat] (clCancelEff c o) s := by rfl

section
variable {s u : State} {c h : Nat} {o : ROps} (hh : ((s.cell c).s o.sa.toNat).toNat = h)
include hh

section
variable (hnone : alistGet (s.cell c).colls h = none)
include hnone

theorem exec_clWait_traps : RTraps s c (.clWait c o) o 0x06 0x08 [o.sd.toNat, o.sa.toNat] excClHandle := by
  refine rTraps_of (exec_clWait_eq c o s) ?_
  rw [clWaitEff, fetched_s, hh, State.fetched_colls, hnone]

theorem exec_clCancel_traps : RTraps s c (.clCancel c o) o 0x06 0x09 [o.sa.toNat] excClHandle := by
  refine rTraps_of (exec_clCancel_eq c o s) ?_
  rw [clCancelEff, fetched_s, hh, State.fetched_colls, hnone]

end

variable {x : Coll} (hx : alistGet (s.cell c).colls h = some x)
include hx

/-- CL.WAIT on a collective that has a result word returns it and frees the handle. -/
theorem exec_clWait_leaves {w : W64} (hu : s.fetched c 0x06 0x08 = u) (hword : x.waitWord = some w) :
    RLeaves s c (.clWait c o) o 0x06 0x08 [o.sd.toNat, o.sa.toNat]
      (u.setCell c ({ u.cell c with colls := tabDel h (u.cell c).colls }.setS o.sd.toNat w)) := by
  subst hu
  refine rLeaves_of (exec_clWait_eq c o s) ?_
  rw [clWaitEff, fetched_s, hh, State.fetched_colls, hx]
  dsimp only
  rw [hword]

theorem exec_clWait_stalls (hrun : x.waitWord = none) :
    RStalls s c (.clWait c o) o 0x06 0x08 [o.sd.toNat, o.sa.toNat] := by
  refine rStalls_of (exec_clWait_eq c o s) ?_
  rw [clWaitEff, fetched_s, hh, State.fetched_colls, hx]
  dsimp only
  rw [hrun]

theorem exec_clCancel_leaves (hu : s.fetched c 0x06 0x09 = u) :
    RLeaves s c (.clCancel c o) o 0x06 0x09 [o.sa.toNat] (u.cancelColl c h x) := by
  subst hu
  refine rLeaves_of (exec_clCancel_eq c o s) ?_
  rw [clCancelEff, fetched_s, hh, State.fetched_colls, hx]

end

/-! ### COLLECTIVE_COMPLETE (R381, R383) -/

theorem State.putColl_get (s : State) (c h : Nat) (k : Coll) :
    alistGet ((s.putColl c h k).cell c).colls h = some k := by
  rw [State.putColl, State.cell_setCell, if_pos rfl]
  exact alistGet_tabPut_self ..

/-- A running collective whose data is all there and sent on writes its result and is done. -/
theorem exec_collectiveComplete_next {s : State} {c h : Nat} {k : Coll} {bs : List Byte} (hc : c < 512)
    (hworks : s.works = true) (hk : alistGet (s.cell c).colls h = some k) (hrun : k.phase = .running)
    (hsent : s.allSent c h = true) (hres : s.collResult k = some bs) :
    exec (.collectiveComplete c h) s = .next ((s.spadWrite k.dst bs).putColl c h { k with phase := .done }) := by
  have hgo : ¬(k.phase ≠ .running ∨ s.works = false ∨ s.allSent c h = false) := by
    simp [hrun, hworks, hsent]
  have harm : exec (.collectiveComplete c h) s = execCollectiveComplete c h s := by rfl
  rw [harm, execCollectiveComplete, decide_eq_true hc, onUnit_true, hk]
  dsimp only
  rw [if_neg hgo, hres]

/-- Settles O20: the start of each operation, the wait and the cancel of a handle by what is held under it, and the end by its
write of scratchpad. -/
theorem collectivesRunAndComplete : Obligations.CollectivesRunAndComplete := by
  refine ⟨fun s c o => ?_, fun s c o => ?_, fun s c h k bs hc hworks hk hrun hsent hres => ?_⟩
  · intro k u w r src dst g read cl
    have hstarts : ∀ i op, exec i s = coreR c i o 0x06 op (collUses o) (collEffect c op o) s → cl i op :=
      fun i op hx => coll_starts hx rfl rfl rfl rfl rfl
    exact ⟨hstarts _ _ (by rfl), hstarts _ _ (by rfl), hstarts _ _ (by rfl), hstarts _ _ (by rfl), hstarts _ _ (by rfl)⟩
  · intro k u h uses ret
    refine ⟨fun x hx => ⟨fun hdone => ?_, fun r hr hfailed => ?_, fun hrun => ?_, exec_clCancel_leaves rfl hx rfl⟩,
      fun hnone => ⟨exec_clWait_traps rfl hnone, exec_clCancel_traps rfl hnone⟩⟩
    · exact exec_clWait_leaves rfl hx rfl (by rw [Coll.waitWord, hdone])
    · exact exec_clWait_leaves rfl hx rfl (Coll.waitWord_of_failed hr hfailed)
    · exact exec_clWait_stalls rfl hx (by rw [Coll.waitWord, hrun])
  · exact ⟨_, exec_collectiveComplete_next hc hworks hk hrun hsent hres, spadWrite_hbm s k.dst bs,
      fun j => spadWrite_inside s k.dst j bs, spadWrite_other s k.dst bs, State.putColl_get ..⟩

end Sys2Proof.Machine
end

section
/-! PROOF. What an instruction of a control core comes to: its word, its guard, and an end that moves its core only (R393 to
R395, R405, R407). -/

namespace Sys2Proof.Machine

/-! ### Changes of one core -/

theorem CoreGoes.refl (s : State) (c : Nat) : CoreGoes s s c (s.cell c) := ⟨rfl, fun _ _ => rfl, fun _ _ _ => rfl, rfl⟩

theorem CoreGoes.setCell (s : State) (c : Nat) (k : Cell) : CoreGoes s (s.setCell c k) c k := by
  refine ⟨rfl, fun d hd => ?_, fun off _ _ => rfl, ?_⟩
  · rw [State.cell_setCell, if_neg hd]
  · rw [State.cell_setCell, if_pos rfl]

section
variable {s t : State} {c : Nat} {k : Cell} (h : CoreGoes s t c k)
include h

theorem CoreGoes.setPc (n : Nat) : CoreGoes s (t.setPc c n) c (k.goTo (BitVec.ofNat 12 n)) := by
  obtain ⟨hrest, hcells, hregs, hcell⟩ := h
  unfold State.setPc
  refine ⟨?_, fun d hd => ?_, fun off hinsns hce => hregs off hinsns hce, ?_⟩
  · rw [hrest]; rfl
  · rw [State.cell_setCell, if_neg hd, hcells d hd]
  · rw [State.cell_setCell, if_pos rfl, hcell]; rfl

theorem CoreGoes.countInsn : CoreGoes s (t.countInsn c) c k := by
  obtain ⟨hrest, hcells, hregs, hcell⟩ := h
  refine ⟨?_, fun d hd => ?_, fun off hinsns hce => ?_, ?_⟩
  · rw [State.countInsn_eq, hrest]
  · rw [State.countInsn_cell, if_neg hd, hcells d hd]
  · rw [State.countInsn_reg _ hinsns, hregs off hinsns hce]
  · rw [State.countInsn_cell, if_pos rfl, hcell]

end

/-- The fetch of the word after it counts, too, among what an instruction that only moves on may change. -/
theorem CoreGoes.of_fetchNext {s t : State} {c : Nat} {k : Cell} (h : CoreGoes (s.fetchNext c) t c k) :
    CoreGoes s t c k := by
  obtain ⟨hrest, hcells, hregs, hcell⟩ := h
  refine ⟨?_, fun d hd => ?_, fun off hinsns hce => ?_, hcell⟩
  · rw [State.fetchNext_eq] at hrest; exact hrest
  · rw [hcells d hd, State.fetchNext, State.correctWord_cell, if_neg hd]
  · rw [hregs off hinsns hce, State.fetchNext, State.correctWord_reg s c _ off hce]

theorem CoreGoes.fetchCe (s : State) (c : Nat) : CoreGoes s (s.fetchCe c) c (s.cell c) :=
  (CoreGoes.refl (s.fetchCe c) c).of_fetchCe.congr (by unfold SameCore; rw [State.fetchCe_cell_self])

/-- A cell stored once its word is fetched. -/
theorem CoreGoes.setCell_fetchCe (s : State) {c : Nat} {k k' : Cell} (h : SameCore k k') :
    CoreGoes s ((s.fetchCe c).setCell c k) c k' :=
  (CoreGoes.setCell (s.fetchCe c) c k).of_fetchCe.congr h

theorem setS_fetchCe_sameCore (s : State) (c n : Nat) (v : W64) :
    SameCore (((s.fetchCe c).cell c).setS n v) ((s.cell c).setS n v) := by
  unfold SameCore
  rw [State.fetchCe_cell_self]
  unfold Cell.setS
  split <;> rfl

/-! ### How an instruction ends -/

section
variable {s t u : State} {c cls opc len : Nat} {i : Instr} {k : Cell}

theorem finish_done_goes (hgo : CoreGoes s t c k) (hpc : (u.cell c).pc.toNat + len ≤ 4095) :
    CoreGoes s (u.finish c i cls opc len (.done t)) c (k.goTo (BitVec.ofNat 12 ((u.cell c).pc.toNat + len))) := by
  rw [State.finish, if_pos hpc]
  exact (hgo.setPc _).countInsn

theorem finish_jump_goes {target : Int} (hgo : CoreGoes s t c k) (h0 : 0 ≤ target) (hlast : target ≤ 4095) :
    CoreGoes s (u.finish c i cls opc len (.jump target t)) c (k.goTo (BitVec.ofNat 12 target.toNat)) := by
  rw [State.finish, if_pos ⟨h0, hlast⟩]
  exact (hgo.setPc _).countInsn

theorem finish_jump_traps {target : Int} (h : target < 0 ∨ 4095 < target) :
    u.finish c i cls opc len (.jump target t) = u.takeExc c cls opc excBrTarget 0 := by
  rw [State.finish, if_neg (by omega)]

end

/-! ### Issue: the checks of the word and of its guard -/

theorem fetchCe_imemErr (s : State) (c : Nat) : ((s.fetchCe c).cell c).imemErr = (s.cell c).imemErr := by
  rw [State.fetchCe_cell_self]

section
variable {s : State} {c cls opc len : Nat} {i : Instr} {gneg : Bool} {gp : BitVec 3} {uses : List Nat} {eff : State → Eff}
  (herr : (s.cell c).imemErr.contains (s.cell c).pc.toNat = false)
include herr

/-- An illegal word raises ILLEGAL_OP, whatever its guard says (R394). -/
theorem issue_of_illegal :
    s.issue c i gneg gp cls opc len false uses eff = (s.fetchCe c).takeExc c cls opc excIllegalOp 0 := by
  unfold State.issue
  dsimp only
  rw [fetchCe_imemErr, fetchCe_pc, herr, if_neg Bool.false_ne_true, if_pos rfl]

/-- An instruction whose guard is false ends with no effect of its own (R393). -/
theorem issue_of_false_guard (hguard : ((s.cell c).p gp.toNat ^^ gneg) = false) :
    s.issue c i gneg gp cls opc len true uses eff = (s.fetchCe c).finish c i cls opc len (.done (s.fetchCe c)) := by
  unfold State.issue
  dsimp only
  rw [fetchCe_imemErr, fetchCe_pc, fetchCe_p, herr, if_neg Bool.false_ne_true, if_neg (by decide), if_pos hguard]

end

/-! ### Issue outside the classes that wait for the store buffer -/

/-- What an instruction of format R that issues comes to, from the state in which its word is fetched. -/
theorem coreR_fetched {s : State} {c : Nat} {i : Instr} {o : ROps} {cls opc : Nat} {uses : List Nat} {eff : State → Eff}
    (hx : exec i s = coreR c i o cls opc uses eff s) (hw : waitsStores cls opc = false)
    (h : Issues s c i o.gneg o.gp uses) (hl : rLegal cls opc o = true) :
    exec i s = .next ((s.fetchCe c).finish c i cls opc 1 (eff (s.fetchCe c))) := by
  rw [coreR_issues hx h hl, State.fetched_eq_fetchCe s c hw]

/-- The same for one of format I. -/
theorem coreI_fetched {s : State} {c : Nat} {i : Instr} {o : IOps} {cls opc : Nat} {uses : List Nat} {eff : State → Eff}
    (hx : exec i s = coreI c i o cls opc uses eff s) (hw : waitsStores cls opc = false)
    (h : Issues s c i o.gneg o.gp uses) (hl : iLegal cls opc o = true) :
    exec i s = .next ((s.fetchCe c).finish c i cls opc 1 (eff (s.fetchCe c))) := by
  rw [hx, coreI, hl, coreStep_issues h, State.fetched_eq_fetchCe s c hw]

end Sys2Proof.Machine
end

section
/-! PROOF. The scalar class: integers, W32 floats, immediates, compares, predicates and address registers (R80, R82, R395,
R396, Table 13-5). -/

namespace Sys2Proof.Machine

/-! ### The shapes of Table 13-5 -/

section
variable {s : State} {c opc : Nat} {i : Instr}

theorem rCompletes_of_scalarRR {o : ROps} {f : W64 → W64 → W64} {v : W64} (hx : exec i s = scalarRR c i o opc f s)
    (hv : f ((s.cell c).s o.sa.toNat) ((s.cell c).s o.sb.toNat) = v) :
    RCompletes s c i o 0x01 opc [o.sd.toNat, o.sa.toNat, o.sb.toNat] ((s.cell c).setS o.sd.toNat v) :=
  rCompletes_of hx rfl (by rw [fetchCe_s, fetchCe_s, hv]; exact effS_cell ..)

theorem iCompletes_of_scalarRI {o : IOps} {f : W64 → W64 → W64} {v : W64} (hx : exec i s = scalarRI c i o opc f s)
    (hv : f ((s.cell c).s o.sa.toNat) (immI o.imm) = v) :
    ICompletes s c i o 0x01 opc [o.sd.toNat, o.sa.toNat] ((s.cell c).setS o.sd.toNat v) :=
  iCompletes_of hx rfl (by rw [fetchCe_s, hv]; exact effS_cell ..)

theorem rCompletes_of_scalarCmp {o : ROps} {f : W64 → W64 → Bool} {b : Bool} (hx : exec i s = scalarCmp c i o opc f s)
    (hb : f ((s.cell c).s o.sa.toNat) ((s.cell c).s o.sb.toNat) = b) :
    RCompletes s c i o 0x01 opc [o.sa.toNat, o.sb.toNat] ((s.cell c).setP o.sd.toNat b) :=
  rCompletes_of hx rfl (by rw [fetchCe_s, fetchCe_s, hb]; exact effP_cell ..)

theorem iCompletes_of_scalarCmpI {o : IOps} {f : W64 → W64 → Bool} {b : Bool} (hx : exec i s = scalarCmpI c i o opc f s)
    (hb : f ((s.cell c).s o.sa.toNat) (immI o.imm) = b) :
    ICompletes s c i o 0x01 opc [o.sa.toNat] ((s.cell c).setP o.sd.toNat b) :=
  iCompletes_of hx rfl (by rw [fetchCe_s, hb]; exact effP_cell ..)

theorem rCompletes_of_scalarPred {o : ROps} {f : Bool → Bool → Bool} {b : Bool}
    (hx : exec i s = scalarPred c i o opc f s) (hb : f ((s.cell c).p o.sa.toNat) ((s.cell c).p o.sb.toNat) = b) :
    RCompletes s c i o 0x01 opc [] ((s.cell c).setP o.sd.toNat b) :=
  rCompletes_of hx rfl (by rw [fetchCe_p, fetchCe_p, hb]; exact effP_cell ..)

end

/-! ### The rows with a shape of their own -/

section
variable (s : State) (c : Nat)

theorem exec_sel_completes (o : ROps) : RCompletes s c (.sel c o) o 0x01 0x0F [o.sd.toNat, o.sa.toNat, o.sb.toNat]
    ((s.cell c).setS o.sd.toNat
      (if (s.cell c).p (o.x.toNat % 8) then (s.cell c).s o.sa.toNat else (s.cell c).s o.sb.toNat)) :=
  rCompletes_of (show exec _ s = execSel c o s by rfl) rfl
    (by rw [fetchCe_p, fetchCe_s, fetchCe_s]; exact effS_cell ..)

theorem exec_fadd_completes (o : ROps) : RCompletes s c (.fadd c o) o 0x01 0x48 [o.sd.toNat, o.sa.toNat, o.sb.toNat]
    ((s.cell c).setS o.sd.toNat
      (w32Result (addVal (w32Val ((s.cell c).s o.sa.toNat)) (w32Val ((s.cell c).s o.sb.toNat))).1)) :=
  rCompletes_of_scalarRR (show exec _ s = execFadd c o s by rfl) rfl

theorem exec_fmul_completes (o : ROps) : RCompletes s c (.fmul c o) o 0x01 0x49 [o.sd.toNat, o.sa.toNat, o.sb.toNat]
    ((s.cell c).setS o.sd.toNat
      (w32Result (mulVal (w32Val ((s.cell c).s o.sa.toNat)) (w32Val ((s.cell c).s o.sb.toNat))))) :=
  rCompletes_of_scalarRR (show exec _ s = execFmul c o s by rfl) rfl

theorem exec_ffma_completes (o : ROps) :
    RCompletes s c (.ffma c o) o 0x01 0x4A [o.sd.toNat, o.sa.toNat, o.sb.toNat, o.sc.toNat]
      ((s.cell c).setS o.sd.toNat (w32Result (fmaVal (w32Val ((s.cell c).s o.sa.toNat)) (w32Val ((s.cell c).s o.sb.toNat))
        (w32Val ((s.cell c).s o.sc.toNat))).1)) :=
  rCompletes_of (show exec _ s = execFfma c o s by rfl) rfl
    (by dsimp only; rw [fetchCe_s, fetchCe_s, fetchCe_s]; exact effS_cell ..)

theorem exec_fcvt_completes {o : ROps} (h : fcvtPair o.x.toNat = true) :
    RCompletes s c (.fcvt c o) o 0x01 0x4B [o.sd.toNat, o.sa.toNat]
      ((s.cell c).setS o.sd.toNat (fcvtResult o.x.toNat ((s.cell c).s o.sa.toNat))) :=
  rCompletes_of (show exec _ s = execFcvt c o s by rfl) rfl (by rw [if_pos h, fetchCe_s]; exact effS_cell ..)

/-- A pair of formats that Table 13-5 does not list is ILLEGAL_OP (R396). -/
theorem exec_fcvt_traps {o : ROps} (h : fcvtPair o.x.toNat = false) :
    RTraps s c (.fcvt c o) o 0x01 0x4B [o.sd.toNat, o.sa.toNat] excIllegalOp :=
  rTraps_of (show exec _ s = execFcvt c o s by rfl) (if_neg (by rw [h]; exact Bool.false_ne_true))

theorem exec_movi_completes (o : UOps) : UCompletes s c (.movi c o) o 0x18 [o.sd.toNat]
    ((s.cell c).setS o.sd.toNat (immU o.imm)) :=
  uCompletes_of (show exec _ s = execMovi c o s by rfl) rfl (effS_cell ..)

theorem exec_movhi_completes (o : UOps) : UCompletes s c (.movhi c o) o 0x19 [o.sd.toNat]
    ((s.cell c).setS o.sd.toNat (movHi ((s.cell c).s o.sd.toNat) o.imm)) :=
  uCompletes_of (show exec _ s = execMovhi c o s by rfl) rfl (by rw [fetchCe_s]; exact effS_cell ..)

theorem exec_cmpeqi_completes (o : IOps) : ICompletes s c (.cmpeqi c o) o 0x01 0x26 [o.sa.toNat]
    ((s.cell c).setP o.sd.toNat (decide ((s.cell c).s o.sa.toNat = immI o.imm))) :=
  iCompletes_of_scalarCmpI (show exec _ s = execCmpeqi c o s by rfl) rfl

theorem exec_cmplti_completes (o : IOps) : ICompletes s c (.cmplti c o) o 0x01 0x27 [o.sa.toNat]
    ((s.cell c).setP o.sd.toNat (decide (((s.cell c).s o.sa.toNat).toInt < (immI o.imm).toInt))) :=
  iCompletes_of_scalarCmpI (show exec _ s = execCmplti c o s by rfl) rfl

theorem exec_amov_completes (o : ROps) : RCompletes s c (.amov c o) o 0x01 0x30 [o.sa.toNat]
    ((s.cell c).setA o.ax.toNat (((s.cell c).s o.sa.toNat).setWidth 32)) :=
  rCompletes_of (show exec _ s = execAmov c o s by rfl) rfl (by rw [fetchCe_s]; exact effA_cell ..)

theorem exec_aaddi_completes (o : IOps) : ICompletes s c (.aaddi c o) o 0x01 0x31 []
    ((s.cell c).setA o.sd.toNat ((s.cell c).a o.sa.toNat + (immI o.imm).setWidth 32)) :=
  iCompletes_of (show exec _ s = execAaddi c o s by rfl) rfl (by rw [fetchCe_a]; exact effA_cell ..)

theorem exec_ard_completes (o : ROps) : RCompletes s c (.ard c o) o 0x01 0x32 [o.sd.toNat]
    ((s.cell c).setS o.sd.toNat (((s.cell c).a o.ax.toNat).setWidth 64)) :=
  rCompletes_of (show exec _ s = execArd c o s by rfl) rfl (by rw [fetchCe_a]; exact effS_cell ..)

end

/-! ### Values -/

/-- The shift count of an immediate form is the low six bits of the immediate (R395). -/
theorem shiftCount_immI (v : BitVec 34) : shiftCount (immI v) = v.toNat % 64 := by
  have hv := v.isLt
  rw [shiftCount, immI, BitVec.toNat_signExtend, BitVec.toNat_setWidth]
  split <;> omega

theorem ite_slt {α : Type} (x y : W64) (a b : α) :
    (if x.slt y then a else b) = if x.toInt < y.toInt then a else b := by
  simp only [BitVec.slt, decide_eq_true_eq]

theorem ite_ult {α : Type} (x y : W64) (a b : α) :
    (if x.ult y then a else b) = if x.toNat < y.toNat then a else b := by
  simp only [BitVec.ult, decide_eq_true_eq]

theorem not_slt_eq_decide (x y : W64) : (!x.slt y) = decide (y.toInt ≤ x.toInt) := by
  simp [BitVec.slt, ← decide_not]

theorem not_ult_eq_decide (x y : W64) : (!x.ult y) = decide (y.toNat ≤ x.toNat) := by
  simp [BitVec.ult, ← decide_not]

/-- Settles O1: each row by the shape it has in Table 13-5 and its operation, read from the registers as they stood. -/
theorem scalarInstructionsGiveTheirResults : Obligations.ScalarInstructionsGiveTheirResults := by
  refine ⟨fun s c o => ?_, fun s c o => ?_, ⟨fun s c o => ?_, fun s c o => ?_⟩, ⟨fun s c o => ?_, fun s c o => ?_⟩,
    fun k v b => ?_, fun s c o q => ?_⟩
  · intro k x y rr
    have hrr : ∀ {i opc v} (f : W64 → W64 → W64), exec i s = scalarRR c i o opc f s → f x y = v → rr i opc v :=
      fun f hx hv => rCompletes_of_scalarRR hx hv
    exact ⟨hrr (fun a b => a + b) rfl rfl, hrr (fun a b => a - b) rfl rfl, hrr (fun a b => a * b) rfl rfl,
      hrr mulHiU rfl rfl, hrr mulHiS rfl rfl,
      hrr (fun a b => a &&& b) rfl rfl, hrr (fun a b => a ||| b) rfl rfl, hrr (fun a b => a ^^^ b) rfl rfl,
      hrr (fun a b => a <<< shiftCount b) rfl rfl, hrr (fun a b => a >>> shiftCount b) rfl rfl,
      hrr (fun a b => a.sshiftRight (shiftCount b)) rfl rfl,
      hrr (fun a b => if a.slt b then a else b) rfl (ite_slt ..), hrr (fun a b => if a.slt b then b else a) rfl (ite_slt ..),
      hrr (fun a b => if a.ult b then a else b) rfl (ite_ult ..), hrr (fun a b => if a.ult b then b else a) rfl (ite_ult ..),
      exec_sel_completes s c o⟩
  · exact ⟨exec_fadd_completes s c o, exec_fmul_completes s c o, exec_ffma_completes s c o, exec_fcvt_completes s c,
      exec_fcvt_traps s c⟩
  · intro k x y n ri
    have hri : ∀ {i opc v} (f : W64 → W64 → W64), exec i s = scalarRI c i o opc f s → f x y = v → ri i opc v :=
      fun f hx hv => iCompletes_of_scalarRI hx hv
    have hn : shiftCount y = n := shiftCount_immI o.imm
    exact ⟨hri (fun a b => a + b) rfl rfl, hri (fun a b => a &&& b) rfl rfl, hri (fun a b => a ||| b) rfl rfl,
      hri (fun a b => a ^^^ b) rfl rfl, hri (fun a b => a <<< shiftCount b) rfl (congrArg (x <<< ·) hn),
      hri (fun a b => a >>> shiftCount b) rfl (congrArg (x >>> ·) hn),
      hri (fun a b => a.sshiftRight (shiftCount b)) rfl (congrArg x.sshiftRight hn)⟩
  · exact ⟨exec_movi_completes s c o, exec_movhi_completes s c o⟩
  · intro k x y p q cmp lgc
    have hcmp : ∀ {i opc b} (f : W64 → W64 → Bool), exec i s = scalarCmp c i o opc f s → f x y = b → cmp i opc b :=
      fun f hx hb => rCompletes_of_scalarCmp hx hb
    have hlgc : ∀ {i opc b} (f : Bool → Bool → Bool), exec i s = scalarPred c i o opc f s → f p q = b → lgc i opc b :=
      fun f hx hb => rCompletes_of_scalarPred hx hb
    exact ⟨hcmp (fun a b => a == b) rfl rfl, hcmp (fun a b => a != b) rfl decide_not.symm,
      hcmp (fun a b => a.slt b) rfl rfl, hcmp (fun a b => a.ult b) rfl rfl,
      hcmp (fun a b => !a.slt b) rfl (not_slt_eq_decide x y), hcmp (fun a b => !a.ult b) rfl (not_ult_eq_decide x y),
      hlgc (fun a b => a && b) rfl rfl, hlgc (fun a b => a || b) rfl rfl, hlgc (fun a b => a ^^ b) rfl rfl⟩
  · exact ⟨exec_cmpeqi_completes s c o, exec_cmplti_completes s c o⟩
  · exact ⟨k.setS_zero v, k.s_zero, k.setP_zero b, k.p_zero⟩
  · exact ⟨exec_amov_completes s c o, exec_aaddi_completes s c q, exec_ard_completes s c o⟩

end Sys2Proof.Machine
end

section
/-! PROOF. The branch class and the system class (R401, R404, Tables 13-6, 13-8 and 13-9). -/

namespace Sys2Proof.Machine

/-! ### Branches -/

theorem relTarget_fetchCe (s : State) (c : Nat) (o : IOps) :
    relTarget ((s.fetchCe c).cell c) o = relTarget (s.cell c) o := by
  rw [relTarget, fetchCe_pc, relTarget]

/-- A call has its link in SD once its word is fetched. -/
theorem linked_goes (s : State) (c n : Nat) : CoreGoes s
    ((s.fetchCe c).setCell c (((s.fetchCe c).cell c).setS n (linkWord ((s.fetchCe c).cell c)))) c
    ((s.cell c).setS n (linkWord (s.cell c))) := by
  rw [linkWord, fetchCe_pc]
  exact CoreGoes.setCell_fetchCe s (setS_fetchCe_sameCore s c n _)

section
variable {s : State} {c : Nat}

theorem exec_br_jumps {o : IOps} (h : Issues s c (.br c o) o.gneg o.gp []) (hl : iLegal 0x02 0x00 o = true) :
    exec (.br c o) s = .next ((s.fetchCe c).finish c (.br c o) 0x02 0x00 1
      (.jump (relTarget (s.cell c) o) (s.fetchCe c))) := by
  rw [coreI_fetched (show exec _ s = execBr c o s by rfl) rfl h hl, relTarget_fetchCe]

theorem exec_call_jumps {o : IOps} (h : Issues s c (.call c o) o.gneg o.gp [o.sd.toNat])
    (hl : iLegal 0x02 0x01 o = true) : exec (.call c o) s = .next ((s.fetchCe c).finish c (.call c o) 0x02 0x01 1
      (.jump (relTarget (s.cell c) o) ((s.fetchCe c).setCell c
        (((s.fetchCe c).cell c).setS o.sd.toNat (linkWord ((s.fetchCe c).cell c)))))) := by
  rw [coreI_fetched (show exec _ s = execCall c o s by rfl) rfl h hl, relTarget_fetchCe]

theorem exec_jmp_jumps {o : ROps} (h : Issues s c (.jmp c o) o.gneg o.gp [o.sa.toNat]) (hl : rLegal 0x02 0x02 o = true) :
    exec (.jmp c o) s = .next ((s.fetchCe c).finish c (.jmp c o) 0x02 0x02 1
      (.jump ((s.cell c).s o.sa.toNat).toNat (s.fetchCe c))) := by
  rw [coreR_fetched (show exec _ s = execJmp c o s by rfl) rfl h hl, fetchCe_s]

theorem exec_callr_jumps {o : ROps} (h : Issues s c (.callr c o) o.gneg o.gp [o.sd.toNat, o.sa.toNat])
    (hl : rLegal 0x02 0x03 o = true) : exec (.callr c o) s = .next ((s.fetchCe c).finish c (.callr c o) 0x02 0x03 1
      (.jump ((s.cell c).s o.sa.toNat).toNat ((s.fetchCe c).setCell c
        (((s.fetchCe c).cell c).setS o.sd.toNat (linkWord ((s.fetchCe c).cell c)))))) := by
  rw [coreR_fetched (show exec _ s = execCallr c o s by rfl) rfl h hl, fetchCe_s]

/-- DBNZ branches where the value SD − 1 is not 0, whatever SD then holds (log entry 12). -/
theorem exec_dbnz_jumps {o : IOps} (h : Issues s c (.dbnz c o) o.gneg o.gp [o.sd.toNat])
    (hl : iLegal 0x02 0x04 o = true) (hd : (s.cell c).s o.sd.toNat - 1 ≠ 0) :
    exec (.dbnz c o) s = .next ((s.fetchCe c).finish c (.dbnz c o) 0x02 0x04 1
      (.jump (relTarget (s.cell c) o) ((s.fetchCe c).setCell c
        (((s.fetchCe c).cell c).setS o.sd.toNat ((s.cell c).s o.sd.toNat - 1))))) := by
  rw [coreI_fetched (show exec _ s = execDbnz c o s by rfl) rfl h hl, fetchCe_s, relTarget_fetchCe, if_neg hd]

theorem exec_dbnz_ends {o : IOps} (hd : (s.cell c).s o.sd.toNat - 1 = 0) : ICompletes s c (.dbnz c o) o 0x02 0x04
    [o.sd.toNat] ((s.cell c).setS o.sd.toNat ((s.cell c).s o.sd.toNat - 1)) := by
  refine iCompletes_of (show exec _ s = execDbnz c o s by rfl) rfl ?_
  rw [fetchCe_s, if_pos hd]
  exact effS_cell ..

end

/-! ### The system class -/

theorem exec_nop_completes (s : State) (c : Nat) (o : ROps) : RCompletes s c (.nop c o) o 0x0A 0x00 [] (s.cell c) :=
  RLeaves.completes (rLeaves_of (show exec _ s = execNop c o s by rfl) (by rw [State.fetched_eq_fetchCe s c rfl]))

theorem exec_sysRd_completes (s : State) (c : Nat) (o : ROps) : RCompletes s c (.sysRd c o) o 0x0A 0x01 [o.sd.toNat]
    ((s.cell c).setS o.sd.toNat (BitVec.ofNat 64 ((s.fetchCe c).controlReg c (o.x.toNat % 256)))) :=
  rCompletes_of (show exec _ s = execSysRd c o s by rfl) rfl (effS_cell ..)

/-- A write of a control register does not look at the corrected words of instruction memory. -/
theorem Cell.setControl_imemCe (k : Cell) (m : List Nat) (n : Nat) (v : W64) :
    ({ k with imemCe := m } : Cell).setControl n v = (k.setControl n v).map fun j => { j with imemCe := m } := by
  unfold Cell.setControl
  split <;> rfl

theorem Cell.setControl_fetchCe (s : State) (c n : Nat) (v : W64) : ((s.fetchCe c).cell c).setControl n v =
    ((s.cell c).setControl n v).map fun j => { j with imemCe := ((s.fetchCe c).cell c).imemCe } := by
  conv_lhs => rw [State.fetchCe_cell_self]
  exact Cell.setControl_imemCe ..

/-- EVEC, EPC, ES0 and ES1 are the control registers that can be written (Table 13-9). -/
theorem Cell.setControl_eq_none {k : Cell} {n : Nat} {v : W64} (h : n ≠ 0x10 ∧ n ≠ 0x11 ∧ n ≠ 0x14 ∧ n ≠ 0x15) :
    k.setControl n v = none := by
  obtain ⟨hevec, hepc, hes0, hes1⟩ := h
  unfold Cell.setControl
  split
  · exact absurd rfl hevec
  · exact absurd rfl hepc
  · exact absurd rfl hes0
  · exact absurd rfl hes1
  · rfl

/-- The effect of SYS.WR. -/
def sysWrEff (c : Nat) (o : ROps) (t : State) : Eff :=
  match (t.cell c).setControl (o.x.toNat % 256) ((t.cell c).s o.sa.toNat) with
  | some k => .done (t.setCell c k)
  | none => .exc excIllegalOp 0

theorem exec_sysWr_eq (c : Nat) (o : ROps) (s : State) :
    exec (.sysWr c o) s = coreR c (.sysWr c o) o 0x0A 0x02 [o.sa.toNat] (sysWrEff c o) s := by rfl

theorem exec_sysWr_completes {s : State} {c : Nat} {o : ROps} {k : Cell}
    (h : (s.cell c).setControl (o.x.toNat % 256) ((s.cell c).s o.sa.toNat) = some k) :
    RCompletes s c (.sysWr c o) o 0x0A 0x02 [o.sa.toNat] k := by
  refine rCompletes_of (exec_sysWr_eq c o s) rfl ?_
  rw [sysWrEff, fetchCe_s, Cell.setControl_fetchCe, h]
  exact ⟨_, rfl, rfl, rfl⟩

section
variable {s : State} {c opc : Nat} {i : Instr} {o : ROps} {uses : List Nat} {eff : State → Eff}
  (hx : exec i s = coreR c i o 0x0A opc uses eff s) (h : Issues s c i o.gneg o.gp uses) (hl : rLegal 0x0A opc o = true)
include hx h hl

theorem coreR_system_traps {cause trap : Nat} (heff : eff (s.fetchCe c) = .exc cause trap) :
    exec i s = .next ((s.fetchCe c).takeExc c 0x0A opc cause trap) := by
  rw [coreR_fetched hx rfl h hl, heff, State.finish]

/-- An instruction that places its core itself leaves it there. -/
theorem coreR_system_placed {t : State} {k : Cell} (heff : eff (s.fetchCe c) = .placed t) (hgo : CoreGoes s t c k) :
    ∃ u, exec i s = .next u ∧ CoreGoes s u c k :=
  ⟨_, coreR_fetched hx rfl h hl, by rw [heff]; exact hgo.countInsn⟩

end

theorem exec_sysEret_eq (c : Nat) (o : ROps) (s : State) : exec (.sysEret c o) s = coreR c (.sysEret c o) o 0x0A 0x03 []
    (fun t => if (t.cell c).active then .placed (t.setCell c (t.cell c).eret) else .exc excIllegalOp 0) s := by rfl

theorem exec_sysHalt_eq (c : Nat) (o : ROps) (s : State) : exec (.sysHalt c o) s = coreR c (.sysHalt c o) o 0x0A 0x04 []
    (fun t => .placed (t.setCell c { t.cell c with run := .done, stall := none })) s := by rfl

theorem exec_sysTrap_eq (c : Nat) (o : ROps) (s : State) : exec (.sysTrap c o) s = coreR c (.sysTrap c o) o 0x0A 0x05 []
    (fun _ => .exc excTrap (o.x.toNat % 256)) s := by rfl

theorem fetchCe_active (s : State) (c : Nat) : ((s.fetchCe c).cell c).active = (s.cell c).active := by
  rw [State.fetchCe_cell_self]

theorem eret_fetchCe_sameCore (s : State) (c : Nat) : SameCore ((s.fetchCe c).cell c).eret (s.cell c).eret := by
  unfold SameCore
  rw [State.fetchCe_cell_self]
  rfl

theorem halted_fetchCe_sameCore (s : State) (c : Nat) (r : CoreRun) : SameCore
    { (s.fetchCe c).cell c with run := r, stall := none } { s.cell c with run := r, stall := none } := by
  unfold SameCore
  rw [State.fetchCe_cell_self]

/-- Settles O3: a branch by whether its target is a word of instruction memory, DBNZ by its count, and a system instruction
by what it writes, places or raises. -/
theorem branchesAndSystemInstructionsAct : Obligations.BranchesAndSystemInstructionsAct := by
  refine ⟨⟨fun s c o => ?_, fun s c o => ?_⟩, fun s c o => ?_⟩
  · intro k tgt at_ link d go
    have hcount : CoreGoes s _ c (k.setS o.sd.toNat d) := CoreGoes.setCell_fetchCe s (setS_fetchCe_sameCore s c o.sd.toNat d)
    refine ⟨fun h0 hlast => ⟨fun h hl => ?_, fun h hl => ?_, fun hd h hl => ?_⟩,
      fun hd hpc h hl => exec_dbnz_ends hd h hl hpc, fun hbad => ⟨fun h hl => ?_, fun h hl => ?_, fun hd h hl => ?_⟩⟩
    · exact ⟨_, exec_br_jumps h hl, finish_jump_goes (CoreGoes.fetchCe s c) h0 hlast⟩
    · exact ⟨_, exec_call_jumps h hl, finish_jump_goes (linked_goes s c o.sd.toNat) h0 hlast⟩
    · exact ⟨_, exec_dbnz_jumps h hl hd, finish_jump_goes hcount h0 hlast⟩
    · exact (exec_br_jumps h hl).trans (congrArg _ (finish_jump_traps hbad))
    · exact (exec_call_jumps h hl).trans (congrArg _ (finish_jump_traps hbad))
    · exact (exec_dbnz_jumps h hl hd).trans (congrArg _ (finish_jump_traps hbad))
  · intro k tgt at_ link go
    have h0 : (0 : Int) ≤ tgt := Int.natCast_nonneg tgt
    refine ⟨fun hin => ?_, fun hout => ?_⟩
    · have hlast : (tgt : Int) ≤ 4095 := by omega
      exact ⟨fun h hl => ⟨_, exec_jmp_jumps h hl, finish_jump_goes (CoreGoes.fetchCe s c) h0 hlast⟩,
        fun h hl => ⟨_, exec_callr_jumps h hl, finish_jump_goes (linked_goes s c o.sd.toNat) h0 hlast⟩⟩
    · have hbad : (tgt : Int) < 0 ∨ 4095 < (tgt : Int) := by omega
      exact ⟨fun h hl => (exec_jmp_jumps h hl).trans (congrArg _ (finish_jump_traps hbad)),
        fun h hl => (exec_callr_jumps h hl).trans (congrArg _ (finish_jump_traps hbad))⟩
  · intro k x v go traps
    have hwr : ∀ {j}, k.setControl x v = some j → _ := fun {j} => exec_sysWr_completes
    refine ⟨exec_nop_completes s c o, exec_sysRd_completes s c o, fun hn => hwr (by rw [hn]; rfl),
      fun hn => hwr (by rw [hn]; rfl), fun hn => hwr (by rw [hn]; rfl), fun hn => hwr (by rw [hn]; rfl),
      fun hn h hl => ?_, fun hact h hl => ?_, fun hact h hl => ?_, fun h hl => ?_, fun h hl => ?_⟩
    · refine coreR_system_traps (exec_sysWr_eq c o s) h hl ?_
      rw [sysWrEff, Cell.setControl_eq_none hn]
      rfl
    · exact coreR_system_placed (exec_sysEret_eq c o s) h hl (if_pos ((fetchCe_active s c).trans hact))
        (CoreGoes.setCell_fetchCe s (eret_fetchCe_sameCore s c))
    · exact coreR_system_traps (exec_sysEret_eq c o s) h hl (if_neg (by rw [fetchCe_active]; exact ne_true_of_eq_false hact))
    · exact coreR_system_placed (exec_sysHalt_eq c o s) h hl rfl
        (CoreGoes.setCell_fetchCe s (halted_fetchCe_sameCore s c .done))
    · exact coreR_system_traps (exec_sysTrap_eq c o s) h hl rfl

end Sys2Proof.Machine
end

section
/-! PROOF. Exceptions of a control core: what taking one changes (R402, R404, Tables 13-9 and 13-10). -/

namespace Sys2Proof.Machine

/-! ### Registers that an exception writes -/

theorem State.excRegs_eq (s : State) (c cause : Nat) (pc : BitVec 12) :
    s.excRegs c cause pc = { s with regs := (s.excRegs c cause pc).regs } := by
  unfold State.excRegs
  dsimp only
  split
  · rfl
  · split <;> rfl

section
variable (s : State) (c cause : Nat) (pc : BitVec 12)

/-- Beside the two that every exception writes, its registers are CELL_MX_EXC and CELL_VS_EXC. -/
theorem State.excRegs_reg {off : Nat} (hmx : off ≠ Reg.cellMxExc c) (hvs : off ≠ Reg.cellVsExc c) :
    (s.excRegs c cause pc).reg off = ((s.bump (Reg.cellCoreExccnt c)).setReg (Reg.cellCoreExc c)
      (BitVec.ofNat 32 (cause + 2 ^ 16 * pc.toNat))).reg off := by
  unfold State.excRegs
  dsimp only
  split
  · rw [State.bumpFld, State.reg_setFld_of_ne _ _ _ _ _ hmx, State.reg_setFld_of_ne _ _ _ _ _ hmx]
  · split
    · rw [State.bumpFld, State.reg_setFld_of_ne _ _ _ _ _ hvs, State.reg_setFld_of_ne _ _ _ _ _ hvs]
    · rfl

theorem State.excRegs_coreExc :
    (s.excRegs c cause pc).reg (Reg.cellCoreExc c) = BitVec.ofNat 32 (cause + 2 ^ 16 * pc.toNat) := by
  rw [State.excRegs_reg _ _ _ _ (by unfold Reg.cellCoreExc Reg.cellMxExc; omega)
    (by unfold Reg.cellCoreExc Reg.cellVsExc; omega), State.reg_setReg, if_pos rfl]

theorem State.excRegs_coreExccnt : ((s.excRegs c cause pc).reg (Reg.cellCoreExccnt c)).toNat =
    min ((s.reg (Reg.cellCoreExccnt c)).toNat + 1) 0xFFFFFFFF := by
  rw [State.excRegs_reg _ _ _ _ (by unfold Reg.cellCoreExccnt Reg.cellMxExc; omega)
    (by unfold Reg.cellCoreExccnt Reg.cellVsExc; omega), State.reg_setReg,
    if_neg (by unfold Reg.cellCoreExccnt Reg.cellCoreExc; omega), State.toNat_reg_bump]

end

/-! ### The core after an exception -/

/-- A core has a handler that takes an exception: EVEC.EN is set and no handler is active. -/
def Cell.handles (k : Cell) : Prop := k.evecEn = true ∧ k.active = false

/-- A core with an exception saved. -/
def Cell.saveExc (k : Cell) (w : W32) : Cell := { k with ecause := w, epc := k.pc, stall := none }

/-- A core that has taken an exception: in its handler, or stopped. -/
def Cell.takesExc (k : Cell) (w : W32) : Cell :=
  if k.evecEn && !k.active then { k.saveExc w with active := true, pc := k.evec } else { k.saveExc w with run := .faulted }

/-- What an exception puts into the state, but for its report. -/
def State.excTaken (s : State) (c cls opc cause trap : Nat) : State :=
  (s.excRegs c cause (s.cell c).pc).setCell c ((s.cell c).takesExc (ecauseWord cause cls opc trap))

theorem Cell.handles_iff (k : Cell) : k.handles ↔ (k.evecEn && !k.active) = true := by
  simp [Cell.handles]

theorem Cell.takesExc_of_handles {k : Cell} (h : k.handles) (w : W32) :
    k.takesExc w = { k.saveExc w with active := true, pc := k.evec } := if_pos (k.handles_iff.mp h)

theorem Cell.takesExc_of_not_handles {k : Cell} (h : ¬k.handles) (w : W32) :
    k.takesExc w = { k.saveExc w with run := .faulted } := if_neg (mt k.handles_iff.mpr h)

/-- Whether or not there is a handler, the cause and the PC are saved, and no register of the program changes. -/
theorem Cell.takesExc_saves (k : Cell) (w : W32) : (k.takesExc w).epc = k.pc ∧ (k.takesExc w).ecause = w
    ∧ (k.takesExc w).stall = none ∧ (k.takesExc w).sreg = k.sreg ∧ (k.takesExc w).areg = k.areg
    ∧ (k.takesExc w).preg = k.preg := by
  unfold Cell.takesExc
  split <;> exact ⟨rfl, rfl, rfl, rfl, rfl, rfl⟩

/-! ### The state after an exception -/

section
variable (s : State) (c cls opc cause trap : Nat)

theorem State.takeExc_of_handles (h : (s.cell c).handles) :
    s.takeExc c cls opc cause trap = s.excTaken c cls opc cause trap := by
  rw [State.excTaken, Cell.takesExc_of_handles h]
  exact if_pos ((s.cell c).handles_iff.mp h)

theorem State.takeExc_of_not_handles (h : ¬(s.cell c).handles) :
    s.takeExc c cls opc cause trap = (s.excTaken c cls opc cause trap).report 0x0740 (unitCell c)
      (c + 2 ^ 16 * (cause % 2 ^ 8) + 2 ^ 24 * b2n (s.cell c).active) := by
  rw [State.excTaken, Cell.takesExc_of_not_handles h]
  exact if_neg (mt (s.cell c).handles_iff.mpr h)

theorem State.takeExc_reported : Reported (s.excTaken c cls opc cause trap) (s.takeExc c cls opc cause trap) := by
  by_cases h : (s.cell c).handles
  · rw [State.takeExc_of_handles s c cls opc cause trap h]; exact .refl _
  · rw [State.takeExc_of_not_handles s c cls opc cause trap h]; exact .report ..

theorem State.takeExc_cell (d : Nat) : (s.takeExc c cls opc cause trap).cell d =
    if d = c then (s.cell c).takesExc (ecauseWord cause cls opc trap) else s.cell d := by
  rw [(State.takeExc_reported s c cls opc cause trap).cell, State.excTaken, State.cell_setCell, State.excRegs_eq]
  rfl

/-- The registers of cells are as the exception writes them, whether or not it is reported. -/
theorem State.takeExc_reg {off : Nat} (h : 0x2000000 ≤ off) :
    (s.takeExc c cls opc cause trap).reg off = (s.excRegs c cause (s.cell c).pc).reg off := by
  by_cases hh : (s.cell c).handles
  · rw [State.takeExc_of_handles s c cls opc cause trap hh]; rfl
  · rw [State.takeExc_of_not_handles s c cls opc cause trap hh, State.reg_report (evtRing_not_cell h)]; rfl

theorem State.excTaken_leaves : (s.excTaken c cls opc cause trap).spad = s.spad
    ∧ (s.excTaken c cls opc cause trap).hbm = s.hbm ∧ (s.excTaken c cls opc cause trap).host = s.host
    ∧ (s.excTaken c cls opc cause trap).out = s.out := by
  rw [State.excTaken, State.excRegs_eq]
  exact ⟨rfl, rfl, rfl, rfl⟩

end

end Sys2Proof.Machine
end

section
/-! PROOF. False guards, illegal words, bad addresses, and the exceptions that they end in (R389, R393, R394, R402, R404). -/

namespace Sys2Proof.Machine

/-! ### False guards and illegal words -/

section
variable {s : State} {c cls opc : Nat} {i : Instr} {gneg legal : Bool} {gp : BitVec 3} {uses : List Nat} {eff : State → Eff}
  (hx : exec i s = coreStep c i gneg gp cls opc 1 legal uses eff s) (hc : c < 512) (hcan : s.canIssue c i = true)
  (herr : (s.cell c).imemErr.contains (s.cell c).pc.toNat = false)
include hx hc hcan herr

theorem exec_skips (hguard : ((s.cell c).p gp.toNat ^^ gneg) = false) (hl : legal = true)
    (hpc : (s.cell c).pc.toNat < 4095) :
    ∃ t, exec i s = .next t ∧ CoreGoes s t c ((s.cell c).goTo ((s.cell c).pc + 1)) := by
  have hnext : BitVec.ofNat 12 ((s.cell c).pc.toNat + 1) = (s.cell c).pc + 1 := BitVec.eq_of_toNat_eq (by simp)
  have hgoes := finish_done_goes (u := s.fetchCe c) (len := 1) (i := i) (cls := cls) (opc := opc) (CoreGoes.fetchCe s c)
    (by rw [fetchCe_pc]; exact hpc)
  rw [fetchCe_pc, hnext] at hgoes
  refine ⟨_, ?_, hgoes⟩
  rw [hx, hl, coreStep, decide_eq_true hc, onUnit_true, hcan, whenOk_true, issue_of_false_guard herr hguard]

theorem exec_traps_of_illegal (hl : legal = false) :
    exec i s = .next ((s.fetchCe c).takeExc c cls opc excIllegalOp 0) := by
  rw [hx, hl, coreStep, decide_eq_true hc, onUnit_true, hcan, whenOk_true, issue_of_illegal herr]

end

/-- A LAUNCH.AT whose guard is false goes on after the word of its action (R393, R398). -/
theorem exec_launchAt_skips {s : State} {c : Nat} {o : ROps} {w : W64} (hc : c < 512)
    (hcan : s.canIssue c (.launchAt c o w) = true) (herr : (s.cell c).imemErr.contains (s.cell c).pc.toNat = false)
    (hguard : ((s.cell c).p o.gp.toNat ^^ o.gneg) = false) (hl : rLegal 0x08 0x00 o = true)
    (haction : (s.cell c).actionLegal w = true) (hpc : (s.cell c).pc.toNat < 4094) :
    ∃ t, exec (.launchAt c o w) s = .next t ∧ CoreGoes s t c ((s.cell c).goTo ((s.cell c).pc + 2)) := by
  have hnext : BitVec.ofNat 12 ((s.cell c).pc.toNat + 2) = (s.cell c).pc + 2 := BitVec.eq_of_toNat_eq (by simp)
  have hcell := State.fetchNext_cell_self s c
  have hpc' : (((s.fetchNext c).fetchCe c).cell c).pc = (s.cell c).pc := by rw [fetchCe_pc, hcell]
  have herr' : ((s.fetchNext c).cell c).imemErr.contains ((s.fetchNext c).cell c).pc.toNat = false := by rw [hcell]; exact herr
  have hguard' : (((s.fetchNext c).cell c).p o.gp.toNat ^^ o.gneg) = false := by rw [hcell]; exact hguard
  have hgoes := finish_done_goes (u := (s.fetchNext c).fetchCe c) (len := 2) (i := .launchAt c o w) (cls := 0x08)
    (opc := 0x00) (CoreGoes.fetchCe (s.fetchNext c) c) (by rw [hpc']; omega)
  rw [hpc', hnext] at hgoes
  refine ⟨_, ?_, hgoes.of_fetchNext.congr (by unfold SameCore; rw [hcell]; rfl)⟩
  rw [exec_launchAt_eq, hl, haction, Bool.or_true, Bool.and_true, decide_eq_true hc, onUnit_true, hcan, whenOk_true,
    issue_of_false_guard herr' hguard']

/-! ### Bad addresses -/

theorem memCheck_of_outside {a : Nat} (n : Nat) (h : 6291456 ≤ a % 2 ^ 23) : memCheck a n = some excScAddr := if_pos h

theorem memCheck_of_misaligned {a n : Nat} (hin : a % 2 ^ 23 < 6291456) (hal : a % n ≠ 0) :
    memCheck a n = some excScAlign := by
  rw [memCheck, if_neg (by simp only [sliceBytes]; omega), if_pos hal]

section
variable {s : State} {c opc n e : Nat} {i : Instr} {o : IOps} (h : Issues s c i o.gneg o.gp [o.sd.toNat])
  (hl : iLegal 0x01 opc o = true) (hbad : memCheck (effAddr (s.cell c) o) n = some e)
include h hl hbad

theorem scalarLoad_traps {sext : Bool} (hx : exec i s = scalarLoad c i o opc n sext s) :
    exec i s = .next ((s.fetchCe c).takeExc c 0x01 opc e 0) := by
  rw [coreI_fetched hx rfl h hl]
  dsimp only
  rw [effAddr_fetchCe, hbad]
  rfl

theorem scalarStore_traps (hx : exec i s = scalarStore c i o opc n s) :
    exec i s = .next ((s.fetchCe c).takeExc c 0x01 opc e 0) := by
  rw [coreI_fetched hx rfl h hl]
  dsimp only
  rw [effAddr_fetchCe, hbad]
  rfl

end

/-- Settles O4: guards and words by the checks of issue, addresses by the check of R389, and an exception by whether a
handler takes it. -/
theorem guardsAndExceptions : Obligations.GuardsAndExceptions := by
  refine ⟨fun s c o q a => ?_, fun s c o q u => ?_, fun s c o => ?_, fun s c cls opc cause trap hc => ?_⟩
  · intro k skips
    have hskip : ∀ {i gneg gp cls opc legal uses eff}, exec i s = coreStep c i gneg gp cls opc 1 legal uses eff s →
        skips i gneg gp legal :=
      fun hx hc hcan herr hguard hl hpc => exec_skips hx hc hcan herr hguard hl hpc
    refine ⟨hskip (show exec _ s = execAdd c o s by rfl), hskip (show exec _ s = execSt64 c q s by rfl),
      hskip (show exec _ s = execBr c q s by rfl), hskip (show exec _ s = execTmFence c o s by rfl),
      hskip (show exec _ s = execMxMul c o s by rfl), hskip (show exec _ s = execVsFence c o s by rfl),
      hskip (show exec _ s = execClWait c o s by rfl), hskip (show exec _ s = execPlGet c o s by rfl),
      fun hc hcan herr hguard hl haction hpc => ?_, hskip (show exec _ s = execPhase c o s by rfl),
      hskip (show exec _ s = execSysTrap c o s by rfl)⟩
    obtain ⟨t, ht, hrest, hcells, -, hcell⟩ := exec_launchAt_skips hc hcan herr hguard hl haction hpc
    exact ⟨t, ht, hrest, hcells, hcell⟩
  · intro k traps
    have htrap : ∀ {i gneg gp cls opc legal uses eff}, exec i s = coreStep c i gneg gp cls opc 1 legal uses eff s →
        traps i cls opc legal :=
      fun hx hc hcan herr hl => exec_traps_of_illegal hx hc hcan herr hl
    exact ⟨htrap (show exec _ s = execAdd c o s by rfl), htrap (show exec _ s = execFcvt c o s by rfl),
      htrap (show exec _ s = execLd64 c q s by rfl), htrap (show exec _ s = execBr c q s by rfl),
      htrap (show exec _ s = execMovhi c u s by rfl), htrap (show exec _ s = execSysHalt c o s by rfl)⟩
  · intro k a traps
    have hload : ∀ {i opc n sext}, exec i s = scalarLoad c i o opc n sext s → traps i opc n := fun hx h hl =>
      ⟨fun hout => scalarLoad_traps h hl (memCheck_of_outside _ hout) hx,
        fun hin hal => scalarLoad_traps h hl (memCheck_of_misaligned hin hal) hx⟩
    have hstore : ∀ {i opc n}, exec i s = scalarStore c i o opc n s → traps i opc n := fun hx h hl =>
      ⟨fun hout => scalarStore_traps h hl (memCheck_of_outside _ hout) hx,
        fun hin hal => scalarStore_traps h hl (memCheck_of_misaligned hin hal) hx⟩
    exact ⟨hload (sext := false) rfl, hload (sext := false) rfl, hload (sext := false) rfl, hload (sext := false) rfl,
      hload (sext := true) rfl, hload (sext := true) rfl, hload (sext := true) rfl,
      hstore rfl, hstore rfl, hstore rfl, hstore rfl⟩
  · intro k t j
    have hj : j = k.takesExc (ecauseWord cause cls opc trap) :=
      (State.takeExc_cell s c cls opc cause trap c).trans (if_pos rfl)
    have hrep := State.takeExc_reported s c cls opc cause trap
    obtain ⟨hspad, hhbm, hhost, hout⟩ := State.excTaken_leaves s c cls opc cause trap
    obtain ⟨hepc, hecause, hstall, hsreg, hareg, hpreg⟩ := k.takesExc_saves (ecauseWord cause cls opc trap)
    rw [hj]
    refine ⟨hepc, hecause, hstall, hsreg, hareg, hpreg, fun hhandler => ?_, fun hnone => ?_, ?_, ?_,
      hrep.spad.trans hspad, hrep.hbm.trans hhbm, fun d hd => ?_⟩
    · rw [Cell.takesExc_of_handles hhandler]
      exact ⟨rfl, rfl, rfl, (congrArg State.out (State.takeExc_of_handles s c cls opc cause trap hhandler)).trans hout⟩
    · rw [Cell.takesExc_of_not_handles hnone]
      exact ⟨rfl, rfl, rfl, _, hhost, hout, State.takeExc_of_not_handles s c cls opc cause trap hnone⟩
    · rw [State.takeExc_reg s c cls opc cause trap (by unfold Reg.cellCoreExc; omega), State.excRegs_coreExc]
    · rw [State.takeExc_reg s c cls opc cause trap (by unfold Reg.cellCoreExccnt; omega), State.excRegs_coreExccnt]
    · exact (State.takeExc_cell s c cls opc cause trap d).trans (if_neg hd)

end Sys2Proof.Machine
end

section
/-! PROOF. The host's control of a core: RUN, HALT and CLRLQ (R406). -/

namespace Sys2Proof.Machine

/-- Freeing the handle that a queued action has taken leaves the core where it stands. -/
theorem Cell.freeWork_core (k : Cell) (w : Work) :
    (k.freeWork w).run = k.run ∧ (k.freeWork w).pc = k.pc ∧ (k.freeWork w).sreg = k.sreg := by
  unfold Cell.freeWork
  split <;> exact ⟨rfl, rfl, rfl⟩

theorem Cell.freeWorks_core (l : List LaunchEntry) (k : Cell) :
    (l.foldl (fun j e => j.freeWork e.work) k).run = k.run ∧ (l.foldl (fun j e => j.freeWork e.work) k).pc = k.pc
      ∧ (l.foldl (fun j e => j.freeWork e.work) k).sreg = k.sreg := by
  induction l generalizing k with
  | nil => exact ⟨rfl, rfl, rfl⟩
  | cons e l ih =>
    obtain ⟨hrun, hpc, hsreg⟩ := ih (k.freeWork e.work)
    obtain ⟨hrun', hpc', hsreg'⟩ := k.freeWork_core e.work
    exact ⟨hrun.trans hrun', hpc.trans hpc', hsreg.trans hsreg'⟩

section
variable {s : State} {c : Nat} (hc : c < 512) (hup : s.up = true)
include hc hup

theorem exec_run_up : exec (.run c) s = .next (s.startCore c) := by
  rw [show exec (.run c) s = execRun c s by rfl, execRun, decide_eq_true hc, onUnit_true, hup, whenOk_true]

theorem exec_halt_up : exec (.halt c) s = .next (s.setCell c (s.cell c).halt) := by
  rw [show exec (.halt c) s = execHalt c s by rfl, execHalt, decide_eq_true hc, onUnit_true, hup, whenOk_true]

theorem exec_clrlq_of_running (hrun : (s.cell c).run = .running) : exec (.clrlq c) s = .next s := by
  rw [show exec (.clrlq c) s = execClrlq c s by rfl, execClrlq, decide_eq_true hc, onUnit_true, hup, hrun]
  rfl

theorem exec_clrlq_of_not_running (hrun : (s.cell c).run ≠ .running) : exec (.clrlq c) s = .next (s.setCell c
    { (s.cell c).lq.foldl (fun j e => j.freeWork e.work) (s.cell c) with lq := [] }) := by
  rw [show exec (.clrlq c) s = execClrlq c s by rfl, execClrlq, decide_eq_true hc, onUnit_true, hup,
    bne_iff_ne.mpr hrun, Bool.and_self, whenOk_true]

end

/-- Storing one cell is all that the host's control changes. -/
theorem State.setCell_only (s : State) (c : Nat) (k : Cell) : s.setCell c k = { s with cells := (s.setCell c k).cells }
    ∧ (s.setCell c k).cell c = k ∧ ∀ d, d ≠ c → (s.setCell c k).cell d = s.cell d :=
  ⟨rfl, by rw [State.cell_setCell, if_pos rfl], fun d hd => by rw [State.cell_setCell, if_neg hd]⟩

/-- Settles O5: each command by whether the core is RUNNING. -/
theorem hostControlsTheCore : Obligations.HostControlsTheCore := by
  intro s c hc hup k onlyCell
  have hstay : ∀ {i}, exec i s = .next s → onlyCell i k := fun hx => ⟨s, hx, rfl, rfl, fun _ _ => rfl⟩
  have hset : ∀ {i j}, exec i s = .next (s.setCell c j) → onlyCell i j := fun hx => ⟨_, hx, s.setCell_only c _⟩
  refine ⟨fun hrun => hset ?_, fun hrun => ⟨hstay ?_, hset ?_, hstay (exec_clrlq_of_running hc hup hrun)⟩,
    fun hrun => hset ?_, fun hrun => ?_⟩
  · rw [exec_run_up hc hup, State.startCore, if_neg hrun]
  · rw [exec_run_up hc hup, State.startCore, if_pos hrun]
  · rw [exec_halt_up hc hup, Cell.halt, if_pos hrun]
  · rw [exec_halt_up hc hup, Cell.halt, if_neg hrun]
  · obtain ⟨hrest, hcell, hcells⟩ := s.setCell_only c { k.lq.foldl (fun j e => j.freeWork e.work) k with lq := [] }
    obtain ⟨hrun', hpc, hsreg⟩ := Cell.freeWorks_core k.lq k
    refine ⟨_, exec_clrlq_of_not_running hc hup hrun, hrest, ?_, ?_, ?_, ?_, hcells⟩ <;> rw [hcell]
    · exact hrun'
    · exact hpc
    · exact hsreg

end Sys2Proof.Machine
end

section
/-! PROOF. PMBus reads answer the values of Table 14-2, and a budget is held to its range (R412, R414). -/

namespace Sys2Proof.Machine

/-! ### Fields and LINEAR11 words -/

theorem State.fld_lt (s : State) (o lo w : Nat) : s.fld o lo w < 2 ^ w := Nat.mod_lt _ (Nat.two_pow_pos w)

/-- The least exponent of a value below 2^16 is one of the 32, and the mantissa stays below 1,024 at it. -/
theorem leastExp_fits {n d : Nat} (hn : n < 2 ^ 16) (hd : 0 < d) :
    leastExp n d < 32 ∧ 2 ^ 16 * n / (d * 2 ^ leastExp n d) < 1024 := by
  unfold leastExp
  cases hfind : (List.range 32).find? (fun e => 2 ^ 16 * n / (d * 2 ^ e) < 1024) with
  | none =>
    have hlast : ¬2 ^ 16 * n / (d * 2 ^ 31) < 1024 := fun h =>
      List.find?_eq_none.mp hfind 31 (by decide) (decide_eq_true h)
    have hbound : 2 ^ 16 * n / (d * 2 ^ 31) ≤ 2 ^ 16 * n / 2 ^ 31 :=
      Nat.div_le_div_left (Nat.le_mul_of_pos_left _ hd) (by decide)
    omega
  | some e => exact ⟨List.mem_range.mp (List.mem_of_find?_eq_some hfind), of_decide_eq_true (List.find?_some hfind :)⟩

/-- Where the mantissa stays below 1,024, a LINEAR11 word holds it, next below the value. -/
theorem linear11_fits {n d e : Nat} (hd : 0 < d) (h : 2 ^ 16 * n / (d * 2 ^ e) < 1024) :
    ∃ m, m < 1024 ∧ linear11 n d e = m + 2048 * ((e + 16) % 32) ∧ m * (d * 2 ^ e) ≤ 2 ^ 16 * n
      ∧ 2 ^ 16 * n < (m + 1) * (d * 2 ^ e) :=
  ⟨_, h, congrArg (· + 2048 * ((e + 16) % 32)) (Nat.min_eq_left (Nat.le_of_lt_succ h)), Nat.div_mul_le_self ..,
    Nat.lt_mul_of_div_lt (Nat.lt_succ_self _) (Nat.mul_pos hd (Nat.two_pow_pos e))⟩

/-! ### Reads -/

/-- The budget as a write leaves it: withdrawn by 0, else held to 600 to 2,000 W with its clamp on record. -/
def State.takeBudget (s : State) (v : BitVec 16) : State :=
  let t := { s with pwr := { s.pwr with budget := v } }
  let b := holdTo 600 2000 v.toNat
  let u := t.setReg Reg.pwrBudget (BitVec.ofNat 32 (b + 2 ^ 31))
  if v = 0 then t.setReg Reg.pwrBudget 0 else if b = v.toNat then u else u.clampReg Reg.pwrBudget 0 v.toNat b

section
variable {s : State} (hup : s.up = true)
include hup

theorem pmbusRead_up (code : Byte) (bs : List Byte) : pmbusRead code bs s = .next (s.pmbusReply code bs) := by
  rw [pmbusRead, hup, whenOk_true]

/-- A measured value is answered by a mantissa and an exponent next below it. -/
theorem pmbusLinear_up (code : Byte) {n d : Nat} (hn : n < 2 ^ 16) (hd : 0 < d) :
    ∃ t m e, pmbusLinear code n d s = .next t ∧ m < 1024 ∧ e < 32
      ∧ t.out = (s.pmbusReply code (leBytes 2 (m + 2048 * ((e + 16) % 32)))).out
      ∧ m * (d * 2 ^ e) ≤ 2 ^ 16 * n ∧ 2 ^ 16 * n < (m + 1) * (d * 2 ^ e) := by
  obtain ⟨hleast, hfits⟩ := leastExp_fits hn hd
  have hdraw : leastExp n d + s.drawNat.1 % (32 - leastExp n d) < 32 := by
    have := Nat.mod_lt s.drawNat.1 (Nat.sub_pos_of_lt hleast)
    omega
  have hmono : 2 ^ 16 * n / (d * 2 ^ (leastExp n d + s.drawNat.1 % (32 - leastExp n d))) < 1024 :=
    Nat.lt_of_le_of_lt (Nat.div_le_div_left (Nat.mul_le_mul_left d (Nat.pow_le_pow_right Nat.two_pos (Nat.le_add_right ..)))
      (Nat.mul_pos hd (Nat.two_pow_pos _))) hfits
  obtain ⟨m, hm, hword, hle, hlt⟩ := linear11_fits hd hmono
  refine ⟨_, m, _, by rw [pmbusLinear, hup, whenOk_true], hm, hdraw, ?_, hle, hlt⟩
  rw [hword]
  rfl

/-! ### Writes -/

theorem exec_budgetWrite_wrongPec {v : BitVec 16} {c : Byte} (h : c ≠ s.writePec 0xD0 (leBytes 2 v.toNat)) :
    exec (.budgetWrite v (some c)) s = .next { s with pwr := { s.pwr with cml := true } } := by
  rw [show exec (.budgetWrite v (some c)) s = execBudgetWrite v (some c) s by rfl, execBudgetWrite, hup, whenOk_true,
    Option.any_some, if_pos (bne_iff_ne.mpr h)]

theorem exec_budgetWrite_taken {v : BitVec 16} {pec : Option Byte}
    (h : pec = none ∨ pec = some (s.writePec 0xD0 (leBytes 2 v.toNat))) :
    exec (.budgetWrite v pec) s = .next (s.takeBudget v) := by
  have hpec : pec.any (fun b => b != s.writePec 0xD0 (leBytes 2 v.toNat)) = false := by
    rcases h with rfl | rfl
    · rfl
    · rw [Option.any_some, bne_self_eq_false]
  rw [show exec (.budgetWrite v pec) s = execBudgetWrite v pec s by rfl, execBudgetWrite, hup, whenOk_true, hpec,
    if_neg Bool.false_ne_true]
  rfl

theorem exec_pmbusUnsupported {code : Nat} (h : code ∉ pmbusCodes) :
    exec (.pmbusUnsupported code) s = .next { s with pwr := { s.pwr with cml := true } } := by
  rw [show exec (.pmbusUnsupported code) s = execPmbusUnsupported code s by rfl, execPmbusUnsupported, hup,
    (by simpa using h : pmbusCodes.contains code = false)]
  rfl

end

section
variable (s : State) {v : BitVec 16}

theorem State.takeBudget_zero : (s.takeBudget 0).reg Reg.pwrBudget = 0 := by
  rw [State.takeBudget, if_pos rfl, State.reg_setReg, if_pos rfl]

theorem State.takeBudget_within (hlo : 600 ≤ v.toNat) (hhi : v.toNat ≤ 2000) : s.takeBudget v =
    ({ s with pwr := { s.pwr with budget := v } }).setReg Reg.pwrBudget (BitVec.ofNat 32 (v.toNat + 2 ^ 31)) := by
  have hv : v ≠ 0 := by rintro rfl; exact absurd hlo (by decide)
  have hheld := holdTo_of_mem hlo hhi
  rw [State.takeBudget, hheld, if_neg hv, if_pos rfl]

theorem State.takeBudget_clamped {b : Nat} (hv : v ≠ 0) (hheld : holdTo 600 2000 v.toNat = b) (hb : b ≠ v.toNat) :
    s.takeBudget v = (({ s with pwr := { s.pwr with budget := v } }).setReg Reg.pwrBudget
      (BitVec.ofNat 32 (b + 2 ^ 31))).clampReg Reg.pwrBudget 0 v.toNat b := by
  rw [State.takeBudget, hheld, if_neg hv, if_neg hb]

/-- A budget held to an end of its range: PWR_BUDGET holds that end, and the clamp is counted. -/
theorem State.takeBudget_clamped_regs {b : Nat} (hv : v ≠ 0) (hheld : holdTo 600 2000 v.toNat = b) (hb : b ≠ v.toNat) :
    (s.takeBudget v).reg Reg.pwrBudget = BitVec.ofNat 32 (b + 2 ^ 31)
      ∧ ((s.takeBudget v).reg Reg.bootClamps).toNat = min ((s.reg Reg.bootClamps).toNat + 1) 0xFFFFFFFF := by
  rw [s.takeBudget_clamped hv hheld hb, State.reg_clampReg (by decide), State.bootClamps_clampReg, State.reg_setReg,
    State.reg_setReg, if_pos rfl, if_neg (by decide)]
  exact ⟨rfl, rfl⟩

theorem State.takeBudget_budget (v : BitVec 16) : (s.takeBudget v).pwr.budget = v := by
  unfold State.takeBudget
  extract_lets t b u
  split
  · rfl
  · split
    · rfl
    · rw [(Reported.clampReg ..).pwr]
      rfl

end

/-- Settles O36: each read by its value, a write of the budget by its PEC and by the range that it is held to. -/
theorem pmbusAnswersAsItsTable : Obligations.PmbusAnswersAsItsTable := by
  intro s hup linear
  refine ⟨pmbusRead_up hup .., pmbusRead_up hup .., ?_, pmbusRead_up hup .., pmbusRead_up hup ..,
    pmbusLinear_up hup _ (State.fld_lt ..) (by decide), pmbusLinear_up hup _ (State.fld_lt ..) (by decide),
    pmbusLinear_up hup _ (Nat.lt_trans (State.fld_lt ..) (by decide)) (by decide), fun code bs => rfl,
    fun v c => exec_budgetWrite_wrongPec hup, fun v pec hpec => ⟨_, exec_budgetWrite_taken hup hpec,
      s.takeBudget_budget v, ?_, fun hlo hhi => ?_, fun hv hlow => ?_, fun hhigh => ?_⟩,
    fun code => exec_pmbusUnsupported hup⟩
  · have hword : BitVec.ofNat 8 (2 * b2n s.pwr.cml) = if s.pwr.cml then 2 else 0 := by cases s.pwr.cml <;> rfl
    exact (pmbusRead_up hup ..).trans (by rw [hword])
  · rintro rfl
    exact s.takeBudget_zero
  · rw [s.takeBudget_within hlo hhi, State.reg_setReg, State.reg_setReg, if_pos rfl, if_neg (by decide)]
    exact ⟨rfl, rfl⟩
  · exact s.takeBudget_clamped_regs hv (holdTo_of_lt hlow) (Nat.ne_of_gt hlow)
  · have hv : v ≠ 0 := by rintro rfl; exact absurd hhigh (by decide)
    exact s.takeBudget_clamped_regs hv (holdTo_of_gt (by decide) hhigh) (Nat.ne_of_lt hhigh)

end Sys2Proof.Machine
end

section
/-! PROOF. What a change of mode and a report of the effective cap leave alone (R413, R418, R419, R440, Table 14-1). -/

namespace Sys2Proof.Machine

/-! ### The power mode (Table 14-1) -/

section
variable {s : State}

theorem State.pwrMode_of_tripped (h : s.tripped = true) : s.pwrMode = 3 := if_pos h

theorem State.pwrMode_of_shed (htrip : s.tripped = false) (hshed : s.pwr.shed = true) : s.pwrMode = 1 := by
  rw [State.pwrMode, htrip, if_neg Bool.false_ne_true, if_pos hshed]

theorem State.pwrMode_of_held (htrip : s.tripped = false) (hshed : s.pwr.shed = false)
    (h : (s.pwr.warned || s.pwr.airStop || s.pwr.tripCleared) = true) : s.pwrMode = 2 := by
  rw [State.pwrMode, htrip, hshed, if_neg Bool.false_ne_true, if_neg Bool.false_ne_true, if_pos h]

/-- NORMAL is the mode without any cause of another. -/
theorem State.pwrMode_eq_zero : s.pwrMode = 0 ↔ s.tripped = false ∧ s.pwr.shed = false ∧ s.pwr.warned = false
    ∧ s.pwr.airStop = false ∧ s.pwr.tripCleared = false := by
  unfold State.pwrMode
  split_ifs <;> grind

/-- The mode goes by the power part only. -/
theorem State.pwrMode_congr {t : State} (h : t.pwr = s.pwr) : t.pwrMode = s.pwrMode := by
  rw [State.pwrMode, State.tripped, h, State.pwrMode, State.tripped]

end

/-! ### What changes with the mode -/

/-- The registers that a change of mode may write: the count of entries of BIVOUAC, and what a report writes. -/
def modeRegs : List Nat := Reg.pwrBivouacs :: evtRing.written

/-- `t` is `s` after changes of mode: reports have gone out, and of the power part only what a mode starts or ends has
changed. Outside NORMAL the groundsheets keep their rate. -/
structure ModeChanged (s t : State) : Prop where
  rest : ∃ regs out rate host excFrom excNotBefore accs kindle heldCaps bivouacFrom told target level halfRate,
    t = { s with
      regs := regs, out := out, rate := rate, host := host,
      pwr := { s.pwr with
        excFrom := excFrom, excNotBefore := excNotBefore, accs := accs, kindle := kindle, heldCaps := heldCaps,
        bivouacFrom := bivouacFrom, told := told, target := target, level := level, halfRate := halfRate } }
  reg : ∀ off, off ∉ modeRegs → t.reg off = s.reg off
  half : s.pwrMode ≠ 0 → t.pwr.halfRate = s.pwr.halfRate

namespace ModeChanged

section
variable {s t : State} (h : ModeChanged s t)
include h

/-- The power part, but for what a mode starts or ends. -/
theorem pwr : t.pwr = { s.pwr with
    excFrom := t.pwr.excFrom, excNotBefore := t.pwr.excNotBefore, accs := t.pwr.accs, kindle := t.pwr.kindle,
    heldCaps := t.pwr.heldCaps, bivouacFrom := t.pwr.bivouacFrom, told := t.pwr.told, target := t.pwr.target,
    level := t.pwr.level, halfRate := t.pwr.halfRate } := by
  obtain ⟨⟨_, _, _, _, _, _, _, _, _, _, _, _, _, _, rfl⟩, -, -⟩ := h
  rfl

theorem trip : t.pwr.trip = s.pwr.trip := by rw [h.pwr]

theorem shed : t.pwr.shed = s.pwr.shed := by rw [h.pwr]

theorem shedInput : t.pwr.shedInput = s.pwr.shedInput := by rw [h.pwr]

theorem divider : t.pwr.divider = s.pwr.divider := by rw [h.pwr]

theorem warnPin : t.pwr.warnPin = s.pwr.warnPin := by rw [h.pwr]

theorem inputLow : t.pwr.inputLow = s.pwr.inputLow := by rw [h.pwr]

theorem warned : t.pwr.warned = s.pwr.warned := by rw [h.pwr]

theorem airStop : t.pwr.airStop = s.pwr.airStop := by rw [h.pwr]

theorem airLow : t.pwr.airLow = s.pwr.airLow := by rw [h.pwr]

theorem airBad : t.pwr.airBad = s.pwr.airBad := by rw [h.pwr]

theorem airCap : t.pwr.airCap = s.pwr.airCap := by rw [h.pwr]

theorem temps : t.pwr.temps = s.pwr.temps := by rw [h.pwr]

theorem curve : t.pwr.curve = s.pwr.curve := by rw [h.pwr]

theorem hsValid : t.pwr.hsValid = s.pwr.hsValid := by rw [h.pwr]

theorem clocks : t.pwr.clocks = s.pwr.clocks := by rw [h.pwr]

theorem tripped : t.tripped = s.tripped := congrArg (· != 0) h.trip

theorem pwrMode : t.pwrMode = s.pwrMode := by
  obtain ⟨⟨_, _, _, _, _, _, _, _, _, _, _, _, _, _, rfl⟩, -, -⟩ := h
  rfl

theorem cells : t.cells = s.cells := by
  obtain ⟨⟨_, _, _, _, _, _, _, _, _, _, _, _, _, _, rfl⟩, -, -⟩ := h
  rfl

theorem spad : t.spad = s.spad := by
  obtain ⟨⟨_, _, _, _, _, _, _, _, _, _, _, _, _, _, rfl⟩, -, -⟩ := h
  rfl

theorem hbm : t.hbm = s.hbm := by
  obtain ⟨⟨_, _, _, _, _, _, _, _, _, _, _, _, _, _, rfl⟩, -, -⟩ := h
  rfl

theorem fld {off : Nat} (hoff : off ∉ modeRegs) (lo w : Nat) : t.fld off lo w = s.fld off lo w := by
  rw [State.fld, h.reg off hoff, State.fld]

end

theorem refl (s : State) : ModeChanged s s :=
  ⟨⟨_, _, _, _, _, _, _, _, _, _, _, _, _, _, rfl⟩, fun _ _ => rfl, fun _ => rfl⟩

theorem trans {s t u : State} (h : ModeChanged s t) (g : ModeChanged t u) : ModeChanged s u := by
  refine ⟨?_, fun off hoff => (g.reg off hoff).trans (h.reg off hoff), fun hm => ?_⟩
  · obtain ⟨_, _, _, _, _, _, _, _, _, _, _, _, _, _, rfl⟩ := h.rest
    obtain ⟨_, _, _, _, _, _, _, _, _, _, _, _, _, _, rfl⟩ := g.rest
    exact ⟨_, _, _, _, _, _, _, _, _, _, _, _, _, _, rfl⟩
  · exact (g.half (h.pwrMode ▸ hm)).trans (h.half hm)

theorem ite {s t u : State} {p : Prop} [Decidable p] (ht : p → ModeChanged s t) (hu : ¬p → ModeChanged s u) :
    ModeChanged s (if p then t else u) := iteInduction ht hu

theorem foldl {α : Type} {f : State → α → State} (hf : ∀ s a, ModeChanged s (f s a)) (l : List α) (s : State) :
    ModeChanged s (l.foldl f s) := l.foldlRecOn f (refl s) fun t h a _ => h.trans (hf t a)

/-- Of the power part, only what a mode starts or ends has changed, and not the rate of the groundsheets. -/
theorem of_eq {s t : State} {excFrom excNotBefore accs kindle heldCaps bivouacFrom told target level}
    (h : t = { s with pwr := { s.pwr with
      excFrom := excFrom, excNotBefore := excNotBefore, accs := accs, kindle := kindle, heldCaps := heldCaps,
      bivouacFrom := bivouacFrom, told := told, target := target, level := level } }) : ModeChanged s t := by
  subst h
  exact ⟨⟨_, _, _, _, _, _, _, _, _, _, _, _, _, _, rfl⟩, fun _ _ => rfl, fun _ => rfl⟩

theorem report (s : State) (code unit data : Nat) : ModeChanged s (s.report code unit data) := by
  refine ⟨?_, fun off hoff => State.reg_report (fun hmem => hoff (List.mem_cons_of_mem _ hmem)) ..,
    fun _ => congrArg Pwr.halfRate (Reported.report ..).pwr⟩
  obtain ⟨_, _, _, _, _, _, _, heq⟩ := Reported.report s code unit data
  exact ⟨_, _, _, _, _, _, _, _, _, _, _, _, _, _, heq⟩

theorem capNote (s : State) : ModeChanged s s.capNote :=
  .ite (fun _ => refl s) fun _ => .trans (of_eq rfl) (report ..)

theorem endExcursion (s : State) : ModeChanged s s.endExcursion := by
  unfold State.endExcursion
  split
  · exact refl s
  · exact of_eq rfl

theorem leaveNormal (s : State) : ModeChanged s s.leaveNormal :=
  ((endExcursion s).trans (foldl (fun _ _ => of_eq rfl) ..)).trans (of_eq rfl)

theorem holdCaps (s : State) : ModeChanged s s.holdCaps := .ite (fun _ => refl s) fun _ => of_eq rfl

theorem bumpBivouacs (s : State) : ModeChanged s (s.bump Reg.pwrBivouacs) :=
  ⟨⟨_, _, _, _, _, _, _, _, _, _, _, _, _, _, rfl⟩,
    fun _ hoff => State.reg_bump_of_ne _ _ (List.ne_of_not_mem_cons hoff), fun _ => rfl⟩

theorem enterBivouac (s : State) (cause : Nat) : ModeChanged s (s.enterBivouac cause) :=
  ((of_eq rfl).trans (bumpBivouacs _)).trans (report ..)

theorem enterNormal {s : State} (h : s.pwrMode = 0) (old : Nat) : ModeChanged s (s.enterNormal old) := by
  have hnormal : ∀ x target level, ModeChanged s { s with pwr := { s.pwr with
      heldCaps := none, target := target, level := level, halfRate := x, bivouacFrom := none } } := fun _ _ _ =>
    ⟨⟨_, _, _, _, _, _, _, _, _, _, _, _, _, _, rfl⟩, fun _ _ => rfl, fun hm => absurd h hm⟩
  exact .ite (fun _ => (hnormal ..).trans (report ..)) fun _ => hnormal ..

theorem settleMode (s : State) (old cause : Nat) : ModeChanged s (s.settleMode old cause) := by
  unfold State.settleMode
  extract_lets m s1 s2 s3
  have hleft : ModeChanged s s1 := .ite (fun _ => leaveNormal s) fun _ => refl s
  have hheld : ModeChanged s s2 := hleft.trans (.ite (fun _ => holdCaps s1) fun _ => refl s1)
  have hbivouac : ModeChanged s s3 := hheld.trans (.ite (fun _ => enterBivouac s2 cause) fun _ => refl s2)
  refine .trans (hbivouac.trans (.ite (fun hm => ?_) fun _ => refl s3)) (capNote _)
  exact enterNormal (hbivouac.pwrMode.trans hm.1) old

end ModeChanged

end Sys2Proof.Machine
end

section
/-! PROOF. Supply warnings shed load and hold it; a cutoff leaves fuses, flash and serial (R410, R411, R417, R418, R498,
R513, R514). -/

namespace Sys2Proof.Machine

/-! ### Warnings start the shed sequence -/

section
variable {s : State}

theorem State.takeWarn_of_down (h : s.up = false) (input : Bool) : s.takeWarn input = s := by
  rw [State.takeWarn, h, if_neg Bool.false_ne_true]

theorem State.takeWarn_of_up (h : s.up = true) (input : Bool) : s.takeWarn input = s.startShed input := if_pos h

theorem State.startShed_of_shed (h : s.pwr.shed = true) (input : Bool) :
    s.startShed input = { s with pwr := { s.pwr with warned := true, clearedAt := none } } := if_pos h

/-- The state in which the shed sequence has begun and the mode has not changed yet (Table 14-3). -/
def State.shedBegun (s : State) (input : Bool) : State :=
  { s with pwr := { s.pwr with
    warned := true, clearedAt := none, shed := true, shedInput := input, shedPower := s.powerNow, divider := true,
    halfRate := true } }

theorem State.startShed_of_not_shed (h : s.pwr.shed = false) (input : Bool) :
    s.startShed input = ((s.shedBegun input).bump Reg.pwrSheds).settleMode s.pwrMode 1 := if_neg (ne_true_of_eq_false h)

theorem State.shedBegun_pwrMode (h : s.tripped = false) (input : Bool) : (s.shedBegun input).pwrMode = 1 :=
  State.pwrMode_of_shed h rfl

/-- What the shed sequence begins with. -/
theorem State.startShed_begins (hshed : s.pwr.shed = false) (htrip : s.tripped = false) (input : Bool) :
    let t := s.startShed input
    t.pwr.warned = true ∧ t.pwr.shed = true ∧ t.pwr.shedInput = input ∧ t.pwr.divider = true ∧ t.pwr.halfRate = true
      ∧ t.pwrMode = 1 ∧ t.pwr.warnPin = s.pwr.warnPin ∧ t.pwr.inputLow = s.pwr.inputLow
      ∧ (t.reg Reg.pwrSheds).toNat = min ((s.reg Reg.pwrSheds).toNat + 1) 0xFFFFFFFF := by
  rw [State.startShed_of_not_shed hshed]
  have hmode : ((s.shedBegun input).bump Reg.pwrSheds).pwrMode = 1 := State.shedBegun_pwrMode htrip input
  have hkept := ModeChanged.settleMode ((s.shedBegun input).bump Reg.pwrSheds) s.pwrMode 1
  refine ⟨hkept.warned, hkept.shed, hkept.shedInput, hkept.divider, hkept.half (by rw [hmode]; decide),
    hkept.pwrMode.trans hmode, hkept.warnPin, hkept.inputLow, ?_⟩
  rw [hkept.reg _ (by decide), State.toNat_reg_bump]
  rfl

end

/-- A warning that leaves the power part `q`: before the firmware runs only the status bit shows it, a shed sequence that
runs goes on, and otherwise one begins. -/
theorem warning_starts {s : State} {i : Instr} {q : Pwr} {input : Bool}
    (hexec : exec i s = .next (({ s with pwr := q }).takeWarn input)) (hup : ({ s with pwr := q } : State).up = s.up)
    (hshed : q.shed = s.pwr.shed) (htrip : q.trip = s.pwr.trip) :
    (s.up = false → exec i s = .next { s with pwr := q })
      ∧ (s.up = true → s.pwr.shed = true →
          exec i s = .next { s with pwr := { q with warned := true, clearedAt := none } })
      ∧ (s.up = true → s.pwr.shed = false → s.tripped = false → ∃ t, exec i s = .next t ∧ t.pwr.warned = true
          ∧ t.pwr.shed = true ∧ t.pwr.shedInput = input ∧ t.pwr.divider = true ∧ t.pwr.halfRate = true ∧ t.pwrMode = 1
          ∧ t.pwr.warnPin = q.warnPin ∧ t.pwr.inputLow = q.inputLow
          ∧ (t.reg Reg.pwrSheds).toNat = min ((s.reg Reg.pwrSheds).toNat + 1) 0xFFFFFFFF) := by
  refine ⟨fun hdown => ?_, fun hrun hsh => ?_, fun hrun hsh htr => ⟨_, hexec, ?_⟩⟩
  · rw [hexec, State.takeWarn_of_down (hup.trans hdown)]
  · rw [hexec, State.takeWarn_of_up (hup.trans hrun), State.startShed_of_shed (hshed.trans hsh)]
  · rw [State.takeWarn_of_up (hup.trans hrun)]
    have htr' : ({ s with pwr := q } : State).tripped = false := (congrArg (· != 0) htrip).trans htr
    exact State.startShed_begins (hshed.trans hsh) htr' input

section
variable {s : State} (halive : s.alive = true)
include halive

theorem exec_psuWarnAssert_long {ns : Nat} (hns : 50 ≤ ns) (hpin : s.pwr.warnPin = false) :
    exec (.psuWarnAssert ns) s = .next (({ s with pwr := { s.pwr with warnPin := true } }).takeWarn false) := by
  rw [show exec (.psuWarnAssert ns) s = execPsuWarnAssert ns s by rfl, execPsuWarnAssert, halive, hpin, if_pos hns]
  rfl

theorem exec_vinLow (hlow : s.pwr.inputLow = false) :
    exec .vinLow s = .next (({ s with pwr := { s.pwr with inputLow := true } }).takeWarn true) := by
  rw [show exec .vinLow s = execVinLow s by rfl, execVinLow, halive, hlow]
  rfl

/-- The pin has recovered: with the input clear too, the hold time starts. -/
theorem exec_psuWarnClear_pin (hpin : s.pwr.warnPin = true) : exec (.psuWarnClear false) s = .next { s with pwr :=
    { s.pwr with warnPin := false, clearedAt :=
      if s.pwr.warned = true ∧ s.pwr.inputLow = false then some s.pitch else s.pwr.clearedAt } } := by
  rw [show exec (.psuWarnClear false) s = execPsuWarnClear false s by rfl, execPsuWarnClear, halive]
  simp only [Bool.false_eq_true, if_false, hpin, Bool.and_self, whenOk_true, Bool.not_false, Bool.and_true,
    Bool.and_eq_true, Bool.not_eq_true']

/-- The input has recovered: with the pin clear too, the hold time starts. -/
theorem exec_psuWarnClear_input (hlow : s.pwr.inputLow = true) : exec (.psuWarnClear true) s = .next { s with pwr :=
    { s.pwr with inputLow := false, clearedAt :=
      if s.pwr.warned = true ∧ s.pwr.warnPin = false then some s.pitch else s.pwr.clearedAt } } := by
  rw [show exec (.psuWarnClear true) s = execPsuWarnClear true s by rfl, execPsuWarnClear, halive]
  simp only [if_true, hlow, Bool.and_self, whenOk_true, Bool.not_false, Bool.and_true, Bool.and_eq_true,
    Bool.not_eq_true']

end

/-! ### The end of the sequence and of the hold time -/

/-- The power part once Table 14-3 is over: the groundsheets' limit is what the cap asks for. -/
def Pwr.shedOver (p : Pwr) : Pwr := { p with shed := false, divider := false, halfRate := p.issueLimit }

/-- The state in which Table 14-3 is over and the mode has not changed yet: clocks and rails stand as PWR_BIVOUAC asks. -/
def State.shedEnded (s : State) : State :=
  let t := (s.shareCap (s.fld Reg.pwrBivouac 0 12)).placeClocks
  { t with pwr := t.pwr.shedOver }

theorem State.shareCap_pwr (s : State) (c : Nat) : ∃ issueLimit clocks, (s.shareCap c).pwr =
    { s.pwr with issueLimit := issueLimit, clocks := clocks } := ⟨_, _, rfl⟩

theorem State.placeClocks_pwr (s : State) : ∃ clocks, s.placeClocks.pwr = { s.pwr with clocks := clocks } := ⟨_, rfl⟩

theorem State.shedEnded_pwr (s : State) : ∃ clocks, s.shedEnded.pwr = { s.pwr with
    shed := false, divider := false, halfRate := (s.shareCap (s.fld Reg.pwrBivouac 0 12)).pwr.issueLimit,
    issueLimit := (s.shareCap (s.fld Reg.pwrBivouac 0 12)).pwr.issueLimit, clocks := clocks } := by
  obtain ⟨_, _, hcap⟩ := s.shareCap_pwr (s.fld Reg.pwrBivouac 0 12)
  obtain ⟨_, hplace⟩ := (s.shareCap (s.fld Reg.pwrBivouac 0 12)).placeClocks_pwr
  have hover : s.shedEnded.pwr = (s.shareCap (s.fld Reg.pwrBivouac 0 12)).placeClocks.pwr.shedOver := rfl
  rw [hover, hplace, hcap]
  exact ⟨_, rfl⟩

theorem State.shedEnded_pwrMode {s : State} (hwarned : s.pwr.warned = true) (htrip : s.tripped = false) :
    s.shedEnded.pwrMode = 2 := by
  obtain ⟨_, hpwr⟩ := s.shedEnded_pwr
  refine State.pwrMode_of_held ?_ ?_ ?_
  · rw [State.tripped, hpwr]
    exact htrip
  · rw [hpwr]
  · rw [hpwr, hwarned, Bool.true_or, Bool.true_or]

section
variable {s : State} (hup : s.up = true)
include hup

theorem exec_shedComplete (hshed : s.pwr.shed = true) : exec .shedComplete s = .next
    ((s.shedEnded.report 0x0201 unitMgmt (b2n s.pwr.shedInput + 2 ^ 16 * s.pwr.shedPower)).settleMode s.pwrMode 1) := by
  rw [show exec .shedComplete s = execShedComplete s by rfl, execShedComplete, hup, hshed]
  rfl

/-- A warning holds the module in BIVOUAC once the sequence is over. -/
theorem exec_shedComplete_warned (hshed : s.pwr.shed = true) (hwarned : s.pwr.warned = true) (htrip : s.tripped = false) :
    ∃ t, exec .shedComplete s = .next t ∧ t.pwr.shed = false ∧ t.pwr.divider = false ∧ t.pwrMode = 2
      ∧ t.pwr.halfRate = (s.shareCap (s.fld Reg.pwrBivouac 0 12)).pwr.issueLimit := by
  refine ⟨_, exec_shedComplete hup hshed, ?_⟩
  have hkept := (ModeChanged.report s.shedEnded 0x0201 unitMgmt (b2n s.pwr.shedInput + 2 ^ 16 * s.pwr.shedPower)).trans
    (.settleMode _ s.pwrMode 1)
  have hmode := State.shedEnded_pwrMode hwarned htrip
  obtain ⟨_, hpwr⟩ := s.shedEnded_pwr
  rw [hkept.shed, hkept.divider, hkept.pwrMode, hkept.half (by rw [hmode]; decide), hmode, hpwr]
  exact ⟨rfl, rfl, rfl, rfl⟩

theorem exec_warnHoldExpiry_eq : exec .warnHoldExpiry s = .next (if s.holdOver = true then
    ({ s with pwr := { s.pwr with warned := false, clearedAt := none } }).settleMode s.pwrMode 2 else s) := by
  rw [show exec .warnHoldExpiry s = execWarnHoldExpiry s by rfl, execWarnHoldExpiry, hup, Bool.true_and, whenOk]

end

theorem State.holdOver_iff {s : State} {b : Nat} (hwarned : s.pwr.warned = true) (hshed : s.pwr.shed = false)
    (hclear : s.pwr.clearedAt = some b) :
    s.holdOver = true ↔ b + 1024 * s.fld Reg.pwrWarnCtrl 8 16 ≤ s.pitch := by
  rw [State.holdOver, hclear]
  simp [hwarned, hshed]

/-- A report of the effective cap changes of the power part what was told only. -/
theorem State.capNote_pwr (s : State) : ∃ told, s.capNote.pwr = { s.pwr with told := told } := by
  unfold State.capNote
  extract_lets c moved
  split
  · exact ⟨_, rfl⟩
  · exact ⟨_, (Reported.report ..).pwr⟩

/-- Where nothing holds the module back, NORMAL is entered from the present power. -/
theorem State.settleMode_normal {s : State} {old : Nat} (cause : Nat) (hold : old ≠ 0) (hmode : s.pwrMode = 0) :
    let t := s.settleMode old cause
    t.pwrMode = 0 ∧ t.pwr.target = 100000 * s.powerNow ∧ t.pwr.heldCaps = none := by
  have henter : s.settleMode old cause = (s.enterNormal old).capNote := by
    unfold State.settleMode
    simp [hold, hmode]
  have hnormal : (s.enterNormal old).pwr.target = 100000 * s.powerNow ∧ (s.enterNormal old).pwr.heldCaps = none := by
    unfold State.enterNormal
    dsimp only
    split
    · rw [(Reported.report ..).pwr]
      exact ⟨rfl, rfl⟩
    · exact ⟨rfl, rfl⟩
  obtain ⟨htarget, hheld⟩ := hnormal
  obtain ⟨told, hnote⟩ := State.capNote_pwr (s.enterNormal old)
  refine ⟨(ModeChanged.settleMode ..).pwrMode.trans hmode, ?_, ?_⟩ <;> rw [henter, hnote]
  · exact htarget
  · exact hheld

/-! ### Loss and return of the input -/

theorem State.cleared_reg {s : State} {off : Nat} (h : off ≠ Reg.bootFwpolicy) : s.cleared.reg off = resetWord off :=
  State.reg_setFld_of_ne _ _ _ _ _ h

theorem State.cleared_policy (s : State) : s.cleared.fld Reg.bootFwpolicy 0 1 = b2n s.boot.policy :=
  (State.fld_setFld_self _ _ _ (by decide)).trans (Nat.mod_eq_of_lt (by unfold b2n; split <;> decide))

theorem State.coldReset_reg (s : State) (cause off : Nat) : (s.coldReset cause).reg off = s.cleared.reg off := rfl

theorem exec_vinCutoff {s : State} (hoff : s.pwr.off = false) :
    exec .vinCutoff s = .next { s.cleared with pwr := { s.cleared.pwr with off := true } } := by
  rw [show exec .vinCutoff s = execVinCutoff s by rfl, execVinCutoff, hoff]
  rfl

theorem exec_powerReturn {s : State} (hoff : s.pwr.off = true) : exec .powerReturn s = .next (s.coldReset 4) := by
  rw [show exec .powerReturn s = execPowerReturn s by rfl, execPowerReturn, hoff, whenOk_true]

/-- Settles O33: each warning by whether the firmware and the shed sequence run, the end of the sequence and of the hold
time by the mode that follows, cutoff and return by the state cleared. -/
theorem supplyWarningsShedAndCutoffClears : Obligations.SupplyWarningsShedAndCutoffClears := by
  refine ⟨?_, fun s => ⟨fun hoff => ⟨_, exec_vinCutoff hoff, rfl, rfl, rfl, rfl, rfl, rfl, rfl, rfl⟩, fun hoff =>
    ⟨_, exec_powerReturn hoff, rfl, rfl, rfl, rfl, rfl, rfl, ?_,
      fun off hne => (s.coldReset_reg 4 off).trans (State.cleared_reg hne)⟩⟩⟩
  · intro s halive p starts
    refine ⟨fun ns hns hpin => warning_starts (exec_psuWarnAssert_long halive hns hpin) rfl rfl rfl,
      fun hlow => warning_starts (exec_vinLow halive hlow) rfl rfl rfl, fun hup hshed hwarned htrip =>
        exec_shedComplete_warned hup hshed hwarned htrip, exec_psuWarnClear_pin halive, exec_psuWarnClear_input halive,
      fun b hup hwarned hshed hclear => ?_⟩
    have hover := State.holdOver_iff hwarned hshed hclear
    refine ⟨fun hearly => ?_, fun hlate hair hcleared htrip => ?_⟩
    · rw [exec_warnHoldExpiry_eq hup, if_neg (mt hover.mp (Nat.not_le.mpr hearly))]
    · have hold : s.pwrMode = 2 := State.pwrMode_of_held htrip hshed (by rw [hwarned, Bool.true_or, Bool.true_or])
      have hnow : ({ s with pwr := { s.pwr with warned := false, clearedAt := none } } : State).pwrMode = 0 :=
        State.pwrMode_eq_zero.mpr ⟨htrip, hshed, rfl, hair, hcleared⟩
      refine ⟨_, (exec_warnHoldExpiry_eq hup).trans (by rw [if_pos (hover.mpr hlate)]),
        (ModeChanged.settleMode ..).warned, ?_⟩
      exact State.settleMode_normal 2 (by rw [hold]; decide) hnow
  · rw [State.fld, State.coldReset_reg]
    exact State.cleared_policy s

end Sys2Proof.Machine
end

section
/-! PROOF. The water-fill shares a budget: never more than it, no more than a die can use, and all of that where the budget
suffices (R420). -/

namespace Sys2Proof.Machine

/-- The two halves of a list under a test, measured by a function. -/
theorem sum_map_filter_add (p : Nat → Bool) (g : Nat → Nat) (l : List Nat) :
    ((l.filter p).map g).sum + ((l.filter (fun x => !p x)).map g).sum = (l.map g).sum := by
  rw [← List.sum_append, ← List.map_append]
  exact ((List.filter_append_perm p l).map g).sum_eq

/-- Heights whose multiples by `n` all exceed a bound exceed it together. -/
theorem length_mul_lt_sum_mul {n r : Nat} :
    ∀ {l : List Nat}, l ≠ [] → (∀ h ∈ l, r < h * n) → l.length * r < l.sum * n
  | [], h, _ => absurd rfl h
  | [a], _, h => by simpa using h a List.mem_cons_self
  | a :: b :: l, _, h => by
    have ha := h a List.mem_cons_self
    have hrest := length_mul_lt_sum_mul (List.cons_ne_nil b l) fun x hx => h x (List.mem_cons_of_mem _ hx)
    rw [List.length_cons, List.sum_cons, Nat.succ_mul, Nat.add_mul]
    omega

/-- Heights whose multiples by `n` are all within a bound are within it together. -/
theorem sum_mul_le_length_mul {n r : Nat} : ∀ {l : List Nat}, (∀ h ∈ l, h * n ≤ r) → l.sum * n ≤ l.length * r
  | [], _ => Nat.le_of_eq (Nat.zero_mul n |>.trans (Nat.zero_mul r).symm)
  | a :: l, h => by
    have ha := h a List.mem_cons_self
    have hrest := sum_mul_le_length_mul fun x hx => h x (List.mem_cons_of_mem _ hx)
    rw [List.length_cons, List.sum_cons, Nat.succ_mul, Nat.add_mul]
    omega

/-- What the ratio `q / n` is to heights `hs` as the level of a budget `r` that does not suffice: no lower than an equal
share of it, and within the budget once each height is held to it. -/
structure Levels (hs : List Nat) (r q n : Nat) : Prop where
  pos : 0 < n
  scarce : r < hs.sum
  share : r * n ≤ q * hs.length
  fits : (hs.map (fun h => min h (q / n))).sum ≤ r

/-- Where no height is within an equal share, that share is the level. -/
theorem Levels.equal {hs : List Nat} {r : Nat} (hne : hs ≠ []) (habove : ∀ h ∈ hs, r < h * hs.length) :
    Levels hs r r hs.length := by
  have hpos : 0 < hs.length := List.length_pos_of_ne_nil hne
  refine ⟨hpos, ?_, Nat.le_refl _, ?_⟩
  · have := length_mul_lt_sum_mul hne habove
    rw [Nat.mul_comm] at this
    exact Nat.lt_of_mul_lt_mul_right this
  · have hle : (hs.map (fun h => min h (r / hs.length))).sum ≤ hs.length * (r / hs.length) := by
      have := List.sum_le_card_nsmul (hs.map (fun h => min h (r / hs.length))) (r / hs.length) (by
        intro x hx
        obtain ⟨h, -, rfl⟩ := List.mem_map.mp hx
        exact Nat.min_le_right ..)
      rwa [List.length_map, smul_eq_mul] at this
    exact hle.trans (Nat.mul_div_le ..)

section
variable {hs held rest : List Nat} {r : Nat}
  (hlen : hs.length = held.length + rest.length) (hheld : ∀ h ∈ held, h * hs.length ≤ r)
include hlen hheld

/-- Heights within an equal share are within the budget together. -/
theorem held_sum_le (hpos : 0 < hs.length) : held.sum ≤ r := by
  have hsum := sum_mul_le_length_mul hheld
  have hpart : held.length * r ≤ hs.length * r := Nat.mul_le_mul_right r (by omega)
  rw [Nat.mul_comm hs.length] at hpart
  exact Nat.le_of_mul_le_mul_right (hsum.trans hpart) hpos

variable (hmap : ∀ g : Nat → Nat, (held.map g).sum + (rest.map g).sum = (hs.map g).sum)
include hmap

/-- The level of what is left, for the heights that are left, is that of all heights. -/
theorem Levels.of_rest {q n : Nat} (hpos : 0 < hs.length) (h : Levels rest (r - held.sum) q n) : Levels hs r q n := by
  obtain ⟨hn, hscarce, hshare, hfits⟩ := h
  have hsum : held.sum + rest.sum = hs.sum := by simpa using hmap id
  have hle := held_sum_le hlen hheld hpos
  have hheldLen := sum_mul_le_length_mul hheld
  obtain ⟨k, hk⟩ : ∃ k, r = held.sum + k := Nat.exists_eq_add_of_le hle
  rw [hk, Nat.add_sub_cancel_left] at hscarce hshare hfits
  have hrest : 0 < rest.length := by
    rcases rest with - | ⟨a, l⟩
    · exact absurd hscarce (Nat.not_lt_zero k)
    · exact Nat.succ_pos _
  -- an equal share of all is no more than an equal share of what is left
  have hequal : r * rest.length ≤ k * hs.length := by
    have : r * hs.length = held.sum * hs.length + k * hs.length := by rw [hk, Nat.add_mul]
    have : r * hs.length = held.length * r + r * rest.length := by rw [hlen]; ring
    omega
  have hlevel : r * n ≤ q * hs.length := by
    have : r * n * rest.length ≤ q * hs.length * rest.length := calc
      r * n * rest.length = r * rest.length * n := by ring
      _ ≤ k * hs.length * n := Nat.mul_le_mul_right n hequal
      _ = k * n * hs.length := by ring
      _ ≤ q * rest.length * hs.length := Nat.mul_le_mul_right _ hshare
      _ = q * hs.length * rest.length := by ring
    exact Nat.le_of_mul_le_mul_right this hrest
  refine ⟨hn, by omega, hlevel, ?_⟩
  have hmin : (held.map (fun h => min h (q / n))).sum ≤ held.sum := by
    simpa using List.sum_le_sum (f := fun h => min h (q / n)) (g := id) (l := held) fun h _ => Nat.min_le_left ..
  rw [← hmap, hk]
  omega

end

/-- The level of a budget: none where it suffices for all heights, else as `Levels` says. -/
theorem waterLevel_spec : ∀ (f : Nat) (hs : List Nat) (r : Nat), hs.length < f →
    (waterLevel f hs r = none → hs.sum ≤ r) ∧ ∀ q n, waterLevel f hs r = some (q, n) → Levels hs r q n
  | 0, _, _, h => absurd h (Nat.not_lt_zero _)
  | f + 1, hs, r, hf => by
    unfold waterLevel
    dsimp only
    split_ifs with hempty hnone
    · rw [List.isEmpty_iff.mp hempty]
      exact ⟨fun _ => Nat.zero_le r, nofun⟩
    · refine ⟨nofun, fun q n h => ?_⟩
      obtain ⟨rfl, rfl⟩ := Prod.mk.inj (Option.some.inj h)
      refine .equal (fun hnil => hempty (List.isEmpty_iff.mpr hnil)) fun x hx => ?_
      have := List.filter_eq_nil_iff.mp (List.isEmpty_iff.mp hnone) x hx
      exact Nat.not_le.mp fun hle => this (decide_eq_true hle)
    · let p : Nat → Bool := fun h => decide (h * hs.length ≤ r)
      have hpos : 0 < hs.length := List.length_pos_of_ne_nil fun hnil => hempty (List.isEmpty_iff.mpr hnil)
      have hlen : hs.length = (hs.filter p).length + (hs.filter (fun x => !p x)).length :=
        List.length_eq_length_filter_add p
      have hsome : 0 < (hs.filter p).length :=
        List.length_pos_of_ne_nil fun hnil => hnone (List.isEmpty_iff.mpr hnil)
      have hheld : ∀ h ∈ hs.filter p, h * hs.length ≤ r := fun h hh => of_decide_eq_true (List.mem_filter.mp hh).2
      have hmap := fun g => sum_map_filter_add p g hs
      obtain ⟨hall, hlevel⟩ := waterLevel_spec f (hs.filter (fun x => !p x)) (r - (hs.filter p).sum) (by omega)
      rw [sumNat_eq_sum]
      refine ⟨fun h => ?_, fun q n h => .of_rest hlen hheld hmap hpos (hlevel q n h)⟩
      have hsum : (hs.filter p).sum + (hs.filter (fun x => !p x)).sum = hs.sum := by simpa using hmap id
      have := hall h
      have := held_sum_le hlen hheld hpos
      omega

/-- The shares of a water-fill: the heights, or the heights held to the level of a budget that does not suffice. -/
theorem waterFill_cases (b : Nat) (hs : List Nat) : (waterFill b hs = hs ∧ hs.sum ≤ b)
    ∨ ∃ q n, waterFill b hs = hs.map (fun h => min h (q / n)) ∧ Levels hs b q n := by
  obtain ⟨hall, hlevel⟩ := waterLevel_spec (hs.length + 1) hs b (Nat.lt_succ_self _)
  unfold waterFill
  split
  · next h => exact .inl ⟨rfl, hall h⟩
  · next q n h => exact .inr ⟨q, n, rfl, hlevel q n h⟩

theorem waterFill_shares (b : Nat) (hs : List Nat) : (waterFill b hs).length = hs.length ∧ sumNat (waterFill b hs) ≤ b
    ∧ (∀ i, (waterFill b hs).getD i 0 ≤ hs.getD i 0) ∧ (sumNat hs ≤ b → waterFill b hs = hs) := by
  rw [sumNat_eq_sum, sumNat_eq_sum]
  obtain ⟨heq, hsum⟩ | ⟨q, n, heq, hlevel⟩ := waterFill_cases b hs <;> rw [heq]
  · exact ⟨rfl, hsum, fun _ => Nat.le_refl _, fun _ => rfl⟩
  · refine ⟨List.length_map _, hlevel.fits, fun i => ?_, fun h => absurd hlevel.scarce (Nat.not_lt.mpr h)⟩
    have hget := hs.getD_map (n := i) (d := 0) (fun h => min h (q / n))
    rw [Nat.zero_min] at hget
    rw [hget]
    exact Nat.min_le_left ..

end Sys2Proof.Machine
end

section
/-! PROOF. The effective cap, the control period and the end of an excursion (R412, R415, R416, R420, R426 to R428). -/

namespace Sys2Proof.Machine

/-! ### The effective cap -/

theorem foldl_lower_le (l : List (Nat × Nat)) (b : Nat × Nat) :
    (l.foldl (fun b x => if x.1 < b.1 then x else b) b).1 ≤ b.1
      ∧ ∀ x ∈ l, (l.foldl (fun b x => if x.1 < b.1 then x else b) b).1 ≤ x.1 := by
  induction l generalizing b with
  | nil => exact ⟨Nat.le_refl _, nofun⟩
  | cons a l ih =>
    obtain ⟨hfirst, hrest⟩ := ih (if a.1 < b.1 then a else b)
    have hlow : (if a.1 < b.1 then a else b).1 ≤ b.1 ∧ (if a.1 < b.1 then a else b).1 ≤ a.1 := by
      split <;> omega
    rw [List.foldl_cons]
    refine ⟨hfirst.trans hlow.1, fun x hx => ?_⟩
    rcases List.mem_cons.mp hx with rfl | hx
    · exact hfirst.trans hlow.2
    · exact hrest x hx

theorem lowestTerm_le {l : List (Nat × Nat)} {x : Nat × Nat} (h : x ∈ l) : (lowestTerm l).1 ≤ x.1 :=
  (foldl_lower_le l _).2 x h

/-- The effective cap lies in its range, and above 600 W at or below every term in force. -/
theorem State.capEff_bounds (s : State) :
    600 ≤ s.capEff.1 ∧ s.capEff.1 ≤ 2000 ∧ ∀ x ∈ s.capTerms, s.capEff.1 ≤ max 600 x.1 := by
  refine ⟨le_holdTo (by decide), holdTo_le (by decide), fun x hx => ?_⟩
  have hle := lowestTerm_le hx
  show holdTo 600 2000 (lowestTerm s.capTerms).1 ≤ max 600 x.1
  unfold holdTo
  split_ifs <;> omega

/-- The registers that the effective cap and the lantern's ramp go by. -/
def steeringRegs : List Nat := [Reg.pwrCap, Reg.pwrBudget, Reg.pwrCtrl, Reg.pwrBivouac, Reg.pwrRamp, Reg.pwrDpdt]

/-- The effective cap goes by four registers, the caps held, the air cap, the heatsink and the mode. -/
theorem State.capEff_congr {s t : State} (hreg : ∀ off ∈ steeringRegs, t.reg off = s.reg off)
    (hheld : t.pwr.heldCaps = s.pwr.heldCaps) (hair : t.pwr.airCap = s.pwr.airCap) (hvalid : t.pwr.hsValid = s.pwr.hsValid)
    (hmode : t.pwrMode = s.pwrMode) (htrip : t.tripped = s.tripped) : t.capEff = s.capEff := by
  have hfld : ∀ off ∈ steeringRegs, ∀ lo w, t.fld off lo w = s.fld off lo w := fun off ho lo w => by
    rw [State.fld, hreg off ho, State.fld]
  have hgiven : t.givenCaps = s.givenCaps := by
    rw [State.givenCaps, hfld _ (by decide), hfld _ (by decide), hfld _ (by decide), State.givenCaps]
  have hterms : t.capTerms = s.capTerms := by
    rw [State.capTerms, hgiven, hheld, hair, hvalid, hmode, hfld Reg.pwrBivouac (by decide), hfld Reg.pwrCtrl (by decide),
      hfld Reg.pwrCtrl (by decide), State.capTerms]
  rw [State.capEff, hterms, htrip, State.capEff]

/-! ### What a control period measures -/

/-- The registers that show what a control period has measured of the module. -/
def shownRegs : List Nat := [Reg.pwrPower, Reg.pwrVin, Reg.pwrIin, Reg.pwrEnergyLo, Reg.pwrEnergyHi]

/-- The other registers that a control period may write. -/
def periodRegs : List Nat := [Reg.pwrKindleLo, Reg.pwrKindleHi, Reg.pwrExcTime] ++ (List.range 8).map Reg.pwrDie
  ++ (List.range 8).map Reg.pwrShare ++ modeRegs

theorem shownRegs_not_period : ∀ off ∈ shownRegs, off ∉ periodRegs := by decide

theorem steeringRegs_not_period : ∀ off ∈ steeringRegs, off ∉ periodRegs ∧ off ∉ shownRegs := by decide

/-- `t` is `s` but for the registers of a control period, for what it measures and for the time of an excursion. -/
structure PeriodKept (s t : State) : Prop where
  rest : ∃ regs kindleRest accs meas excRest excFrom excNotBefore, t = { s with
    regs := regs, pwr := { s.pwr with
      kindleRest := kindleRest, accs := accs, meas := meas, excRest := excRest, excFrom := excFrom,
      excNotBefore := excNotBefore } }
  reg : ∀ off ∉ periodRegs, t.reg off = s.reg off

namespace PeriodKept

theorem refl (s : State) : PeriodKept s s := ⟨⟨_, _, _, _, _, _, _, rfl⟩, fun _ _ => rfl⟩

theorem trans {s t u : State} (h : PeriodKept s t) (g : PeriodKept t u) : PeriodKept s u := by
  refine ⟨?_, fun off hoff => (g.reg off hoff).trans (h.reg off hoff)⟩
  obtain ⟨_, _, _, _, _, _, _, rfl⟩ := h.rest
  obtain ⟨_, _, _, _, _, _, _, rfl⟩ := g.rest
  exact ⟨_, _, _, _, _, _, _, rfl⟩

theorem ite {s t u : State} {p : Prop} [Decidable p] (ht : PeriodKept s t) (hu : PeriodKept s u) :
    PeriodKept s (if p then t else u) := iteInduction (fun _ => ht) (fun _ => hu)

theorem setReg (s : State) {off : Nat} (v : W32) (h : off ∈ periodRegs) : PeriodKept s (s.setReg off v) :=
  ⟨⟨_, _, _, _, _, _, _, rfl⟩, fun o ho => by rw [State.reg_setReg, if_neg (ne_of_mem_of_not_mem h ho).symm]⟩

theorem setPwr (s : State) {kindleRest accs meas excRest excFrom excNotBefore} : PeriodKept s { s with pwr := { s.pwr with
    kindleRest := kindleRest, accs := accs, meas := meas, excRest := excRest, excFrom := excFrom,
    excNotBefore := excNotBefore } } := ⟨⟨_, _, _, _, _, _, _, rfl⟩, fun _ _ => rfl⟩

theorem countKindle (s : State) : PeriodKept s s.countKindle :=
  (setPwr s).trans ((setReg _ _ (by decide)).trans (setReg _ _ (by decide)))

theorem measureDies (m : Meas) (s : State) : PeriodKept s ((List.range 8).foldl (State.measureDie m) s) :=
  (List.range 8).foldlRecOn _ (refl s) fun t h d hd =>
    h.trans ((setReg t _ (by
      have : Reg.pwrDie d ∈ (List.range 8).map Reg.pwrDie := List.mem_map_of_mem hd
      simp only [periodRegs, List.mem_append, this, true_or, or_true])).trans (setPwr _))

theorem endExcursion (s : State) : PeriodKept s s.endExcursion := by
  unfold State.endExcursion
  split
  · exact refl s
  · exact setPwr s

theorem watchCap (s : State) (now : Nat) : PeriodKept s (s.watchCap now) :=
  .ite (.ite ((setPwr s).trans (setReg _ _ (by decide))) (setPwr s)) (endExcursion s)

section
variable {s t : State} (h : PeriodKept s t)
include h

theorem pwrMode : t.pwrMode = s.pwrMode := by
  obtain ⟨_, _, _, _, _, _, _, rfl⟩ := h.rest
  rfl

theorem capEff : t.capEff = s.capEff := by
  have hreg : ∀ off ∈ steeringRegs, t.reg off = s.reg off := fun off ho => h.reg off (steeringRegs_not_period off ho).1
  obtain ⟨_, _, _, _, _, _, _, rfl⟩ := h.rest
  exact State.capEff_congr hreg rfl rfl rfl rfl rfl

theorem target : t.pwr.target = s.pwr.target := by
  obtain ⟨_, _, _, _, _, _, _, rfl⟩ := h.rest
  rfl

theorem kindle : t.pwr.kindle = s.pwr.kindle := by
  obtain ⟨_, _, _, _, _, _, _, rfl⟩ := h.rest
  rfl

end

end PeriodKept

theorem State.endExcursion_meas (s : State) : s.endExcursion.pwr.meas = s.pwr.meas := by
  unfold State.endExcursion
  split <;> rfl

theorem State.watchCap_meas (s : State) (now : Nat) : (s.watchCap now).pwr.meas = s.pwr.meas := by
  unfold State.watchCap
  extract_lets r s1
  split_ifs
  · rfl
  · rfl
  · exact s.endExcursion_meas

/-- What a control period shows: power, voltage and current, and the energy added up. -/
def State.periodShown (s : State) (m : Meas) : State :=
  ((((s.setReg Reg.pwrPower (BitVec.ofNat 32 (min m.now 0xFFF + 2 ^ 16 * min m.mean 0xFFF))).setReg Reg.pwrVin
    (BitVec.ofNat 32 (min m.mv 0xFFFF))).setReg Reg.pwrIin (BitVec.ofNat 32 (min (m.ma / 10) 0xFFFF))).addEnergy
      Reg.pwrEnergyLo Reg.pwrEnergyHi m.energy)

/-- The state in which a control period has taken all that was measured. -/
def State.periodMeasured (s : State) (m : Meas) : State :=
  let t := (List.range 8).foldl (State.measureDie m) (s.periodShown m).countKindle
  ({ t with pwr := { t.pwr with meas := m } }).watchCap m.now

/-- Target, kindling, shares and clocks as a control period in NORMAL sets them. -/
def State.periodSteered (s : State) : State :=
  let t := s.moveTarget.kindleTo s.capEff.1
  t.shareCap t.capNow

/-- The state that a control period leaves. -/
def State.periodOver (s : State) (m : Meas) : State :=
  (if (s.periodMeasured m).pwrMode = 0 then (s.periodMeasured m).periodSteered
    else s.periodMeasured m).endTripCause.capNote

theorem exec_controlPeriod {s : State} (hup : s.up = true) (m : Meas) : exec (.controlPeriod m) s =
    .next (s.periodOver m) := by
  rw [show exec (.controlPeriod m) s = execControlPeriod m s by rfl, execControlPeriod, hup, whenOk_true]
  rfl

theorem State.reg64_setReg64 (s : State) {lo hi v : Nat} (hne : lo ≠ hi) (hv : v < 2 ^ 64) :
    (s.setReg64 lo hi v).reg64 lo hi = v := by
  rw [State.reg64, State.setReg64, State.reg_setReg, State.reg_setReg, State.reg_setReg, if_neg hne, if_pos rfl, if_pos rfl,
    BitVec.toNat_ofNat, BitVec.toNat_ofNat]
  omega

section
variable (s : State) (m : Meas)

theorem State.periodShown_pwr : (s.periodShown m).pwr = s.pwr := by
  rw [State.periodShown, State.addEnergy, State.setReg64_pwr, State.setReg_pwr, State.setReg_pwr, State.setReg_pwr]

theorem State.periodShown_reg_of_not_shown {off : Nat} (h : off ∉ shownRegs) : (s.periodShown m).reg off = s.reg off := by
  simp only [shownRegs, List.mem_cons, List.not_mem_nil, or_false, not_or] at h
  obtain ⟨hpower, hvin, hiin, hlo, hhi⟩ := h
  rw [State.periodShown, State.addEnergy, State.setReg64, State.reg_setReg, State.reg_setReg, State.reg_setReg,
    State.reg_setReg, State.reg_setReg, if_neg hhi, if_neg hlo, if_neg hiin, if_neg hvin, if_neg hpower]

theorem State.periodShown_shows : (s.periodShown m).reg Reg.pwrPower =
      BitVec.ofNat 32 (min m.now 4095 + 2 ^ 16 * min m.mean 4095)
    ∧ (s.periodShown m).reg Reg.pwrVin = BitVec.ofNat 32 (min m.mv 65535)
    ∧ (s.periodShown m).reg Reg.pwrIin = BitVec.ofNat 32 (min (m.ma / 10) 65535)
    ∧ (s.periodShown m).reg64 Reg.pwrEnergyLo Reg.pwrEnergyHi
      = (s.reg64 Reg.pwrEnergyLo Reg.pwrEnergyHi + m.energy) % 2 ^ 64 := by
  refine ⟨?_, ?_, ?_, ?_⟩
  iterate 3 simp only [State.periodShown, State.addEnergy, State.setReg64, State.reg_setReg]; rfl
  rw [State.periodShown, State.addEnergy, State.reg64_setReg64 _ (by decide) (Nat.mod_lt _ (by decide))]
  simp only [State.reg64, State.reg_setReg]
  rfl

/-- What a control period measures after it has shown the module's power. -/
theorem State.periodMeasured_kept : PeriodKept (s.periodShown m) (s.periodMeasured m) :=
  ((PeriodKept.countKindle _).trans (.measureDies m _)).trans ((PeriodKept.setPwr _).trans (.watchCap _ _))

theorem State.periodMeasured_meas : (s.periodMeasured m).pwr.meas = m := State.watchCap_meas ..

theorem State.periodShown_capEff : (s.periodShown m).capEff = s.capEff :=
  have hpwr := s.periodShown_pwr m
  State.capEff_congr (fun _ ho => s.periodShown_reg_of_not_shown m (steeringRegs_not_period _ ho).2) (by rw [hpwr])
    (by rw [hpwr]) (by rw [hpwr]) (State.pwrMode_congr hpwr) (by rw [State.tripped, hpwr, State.tripped])

theorem State.periodMeasured_pwrMode : (s.periodMeasured m).pwrMode = s.pwrMode :=
  (s.periodMeasured_kept m).pwrMode.trans (State.pwrMode_congr (s.periodShown_pwr m))

theorem State.periodMeasured_target : (s.periodMeasured m).pwr.target = s.pwr.target := by
  rw [(s.periodMeasured_kept m).target, s.periodShown_pwr m]

theorem State.periodMeasured_kindle : (s.periodMeasured m).pwr.kindle = s.pwr.kindle := by
  rw [(s.periodMeasured_kept m).kindle, s.periodShown_pwr m]

end

/-! ### How the lantern steers -/

/-- The target moves towards the cap, by no more than the ramp allows. -/
theorem State.moveTarget_moves (s : State) {cap ramp dpdt : Nat} (hcap : s.capEff.1 = cap)
    (hramp : s.fld Reg.pwrRamp 0 10 = ramp) (hdpdt : s.fld Reg.pwrDpdt 0 7 = dpdt) :
    min s.pwr.target (100000 * cap) ≤ s.moveTarget.pwr.target ∧ s.moveTarget.pwr.target ≤ max s.pwr.target (100000 * cap)
      ∧ s.moveTarget.pwr.target ≤ s.pwr.target + min (256 * ramp) (256 * (dpdt * cap) / 100)
      ∧ s.pwr.target ≤ s.moveTarget.pwr.target + 256 * ramp := by
  subst hcap hramp hdpdt
  have htarget : s.moveTarget.pwr.target = if s.pwr.target < 100000 * s.capEff.1 then
      min (100000 * s.capEff.1) (s.pwr.target + min (256 * s.fld Reg.pwrRamp 0 10)
        (256 * (s.fld Reg.pwrDpdt 0 7 * s.capEff.1) / 100))
    else max (100000 * s.capEff.1) (s.pwr.target - 256 * s.fld Reg.pwrRamp 0 10) := rfl
  rw [htarget]
  generalize 256 * (s.fld Reg.pwrDpdt 0 7 * s.capEff.1) / 100 = rise
  split_ifs <;> omega

/-- Kindling raises the level of input power to the cap at most. -/
theorem State.nextLevel_le (s : State) (cap : Nat) :
    s.nextLevel cap ≤ max (100000 * s.pwr.meas.now - s.pwr.kindle) (100000 * cap) := by
  unfold State.nextLevel
  extract_lets work step
  split_ifs
  · exact Nat.max_le.mpr ⟨Nat.le_max_left .., (Nat.min_le_left ..).trans (Nat.le_max_right ..)⟩
  · exact Nat.le_max_left ..

theorem State.shareCap_regs (s : State) (c : Nat) : ∃ share : Nat → Nat, (s.shareCap c).regs =
    ((List.range 8).foldl (fun t d => t.setFld (Reg.pwrShare d) 0 12 (share d)) s).regs := by
  simp only [State.shareCap]
  exact ⟨_, rfl⟩

theorem State.shareCap_reg_of_not_share (s : State) (c : Nat) {off : Nat} (h : off ∉ (List.range 8).map Reg.pwrShare) :
    (s.shareCap c).reg off = s.reg off := by
  obtain ⟨share, hregs⟩ := s.shareCap_regs c
  rw [State.reg, hregs]
  refine (List.range 8).foldlRecOn (motive := fun t => State.reg t off = s.reg off) _ rfl fun t ht d hd => ?_
  rw [State.reg_setFld_of_ne _ _ _ _ _ (ne_of_mem_of_not_mem (List.mem_map_of_mem hd) h).symm, ht]

/-- The power part with another target. -/
def Pwr.aimed (p : Pwr) (target : Nat) : Pwr := { p with target := target }

theorem Pwr.aimed_meas (p : Pwr) (target : Nat) : (p.aimed target).meas = p.meas := rfl

theorem Pwr.aimed_kindle (p : Pwr) (target : Nat) : (p.aimed target).kindle = p.kindle := rfl

theorem State.moveTarget_pwr (s : State) : s.moveTarget.pwr = s.pwr.aimed s.moveTarget.pwr.target := rfl

theorem State.kindleTo_pwr (s : State) (cap : Nat) : ∃ kindle, (s.kindleTo cap).pwr =
    { s.pwr with level := s.nextLevel cap, kindle := kindle } := ⟨_, rfl⟩

/-- What steering changes of the power part. -/
def Pwr.steered (p : Pwr) (target level kindle : Nat) (issueLimit : Bool) (clocks : List (Nat × DieClock)) : Pwr :=
  { p with target := target, level := level, kindle := kindle, issueLimit := issueLimit, clocks := clocks }

section
variable (p : Pwr) (target level kindle : Nat) (issueLimit : Bool) (clocks : List (Nat × DieClock))

theorem Pwr.steered_tripCleared : (p.steered target level kindle issueLimit clocks).tripCleared = p.tripCleared := rfl

end

theorem State.periodSteered_pwr (s : State) : ∃ kindle issueLimit clocks, s.periodSteered.pwr =
    s.pwr.steered s.moveTarget.pwr.target (s.moveTarget.nextLevel s.capEff.1) kindle issueLimit clocks := by
  obtain ⟨_, hkindle⟩ := s.moveTarget.kindleTo_pwr s.capEff.1
  obtain ⟨_, _, hshare⟩ := (s.moveTarget.kindleTo s.capEff.1).shareCap_pwr (s.moveTarget.kindleTo s.capEff.1).capNow
  have hsteered : s.periodSteered = (s.moveTarget.kindleTo s.capEff.1).shareCap (s.moveTarget.kindleTo s.capEff.1).capNow := rfl
  rw [hsteered, hshare, hkindle, s.moveTarget_pwr]
  exact ⟨_, _, _, rfl⟩

theorem State.periodSteered_reg (s : State) {off : Nat} (h : off ∉ (List.range 8).map Reg.pwrShare) :
    s.periodSteered.reg off = s.reg off := by
  have hsteered : s.periodSteered = (s.moveTarget.kindleTo s.capEff.1).shareCap (s.moveTarget.kindleTo s.capEff.1).capNow := rfl
  rw [hsteered, State.shareCap_reg_of_not_share _ _ h]
  simp only [State.reg, State.kindleTo, State.moveTarget]

theorem State.endTripCause_reg (s : State) {off : Nat} (h : off ∉ modeRegs) : s.endTripCause.reg off = s.reg off := by
  unfold State.endTripCause
  split
  · exact (ModeChanged.settleMode ..).reg off h
  · rfl

theorem State.endTripCause_of_not_cleared {s : State} (h : s.pwr.tripCleared = false) : s.endTripCause = s :=
  if_neg fun hall => ne_true_of_eq_false h hall.1

/-! ### The control period as a whole -/

section
variable {s : State} (m : Meas)

/-- What is shown stays until the end of the period. -/
theorem State.periodOver_reg {off : Nat} (h : off ∈ shownRegs) : (s.periodOver m).reg off = (s.periodShown m).reg off := by
  have hperiod := shownRegs_not_period off h
  have hmode : off ∉ modeRegs := fun hmem => hperiod (List.mem_append_right _ hmem)
  have hshare : off ∉ (List.range 8).map Reg.pwrShare := fun hmem =>
    hperiod (List.mem_append_left _ (List.mem_append_right _ hmem))
  rw [State.periodOver, (ModeChanged.capNote _).reg off hmode, State.endTripCause_reg _ hmode,
    ← (s.periodMeasured_kept m).reg off hperiod]
  split
  · exact State.periodSteered_reg _ hshare
  · rfl

theorem State.periodOver_shows : (s.periodOver m).reg Reg.pwrPower =
      BitVec.ofNat 32 (min m.now 4095 + 2 ^ 16 * min m.mean 4095)
    ∧ (s.periodOver m).reg Reg.pwrVin = BitVec.ofNat 32 (min m.mv 65535)
    ∧ (s.periodOver m).reg Reg.pwrIin = BitVec.ofNat 32 (min (m.ma / 10) 65535)
    ∧ (s.periodOver m).reg64 Reg.pwrEnergyLo Reg.pwrEnergyHi
      = (s.reg64 Reg.pwrEnergyLo Reg.pwrEnergyHi + m.energy) % 2 ^ 64 := by
  rw [State.reg64, State.periodOver_reg m (by decide), State.periodOver_reg m (by decide),
    State.periodOver_reg m (by decide), State.periodOver_reg m (by decide), State.periodOver_reg m (by decide),
    ← State.reg64]
  exact s.periodShown_shows m

/-- In NORMAL a control period moves the target and sets the level. -/
theorem State.periodOver_steers (h : s.pwrMode = 0) :
    (s.periodOver m).pwr.target = (s.periodMeasured m).moveTarget.pwr.target
      ∧ (s.periodOver m).pwr.level = (s.periodMeasured m).moveTarget.nextLevel (s.periodMeasured m).capEff.1 := by
  have hmode : (s.periodMeasured m).pwrMode = 0 := (s.periodMeasured_pwrMode m).trans h
  obtain ⟨-, -, -, -, hclear⟩ := State.pwrMode_eq_zero.mp hmode
  obtain ⟨_, _, _, hsteered⟩ := (s.periodMeasured m).periodSteered_pwr
  have hsame : (s.periodMeasured m).periodSteered.endTripCause = (s.periodMeasured m).periodSteered :=
    State.endTripCause_of_not_cleared (by rw [hsteered, Pwr.steered_tripCleared, hclear])
  obtain ⟨_, hnote⟩ := (s.periodMeasured m).periodSteered.capNote_pwr
  rw [State.periodOver, if_pos hmode, hsame, hnote, hsteered]
  exact ⟨rfl, rfl⟩

/-- In NORMAL the target keeps to the ramp of the effective cap, and kindling to the cap. -/
theorem State.periodOver_bounds (h : s.pwrMode = 0) :
    min s.pwr.target (100000 * s.capEff.1) ≤ (s.periodOver m).pwr.target
      ∧ (s.periodOver m).pwr.target ≤ max s.pwr.target (100000 * s.capEff.1)
      ∧ (s.periodOver m).pwr.target ≤ s.pwr.target
        + min (256 * s.fld Reg.pwrRamp 0 10) (256 * (s.fld Reg.pwrDpdt 0 7 * s.capEff.1) / 100)
      ∧ s.pwr.target ≤ (s.periodOver m).pwr.target + 256 * s.fld Reg.pwrRamp 0 10
      ∧ (s.periodOver m).pwr.level ≤ max (100000 * m.now - s.pwr.kindle) (100000 * s.capEff.1) := by
  have hcap : (s.periodMeasured m).capEff = s.capEff :=
    (s.periodMeasured_kept m).capEff.trans (s.periodShown_capEff m)
  have hfld : ∀ off ∈ steeringRegs, ∀ lo w, (s.periodMeasured m).fld off lo w = s.fld off lo w := fun off ho lo w => by
    obtain ⟨hperiod, hshown⟩ := steeringRegs_not_period off ho
    rw [State.fld, (s.periodMeasured_kept m).reg off hperiod, s.periodShown_reg_of_not_shown m hshown, State.fld]
  obtain ⟨hlow, hhigh, hrise, hfall⟩ := (s.periodMeasured m).moveTarget_moves (congrArg Prod.fst hcap)
    (hfld Reg.pwrRamp (by decide) 0 10) (hfld Reg.pwrDpdt (by decide) 0 7)
  have hlevel := (s.periodMeasured m).moveTarget.nextLevel_le s.capEff.1
  rw [State.moveTarget_pwr, Pwr.aimed_meas, Pwr.aimed_kindle, State.periodMeasured_meas,
    State.periodMeasured_kindle] at hlevel
  rw [s.periodMeasured_target m] at hlow hhigh hrise hfall
  obtain ⟨htarget, hsteer⟩ := State.periodOver_steers m h
  rw [htarget, hsteer, hcap]
  exact ⟨hlow, hhigh, hrise, hfall, hlevel⟩

end

/-! ### The end of an excursion (R416) -/

section
variable {s : State} {b : Nat} (hup : s.up = true) (hmode : s.pwrMode = 0) (hexc : s.pwr.excFrom = some b)
include hup hmode hexc

theorem exec_excursionTimeout_eq : exec .excursionTimeout s = .next (if b + 1000000 ≤ s.pitch then
    (s.endExcursion.shareCap s.capEff.1).report 0x020A unitMgmt s.powerNow else s) := by
  have hover : s.excursionOver = decide (b + 1000000 ≤ s.pitch) := by
    rw [State.excursionOver, hmode, hexc, Option.elim_some, beq_self_eq_true, Bool.true_and]
  rw [show exec .excursionTimeout s = execExcursionTimeout s by rfl, execExcursionTimeout, hup, hover, Bool.true_and, whenOk]
  exact congrArg _ (if_congr decide_eq_true_iff rfl rfl)

theorem exec_excursionTimeout_over (h : b + 1000000 ≤ s.pitch) : ∃ t, exec .excursionTimeout s = .next t
    ∧ t.pwr.excFrom = none ∧ t.pwr.excNotBefore = s.pitch + (s.pitch - b) := by
  refine ⟨_, exec_excursionTimeout_eq hup hmode hexc, ?_⟩
  have hend : s.endExcursion.pwr = { s.pwr with excFrom := none, excNotBefore := s.pitch + (s.pitch - b) } := by
    rw [State.endExcursion, hexc]
  obtain ⟨_, _, hshare⟩ := s.endExcursion.shareCap_pwr s.capEff.1
  rw [if_pos h, (Reported.report ..).pwr, hshare, hend]
  exact ⟨rfl, rfl⟩

end

/-- Settles O34: the control period by what it shows and how it steers, the shares by the level of the water-fill, the cap
by its lowest term, and an excursion by its length. -/
theorem lanternFollowsTheCap : Obligations.LanternFollowsTheCap := by
  refine ⟨⟨fun s m hup => ⟨_, exec_controlPeriod hup m, ?_⟩, waterFill_shares⟩, fun s => ⟨s.capEff_bounds,
    fun b hup hmode hexc => ⟨fun hearly => ?_, exec_excursionTimeout_over hup hmode hexc⟩⟩⟩
  · obtain ⟨hpower, hvin, hiin, henergy⟩ := State.periodOver_shows (s := s) m
    exact ⟨hpower, hvin, hiin, henergy, State.periodOver_bounds m⟩
  · rw [exec_excursionTimeout_eq hup hmode hexc, if_neg (Nat.not_le.mpr hearly)]

end Sys2Proof.Machine
end

section
/-! PROOF. The engines of a cell leave the power part alone, whatever they read, write, report or bring up (R152, R183,
R301). -/

namespace Sys2Proof.Machine

/-- The power part is the same. -/
def PwrKept (s t : State) : Prop := t.pwr = s.pwr

namespace PwrKept

theorem refl (s : State) : PwrKept s s := rfl

theorem trans {s t u : State} (h : PwrKept s t) (g : PwrKept t u) : PwrKept s u := Eq.trans g h

theorem ite {s t u : State} {p : Prop} [Decidable p] (ht : PwrKept s t) (hu : PwrKept s u) :
    PwrKept s (if p then t else u) := iteInduction (fun _ => ht) (fun _ => hu)

theorem foldl {α : Type} {f : State → α → State} (hf : ∀ s a, PwrKept s (f s a)) (l : List α) (s : State) :
    PwrKept s (l.foldl f s) := l.foldlRecOn f (refl s) fun t h a _ => h.trans (hf t a)

theorem of_pair {α : Type} {s t : State} {q : α × State} {x : α} (hq : PwrKept s q.2) (h : q = (x, t)) : PwrKept s t := by
  rwa [h] at hq

theorem of_reported {s t : State} (h : Reported s t) : PwrKept s t := h.pwr

/-! ### Registers, cells and flags -/

theorem setReg (s : State) (off : Nat) (v : W32) : PwrKept s (s.setReg off v) := rfl

theorem bump (s : State) (off : Nat) : PwrKept s (s.bump off) := rfl

theorem bumpUnits (s : State) (off n : Nat) : PwrKept s (s.bumpUnits off n) := rfl

theorem setCell (s : State) (c : Nat) (k : Cell) : PwrKept s (s.setCell c k) := rfl

theorem setPool (s : State) (p : Pool) : PwrKept s { s with pool := p } := rfl

theorem setFree (s : State) (n : Nat) : PwrKept s { s with free := n } := rfl

theorem report (s : State) (code unit data : Nat) : PwrKept s (s.report code unit data) := of_reported (.report ..)

theorem reportLim (s : State) (code source unit data : Nat) : PwrKept s (s.reportLim code source unit data) :=
  of_reported (.reportLim ..)

theorem raiseFlag (s : State) (f : BitVec 4) (e : W32) : PwrKept s (s.raiseFlag f e) := by
  obtain ⟨k, hflag⟩ | hflag := FlagPlaced.raiseFlag s f e <;> rw [hflag]
  · exact refl s
  · exact bump ..

theorem cellReserved (s : State) (c code layer : Nat) (e : Option W32) : PwrKept s (s.cellReserved c code layer e) := by
  have hcount : PwrKept s ((s.setFld (Reg.cellFmtLast c) 0 4 code).bumpFld (Reg.cellFmtLast c) 16 16 1) := rfl
  unfold State.cellReserved
  dsimp only
  split
  · exact (hcount.trans (reportLim ..)).trans (raiseFlag ..)
  · exact hcount.trans (reportLim ..)

/-! ### Scratchpad -/

theorem spadUe (s : State) (i : Nat) : PwrKept s (s.spadUe i) :=
  have hcount := (bump s (Reg.cellSpadUe (spadCell (i * 8)))).trans (report ..)
  .ite (hcount.trans (raiseFlag ..)) hcount

theorem spadCorrect (s : State) (i : Nat) : PwrKept s (s.spadCorrect i) := rfl

theorem spadTouch (s : State) (a n : Nat) : PwrKept s (s.spadTouch a n) :=
  .ite (refl s) ((foldl spadCorrect ..).trans (foldl spadUe ..))

theorem spadTouchAll (s : State) (l : List (Nat × Nat)) : PwrKept s (s.spadTouchAll l) :=
  .ite (refl s) ((foldl spadCorrect ..).trans (foldl spadUe ..))

theorem spadWrite (s : State) (a : Nat) (bs : List Byte) : PwrKept s (s.spadWrite a bs) := by
  have hrace : PwrKept s (s.raceWrite a bs.length) := by rw [s.raceWrite_eq]; exact refl s
  exact hrace.trans rfl

/-! ### Pages and descriptors -/

theorem usePage (s : State) (p : Nat) : PwrKept s (s.usePage p) := by
  unfold State.usePage
  split
  · exact setPool ..
  · exact refl s

theorem hbmCorrect (s : State) (i : Nat) : PwrKept s (s.hbmCorrect i) := by
  have hcount : ∀ words p, PwrKept s { s.bump Reg.poolCe with hbmCe := words, pool := p } := fun _ _ => rfl
  unfold State.hbmCorrect
  dsimp only
  split
  · exact (hcount _ _).trans (reportLim ..)
  · exact hcount _ _

theorem loseShard (s : State) (n p : Nat) : PwrKept s (s.loseShard n p) := by
  unfold State.loseShard
  split
  · exact (setPool ..).trans (report ..)
  · exact refl s

theorem hbmUe (scrub : Bool) (committed : Option Nat) (s : State) (i : Nat) : PwrKept s (s.hbmUe scrub committed i) := by
  unfold State.hbmUe
  extract_lets f n flag s1 s2
  have hread : PwrKept s s2 := ((bump ..).trans (report ..)).trans (.ite (raiseFlag ..) (refl s1))
  split
  · exact hread.trans (.ite (.trans (.ite (refl s2) (.ite (refl s2) (raiseFlag ..))) (loseShard ..)) (refl s2))
  · exact hread

theorem pageTouch (s : State) (fly : Bool) (p : Nat) (e : DirEntry) (off n : Nat) :
    PwrKept s (s.pageTouch fly p e off n) :=
  .ite (refl s) ((foldl hbmCorrect ..).trans (foldl (fun t _ => hbmUe false _ t _) ..))

theorem lostTouch (s : State) (e : DirEntry) : PwrKept s (s.lostTouch e) := .ite (raiseFlag ..) (refl s)

theorem unitRead (s : State) (code : Nat) (fly : Bool) (a n : Nat) : PwrKept s (s.unitRead code fly a n).2 := by
  unfold State.unitRead
  dsimp only
  split
  · split
    · exact ((pageTouch ..).trans (lostTouch ..)).trans (usePage ..)
    · exact .ite (refl s) (reportLim ..)
  · exact reportLim ..

theorem readLayer (s : State) (code source l : Nat) : PwrKept s (s.readLayer code source l).2 := by
  have hwords : PwrKept s (s.unitWords code (s.layerAddr l)).2 := unitRead ..
  unfold State.readLayer
  split
  · exact reportLim ..
  · split
    · next h => exact (hwords.of_pair h).trans (reportLim ..)
    · next h => exact (hwords.of_pair h).trans ((of_reported (.clampRead ..)).trans (.ite (reportLim ..) (refl _)))

/-! ### Bring-ups -/

theorem farReadFailed (s : State) (o : FarOwner) (region reason cell : Nat) :
    PwrKept s (s.farReadFailed o region reason cell) :=
  have hcount := (bump s Reg.farFails).trans (report ..)
  .ite (hcount.trans (raiseFlag ..)) hcount

theorem farRead (s : State) (o : FarOwner) (a len cell : Nat) : PwrKept s (s.farRead o a len cell) :=
  .ite rfl (.trans (t := s.addFar false o 0 len (some (5, []))) (setPool ..) (farReadFailed ..))

theorem takeFrame {s u : State} {n f : Nat} {v : FrameUse} (h : s.takeFrame n v = some (f, u)) : PwrKept s u := by
  obtain ⟨-, -, free, on, rfl⟩ := State.takeFrame_eq_some h
  rfl

theorem bringupRead (s : State) (b : Bringup) : PwrKept s (s.bringupRead b) := by
  unfold State.bringupRead
  split
  · exact refl s
  · split
    · exact refl s
    · next h => exact ((takeFrame h).trans ((farRead ..).trans (of_reported (.quotaCheck ..)))).trans (setPool ..)

theorem startBringup (s : State) (p cell : Nat) : PwrKept s (s.startBringup p cell) := by
  unfold State.startBringup
  split
  · exact refl s
  · exact .ite (refl s) (.ite rfl (.trans rfl (bringupRead ..)))

theorem waitFar (s : State) (w : FarWaiter) (ps : List Nat) (cell : Nat) : PwrKept s (s.waitFar w ps cell) :=
  (foldl (fun t p => startBringup t p cell) ps s).trans (setPool ..)

theorem goOn (s : State) (w : FarWaiter) : PwrKept s (s.goOn w) := .ite (setPool ..) (refl s)

/-! ### The matrix engine -/

theorem tileStatus (s : State) (c : Nat) (t : Tsw) : PwrKept s (s.tileStatus c t) := .ite (refl s) (setReg ..)

theorem headerFault (s : State) (c : Nat) (t : Tile) (k : KWord) (r : Option (Nat × Nat)) :
    PwrKept s (s.headerFault c t k r) := by
  unfold State.headerFault
  extract_lets own t1 s1
  have hfault : PwrKept s s1 := ((setCell ..).trans (tileStatus ..)).trans (bump ..)
  split
  · exact hfault.trans (cellReserved ..)
  · exact hfault

theorem touchRows (s : State) (a stride r0 rows lo n : Nat) : PwrKept s (s.touchRows a stride r0 rows lo n) :=
  .ite (refl s) (foldl (fun t _ => spadTouch t ..) ..)

theorem touchPlain (s : State) (o : OpWord) (a sa : Nat) (k : KWord) : PwrKept s (s.touchPlain o a sa k) :=
  .ite ((touchRows ..).trans (touchRows ..)) (touchRows ..)

theorem raceLive (s : State) (c h : Nat) : PwrKept s (s.raceLive c h) := .ite ((setCell ..).trans (setFree ..)) (refl s)

theorem execMulOn (s : State) (c : Nat) (t : Tile) (ws wt kc : W64) (sa ta : List W32) :
    PwrKept s (s.execMulOn c t ws wt kc sa ta) := by
  unfold State.execMulOn
  extract_lets so st k t1 a h s0 shapeBad sf narrow ms xel wel x w inv r tsw bad s1 s2 s3 s4
  have htouch : PwrKept s s0 := .ite (spadTouch ..) (refl s)
  have hread : PwrKept s0 s2 := (touchPlain ..).trans (.ite (spadTouch ..) (touchPlain ..))
  have hdone : PwrKept s2 s4 :=
    ((setFree ..).trans (setCell ..)).trans ((tileStatus ..).trans ((bumpUnits ..).trans (bumpUnits ..)))
  exact .ite (setCell ..) (.ite (htouch.trans (headerFault ..)) (.ite (htouch.trans (headerFault ..))
    ((htouch.trans hread).trans (hdone.trans ((setCell ..).trans (setReg ..))))))

theorem execStartOn (s : State) (c h : Nat) (w : W64) (src : W32) (e : W32) : PwrKept s (s.execStartOn c h w src e) := by
  unfold State.execStartOn
  extract_lets t r s1 null load es t1 s2 k s3
  have hlayer : PwrKept s s1 := by
    show PwrKept s r.2
    unfold r
    split
    · exact refl s
    · exact readLayer ..
  have hset : PwrKept s s3 := (hlayer.trans (.ite (spadTouch ..) (refl s1))).trans (setCell ..)
  exact .ite (hset.trans (bump ..)) hset

theorem execFinOn (s : State) (c : Nat) (t : Tile) (w : W64) (dst : W32) : PwrKept s (s.execFinOn c t w dst) := by
  unfold State.execFinOn
  extract_lets k word rest last dest phase t1 s1 s2
  have hset : PwrKept s s2 := (setCell ..).trans ((setReg ..).trans (setReg ..))
  exact .ite (setCell ..) (.ite (hset.trans ((bump ..).trans (reportLim ..))) hset)

theorem mxBring (s : State) (c : Nat) : PwrKept s (s.mxBring c) := by
  unfold State.mxBring
  split
  · exact .ite (refl s) (waitFar ..)
  · exact refl s

theorem mxStep {s t : State} {c : Nat} (h : s.mxStep c = some t) : PwrKept s t := by
  unfold State.mxStep at h
  split at h
  · exact nomatch h
  · dsimp only at h
    split at h
    · split at h
      · exact nomatch h
      · cases h
        exact (((setCell ..).trans (goOn ..)).trans (execStartOn ..)).trans (raceLive ..)
    · split at h <;> cases h
      · exact ((setCell ..).trans (execMulOn ..)).trans (raceLive ..)
      · exact setCell ..
    · split at h <;> cases h
      · exact (setCell ..).trans (execFinOn ..)
      · exact setCell ..

/-! ### The vector engine -/

theorem tileSat (n c : Nat) (s : State) (h : Nat) : PwrKept s (s.tileSat n c h) := by
  unfold State.tileSat
  dsimp only
  split
  · exact refl s
  · exact setCell ..

theorem loss (s : State) (c op code : Nat) : PwrKept s (s.loss c op code) := by
  have hlatched := (setReg s (Reg.cellVsLoss c) (BitVec.ofNat 32 code)).trans (setReg _ (Reg.cellVsLossEpoch c) s.epoch)
  exact .ite (hlatched.trans ((raiseFlag ..).trans (report ..))) hlatched

theorem nanDropped (s : State) (c op : Nat) : PwrKept s (s.nanDropped c op) :=
  .ite ((raiseFlag ..).trans (reportLim ..)) (refl s)

theorem derive (s : State) (c : Nat) (hs : List Nat) (ws : List (Nat × List Byte)) : PwrKept s (s.derive c hs ws) :=
  .ite (refl s) (setCell ..)

theorem vsActive (s : State) (c n : Nat) (fn : Bool) : PwrKept s (s.vsActive c n fn) :=
  (setCell ..).trans ((bumpUnits ..).trans (bumpUnits ..))

theorem vsExecOn (s : State) (c : Nat) (o : VsOp) : PwrKept s (s.vsExecOn c o) := by
  unfold State.vsExecOn
  extract_lets k rl act r inv flags fl bytes s1 s2 s3 s4 s5 s6 s7 s8 s9
  have hread : PwrKept s s1 := (derive ..).trans (spadTouchAll ..)
  have hwritten : PwrKept s1 s2 := (setFree ..).trans (foldl (fun t _ => spadWrite t ..) ..)
  have hruled : PwrKept s2 s3 := .ite (of_reported ((Reported.bump ..).trans (.clampPut ..))) (refl s2)
  have hflagged : PwrKept s3 s4 := ((setReg ..).trans ((setReg ..).trans (setReg ..))).trans (bumpUnits ..)
  have hsat : PwrKept s4 s5 := .ite (foldl (fun t h => tileSat _ c t h) ..) (refl s4)
  have hcounted : PwrKept s5 s6 := (bumpUnits ..).trans (bumpUnits ..)
  have hlost : PwrKept s6 s8 := .trans (t := s7) (.ite (loss ..) (refl s6)) (.ite (nanDropped ..) (refl s7))
  have hdone : PwrKept s8 s9 := (setCell ..).trans (vsActive ..)
  have hall : PwrKept s s9 := (((hread.trans hwritten).trans hruled).trans (hflagged.trans hsat)).trans
    ((hcounted.trans hlost).trans hdone)
  exact .ite (hall.trans (setCell ..)) hall

theorem vsStep {s t : State} {c : Nat} (h : s.vsStep c = some t) : PwrKept s t := by
  unfold State.vsStep at h
  split at h
  · exact nomatch h
  · dsimp only at h
    split at h
    · exact nomatch h
    · split at h
      · have hfreed : ∀ k n hs, PwrKept s { (s.setCell c k).freeTiles c hs with free := n } := fun _ _ _ => rfl
        cases h
        exact .ite ((hfreed _ _ _).trans (setCell ..)) (hfreed _ _ _)
      · cases h
        exact (setCell ..).trans (vsExecOn ..)

/-! ### Both engines -/

theorem engineLoop (c : Nat) : ∀ (f : Nat) (s : State), PwrKept s (State.engineLoop f c s)
  | 0, s => refl s
  | f + 1, s => by
    unfold State.engineLoop
    split
    · next h => exact (mxStep h).trans (engineLoop c f _)
    · split
      · next h => exact (vsStep h).trans (engineLoop c f _)
      · exact mxBring ..

theorem runAllEngines (s : State) : PwrKept s s.runAllEngines :=
  foldl (fun t c => .ite (engineLoop c _ t) (refl t)) ..

end PwrKept

end Sys2Proof.Machine
end

section
/-! PROOF. Airflow, junctions and the heatsink memory (R431 to R434). -/

namespace Sys2Proof.Machine

/-! ### What the watch of air and cap leaves alone -/

theorem State.reg_setPwr (s : State) (p : Pwr) (off : Nat) : State.reg { s with pwr := p } off = s.reg off := rfl

theorem State.fld_of_reg {s t : State} {off : Nat} (h : t.reg off = s.reg off) (lo w : Nat) :
    t.fld off lo w = s.fld off lo w := by
  rw [State.fld, h, State.fld]

/-- The air cap, the verdict on the airflow and the samples of the hottest junction are the same, and so are the registers
but for those of a change of mode. -/
structure AirKept (s t : State) : Prop where
  airCap : t.pwr.airCap = s.pwr.airCap
  airBad : t.pwr.airBad = s.pwr.airBad
  temps : t.pwr.temps = s.pwr.temps
  reg : ∀ off ∉ modeRegs, t.reg off = s.reg off

namespace AirKept

theorem refl (s : State) : AirKept s s := ⟨rfl, rfl, rfl, fun _ _ => rfl⟩

theorem trans {s t u : State} (h : AirKept s t) (g : AirKept t u) : AirKept s u :=
  ⟨g.airCap.trans h.airCap, g.airBad.trans h.airBad, g.temps.trans h.temps,
    fun off ho => (g.reg off ho).trans (h.reg off ho)⟩

theorem of_mode {s t : State} (h : ModeChanged s t) : AirKept s t := ⟨h.airCap, h.airBad, h.temps, h.reg⟩

theorem setAir (s : State) {airStop airLow airOkFrom} : AirKept s { s with pwr := { s.pwr with
    airStop := airStop, airLow := airLow, airOkFrom := airOkFrom } } := ⟨rfl, rfl, rfl, fun _ _ => rfl⟩

theorem noteAir (s : State) : AirKept s s.noteAir := by
  unfold State.noteAir
  dsimp only
  split_ifs
  · exact setAir s
  · exact (setAir s).trans (of_mode (.report ..))
  · exact setAir s
  · exact setAir s

theorem clearAirStop (s : State) : AirKept s s.clearAirStop :=
  iteInduction (fun _ => (setAir s).trans (of_mode (.settleMode ..))) fun _ => refl s

end AirKept

section
variable {s : State}

theorem State.airPoor_of_bad (h : s.pwr.airBad = true) : s.airPoor = true := by rw [State.airPoor, h, Bool.or_true]

theorem State.noteAir_airLow (h : s.airPoor = true) : s.noteAir.pwr.airLow = true := by
  unfold State.noteAir
  dsimp only
  rw [if_pos h]
  split
  · rfl
  · exact (ModeChanged.report ..).airLow

theorem State.clearAirStop_airLow (s : State) : s.clearAirStop.pwr.airLow = s.pwr.airLow :=
  iteInduction (motive := fun t : State => t.pwr.airLow = s.pwr.airLow) (fun _ => (ModeChanged.settleMode ..).airLow)
    fun _ => rfl

theorem State.clearAirStop_of_hot (h : s.pwr.hotSlope = true) : s.clearAirStop = s :=
  if_neg fun hc => Bool.false_ne_true (hc.2.2.symm.trans h)

theorem State.clearAirStop_of_clear (h : s.pwr.airStop = false) : s.clearAirStop = s :=
  if_neg fun hc => Bool.false_ne_true (h.symm.trans hc.1)

/-- The end of AIRFLOW_ESTIMATE: AIR_LOW, AIR_STOP and the effective cap follow the estimate. -/
def State.airNoted (s : State) : State := s.noteAir.clearAirStop.capNote

theorem State.airNoted_kept (s : State) : AirKept s s.airNoted :=
  ((AirKept.noteAir s).trans (.clearAirStop _)).trans (.of_mode (.capNote _))

theorem State.airNoted_airLow (h : s.airPoor = true) : s.airNoted.pwr.airLow = true :=
  ((ModeChanged.capNote _).airLow.trans (State.clearAirStop_airLow _)).trans (State.noteAir_airLow h)

end

/-! ### The estimate of airflow (R432, R433) -/

/-- The two temperatures of the air are shown. -/
def State.airSensed (s : State) (tin tout : Int) : State :=
  (s.setFld Reg.thmInlet 0 16 (tin % 65536).toNat).setFld Reg.thmOutlet 0 16 (tout % 65536).toNat

theorem halfword_toNat_mod (x : Int) : (x % 65536).toNat % 2 ^ 16 = (x % 65536).toNat := by omega

section
variable (s : State) (tin tout : Int)

theorem State.airSensed_inlet : (s.airSensed tin tout).fld Reg.thmInlet 0 16 = (tin % 65536).toNat :=
  calc (s.airSensed tin tout).fld Reg.thmInlet 0 16
    _ = (s.setFld Reg.thmInlet 0 16 (tin % 65536).toNat).fld Reg.thmInlet 0 16 :=
      State.fld_of_reg (State.reg_setFld_of_ne _ _ _ _ _ (by decide)) ..
    _ = (tin % 65536).toNat := (State.fld_setFld_self _ _ _ (by decide)).trans (halfword_toNat_mod tin)

theorem State.airSensed_outlet : (s.airSensed tin tout).fld Reg.thmOutlet 0 16 = (tout % 65536).toNat :=
  (State.fld_setFld_self _ _ _ (by decide)).trans (halfword_toNat_mod tout)

theorem State.airSensed_reg {off : Nat} (hin : off ≠ Reg.thmInlet) (hout : off ≠ Reg.thmOutlet) :
    (s.airSensed tin tout).reg off = s.reg off :=
  (State.reg_setFld_of_ne _ _ _ _ _ hout).trans (State.reg_setFld_of_ne _ _ _ _ _ hin)

end

/-- The airflow of an estimate is shown. -/
def State.airShown (s : State) (q : Nat × Nat) : State := s.setFld Reg.thmAir 0 16 (min (roundDiv q.1 q.2) 0xFFFF)

theorem State.airShown_air (s : State) (q : Nat × Nat) :
    (s.airShown q).fld Reg.thmAir 0 16 = min (roundDiv q.1 q.2) 0xFFFF :=
  (State.fld_setFld_self _ _ _ (by decide)).trans (Nat.mod_eq_of_lt (by omega))

section
variable {s : State} (hvalid : s.pwr.hsValid = true) (tin : Int) {q r : Nat × Nat} (hr : rthAt q.1 q.2 s.pwr.curve = r)
  (hpos : 0 < r.1 ∧ 0 < r.2)
include hr hpos

theorem State.rth_of_curve : (s.airShown q).rth q = (r, s.airShown q) := by
  rw [State.rth, show (s.airShown q).pwr.curve = s.pwr.curve from rfl, hr, if_pos hpos]

include hvalid

/-- With a valid heatsink an estimate sets the air cap and the verdict on the airflow from the resistance of the curve. -/
theorem State.takeAir_of_valid : (s.takeAir tin q).pwr.airCap = some (airCapAt (s.fld Reg.thmTjTarget 0 8) tin r)
    ∧ (s.takeAir tin q).pwr.airBad = !decide (s.fld Reg.thmAir 16 16 * q.2 ≤ q.1)
    ∧ ∃ v, (s.takeAir tin q).regs = ((s.airShown q).setReg Reg.thmRth v).regs := by
  have hrth := State.rth_of_curve hr hpos
  rw [State.airShown] at hrth
  simp only [State.takeAir, hvalid, if_true, hrth, true_and]
  exact ⟨_, rfl⟩

theorem State.takeAir_air : (s.takeAir tin q).fld Reg.thmAir 0 16 = min (roundDiv q.1 q.2) 0xFFFF := by
  obtain ⟨-, -, v, hregs⟩ := State.takeAir_of_valid hvalid tin hr hpos
  refine (State.fld_of_reg (s := s.airShown q) ?_ ..).trans (s.airShown_air q)
  rw [State.reg, hregs]
  exact (State.reg_setReg ..).trans (if_neg (by decide))

end

section
variable {s : State} (hup : s.up = true)
include hup

theorem exec_airflowEstimate_held {mean : Nat} (h : mean < 300) (tin tout : Int) :
    exec (.airflowEstimate mean tin tout) s = .next (s.airSensed tin tout).airNoted := by
  rw [show exec (.airflowEstimate mean tin tout) s = execAirflowEstimate mean tin tout s by rfl, execAirflowEstimate, hup,
    whenOk_true]
  dsimp only
  rw [if_neg (by omega)]
  rfl

theorem exec_airflowEstimate_taken {mean : Nat} {tin tout : Int} (h : 300 ≤ mean) (hrise : tin < tout) :
    exec (.airflowEstimate mean tin tout) s = .next
      ((s.airSensed tin tout).takeAir tin (6400 * mean, 3 * (tout - tin).toNat)).airNoted := by
  rw [show exec (.airflowEstimate mean tin tout) s = execAirflowEstimate mean tin tout s by rfl, execAirflowEstimate, hup,
    whenOk_true]
  dsimp only
  rw [if_pos h, State.airflow, if_pos hrise]
  rfl

/-- Below 300 W the last estimate is held. -/
theorem airflowEstimate_held {mean : Nat} (h : mean < 300) (tin tout : Int) :
    ∃ t, exec (.airflowEstimate mean tin tout) s = .next t
      ∧ t.fld Reg.thmAir 0 16 = s.fld Reg.thmAir 0 16 ∧ t.pwr.airCap = s.pwr.airCap
      ∧ t.fld Reg.thmInlet 0 16 = (tin % 65536).toNat ∧ t.fld Reg.thmOutlet 0 16 = (tout % 65536).toNat := by
  have hkept := (s.airSensed tin tout).airNoted_kept
  refine ⟨_, exec_airflowEstimate_held hup h tin tout, ?_, hkept.airCap, ?_, ?_⟩
  · exact State.fld_of_reg ((hkept.reg _ (by decide)).trans (s.airSensed_reg tin tout (by decide) (by decide))) ..
  · exact (State.fld_of_reg (hkept.reg _ (by decide)) ..).trans (s.airSensed_inlet tin tout)
  · exact (State.fld_of_reg (hkept.reg _ (by decide)) ..).trans (s.airSensed_outlet tin tout)

/-- With a valid heatsink the estimate gives the airflow, the air cap and AIR_LOW where there is too little air. -/
theorem airflowEstimate_taken {mean : Nat} {tin tout : Int} {q r : Nat × Nat} (h : 300 ≤ mean) (hrise : tin < tout)
    (hq : (6400 * mean, 3 * (tout - tin).toNat) = q) (hvalid : s.pwr.hsValid = true)
    (hr : rthAt q.1 q.2 s.pwr.curve = r) (hpos : 0 < r.1 ∧ 0 < r.2) : ∃ t,
      exec (.airflowEstimate mean tin tout) s = .next t ∧ t.fld Reg.thmAir 0 16 = min (roundDiv q.1 q.2) 0xFFFF
      ∧ t.pwr.airCap = some (airCapAt (s.fld Reg.thmTjTarget 0 8) tin r)
      ∧ t.pwr.airBad = !decide (s.fld Reg.thmAir 16 16 * q.2 ≤ q.1) ∧ (t.pwr.airBad = true → t.pwr.airLow = true) := by
  refine ⟨_, exec_airflowEstimate_taken hup h hrise, ?_⟩
  rw [hq]
  have hkept := ((s.airSensed tin tout).takeAir tin q).airNoted_kept
  have hair := State.takeAir_air (s := s.airSensed tin tout) hvalid tin hr hpos
  obtain ⟨hcap, hbad, -⟩ := State.takeAir_of_valid (s := s.airSensed tin tout) hvalid tin hr hpos
  have hsensed : ∀ {off}, off ≠ Reg.thmInlet → off ≠ Reg.thmOutlet → ∀ lo w,
      (s.airSensed tin tout).fld off lo w = s.fld off lo w := fun hin hout =>
    State.fld_of_reg (s.airSensed_reg tin tout hin hout)
  rw [hsensed (by decide) (by decide)] at hcap hbad
  refine ⟨(State.fld_of_reg (hkept.reg _ (by decide)) ..).trans hair, hkept.airCap.trans hcap, hkept.airBad.trans hbad,
    fun hpoor => State.airNoted_airLow (State.airPoor_of_bad (hkept.airBad.symm.trans hpoor))⟩

/-- The two worked examples of R432 and R433. -/
theorem airflowEstimate_worked (hvalid : s.pwr.hsValid = true) (hcurve : s.pwr.curve = [(800, 360), (1000, 300), (1200, 260)])
    (hmin : s.fld Reg.thmAir 16 16 = 900) (htj : s.fld Reg.thmTjTarget 0 8 = 95) :
    (∃ t, exec (.airflowEstimate 1900 7680 11520) s = .next t ∧ t.fld Reg.thmAir 0 16 = 1056
        ∧ t.pwr.airCap = some 2250 ∧ t.pwr.airBad = false)
      ∧ ∃ t, exec (.airflowEstimate 1900 7680 12800) s = .next t ∧ t.fld Reg.thmAir 0 16 = 792
        ∧ t.pwr.airCap = some 1786 ∧ t.pwr.airLow = true := by
  constructor
  · obtain ⟨t, hexec, hair, hcap, hbad, -⟩ := airflowEstimate_taken (tout := 11520) (q := (12160000, 11520))
      (r := (665600000, 2304000)) hup (by decide : 300 ≤ 1900) (by decide : (7680 : Int) < 11520) (by decide) hvalid
      (by rw [hcurve]; decide) (by decide)
    rw [htj] at hcap
    rw [hmin] at hbad
    exact ⟨t, hexec, hair.trans (by decide), hcap.trans (by decide), hbad.trans (by decide)⟩
  · obtain ⟨t, hexec, hair, hcap, hbad, hlow⟩ := airflowEstimate_taken (tout := 12800) (q := (12160000, 15360))
      (r := (4423680000, 12160000)) hup (by decide : 300 ≤ 1900) (by decide : (7680 : Int) < 12800) (by decide) hvalid
      (by rw [hcurve]; decide) (by decide)
    rw [htj] at hcap
    rw [hmin] at hbad
    exact ⟨t, hexec, hair.trans (by decide), hcap.trans (by decide), hlow (hbad.trans (by decide))⟩

end

/-! ### The junctions (R434) -/

/-- The samples of the hottest junction that are kept. -/
def State.keptTemps (s : State) (temps : List Int) : List Int :=
  (((hottest 0 (temps.take 20)).getD (0, 0)).1 :: s.pwr.temps).take (s.fld Reg.thmSlopeWin 0 16)

/-- By how much the slope exceeds the forecast. -/
def State.slopeOver (s : State) (temps : List Int) (forecast : Int) : Option Int :=
  slopeExcess (s.fld Reg.thmSlopeWin 0 16) (s.keptTemps temps) forecast

/-- Does the slope exceed the forecast by more than THM_SLOPE? -/
def State.risesFast (s : State) (temps : List Int) (forecast : Int) : Bool :=
  (s.slopeOver temps forecast).any fun e => (s.fld Reg.thmSlope 0 16 : Int) < e

/-- Shows the temperature of the junction of a die. -/
def State.showTj (temps : List Int) (s : State) (d : Nat) : State :=
  s.setFld (Reg.thmTj d) 0 16 ((temps.getD d 0) % 65536).toNat

/-- Shows the junctions of the dies and the hottest of all. -/
def State.junctionsShown (s : State) (temps : List Int) : State :=
  ((List.range 8).foldl (State.showTj temps) s).setReg Reg.thmTjMax
    (BitVec.ofNat 32 ((((hottest 0 (temps.take 20)).getD (0, 0)).1 % 65536).toNat
      + 2 ^ 16 * ((hottest 0 (temps.take 20)).getD (0, 0)).2))

/-- The junctions are shown and the sample of the hottest is kept. -/
def State.sampled (s : State) (temps : List Int) (forecast : Int) : State :=
  { s.junctionsShown temps with pwr := { (s.junctionsShown temps).pwr with
    temps := s.keptTemps temps, hotSlope := s.risesFast temps forecast } }

/-- AIR_STOP is set, and the dies go by the power of BIVOUAC. -/
def State.airStopped (s : State) (temps : List Int) (forecast : Int) : State :=
  ({ s.sampled temps forecast with pwr := { (s.sampled temps forecast).pwr with airStop := true } }).shareCap
    (s.fld Reg.pwrBivouac 0 12)

section
variable {s : State} {temps : List Int} {forecast : Int}

theorem State.fld_showTj_foldl {d : Nat} (s : State) : ∀ n, d < n →
    ((List.range n).foldl (State.showTj temps) s).fld (Reg.thmTj d) 0 16 = (temps.getD d 0 % 65536).toNat
  | 0, hd => absurd hd (Nat.not_lt_zero d)
  | n + 1, hd => by
    rw [List.range_succ, List.foldl_append, List.foldl_cons, List.foldl_nil, State.showTj]
    rcases Nat.lt_succ_iff_lt_or_eq.mp hd with hlt | rfl
    · rw [State.fld_of_reg (State.reg_setFld_of_ne _ _ _ _ _ (by unfold Reg.thmTj; omega))]
      exact State.fld_showTj_foldl s n hlt
    · exact (State.fld_setFld_self _ _ _ (by decide)).trans (halfword_toNat_mod _)

theorem State.showTj_foldl_pwr (l : List Nat) (s : State) : (l.foldl (State.showTj temps) s).pwr = s.pwr :=
  l.foldlRecOn (motive := fun t : State => t.pwr = s.pwr) _ rfl fun _ h _ _ => h

theorem State.junctionsShown_pwr (s : State) : (s.junctionsShown temps).pwr = s.pwr := by
  rw [State.junctionsShown, State.setReg_pwr, State.showTj_foldl_pwr]

theorem State.sampled_pwr (s : State) : (s.sampled temps forecast).pwr =
    { s.pwr with temps := s.keptTemps temps, hotSlope := s.risesFast temps forecast } := by
  rw [State.sampled, s.junctionsShown_pwr]

theorem State.sampled_fld (s : State) {d : Nat} (hd : d < 8) :
    (s.sampled temps forecast).fld (Reg.thmTj d) 0 16 = (temps.getD d 0 % 65536).toNat := by
  have hne : Reg.thmTj d ≠ Reg.thmTjMax := by
    unfold Reg.thmTj Reg.thmTjMax
    omega
  rw [State.fld, State.sampled, State.reg_setPwr, State.junctionsShown, State.reg_setReg, if_neg hne]
  exact s.fld_showTj_foldl 8 hd

theorem State.airStopped_pwr (s : State) : ∃ issueLimit clocks, (s.airStopped temps forecast).pwr = { s.pwr with
    temps := s.keptTemps temps, hotSlope := s.risesFast temps forecast, airStop := true,
    issueLimit := issueLimit, clocks := clocks } := by
  obtain ⟨_, _, hpwr⟩ := State.shareCap_pwr
    ({ s.sampled temps forecast with pwr := { (s.sampled temps forecast).pwr with airStop := true } })
    (s.fld Reg.pwrBivouac 0 12)
  rw [State.airStopped, hpwr, s.sampled_pwr]
  exact ⟨_, _, rfl⟩

theorem thmTj_not_mode : ∀ d < 8, Reg.thmTj d ∉ modeRegs ∧ Reg.thmTj d ∉ (List.range 8).map Reg.pwrShare := by decide

theorem State.airStopped_fld (s : State) {d : Nat} (hd : d < 8) :
    (s.airStopped temps forecast).fld (Reg.thmTj d) 0 16 = (temps.getD d 0 % 65536).toNat := by
  rw [State.fld, State.airStopped, State.shareCap_reg_of_not_share _ _ (thmTj_not_mode d hd).2, State.reg_setPwr]
  exact s.sampled_fld hd

/-- Does JUNCTION_SAMPLE set AIR_STOP? -/
def State.airStops (s : State) (temps : List Int) (forecast : Int) : Prop :=
  s.risesFast temps forecast = true ∧ s.pwr.airStop = false ∧ s.fld Reg.pwrCtrl 2 1 = 1 ∧ s.fld Reg.thmCtrl 0 1 = 1

section
variable (hup : s.up = true)
include hup

theorem exec_junctionSample_eq [Decidable (s.airStops temps forecast)] : exec (.junctionSample temps forecast) s = .next
    (if s.airStops temps forecast then ((s.airStopped temps forecast).report 0x0205 unitMgmt
        ((min ((s.slopeOver temps forecast).getD 0) 0xFFFF).toNat
          + 2 ^ 16 * ((hottest 0 (temps.take 20)).getD (0, 0)).2)).settleMode s.pwrMode 2
      else (s.sampled temps forecast).clearAirStop) := by
  rw [show exec (.junctionSample temps forecast) s = execJunctionSample temps forecast s by rfl, execJunctionSample, hup,
    whenOk_true]
  exact congrArg Host.Outcome.next (if_congr Iff.rfl rfl rfl)

theorem exec_junctionSample_stop (h : s.airStops temps forecast) : ∃ t, exec (.junctionSample temps forecast) s = .next t
    ∧ ModeChanged (s.airStopped temps forecast) t := by
  classical
  refine ⟨_, exec_junctionSample_eq hup, ?_⟩
  rw [if_pos h]
  exact (ModeChanged.report ..).trans (.settleMode ..)

theorem exec_junctionSample_go (h : ¬s.airStops temps forecast) : exec (.junctionSample temps forecast) s = .next
    (s.sampled temps forecast).clearAirStop := by
  classical
  rw [exec_junctionSample_eq hup, if_neg h]

/-- JUNCTION_SAMPLE shows the junctions and keeps the sample of the hottest one. -/
theorem junctionSample_shows : ∃ t, exec (.junctionSample temps forecast) s = .next t ∧ t.pwr.temps = s.keptTemps temps
    ∧ (∀ d, d < 8 → t.fld (Reg.thmTj d) 0 16 = (temps.getD d 0 % 65536).toNat) := by
  by_cases h : s.airStops temps forecast
  · obtain ⟨t, hexec, hkept⟩ := exec_junctionSample_stop hup h
    obtain ⟨_, _, hpwr⟩ := s.airStopped_pwr (temps := temps) (forecast := forecast)
    refine ⟨t, hexec, hkept.temps.trans (by rw [hpwr]), fun d hd => ?_⟩
    exact (hkept.fld (thmTj_not_mode d hd).1 ..).trans (s.airStopped_fld hd)
  · have hkept := AirKept.clearAirStop (s.sampled temps forecast)
    refine ⟨_, exec_junctionSample_go hup h, hkept.temps.trans (by rw [s.sampled_pwr]), fun d hd => ?_⟩
    exact (State.fld_of_reg (hkept.reg _ (thmTj_not_mode d hd).1) ..).trans (s.sampled_fld hd)

/-- A slope too steep sets AIR_STOP or leaves it set, and it is a cause of BIVOUAC. -/
theorem junctionSample_stops (hrise : s.risesFast temps forecast = true) (hair : s.fld Reg.pwrCtrl 2 1 = 1)
    (hslope : s.fld Reg.thmCtrl 0 1 = 1) : ∃ t, exec (.junctionSample temps forecast) s = .next t
      ∧ t.pwr.airStop = true ∧ t.tripped = s.tripped ∧ t.pwr.shed = s.pwr.shed := by
  by_cases hstop : s.pwr.airStop = false
  · obtain ⟨t, hexec, hkept⟩ := exec_junctionSample_stop hup ⟨hrise, hstop, hair, hslope⟩
    obtain ⟨_, _, hpwr⟩ := s.airStopped_pwr (temps := temps) (forecast := forecast)
    exact ⟨t, hexec, hkept.airStop.trans (by rw [hpwr]),
      hkept.tripped.trans (by rw [State.tripped, hpwr, State.tripped]), hkept.shed.trans (by rw [hpwr])⟩
  · have hpwr := s.sampled_pwr (temps := temps) (forecast := forecast)
    refine ⟨_, exec_junctionSample_go hup fun h => hstop h.2.1, ?_⟩
    rw [State.clearAirStop_of_hot (by rw [hpwr]; exact hrise), State.tripped, hpwr]
    exact ⟨Bool.eq_true_of_not_eq_false hstop, rfl, rfl⟩

/-- With the watch of the slope off, AIR_STOP stays clear. -/
theorem junctionSample_off (hstop : s.pwr.airStop = false) (hoff : s.fld Reg.thmCtrl 0 1 = 0) :
    exec (.junctionSample temps forecast) s = .next (s.sampled temps forecast)
      ∧ (s.sampled temps forecast).pwr.airStop = false := by
  have hclear : (s.sampled temps forecast).pwr.airStop = false := by rw [s.sampled_pwr]; exact hstop
  refine ⟨?_, hclear⟩
  rw [exec_junctionSample_go hup fun h => Nat.zero_ne_one (hoff.symm.trans h.2.2.2), State.clearAirStop_of_clear hclear]

end

end

/-! ### The heatsink memory (R431) -/

theorem cableField_lt (b : List Byte) (i n : Nat) : cableField b i n < 256 ^ n :=
  (leNat_lt _).trans_le (Nat.pow_le_pow_right (by decide) (List.length_take_le ..))

section
variable {s : State} (hup : s.up = true) {b : List Byte}
include hup

theorem exec_reread : exec (.reread b) s = .next (s.takeHeatsink b).capNote := by
  rw [show exec (.reread b) s = execReread b s by rfl, execReread, hup, whenOk_true]

theorem exec_reread_valid (h : cableOk b = true) : ∃ t, exec (.reread b) s = .next t ∧ t.pwr.hsValid = true
    ∧ t.pwr.curve = curveOf b ∧ t.fld Reg.thmAir 16 16 = cableField b 12 2 := by
  have hkept := ModeChanged.capNote (s.takeHeatsink b)
  have htaken : s.takeHeatsink b = (({ s with pwr := { s.pwr with hsValid := true, curve := curveOf b } }).setFld Reg.thmAir
      16 16 (cableField b 12 2)).setReg64 Reg.thmHsSerialLo Reg.thmHsSerialHi (cableField b 2 8) := if_pos h
  refine ⟨_, exec_reread hup, hkept.hsValid.trans (by rw [htaken]; rfl), hkept.curve.trans (by rw [htaken]; rfl), ?_⟩
  rw [hkept.fld (by decide), htaken, State.setReg64, State.fld_of_reg (s := State.setFld _ ..) (by
    rw [State.reg_setReg, if_neg (by decide), State.reg_setReg, if_neg (by decide)]), State.fld_setFld_self _ _ _ (by decide)]
  exact Nat.mod_eq_of_lt (cableField_lt b 12 2)

/-- Without a valid heatsink memory PWR_BIVOUAC limits the cap. -/
theorem exec_reread_invalid (h : cableOk b = false) : ∃ t, exec (.reread b) s = .next t ∧ t.pwr.hsValid = false
    ∧ t.capEff.1 ≤ max 600 (s.fld Reg.pwrBivouac 0 12) := by
  have htaken : s.takeHeatsink b =
      ({ s with pwr := { s.pwr with hsValid := false } }).report 0x0209 unitMgmt (b2n (64 ≤ b.length)) := by
    rw [State.takeHeatsink, h, if_neg Bool.false_ne_true]
  have hkept := (ModeChanged.report { s with pwr := { s.pwr with hsValid := false } } 0x0209 unitMgmt
    (b2n (64 ≤ b.length))).trans (.capNote _)
  rw [← htaken] at hkept
  have hterm : ((s.takeHeatsink b).capNote.fld Reg.pwrBivouac 0 12, 4) ∈ (s.takeHeatsink b).capNote.capTerms := by
    rw [State.capTerms, hkept.hsValid]
    exact List.mem_append_right _ (List.mem_singleton_self _)
  refine ⟨_, exec_reread hup, hkept.hsValid, ((State.capEff_bounds _).2.2 _ hterm).trans (Nat.le_of_eq ?_)⟩
  exact congrArg (max 600) (hkept.fld (by decide) ..)

end

end Sys2Proof.Machine
end

section
/-! PROOF. The trip, and O35 (R431 to R436). -/

namespace Sys2Proof.Machine

/-! ### The trip latches and the cores stop (R435) -/

theorem Cell.halt_run_ne (k : Cell) : k.halt.run ≠ .running := by
  unfold Cell.halt
  split
  · exact nofun
  · assumption

theorem State.cell_mapCells_halt_run_ne (s : State) (c : Nat) : ((s.mapCells Cell.halt).cell c).run ≠ .running := by
  rcases tabGet_default_or_mem (fun _ => ({} : Cell)) c (s.mapCells Cell.halt).cells with h | h
  · rw [State.cell, h]
    exact nofun
  · obtain ⟨p, -, hp⟩ := List.mem_map.mp (List.mem_filter.mp h).1
    have hhalted : p.2.halt = (s.mapCells Cell.halt).cell c := congrArg Prod.snd hp
    rw [← hhalted]
    exact p.2.halt_run_ne

/-- The comparator of a die has latched. -/
def State.latchTrip (s : State) (u : Nat) : State := { s with pwr := { s.pwr with trip := putField s.pwr.trip u 1 1 } }

/-- The first comparator has latched: the cores stop and the deadline flag is raised, and the mode has not changed yet. -/
def State.tripBegun (s : State) (u : Nat) : State :=
  (((s.latchTrip u).mapCells Cell.halt).raiseFlag flagDeadline s.epoch).report 0x0206 unitMgmt (putField s.pwr.trip u 1 1)

theorem testBit_latched (n u : Nat) : (putField n u 1 1).testBit u = true := by
  rw [testBit_putField, if_pos (by omega), Nat.sub_self]
  rfl

section
variable (s : State) (u : Nat)

theorem State.tripBegun_flagged : Flagged ((s.latchTrip u).mapCells Cell.halt) (s.tripBegun u) :=
  (Flagged.raiseFlag ..).trans (.of_reported (.report ..))

theorem State.tripBegun_pwr : (s.tripBegun u).pwr = { s.pwr with trip := putField s.pwr.trip u 1 1 } :=
  (PwrKept.raiseFlag ((s.latchTrip u).mapCells Cell.halt) flagDeadline s.epoch).trans (.report ..)

theorem State.tripBegun_tripped : (s.tripBegun u).tripped = true := by
  rw [State.tripped, s.tripBegun_pwr u, bne_iff_ne]
  intro hzero
  have hbit := testBit_latched s.pwr.trip u
  rw [show putField s.pwr.trip u 1 1 = 0 from hzero, Nat.zero_testBit] at hbit
  exact Bool.false_ne_true hbit

end

section
variable {s : State} {u : Nat} (hu : u < 20) (halive : s.alive = true)
include hu halive

theorem exec_analogTrip_again (htrip : s.tripped = true) : exec (.analogTrip u) s = .next (s.latchTrip u) := by
  rw [show exec (.analogTrip u) s = execAnalogTrip u s by rfl, execAnalogTrip,
    onUnit_whenOk (decide_eq_true hu) halive]
  dsimp only
  rw [if_pos htrip]
  rfl

theorem exec_analogTrip_first (htrip : s.tripped = false) : exec (.analogTrip u) s = .next
    ((s.tripBegun u).settleMode s.pwrMode 3) := by
  rw [show exec (.analogTrip u) s = execAnalogTrip u s by rfl, execAnalogTrip,
    onUnit_whenOk (decide_eq_true hu) halive]
  dsimp only
  rw [htrip, if_neg Bool.false_ne_true]
  rfl

/-- The first trip stops every core and leaves memory as it stands. -/
theorem analogTrip_stops (htrip : s.tripped = false) : ∃ t, exec (.analogTrip u) s = .next t
    ∧ t.pwr.trip.testBit u = true ∧ t.pwrMode = 3 ∧ t.works = false ∧ (∀ c, (t.cell c).run ≠ .running)
    ∧ SameMemory s t := by
  have hkept := ModeChanged.settleMode (s.tripBegun u) s.pwrMode 3
  have htripped : ((s.tripBegun u).settleMode s.pwrMode 3).tripped = true := hkept.tripped.trans (s.tripBegun_tripped u)
  obtain ⟨hcells, hspad, hhbm⟩ := s.tripBegun_flagged u
  refine ⟨_, exec_analogTrip_first hu halive htrip, ?_, State.pwrMode_of_tripped htripped, ?_, fun c => ?_, fun a => ?_,
    fun a => ?_⟩
  · rw [hkept.trip, s.tripBegun_pwr u]
    exact testBit_latched _ _
  · rw [State.works, htripped, Bool.not_true, Bool.and_false]
  · rw [State.cell, hkept.cells, hcells]
    exact (s.latchTrip u).cell_mapCells_halt_run_ne c
  · rw [hkept.spad, hspad]
    rfl
  · rw [hkept.hbm, hhbm]
    rfl

end

/-! ### The trip is cleared (R436) -/

/-- The clock of a die goes to its lowest step. -/
def State.slowClock (s : State) (d : Nat) : State := s.setClock d { s.clock d with step := 0, goal := some 0 }

/-- The state in which a trip is cleared and every clock is at its lowest step, before the mode follows. -/
def State.tripOver (s : State) : State :=
  (List.range 8).foldl State.slowClock { s with pwr := { s.pwr with trip := 0, tripCleared := true } }

theorem State.slowClock_foldl_pwr (l : List Nat) (s : State) : ∃ clocks, (l.foldl State.slowClock s).pwr =
    { s.pwr with clocks := clocks } :=
  l.foldlRecOn (motive := fun t : State => ∃ clocks, t.pwr = { s.pwr with clocks := clocks }) _ ⟨_, rfl⟩ fun t h d _ => by
    obtain ⟨clocks, hpwr⟩ := h
    exact ⟨tabSet (fun _ => {}) t.pwr.clocks d { t.clock d with step := 0, goal := some 0 }, by
      rw [State.slowClock, State.setClock, hpwr]⟩

theorem State.clock_setClock (s : State) (c d : Nat) (k : DieClock) :
    (s.setClock c k).clock d = if d = c then k else s.clock d := tabGet_tabSet ..

theorem State.clock_congr {s t : State} (h : t.pwr.clocks = s.pwr.clocks) (d : Nat) : t.clock d = s.clock d := by
  rw [State.clock, h, State.clock]

theorem State.slowClock_foldl_step (s : State) {d : Nat} : ∀ n, d < n →
    (((List.range n).foldl State.slowClock s).clock d).step = 0
  | 0, hd => absurd hd (Nat.not_lt_zero d)
  | n + 1, hd => by
    rw [List.range_succ, List.foldl_append, List.foldl_cons, List.foldl_nil, State.slowClock, State.clock_setClock]
    split
    · rfl
    · next hne => exact State.slowClock_foldl_step s n (Nat.lt_of_le_of_ne (Nat.le_of_lt_succ hd) hne)

section
variable (s : State)

theorem State.tripOver_pwr : ∃ clocks, s.tripOver.pwr = { s.pwr with trip := 0, tripCleared := true, clocks := clocks } :=
  State.slowClock_foldl_pwr ..

theorem State.tripOver_step {d : Nat} (hd : d < 8) : (s.tripOver.clock d).step = 0 := State.slowClock_foldl_step _ 8 hd

theorem State.tripOver_pwrMode (hshed : s.pwr.shed = false) : s.tripOver.pwrMode = 2 := by
  obtain ⟨_, hpwr⟩ := s.tripOver_pwr
  refine State.pwrMode_of_held ?_ ?_ ?_
  · rw [State.tripped, hpwr]
    rfl
  · rw [hpwr]
    exact hshed
  · rw [hpwr]
    exact Bool.or_true _

end

section
variable {s : State}

theorem exec_tripClear_hot (hhot : 23040 < ((s.reg Reg.thmTjMax).extractLsb' 0 16).toInt) : exec .tripClear s = .next s := by
  have hcool : s.cool = false := decide_eq_false (by omega)
  rw [show exec .tripClear s = execTripClear s by rfl, execTripClear, hcool, Bool.and_false]
  rfl

variable (hup : s.up = true) (htrip : s.tripped = true) (hcool : ((s.reg Reg.thmTjMax).extractLsb' 0 16).toInt ≤ 23040)
include hup htrip hcool

theorem exec_tripClear_cool : exec .tripClear s = .next
    ((s.tripOver.report 0x0207 unitMgmt (s.fld Reg.thmTjMax 0 16)).settleMode 3 3).runAllEngines := by
  have hok : s.cool = true := decide_eq_true (by omega)
  rw [show exec .tripClear s = execTripClear s by rfl, execTripClear, hup, htrip, hok, Bool.and_true, Bool.and_true,
    whenOk_true]
  rfl

theorem tripClear_clears : ∃ t, exec .tripClear s = .next t ∧ t.pwr.trip = 0 ∧ (s.pwr.shed = false → t.pwrMode = 2)
    ∧ ∀ d, d < 8 → (t.clock d).step = 0 := by
  have hmode := (ModeChanged.report s.tripOver 0x0207 unitMgmt (s.fld Reg.thmTjMax 0 16)).trans (.settleMode _ 3 3)
  have hengines := PwrKept.runAllEngines ((s.tripOver.report 0x0207 unitMgmt (s.fld Reg.thmTjMax 0 16)).settleMode 3 3)
  refine ⟨_, exec_tripClear_cool hup htrip hcool, ?_, fun hshed => ?_, fun d hd => ?_⟩
  · obtain ⟨_, hpwr⟩ := s.tripOver_pwr
    rw [hengines, hmode.trip, hpwr]
  · rw [State.pwrMode_congr hengines, hmode.pwrMode, s.tripOver_pwrMode hshed]
  · rw [State.clock_congr ((congrArg Pwr.clocks hengines).trans hmode.clocks), s.tripOver_step hd]

end

/-! ### O35 -/

/-- Settles O35. Estimates, samples and heatsink memories write their own registers and the air terms, and what follows them
changes the mode only. A trip latches, and its cause of BIVOUAC is kept by the clearing, through the mode and the engines. -/
theorem airHeatAndTripLimitThePower : Obligations.AirHeatAndTripLimitThePower := by
  refine ⟨fun s hup => ⟨fun mean tin tout h => airflowEstimate_held hup h tin tout, airflowEstimate_worked hup,
    fun temps forecast => ?_, fun b => ⟨exec_reread_valid hup, exec_reread_invalid hup⟩⟩,
    fun s => ⟨fun u hu halive => ⟨analogTrip_stops hu halive, exec_analogTrip_again hu halive⟩,
      fun hup htrip _ => ⟨exec_tripClear_hot, tripClear_clears hup htrip⟩⟩⟩
  obtain ⟨t, hexec, htemps, hshown⟩ := junctionSample_shows (s := s) (temps := temps) (forecast := forecast) hup
  refine ⟨t, hexec, htemps, hshown, fun e he hsteep hair hslope => ?_, fun hstop hoff => ?_⟩
  · have hrise : s.risesFast temps forecast = true := by
      rw [State.risesFast, show s.slopeOver temps forecast = some e from he, Option.any_some]
      exact decide_eq_true hsteep
    obtain ⟨u, hu, hstops, htripped, hshed⟩ := junctionSample_stops hup hrise hair hslope
    obtain rfl : t = u := Host.Outcome.next.inj (hexec.symm.trans hu)
    refine ⟨hstops, fun htrip hs => State.pwrMode_of_held (htripped.trans htrip) (hshed.trans hs) ?_⟩
    rw [hstops, Bool.or_true, Bool.true_or]
  · obtain ⟨hsampled, hclear⟩ := junctionSample_off (temps := temps) (forecast := forecast) hup hstop hoff
    obtain rfl : t = s.sampled temps forecast := Host.Outcome.next.inj (hexec.symm.trans hsampled)
    exact hclear

end Sys2Proof.Machine
end

section
/-! PROOF. A step runs the command at the front of the queue, and only the commands of boot, of images, of sessions and of
reset change the boot state (R472, R476 to R485, R498 to R500; log entry 15). -/

namespace Sys2Proof.Machine

theorem step_of_pending {s : State} {i : Instr} {rest : List Instr} (h : s.pending = i :: rest) :
    step s = exec i { s with pending := rest } := by
  rw [step, h]

theorem step_of_empty {s : State} (h : s.pending = []) : step s = .next s.tick := by
  rw [step, h]

/-- Without power or clock, or in reset, a tick does nothing. -/
theorem State.tick_of_not_alive {s : State} (h : s.alive = false) : s.tick = s := by
  rw [State.tick, h]
  rfl

/-- Settles O52: a step is defined by the front of the queue. -/
theorem stepRunsTheFrontCommand : Obligations.StepRunsTheFrontCommand :=
  ⟨fun _ _ _ h => step_of_pending h,
    fun _ h => ⟨step_of_empty h, fun hoff => by rw [step_of_empty h, State.tick_of_not_alive hoff]⟩⟩

/-- Every other command leaves the boot state: each arm of the dispatch is a meaning that does. -/
theorem exec_boot (s : State) {i : Instr} (h : bootCommand i = false) : bootOut s.boot (exec i s) := by
  cases i with
  | vinCutoff | powerReturn | hotReset | linkLoss | keyExchange | finish | endSession | loadFw | loadUc | loadComplete
  | activateFw | activateUc | pair | coldReset | commitSvn | persistPolicy | coldBoot | firmwareStart | warmReset
  | rstNAssert => exact nomatch h
  | _ => simp only [exec]; simp

/-- Settles O57: each meaning but those of the boot commands leaves the boot state. -/
theorem onlyBootCommandsChangeBootState : Obligations.OnlyBootCommandsChangeBootState := by
  intro s t i hi h
  have hboot := exec_boot s hi
  rwa [h] at hboot

end Sys2Proof.Machine
end

section
/-! PROOF. The checks of an image (R471) and the rule of the pair (R475): what each outcome means. -/

namespace Sys2Proof.Machine

/-! ### The checks of an image -/

/-- The header of an image is that of its type, with a payload no longer than its slot. -/
abbrev HeaderOk (uc : Bool) (i : Image) : Prop :=
  i.magic = 0x54444C48 ∧ i.type = (if uc then 2 else 1) ∧ i.hdrver = 1 ∧ i.payloadLen ≤ (if uc then 4194304 else 16777216)

/-- The key of an image is one of the four of the fuses, and not revoked. -/
abbrev Boot.KeyOk (b : Boot) (i : Image) : Prop :=
  i.key ≤ 3 ∧ b.revoked.getLsbD i.key = false ∧ i.keyDigest = b.keyDigests.getD i.key 0

/-- The header check fails where the header is not that of the type. -/
theorem headerFault_iff (i : Image) (uc : Bool) : (i.magic ≠ 0x54444C48 ∨ i.type ≠ 1 + b2n uc ∨ i.hdrver ≠ 1
    ∨ 2 ^ 20 * (if uc then 4 else 16) < i.payloadLen) ↔ ¬HeaderOk uc i := by
  cases uc <;> simp [HeaderOk, b2n, imp_iff_not_or]

theorem keyFault_iff (b : Boot) (i : Image) :
    (3 < i.key ∨ b.revoked.getLsbD i.key ∨ i.keyDigest ≠ b.keyDigests.getD i.key 0) ↔ ¬b.KeyOk i := by
  simp [Boot.KeyOk, imp_iff_not_or]

/-- The checks of R471 in their order. -/
theorem State.imageFault_some (s : State) (uc : Bool) (i : Image) : s.imageFault uc (some i) =
    if ¬HeaderOk uc i then 2 else if ¬s.boot.KeyOk i then 4 else if i.sigOk = false then 3
    else if i.svn < s.boot.fuseSvn then 5 else if i.hashOk = false then 6 else 0 := by
  rw [State.imageFault]
  simp only [headerFault_iff, keyFault_iff]

/-- An image is valid where it passes all checks. -/
theorem State.imageFault_eq_zero {s : State} {uc : Bool} {i : Image} : s.imageFault uc (some i) = 0 ↔
    HeaderOk uc i ∧ s.boot.KeyOk i ∧ i.sigOk = true ∧ s.boot.fuseSvn ≤ i.svn ∧ i.hashOk = true := by
  rw [State.imageFault_some]
  split_ifs <;> grind

/-- An empty slot holds no valid image. -/
theorem State.exists_of_imageFault_eq_zero {s : State} {uc : Bool} {o : Option Image} (h : s.imageFault uc o = 0) :
    ∃ i, o = some i := by
  cases o with
  | none => exact nomatch h
  | some i => exact ⟨i, rfl⟩

/-! ### The rule of the pair -/

theorem imageOnHw_iff {i : Image} {hwl : Nat} : imageOnHw i hwl = true ↔ i.hwMin ≤ hwl ∧ hwl ≤ i.hwMax := by
  simp [imageOnHw]

theorem pairTested_iff {f u : Image} :
    pairTested f u = true ↔ u.version ∈ f.tested.take 32 ∨ f.version ∈ u.tested.take 32 := by
  simp [pairTested, imageLists]

/-- Both images allow the hardware level. -/
def pairOnHw (hwl : Nat) (f u : Image) : Prop := imageOnHw f hwl = true ∧ imageOnHw u hwl = true

section
variable {hwl : Nat} {policy : Bool} {f u : Image}

theorem evalPair_of_not_onHw (h : ¬pairOnHw hwl f u) : evalPair hwl policy f u = ⟨3, 0, false⟩ := by
  refine if_pos ?_
  rw [pairOnHw, not_and_or] at h
  simpa using h

variable (hhw : pairOnHw hwl f u)
include hhw

/-- On hardware that both images allow, the levels that they implement decide, then what they were tested with. -/
theorem evalPair_of_onHw : evalPair hwl policy f u =
    if min f.plMax u.plMax < max f.plMin u.plMin then ⟨2, 0, false⟩
    else if pairTested f u then ⟨0, min f.plMax u.plMax, false⟩
    else if policy then ⟨0, min f.plMax u.plMax, true⟩ else ⟨1, 0, false⟩ := by
  obtain ⟨hf, hu⟩ := hhw
  exact if_neg (by simp [hf, hu])

theorem evalPair_of_apart (h : min f.plMax u.plMax < max f.plMin u.plMin) : evalPair hwl policy f u = ⟨2, 0, false⟩ := by
  rw [evalPair_of_onHw hhw, if_pos h]

variable (hpl : max f.plMin u.plMin ≤ min f.plMax u.plMax)
include hpl

theorem evalPair_of_tested (h : pairTested f u = true) :
    evalPair hwl policy f u = ⟨0, min f.plMax u.plMax, false⟩ := by
  rw [evalPair_of_onHw hhw, if_neg (Nat.not_lt.mpr hpl), if_pos h]

theorem evalPair_of_untested (h : ¬pairTested f u = true) :
    evalPair hwl policy f u = if policy then ⟨0, min f.plMax u.plMax, true⟩ else ⟨1, 0, false⟩ := by
  rw [evalPair_of_onHw hhw, if_neg (Nat.not_lt.mpr hpl), if_neg h]

end

/-- The outcomes of R475: another hardware, no common level, a tested pair, or an untested one, by the policy. -/
theorem evalPair_cases (hwl : Nat) (policy : Bool) (f u : Image) :
    (¬pairOnHw hwl f u ∧ evalPair hwl policy f u = ⟨3, 0, false⟩)
    ∨ (pairOnHw hwl f u ∧ min f.plMax u.plMax < max f.plMin u.plMin ∧ evalPair hwl policy f u = ⟨2, 0, false⟩)
    ∨ (pairOnHw hwl f u ∧ max f.plMin u.plMin ≤ min f.plMax u.plMax ∧ pairTested f u = true
        ∧ evalPair hwl policy f u = ⟨0, min f.plMax u.plMax, false⟩)
    ∨ (pairOnHw hwl f u ∧ max f.plMin u.plMin ≤ min f.plMax u.plMax ∧ ¬pairTested f u = true
        ∧ evalPair hwl policy f u = if policy then ⟨0, min f.plMax u.plMax, true⟩ else ⟨1, 0, false⟩) := by
  by_cases hhw : pairOnHw hwl f u
  · rcases Nat.lt_or_ge (min f.plMax u.plMax) (max f.plMin u.plMin) with hpl | hpl
    · exact .inr (.inl ⟨hhw, hpl, evalPair_of_apart hhw hpl⟩)
    · by_cases ht : pairTested f u = true
      · exact .inr (.inr (.inl ⟨hhw, hpl, ht, evalPair_of_tested hhw hpl ht⟩))
      · exact .inr (.inr (.inr ⟨hhw, hpl, ht, evalPair_of_untested hhw hpl ht⟩))
  · exact .inl ⟨hhw, evalPair_of_not_onHw hhw⟩

/-- A pair that runs is allowed on the hardware, runs at the highest common level, and is tested or runs under LEVEL. -/
theorem evalPair_runs {hwl : Nat} {policy : Bool} {f u : Image} (h : (evalPair hwl policy f u).reason = 0) :
    pairOnHw hwl f u ∧ max f.plMin u.plMin ≤ (evalPair hwl policy f u).level
      ∧ (evalPair hwl policy f u).level = min f.plMax u.plMax
      ∧ (pairTested f u = true ∨ (evalPair hwl policy f u).levelled = true) := by
  rcases evalPair_cases hwl policy f u with ⟨-, e⟩ | ⟨-, -, e⟩ | ⟨hhw, hpl, ht, e⟩ | ⟨hhw, hpl, -, e⟩
  · rw [e] at h
    exact absurd h (by decide)
  · rw [e] at h
    exact absurd h (by decide)
  · rw [e]
    exact ⟨hhw, hpl, rfl, .inl ht⟩
  · cases policy with
    | false =>
      rw [e] at h
      exact nomatch h
    | true =>
      rw [e]
      exact ⟨hhw, hpl, rfl, .inr rfl⟩

end Sys2Proof.Machine
end

section
/-! PROOF. What a step can do to the boot state (R472 to R482, R485, R498 to R500): note what is neither a fuse nor in
force, stop, raise FUSE_SVN, evaluate a pair of valid images, or start the firmware of a pair that may run. -/

namespace Sys2Proof.Machine

/-! ### The parts of the boot state -/

/-- The fuses, with the hardware and the ROM. -/
def Boot.fuses (b : Boot) : List Nat × BitVec 4 × Nat × Nat × BitVec 16 × Nat :=
  (b.keyDigests, b.revoked, b.fuseSvn, b.hwl, b.stepping, b.romDigest)

/-- What is in force: the stage, and the pair that the boot has taken with its level. -/
def Boot.force (b : Boot) : Stage × Bool × Option Image × Option Image × Nat × Bool :=
  (b.stage, b.starting, b.fw, b.uc, b.level, b.levelled)

/-- An image is checked against the fuses. -/
theorem State.imageFault_congr {s t : State} (h : t.boot.fuses = s.boot.fuses) (uc : Bool) (o : Option Image) :
    t.imageFault uc o = s.imageFault uc o := by
  simp only [Boot.fuses, Prod.mk.injEq] at h
  obtain ⟨hkey, hrev, hsvn, -, -, -⟩ := h
  unfold State.imageFault
  rw [hkey, hrev, hsvn]

/-- Two images taken, valid under the fuses. -/
def State.TakesPair (s : State) (f u : Image) : Prop :=
  s.imageFault false (some f) = 0 ∧ s.imageFault true (some u) = 0

/-- The boot state after an evaluation of a pair: the pair is in force, and the module is about to start it, or held. -/
structure Boot.Evaluated (b : Boot) (policy : Bool) (f u : Image) : Prop where
  fw : b.fw = some f
  uc : b.uc = some u
  level : b.level = (evalPair b.hwl policy f u).level
  levelled : b.levelled = (evalPair b.hwl policy f u).levelled
  starting : b.starting = ((evalPair b.hwl policy f u).reason == 0)
  stage : b.stage ≠ .running

/-- What a step can do to the boot state. -/
inductive BootStep (s t : State) : Prop where
  /-- Neither the fuses nor what is in force change. -/
  | noted (hfuses : t.boot.fuses = s.boot.fuses) (hforce : t.boot.force = s.boot.force)
  /-- The module is reset, or in RECOVERY. -/
  | stopped (hfuses : t.boot.fuses = s.boot.fuses) (hstage : t.boot.stage = .rom ∨ t.boot.stage = .recovery)
      (hstart : t.boot.starting = false)
  /-- FUSE_SVN rises to the lower SVN of the running images. -/
  | committed (hrun : s.boot.stage = .running) (hfuses : t.boot.fuses = { s.boot with
      fuseSvn := max s.boot.fuseSvn (min (s.boot.fw.elim 0 (·.svn)) (s.boot.uc.elim 0 (·.svn))) }.fuses)
      (hforce : t.boot.force = s.boot.force)
  /-- A pair of valid images is evaluated: the one that the ROM takes, or the one that is held. -/
  | evaluated (f u : Image) (policy : Bool) (hfuses : t.boot.fuses = s.boot.fuses)
      (htaken : s.TakesPair f u ∨ s.boot.stage = .held ∧ s.boot.fw = some f ∧ s.boot.uc = some u)
      (heval : t.boot.Evaluated policy f u)
  /-- The firmware of a pair that may run starts. -/
  | started (hstarting : s.boot.starting = true)
      (hboot : t.boot = { s.boot with stage := .running, starting := false })

/-- The next state, if any, is one that `BootStep` allows. -/
def bootStepOut (s : State) : Out → Prop
  | .next t => BootStep s t
  | .fault _ => True
  | .refused _ => True

namespace BootStep

theorem of_boot {s t : State} (h : t.boot = s.boot) : BootStep s t := .noted (by rw [h]) (by rw [h])

theorem whenOk {s t : State} {ok : Bool} (h : ok = true → BootStep s t) : BootStep s (whenOk ok s t) := by
  cases ok with
  | false => exact of_boot rfl
  | true => exact h rfl

/-! ### Resets and loads -/

/-- A load that is dropped leaves its slot and itself only. -/
theorem dropLoad_eq (b : Boot) : b.dropLoad = { b with
    slots := b.dropLoad.slots, load := b.dropLoad.load, resetAfterLoad := b.dropLoad.resetAfterLoad } := by
  unfold Boot.dropLoad
  split <;> rfl

theorem fuses_kept (b : Boot) : b.kept.fuses = b.fuses := by
  unfold Boot.kept
  rw [dropLoad_eq]
  rfl

/-- A state that keeps fuses and flash only is stopped. -/
theorem of_kept {s t u : State} (hu : u.boot.fuses = s.boot.fuses) (h : t.boot = u.boot.kept) : BootStep s t :=
  .stopped (by rw [h, fuses_kept, hu]) (.inl (by rw [h]; rfl)) (by rw [h]; rfl)

theorem noted_warm (b : Boot) : b.warm.fuses = b.fuses ∧ b.warm.force = b.force := by
  unfold Boot.warm
  rw [dropLoad_eq]
  exact ⟨rfl, rfl⟩

theorem warmReset {s u : State} (cause : Nat) (h : u.boot = s.boot) : BootStep s (u.warmReset cause) := by
  obtain ⟨hfuses, hforce⟩ := noted_warm s.boot
  unfold State.warmReset
  split
  · exact of_boot h
  · have hwarm : ∀ x : State, x.boot = u.boot.warm → BootStep s x := fun x hx =>
      .noted (by rw [hx, h, hfuses]) (by rw [hx, h, hforce])
    refine hwarm _ ?_
    rw [State.bump_boot]
    dsimp only
    split
    · rw [State.warmAll, State.setFld_boot]
    · rfl

theorem execVinCutoff (s : State) : bootStepOut s (execVinCutoff s) :=
  whenOk fun _ => of_kept (u := s) rfl rfl

theorem execPowerReturn (s : State) : bootStepOut s (execPowerReturn s) :=
  whenOk fun _ => of_kept (u := s) rfl rfl

theorem execColdReset (s : State) : bootStepOut s (execColdReset s) :=
  whenOk fun _ => iteInduction (fun _ => .noted rfl rfl) (fun _ => of_kept (u := s) rfl rfl)

theorem pinReset {s u : State} (h : u.boot = s.boot) : BootStep s u.pinReset := of_kept (u := u) (by rw [h]) rfl

theorem execRstNAssert (ns : Nat) (s : State) : bootStepOut s (execRstNAssert ns s) :=
  whenOk fun _ => iteInduction (fun _ => pinReset rfl) fun _ =>
    iteInduction (fun _ => of_boot rfl) fun _ => iteInduction (fun _ => pinReset rfl) (fun _ => of_boot rfl)

theorem execHotReset (s : State) : bootStepOut s (execHotReset s) := whenOk fun _ => warmReset 2 s.linkDown_boot

theorem execLinkLoss (us : Nat) (s : State) : bootStepOut s (execLinkLoss us s) :=
  whenOk fun _ => warmReset 3 s.linkDown_boot

theorem execWarmReset (s : State) : bootStepOut s (execWarmReset s) := whenOk fun _ => warmReset 1 rfl

theorem execLoadFw (s : State) : bootStepOut s (execLoadFw s) :=
  whenOk fun _ => .noted (by rw [State.startLoad, State.toHost_boot]; rfl) (by rw [State.startLoad, State.toHost_boot]; rfl)

theorem execLoadUc (s : State) : bootStepOut s (execLoadUc s) :=
  whenOk fun _ => .noted (by rw [State.startLoad, State.toHost_boot]; rfl) (by rw [State.startLoad, State.toHost_boot]; rfl)

/-- The end of a load changes neither the fuses nor what is in force. -/
theorem noted_loadDone (s : State) (uc : Bool) (result : Nat) (p : Bool × Bool × Nat) :
    (s.loadDone uc result p).boot.fuses = s.boot.fuses ∧ (s.loadDone uc result p).boot.force = s.boot.force := by
  rw [State.loadDone, State.report_boot]
  exact ⟨rfl, rfl⟩

theorem noted_takeLoad (s : State) (uc : Bool) (img : Option Image) (flashOk : Bool) :
    (s.takeLoad uc img flashOk).boot.fuses = s.boot.fuses ∧ (s.takeLoad uc img flashOk).boot.force = s.boot.force := by
  unfold State.takeLoad
  split
  · exact noted_loadDone ..
  · extract_lets f t n p b
    split
    · exact noted_loadDone ..
    · split
      · refine (noted_loadDone ..).imp (·.trans ?_) (·.trans ?_) <;> cases uc <;> rfl
      · exact noted_loadDone ..

theorem execLoadComplete (img : Option Image) (flashOk : Bool) (s : State) :
    bootStepOut s (execLoadComplete img flashOk s) := by
  unfold Machine.execLoadComplete
  show BootStep s _
  split
  · exact of_boot rfl
  · rename_i l _
    obtain ⟨hfuses, hforce⟩ := noted_takeLoad s l.microcode img flashOk
    exact whenOk fun _ => iteInduction (fun _ => of_kept (u := s.takeLoad l.microcode img flashOk) hfuses rfl)
      (fun _ => .noted hfuses hforce)

/-! ### Sessions -/

/-- A request over DOE that changes sessions only. -/
theorem doeServe {s t : State} (body : List Byte) (hfuses : t.boot.fuses = s.boot.fuses)
    (hforce : t.boot.force = s.boot.force) : bootStepOut s (doeServe s (t.doeReply body)) :=
  whenOk fun _ => .noted (by rw [State.doeReply_boot, hfuses]) (by rw [State.doeReply_boot, hforce])

theorem execKeyExchange (slot : Nat) (s : State) : bootStepOut s (execKeyExchange slot s) :=
  iteInduction (fun _ => doeServe [] rfl rfl) (fun _ => doeServe [] rfl rfl)

theorem execFinish (session : Nat) (ok : Bool) (s : State) : bootStepOut s (execFinish session ok s) :=
  iteInduction (fun _ => doeServe [] rfl rfl) (fun _ => doeServe [] rfl rfl)

theorem execEndSession (session : Nat) (s : State) : bootStepOut s (execEndSession session s) :=
  iteInduction (fun _ => doeServe [] rfl rfl) (fun _ => doeServe [] rfl rfl)

/-! ### BOOT_CMD -/

/-- A BOOT_CMD that changes neither the fuses nor what is in force. -/
theorem bootCmd {s : State} {act : Boot → Boot × Nat} (hfuses : (act s.boot).1.fuses = s.boot.fuses)
    (hforce : (act s.boot).1.force = s.boot.force) : bootStepOut s (bootCmd s act) :=
  whenOk fun _ => .noted hfuses hforce

theorem execActivateFw (s : State) : bootStepOut s (execActivateFw s) := by
  refine bootCmd ?_ ?_ <;> split <;> rfl

theorem execActivateUc (s : State) : bootStepOut s (execActivateUc s) := by
  refine bootCmd ?_ ?_ <;> split <;> rfl

theorem execPersistPolicy (ok : Bool) (s : State) : bootStepOut s (execPersistPolicy ok s) := by
  refine bootCmd ?_ ?_ <;> split_ifs <;> rfl

theorem execCommitSvn (ok : Bool) (s : State) : bootStepOut s (execCommitSvn ok s) := by
  refine whenOk fun _ => ?_
  by_cases hrun : s.boot.stage = .running
  · cases ok with
    | false => exact .noted (by simp [hrun, Boot.fuses]) (by simp [hrun, Boot.force])
    | true => exact .committed hrun (by simp [hrun, Boot.fuses]) (by simp [hrun, Boot.force])
  · exact .noted (by simp [hrun, Boot.fuses]) (by simp [hrun, Boot.force])

end BootStep

/-! ### The pair -/

/-- What an evaluation of the pair reports of its outcome (Table 16-8). -/
def State.pairTold (s : State) (e : PairEval) (f u : Image) : State :=
  if e.reason = 0 then (if e.levelled then s.report 0x0705 unitMgmt (e.level + 2 ^ 8) else s)
  else if e.reason = 1 then s.report 0x0703 unitMgmt (majorMinor f.version + 2 ^ 16 * majorMinor u.version)
  else s.report 0x0704 unitMgmt (e.reason + 2 ^ 8 * s.boot.hwl)

/-- The boot state with the outcome of an evaluation. -/
def Boot.withPair (b : Boot) (e : PairEval) : Boot :=
  { b with reason := e.reason, level := e.level, levelled := e.levelled, starting := e.reason == 0,
           stage := if e.reason = 0 then b.stage else .held }

theorem State.pairTold_withBoot (s : State) {b : Boot} (h : b.hwl = s.boot.hwl) (e : PairEval) (f u : Image) :
    (s.withBoot b).pairTold e f u = (s.pairTold e f u).withBoot b := by
  unfold State.pairTold
  rw [show (s.withBoot b).boot.hwl = s.boot.hwl from h]
  simp only [State.report_withBoot]
  split_ifs <;> rfl

/-- An evaluation reports its outcome, notes it in the boot state, and measures that. -/
theorem State.evaluate_eq (s : State) (f u : Image) :
    let e := evalPair s.boot.hwl s.levelPolicy f u
    s.evaluate f u = ((s.pairTold e f u).withBoot (s.boot.withPair e)).measure := by
  intro e
  rw [← State.pairTold_withBoot s (b := s.boot.withPair e) rfl]
  by_cases he : e.reason = 0 <;> simp [State.evaluate, State.pairTold, Boot.withPair, State.withBoot, he, e]

theorem State.fuses_evaluate (s : State) (f u : Image) : (s.evaluate f u).boot.fuses = s.boot.fuses := by
  rw [State.evaluate_eq]
  rfl

/-- After an evaluation its pair is in force, about to start or held. -/
theorem State.evaluated {s : State} {f u : Image} (hfw : s.boot.fw = some f) (huc : s.boot.uc = some u)
    (hstage : s.boot.stage ≠ .running) : (s.evaluate f u).boot.Evaluated s.levelPolicy f u := by
  rw [State.evaluate_eq]
  refine ⟨hfw, huc, rfl, rfl, rfl, ?_⟩
  show (if _ then s.boot.stage else Stage.held) ≠ .running
  split
  · exact hstage
  · decide

/-! ### The ROM (R472) -/

/-- What the ROM takes of a type is valid. -/
theorem State.valid_of_romTake {s : State} {t fault : Nat} {x : Nat × Image} (h : s.romTake t = (some x, fault)) :
    s.imageFault (t == 1) (some x.2) = 0 := by
  have hmap : ∀ {o : Option Image} {n : Nat}, s.imageFault (t == 1) o = 0 → o.map (fun i => (n, i)) = some x →
      s.imageFault (t == 1) (some x.2) = 0 := by
    intro o n ho hx
    obtain ⟨i, rfl, rfl⟩ := Option.map_eq_some_iff.mp hx
    exact ho
  unfold State.romTake at h
  extract_lets a fa at h
  split at h
  · exact hmap ‹_› (congrArg Prod.fst h)
  · split at h
    · exact hmap ‹_› (congrArg Prod.fst h)
    · exact nomatch congrArg Prod.fst h

/-- The firmware that the ROM takes is noted, and whether it is a fallback. -/
theorem State.romTook_fw (s : State) (slot : Nat) (i : Image) (fault : Nat) : (s.romTook 0 slot i fault).boot =
    { s.boot with fw := some i, fwSlot := slot, fallback := s.boot.fallback || fault != 0 } := by
  by_cases h : fault = 0 <;> simp [State.romTook, h]

/-- The same of microcode. -/
theorem State.romTook_uc (s : State) (slot : Nat) (i : Image) (fault : Nat) : (s.romTook 1 slot i fault).boot =
    { s.boot with uc := some i, ucSlot := slot, fallback := s.boot.fallback || fault != 0 } := by
  by_cases h : fault = 0 <;> simp [State.romTook, h]

section
variable {s : State}

/-- Without valid firmware the ROM enters RECOVERY. -/
theorem State.rom_of_no_fw {ff : Nat} (h : s.romTake 0 = (none, ff)) : s.rom = s.recover 4 := by
  rw [State.rom, h]

theorem State.rom_of_no_uc {f : Nat × Image} {ff fu : Nat} (hf : s.romTake 0 = (some f, ff))
    (hu : (s.romTook 0 f.1 f.2 ff).romTake 1 = (none, fu)) : s.rom = (s.romTook 0 f.1 f.2 ff).recover 5 := by
  rw [State.rom, hf]
  dsimp only
  rw [hu]

theorem State.rom_of_both {f u : Nat × Image} {ff fu : Nat} (hf : s.romTake 0 = (some f, ff))
    (hu : (s.romTook 0 f.1 f.2 ff).romTake 1 = (some u, fu)) :
    s.rom = ((s.romTook 0 f.1 f.2 ff).romTook 1 u.1 u.2 fu).evaluate f.2 u.2 := by
  rw [State.rom, hf]
  dsimp only
  rw [hu]

end

namespace BootStep

theorem recover {s u : State} (reason : Nat) (hfuses : u.boot.fuses = s.boot.fuses) (hstart : u.boot.starting = false) :
    BootStep s (u.recover reason) := .stopped hfuses (.inr rfl) hstart

/-- The ROM stops in RECOVERY, or evaluates the pair of valid images that it takes. -/
theorem rom {s v : State} (hfuses : v.boot.fuses = s.boot.fuses) (hstage : v.boot.stage = .rom)
    (hstart : v.boot.starting = false) : BootStep s v.rom := by
  rcases hf : v.romTake 0 with ⟨f | f, ff⟩
  · rw [State.rom_of_no_fw hf]
    exact recover 4 hfuses hstart
  · have hfw := v.romTook_fw f.1 f.2 ff
    rcases hu : (v.romTook 0 f.1 f.2 ff).romTake 1 with ⟨u | u, fu⟩
    · rw [State.rom_of_no_uc hf hu]
      exact recover 5 (by rw [hfw]; exact hfuses) (by rw [hfw]; exact hstart)
    · have huc := (v.romTook 0 f.1 f.2 ff).romTook_uc u.1 u.2 fu
      rw [hfw] at huc
      rw [State.rom_of_both hf hu]
      refine .evaluated f.2 u.2 _ ?_ (.inl ⟨?_, ?_⟩) (State.evaluated ?_ ?_ ?_)
      · rw [State.fuses_evaluate, huc]
        exact hfuses
      · rw [← State.imageFault_congr hfuses]
        exact State.valid_of_romTake hf
      · rw [← State.imageFault_congr (t := v.romTook 0 f.1 f.2 ff) (by rw [hfw]; exact hfuses)]
        exact State.valid_of_romTake hu
      · rw [huc]
      · rw [huc]
      · rw [huc]
        exact hstage ▸ nofun

theorem execColdBoot (straps : BitVec 3) (heatsink harness : List Byte) (s : State) :
    bootStepOut s (execColdBoot straps heatsink harness s) := by
  refine whenOk fun hrom => ?_
  simp only [Bool.and_eq_true, beq_iff_eq, Bool.not_eq_true'] at hrom
  obtain ⟨⟨-, hstage⟩, hstart⟩ := hrom
  refine rom ?_ ?_ ?_ <;> rw [State.takeHeatsink_boot, State.resetDone_boot, State.setReg64_boot, State.setReg_boot,
    State.setReg_boot]
  · rfl
  · exact hstage
  · exact hstart

theorem execPair (s : State) : bootStepOut s (execPair s) := by
  have hnot : bootStepOut s (Machine.bootCmd s fun b => (b, 8)) := bootCmd rfl rfl
  unfold Machine.execPair
  split
  · rename_i f u hfw huc
    split
    · rename_i hheld
      refine whenOk fun _ => .evaluated f u _ (State.fuses_evaluate ..) (.inr ⟨hheld.1, hfw, huc⟩)
        (State.evaluated hfw huc ?_)
      exact hheld.1 ▸ nofun
    · exact hnot
  · exact hnot

theorem execFirmwareStart (s : State) : bootStepOut s (execFirmwareStart s) := by
  refine whenOk fun hstart => ?_
  simp only [Bool.and_eq_true] at hstart
  refine .started hstart.1.2 ?_
  rw [State.startWork_boot, State.report_boot]

end BootStep

/-- Every command does to the boot state what `BootStep` allows. -/
theorem exec_bootStep (s : State) (i : Instr) : bootStepOut s (exec i s) := by
  by_cases hi : bootCommand i = false
  · have h := exec_boot s hi
    revert h
    cases exec i s with
    | next t => exact BootStep.of_boot
    | fault _ => exact id
    | refused _ => exact id
  · cases i with
    | vinCutoff => exact BootStep.execVinCutoff s
    | powerReturn => exact BootStep.execPowerReturn s
    | hotReset => exact BootStep.execHotReset s
    | linkLoss us => exact BootStep.execLinkLoss us s
    | keyExchange slot => exact BootStep.execKeyExchange slot s
    | finish n ok => exact BootStep.execFinish n ok s
    | endSession n => exact BootStep.execEndSession n s
    | loadFw => exact BootStep.execLoadFw s
    | loadUc => exact BootStep.execLoadUc s
    | loadComplete img ok => exact BootStep.execLoadComplete img ok s
    | activateFw => exact BootStep.execActivateFw s
    | activateUc => exact BootStep.execActivateUc s
    | pair => exact BootStep.execPair s
    | coldReset => exact BootStep.execColdReset s
    | commitSvn ok => exact BootStep.execCommitSvn ok s
    | persistPolicy ok => exact BootStep.execPersistPolicy ok s
    | coldBoot straps hs hn => exact BootStep.execColdBoot straps hs hn s
    | firmwareStart => exact BootStep.execFirmwareStart s
    | warmReset => exact BootStep.execWarmReset s
    | rstNAssert ns => exact BootStep.execRstNAssert ns s
    | _ => exact absurd rfl hi

/-- The same of a step. -/
theorem step_bootStep {s t : State} (h : step s = .next t) : BootStep s t := by
  cases hp : s.pending with
  | nil =>
    rw [step_of_empty hp] at h
    exact .of_boot (Host.Outcome.next.inj h ▸ s.tick_boot)
  | cons i rest =>
    rw [step_of_pending hp] at h
    have hexec := exec_bootStep { s with pending := rest } i
    rw [h] at hexec
    cases hexec with
    | noted hfuses hforce => exact .noted hfuses hforce
    | stopped hfuses hstage hstart => exact .stopped hfuses hstage hstart
    | committed hrun hfuses hforce => exact .committed hrun hfuses hforce
    | evaluated f u policy hfuses htaken heval => exact .evaluated f u policy hfuses htaken heval
    | started hstarting hboot => exact .started hstarting hboot

end Sys2Proof.Machine
end

section
/-! PROOF. Secure boot at reset and through every step, and fuses that never go back (R471, R472, R475, R477, R481, R500). -/

namespace Sys2Proof.Machine

/-- Settles O54: no module runs, is held or is about to start at reset. -/
theorem resetIsBootSafe : Obligations.ResetIsBootSafe :=
  ⟨fun h => by simp [State.reset] at h, fun h => by simp [State.reset] at h⟩

section
variable {s t : State}

/-- Whether the pair may run is a matter of the hardware and of what is in force. -/
theorem State.pairMayRun_congr (hhwl : t.boot.hwl = s.boot.hwl) (hforce : t.boot.force = s.boot.force) :
    t.pairMayRun ↔ s.pairMayRun := by
  simp only [Boot.force, Prod.mk.injEq] at hforce
  obtain ⟨-, -, hfw, huc, hlevel, hlevelled⟩ := hforce
  rw [State.pairMayRun, hfw, huc, hhwl, hlevel, hlevelled, State.pairMayRun]

/-- Secure boot is a matter of the fuses and of what is in force. -/
theorem State.bootSafe_of_noted (hfuses : t.boot.fuses = s.boot.fuses) (hforce : t.boot.force = s.boot.force)
    (hs : s.bootSafe) : t.bootSafe := by
  have hfault := State.imageFault_congr hfuses
  have hmay := State.pairMayRun_congr (congrArg (·.2.2.2.1) hfuses) hforce
  simp only [Boot.force, Prod.mk.injEq] at hforce
  obtain ⟨hstage, hstart, hfw, huc, -, -⟩ := hforce
  unfold State.bootSafe State.imagesValid at hs ⊢
  rwa [hfault, hfault, hstage, hstart, hfw, huc, hmay]

theorem State.bootSafe_of_stopped (hstage : t.boot.stage = .rom ∨ t.boot.stage = .recovery)
    (hstart : t.boot.starting = false) : t.bootSafe := by
  rcases hstage with hstage | hstage <;> simp [State.bootSafe, hstage, hstart]

/-- An image whose SVN is no lower than what is committed stays valid. -/
theorem State.imageFault_committed {n : Nat} (hfuses : t.boot.fuses = { s.boot with fuseSvn := max s.boot.fuseSvn n }.fuses)
    {uc : Bool} {i : Image} (hn : n ≤ i.svn) (h : s.imageFault uc (some i) = 0) : t.imageFault uc (some i) = 0 := by
  simp only [Boot.fuses, Prod.mk.injEq] at hfuses
  obtain ⟨hkeys, hrevoked, hsvn, -, -, -⟩ := hfuses
  rw [State.imageFault_eq_zero] at h ⊢
  obtain ⟨hheader, hkey, hsig, hold, hhash⟩ := h
  exact ⟨hheader, by rwa [Boot.KeyOk, hrevoked, hkeys], hsig, by omega, hhash⟩

/-- The lower SVN of the running images is committed, so both stay valid. -/
theorem State.bootSafe_of_committed (hrun : s.boot.stage = .running) (hfuses : t.boot.fuses = { s.boot with
      fuseSvn := max s.boot.fuseSvn (min (s.boot.fw.elim 0 (·.svn)) (s.boot.uc.elim 0 (·.svn))) }.fuses)
    (hforce : t.boot.force = s.boot.force) (hs : s.bootSafe) : t.bootSafe := by
  obtain ⟨hvalid, hpair⟩ := hs
  obtain ⟨hf, hu⟩ := hvalid (.inl hrun)
  have hmay := (State.pairMayRun_congr (congrArg (·.2.2.2.1) hfuses) hforce).mpr (hpair (.inl hrun))
  simp only [Boot.force, Prod.mk.injEq] at hforce
  obtain ⟨-, -, hfw, huc, -, -⟩ := hforce
  obtain ⟨f, hf'⟩ := State.exists_of_imageFault_eq_zero hf
  obtain ⟨u, hu'⟩ := State.exists_of_imageFault_eq_zero hu
  rw [hf'] at hf hfw hfuses
  rw [hu'] at hu huc hfuses
  refine ⟨fun _ => ⟨?_, ?_⟩, fun _ => hmay⟩
  · rw [hfw]
    exact State.imageFault_committed hfuses (min_le_left _ _) hf
  · rw [huc]
    exact State.imageFault_committed hfuses (min_le_right _ _) hu

/-- A pair that is evaluated is valid, and starts only where R475 lets it run. -/
theorem State.bootSafe_of_evaluated {f u : Image} {policy : Bool} (hfuses : t.boot.fuses = s.boot.fuses)
    (htaken : s.TakesPair f u ∨ s.boot.stage = .held ∧ s.boot.fw = some f ∧ s.boot.uc = some u)
    (heval : t.boot.Evaluated policy f u) (hs : s.bootSafe) : t.bootSafe := by
  have hvalid : t.imagesValid := by
    rw [State.imagesValid, heval.fw, heval.uc, State.imageFault_congr hfuses, State.imageFault_congr hfuses]
    rcases htaken with hvalid | ⟨hheld, hfw, huc⟩
    · exact hvalid
    · have := hs.1 (.inr (.inl hheld))
      rwa [State.imagesValid, hfw, huc] at this
  refine ⟨fun _ => hvalid, fun hruns => ?_⟩
  have hstart := hruns.resolve_left heval.stage
  rw [heval.starting, beq_iff_eq] at hstart
  obtain ⟨⟨hhwf, hhwu⟩, hlow, hhigh, hmay⟩ := evalPair_runs hstart
  refine ⟨f, u, heval.fw, heval.uc, hhwf, hhwu, ?_⟩
  rw [heval.level, heval.levelled]
  exact ⟨hlow, hhigh, hmay⟩

/-- A pair that was about to start runs. -/
theorem State.bootSafe_of_started (hstarting : s.boot.starting = true)
    (hboot : t.boot = { s.boot with stage := .running, starting := false }) (hs : s.bootSafe) : t.bootSafe := by
  obtain ⟨hvalid, hpair⟩ := hs
  have hf := hvalid (.inr (.inr hstarting))
  have hp := hpair (.inr hstarting)
  have hfault := State.imageFault_congr (s := s) (t := t) (by rw [hboot]; rfl)
  unfold State.imagesValid at hf
  unfold State.pairMayRun at hp
  unfold State.bootSafe State.imagesValid State.pairMayRun
  rw [hfault, hfault, hboot]
  exact ⟨fun _ => hf, fun _ => hp⟩

end

/-- Settles O55: each kind of change of the boot state keeps secure boot. -/
theorem everyStepKeepsSecureBoot : Obligations.EveryStepKeepsSecureBoot := by
  intro s t hs h
  cases step_bootStep h with
  | noted hfuses hforce => exact State.bootSafe_of_noted hfuses hforce hs
  | stopped _ hstage hstart => exact State.bootSafe_of_stopped hstage hstart
  | committed hrun hfuses hforce => exact State.bootSafe_of_committed hrun hfuses hforce hs
  | evaluated f u policy hfuses htaken heval => exact State.bootSafe_of_evaluated hfuses htaken heval hs
  | started hstarting hboot => exact State.bootSafe_of_started hstarting hboot hs

/-- Settles O56: FUSE_SVN rises in a commit, and no other change of the boot state is one of the fuses. -/
theorem fusesNeverGoBack : Obligations.FusesNeverGoBack := by
  intro s t h
  have hfuses : ∃ n, s.boot.fuseSvn ≤ n ∧ t.boot.fuses = { s.boot with fuseSvn := n }.fuses := by
    cases step_bootStep h with
    | noted hfuses | stopped hfuses | evaluated _ _ _ hfuses => exact ⟨_, le_rfl, hfuses⟩
    | committed _ hfuses => exact ⟨_, le_max_left _ _, hfuses⟩
    | started _ hboot => exact ⟨_, le_rfl, by rw [hboot]; rfl⟩
  obtain ⟨n, hn, hfuses⟩ := hfuses
  simp only [Boot.fuses, Prod.mk.injEq] at hfuses
  obtain ⟨hkeys, hrevoked, hsvn, hhwl, hstepping, hrom⟩ := hfuses
  exact ⟨hsvn ▸ hn, hkeys, hrevoked, hhwl, hstepping, hrom⟩

end Sys2Proof.Machine
end

section
/-! PROOF. The rule of the pair, and PAIR, which evaluates it again in HELD (R475, R477). -/

namespace Sys2Proof.Machine

/-- A command whose condition holds acts. -/
theorem whenOk_of {ok : Bool} (h : ok = true) (s t : State) : whenOk ok s t = t := if_pos h

theorem sameMemory_of_eq {s t : State} (hspad : t.spad = s.spad) (hhbm : t.hbm = s.hbm) : SameMemory s t :=
  ⟨fun a => by rw [hspad], fun a => by rw [hhbm]⟩

/-! ### Commands of BOOT_CMD -/

section
variable {s : State} (hbar : s.barOn = true) (hload : s.boot.load = none)
include hbar hload

theorem whenOk_barOn_idle (t : State) : whenOk (s.barOn && s.boot.load.isNone) s t = t :=
  whenOk_of (by rw [hbar, hload]; rfl) s t

/-- A BOOT_CMD that comes while no load is in progress acts, and notes its result. -/
theorem bootCmd_of_idle (act : Boot → Boot × Nat) :
    bootCmd s act = .next { s with boot := { (act s.boot).1 with result := (act s.boot).2 } } :=
  congrArg _ (whenOk_barOn_idle hbar hload _)

end

/-! ### PAIR -/

theorem exec_pair_eq (s : State) : exec .pair s = execPair s := by rfl

/-- What an evaluation leaves of the state: its report, beside the boot state. -/
theorem State.evaluate_withBoot (s : State) {b : Boot} (h : b.hwl = s.boot.hwl) (f u : Image) :
    let e := evalPair s.boot.hwl s.levelPolicy f u
    (s.withBoot b).evaluate f u = ((s.pairTold e f u).withBoot (b.withPair e)).measure := by
  intro e
  have he : evalPair (s.withBoot b).boot.hwl (s.withBoot b).levelPolicy f u = e :=
    congrArg (evalPair · s.levelPolicy f u) h
  rw [State.evaluate_eq, he, State.pairTold_withBoot s h]
  rfl

section
variable {s : State} (hbar : s.barOn = true) (hload : s.boot.load = none)
include hbar hload

theorem exec_pair_of_held {f u : Image} (hfw : s.boot.fw = some f) (huc : s.boot.uc = some u)
    (hstage : s.boot.stage = .held) (hstart : s.boot.starting = false) :
    let e := evalPair s.boot.hwl s.levelPolicy f u
    let b : Boot := { s.boot with result := 0 }
    exec .pair s = .next (((s.pairTold e f u).withBoot (b.withPair e)).measure) := by
  intro e b
  rw [exec_pair_eq, execPair, hfw, huc]
  dsimp only
  rw [if_pos ⟨hstage, hstart⟩, whenOk_barOn_idle hbar hload,
    ← State.evaluate_withBoot s (b := b) rfl]
  rfl

theorem exec_pair_of_not_held (hstage : s.boot.stage ≠ .held) :
    exec .pair s = .next { s with boot := { s.boot with result := 8 } } := by
  rw [exec_pair_eq, execPair]
  split
  · rw [if_neg fun h => hstage h.1, bootCmd_of_idle hbar hload]
  · rw [bootCmd_of_idle hbar hload]

end

theorem Reported.pairTold (s : State) (e : PairEval) (f u : Image) : Reported s (s.pairTold e f u) :=
  .ite (.ite (report ..) (refl s)) (.ite (report ..) (report ..))

theorem Reported.rst {s t : State} (h : Reported s t) : t.rst = s.rst := by
  obtain ⟨_, _, _, _, _, _, _, rfl⟩ := h
  rfl

/-! ### The rule of R475 -/

theorem pairOnHw_iff {hwl : Nat} {f u : Image} :
    pairOnHw hwl f u ↔ f.hwMin ≤ hwl ∧ hwl ≤ f.hwMax ∧ u.hwMin ≤ hwl ∧ hwl ≤ u.hwMax := by
  rw [pairOnHw, imageOnHw_iff, imageOnHw_iff, and_assoc]

/-- HELD_REASON is one of those of R475. -/
theorem evalPair_reason_le (hwl : Nat) (policy : Bool) (f u : Image) : (evalPair hwl policy f u).reason ≤ 3 := by
  rcases evalPair_cases hwl policy f u with ⟨-, e⟩ | ⟨-, -, e⟩ | ⟨-, -, -, e⟩ | ⟨-, -, -, e⟩ <;> rw [e]
  · exact Nat.le_succ 2
  · exact Nat.zero_le 3
  · cases policy <;> exact Nat.le_of_ble_eq_true rfl

/-- What is reported, by the reason: FW_INCOMPATIBLE, FW_UNTESTED_PAIR, FW_LEVEL, or nothing. -/
theorem State.pairTold_eq (s : State) {e : PairEval} (h : e.reason ≤ 3) (f u : Image) : s.pairTold e f u =
    if e.reason = 3 ∨ e.reason = 2 then s.report 0x0704 unitMgmt (e.reason + 2 ^ 8 * s.boot.hwl)
    else if e.reason = 1 then s.report 0x0703 unitMgmt (majorMinor f.version + 2 ^ 16 * majorMinor u.version)
    else if e.levelled = true then s.report 0x0705 unitMgmt (e.level + 2 ^ 8) else s := by
  unfold State.pairTold
  obtain hr | hr | hr | hr : e.reason = 0 ∨ e.reason = 1 ∨ e.reason = 2 ∨ e.reason = 3 := by omega
  all_goals simp [hr]

/-- The reason and the level, by what the images say of hardware, levels and versions. -/
theorem evalPair_outcome (hwl : Nat) (policy : Bool) (f u : Image) :
    let e := evalPair hwl policy f u
    let lo := max f.plMin u.plMin
    let hi := min f.plMax u.plMax
    (e.reason = 3 ↔ ¬pairOnHw hwl f u) ∧ (e.reason = 2 ↔ pairOnHw hwl f u ∧ hi < lo)
      ∧ (e.reason = 1 ↔ pairOnHw hwl f u ∧ lo ≤ hi ∧ ¬pairTested f u = true ∧ policy = false)
      ∧ (e.reason = 0 ↔ pairOnHw hwl f u ∧ lo ≤ hi ∧ (pairTested f u = true ∨ policy = true))
      ∧ (e.reason = 0 → e.level = hi ∧ (e.levelled = true ↔ ¬pairTested f u = true)) := by
  intro e lo hi
  rcases evalPair_cases hwl policy f u with ⟨hhw, he⟩ | ⟨hhw, hpl, he⟩ | ⟨hhw, hpl, ht, he⟩ | ⟨hhw, hpl, ht, he⟩
  · simp [e, he, hhw]
  · simp only [e, he, hhw, lo, hi, hpl, Nat.not_le.mpr hpl]
    simp
  · simp only [e, he, hhw, lo, hi, hpl, Nat.not_lt.mpr hpl, ht]
    simp
  · cases policy <;> simp only [e, he, hhw, lo, hi, hpl, Nat.not_lt.mpr hpl, ht] <;> simp

/-- Settles O45: the cases of R475, its worked example among them, and PAIR as an evaluation in HELD. -/
theorem pairsAreEvaluated : Obligations.PairsAreEvaluated := by
  refine ⟨fun hwl policy f u => ?_, ?_, fun s f u hbar hload => ⟨fun hfw huc hstage hstart => ?_, fun hstage =>
    exec_pair_of_not_held hbar hload hstage⟩⟩
  · have h := evalPair_outcome hwl policy f u
    rwa [pairOnHw_iff, pairTested_iff] at h
  · intro f u fv fh1 fh2 fp1 fp2 ft uv uh1 uh2 up1 up2 ut
    have hhw : pairOnHw 4 f u := by simp [pairOnHw_iff, fh1, fh2, uh1, uh2]
    have hpl : max f.plMin u.plMin ≤ min f.plMax u.plMax := by simp [fp1, fp2, up1, up2]
    have hnot : ¬pairTested f u = true := by simp [pairTested_iff, ft, ut, fv, uv]
    rw [evalPair_of_untested hhw hpl hnot, evalPair_of_untested hhw hpl hnot, fp2, up2]
    exact ⟨rfl, rfl⟩
  · intro e told r
    have hr : s.pairTold e f u = r := s.pairTold_eq (evalPair_reason_le ..) f u
    have hkept := Reported.pairTold s e f u
    refine ⟨_, exec_pair_of_held hbar hload hfw huc hstage hstart, ?_⟩
    rw [← hr]
    generalize s.pairTold e f u = x at hkept
    refine ⟨rfl, rfl, rfl, rfl, ?_, rfl, rfl, rfl, hkept.rst, hkept.pitch, hkept.step,
      sameMemory_of_eq hkept.spad hkept.hbm⟩
    show (if e.reason = 0 then s.boot.stage else .held) = .held
    rw [hstage, ite_self]

end Sys2Proof.Machine
end

section
/-! PROOF. A cold boot takes the valid image of each selector or of its other slot, and FIRMWARE_START runs the pair (R472,
R475, R478). -/

namespace Sys2Proof.Machine

theorem exec_coldBoot_eq (straps : BitVec 3) (hs hn : List Byte) (s : State) :
    exec (.coldBoot straps hs hn) s = execColdBoot straps hs hn s := by rfl

/-! ### What the ROM finds -/

section
variable {s : State} {t : Nat}

/-- The ROM takes of a type the valid image of the selector's slot, or of the other one where that is not valid. -/
theorem State.romTake_of_valid {n : Nat} {i : Image} (hslot : s.boot.slot t n = some i)
    (hok : s.imageFault (t == 1) (s.boot.slot t n) = 0)
    (hn : n = s.boot.sel t ∨ n = 1 - s.boot.sel t ∧ ¬s.imageFault (t == 1) (s.boot.slot t (s.boot.sel t)) = 0) :
    s.romTake t = (some (n, i), s.imageFault (t == 1) (s.boot.slot t (s.boot.sel t))) := by
  unfold State.romTake
  extract_lets a fa
  rcases hn with rfl | ⟨rfl, hbad⟩
  · rw [if_pos hok, hslot]
    rw [hslot] at hok
    simp [a, hok]
  · rw [if_neg hbad, if_pos hok, hslot]
    rfl

theorem State.romTake_of_none (hsel : ¬s.imageFault (t == 1) (s.boot.slot t (s.boot.sel t)) = 0)
    (hother : ¬s.imageFault (t == 1) (s.boot.slot t (1 - s.boot.sel t)) = 0) :
    s.romTake t = (none, s.imageFault (t == 1) (s.boot.slot t (s.boot.sel t))) := by
  unfold State.romTake
  extract_lets a fa
  rw [if_neg hsel, if_neg hother]

/-- What the ROM takes is a matter of the fuses, the slots and the selectors. -/
theorem State.romTake_congr {v : State} (hfuses : v.boot.fuses = s.boot.fuses) (hslots : v.boot.slots = s.boot.slots)
    (hfw : v.boot.selFw = s.boot.selFw) (huc : v.boot.selUc = s.boot.selUc) (t : Nat) : v.romTake t = s.romTake t := by
  unfold State.romTake Boot.sel Boot.slot
  rw [hslots, hfw, huc]
  simp only [State.imageFault_congr hfuses]

end

/-! ### The ROM's state -/

theorem State.levelPolicy_congr {s t : State} (h : t.reg Reg.bootFwpolicy = s.reg Reg.bootFwpolicy) :
    t.levelPolicy = s.levelPolicy := by
  rw [State.levelPolicy, State.fld, h, State.levelPolicy, State.fld]

theorem State.levelPolicy_romTook (s : State) (t slot : Nat) (i : Image) (fault : Nat) :
    (s.romTook t slot i fault).levelPolicy = s.levelPolicy := by
  unfold State.romTook
  dsimp only
  split
  · rfl
  · exact State.levelPolicy_congr (State.reg_report (by decide) ..)

theorem State.levelPolicy_takeHeatsink (s : State) (b : List Byte) : (s.takeHeatsink b).levelPolicy = s.levelPolicy := by
  unfold State.takeHeatsink
  split
  · refine State.levelPolicy_congr ?_
    rw [State.setReg64, State.reg_setReg, if_neg (by decide), State.reg_setReg, if_neg (by decide),
      State.reg_setFld_of_ne _ _ _ _ _ (by decide)]
    rfl
  · exact State.levelPolicy_congr (State.reg_report (by decide) ..)

/-- At a cold boot the ROM runs with the straps as sampled, on the fuses, flash and policy as they stand. -/
theorem exec_coldBoot {s : State} (halive : s.alive = true) (hstage : s.boot.stage = .rom) (hstart : s.boot.starting = false)
    (straps : BitVec 3) (hs hn : List Byte) : ∃ v : State, exec (.coldBoot straps hs hn) s = .next v.rom
      ∧ v.boot = { s.boot with straps := straps, fuseBase := s.free } ∧ v.levelPolicy = s.levelPolicy := by
  rw [exec_coldBoot_eq, execColdBoot, whenOk_of (by rw [halive, hstage, hstart]; rfl)]
  refine ⟨_, rfl, ?_, ?_⟩
  · rw [State.takeHeatsink_boot, State.resetDone_boot, State.setReg64_boot, State.setReg_boot, State.setReg_boot]
  · rw [State.levelPolicy_takeHeatsink]
    refine State.levelPolicy_congr ?_
    show (State.setReg64 _ _ _ _).reg _ = _
    rw [State.setReg64, State.reg_setReg, if_neg (by decide), State.reg_setReg, if_neg (by decide), State.reg_setReg,
      if_neg (by decide), State.reg_setReg, if_neg (by decide)]
    rfl

/-! ### FIRMWARE_START -/

/-- The reset part of a module, and whether it is alive, are as before. -/
structure StaysOn (s t : State) : Prop where
  rst : t.rst = s.rst
  alive : t.alive = s.alive

namespace StaysOn

theorem refl (s : State) : StaysOn s s := ⟨rfl, rfl⟩

theorem trans {s t u : State} (h : StaysOn s t) (g : StaysOn t u) : StaysOn s u :=
  ⟨g.rst.trans h.rst, g.alive.trans h.alive⟩

theorem foldl {α : Type} {f : State → α → State} (hf : ∀ s a, StaysOn s (f s a)) (l : List α) (s : State) :
    StaysOn s (l.foldl f s) := l.foldlRecOn f (refl s) fun t h a _ => h.trans (hf t a)

theorem of_reported {s t : State} (h : Reported s t) : StaysOn s t := by
  obtain ⟨_, _, _, _, _, _, _, rfl⟩ := h
  exact ⟨rfl, rfl⟩

theorem of_sent {s t : State} (h : Sent s t) : StaysOn s t := by
  obtain ⟨⟨_, _, _, _, _, _, _, _, _, _, rfl⟩, -, -⟩ := h
  exact ⟨rfl, rfl⟩

theorem of_modeChanged {s t : State} (h : ModeChanged s t) : StaysOn s t := by
  obtain ⟨⟨_, _, _, _, _, _, _, _, _, _, _, _, _, _, rfl⟩, -, -⟩ := h
  exact ⟨rfl, rfl⟩

theorem setPort (s : State) (p : Nat) (q : Port) : StaysOn s (s.setPort p q) := ⟨rfl, rfl⟩

theorem enterTrain (s : State) (p : Nat) : StaysOn s (s.enterTrain p) := by
  obtain ⟨u, q, hu, hsent, -⟩ := s.portLeave_sent p .train
  exact ((of_sent hu).trans (setPort u p q)).trans ((of_sent hsent).trans ⟨rfl, rfl⟩)

theorem startShed (s : State) (input : Bool) : StaysOn s (s.startShed input) := by
  by_cases h : s.pwr.shed = true
  · rw [State.startShed_of_shed h]
    exact ⟨rfl, rfl⟩
  · rw [State.startShed_of_not_shed (eq_false_of_ne_true h)]
    have hbegun : StaysOn s ((s.shedBegun input).bump Reg.pwrSheds) := ⟨rfl, rfl⟩
    exact hbegun.trans (of_modeChanged (.settleMode ..))

theorem startWork (s : State) : StaysOn s s.startWork := by
  unfold State.startWork
  extract_lets s1
  have hports : StaysOn s s1 := foldl (fun t p => iteInduction (fun _ => enterTrain t p) (fun _ => refl t)) _ s
  split
  · exact hports.trans (startShed ..)
  · split
    · exact hports.trans (startShed ..)
    · exact hports

end StaysOn

theorem exec_firmwareStart_eq (s : State) : exec .firmwareStart s = execFirmwareStart s := by rfl

/-- The firmware of a pair that runs starts, and the module runs. -/
theorem exec_firmwareStart {s : State} (halive : s.alive = true) (hstart : s.boot.starting = true)
    (hbusy : s.rst.busy = false) : ∃ t, exec .firmwareStart s = .next t
      ∧ t.boot = { s.boot with stage := .running, starting := false } ∧ t.up = true := by
  rw [exec_firmwareStart_eq, execFirmwareStart, whenOk_of (by rw [halive, hstart, hbusy]; rfl)]
  extract_lets b s1
  have hon : StaysOn s1 _ := (StaysOn.of_reported (.report s1 0x0701 unitMgmt
    (b.level % 2 ^ 8 + 2 ^ 8 * b.fwSlot + 2 ^ 9 * b.ucSlot + 2 ^ 10 * b2n b.levelled))).trans (.startWork _)
  refine ⟨_, rfl, by rw [State.startWork_boot, State.report_boot], ?_⟩
  rw [State.up, hon.alive, hon.rst, State.startWork_boot, State.report_boot]
  show (s.alive && true && !s.rst.busy) = true
  rw [halive, hbusy]
  rfl

/-- Settles O44: what the ROM takes decides between RECOVERY and an evaluation of the pair. -/
theorem coldBootTakesValidImages : Obligations.ColdBootTakesValidImages := by
  intro s straps hs hn f u halive hstage hstart ok boots
  obtain ⟨v, hexec, hboot, hpolicy⟩ := exec_coldBoot halive hstage hstart straps hs hn
  have htake : ∀ t, v.romTake t = s.romTake t :=
    State.romTake_congr (by rw [hboot]; rfl) (by rw [hboot]) (by rw [hboot]) (by rw [hboot])
  have htake2 : ∀ a i fa t, (v.romTook 0 a i fa).romTake t = s.romTake t := fun a i fa =>
    State.romTake_congr (by rw [State.romTook_fw, hboot]; rfl) (by rw [State.romTook_fw, hboot])
      (by rw [State.romTook_fw, hboot]) (by rw [State.romTook_fw, hboot])
  refine ⟨fun hsel hother => ⟨_, hexec, ?_⟩, fun hsel hslot huc huc' => ⟨_, hexec, ?_⟩,
    fun a b ha hb hoka hokb hsela hselb => ?_, fun v hv hst hbusy => exec_firmwareStart hv hst hbusy⟩
  · rw [State.rom_of_no_fw ((htake 0).trans (State.romTake_of_none hsel hother))]
    exact ⟨by show v.boot.straps = _; rw [hboot], rfl, rfl, by show v.boot.fw = _; rw [hboot]⟩
  · rw [State.rom_of_no_uc ((htake 0).trans (State.romTake_of_valid hslot hsel (.inl rfl)))
      ((htake2 _ _ _ 1).trans (State.romTake_of_none huc huc'))]
    refine ⟨?_, rfl, rfl, ?_⟩
    · show (v.romTook ..).boot.straps = _
      rw [State.romTook_fw, hboot]
    · show (v.romTook ..).boot.fw = _
      rw [State.romTook_fw]
  · intro e
    obtain ⟨ff, hff, hbadf⟩ : ∃ ff, s.romTake 0 = (some (a, f), ff) ∧ (¬ok 0 s.boot.selFw → ff ≠ 0) :=
      ⟨_, State.romTake_of_valid ha hoka hsela, id⟩
    obtain ⟨fu, hfu, hbadu⟩ : ∃ fu, s.romTake 1 = (some (b, u), fu) ∧ (¬ok 1 s.boot.selUc → fu ≠ 0) :=
      ⟨_, State.romTake_of_valid hb hokb hselb, id⟩
    refine ⟨_, hexec, ?_⟩
    rw [State.rom_of_both ((htake 0).trans hff) ((htake2 a f ff 1).trans hfu), State.evaluate_eq,
      State.levelPolicy_romTook, State.levelPolicy_romTook, hpolicy, State.romTook_uc, State.romTook_fw, hboot]
    generalize State.pairTold _ _ _ _ = x
    refine ⟨rfl, rfl, rfl, rfl, rfl, rfl, rfl, rfl, beq_iff_eq.mpr, fun hr => ⟨if_neg hr, beq_eq_false_iff_ne.mpr hr⟩,
      fun hbad => ?_⟩
    show (s.boot.fallback || ff != 0 || fu != 0) = true
    rcases hbad with hbad | hbad
    · simp [hbadf hbad]
    · simp [hbadu hbad]

end Sys2Proof.Machine
end

section
/-! PROOF. The checks of an image in their order, loads into the slot not selected, and ACTIVATE (R471, R479, R480, R482). -/

namespace Sys2Proof.Machine

/-- The first check that fails gives the result. -/
theorem State.imageFault_order (s : State) (uc : Bool) (i : Image) :
    let r := s.imageFault uc (some i)
    (r = 2 ↔ ¬HeaderOk uc i) ∧ (HeaderOk uc i → ¬s.boot.KeyOk i → r = 4)
      ∧ (HeaderOk uc i → s.boot.KeyOk i → i.sigOk = false → r = 3)
      ∧ (HeaderOk uc i → s.boot.KeyOk i → i.sigOk = true → i.svn < s.boot.fuseSvn → r = 5)
      ∧ (HeaderOk uc i → s.boot.KeyOk i → i.sigOk = true → s.boot.fuseSvn ≤ i.svn → i.hashOk = false → r = 6) := by
  intro r
  have hr : r = _ := s.imageFault_some uc i
  refine ⟨?_, fun h1 h2 => ?_, fun h1 h2 h3 => ?_, fun h1 h2 h3 h4 => ?_, fun h1 h2 h3 h4 h5 => ?_⟩
  · rw [hr]
    refine ⟨fun h h1 => ?_, fun h1 => if_pos h1⟩
    rw [if_neg (not_not.mpr h1)] at h
    split_ifs at h <;> exact absurd h (by decide)
  · rw [hr, if_neg (not_not.mpr h1), if_pos h2]
  · rw [hr, if_neg (not_not.mpr h1), if_neg (not_not.mpr h2), if_pos h3]
  · rw [hr, if_neg (not_not.mpr h1), if_neg (not_not.mpr h2), h3, if_neg Bool.noConfusion, if_pos h4]
  · rw [hr, if_neg (not_not.mpr h1), if_neg (not_not.mpr h2), h3, if_neg Bool.noConfusion, if_neg (Nat.not_lt.mpr h4),
      if_pos h5]

/-! ### Loads -/

theorem exec_loadFw_eq (s : State) : exec .loadFw s = execLoadFw s := by rfl

theorem exec_loadUc_eq (s : State) : exec .loadUc s = execLoadUc s := by rfl

theorem exec_loadComplete_eq (img : Option Image) (flashOk : Bool) (s : State) :
    exec (.loadComplete img flashOk) s = execLoadComplete img flashOk s := by rfl

/-- The command that loads an image of a type. -/
theorem exec_load (s : State) {x : Instr × Bool} (hx : x ∈ [(Instr.loadFw, false), (.loadUc, true)]) :
    exec x.1 s = .next (whenOk (s.barOn && s.boot.load.isNone) s (s.startLoad x.2)) := by
  simp only [List.mem_cons, List.not_mem_nil, or_false] at hx
  rcases hx with rfl | rfl
  · exact exec_loadFw_eq s
  · exact exec_loadUc_eq s

section
variable {s : State} {uc : Bool} {i : Image}

/-- The end of a load notes its result, and reports. -/
theorem State.loadDone_boot (s : State) (uc : Bool) (result : Nat) (p : Bool × Bool × Nat) : (s.loadDone uc result p).boot =
    { s.boot with load := none, result := result, pairTested := p.1, pairOk := p.2.1, pairLevel := p.2.2 } :=
  State.report_boot ..

theorem State.takeLoad_none (flashOk : Bool) : s.takeLoad uc none flashOk = s.loadDone uc 1 (false, false, 0) := rfl

theorem State.takeLoad_fault (h : s.imageFault uc (some i) ≠ 0) (flashOk : Bool) :
    s.takeLoad uc (some i) flashOk = s.loadDone uc (s.imageFault uc (some i)) (false, false, 0) := if_pos h

/-- A valid image goes to the slot that the selector does not name. -/
theorem State.takeLoad_valid (h : s.imageFault uc (some i) = 0) : (s.takeLoad uc (some i) true).boot =
    { s.boot.setSlot (b2n uc) (1 - s.boot.sel (b2n uc)) (some i) with
      loadedFw := if uc then s.boot.loadedFw else some (1 - s.boot.sel (b2n uc)),
      loadedUc := if uc then some (1 - s.boot.sel (b2n uc)) else s.boot.loadedUc,
      load := none, result := 0, pairTested := (s.pairPreview uc i).1, pairOk := (s.pairPreview uc i).2.1,
      pairLevel := (s.pairPreview uc i).2.2 } := by
  rw [State.takeLoad]
  dsimp only
  rw [if_neg (not_not.mpr h), if_pos rfl, State.loadDone_boot]
  cases uc <;> rfl

/-- Where the flash write fails, that slot is left not valid. -/
theorem State.takeLoad_unwritten (h : s.imageFault uc (some i) = 0) : (s.takeLoad uc (some i) false).boot =
    { s.boot.setSlot (b2n uc) (1 - s.boot.sel (b2n uc)) none with
      load := none, result := 9, pairTested := (s.pairPreview uc i).1, pairOk := (s.pairPreview uc i).2.1,
      pairLevel := (s.pairPreview uc i).2.2 } := by
  rw [State.takeLoad]
  dsimp only
  rw [if_neg (not_not.mpr h), if_neg Bool.false_ne_true, State.loadDone_boot]

theorem exec_loadComplete (hbar : s.barOn = true) (hload : s.boot.load = some ⟨uc⟩) (hreset : s.boot.resetAfterLoad = false)
    (img : Option Image) (flashOk : Bool) :
    exec (.loadComplete img flashOk) s = .next (s.takeLoad uc img flashOk) := by
  rw [exec_loadComplete_eq, execLoadComplete, hload]
  dsimp only
  rw [whenOk_of hbar, hreset, if_neg Bool.false_ne_true]

end

/-! ### ACTIVATE -/

theorem exec_activateFw_eq (s : State) : exec .activateFw s = execActivateFw s := by rfl

theorem exec_activateUc_eq (s : State) : exec .activateUc s = execActivateUc s := by rfl

section
variable {s : State} (hbar : s.barOn = true) (hload : s.boot.load = none)
include hbar hload

/-- ACTIVATE_FW selects the slot of the last load since the cold reset, if there was one. -/
theorem exec_activateFw {n : Nat} (hn : s.boot.loadedFw = some n) :
    exec .activateFw s = .next (s.withBoot { s.boot with selFw := n, result := 0 }) := by
  rw [exec_activateFw_eq, execActivateFw, bootCmd_of_idle hbar hload]
  dsimp only [State.withBoot]
  rw [hn]

theorem exec_activateFw_none (hn : s.boot.loadedFw = none) :
    exec .activateFw s = .next (s.withBoot { s.boot with result := 7 }) := by
  rw [exec_activateFw_eq, execActivateFw, bootCmd_of_idle hbar hload, hn]
  rfl

theorem exec_activateUc {n : Nat} (hn : s.boot.loadedUc = some n) :
    exec .activateUc s = .next (s.withBoot { s.boot with selUc := n, result := 0 }) := by
  rw [exec_activateUc_eq, execActivateUc, bootCmd_of_idle hbar hload]
  dsimp only [State.withBoot]
  rw [hn]

theorem exec_activateUc_none (hn : s.boot.loadedUc = none) :
    exec .activateUc s = .next (s.withBoot { s.boot with result := 7 }) := by
  rw [exec_activateUc_eq, execActivateUc, bootCmd_of_idle hbar hload, hn]
  rfl

end

/-- Settles O46: the order of the checks, and each command by its condition and the check of the image. -/
theorem imagesAreLoadedAndActivated : Obligations.ImagesAreLoadedAndActivated := by
  refine ⟨fun s uc i => ?_, fun s hbar => ⟨fun x hx => ⟨fun hload => ?_, fun hload => ?_⟩,
    fun uc i hload hreset => ?_, fun hload => ⟨fun n hn => ?_, fun n hn => ?_, fun hn => ?_, fun hn => ?_⟩⟩⟩
  · obtain ⟨hheader, hkey, hsig, hsvn, hhash⟩ := s.imageFault_order uc i
    exact ⟨hheader, hkey, hsig, hsvn, hhash, State.imageFault_eq_zero⟩
  · rw [exec_load s hx, whenOk_barOn_idle hbar hload, State.startLoad]
  · obtain ⟨l, hl⟩ := Option.ne_none_iff_exists'.mp hload
    rw [exec_load s hx, hl, Option.isNone_some, Bool.and_false, whenOk_false]
  · have hexec := exec_loadComplete hbar hload hreset
    refine ⟨fun hr => ⟨_, hexec _ _, ?_⟩, fun hr ok => ⟨_, hexec _ _, ?_⟩, fun ok => ⟨_, hexec _ _, ?_⟩,
      fun hr => ⟨_, hexec _ _, ?_⟩⟩
    · rw [State.takeLoad_valid hr]
      exact ⟨rfl, rfl, rfl, by cases uc <;> rfl, rfl, rfl⟩
    · rw [State.takeLoad_fault hr, State.loadDone_boot]
      exact ⟨rfl, rfl, rfl⟩
    · rw [State.takeLoad_none, State.loadDone_boot]
      exact ⟨rfl, rfl, rfl⟩
    · rw [State.takeLoad_unwritten hr]
      exact ⟨rfl, rfl⟩
  · exact exec_activateFw hbar hload hn
  · exact exec_activateUc hbar hload hn
  · exact exec_activateFw_none hbar hload hn
  · exact exec_activateUc_none hbar hload hn

end Sys2Proof.Machine
end

section
/-! PROOF. COMMIT_SVN, PERSIST_POLICY and COLD_RESET (R480, R481). -/

namespace Sys2Proof.Machine

theorem exec_commitSvn_eq (ok : Bool) (s : State) : exec (.commitSvn ok) s = execCommitSvn ok s := by rfl

theorem exec_persistPolicy_eq (ok : Bool) (s : State) : exec (.persistPolicy ok) s = execPersistPolicy ok s := by rfl

theorem exec_coldReset_eq (s : State) : exec .coldReset s = execColdReset s := by rfl

section
variable {s : State} (hbar : s.barOn = true)
include hbar

/-- COLD_RESET acts at once, or waits for the load in progress. -/
theorem exec_coldReset : exec .coldReset s = .next
    (if s.boot.load.isSome then { s with boot := { s.boot with resetAfterLoad := true } } else s.coldReset 5) := by
  rw [exec_coldReset_eq, execColdReset, whenOk_of hbar]

variable (hload : s.boot.load = none)
include hload

theorem exec_commitSvn_of_running (hrun : s.boot.stage = .running) : exec (.commitSvn true) s = .next { s with boot :=
    { s.boot with fuseSvn := max s.boot.fuseSvn (min (s.boot.fw.elim 0 (·.svn)) (s.boot.uc.elim 0 (·.svn))), result := 0 } } := by
  rw [exec_commitSvn_eq, execCommitSvn, bootCmd_of_idle hbar hload, if_neg (not_not.mpr hrun), if_neg Bool.noConfusion]

/-- Outside RUNNING a commit is not allowed, and where the fuses cannot be written it fails. -/
theorem exec_commitSvn_refused (ok : Bool) (h : s.boot.stage ≠ .running ∨ ok = false) : exec (.commitSvn ok) s =
    .next { s with boot := { s.boot with result := if s.boot.stage ≠ .running then 8 else 9 } } := by
  rw [exec_commitSvn_eq, execCommitSvn, bootCmd_of_idle hbar hload]
  by_cases hrun : s.boot.stage = .running
  · rw [if_neg (not_not.mpr hrun), if_pos (h.resolve_left (not_not.mpr hrun)), if_neg (not_not.mpr hrun)]
  · rw [if_pos hrun, if_pos hrun]

theorem exec_persistPolicy_stored (hstage : s.boot.stage ≠ .recovery) : exec (.persistPolicy true) s =
    .next { s with boot := { s.boot with policy := s.levelPolicy, result := 0 } } := by
  rw [exec_persistPolicy_eq, execPersistPolicy, bootCmd_of_idle hbar hload, if_neg hstage, if_neg Bool.noConfusion]

theorem exec_persistPolicy_refused (ok : Bool) (h : s.boot.stage = .recovery ∨ ok = false) : exec (.persistPolicy ok) s =
    .next { s with boot := { s.boot with result := if s.boot.stage = .recovery then 8 else 9 } } := by
  rw [exec_persistPolicy_eq, execPersistPolicy, bootCmd_of_idle hbar hload]
  by_cases hrec : s.boot.stage = .recovery
  · rw [if_pos hrec, if_pos hrec]
  · rw [if_neg hrec, if_pos (h.resolve_left hrec), if_neg hrec]

end

/-- Settles O47: each command by the stage, by whether its write succeeds, and by whether a load is in progress. -/
theorem fusesPolicyAndColdReset : Obligations.FusesPolicyAndColdReset := by
  intro s hbar with_
  refine ⟨fun hload => ⟨fun f u hrun hfw huc => ?_, fun hstage ok => ?_, fun hrun => ?_, fun hstage => ⟨?_, ?_⟩,
    fun hrec ok => ?_, s.coldReset 5, ?_, rfl, rfl, rfl, rfl, rfl, rfl, rfl, rfl, s.cleared_policy⟩, fun hload => ?_⟩
  · rw [exec_commitSvn_of_running hbar hload hrun, hfw, huc]
    rfl
  · rw [exec_commitSvn_refused hbar hload ok (.inl hstage), if_pos hstage]
  · rw [exec_commitSvn_refused hbar hload false (.inr rfl), if_neg (not_not.mpr hrun)]
  · exact exec_persistPolicy_stored hbar hload hstage
  · rw [exec_persistPolicy_refused hbar hload false (.inr rfl), if_neg hstage]
  · rw [exec_persistPolicy_refused hbar hload ok (.inl hrec), if_pos hrec]
  · rw [exec_coldReset hbar, hload]
    rfl
  · rw [exec_coldReset hbar, if_pos (Option.isSome_iff_ne_none.mpr hload)]

end Sys2Proof.Machine
end

section
/-! PROOF. The registers, the boot state and the records that a warm reset leaves (R498 to R500). -/

namespace Sys2Proof.Machine

/-! ### Tables rewritten entry by entry -/

/-- A key that a table does not list holds the default. -/
theorem tabGet_of_not_mem {V : Type} (d : Nat → V) (k : Nat) : ∀ (m : List (Nat × V)), k ∉ m.map (·.1) → tabGet d m k = d k
  | [], _ => rfl
  | (j, v) :: m, h => by
    rw [List.map_cons, List.mem_cons, not_or] at h
    rw [tabGet, if_neg h.1, tabGet_of_not_mem d k m h.2]

/-- What a table with every entry rewritten holds. -/
theorem tabGet_foldr_tabSet {V : Type} [DecidableEq V] (d : Nat → V) (g : Nat → V → V) (m : List (Nat × V)) (k : Nat) :
    tabGet d (m.foldr (fun p t => tabSet d t p.1 (g p.1 p.2)) []) k
      = if k ∈ m.map (·.1) then g k (tabGet d m k) else tabGet d m k := by
  induction m with
  | nil => rfl
  | cons p m ih =>
    obtain ⟨j, v⟩ := p
    rw [List.foldr_cons, tabGet_tabSet, ih]
    by_cases h : k = j
    · simp [tabGet, h]
    · rw [if_neg h, tabGet, if_neg h]
      exact if_congr (by simp [h]) rfl rfl

/-! ### Registers -/

theorem State.reg_of_warmRegs {s t : State} (h : t.regs = warmRegs s.regs) (off : Nat) :
    t.reg off = if off ∈ s.regs.map (·.1) then warmWord off (s.reg off) else s.reg off := by
  rw [State.reg, h]
  exact tabGet_foldr_tabSet resetWord warmWord s.regs off

theorem fieldsAt_fabAddr : fieldsAt Reg.fabAddr
    = [⟨0, 17, .rws, 0, 0, 131071, false, false⟩, ⟨31, 1, .rws, 0, 0, 1, false, false⟩] := by decide +kernel

theorem fieldsAt_modWarmResets : fieldsAt Reg.modWarmResets = [⟨0, 32, .rws, 0, 0, 4294967295, false, true⟩] := by
  decide +kernel

theorem warmWord_fabCtrl (w : W32) : warmWord Reg.fabCtrl w = resetWord Reg.fabCtrl := by
  have h : fieldsAt Reg.fabCtrl = [⟨0, 1, .rw, 0, 0, 1, false, false⟩, ⟨1, 1, .rw, 1, 0, 1, false, false⟩,
    ⟨8, 6, .rw, 32, 1, 63, false, false⟩] := by decide +kernel
  rw [warmWord, if_neg (by decide), h, resetWord, h]
  rfl

theorem warmWord_modEpoch (w : W32) : warmWord Reg.modEpoch w = 0 := by
  have h : fieldsAt Reg.modEpoch = [⟨0, 32, .rw, 0, 0, 4294967295, true, false⟩] := by decide +kernel
  rw [warmWord, if_neg (by decide), h]
  rfl

theorem warmWord_modWarmResets (w : W32) : warmWord Reg.modWarmResets w = w := by
  rw [warmWord, if_neg (by decide), fieldsAt_modWarmResets]
  refine BitVec.eq_of_toNat_eq ?_
  simp only [List.map_cons, List.map_nil, warmField, if_true, sumNat, List.foldl_cons, List.foldl_nil, BitVec.toNat_ofNat]
  omega

/-- An RWS field is kept. -/
theorem warmField_rws (w lo width r a b : Nat) (own count : Bool) :
    warmField w ⟨lo, width, .rws, r, a, b, own, count⟩ = w / 2 ^ lo % 2 ^ width * 2 ^ lo := if_pos rfl

/-- The address of the module is kept. -/
theorem warmWord_fabAddr (w : W32) : (warmWord Reg.fabAddr w).toNat
    = w.toNat % 2 ^ 17 + w.toNat / 2 ^ 31 % 2 ^ 1 * 2 ^ 31 := by
  have hsum : ∀ a b : Nat, sumNat [a, b] = a + b := fun a b => congrArg (· + b) (Nat.zero_add a)
  rw [warmWord, if_neg (by decide), fieldsAt_fabAddr, List.map_cons, List.map_cons, List.map_nil, hsum, warmField_rws,
    warmField_rws, BitVec.toNat_ofNat]
  omega

/-! ### The start of a warm reset -/

/-- The boot state after a warm reset has neither load nor session. -/
theorem Boot.warm_eq (b : Boot) : b.warm = { b with
    slots := b.dropLoad.slots, load := none, resetAfterLoad := b.dropLoad.resetAfterLoad, sessions := [] } := by
  unfold Boot.warm Boot.dropLoad
  split
  · next h => dsimp only; rw [h]
  · rfl

section
variable {s : State}

/-- Where the registers of every stage after the ROM are served, no warm reset is in progress. -/
theorem State.barOn_parts (hbar : s.barOn = true) : s.rst.busy = false ∧ s.boot.stage ≠ .rom := by
  simp only [State.barOn, Bool.and_eq_true, Bool.not_eq_true', bne_iff_ne] at hbar
  obtain ⟨⟨-, hbusy⟩, hrom⟩ := hbar
  exact ⟨hbusy, hrom⟩

variable (cause : Nat)

/-- A warm reset that comes while BUSY, or before the ROM has ended, is ignored. -/
theorem State.warmReset_ignored (h : s.rst.busy = true ∨ s.boot.stage = .rom) : s.warmReset cause = s := if_pos h

variable (hbusy : s.rst.busy = false)
include hbusy

theorem State.warmReset_of_running (hrun : s.boot.stage = .running) : s.warmReset cause =
    State.bump { s.warmAll with rst := { cause := cause, stepLost := s.stepping, busy := true } } Reg.modWarmResets := by
  rw [State.warmReset, if_neg (by simp [hbusy, hrun]), if_pos hrun]

theorem State.warmReset_of_held (hrom : s.boot.stage ≠ .rom) (hrun : s.boot.stage ≠ .running) : s.warmReset cause =
    State.bump { s.warmHeld with rst := { cause := cause, stepLost := s.stepping, busy := true } } Reg.modWarmResets := by
  rw [State.warmReset, if_neg (by simp [hbusy, hrom]), if_neg hrun]

end

/-- The registers after a warm reset in RUNNING: those of the table, beside the level policy and the count of resets. -/
theorem State.reg_warmReset {s : State} (cause : Nat) (hbusy : s.rst.busy = false) (hrun : s.boot.stage = .running) {off : Nat}
    (hcount : off ≠ Reg.modWarmResets) (hpolicy : off ≠ Reg.bootFwpolicy) :
    (s.warmReset cause).reg off = if off ∈ s.regs.map (·.1) then warmWord off (s.reg off) else s.reg off := by
  rw [State.warmReset_of_running cause hbusy hrun, State.reg_bump_of_ne _ _ hcount]
  show s.warmAll.reg off = _
  rw [State.warmAll, State.reg_setFld_of_ne _ _ _ _ _ hpolicy]
  exact State.reg_of_warmRegs (s := s) rfl off

/-- A warm reset in RUNNING counts itself. -/
theorem State.reg_warmReset_count {s : State} (cause : Nat) (hbusy : s.rst.busy = false) (hrun : s.boot.stage = .running) :
    ((s.warmReset cause).reg Reg.modWarmResets).toNat = min ((s.reg Reg.modWarmResets).toNat + 1) 0xFFFFFFFF := by
  rw [State.warmReset_of_running cause hbusy hrun, State.toNat_reg_bump]
  have hkept : State.reg { s.warmAll with rst := ⟨cause, s.stepping, true⟩ } Reg.modWarmResets = s.reg Reg.modWarmResets := by
    show s.warmAll.reg _ = _
    rw [State.warmAll, State.reg_setFld_of_ne _ _ _ _ _ (by decide), State.reg_of_warmRegs (s := s) rfl,
      warmWord_modWarmResets, ite_self]
  rw [hkept]

/-- The address of the module outlives a warm reset. -/
theorem State.fld_warmReset_fabAddr {s : State} (cause : Nat) (hbusy : s.rst.busy = false)
    (hrun : s.boot.stage = .running) : (s.warmReset cause).fld Reg.fabAddr 0 17 = s.fld Reg.fabAddr 0 17
      ∧ (s.warmReset cause).fld Reg.fabAddr 31 1 = s.fld Reg.fabAddr 31 1 := by
  have hw := (s.reg Reg.fabAddr).isLt
  unfold State.fld
  rw [State.reg_warmReset cause hbusy hrun (by decide) (by decide)]
  split
  · rw [warmWord_fabAddr]
    omega
  · exact ⟨rfl, rfl⟩

/-- A register whose fields are all reset is at its reset value. -/
theorem State.reg_warmReset_of_reset {s : State} (cause : Nat) (hbusy : s.rst.busy = false) (hrun : s.boot.stage = .running)
    {off : Nat} (hcount : off ≠ Reg.modWarmResets) (hpolicy : off ≠ Reg.bootFwpolicy)
    (hw : ∀ w, warmWord off w = resetWord off) : (s.warmReset cause).reg off = resetWord off := by
  rw [State.reg_warmReset cause hbusy hrun hcount hpolicy]
  split
  · exact hw _
  · exact tabGet_of_not_mem resetWord off s.regs ‹_›

/-! ### Its end -/

theorem exec_warmReset_eq (s : State) : exec .warmReset s = execWarmReset s := by rfl

theorem exec_warmReset_of_barOn {s : State} (hbar : s.barOn = true) : exec .warmReset s = .next (s.warmReset 1) := by
  rw [exec_warmReset_eq, execWarmReset, whenOk_of hbar]

theorem exec_warmReset_of_busy {s : State} (hbusy : s.rst.busy = true) : exec .warmReset s = .next s := by
  rw [exec_warmReset_eq, execWarmReset, State.barOn, hbusy, Bool.not_true, Bool.and_false, Bool.false_and, whenOk_false]

theorem exec_warmResetComplete_eq (s : State) : exec .warmResetComplete s = execWarmResetComplete s := by rfl

/-- BUSY clears, and RESET_DONE is the first record. -/
theorem exec_warmResetComplete {s : State} (halive : s.alive = true) (hbusy : s.rst.busy = true) :
    let u := ({ s with rst := { s.rst with busy := false } } : State).resetDone
    exec .warmResetComplete s = .next (if s.boot.stage = .running then u.startWork else u) := by
  rw [exec_warmResetComplete_eq, execWarmResetComplete, whenOk_of (by rw [halive, hbusy]; rfl)]
  rfl

/-- Settles O48: the registers entry by entry, the rest of the state as the warm reset of the stage leaves it. -/
theorem warmResetKeepsWhatItMust : Obligations.WarmResetKeepsWhatItMust := by
  intro s
  refine ⟨fun hbar hrun => ⟨_, exec_warmReset_of_barOn hbar, ?_⟩, fun hbar hrun => ⟨_, exec_warmReset_of_barOn hbar, ?_⟩,
    exec_warmReset_of_busy, fun halive hbusy => ⟨_, exec_warmResetComplete halive hbusy, ?_⟩⟩
  · obtain ⟨hbusy, -⟩ := State.barOn_parts hbar
    obtain ⟨haddr, hvalid⟩ := State.fld_warmReset_fabAddr 1 hbusy hrun
    have hcount := State.reg_warmReset_count 1 hbusy hrun
    have hctrl := State.reg_warmReset_of_reset 1 hbusy hrun (off := Reg.fabCtrl) (by decide) (by decide) warmWord_fabCtrl
    have hepoch := State.reg_warmReset_of_reset 1 hbusy hrun (off := Reg.modEpoch) (by decide) (by decide) warmWord_modEpoch
    have hregs := fun off => State.reg_warmReset 1 hbusy hrun (off := off)
    have hboot : (s.warmReset 1).boot = s.boot.warm := by
      rw [State.warmReset_of_running 1 hbusy hrun, State.bump_boot]
      rfl
    rw [hboot, Boot.warm_eq]
    refine ⟨?_, ?_, ?_, hrun, rfl, rfl, rfl, rfl, rfl, ?_, ?_, ?_, ?_, ?_, hepoch, ?_, haddr, hvalid, hctrl, hregs, hcount⟩
    all_goals rw [State.warmReset_of_running 1 hbusy hrun]; rfl
  · obtain ⟨hbusy, hrom⟩ := State.barOn_parts hbar
    rw [State.warmReset_of_held 1 hbusy hrom hrun]
    refine ⟨rfl, ?_, rfl, rfl, rfl⟩
    rw [State.bump_boot]
    show s.boot.warm.stage = _
    rw [Boot.warm_eq]
  · split
    · next hrun =>
      have hon := StaysOn.startWork ({ s with rst := { s.rst with busy := false } } : State).resetDone
      exact ⟨hon.rst, State.startWork_boot _, fun h => absurd hrun h⟩
    · exact ⟨rfl, rfl, fun _ => ⟨_, rfl, rfl, rfl⟩⟩

end Sys2Proof.Machine
end

section
/-! PROOF. The reset pin, and the loss of the reference clock (R498, R507, R508). -/

namespace Sys2Proof.Machine

theorem exec_rstNAssert_eq (ns : Nat) (s : State) : exec (.rstNAssert ns) s = execRstNAssert ns s := by rfl

theorem exec_rstNRelease_eq (s : State) : exec .rstNRelease s = execRstNRelease s := by rfl

theorem exec_refclkLoss_eq (s : State) : exec .refclkLoss s = execRefclkLoss s := by rfl

/-- An assertion of RST_N acts by its length. -/
theorem exec_rstNAssert {s : State} (hoff : s.pwr.off = false) (hlow : s.pwr.rstLow = false) (ns : Nat) :
    exec (.rstNAssert ns) s = .next
      (if 100000 ≤ ns then s.pinReset else if ns < 1000 then s
       else if Config.freeBool s.free then State.pinReset { s with free := s.free + 1 } else { s with free := s.free + 1 }) := by
  rw [exec_rstNAssert_eq, execRstNAssert, whenOk_of (by rw [hoff, hlow]; rfl)]

/-- The reset of the pin: the module stays in it until the pin is released. -/
theorem State.pinReset_parts (s : State) : s.pinReset.pwr.rstLow = true ∧ s.pinReset.alive = false
    ∧ s.pinReset.boot = s.boot.kept ∧ s.pinReset.hbm = [] ∧ s.pinReset.pitch = 0
    ∧ s.pinReset.rst.cause = if s.rst.cause = 4 ∧ s.boot.stage = .rom ∧ s.boot.starting = false then 4 else 6 := by
  refine ⟨rfl, ?_, rfl, rfl, rfl, ?_⟩
  · rw [State.alive]
    exact Bool.and_false _
  · show (if (s.rst.cause == 4 && s.boot.stage == .rom && !s.boot.starting) = true then 4 else 6) = _
    simp only [Bool.and_eq_true, beq_iff_eq, Bool.not_eq_true', and_assoc]

/-- Settles O49: the length of the pulse decides, or between the bounds the value that the model leaves free. -/
theorem resetPinAndClock : Obligations.ResetPinAndClock := by
  intro s hoff hlow reset
  have hreset : reset s.pinReset := s.pinReset_parts
  refine ⟨fun ns => ⟨fun h => ⟨_, exec_rstNAssert hoff hlow ns, ?_⟩, fun h => ?_, _, exec_rstNAssert hoff hlow ns, ?_⟩,
    fun v hv => ?_, fun hclock => ?_⟩
  · rwa [if_pos h]
  · rw [exec_rstNAssert hoff hlow, if_neg (by omega), if_pos h]
  · split
    · exact .inl hreset
    · split
      · exact .inr rfl
      · split
        · exact .inl (State.pinReset_parts { s with free := s.free + 1 })
        · exact .inr rfl
  · rw [exec_rstNRelease_eq, execRstNRelease, whenOk_of hv]
  · rw [exec_refclkLoss_eq, execRefclkLoss, whenOk_of (by rw [State.alive, hoff, hlow, hclock]; rfl)]
    refine ⟨_, rfl, rfl, ?_, rfl, rfl, rfl, sameMemory_of_eq rfl rfl⟩
    rw [State.alive, hoff]
    rfl

end Sys2Proof.Machine
end

section
/-! PROOF. FREEZE and CLEAR_ALL (R496). -/

namespace Sys2Proof.Machine

theorem exec_freeze_eq (on : Bool) (s : State) : exec (.freeze on) s = execFreeze on s := by rfl

theorem exec_clearAll_eq (s : State) : exec .clearAll s = execClearAll s := by rfl

/-! ### A register with its counts cleared -/

/-- A field that CLEAR_ALL clears. -/
def FieldRow.cleared (f : FieldRow) : Bool := f.acc == .rw && f.count

theorem FieldRow.cleared_iff {f : FieldRow} : f.cleared = true ↔ f.acc = .rw ∧ f.count = true := by
  simp [FieldRow.cleared]

/-- Does a field hold a bit? -/
def FieldRow.holds (f : FieldRow) (i : Nat) : Bool := decide (f.lo ≤ i) && decide (i < f.lo + f.width)

theorem FieldRow.holds_iff {f : FieldRow} {i : Nat} : f.holds i = true ↔ f.lo ≤ i ∧ i < f.lo + f.width := by
  simp [FieldRow.holds]

/-- The bits of a word with one field cleared. -/
theorem getLsbD_clearField (w : W32) (f : FieldRow) (i : Nat) :
    (BitVec.ofNat 32 (putField w.toNat f.lo f.width 0)).getLsbD i = (w.getLsbD i && !f.holds i) := by
  rw [BitVec.getLsbD_ofNat, testBit_putField]
  by_cases hi : f.holds i = true
  · rw [if_pos (FieldRow.holds_iff.mp hi), hi, Nat.zero_testBit, Bool.and_false, Bool.not_true, Bool.and_false]
  · rw [if_neg (mt FieldRow.holds_iff.mpr hi), eq_false_of_ne_true hi, Bool.not_false, Bool.and_true]
    by_cases h32 : i < 32
    · rw [decide_eq_true h32, Bool.true_and]
      rfl
    · rw [decide_eq_false h32, Bool.false_and, BitVec.getLsbD_of_ge _ _ (Nat.not_lt.mp h32)]

/-- The bits of a word whose counts are cleared: those of no such field. -/
theorem getLsbD_clearedWord (off : Nat) (w : W32) (i : Nat) :
    (clearedWord off w).getLsbD i = (w.getLsbD i && (fieldsAt off).all fun f => !(f.cleared && f.holds i)) := by
  unfold clearedWord
  generalize fieldsAt off = l
  induction l generalizing w with
  | nil => rw [List.foldl_nil, List.all_nil, Bool.and_true]
  | cons f l ih =>
    rw [List.foldl_cons, ih, List.all_cons, ← Bool.and_assoc]
    congr 1
    by_cases hf : f.cleared = true
    · rw [if_pos (FieldRow.cleared_iff.mp hf), getLsbD_clearField, hf, Bool.true_and]
    · rw [if_neg (mt FieldRow.cleared_iff.mpr hf), eq_false_of_ne_true hf, Bool.false_and, Bool.not_false, Bool.and_true]

/-- A cleared field reads 0. -/
theorem field_clearedWord {off : Nat} {f : FieldRow} (hf : f ∈ fieldsAt off) (hclear : f.cleared = true) (w : W32) :
    (clearedWord off w).toNat / 2 ^ f.lo % 2 ^ f.width = 0 := by
  refine Nat.eq_of_testBit_eq fun i => ?_
  rw [Nat.testBit_mod_two_pow, Nat.testBit_div_two_pow, Nat.zero_testBit]
  by_cases hi : i < f.width
  · have hbit : (clearedWord off w).getLsbD (i + f.lo) = false := by
      rw [getLsbD_clearedWord, List.all_eq_false.mpr ⟨f, hf, ?_⟩, Bool.and_false]
      rw [hclear, FieldRow.holds_iff.mpr ⟨by omega, by omega⟩]
      exact Bool.false_ne_true
    rw [decide_eq_true hi, Bool.true_and]
    exact hbit
  · rw [decide_eq_false hi, Bool.false_and]

/-- A register without such a field stays. -/
theorem clearedWord_of_none {off : Nat} (h : ∀ f ∈ fieldsAt off, ¬f.cleared = true) (w : W32) : clearedWord off w = w := by
  refine BitVec.eq_of_getLsbD_eq fun i _ => ?_
  rw [getLsbD_clearedWord, List.all_eq_true.mpr fun f hf => by rw [eq_false_of_ne_true (h f hf)]; rfl, Bool.and_true]

/-- A register that is one count reads 0. -/
theorem clearedWord_of_count {off : Nat} {a b r : Nat} {own : Bool}
    (h : fieldsAt off = [⟨0, 32, .rw, r, a, b, own, true⟩]) (w : W32) : clearedWord off w = 0 := by
  have hfield := field_clearedWord (off := off) (f := ⟨0, 32, .rw, r, a, b, own, true⟩) (by rw [h]; exact .head _) rfl w
  rw [Nat.pow_zero, Nat.div_one, Nat.mod_eq_of_lt (BitVec.isLt _)] at hfield
  exact BitVec.eq_of_toNat_eq hfield

/-! ### CLEAR_ALL -/

/-- The state after CLEAR_ALL. -/
def State.countsCleared (s : State) : State := { s with regs := clearCounts s.regs, frozen := s.frozen.map clearCounts }

theorem State.reg_countsCleared (s : State) (off : Nat) :
    s.countsCleared.reg off = if off ∈ s.regs.map (·.1) then clearedWord off (s.reg off) else s.reg off :=
  tabGet_foldr_tabSet resetWord clearedWord s.regs off

/-- A register that is one count with reset value 0 is 0. -/
theorem State.reg_countsCleared_of_count (s : State) {off : Nat}
    (h : fieldsAt off = [⟨0, 32, .rw, 0, 0, 4294967295, false, true⟩]) : s.countsCleared.reg off = 0 := by
  rw [State.reg_countsCleared]
  split
  · exact clearedWord_of_count h _
  · refine (tabGet_of_not_mem resetWord off s.regs ‹_›).trans ?_
    rw [resetWord, h]
    rfl

theorem exec_clearAll {s : State} (hup : s.up = true) : exec .clearAll s = .next s.countsCleared := by
  rw [exec_clearAll_eq, execClearAll, whenOk_of hup]
  rfl

/-! ### FREEZE -/

/-- Under FREEZE a register of one count shows its frozen value. -/
theorem State.storedWord_of_frozen {u : State} {r : List (Nat × W32)} {off : Nat} {f : FieldRow} (hr : u.frozen = some r)
    (hf : fieldsAt off = [f]) (hcount : f.count = true) :
    u.storedWord off = putField (u.reg off).toNat f.lo f.width ((tabGet resetWord r off).toNat / 2 ^ f.lo) := by
  unfold State.storedWord
  rw [hr, hf]
  exact if_pos hcount

theorem exec_freeze {s : State} (hup : s.up = true) (on : Bool) : exec (.freeze on) s = .next
    (let t := s.setFld Reg.modCtrCtrl 0 1 (b2n on)
     if on then (if s.frozen.isSome then t else { t with frozen := some s.regs }) else { t with frozen := none }) := by
  rw [exec_freeze_eq, execFreeze, whenOk_of hup]

/-- Settles O51: FREEZE by what is frozen already, CLEAR_ALL entry by entry. -/
theorem countersFreezeAndClear : Obligations.CountersFreezeAndClear := by
  intro s hup
  have hctrl : ∀ on, (s.setFld Reg.modCtrCtrl 0 1 (b2n on)).fld Reg.modCtrCtrl 0 1 = b2n on := fun on =>
    (s.fld_setFld_self _ (b2n on) (by decide)).trans (Nat.mod_eq_of_lt (by cases on <;> decide))
  refine ⟨⟨_, exec_freeze hup false, rfl, hctrl false⟩, fun hnone => ⟨_, exec_freeze hup true, ?_⟩, fun hsome =>
    ⟨_, exec_freeze hup true, ?_⟩, fun off w => ⟨fun f hf hrw hcount => ?_, fun h => ?_⟩, fun u r off f =>
    State.storedWord_of_frozen, s.countsCleared, exec_clearAll hup, s.reg_countsCleared_of_count (by decide +kernel),
    s.reg_countsCleared_of_count (by decide +kernel), s.reg_countsCleared, rfl, ?_, rfl, rfl, sameMemory_of_eq rfl rfl⟩
  · rw [hnone]
    exact ⟨rfl, hctrl true⟩
  · dsimp only
    rw [if_pos rfl, if_pos (Option.isSome_iff_ne_none.mpr hsome)]
    rfl
  · exact field_clearedWord hf (FieldRow.cleared_iff.mpr ⟨hrw, hcount⟩) w
  · exact clearedWord_of_none (fun f hf hclear => h f hf (FieldRow.cleared_iff.mp hclear)) w
  · rw [State.reg_countsCleared, clearedWord_of_none (by rw [fieldsAt_fabAddr]; decide), ite_self]

end Sys2Proof.Machine
end

section
/-! PROOF. Accesses of the HDM window: served from a resident page, refused where they may not be (R448 to R450). -/

namespace Sys2Proof.Machine

theorem exec_hdmRead_eq (hpa len : Nat) (s : State) : exec (.hdmRead hpa len) s = execHdmRead hpa len s := by rfl

theorem exec_hdmWrite_eq (hpa : Nat) (data : List Byte) (s : State) :
    exec (.hdmWrite hpa data) s = execHdmWrite hpa data s := by rfl

section
variable {s : State} (hmem : s.memOn = true) {hpa len : Nat} {data : List Byte}
include hmem

theorem exec_hdmRead (hin : s.inWindow hpa len = true) : exec (.hdmRead hpa len) s =
    .next ((s.bumpBy Reg.poolHdmRd (ceilDiv len 64)).hdmAccess (hpa - s.hdmBase) len none) := by
  rw [exec_hdmRead_eq, execHdmRead, whenOk_of hmem, if_pos hin]

/-- A read outside the range of the decoder returns ones. -/
theorem exec_hdmRead_outside (hin : s.inWindow hpa len = false) :
    exec (.hdmRead hpa len) s = .next (s.emit (.reply (List.replicate len 0xFF))) := by
  rw [exec_hdmRead_eq, execHdmRead, whenOk_of hmem, hin, if_neg Bool.false_ne_true]

theorem exec_hdmWrite (hin : s.inWindow hpa data.length = true) : exec (.hdmWrite hpa data) s =
    .next ((s.bumpBy Reg.poolHdmWr (ceilDiv data.length 64)).hdmAccess (hpa - s.hdmBase) data.length (some data)) := by
  rw [exec_hdmWrite_eq, execHdmWrite, whenOk_of (by rw [hmem, hin]; rfl)]

end

/-- A write outside the range of the decoder is dropped. -/
theorem exec_hdmWrite_outside {s : State} {hpa : Nat} {data : List Byte} (hin : s.inWindow hpa data.length = false) :
    exec (.hdmWrite hpa data) s = .next s := by
  rw [exec_hdmWrite_eq, execHdmWrite, hin, Bool.and_false, whenOk_false]

/-! ### The page of an access -/

section
variable {s : State} {off len : Nat} {data : Option (List Byte)}

/-- The first byte of the pool that an access of the window reaches. -/
def State.hdmAddr (s : State) (off : Nat) : Nat := pageBytes * s.fld Reg.poolHdmPage0 0 19 + off

/-- The access of the window at an offset. -/
def State.hdmWait (s : State) (off len : Nat) (data : Option (List Byte)) : HdmWait :=
  ⟨s.hdmAddr off / pageBytes, s.hdmAddr off, len, data⟩

/-- An access to a resident page is served. -/
theorem State.hdmAccess_served (hen : s.fld Reg.poolHdmCtrl 0 1 = 1) (hraw : s.fld Reg.poolHdmCtrl 1 1 = 0)
    (hpool : s.poolOn = true) {e : DirEntry} (hdir : s.dir (s.hdmAddr off / pageBytes) = some e) (hfar : e.far = false)
    (hcopy : s.copying (s.hdmAddr off / pageBytes) = false) :
    s.hdmAccess off len data = s.hdmServe (s.hdmWait off len data) := by
  rw [State.hdmAccess]
  dsimp only
  rw [if_neg (by rw [hen]; decide), if_neg (by rw [hraw]; decide), if_neg (by rw [hpool]; exact Bool.noConfusion)]
  unfold State.hdmAddr at hdir hcopy
  rw [hdir]
  dsimp only
  rw [hfar, hcopy, Bool.or_self, if_neg Bool.false_ne_true]
  rfl

/-- An access while the window is off, or to a page that is not VALID, is refused. -/
theorem State.hdmAccess_refused (h : s.fld Reg.poolHdmCtrl 0 1 = 0 ∨ s.fld Reg.poolHdmCtrl 1 1 = 0
      ∧ (s.poolOn = false ∨ s.dir (s.hdmAddr off / pageBytes) = none)) :
    ∃ reason, s.hdmAccess off len data = s.hdmRefuse (s.hdmWait off len data) reason := by
  rw [State.hdmAccess]
  dsimp only
  by_cases hen : s.fld Reg.poolHdmCtrl 0 1 = 0
  · exact ⟨5, if_pos hen⟩
  · obtain ⟨hraw, hpage⟩ := h.resolve_left hen
    rw [if_neg hen, if_neg (by rw [hraw]; decide)]
    by_cases hpool : s.poolOn = false
    · exact ⟨5, if_pos hpool⟩
    · rw [if_neg hpool]
      have hdir := hpage.resolve_left hpool
      unfold State.hdmAddr at hdir
      rw [hdir]
      exact ⟨_, rfl⟩

end

/-! ### A refusal -/

/-- A refused access reports, counts the fault, and answers a read with zeros. -/
theorem State.hdmFault_reported (s : State) (page : Nat) (write : Bool) (reason : Nat) :
    Reported s (s.hdmFault page write reason) := (Reported.bump ..).trans (.reportLim ..)

theorem State.toNat_reg_hdmFault (s : State) (page : Nat) (write : Bool) (reason : Nat) :
    ((s.hdmFault page write reason).reg Reg.poolHdmFaults).toNat = min ((s.reg Reg.poolHdmFaults).toNat + 1) 0xFFFFFFFF := by
  rw [State.hdmFault, State.reg_reportLim (by decide), State.toNat_reg_bump]

/-! ### The count of an access -/

/-- A counter of accesses is none of the registers of the window. -/
theorem State.reg_bumpBy_of_ne (s : State) (o n : Nat) {off : Nat} (h : off ≠ o) : (s.bumpBy o n).reg off = s.reg off := by
  rw [State.reg_bumpBy, if_neg h]

section
variable (s : State) (n : Nat) {o : Nat} (ho : o = Reg.poolHdmRd ∨ o = Reg.poolHdmWr)
include ho

/-- The counter changes no register of the window or of the pool. -/
theorem State.reg_bumpBy_hdm {off : Nat} (h : off ∈ [Reg.poolHdmPage0, Reg.poolHdmCtrl, Reg.poolCtrl, Reg.poolHdmFaults]) :
    (s.bumpBy o n).reg off = s.reg off := by
  refine s.reg_bumpBy_of_ne _ _ fun he => ?_
  subst he
  rcases ho with rfl | rfl <;> exact absurd h (by decide)

theorem State.fld_bumpBy_hdm {off : Nat} (h : off ∈ [Reg.poolHdmPage0, Reg.poolHdmCtrl, Reg.poolCtrl, Reg.poolHdmFaults])
    (lo w : Nat) : (s.bumpBy o n).fld off lo w = s.fld off lo w := by
  rw [State.fld, s.reg_bumpBy_hdm n ho h, State.fld]

theorem State.poolOn_bumpBy_hdm : (s.bumpBy o n).poolOn = s.poolOn := by
  rw [State.poolOn, s.fld_bumpBy_hdm n ho (by decide), State.poolOn]

theorem State.hdmAddr_bumpBy (off : Nat) : (s.bumpBy o n).hdmAddr off = s.hdmAddr off := by
  rw [State.hdmAddr, s.fld_bumpBy_hdm n ho (by decide), State.hdmAddr]

/-- A counted access to a resident page is served. -/
theorem State.hdmAccess_counted_served {off len : Nat} {data : Option (List Byte)} (hen : s.fld Reg.poolHdmCtrl 0 1 = 1)
    (hraw : s.fld Reg.poolHdmCtrl 1 1 = 0) (hpool : s.poolOn = true) {e : DirEntry}
    (hdir : s.dir (s.hdmAddr off / pageBytes) = some e) (hfar : e.far = false)
    (hcopy : s.copying (s.hdmAddr off / pageBytes) = false) :
    (s.bumpBy o n).hdmAccess off len data = (s.bumpBy o n).hdmServe (s.hdmWait off len data) := by
  rw [State.hdmAccess_served (by rwa [s.fld_bumpBy_hdm n ho (by decide)]) (by rwa [s.fld_bumpBy_hdm n ho (by decide)])
    (by rwa [s.poolOn_bumpBy_hdm n ho]) (e := e) (by rw [s.hdmAddr_bumpBy n ho]; exact hdir) hfar
    (by rw [s.hdmAddr_bumpBy n ho]; exact hcopy), State.hdmWait, s.hdmAddr_bumpBy n ho, State.hdmWait]

/-- A counted access that may not reach its page changes no memory and counts the fault; a read answers with zeros. -/
theorem State.hdmAccess_counted_refused {off len : Nat} {data : Option (List Byte)} (h : s.fld Reg.poolHdmCtrl 0 1 = 0 ∨
      s.fld Reg.poolHdmCtrl 1 1 = 0 ∧ (s.poolOn = false ∨ s.dir (s.hdmAddr off / pageBytes) = none)) :
    let t := (s.bumpBy o n).hdmAccess off len data
    SameMemory s t ∧ (t.reg Reg.poolHdmFaults).toNat = min ((s.reg Reg.poolHdmFaults).toNat + 1) 0xFFFFFFFF
      ∧ (data = none → t.out.getLast? = some (.reply (List.replicate len 0))) := by
  intro t
  obtain ⟨reason, ht⟩ : ∃ reason, t = (s.bumpBy o n).hdmRefuse ((s.bumpBy o n).hdmWait off len data) reason := by
    refine State.hdmAccess_refused ?_
    rw [s.fld_bumpBy_hdm n ho (by decide), s.fld_bumpBy_hdm n ho (by decide), s.poolOn_bumpBy_hdm n ho,
      s.hdmAddr_bumpBy n ho]
    exact h
  have hcount : ∀ p w, (((s.bumpBy o n).hdmFault p w reason).reg Reg.poolHdmFaults).toNat
      = min ((s.reg Reg.poolHdmFaults).toNat + 1) 0xFFFFFFFF := fun p w => by
    rw [State.toNat_reg_hdmFault, s.reg_bumpBy_hdm n ho (by decide)]
  have hsame : ∀ p w, SameMemory s ((s.bumpBy o n).hdmFault p w reason) := fun p w =>
    (State.hdmFault_reported (s.bumpBy o n) p w reason).sameMemory
  rw [ht, State.hdmRefuse]
  cases data with
  | none => exact ⟨hsame _ _, hcount _ _, fun _ => List.getLast?_concat ..⟩
  | some bs => exact ⟨hsame _ _, hcount _ _, nofun⟩

end

/-- Settles O19: an access is counted, and then served, refused, or kept out by the decoder. -/
theorem windowReadsAndWritesThePool : Obligations.WindowReadsAndWritesThePool := by
  intro s hpa len data a u v off hmem
  refine ⟨exec_hdmRead_outside hmem, exec_hdmWrite_outside, fun hread hwrite hen hraw hpool e hdir hfar hcopy => ?_,
    fun hread hwrite hoff => ?_⟩
  · rw [exec_hdmRead hmem hread, exec_hdmWrite hmem hwrite,
      s.hdmAccess_counted_served _ (.inl rfl) hen hraw hpool hdir hfar hcopy,
      s.hdmAccess_counted_served _ (.inr rfl) hen hraw hpool hdir hfar hcopy]
    exact ⟨rfl, rfl⟩
  · obtain ⟨hsame, hcount, hzeros⟩ := s.hdmAccess_counted_refused (ceilDiv len 64) (.inl rfl) (len := len) (data := none) hoff
    obtain ⟨hsame', hcount', -⟩ :=
      s.hdmAccess_counted_refused (ceilDiv data.length 64) (.inr rfl) (len := data.length) (data := some data) hoff
    exact ⟨⟨_, exec_hdmRead hmem hread, hzeros rfl, hsame, hcount⟩, _, exec_hdmWrite hmem hwrite, hsame', hcount'⟩

end Sys2Proof.Machine
end

section
/-! PROOF. DoeAnswers over DOE leave the state as it is; sessions and the keys of the streams (R452, R453, R483 to R485). -/

namespace Sys2Proof.Machine

/-! ### DoeAnswers -/

/-- `t` is `s` with one answer more, and its free bytes used. -/
def Answered (s : State) (body : List Byte) (t : State) : Prop :=
  ∃ a b free, t = { s with out := s.out ++ [.reply (a ++ body ++ b)], free := free }

theorem Answered.doeReply (s : State) (body : List Byte) : Answered s body (s.doeReply body) := ⟨_, _, _, rfl⟩

theorem Answered.boot {s t : State} {body : List Byte} (h : Answered s body t) : t.boot = s.boot := by
  obtain ⟨_, _, _, rfl⟩ := h
  rfl

theorem Answered.host {s t : State} {body : List Byte} (h : Answered s body t) : t.host = s.host := by
  obtain ⟨_, _, _, rfl⟩ := h
  rfl

theorem Answered.out {s t : State} {body : List Byte} (h : Answered s body t) :
    ∃ a b, t.out = s.out ++ [.reply (a ++ body ++ b)] := by
  obtain ⟨a, b, _, rfl⟩ := h
  exact ⟨a, b, rfl⟩

/-- The command answers, with a body that the state gives. -/
def DoeAnswers (s : State) (i : Instr) (body : List Byte) : Prop := ∃ t, exec i s = .next t ∧ Answered s body t

section
variable {s : State} (hbar : s.barOn = true)
include hbar

/-- A request over DOE is served in every stage after the ROM. -/
theorem doeServe_of_barOn (t : State) : doeServe s t = .next t := by rw [doeServe, whenOk_of hbar]

theorem doeServe_answers (body : List Byte) : ∃ t, doeServe s (s.doeReply body) = .next t ∧ Answered s body t :=
  ⟨_, doeServe_of_barOn hbar _, .doeReply s body⟩

theorem spdmReply_answers : ∃ t, spdmReply s = .next t ∧ Answered s [] t := doeServe_answers hbar []

/-- The requests whose answer holds nothing beyond what SPDM defines. -/
theorem exec_spdm_answers (a b : Nat) (f g : Bool) : ∀ i ∈ [Instr.getVersion, .getCapabilities, .negotiateAlgorithms f g,
    .getDigests, .challenge a b, .heartbeat a, .keyUpdate a, .query a], DoeAnswers s i [] := by
  intro i hi
  have hexec : exec i s = spdmReply s := by
    simp only [List.mem_cons, List.not_mem_nil, or_false] at hi
    rcases hi with rfl | rfl | rfl | rfl | rfl | rfl | rfl | rfl <;> rfl
  rw [DoeAnswers, hexec]
  exact spdmReply_answers hbar

theorem exec_doeDiscovery_answers (k : Nat) : DoeAnswers s (.doeDiscovery k) (doeEntry k) := doeServe_answers hbar _

theorem exec_cxlTableAccess_answers (k : Nat) : DoeAnswers s (.cxlTableAccess k) (cdatEntry k) := doeServe_answers hbar _

/-- A request on slot 0 is answered with the part of its chain. -/
theorem exec_getCertificate_answers (off n : Nat) :
    DoeAnswers s (.getCertificate 0 off n) (((fixedObject 0).drop off).take (min n 3584)) := doeServe_answers hbar _

/-- A request on any other slot is answered with an error. -/
theorem exec_getCertificate_answers_error {slot : Nat} (hslot : slot ≠ 0) (off n : Nat) :
    DoeAnswers s (.getCertificate slot off n) [] := by
  obtain ⟨t, ht, ha⟩ := spdmReply_answers hbar
  exact ⟨t, (show exec _ s = execGetCertificate slot off n s by rfl).trans ((if_neg hslot).trans ht), ha⟩

end

/-! ### Measurements -/

/-- A block of a measurement: what the standard gives, and the content. -/
theorem addBlock_eq (r : List Byte × State) (index : Nat) : ∃ a free,
    addBlock r index = (r.1 ++ a ++ r.2.measurement index, { r.2 with free := free }) := ⟨_, _, rfl⟩

/-- Blocks use free bytes only. -/
theorem addBlocks_state : ∀ (l : List Nat) (r : List Byte × State),
    ∃ free, (l.foldl addBlock r).2 = { r.2 with free := free }
  | [], r => ⟨r.2.free, rfl⟩
  | _ :: l, r => by
    obtain ⟨free, h⟩ := addBlocks_state l (addBlock r _)
    exact ⟨free, h⟩

theorem exec_getMeasurements_eq (index : Nat) (signed session : Bool) (s : State) :
    exec (.getMeasurements index signed session) s = execGetMeasurements index signed session s := by rfl

section
variable {s : State} (hbar : s.barOn = true)
include hbar

theorem exec_getMeasurements_answers (index : Nat) (signed session : Bool) :
    ∃ body, DoeAnswers s (.getMeasurements index signed session) body := by
  unfold DoeAnswers
  rw [exec_getMeasurements_eq, execGetMeasurements]
  split
  · exact ⟨[], spdmReply_answers hbar⟩
  · dsimp only
    obtain ⟨free, h⟩ := addBlocks_state (measBlocks index) ([], s)
    rw [h]
    generalize (List.foldl addBlock ([], s) (measBlocks index)).1 = body
    exact ⟨body, _, doeServe_of_barOn hbar _, _, _, _, rfl⟩

/-- Outside a session, one measurement is answered with its content. -/
theorem exec_getMeasurements_one {index : Nat} (h : measBlocks index = [index]) (signed : Bool) :
    ∃ t a b, exec (.getMeasurements index signed false) s = .next t
      ∧ t.out = s.out ++ [.reply (a ++ s.measurement index ++ b)] := by
  rw [exec_getMeasurements_eq, execGetMeasurements, Bool.false_and, if_neg Bool.false_ne_true, h]
  obtain ⟨a, free, hblock⟩ := addBlock_eq ([], s) index
  obtain ⟨u, hu⟩ : ∃ u : State, u = { s with free := free } := ⟨_, rfl⟩
  rw [List.foldl_cons, List.foldl_nil, hblock, ← hu]
  obtain ⟨a', b, hout⟩ := (Answered.doeReply u (a ++ s.measurement index)).out
  refine ⟨_, a' ++ a, b, doeServe_of_barOn hbar _, ?_⟩
  rw [show u.out = s.out by rw [hu]] at hout
  rw [List.append_assoc a' a]
  exact hout

end

/-! ### Sessions -/

theorem exec_keyExchange_eq (slot : Nat) (s : State) : exec (.keyExchange slot) s = execKeyExchange slot s := by rfl

theorem exec_finish_eq (n : Nat) (ok : Bool) (s : State) : exec (.finish n ok) s = execFinish n ok s := by rfl

theorem exec_keyProg_eq (n stream : Nat) (cm : Bool) (s : State) : exec (.keyProg n stream cm) s
    = ideKm n stream cm s (fun i => { i with keys := true, insecure := false }) := by rfl

theorem exec_kSetGo_eq (n stream : Nat) (cm : Bool) (s : State) :
    exec (.kSetGo n stream cm) s = ideKm n stream cm s (fun i => { i with active := i.keys }) := by rfl

theorem exec_kSetStop_eq (n stream : Nat) (cm : Bool) (s : State) :
    exec (.kSetStop n stream cm) s = ideKm n stream cm s (fun i => { i with active := false }) := by rfl

theorem exec_endSession_eq (n : Nat) (s : State) : exec (.endSession n) s = execEndSession n s := by rfl

section
variable {s : State} (hup : s.up = true)
include hup

/-- A key exchange on slot 0 begins a session. -/
theorem exec_keyExchange (hroom : s.boot.sessions.length < 2) : ∃ t, exec (.keyExchange 0) s = .next t
    ∧ t.boot.sessions = s.boot.sessions ++ [(s.boot.nextSession, false)] ∧ t.boot.nextSession = s.boot.nextSession + 1 := by
  rw [exec_keyExchange_eq, execKeyExchange, if_pos ⟨hup, rfl, hroom⟩]
  refine ⟨_, doeServe_of_barOn (State.barOn_of_up hup) _, ?_⟩
  rw [State.doeReply_boot]
  exact ⟨rfl, rfl⟩

/-- With two sessions, or on another slot, it begins none. -/
theorem exec_keyExchange_refused {slot : Nat} (h : 2 ≤ s.boot.sessions.length ∨ slot ≠ 0) :
    DoeAnswers s (.keyExchange slot) [] := by
  rw [DoeAnswers, exec_keyExchange_eq, execKeyExchange, if_neg]
  · exact spdmReply_answers (State.barOn_of_up hup)
  · rintro ⟨-, hslot, hroom⟩
    exact h.elim (Nat.not_le.mpr hroom) (absurd hslot)

section
variable {n : Nat}

/-- FINISH on a session that waits for it establishes it, or ends it where the proof is wrong. -/
theorem exec_finish (hn : (n, false) ∈ s.boot.sessions) (ok : Bool) : ∃ t, exec (.finish n ok) s = .next t
    ∧ t.boot.sessions = if ok then s.boot.sessions.map (fun x => if x.1 = n then (n, true) else x)
        else s.boot.sessions.filter (fun x => x.1 != n) := by
  rw [exec_finish_eq, execFinish, if_pos ⟨hup, List.contains_iff_mem.mpr hn⟩]
  refine ⟨_, doeServe_of_barOn (State.barOn_of_up hup) _, ?_⟩
  rw [State.doeReply_boot]
  rfl

theorem exec_endSession (hn : (n, true) ∈ s.boot.sessions) : ∃ t, exec (.endSession n) s = .next t
    ∧ t.boot.sessions = s.boot.sessions.filter (fun x => x.1 != n) ∧ t.host = s.host := by
  rw [exec_endSession_eq, execEndSession, if_pos ⟨hup, List.contains_iff_mem.mpr hn⟩]
  refine ⟨_, doeServe_of_barOn (State.barOn_of_up hup) _, ?_, (Answered.doeReply ..).host⟩
  rw [State.doeReply_boot]
  rfl

/-! ### Keys of a stream -/

variable {stream k : Nat} {cm : Bool} (hk : ideKey stream cm = some k)
include hk

/-- In an established session a request acts on its stream. -/
theorem ideKm_of_session (hn : (n, true) ∈ s.boot.sessions) (act : Ide → Ide) :
    ∃ t, ideKm n stream cm s act = .next t ∧ t.ide k = act (s.ide k) := by
  rw [ideKm, hk]
  dsimp only
  rw [if_pos ⟨hup, List.contains_iff_mem.mpr hn⟩]
  refine ⟨_, doeServe_of_barOn (State.barOn_of_up hup) _, ?_⟩
  have hide : ∀ u : State, u.releaseHost.ide k = u.ide k := fun u => by
    unfold State.releaseHost
    split <;> rfl
  rw [hide, State.ide, (Answered.doeReply ..).host]
  exact (tabGet_tabSet ..).trans (if_pos rfl)

/-- Without one the request is answered, and the streams stay. -/
theorem ideKm_refused (hn : (n, true) ∉ s.boot.sessions) (act : Ide → Ide) :
    ∃ t, ideKm n stream cm s act = .next t ∧ t.host = s.host := by
  rw [ideKm, hk]
  dsimp only
  rw [if_neg fun h => hn (List.contains_iff_mem.mp h.2)]
  obtain ⟨t, ht, ha⟩ := spdmReply_answers (State.barOn_of_up hup)
  exact ⟨t, ht, ha.host⟩

end
end

/-- Settles O38: each request by the sessions as they stand. -/
theorem sessionsAndKeys : Obligations.SessionsAndKeys := by
  intro s n hup l
  refine ⟨exec_keyExchange hup, fun slot h => ?_, fun hn => ⟨?_, exec_finish hup hn false⟩, exec_endSession hup,
    fun stream cm k hk => ?_⟩
  · obtain ⟨t, ht, ha⟩ := exec_keyExchange_refused hup h
    exact ⟨t, ht, ha.boot⟩
  · obtain ⟨t, ht, hl⟩ := exec_finish hup hn true
    refine ⟨t, ht, ?_⟩
    rw [State.inSession, hl, if_pos rfl, List.contains_iff_mem, List.mem_map]
    exact ⟨_, hn, if_pos rfl⟩
  · simp only [List.forall_mem_cons, List.not_mem_nil, false_implies, implies_true, and_true, exec_keyProg_eq,
      exec_kSetGo_eq, exec_kSetStop_eq]
    exact ⟨fun hn => ⟨ideKm_of_session hup hk hn _, ideKm_of_session hup hk hn _, ideKm_of_session hup hk hn _⟩,
      fun hn => ⟨ideKm_refused hup hk hn _, ideKm_refused hup hk hn _, ideKm_refused hup hk hn _⟩⟩

end Sys2Proof.Machine
end

section
/-! PROOF. The CXL link: its resets, its training, what it carries and what it does not (R442, R443, R447, R451, R452). -/

namespace Sys2Proof.Machine

theorem exec_hotReset_eq (s : State) : exec .hotReset s = execHotReset s := by rfl

theorem exec_linkLoss_eq (us : Nat) (s : State) : exec (.linkLoss us) s = execLinkLoss us s := by rfl

theorem exec_hostLinkTrained_eq (width rate : Nat) (cxl : Bool) (s : State) :
    exec (.hostLinkTrained width rate cxl) s = execHostLinkTrained width rate cxl s := by rfl

theorem exec_snoop_eq (a : Nat) (s : State) : exec (.snoop a) s = execSnoop a s := by rfl

theorem exec_uioRequest_eq (a : Nat) (s : State) : exec (.uioRequest a) s = execUioRequest a s := by rfl

theorem exec_ideIntegrityFailure_eq (stream : Nat) (cm : Bool) (s : State) :
    exec (.ideIntegrityFailure stream cm) s = execIdeIntegrityFailure stream cm s := by rfl

/-! ### Resets -/

/-- A warm reset leaves the width, the rate and the use of the link as they are, and no stream that there was not. -/
theorem State.warmReset_link (s : State) (cause : Nat) : (s.warmReset cause).host.width = s.host.width
    ∧ (s.warmReset cause).host.cxl = s.host.cxl ∧ ((s.warmReset cause).host.ide = s.host.ide ∨ (s.warmReset cause).host.ide = []) := by
  by_cases hon : s.rst.busy = true ∨ s.boot.stage = .rom
  · rw [State.warmReset_ignored cause hon]
    exact ⟨rfl, rfl, .inl rfl⟩
  · rw [not_or, Bool.not_eq_true] at hon
    obtain ⟨hbusy, hrom⟩ := hon
    by_cases hrun : s.boot.stage = .running
    · rw [State.warmReset_of_running cause hbusy hrun]
      exact ⟨rfl, rfl, .inr rfl⟩
    · rw [State.warmReset_of_held cause hbusy hrom hrun]
      exact ⟨rfl, rfl, .inl rfl⟩

/-- A warm reset that is not ignored is in progress, with its cause. -/
theorem State.warmReset_rst {s : State} (cause : Nat) (hbusy : s.rst.busy = false) (hrom : s.boot.stage ≠ .rom) :
    (s.warmReset cause).rst = { cause := cause, stepLost := s.stepping, busy := true } := by
  by_cases hrun : s.boot.stage = .running
  · rw [State.warmReset_of_running cause hbusy hrun]
    rfl
  · rw [State.warmReset_of_held cause hbusy hrom hrun]
    rfl

/-- The link goes down with its streams, and a warm reset of the cause starts unless one is in progress. -/
theorem State.linkDown_warmReset (s : State) (cause : Nat) :
    let t := s.linkDown.warmReset cause
    t.host.width = 0 ∧ t.host.cxl = false ∧ t.host.ide = []
      ∧ (s.rst.busy = false → s.boot.stage ≠ .rom → t.rst.busy = true ∧ t.rst.cause = cause)
      ∧ (s.rst.busy = true → t.rst = s.rst) := by
  intro t
  obtain ⟨hwidth, hcxl, hide⟩ := s.linkDown.warmReset_link cause
  refine ⟨hwidth, hcxl, hide.elim id id, fun hbusy hrom => ?_, fun hbusy => ?_⟩
  · rw [State.warmReset_rst (s := s.linkDown) cause hbusy hrom]
    exact ⟨rfl, rfl⟩
  · show (s.linkDown.warmReset cause).rst = s.rst
    rw [State.warmReset_ignored (s := s.linkDown) cause (.inl hbusy)]
    rfl

theorem exec_linkLoss_long {s : State} (halive : s.alive = true) {us : Nat} (h : 1000 ≤ us) :
    exec (.linkLoss us) s = .next (s.linkDown.warmReset 3) := by
  rw [exec_linkLoss_eq, execLinkLoss, whenOk_of (by rw [halive, decide_eq_true h]; rfl)]

theorem exec_linkLoss_short {us : Nat} (h : us < 1000) (s : State) : exec (.linkLoss us) s = .next s := by
  rw [exec_linkLoss_eq, execLinkLoss, decide_eq_false (Nat.not_le.mpr h), Bool.and_false, whenOk_false]

/-! ### Training -/

theorem Reported.linkNote (s : State) : Reported s s.linkNote := .ite (report ..) (refl s)

theorem Reported.link {s t : State} (h : Reported s t) :
    t.host.width = s.host.width ∧ t.host.rate = s.host.rate ∧ t.host.cxl = s.host.cxl ∧ t.host.ide = s.host.ide := by
  obtain ⟨_, _, _, _, _, _, _, rfl⟩ := h
  exact ⟨rfl, rfl, rfl, rfl⟩

/-- The state in which the link has trained. -/
def State.linkAt (s : State) (width rate : Nat) (cxl : Bool) : State :=
  { s with host := { s.host with width := width, rate := rate, cxl := cxl } }

theorem trains_iff {width rate : Nat} : ((width == 16 || width == 8) && (rate == 6 || rate == 5)) = true
    ↔ (width = 16 ∨ width = 8) ∧ (rate = 6 ∨ rate = 5) := by simp

theorem exec_hostLinkTrained {s : State} (halive : s.alive = true) {width rate : Nat}
    (h : (width = 16 ∨ width = 8) ∧ (rate = 6 ∨ rate = 5)) (cxl : Bool) :
    exec (.hostLinkTrained width rate cxl) s = .next (s.linkAt width rate cxl).linkNote := by
  rw [exec_hostLinkTrained_eq, execHostLinkTrained, Bool.and_assoc,
    whenOk_of (Bool.and_eq_true_iff.mpr ⟨halive, trains_iff.mpr h⟩)]
  rfl

theorem exec_hostLinkTrained_unsupported {width rate : Nat} (h : ¬((width = 16 ∨ width = 8) ∧ (rate = 6 ∨ rate = 5)))
    (cxl : Bool) (s : State) : exec (.hostLinkTrained width rate cxl) s = .next s := by
  rw [exec_hostLinkTrained_eq, execHostLinkTrained, Bool.and_assoc, eq_false_of_ne_true (mt trains_iff.mp h),
    Bool.and_false, whenOk_false]

/-! ### Integrity -/

section
variable {s : State} {stream k : Nat} {cm : Bool} (hk : ideKey stream cm = some k)
include hk

/-- A stream in use that fails its check becomes insecure, and no other does. -/
theorem exec_ideIntegrityFailure (halive : s.alive = true) (hactive : (s.ide k).active = true) :
    ∃ t, exec (.ideIntegrityFailure stream cm) s = .next t
      ∧ t.ide k = { s.ide k with active := false, insecure := true } ∧ ∀ j, j ≠ k → t.ide j = s.ide j := by
  rw [exec_ideIntegrityFailure_eq, execIdeIntegrityFailure, hk]
  dsimp only
  rw [whenOk_of (by rw [halive, hactive]; rfl)]
  generalize ({ s.ide k with active := false, insecure := true } : Ide) = v
  have hide : ∀ j, ((s.setIde k v).report 0x0805 unitMgmt ((if cm then 0 else stream) + 2 ^ 8 * b2n cm)).ide j
      = if j = k then v else s.ide j := fun j => by
    obtain ⟨-, -, -, h⟩ := (Reported.report (s.setIde k v) 0x0805 unitMgmt ((if cm then 0 else stream) + 2 ^ 8 * b2n cm)).link
    rw [State.ide, h]
    exact tabGet_tabSet ..
  exact ⟨_, rfl, (hide k).trans (if_pos rfl), fun j hj => (hide j).trans (if_neg hj)⟩

theorem exec_ideIntegrityFailure_unused (hactive : (s.ide k).active = false) :
    exec (.ideIntegrityFailure stream cm) s = .next s := by
  rw [exec_ideIntegrityFailure_eq, execIdeIntegrityFailure, hk]
  dsimp only
  rw [hactive, Bool.and_false, whenOk_false]

end

/-- A request that is answered changes nothing but the output and the free bytes. -/
theorem DoeAnswers.frame {s : State} {i : Instr} {body : List Byte} (h : DoeAnswers s i body) :
    ∃ t r, exec i s = .next t ∧ t = { s with out := s.out ++ [.reply r], free := t.free } := by
  obtain ⟨_, hexec, _, _, _, rfl⟩ := h
  exact ⟨_, _, hexec, rfl⟩

theorem DoeAnswers.out {s : State} {i : Instr} {body : List Byte} (h : DoeAnswers s i body) :
    ∃ t a b, exec i s = .next t ∧ t.out = s.out ++ [.reply (a ++ body ++ b)] := by
  obtain ⟨t, hexec, ha⟩ := h
  obtain ⟨a, b, hout⟩ := ha.out
  exact ⟨t, a, b, hexec, hout⟩

/-- Settles O37: the commands of the link, of its streams, and of the mailbox. -/
theorem hostLinkIsServed : Obligations.HostLinkIsServed := by
  refine ⟨fun s halive => ?_, fun s hbar => ⟨fun a b n f g i hi => ?_, fun off n => (exec_getCertificate_answers hbar off n).out,
    fun k => (exec_doeDiscovery_answers hbar k).out, fun k => (exec_cxlTableAccess_answers hbar k).out,
    fun f u signed hfw huc x hx => ?_⟩⟩
  · intro down
    refine ⟨⟨_, by rw [exec_hotReset_eq, execHotReset, whenOk_of halive], s.linkDown_warmReset 2⟩, fun us =>
      ⟨fun h => ⟨_, exec_linkLoss_long halive h, s.linkDown_warmReset 3⟩, fun h => exec_linkLoss_short h s⟩,
      fun width rate cxl hwidth hrate => ⟨_, exec_hostLinkTrained halive ⟨hwidth, hrate⟩ cxl, ?_⟩,
      fun width rate cxl h => exec_hostLinkTrained_unsupported h cxl s, fun a hcxl hsec => ?_, fun a hins => ?_,
      fun a => ?_, fun o => ⟨fun h => ?_, fun h => ?_⟩, fun stream cm k hk =>
      ⟨exec_ideIntegrityFailure hk halive, exec_ideIntegrityFailure_unused hk⟩⟩
    · have hnote := Reported.linkNote (s.linkAt width rate cxl)
      obtain ⟨hw, hr, hc, -⟩ := hnote.link
      exact ⟨hw, hr, hc, hnote.sameMemory⟩
    · rw [exec_snoop_eq, execSnoop, whenOk_of (by rw [halive, hcxl, hsec]; rfl)]
    · rw [exec_snoop_eq, execSnoop, hins, Bool.not_true, Bool.and_false, whenOk_false]
    · rw [exec_uioRequest_eq, execUioRequest, whenOk_of halive]
    · rw [State.toHost, h, if_neg Bool.false_ne_true]
    · rw [State.toHost, if_pos h]
      exact ⟨rfl, rfl⟩
  · have hspdm := exec_spdm_answers hbar a b f g
    simp only [List.forall_mem_cons, List.not_mem_nil, false_implies, implies_true, and_true] at hspdm
    obtain ⟨hversion, hcaps, halg, hdigests, hchallenge, hheartbeat, hupdate, hquery⟩ := hspdm
    simp only [List.mem_cons, List.not_mem_nil, or_false] at hi
    rcases hi with rfl | rfl | rfl | rfl | rfl | rfl | rfl | rfl | rfl | rfl | rfl | rfl
    · exact (exec_doeDiscovery_answers hbar a).frame
    · exact (exec_cxlTableAccess_answers hbar a).frame
    · exact hversion.frame
    · exact hcaps.frame
    · exact halg.frame
    · exact hdigests.frame
    · by_cases ha : a = 0
      · exact ha ▸ (exec_getCertificate_answers hbar b n).frame
      · exact (exec_getCertificate_answers_error hbar ha b n).frame
    · exact hchallenge.frame
    · obtain ⟨body, h⟩ := exec_getMeasurements_answers hbar a f g
      exact h.frame
    · exact hheartbeat.frame
    · exact hupdate.frame
    · exact hquery.frame
  · have hmeas : ∀ index content, measBlocks index = [index] → s.measurement index = content →
        ∃ t a b, exec (.getMeasurements index signed false) s = .next t ∧ t.out = s.out ++ [.reply (a ++ content ++ b)] := by
      rintro index _ h rfl
      exact exec_getMeasurements_one hbar h signed
    simp only [List.mem_cons, List.not_mem_nil, or_false] at hx
    rcases hx with rfl | rfl | rfl
    · exact hmeas 1 _ rfl rfl
    · exact hmeas 2 _ rfl (by rw [State.measurement, hfw]; rfl)
    · exact hmeas 3 _ rfl (by rw [State.measurement, huc]; rfl)

end Sys2Proof.Machine
end

section
/-! PROOF. What a ring holds, writes, loses and signals (R464 to R466, R490). -/

namespace Sys2Proof.Machine

/-! ### The state of a ring, and what leaves for the host -/

@[simp] theorem State.ring_setRing (s : State) (r : RingRegs) (g : Ring) : (s.setRing r g).ring r = g := by
  unfold State.setRing State.ring
  cases r.evt <;> rfl

@[simp] theorem State.ring_setFld (s : State) (r : RingRegs) (o lo w v : Nat) : (s.setFld o lo w v).ring r = s.ring r := rfl

@[simp] theorem State.ring_toHost (s : State) (r : RingRegs) (o : Output) : (s.toHost o).ring r = s.ring r := by
  unfold State.toHost
  split <;> rfl

@[simp] theorem State.ring_msix (s : State) (r : RingRegs) (v : Nat) : (s.msix v).ring r = s.ring r := by
  unfold State.msix
  split
  · rfl
  · exact State.ring_toHost ..

@[simp] theorem State.out_setRing (s : State) (r : RingRegs) (g : Ring) : (s.setRing r g).out = s.out := by
  unfold State.setRing
  split <;> rfl

@[simp] theorem State.insecure_setRing (s : State) (r : RingRegs) (g : Ring) (k : Nat) :
    (s.setRing r g).insecure k = s.insecure k := by
  unfold State.setRing
  split <;> rfl

@[simp] theorem State.insecure_toHost (s : State) (o : Output) (k : Nat) : (s.toHost o).insecure k = s.insecure k := by
  unfold State.toHost
  split <;> rfl

/-- What leaves for the host over a secure link is put out. -/
theorem State.toHost_of_secure {s : State} (h : s.insecure 0 = false) (o : Output) : s.toHost o = s.emit o := by
  rw [State.toHost, h, if_neg Bool.false_ne_true]

theorem State.mem_out_toHost_of_mem {s : State} {x : Output} (h : x ∈ s.out) (o : Output) : x ∈ (s.toHost o).out := by
  unfold State.toHost
  split
  · exact h
  · exact List.mem_append_left _ h

theorem State.mem_out_toHost {s : State} (h : s.insecure 0 = false) (o : Output) : o ∈ (s.toHost o).out := by
  rw [State.toHost_of_secure h]
  exact List.mem_append_right _ (List.mem_singleton_self o)

/-- A vector whose entry is not masked sends its message. -/
theorem State.msix_of_unmasked {s : State} {v : Nat} (h : (s.reg (Reg.msixTable (4 * v + 3))).getLsbD 0 = false) :
    s.msix v = s.toHost (.msix v) := by
  rw [State.msix, h, if_neg Bool.false_ne_true]

/-- A vector whose entry is masked becomes pending. -/
theorem State.msix_of_masked {s : State} {v : Nat} (h : (s.reg (Reg.msixTable (4 * v + 3))).getLsbD 0 = true) :
    s.msix v = s.setFld (Reg.msixPending (v / 32)) (v % 32) 1 1 := if_pos h

theorem State.mem_out_msix_of_mem {s : State} {x : Output} (h : x ∈ s.out) (v : Nat) : x ∈ (s.msix v).out := by
  unfold State.msix
  split
  · exact h
  · exact State.mem_out_toHost_of_mem h _

/-! ### One record written -/

/-- Does the record that comes next signal its ring? -/
def State.ringSignals (s : State) (r : RingRegs) : Prop :=
  s.fld r.ctrl 9 1 = 1 ∧ s.fld r.ctrl 16 8 ≤ (s.ring r).unsignalled + 1

/-- A record leaves for the slot at the tail, the tail moves on, and the ring counts it and signals. -/
theorem State.ringWrite_eq (s : State) (r : RingRegs) (x : RingRec) : ∃ q2 q3 g, g.held = (s.ring r).held
    ∧ g.seq = (s.ring r).seq + 1
    ∧ let m := s.fld r.tail 0 16 % s.ringSize r
      let w := (s.toHost (.hostWrite (s.reg64 r.baseLo r.baseHi + 32 * m) [x.q0, x.q1, q2, q3])).setFld r.tail 0 16
        ((m + 1) % s.ringSize r)
      (s.ringSignals r → s.ringWrite r x = (w.setRing r { g with unsignalled := 0, firstTick := none }).msix r.vector)
        ∧ (¬s.ringSignals r → s.ringWrite r x = w.setRing r g) := by
  refine ⟨_, _, _, ?_, ?_, fun h => if_pos h, fun h => if_neg h⟩
  · rfl
  · rfl

section
variable (s : State) (r : RingRegs) (x : RingRec)

theorem State.ring_ringWrite : ((s.ringWrite r x).ring r).held = (s.ring r).held
    ∧ ((s.ringWrite r x).ring r).seq = (s.ring r).seq + 1 := by
  obtain ⟨q2, q3, g, hheld, hseq, hsig, hnot⟩ := s.ringWrite_eq r x
  by_cases h : s.ringSignals r
  · rw [hsig h, State.ring_msix, State.ring_setRing]
    exact ⟨hheld, hseq⟩
  · rw [hnot h, State.ring_setRing]
    exact ⟨hheld, hseq⟩

/-- The tail moves to the next slot. -/
theorem State.fld_tail_ringWrite (h : r.tail ≠ Reg.msixPending (r.vector / 32)) : (s.ringWrite r x).fld r.tail 0 16
    = (s.fld r.tail 0 16 % s.ringSize r + 1) % s.ringSize r % 2 ^ 16 := by
  obtain ⟨q2, q3, g, -, -, hsig, hnot⟩ := s.ringWrite_eq r x
  have hfld : ∀ {u v : State}, u.reg r.tail = v.reg r.tail → u.fld r.tail 0 16 = v.fld r.tail 0 16 := fun h => by
    rw [State.fld, h, State.fld]
  by_cases hs : s.ringSignals r
  · rw [hsig hs, hfld (State.reg_msix _ _ h), hfld (State.reg_setRing ..), State.fld_setFld_self _ _ _ (by decide)]
  · rw [hnot hs, hfld (State.reg_setRing ..), State.fld_setFld_self _ _ _ (by decide)]

/-- Over a secure link the record is written. -/
theorem State.mem_out_ringWrite (h : s.insecure 0 = false) : ∃ q2 q3, (.hostWrite (s.reg64 r.baseLo r.baseHi
    + 32 * (s.fld r.tail 0 16 % s.ringSize r)) [x.q0, x.q1, q2, q3] : Output) ∈ (s.ringWrite r x).out := by
  obtain ⟨q2, q3, g, -, -, hsig, hnot⟩ := s.ringWrite_eq r x
  refine ⟨q2, q3, ?_⟩
  by_cases hs : s.ringSignals r
  · rw [hsig hs]
    refine State.mem_out_msix_of_mem ?_ _
    rw [State.out_setRing]
    exact State.mem_out_toHost h _
  · rw [hnot hs, State.out_setRing]
    exact State.mem_out_toHost h _

/-- Over a secure link, a record that signals an unmasked vector sends its message. -/
theorem State.ringWrite_signalled (h : s.insecure 0 = false) (hs : s.ringSignals r)
    (htail : Reg.msixTable (4 * r.vector + 3) ≠ r.tail) (hmask : (s.reg (Reg.msixTable (4 * r.vector + 3))).getLsbD 0 = false) :
    .msix r.vector ∈ (s.ringWrite r x).out ∧ ((s.ringWrite r x).ring r).unsignalled = 0 := by
  obtain ⟨q2, q3, g, -, -, hsig, -⟩ := s.ringWrite_eq r x
  rw [hsig hs, State.msix_of_unmasked]
  · refine ⟨State.mem_out_toHost ?_ _, ?_⟩
    · rw [State.insecure_setRing]
      exact (State.insecure_toHost ..).trans h
    · rw [State.ring_toHost, State.ring_setRing]
  · rw [State.reg_setRing, State.reg_setFld_of_ne _ _ _ _ _ htail, State.reg_toHost]
    exact hmask

end

/-! ### What waits -/

section
variable {s : State} {r : RingRegs}

/-- A ring with nothing waiting and nothing lost has nothing to write. -/
theorem State.ringDrain_of_empty (hheld : (s.ring r).held = []) (hlost : (s.ring r).lost = 0) : s.ringDrain r = (0, s) := by
  unfold State.ringDrain
  rw [hheld, List.length_nil, State.ringHeld]
  dsimp only
  simp only [hlost, Nat.lt_irrefl, false_and, and_false, if_false, ite_self]

/-- An enabled ring with a free slot writes the oldest record first. -/
theorem State.ringDrain_of_held (hctrl : r.ctrl ∉ r.written) (hon : s.ringOn r = true) (hfull : s.ringFull r = false)
    {x : RingRec} {l : List RingRec} (hheld : (s.ring r).held = x :: l) :
    s.ringDrain r = ((s.setRing r { s.ring r with held := l }).ringWrite r x).ringDrain r := by
  generalize hv : (s.setRing r { s.ring r with held := l }).ringWrite r x = v
  have hvheld : (v.ring r).held = l := by
    obtain ⟨h, -⟩ := (s.setRing r { s.ring r with held := l }).ring_ringWrite r x
    rw [← hv, h, State.ring_setRing]
  have hvon : v.ringOn r = true := by
    have hreg : v.reg r.ctrl = s.reg r.ctrl := by rw [← hv, State.reg_ringWrite hctrl, State.reg_setRing]
    rw [State.ringOn, State.fld, hreg]
    exact hon
  have hstep : State.ringHeld r (s.ring r).held.length s = State.ringHeld r (v.ring r).held.length v := by
    rw [hvheld, hheld, List.length_cons, State.ringHeld, hheld]
    dsimp only
    rw [hfull, if_neg Bool.false_ne_true, hv]
  have hpitch : v.pitch = s.pitch := by
    rw [← hv]
    exact ((Reported.setRing ..).trans (Reported.ringWrite ..)).pitch
  unfold State.ringDrain
  rw [hon, hvon, if_pos rfl, if_pos rfl, hstep, hpitch]

/-! ### One record put -/

/-- A disabled ring holds the record, up to what it holds, and then loses it. -/
theorem State.ringPut_off (hon : s.ringOn r = false) (x : RingRec) : (s.ringPut r x).2 =
    if (s.ring r).held.length < r.hold then s.setRing r { s.ring r with held := (s.ring r).held ++ [x] } else s.ringLose r := by
  unfold State.ringPut
  rw [hon, if_neg Bool.false_ne_true]
  dsimp only
  split <;> rfl

/-- An enabled ring with nothing waiting writes the record at its tail, or loses it while it is full. -/
theorem State.ringPut_on (hon : s.ringOn r = true) (hheld : (s.ring r).held = []) (hlost : (s.ring r).lost = 0) (x : RingRec) :
    (s.ringPut r x).2 = if s.ringFull r = true then s.ringLose r else s.ringWrite r x := by
  unfold State.ringPut
  rw [hon, if_pos rfl, State.ringDrain_of_empty hheld hlost]
  dsimp only
  rw [hheld, hlost]
  simp only [List.length_nil, Nat.lt_irrefl, false_or]
  split <;> rfl

/-! ### Signals that are due -/

/-- The signal of a ring goes out on its vector, or becomes pending while that is masked. -/
theorem State.signalRing_unmasked (hmask : (s.reg (Reg.msixTable (4 * r.vector + 3))).getLsbD 0 = false)
    (h : s.insecure 0 = false) : (s.signalRing r).out = s.out ++ [.msix r.vector] := by
  rw [State.signalRing, State.msix_of_unmasked (by rwa [State.reg_setRing]),
    State.toHost_of_secure (by rwa [State.insecure_setRing])]
  show (s.setRing r _).out ++ _ = _
  rw [State.out_setRing]

theorem State.signalRing_masked (hmask : (s.reg (Reg.msixTable (4 * r.vector + 3))).getLsbD 0 = true) :
    (s.signalRing r).out = s.out ∧ (s.signalRing r).fld (Reg.msixPending (r.vector / 32)) (r.vector % 32) 1 = 1 := by
  rw [State.signalRing, State.msix_of_masked (by rwa [State.reg_setRing])]
  exact ⟨State.out_setRing .., State.fld_setFld_self _ _ _ (by omega)⟩

end

/-! ### The commands of the rings -/

theorem exec_eventRingEnable_eq (s : State) : exec .eventRingEnable s = execEventRingEnable s := by rfl

theorem exec_clampRingEnable_eq (s : State) : exec .clampRingEnable s = execClampRingEnable s := by rfl

theorem exec_eventIrqDelay_eq (s : State) : exec .eventIrqDelay s = execEventIrqDelay s := by rfl

theorem exec_clampIrqDelay_eq (s : State) : exec .clampIrqDelay s = execClampIrqDelay s := by rfl

section
variable {s : State} (hbar : s.barOn = true)
include hbar

theorem exec_eventRingEnable : exec .eventRingEnable s = .next ((s.setFld Reg.evtCtrl 0 1 1).ringDrain evtRing).2 := by
  rw [exec_eventRingEnable_eq, execEventRingEnable, whenOk_of hbar]

theorem exec_clampRingEnable : exec .clampRingEnable s = .next (s.setFld Reg.bootCringCtrl 0 1 1).clampDrain := by
  rw [exec_clampRingEnable_eq, execClampRingEnable, whenOk_of hbar]

theorem exec_eventIrqDelay (hdue : s.irqDue evtRing (s.fld Reg.evtIrqDelay 0 16) = true) :
    exec .eventIrqDelay s = .next (s.signalRing evtRing) := by
  rw [exec_eventIrqDelay_eq, execEventIrqDelay, whenOk_of (by rw [hbar, hdue]; rfl)]

theorem exec_clampIrqDelay (hdue : s.irqDue clampRing 100 = true) :
    exec .clampIrqDelay s = .next (s.signalRing clampRing) := by
  rw [exec_clampIrqDelay_eq, execClampIrqDelay, whenOk_of (by rw [hbar, hdue]; rfl)]

end

/-- Of neither ring are the registers that control it, or the entry of its vector, registers that it writes. -/
theorem RingRegs.apart {r : RingRegs} (h : r = evtRing ∨ r = clampRing) : r.ctrl ∉ r.written
    ∧ r.tail ≠ Reg.msixPending (r.vector / 32) ∧ Reg.msixTable (4 * r.vector + 3) ≠ r.tail := by
  rcases h with rfl | rfl <;> decide

/-- Settles O43: a record put by whether the ring is enabled and full, and each command of the rings. -/
theorem recordsReachTheirRing : Obligations.RecordsReachTheirRing := by
  intro s r hr g
  obtain ⟨hctrl, hpend, htable⟩ := RingRegs.apart hr
  have hnone : ∀ u : State, ∀ r : RingRegs, u.ring r = s.ring r → (s.ring r).held = [] → (s.ring r).lost = 0 →
      u.ringDrain r = (0, u) := fun u r hu hheld hlost =>
    State.ringDrain_of_empty (by rw [hu, hheld]) (by rw [hu, hlost])
  refine ⟨fun x => ⟨fun hon hroom => ?_, fun hon hfull => ?_, fun hon hheld hlost => ⟨fun hfull => ?_, fun hfull => ?_⟩⟩,
    fun x l hon hfull => ⟨State.ringDrain_of_held hctrl hon hfull, fun hsec hirq hcoal hmask => ?_⟩,
    fun hbar => ⟨exec_eventRingEnable hbar, exec_clampRingEnable hbar⟩, fun hbar hheld hlost => ?_, fun hbar hheld hlost => ?_,
    fun hbar hdue => ⟨_, exec_eventIrqDelay hbar hdue, State.ring_msix _ evtRing _,
      State.signalRing_unmasked (r := evtRing), State.signalRing_masked (r := evtRing)⟩,
    fun hbar hdue => ⟨_, exec_clampIrqDelay hbar hdue, State.ring_msix _ clampRing _,
      State.signalRing_unmasked (r := clampRing), State.signalRing_masked (r := clampRing)⟩⟩
  · rw [State.ringPut_off hon, if_pos hroom]
  · rw [State.ringPut_off hon, if_neg (Nat.not_lt.mpr hfull)]
  · rw [State.ringPut_on hon hheld hlost, if_pos hfull]
  · rw [State.ringPut_on hon hheld hlost, if_neg (ne_true_of_eq_false hfull)]
    obtain ⟨-, hseq⟩ := s.ring_ringWrite r x
    exact ⟨s.fld_tail_ringWrite r x hpend, hseq, s.mem_out_ringWrite r x⟩
  · exact s.ringWrite_signalled r x hsec ⟨hirq, hcoal⟩ htable hmask
  · rw [exec_eventRingEnable hbar, hnone (s.setFld Reg.evtCtrl 0 1 1) evtRing rfl hheld hlost]
  · rw [exec_clampRingEnable hbar, State.clampDrain, hnone (s.setFld Reg.bootCringCtrl 0 1 1) clampRing rfl hheld hlost]
    rfl

end Sys2Proof.Machine
end

section
/-! PROOF. The completion of descriptors, and those that complete at once, at a tick, or at the verdict (R455, R457, R459,
R461, R462). -/

namespace Sys2Proof.Machine

/-! ### Commands on descriptors -/

section
variable {s : State} {q slot kind : Nat} {d : Started} (hq : q < 64) (hup : s.up = true)
include hq hup

/-- A command on a descriptor that has not begun acts on it. -/
theorem onDesc_of_started (hslot : s.startedAt q slot kind = some d) (hbegun : d.begun = false) (act : Started → State) :
    onDesc q slot kind s act = .next (act d) := by
  rw [onDesc, decide_eq_true hq, onUnit_true, hslot]
  dsimp only
  rw [whenOk_of (by rw [hup, hbegun]; rfl)]

/-- A command on a descriptor that has begun acts on it. -/
theorem onBegun_of_begun (hslot : s.begunAt q slot kind = some d) (act : Started → State) :
    onBegun q slot kind s act = .next (act d) := by
  rw [onBegun, decide_eq_true hq, onUnit_true, hslot]
  dsimp only
  rw [whenOk_of hup]

end

/-! ### Completion -/

/-- The completion record of a descriptor. -/
def State.doneRec (s : State) (q : Nat) (d : Started) (status result : Nat) : Output :=
  .hostWrite (s.reg64 (Reg.hqQcbaseLo q) (Reg.hqQcbaseHi q) + 32 * ((s.queue q).completed % s.queueSize q))
    [BitVec.ofNat 64 s.pitch, BitVec.ofNat 64 (nthWord d.ws 2 + 2 ^ 32 * d.slot + 2 ^ 48 * status + 2 ^ 56 * d.kind),
     BitVec.ofNat 64 result, if (s.queue q).completed / s.queueSize q % 2 = 0 then 0x8000000000000000 else 0]

/-- The state in which a descriptor has left its record and its queue. -/
def State.doneAt (s : State) (q : Nat) (d : Started) (status result : Nat) : State :=
  (s.toHost (s.doneRec q d status result)).setQueue q
    { s.queue q with completed := (s.queue q).completed + 1, started := (s.queue q).started.erase d }

/-- A descriptor leaves its record and its queue, which signals where both ask for it, and settles. -/
theorem State.complete_eq (s : State) (q : Nat) (d : Started) (status result : Nat) : s.complete q d status result =
    (if wfield d.ws 1 9 1 = 1 ∧ s.fld (Reg.hqQctrl q) 8 1 = 1 then (s.doneAt q d status result).msix q
     else s.doneAt q d status result).queueSettle q := by
  have hphase : BitVec.ofNat 64 (if (s.queue q).completed / s.queueSize q % 2 = 0 then 2 ^ 63 else 0)
      = if (s.queue q).completed / s.queueSize q % 2 = 0 then 0x8000000000000000 else 0 :=
    apply_ite (BitVec.ofNat 64) _ _ _
  rw [State.doneAt, State.doneRec, ← hphase]
  rfl

section
variable {s : State} {q : Nat} {d : Started} {status result : Nat}

@[simp] theorem State.queue_msix (s : State) (v q : Nat) : (s.msix v).queue q = s.queue q := (Reported.msix s v).queue q

theorem State.out_queueSettle (s : State) (q : Nat) : (s.queueSettle q).out = s.out := by
  unfold State.queueSettle
  dsimp only
  split <;> rfl

theorem State.queue_doneAt : (s.doneAt q d status result).queue q =
    { s.queue q with completed := (s.queue q).completed + 1, started := (s.queue q).started.erase d } :=
  (State.queue_setQueue ..).trans (if_pos rfl)

/-- What is put out before the queue settles stays put out. -/
theorem State.mem_out_complete {o : Output} (h : o ∈ (s.doneAt q d status result).out) :
    o ∈ (s.complete q d status result).out := by
  rw [State.complete_eq, State.out_queueSettle]
  split
  · exact State.mem_out_msix_of_mem h q
  · exact h

/-- Over a secure link the record is written. -/
theorem State.doneRec_mem_out (hsec : s.insecure 0 = false) :
    s.doneRec q d status result ∈ (s.complete q d status result).out :=
  State.mem_out_complete (State.mem_out_toHost hsec _)

theorem State.queueSettle_of_not_draining (h : (s.queue q).draining = false) : s.queueSettle q = s :=
  if_neg fun hd => Bool.false_ne_true (h.symm.trans hd.1)

/-- A queue that does not drain counts the completion and forgets the descriptor. -/
theorem State.queue_complete_of_not_draining (h : (s.queue q).draining = false) : (s.complete q d status result).queue q =
    { s.queue q with completed := (s.queue q).completed + 1, started := (s.queue q).started.erase d } := by
  have hsettle : ∀ u : State, u.queue q = (s.doneAt q d status result).queue q → (u.queueSettle q).queue q
      = { s.queue q with completed := (s.queue q).completed + 1, started := (s.queue q).started.erase d } := fun u hu => by
    rw [State.queue_doneAt] at hu
    rw [State.queueSettle_of_not_draining (by rw [hu]; exact h), hu]
  rw [State.complete_eq]
  split
  · exact hsettle _ (State.queue_msix ..)
  · exact hsettle _ rfl

/-- A queue that drains is DISABLED once its last descriptor is done. -/
theorem State.queue_complete_of_drained (h : (s.queue q).draining = true) (hlast : (s.queue q).started = [d]) :
    (s.complete q d status result).queue q = {} := by
  have hsettle : ∀ u : State, u.queue q = (s.doneAt q d status result).queue q → (u.queueSettle q).queue q = {} :=
    fun u hu => by
      rw [State.queue_doneAt] at hu
      rw [State.queueSettle_of_drained (by rw [hu]; exact h) (by rw [hu, hlast]; exact List.erase_cons_head ..),
        State.queue_setFld, State.queue_setQueue, if_pos rfl]
  rw [State.complete_eq]
  split
  · exact hsettle _ (State.queue_msix ..)
  · exact hsettle _ rfl

/-- Over a secure link, where the descriptor and its queue ask for it, the vector of the queue is signalled. -/
theorem State.msix_mem_out_complete (hsec : s.insecure 0 = false)
    (hasks : wfield d.ws 1 9 1 = 1 ∧ s.fld (Reg.hqQctrl q) 8 1 = 1)
    (hmask : (s.reg (Reg.msixTable (4 * q + 3))).getLsbD 0 = false) : .msix q ∈ (s.complete q d status result).out := by
  rw [State.complete_eq, if_pos hasks, State.out_queueSettle, State.msix_of_unmasked]
  · have hdone : (s.doneAt q d status result).insecure 0 = false := (State.insecure_toHost ..).trans hsec
    exact State.mem_out_toHost hdone _
  · exact (congrArg (·.getLsbD 0) (State.reg_toHost s (s.doneRec q d status result) _)).trans hmask

end

/-! ### NOP, WAIT and STEP -/

theorem exec_descNop_eq (q slot : Nat) (s : State) :
    exec (.descNop q slot) s = onDesc q slot 0 s (fun d => s.complete q d 0 0) := by rfl

theorem exec_wait_eq (q slot : Nat) (s : State) : exec (.wait q slot) s = onDesc q slot 4 s (fun d =>
    if s.waitDue d then s.complete q d 0 0 else s.putStarted q d { d with begun := true }) := by rfl

theorem exec_waitComplete_eq (q slot : Nat) (s : State) : exec (.waitComplete q slot) s
    = onBegun q slot 4 s (fun d => whenOk (s.waitDue d) s (s.complete q d 0 0)) := by rfl

theorem exec_step_eq (q slot : Nat) (s : State) : exec (.step q slot) s = execStep q slot s := by rfl

section
variable {s : State} {q slot : Nat} {d : Started} (hq : q < 64) (hup : s.up = true)
include hq hup

/-- A STEP that turns no step machine on completes for another epoch or outside a step, and else seals and waits. -/
theorem exec_step_started (hslot : s.startedAt q slot 2 = some d) (hbegun : d.begun = false)
    (hon : ¬(s.step.mode = .idle ∧ wfield d.ws 6 0 1 = 1)) : exec (.step q slot) s = .next
      (let t := nthWord d.ws 4 + 2 ^ 32 * nthWord d.ws 5
       if s.epoch.toNat ≠ nthWord d.ws 3 then s.complete q d 4 s.epoch.toNat
       else if s.stepping = false then s.complete q d 5 0
       else (if t = 0 then s else s.sealAt unitMgmt t).putStarted q d { d with begun := true }) := by
  rw [exec_step_eq, execStep, onDesc_of_started hq hup hslot hbegun, if_neg hon]

end

/-- In a step the step machine is on. -/
theorem State.mode_ne_idle_of_stepping {s : State} (h : s.stepping = true) : s.step.mode ≠ .idle := fun hidle => by
  rw [State.stepping, hidle] at h
  exact Bool.noConfusion h

/-- Settles O40: a completion by what its queue and its descriptor ask for, and each kind by its condition. -/
theorem descriptorsComplete : Obligations.DescriptorsComplete := by
  refine ⟨?_, fun s q slot d hq hup => ⟨fun hslot hbegun => ?_, fun hslot hbegun => ⟨fun hdue => ?_, fun hdue => ?_⟩,
    fun hslot => ⟨fun hdue => ?_, fun hdue => ?_⟩, fun hslot hbegun hstep => ?_, fun hslot hbegun hstep hflag hepoch => ?_⟩⟩
  · intro s q st r d hq hd k n t hsec
    exact ⟨State.doneRec_mem_out hsec, State.queue_complete_of_not_draining, State.queue_complete_of_drained,
      fun hwant hctrl => State.msix_mem_out_complete hsec ⟨hwant, hctrl⟩⟩
  · rw [exec_descNop_eq, onDesc_of_started hq hup hslot hbegun]
  · rw [exec_wait_eq, onDesc_of_started hq hup hslot hbegun, if_pos hdue]
  · rw [exec_wait_eq, onDesc_of_started hq hup hslot hbegun, if_neg (ne_true_of_eq_false hdue)]
  · rw [exec_waitComplete_eq, onBegun_of_begun hq hup hslot, whenOk_of hdue]
  · rw [exec_waitComplete_eq, onBegun_of_begun hq hup hslot, hdue, whenOk_false]
  · have hsealed : ¬s.stepping = false := fun h => Bool.noConfusion (hstep.symm.trans h)
    rw [exec_step_started hq hup hslot hbegun fun h => State.mode_ne_idle_of_stepping hstep h.1]
    dsimp only
    refine ⟨fun hepoch => ?_, fun hepoch hlo hhi => ?_, fun t hepoch ht hne => ?_⟩
    · rw [if_pos hepoch]
    · rw [if_neg (not_not.mpr hepoch), if_neg hsealed, hlo, hhi]
      rfl
    · rw [if_neg (not_not.mpr hepoch), if_neg hsealed, ← ht, if_neg hne]
  · rw [exec_step_started hq hup hslot hbegun fun h => by rw [hflag] at h; exact absurd h.2 (by decide)]
    dsimp only
    rw [if_neg (not_not.mpr hepoch), if_pos hstep]

end Sys2Proof.Machine
end

section
/-! PROOF. PROGRAM loads its image into its cells alone, and starts them at their tick (R458). -/

namespace Sys2Proof.Machine

/-! ### The cells of a PROGRAM -/

theorem nodup_progCellList (ws : List Nat) : (progCellList ws).Nodup :=
  List.nodup_range.map fun _ _ h => Nat.add_left_cancel h

/-- Cells that are changed one by one, each by what it is itself. -/
theorem cell_foldl_of_each {g : State → Nat → State} {f : Cell → Cell}
    (hg : ∀ t c e, (g t c).cell e = if e = c then f (t.cell e) else t.cell e) :
    ∀ (l : List Nat), l.Nodup → ∀ (s : State) (e : Nat), (l.foldl g s).cell e = if e ∈ l then f (s.cell e) else s.cell e
  | [], _, _, _ => rfl
  | c :: l, hl, s, e => by
    obtain ⟨hc, hl⟩ := List.nodup_cons.mp hl
    rw [List.foldl_cons, cell_foldl_of_each hg l hl, hg]
    by_cases he : e = c
    · subst he
      rw [if_neg hc, if_pos rfl, if_pos (List.mem_cons_self ..)]
    · rw [if_neg he]
      exact if_congr (by simp [he]) rfl rfl

/-- A table written at consecutive keys. -/
theorem tabGet_foldl_range {V : Type} [DecidableEq V] (d : Nat → V) (m : List (Nat × V)) (w0 : Nat) (f : Nat → V) (w : Nat) :
    ∀ n, tabGet d ((List.range n).foldl (fun m i => tabSet d m (w0 + i) (f i)) m) w
      = if w0 ≤ w ∧ w < w0 + n then f (w - w0) else tabGet d m w
  | 0 => by rw [if_neg (by omega)]; rfl
  | n + 1 => by
    rw [List.range_succ, List.foldl_append, List.foldl_cons, List.foldl_nil, tabGet_tabSet, tabGet_foldl_range d m w0 f w n]
    by_cases h : w = w0 + n
    · rw [if_pos h, if_pos (by omega), h, Nat.add_sub_cancel_left]
    · rw [if_neg h]
      exact if_congr (by omega) rfl rfl

/-! ### A cell that is programmed, and one that is started -/

/-- A cell after a PROGRAM has loaded it. -/
def Cell.programmed (k : Cell) (ws : List Nat) (image : List W64) : Cell :=
  let k1 := k.loadWords (wfield ws 5 0 12) (wfield ws 5 12 13) image
  if wfield ws 7 0 1 = 1 then { k1 with pc := BitVec.ofNat 12 (wfield ws 7 1 12) } else k1

/-- A cell after RUN has been written to it. -/
def Cell.ran (k : Cell) : Cell := if k.run = .running then k else { k with run := .running, active := false, stall := none }

section
variable (k : Cell) (ws : List Nat) (image : List W64)

theorem Cell.programmed_imem (w : Nat) : tabGet (fun _ => 0) (k.programmed ws image).imem w =
    if wfield ws 5 0 12 ≤ w ∧ w < wfield ws 5 0 12 + wfield ws 5 12 13 then image.getD (w - wfield ws 5 0 12) 0
    else tabGet (fun _ => 0) k.imem w := by
  have himem : (k.programmed ws image).imem = (k.loadWords (wfield ws 5 0 12) (wfield ws 5 12 13) image).imem := by
    unfold Cell.programmed
    dsimp only
    split <;> rfl
  rw [himem]
  exact tabGet_foldl_range ..

theorem Cell.programmed_run : (k.programmed ws image).run = k.run := by
  unfold Cell.programmed
  dsimp only
  split <;> rfl

theorem Cell.programmed_pc (h : wfield ws 7 0 1 = 1) : (k.programmed ws image).pc = BitVec.ofNat 12 (wfield ws 7 1 12) := by
  rw [Cell.programmed, if_pos h]

theorem Cell.ran_run : k.ran.run = .running := by
  unfold Cell.ran
  split
  · assumption
  · rfl

theorem Cell.ran_kept : k.ran.pc = k.pc ∧ k.ran.imem = k.imem := by
  unfold Cell.ran
  split <;> exact ⟨rfl, rfl⟩

end

section
variable (s : State) (d : Started) (image : List W64)

/-- A PROGRAM loads its cells, and no other. -/
theorem State.cell_progLoad (c : Nat) : (s.progLoad d image).cell c =
    if c ∈ progCellList d.ws then (s.cell c).programmed d.ws image else s.cell c := by
  refine cell_foldl_of_each (f := fun k => k.programmed d.ws image) (fun t c e => ?_) _ (nodup_progCellList _) s c
  rw [State.cell_setCell]
  by_cases h : e = c
  · rw [if_pos h, if_pos h, h]
    rfl
  · rw [if_neg h, if_neg h]

theorem State.cell_startCore (c e : Nat) : (s.startCore c).cell e = if e = c then (s.cell e).ran else s.cell e := by
  by_cases hrun : (s.cell c).run = .running
  · rw [State.startCore, if_pos hrun]
    by_cases h : e = c
    · rw [if_pos h, h, Cell.ran, if_pos hrun]
    · rw [if_neg h]
  · rw [State.startCore, if_neg hrun, State.cell_setCell]
    by_cases h : e = c
    · rw [if_pos h, if_pos h, h, Cell.ran, if_neg hrun]
    · rw [if_neg h, if_neg h]

/-- Every cell of the list is started, and no other. -/
theorem State.cell_startCores (c : Nat) : ((progCellList d.ws).foldl State.startCore s).cell c =
    if c ∈ progCellList d.ws then (s.cell c).ran else s.cell c :=
  cell_foldl_of_each State.cell_startCore _ (nodup_progCellList _) s c

end

/-! ### What the commands leave alone -/

/-- The scratchpad and HBM are as before. -/
def MemoryKept (s t : State) : Prop := t.spad = s.spad ∧ t.hbm = s.hbm

theorem MemoryKept.trans {s t u : State} (h : MemoryKept s t) (g : MemoryKept t u) : MemoryKept s u :=
  ⟨g.1.trans h.1, g.2.trans h.2⟩

theorem MemoryKept.of_reported {s t : State} (h : Reported s t) : MemoryKept s t := ⟨h.spad, h.hbm⟩

theorem MemoryKept.foldl {α : Type} {f : State → α → State} (hf : ∀ s a, MemoryKept s (f s a)) (l : List α) (s : State) :
    MemoryKept s (l.foldl f s) := l.foldlRecOn f ⟨rfl, rfl⟩ fun _ h a _ => h.trans (hf _ a)

/-- A completion changes no cell and no memory. -/
theorem State.complete_kept (s : State) (q : Nat) (d : Started) (status result : Nat) :
    (s.complete q d status result).cells = s.cells ∧ MemoryKept s (s.complete q d status result) := by
  have hdone : (s.doneAt q d status result).cells = s.cells ∧ MemoryKept s (s.doneAt q d status result) :=
    have h := Reported.toHost s (s.doneRec q d status result)
    ⟨h.cells, h.spad, h.hbm⟩
  have hsettle : ∀ u : State, Reported (s.doneAt q d status result) u → (u.queueSettle q).cells = s.cells
      ∧ MemoryKept s (u.queueSettle q) := fun u h => by
    have hu : u.cells = s.cells ∧ MemoryKept s u := ⟨h.cells.trans hdone.1, hdone.2.trans (.of_reported h)⟩
    unfold State.queueSettle
    dsimp only
    split
    · exact hu
    · exact hu
  rw [State.complete_eq]
  split
  · exact hsettle _ (.msix ..)
  · exact hsettle _ (.refl _)

theorem State.cell_complete (s : State) (q : Nat) (d : Started) (status result c : Nat) :
    (s.complete q d status result).cell c = s.cell c := by
  obtain ⟨hcells, -⟩ := s.complete_kept q d status result
  rw [State.cell, hcells, State.cell]

theorem State.memoryKept_progLoad (s : State) (d : Started) (image : List W64) : MemoryKept s (s.progLoad d image) :=
  MemoryKept.foldl (f := fun t c => t.setCell c _) (fun _ _ => ⟨rfl, rfl⟩) _ s

theorem State.memoryKept_progRun (s : State) (q : Nat) (d : Started) : MemoryKept s (s.progRun q d) := by
  obtain ⟨-, hdone⟩ := ((progCellList d.ws).foldl State.startCore s).complete_kept q d 0 0
  refine (MemoryKept.foldl (fun t c => ?_) _ s).trans hdone
  unfold State.startCore
  dsimp only
  split <;> exact ⟨rfl, rfl⟩

/-- A PROGRAM that starts its cells starts those, and no other. -/
theorem State.cell_progRun (s : State) (q : Nat) (d : Started) (c : Nat) : (s.progRun q d).cell c =
    if c ∈ progCellList d.ws then (s.cell c).ran else s.cell c := by
  rw [State.progRun, State.cell_complete, State.cell_startCores]

/-! ### PROGRAM and PROGRAM_START -/

theorem exec_program_eq (q slot : Nat) (image : List W64) (s : State) :
    exec (.program q slot image) s = execProgram q slot image s := by rfl

theorem exec_programStart_eq (q slot : Nat) (s : State) : exec (.programStart q slot) s
    = onBegun q slot 1 s (fun d => whenOk (s.progDue d) s (s.progRun q d)) := by rfl

/-- The state in which a PROGRAM has read its image and loaded its cells. -/
def State.loaded (s : State) (d : Started) (image : List W64) : State :=
  (s.toHost (.hostRead (nthWord d.ws 3 + 2 ^ 32 * nthWord d.ws 4) (8 * wfield d.ws 5 12 13))).progLoad d image

/-- Where it goes on from there: it completes, starts its cells, or waits for its tick. -/
def State.programmed (s : State) (q : Nat) (d : Started) (image : List W64) : State :=
  if wfield d.ws 7 0 1 = 0 then (s.loaded d image).complete q d 0 0
  else if s.progDue d then (s.loaded d image).progRun q d
  else (s.loaded d image).putStarted q d { d with begun := true }

theorem State.cell_loaded (s : State) (d : Started) (image : List W64) (c : Nat) : (s.loaded d image).cell c =
    if c ∈ progCellList d.ws then (s.cell c).programmed d.ws image else s.cell c := by
  rw [State.loaded, State.cell_progLoad, (Reported.toHost ..).cell]

section
variable (s : State) (q : Nat) (d : Started) (image : List W64) {c : Nat}

/-- A cell of the PROGRAM is loaded, and is started where START is set and its tick has come. -/
theorem State.cell_programmed (hc : c ∈ progCellList d.ws) : (s.programmed q d image).cell c =
    if wfield d.ws 7 0 1 ≠ 0 ∧ s.progDue d = true then ((s.cell c).programmed d.ws image).ran
    else (s.cell c).programmed d.ws image := by
  have hloaded : (s.loaded d image).cell c = (s.cell c).programmed d.ws image := (State.cell_loaded ..).trans (if_pos hc)
  rw [State.programmed]
  by_cases hstart : wfield d.ws 7 0 1 = 0
  · rw [if_pos hstart, State.cell_complete, hloaded, if_neg fun h => h.1 hstart]
  · rw [if_neg hstart]
    by_cases hdue : s.progDue d = true
    · rw [if_pos hdue, State.cell_progRun, if_pos hc, hloaded, if_pos ⟨hstart, hdue⟩]
    · rw [if_neg hdue, if_neg fun h => hdue h.2]
      exact hloaded

/-- Any other cell stays as it is. -/
theorem State.cell_programmed_outside (hc : c ∉ progCellList d.ws) : (s.programmed q d image).cell c = s.cell c := by
  have hloaded : (s.loaded d image).cell c = s.cell c := (State.cell_loaded ..).trans (if_neg hc)
  rw [State.programmed]
  split
  · rw [State.cell_complete, hloaded]
  · split
    · rw [State.cell_progRun, if_neg hc, hloaded]
    · exact hloaded

end

theorem State.memoryKept_programmed (s : State) (q : Nat) (d : Started) (image : List W64) :
    MemoryKept s (s.programmed q d image) := by
  have hloaded : MemoryKept s (s.loaded d image) :=
    (MemoryKept.of_reported (.toHost ..)).trans (State.memoryKept_progLoad ..)
  obtain ⟨-, hdone⟩ := (s.loaded d image).complete_kept q d 0 0
  unfold State.programmed
  split
  · exact hloaded.trans hdone
  · split
    · exact hloaded.trans (State.memoryKept_progRun ..)
    · exact hloaded

section
variable {s : State} {q slot : Nat} {d : Started} (hq : q < 64) (hup : s.up = true)
include hq hup

/-- A PROGRAM completes as BUSY where a cell is RUNNING, and else loads its cells. -/
theorem exec_program_started (hslot : s.startedAt q slot 1 = some d) (hbegun : d.begun = false)
    (hfree : s.progOverlaps (progCellList d.ws) = false) (image : List W64) : exec (.program q slot image) s = .next
      (if (progCellList d.ws).any (fun c => (s.cell c).run == .running) then s.complete q d 3 0
       else s.programmed q d image) := by
  rw [exec_program_eq, execProgram, onDesc_of_started hq hup hslot hbegun]
  dsimp only
  rw [hfree, if_neg Bool.false_ne_true]
  rfl

end

/-- Settles O41: the cells one by one, by whether a cell is RUNNING, by START, and by the tick. -/
theorem programLoadsItsCells : Obligations.ProgramLoadsItsCells := by
  intro s q slot d image hq hup cells w0 n read
  refine ⟨fun hslot hbegun hfree => ⟨fun ⟨c, hc, hrun⟩ => ?_, fun hidle => ⟨s.programmed q d image, ?_, fun c hc w => ?_,
    fun c hc => ?_, ?_, fun hstart => ?_, fun hstart c hc => ?_⟩⟩, fun hslot => ⟨fun hdue => ?_, fun hdue => ?_⟩⟩
  · rw [exec_program_started hq hup hslot hbegun hfree, if_pos]
    exact List.any_eq_true.mpr ⟨c, hc, beq_iff_eq.mpr hrun⟩
  · rw [exec_program_started hq hup hslot hbegun hfree, if_neg]
    rw [List.any_eq_true]
    rintro ⟨c, hc, hrun⟩
    exact hidle c hc (beq_iff_eq.mp hrun)
  · rw [s.cell_programmed q d image hc]
    split
    · obtain ⟨-, himem⟩ := ((s.cell c).programmed d.ws image).ran_kept
      rw [himem, Cell.programmed_imem]
    · rw [Cell.programmed_imem]
  · exact s.cell_programmed_outside q d image hc
  · obtain ⟨hspad, hhbm⟩ := s.memoryKept_programmed q d image
    exact sameMemory_of_eq hspad hhbm
  · rw [State.programmed, if_pos hstart]
    rfl
  · rw [s.cell_programmed q d image hc]
    have hset : wfield d.ws 7 0 1 ≠ 0 := by rw [hstart]; decide
    by_cases hdue : s.progDue d = true
    · obtain ⟨hpc, -⟩ := ((s.cell c).programmed d.ws image).ran_kept
      rw [if_pos ⟨hset, hdue⟩]
      exact ⟨hpc.trans (Cell.programmed_pc _ _ _ hstart), fun _ => Cell.ran_run _, fun h => absurd (hdue.symm.trans h) (by decide)⟩
    · rw [if_neg fun h => hdue h.2]
      exact ⟨Cell.programmed_pc _ _ _ hstart, fun h => absurd h hdue, fun _ => Cell.programmed_run ..⟩
  · rw [exec_programStart_eq, onBegun_of_begun hq hup hslot, hdue, whenOk_false]
  · refine ⟨s.progRun q d, by rw [exec_programStart_eq, onBegun_of_begun hq hup hslot, whenOk_of hdue], fun c hc => ?_,
      fun c hc => ?_⟩
    · obtain ⟨hpc, -⟩ := (s.cell c).ran_kept
      rw [State.cell_progRun, if_pos hc]
      exact ⟨Cell.ran_run _, hpc⟩
    · rw [State.cell_progRun, if_neg hc]

end Sys2Proof.Machine
end
